-- ==== Sys2Proof/Word.lean ====
section
/-! DEFINITION. The word types of the IZ6416: a register and a memory word have 32 bits (spec/00, R6), a byte has 8. -/

namespace Sys2Proof

/-- One 32-bit register or memory word (R6, R33). -/
abbrev Word := BitVec 32

/-- One byte of memory. -/
abbrev Byte := BitVec 8

end Sys2Proof
end

