-- ==== Sys2Proof/Syntax.lean ====
section
/-! DEFINITION. The commands of the IZ6416: one constructor per row of spec/opcode_table.json, with the operands the
row acts on. A command stands for a register access, a packet, an instruction of a core or loop engine, or an event the
outside world or the passing of time brings about (notes/assumptions: time is the sender's assertion). -/

namespace Sys2Proof

/-- A rail, 0 to 15. -/
abbrev Rail := Fin 16

/-- A phase channel, 0 to 63. -/
abbrev Phase := Fin 64

/-- A grove, 0 to 15. -/
abbrev Grove := Fin 16

/-- A loop engine of a grove, 0 to 33. -/
abbrev Engine := Fin 34

/-- A lane, 0 to 11. -/
abbrev Lane := Fin 12

/-- A partition, 0 to 7. -/
abbrev Part := Fin 8

/-- An initiator of the global bus (R38, R396). Its partition tag and warden attribute follow from the state; `packet` is
the warden that accesses with the tag of a packet from a port (R440), and `debug` the debug port with the partition chosen at
the start of its session (R396). -/
inductive Initiator where
  | core (c : Fin 4)
  | warden
  | root
  | dma (ch : Fin 32)
  | debug (p : Fin 8)
  | packet (p : Fin 8) (port : Fin 4)
  deriving DecidableEq, Repr

/-- The PEC a PMBus host sends with a write (R443, R446). -/
inductive Pec where
  | ok | absent | bad
  deriving DecidableEq, Repr

/-- A transaction with a PMBus standard command (R448): a read, or a write of data bytes; a send byte writes none. -/
inductive PmbOp where
  | read
  | write (data : List Byte) (pec : Pec)
  deriving DecidableEq, Repr

/-- A hardware consumer of a ring (R489): a lane's transmitter, or a DMA channel in ring mode. -/
inductive Claimer where
  | lane (l : Lane)
  | dma (ch : Fin 32)
  deriving DecidableEq, Repr

/-- A CPU: an application core, the warden, or a loop engine of a grove (R565). -/
inductive Cpu where
  | core (c : Fin 4)
  | warden
  | engine (g : Grove) (e : Engine)
  deriving DecidableEq, Repr

/-- A general register's number. -/
abbrev GReg := Fin 32

/-- The last register field of an R-format word that its row reads, with the word's S bit (R570). -/
structure GRegS where
  reg : GReg
  sf : Bool
  deriving DecidableEq, Repr

/-- The commands, in the order of the opcode table. -/
inductive Instr where
  /-- REGISTER_WRITE: A write to a register with no row of its own stores its fields according to their access types, subject to the lock, encoding and ownership checks (R10). The initiator, the address and the word written. -/
  | registerWrite (who : Initiator) (addr : Word) (data : Word)
  /-- LOOP_SAMPLE: Each LCLK sample of a rail passes through the quantise, compensate and distribute stages and moves the PWM edges (R43). One LCLK edge: the input-current shunt voltage in units of 31.25 µV, the output voltage of every rail whose loop is clocked in F (1/1,024 mV, floored), and the raw codes of the phase current converters, which sample at every fourth edge (R101). -/
  | loopSample (iin : Nat) (vs : List (Rail × Int)) (cs : List (Phase × Int))
  /-- OVR_PERSIST: The over-range run reaches FL_OVR.LIM and sets OVR_PERSIST (R46). -/
  | ovrPersist (k : Rail)
  /-- STRIKE_LIMIT: A strike reaches TMAX and enters RESTORE with STRIKE_TMAX (R62). -/
  | strikeLimit (k : Rail)
  /-- RELEASE_LIMIT: A release reaches TMAX and enters RESTORE with REL_TMAX (R62). -/
  | releaseLimit (k : Rail)
  /-- HOLDOFF_EXPIRE: A strike or release hold-off timer expires (R63). The strike hold-off timer, or the release one. -/
  | holdoffExpire (k : Rail) (strike : Bool)
  /-- RESTORE_DONE: The PERIODS-th lead valley ends RESTORE and the loop returns to RUN (R68). -/
  | restoreDone (k : Rail)
  /-- COMMIT_POINT: The lead phase reaches its valley, the pending shadows are applied and the COMMIT event is raised (R72). -/
  | commitPoint (k : Rail)
  /-- SHADOW_APPLY_IDLE: On a rail with no switching phase, pending changes are applied in the next LCLK cycle (R74). The commit domain: 0 to 15 a rail, 16 the store phases, 17 the phases with no role (R114). -/
  | shadowApplyIdle (c : Fin 18)
  /-- STALE_FREEZE: AGE reaches STALE_LIM and the rail freezes (R79). -/
  | staleFreeze (k : Rail)
  /-- STALE_CLEAR: A write of 1 to FL_STEER.STALE clears the watchdog freeze at the next commit (R82). -/
  | staleClear (who : Initiator) (k : Rail)
  /-- FL_CMT_HOLD_RELEASE: Clearing FL_CMT.HOLD makes the held software writes pending together (R75). -/
  | flCmtHoldRelease (who : Initiator) (k : Rail)
  /-- FL_CMT_CLRCNT: A write of 1 to CLRCNT clears FL_COUNT (R83). -/
  | flCmtClrcnt (who : Initiator) (k : Rail)
  /-- FL_INT_LO_READ: A read of FL_INT_LO returns the low integrator bits and captures the high bits into FL_INT_HI (R709). -/
  | flIntLoRead (who : Initiator) (k : Rail)
  /-- PHASE_VALLEY: At a phase valley the period mean is formed, the angle steps and equalisation updates (R106). -/
  | phaseValley (n : Phase)
  /-- PWM_RISE: A phase's position enters its pulse region and the phase rises (R89). -/
  | pwmRise (n : Phase)
  /-- PWM_FALL: A phase's position leaves its pulse region and the phase falls (R89). -/
  | pwmFall (n : Phase)
  /-- CBC_TRIP: The positive cycle-by-cycle comparator ends the HIGH state of the phase (R92). -/
  | cbcTrip (n : Phase)
  /-- NOC_TRIP: The negative comparator tri-states a phase that is LOW (R92). -/
  | nocTrip (n : Phase)
  /-- NS_ZERO_CURRENT: Under non-sink operation a LOW phase goes TRI at the zero-current threshold (R93). -/
  | nsZeroCurrent (n : Phase)
  /-- AZ_START: A write of PH_CTL.AZ starts an auto-zero on an ARMED phase (R105). -/
  | azStart (who : Initiator) (n : Phase)
  /-- AZ_DONE: The auto-zero completes, writes OFS and sets AZ_DONE (R105). -/
  | azDone (n : Phase)
  /-- CLR_FAIL: A write of PH_CTL.CLR_FAIL moves a FAILED phase to IDLE (R115). -/
  | clrFail (who : Initiator) (n : Phase)
  /-- PH_CLRCNT: A write of PH_CTL.CLRCNT clears PH_COUNT (R134). -/
  | phClrcnt (who : Initiator) (n : Phase)
  /-- ARM_DELAY_EXPIRE: The enable delay elapses and the phase becomes ARMED (R115). -/
  | armDelayExpire (n : Phase)
  /-- TONE_MAP_GO: A write of PH_MAP_CTL.GO tone-maps one phase (R714). -/
  | toneMapGo (who : Initiator) (n : Phase)
  /-- TONE_MAP_ALL: A write of PH_MAP_CTL.ALL tone-maps every IDLE unmapped phase (R714). -/
  | toneMapAll (who : Initiator)
  /-- TONE_ANSWER: A stage reports a decoded tone by an in-band interrupt 0xA3 (R124). Bus, dynamic address and code. -/
  | toneAnswer (m : Fin 4) (addr : Fin 128) (code : Byte)
  /-- TONE_WINDOW_CLOSE: The answer window closes and the phase is mapped, left unmapped or marked CONFLICT (R123). The life mirror read from the stage that is mapped. -/
  | toneWindowClose (mirror : List Byte)
  /-- STAGE_FAULT_REPORT: A stage reports a FAULT change by in-band interrupt 0xA1 (R125). -/
  | stageFaultReport (m : Fin 4) (addr : Fin 128) (fault : Byte)
  /-- STAGE_TEMP_REPORT: A stage reports a T_WARN or T_LIMIT crossing by in-band interrupt 0xA2 (R125). -/
  | stageTempReport (m : Fin 4) (addr : Fin 128) (temp : BitVec 16)
  /-- ROLL_CALL_START: A write of PH_SB_ROLL.START starts a roll call (R120). -/
  | rollCallStart (who : Initiator) (m : Fin 4)
  /-- BUS_ENABLE: PH_SB_CFG.EN becoming 1, at a write or at reset release, starts a roll call with RSTDAA (R120). -/
  | busEnable (who : Initiator) (m : Fin 4)
  /-- HOT_JOIN: A Hot-Join request is accepted into a roll call, or refused with a NACK (R711). -/
  | hotJoin (m : Fin 4)
  /-- DESC_READ_DONE: The descriptor read of a new target completes and is accepted or refused (R129). The provisioned ID and descriptor of a new target, none where ENTDAA found no other; last ends the roll call. -/
  | descReadDone (m : Fin 4) (t : Option (BitVec 48 × List Byte)) (last : Bool)
  /-- PRESENCE_POLL: The ROLL_MS timer expires and STATUS and TEMP of each mapped stage are read (R121). Address, STATUS and TEMP of every mapped stage that acknowledged. -/
  | presencePoll (m : Fin 4) (ans : List (Fin 128 × Byte × BitVec 16))
  /-- STAGE_ACCESS_GO: A write of PH_SACC_CMD.GO starts a stage private transfer (R133). -/
  | stageAccessGo (who : Initiator) (n : Phase) (wr : Bool) (addr : BitVec 16) (len : Fin 8)
  /-- STAGE_ACCESS_DONE: The stage transfer completes and its result is set (R133). -/
  | stageAccessDone (ack : Bool) (data : Word)
  /-- SELF_TEST_DONE: An engine self-test completes and the engine passes or fails (R174). -/
  | selfTestDone (g : Grove) (e : Engine) (pass : Bool)
  /-- TASK_TRIGGER: A task's trigger makes it pending, fills its slot or is dropped (R159). -/
  | taskTrigger (g : Grove)
  /-- PASS_START: The dispatcher starts a pending task's pass on a free engine (R160). -/
  | passStart (g : Grove)
  /-- STEER_WRITE_DRAIN: The steering queue drains one write per LCLK cycle toward the shadows (R141). -/
  | steerWriteDrain (g : Grove)
  /-- STEER_MARKER_ARRIVE: A pass's closing marker reaches the shadows and its writes become pending (R76). -/
  | steerMarkerArrive (g : Grove)
  /-- PASS_WATCHDOG: A pass exceeds its budget, is cancelled, and its engine is self-tested (R163). -/
  | passWatchdog (g : Grove) (e : Engine)
  /-- CAPTURE_DONE: The last capture sample sets DONE and raises grove event 0 (R154). -/
  | captureDone (g : Grove)
  /-- GROVE_ENABLE: Setting GV_CFG.EN starts dispatch (R179). The word written to GV_CFG, with EN set. -/
  | groveEnable (who : Initiator) (g : Grove) (data : Word)
  /-- GROVE_DISABLE: Clearing GV_CFG.EN cancels passes and empties pending slots (R179). The word written to GV_CFG, with EN clear. -/
  | groveDisable (who : Initiator) (g : Grove) (data : Word)
  /-- TASK_ENABLE: Setting GV_TCFG.EN enables a task or is refused by the admission check (R162). The word written to GV_TCFG, with EN set. -/
  | taskEnable (who : Initiator) (g : Grove) (t : Fin 64) (data : Word)
  /-- GV_LEAD_WRITE: A GV_LEAD write is applied, refused or partly locked (R139). -/
  | gvLeadWrite (who : Initiator) (g : Grove) (data : Word)
  /-- RAIL_EN_WRITE: A write of 1 to RL_CTL.EN moves an OFF rail to PENDING or is refused (R183). -/
  | railEnWrite (who : Initiator) (k : Rail)
  /-- SEQUENCED_STOP: A write of 0 to RL_CTL.EN requests a sequenced stop (R185). -/
  | sequencedStop (who : Initiator) (k : Rail)
  /-- SEQ_TIMEOUT: The PENDING timeout returns the rail to OFF with SEQ_TMO (R185). -/
  | seqTimeout (k : Rail)
  /-- SEQ_ON_QUALIFY: The predecessors qualify and the rail starts its phases arming (R187). -/
  | seqOnQualify (k : Rail)
  /-- OFF_SEQ_QUALIFY: The predecessors have been OFF for the delay and the sequenced stop proceeds (R187). -/
  | offSeqQualify (k : Rail)
  /-- ARMING_DONE: Every starting phase is ARMED or FAILED and the rail goes to PREBIAS or SOFT_START (R185). -/
  | armingDone (k : Rail)
  /-- ARM_TIMEOUT: One ms of arming elapses; the rail proceeds or fails with ARM_FAIL (R185). -/
  | armTimeout (k : Rail)
  /-- PREBIAS_DONE: The pre-bias binary search ends and soft start begins or is refused (R193). The output voltage in F that the binary search measures. -/
  | prebiasDone (k : Rail) (v : Int)
  /-- START_ABORT: The ramp-tracking monitor aborts a start into a short (R198). -/
  | startAbort (k : Rail)
  /-- SS_TIMEOUT: Soft start reaches RL_SS.TMO and is aborted (R197). -/
  | ssTimeout (k : Rail)
  /-- HICCUP_EXPIRE: Twenty ms after an abort the rail retries its start (R185). -/
  | hiccupExpire (k : Rail)
  /-- PG_RISE: The error stays in the window for DLY and PG rises (R188). -/
  | pgRise (k : Rail)
  /-- PG_FALL: The error stays out of the window for FILT and PG falls (R188). -/
  | pgFall (k : Rail)
  /-- BLANK_END: The blanking extension after ON entry ends (R196). -/
  | blankEnd (k : Rail)
  /-- SHUTDOWN_COMPLETE: Every phase of a stopping rail reaches IDLE and the rail goes to OFF or LATCHED (R214). -/
  | shutdownComplete (k : Rail)
  /-- STOP_TIMEOUT: RL_OFF.TMO elapses in a stop and sets OFF_TMO (R214). -/
  | stopTimeout (k : Rail)
  /-- OV_TRIP: The rail over-voltage comparator decides and takes its FB_RACT action (R219). -/
  | ovTrip (k : Rail)
  /-- UV_TRIP: The rail under-voltage comparator decides and takes its action (R219). -/
  | uvTrip (k : Rail)
  /-- ABS_TRIP: The absolute over-voltage comparator decides in any rail state (R220). -/
  | absTrip (k : Rail)
  /-- DISCHARGE_END: A mode-2 discharge reaches VEND or TMO and every phase goes TRI (R222). tmo: by the time limit and not by the level. -/
  | dischargeEnd (k : Rail) (tmo : Bool)
  /-- HOC_TRIP: A hard over-current holds the phase TRI and latches (R219). -/
  | hocTrip (n : Phase)
  /-- HSS_DECLARE: A high-side short fails the phase, turns the rail off and drops EFUSE_EN (R237). -/
  | hssDeclare (n : Phase)
  /-- INPUT_OC: The input over-current source decides and takes the FB_DACT0 action (R219). -/
  | inputOc
  /-- DIE_OT_SCAN: A 1 µs scan of the die sensors decides over-temperature or ends it (R238). The 32 sensor readings in °C + 40. -/
  | dieOtScan (temps : List Byte)
  /-- WARDEN_WDOG_EXPIRE: The warden watchdog expires and takes its actions (R239). -/
  | wardenWdogExpire
  /-- CORE_WDOG_EXPIRE: A core watchdog expires and may reset its core (R240). -/
  | coreWdogExpire (c : Fin 4)
  /-- STORE_OV: The store over-voltage source decides (R219). -/
  | storeOv
  /-- STORE_OC: The store over-current source decides (R219). -/
  | storeOc
  /-- STORE_OT: The store over-temperature source decides (R219). -/
  | storeOt
  /-- CROW_MIN_EXPIRE: The minimum crowbar assertion time ends (R227). -/
  | crowMinExpire (j : Fin 4)
  /-- EFUSE_MIN_EXPIRE: The minimum non-latched EFUSE_EN drop time ends (R228). -/
  | efuseMinExpire
  /-- WDG_KICK: The warden writes FB_WDG_KICK to restart its watchdog (R239). -/
  | wdgKick (who : Initiator) (key : BitVec 16)
  /-- CWDG_KICK: A core writes FB_CWDG_KICK to restart its watchdog (R240). -/
  | cwdgKick (who : Initiator) (c : Fin 4) (key : BitVec 16)
  /-- FB_PCLR: A write of FB_PCLR requests clears of phase latches (R249). -/
  | fbPclr (who : Initiator) (n : Phase) (bits : BitVec 3)
  /-- FB_RCLR: A write of FB_RCLR requests clears of rail latches (R249). -/
  | fbRclr (who : Initiator) (k : Rail) (bits : BitVec 6)
  /-- FB_DCLR: A write of FB_DCLR requests clears of device latches (R249). -/
  | fbDclr (who : Initiator) (bits : BitVec 8)
  /-- SC_CAUSE_CLEAR: Clearing an FB_SC_CAUSE bit ends that sampled comparator's actions (R245). -/
  | scCauseClear (who : Initiator) (bits : BitVec 8)
  /-- COMP_TEST_GO: A write of FB_RTEST.GO on an OFF rail starts the comparator test (R235). -/
  | compTestGo (who : Initiator) (k : Rail)
  /-- COMP_TEST_DONE: The comparator test ends with pass or fail (R235). -/
  | compTestDone (k : Rail) (pass : Bool)
  /-- MARGIN_INTERVAL: At the end of each adaptation interval the effective fraction widens or narrows (R242). -/
  | marginInterval (k : Rail)
  /-- SC_SAMPLE: A sampled comparator powers up and compares at its ACLK period (R244). The sampled input in 1/1,024 mV. -/
  | scSample (j : Fin 8) (v : Int)
  /-- CEIL_TICK: Each 1 µs ceiling tick updates the store target, energy, bucket and escalation (R263). The ten input-current codes of the window, the VBUS_SN code and the STORE_TH code. -/
  | ceilTick (codes : List (Fin 4096)) (vbus : Fin 4096) (th : Fin 256)
  /-- STORE_COMMIT: At the store commit point the store duty is computed (R261). -/
  | storeCommit
  /-- ST_EN_WRITE: A write of 1 to ST_CTL.EN enables the store or is refused (R259). -/
  | stEnWrite (who : Initiator)
  /-- STORE_DISABLE: A write of 0 to ST_CTL.EN shuts the store down (R280). -/
  | storeDisable (who : Initiator)
  /-- CEIL_WRITE: A ST_CEIL write is checked against the input over-current threshold (R279). -/
  | ceilWrite (who : Initiator) (data : Word)
  /-- ALLOW_WRITE: A ST_ALLOW write refills the bucket (R274). -/
  | allowWrite (who : Initiator) (data : Word)
  /-- STORE_PART_ARRIVAL: At a granted intent's arrival the store target is lowered by its store part (R265). The granted intent, and whether its store part arrives or its window ends. -/
  | storePartArrival (k : Rail) (id : BitVec 16) (ends : Bool)
  /-- PRESENCE_DEBOUNCED: STORE_PRES_N low for 4 µs starts QUALIFY (R281). -/
  | presenceDebounced
  /-- STORE_REMOVAL: STORE_PRES_N high for 4 µs removes the store (R282). -/
  | storeRemoval
  /-- QUALIFY_DONE: The voltage stays sane for QUAL ms and the store phases start (R280). -/
  | qualifyDone
  /-- HOLDUP_EXIT: The bus recovers for 1,000 ticks and the store returns to RUN (R280). -/
  | holdupExit
  /-- THROTTLE_RELEASE: run_r reaches TREL and THROTTLE_N is released (R275). -/
  | throttleRelease
  /-- DROOP_STEP: run_d reaches DDLY and a droop step is taken (R276). -/
  | droopStep
  /-- DROOP_EFFECT: Thirty-two µs after a step, its effect D is recorded (R276). The droop level. -/
  | droopEffect (l : Fin 16)
  /-- DROOP_RELEASE: The input stays low for DREL and the highest droop level is released (R278). -/
  | droopRelease
  /-- CHARGE_SESSION_STOPPED: Charging has stopped for 100 ms and the session closes STOPPED (R270). -/
  | chargeSessionStopped
  /-- LIMIT_RAMP_STEP: Every 10 ticks after RUN entry the effective limits rise (R283). -/
  | limitRampStep
  /-- LN_EN_WRITE: A write of 1 to LN_CTL.EN moves an OFF lane to DETECT (R297). -/
  | lnEnWrite (who : Initiator) (l : Lane)
  /-- LANE_DISABLE: A write of 0 to LN_CTL.EN takes the lane to OFF (R297). -/
  | laneDisable (who : Initiator) (l : Lane)
  /-- LANE_TEST_START: A write of 1 to LN_TEST.EN enters the TEST state (R297). -/
  | laneTestStart (who : Initiator) (l : Lane)
  /-- LANE_TEST_STOP: A write of 0 to LN_TEST.EN leaves the TEST state (R297). -/
  | laneTestStop (who : Initiator) (l : Lane)
  /-- DETECT_PULSE: A detection pulse is sent every 1 ms and may find the partner (R297). sensed: the partner's termination was sensed. -/
  | detectPulse (l : Lane) (sensed : Bool)
  /-- POLL_DONE: Flit lock and 8 TS1 move the lane to CONFIG (R297). -/
  | pollDone (l : Lane)
  /-- POLL_TIMEOUT: 24 ms in POLL return the lane to DETECT (R297). -/
  | pollTimeout (l : Lane)
  /-- CONFIG_DONE: The TS2 exchange completes and a rate is chosen (R298). RATES, WIDTH, PRESET and LVER of the partner's TS2, and whether its members came with one DEVID, one WIDTH and BIDX in order. -/
  | configDone (l : Lane) (rates : BitVec 4) (width : Fin 4) (preset : Fin 16) (lver : Byte) (ordered : Bool)
  /-- CONFIG_TIMEOUT: 4 ms in CONFIG return the lane to DETECT (R297). -/
  | configTimeout (l : Lane)
  /-- RATE_LOCK: Flit lock at the chosen rate moves the lane to EQ (R297). -/
  | rateLock (l : Lane)
  /-- RATE_TIMEOUT: 100 µs without lock is a failed attempt (R297). The lane that found no lock. -/
  | rateTimeout (l : Lane)
  /-- EQ_REQUEST: A received EQ request is applied and acknowledged, or rejected (R300). COEF, PRESET_REQ, CURSOR and DIR of the request. -/
  | eqRequest (l : Lane) (coef : Bool) (preset : Fin 16) (post : Bool) (up : Bool)
  /-- EQ_PHASE_STEP: An equalisation trial period ends and the receiver takes its next step (R301). EYE at the end of the trial. -/
  | eqPhaseStep (l : Lane) (eye : Byte)
  /-- EQ_DONE: Both sides send DONE and the lane enters CHECK (R297). -/
  | eqDone (l : Lane)
  /-- EQ_TIMEOUT: 4 ms in EQ is a failed attempt (R297). The lane whose equalisation did not end. -/
  | eqTimeout (l : Lane)
  /-- EIOS_RECEIVED: EIOS received during training fails the attempt (R297). -/
  | eiosReceived (l : Lane)
  /-- LAT_RECEIVED: A LAT received in CHECK is echoed (R305). T0 as received and this side's turnaround, 0.5 ns. -/
  | latReceived (l : Lane) (t0 : Word) (turn : BitVec 16)
  /-- LAT_ECHO_RECEIVED: An echoed LAT gives a round-trip measurement (R304). -/
  | latEchoReceived (l : Lane) (t0 : Word) (turn : BitVec 16)
  /-- CHECK_DONE: Good flits and four echoes move the lane to ACTIVE (R297). -/
  | checkDone (l : Lane)
  /-- CHECK_TIMEOUT: 100 µs in CHECK is a failed attempt (R297). -/
  | checkTimeout (l : Lane)
  /-- RETRAIN: A write of LN_CTL.RETRAIN takes an ACTIVE lane to DOWN (R297). -/
  | retrain (who : Initiator) (l : Lane)
  /-- TS2_RECOV_RECEIVED: TS2 with RECOV received starts a recovery (R297). -/
  | ts2RecovReceived (l : Lane)
  /-- RECOVER_DONE: Recovery completes and the lane enters CHECK (R297). -/
  | recoverDone (l : Lane)
  /-- RECOVER_TIMEOUT: 200 µs in RECOVER take the lane to DOWN (R297). -/
  | recoverTimeout (l : Lane)
  /-- DOWN_DONE: After EIOS and idle the lane goes to DETECT or OFF (R297). -/
  | downDone (l : Lane)
  /-- LINK_DOWN: A link-down condition in ACTIVE takes the lane to DOWN (R309). -/
  | linkDown (l : Lane)
  /-- FLIT_CRC_FAIL: A flit failing its CRC is discarded and NAKed (R293). -/
  | flitCrcFail (l : Lane)
  /-- MSG_FLIT: A MSG flit is received and reassembled (R306). The payload (R306) and the stamp (R32). -/
  | msgFlit (l : Lane) (pay : BitVec 104) (stamp : BitVec 64)
  /-- ACK_FLIT: An ACK flit acknowledges flits and returns credit (R308). The payload (R308). -/
  | ackFlit (l : Lane) (pay : BitVec 104)
  /-- ACK_TIMER: 64 word cycles after an unacknowledged MSG flit, an ACK is sent (R308). -/
  | ackTimer (l : Lane)
  /-- REPLAY_TIMEOUT: The oldest unacknowledged flit waits TMO and a replay is sent (R311). -/
  | replayTimeout (l : Lane)
  /-- SKIP_SEND: After 1,024 flits a SKIP is sent (R295). -/
  | skipSend (l : Lane)
  /-- IDENTITY_FRAME: An identity frame is accepted or refused and UP is set (R313). The message of channel 1. -/
  | identityFrame (l : Lane) (bytes : List Byte)
  /-- IDENTITY_TIMEOUT: No identity 1 ms after ACTIVE takes the lane to DOWN (R313). -/
  | identityTimeout (l : Lane)
  /-- LN_PLL_LOCK: A lane-group PLL locks after power-up (R321). The lane group. -/
  | lnPllLock (g : Fin 3)
  /-- INTENT: An INTENT frame is taken, checked, and accepted or refused (R331). The payload (R328) and the stamp S of the flit. -/
  | intent (l : Lane) (pay : BitVec 104) (stamp : BitVec 64)
  /-- CANCEL: A CANCEL frame resolves its intent as class 4 (R334). -/
  | cancel (l : Lane) (pay : BitVec 104)
  /-- FF_PULSE_START: An intent's feedforward pulse interval begins (R343). -/
  | ffPulseStart (k : Rail)
  /-- FF_PULSE_END: An intent's feedforward pulse interval ends (R343). -/
  | ffPulseEnd (k : Rail)
  /-- GRANT_VALIDITY_END: A grant's validity ends and its GDELTA and reservation return (R338). -/
  | grantValidityEnd (k : Rail) (slot : Fin 4) (id : Byte)
  /-- STATUS_SEND: Every STPER µs a STATUS frame is sent (R341). -/
  | statusSend (l : Lane)
  /-- LOAD_ESTIMATE: Every 16 LCLK cycles the load estimate is formed (R345). -/
  | loadEstimate (k : Rail)
  /-- INTENT_RESOLVE: An intent's measurement or late window ends and it is classified (R346). -/
  | intentResolve (k : Rail)
  /-- CYCLE_RECEIVE: A coupling CYCLE frame updates group current, CI and alignment (R357). -/
  | cycleReceive (l : Lane) (pay : BitVec 104) (stamp : BitVec 64)
  /-- EPOCH_RECEIVE: An EPOCH frame announces a new epoch (R355). -/
  | epochReceive (l : Lane) (pay : BitVec 104)
  /-- HELLO_SEND: HELLO is sent at link-up and every 1 ms while not a member (R352). -/
  | helloSend (k : Rail)
  /-- HELLO_RECEIVE: A HELLO received feeds election and admission (R353). -/
  | helloReceive (l : Lane) (pay : BitVec 104)
  /-- CARRY_RECEIVE: A CARRY frame requests, accepts, refuses or rejoins a carry-over (R363). -/
  | carryReceive (l : Lane) (pay : BitVec 104)
  /-- IFWD_RECEIVE: A forwarded intent is received by a member (R362). -/
  | ifwdReceive (l : Lane) (pay : BitVec 104) (stamp : BitVec 64)
  /-- GFWD_RECEIVE: A forwarded grant returns to the origin, which sends the GRANT (R362). -/
  | gfwdReceive (l : Lane) (pay : BitVec 104)
  /-- MEMBER_LOST: MISS missing CYCLE frames mark a member lost (R361). The link of IG_CPL_LNK. -/
  | memberLost (k : Rail) (p : Fin 3)
  /-- CARRY_REQUEST: A write of IG_CPLCMD.CARRY requests a carry-over (R363). -/
  | carryRequest (who : Initiator) (k : Rail)
  /-- REJOIN_REQUEST: A write of IG_CPLCMD.REJOIN asks to rejoin the group (R363). -/
  | rejoinRequest (who : Initiator) (k : Rail)
  /-- AVS_VOLTAGE_WRITE: An AVSBus Voltage write sets FL_REF.TGT (R365). The select and the data, 1 mV units. -/
  | avsVoltageWrite (sel : Fin 8) (data : BitVec 16)
  /-- AVS_VOLTAGE_READ: An AVSBus Voltage read returns the target (R364). -/
  | avsVoltageRead (sel : Fin 8)
  /-- AVS_RATE_WRITE: An AVSBus VoutTransRate write sets FL_RAMP.SLEW (R365). Rise rate in [15:8] and fall rate in [7:0], 1 mV/µs. -/
  | avsRateWrite (sel : Fin 8) (data : BitVec 16)
  /-- AVS_RATE_READ: An AVSBus VoutTransRate read returns the slew (R364). -/
  | avsRateRead (sel : Fin 8)
  /-- AVS_CURRENT_READ: An AVSBus Current read (R364). -/
  | avsCurrentRead (sel : Fin 8)
  /-- AVS_TEMPERATURE_READ: An AVSBus Temperature read (R364). -/
  | avsTemperatureRead (sel : Fin 8)
  /-- AVS_STATUS_READ: An AVSBus Status read (R364). -/
  | avsStatusRead (sel : Fin 8)
  /-- TC_ENABLE: A write of 1 to TC_CTL.EN enables a converter or is refused (R370). -/
  | tcEnable (who : Initiator) (c : Fin 8)
  /-- TC_DISABLE: A write of 0 to TC_CTL.EN abandons the running sequence (R382). -/
  | tcDisable (who : Initiator) (c : Fin 8)
  /-- TC_GO: A write of TC_CTL.GO is a trigger (R377). -/
  | tcGo (who : Initiator) (c : Fin 8)
  /-- TC_ABORT: A write of TC_CTL.ABORT abandons and empties the pending slot (R382). -/
  | tcAbort (who : Initiator) (c : Fin 8)
  /-- TC_CLRCNT: A write of TC_CTL.CLRCNT clears TC_CNT (R391). -/
  | tcClrcnt (who : Initiator) (c : Fin 8)
  /-- TC_PERIOD_EXPIRE: The periodic trigger period elapses (R377). -/
  | tcPeriodExpire (c : Fin 8)
  /-- TC_TRIGGER: A trigger starts a sequence, fills the slot or is dropped (R379). A trigger of the source that TC_CFG.TSRC selects. -/
  | tcTrigger (c : Fin 8)
  /-- CONVERSION_DONE: A conversion completes and the sequencer moves on (R367). The sampled input voltage of the step's channel, in units of 3.125 µV, floored. -/
  | conversionDone (c : Fin 8) (v : Int)
  /-- RECORD_HANDOVER: A result record is handed to the crossing (R383). -/
  | recordHandover (c : Fin 8)
  /-- FUSE_PROGRAM_SLOT: CH_FPROG OP 1 programs a blank charter slot (R416). -/
  | fuseProgramSlot (who : Initiator) (slot : Fin 4)
  /-- FUSE_RETIRE_SLOT: CH_FPROG OP 2 retires a valid slot (R418). -/
  | fuseRetireSlot (who : Initiator) (slot : Fin 4)
  /-- FUSE_PROGRAM_KEY: CH_FPROG OP 3 programs a key (R420). -/
  | fuseProgramKey (who : Initiator) (key : Fin 8)
  /-- FUSE_REVOKE_KEY: CH_FPROG OP 4 revokes a key (R420). -/
  | fuseRevokeKey (who : Initiator) (key : Fin 8)
  /-- FUSE_PULSE_DONE: A fuse pulse ends and the engine continues or stops at brown-out (R417). -/
  | fusePulseDone
  /-- FUSE_OP_DONE: The fuse operation ends after read-back (R416). -/
  | fuseOpDone
  /-- VERIFY_GO: A write of CH_VCTL.GO starts image verification (R422). -/
  | verifyGo (who : Initiator) (part : Part) (kind : Fin 16)
  /-- VERIFY_DONE: The image verification ends with its result (R422). -/
  | verifyDone
  /-- REF_TAIL_WRITE: A write of CH_REF_TAIL releases refusal records (R407). -/
  | refTailWrite (who : Initiator) (tail : Fin 32)
  /-- CORETAG_WRITE: A write of CH_CORETAG retags a halted core and clears its caches (R398). -/
  | coretagWrite (who : Initiator) (c : Fin 4) (part : Part)
  /-- MFR_SPECIFIC_00: A PMBus block write to 0xD0 submits a packet (R444). The block and its PEC. -/
  | mfrSpecific00 (bytes : List Byte) (pec : Pec)
  /-- PROCESS_CALL: A process call to 0xD0 submits a packet and returns its reply (R445). The block. -/
  | processCall (bytes : List Byte)
  /-- PROCESS_CALL_WAIT_EXPIRE: WAIT elapses and the port returns BUSY with PENDING (R445). -/
  | processCallWaitExpire
  /-- MFR_SPECIFIC_01: A block read of 0xD1 returns the stored reply (R444). -/
  | mfrSpecific01
  /-- ALERT_RESPONSE: The port answers the Alert Response Address (R447). -/
  | alertResponse
  /-- SMBUS_TIMEOUT: The SMBus timeout abandons a transaction (R443). -/
  | smbusTimeout
  /-- PAGE: PAGE selects the rail for the standard commands (R448). The transaction. -/
  | page (x : PmbOp)
  /-- OPERATION: OPERATION turns the rail on or off (R448). The transaction. -/
  | operation (x : PmbOp)
  /-- ON_OFF_CONFIG: ON_OFF_CONFIG reads or accepts only 0x18 (R448). The transaction. -/
  | onOffConfig (x : PmbOp)
  /-- CLEAR_FAULTS: CLEAR_FAULTS clears CP_CML (R448). The transaction. -/
  | clearFaults (x : PmbOp)
  /-- CAPABILITY: CAPABILITY returns 0xD4 (R448). The transaction. -/
  | capability (x : PmbOp)
  /-- VOUT_MODE: VOUT_MODE returns 0x14 (R448). The transaction. -/
  | voutMode (x : PmbOp)
  /-- VOUT_COMMAND: VOUT_COMMAND reads or writes the reference target (R448). The transaction. -/
  | voutCommand (x : PmbOp)
  /-- STATUS_BYTE: STATUS_BYTE returns the low byte of STATUS_WORD (R448). The transaction. -/
  | statusByte (x : PmbOp)
  /-- STATUS_WORD: STATUS_WORD returns the formed status (R449). The transaction. -/
  | statusWord (x : PmbOp)
  /-- STATUS_VOUT: STATUS_VOUT returns the voltage latches (R448). The transaction. -/
  | statusVout (x : PmbOp)
  /-- STATUS_IOUT: STATUS_IOUT returns the current status (R448). The transaction. -/
  | statusIout (x : PmbOp)
  /-- STATUS_INPUT: STATUS_INPUT returns the input status (R448). The transaction. -/
  | statusInput (x : PmbOp)
  /-- STATUS_TEMPERATURE: STATUS_TEMPERATURE returns the temperature status (R448). The transaction. -/
  | statusTemperature (x : PmbOp)
  /-- STATUS_CML: STATUS_CML returns CP_CML (R448). The transaction. -/
  | statusCml (x : PmbOp)
  /-- READ_VIN: READ_VIN returns the bus voltage (R448). The transaction. -/
  | readVin (x : PmbOp)
  /-- READ_IIN: READ_IIN returns the input current (R448). The transaction. -/
  | readIin (x : PmbOp)
  /-- READ_VOUT: READ_VOUT returns the mapped converter reading (R448). The transaction. -/
  | readVout (x : PmbOp)
  /-- READ_IOUT: READ_IOUT returns FL_ISUM (R448). The transaction. -/
  | readIout (x : PmbOp)
  /-- READ_TEMPERATURE_1: READ_TEMPERATURE_1 returns the hottest stage temperature (R448). The transaction. -/
  | readTemperature1 (x : PmbOp)
  /-- READ_POUT: READ_POUT returns the output power (R448). The transaction. -/
  | readPout (x : PmbOp)
  /-- PMBUS_REVISION: PMBUS_REVISION returns 0x33 (R448). The transaction. -/
  | pmbusRevision (x : PmbOp)
  /-- MFR_ID: MFR_ID returns MAULANOR (R448). The transaction. -/
  | mfrId (x : PmbOp)
  /-- MFR_MODEL: MFR_MODEL returns IZ6416 (R448). The transaction. -/
  | mfrModel (x : PmbOp)
  /-- SPI_WRITE: An SPI WRITE frame submits one packet (R451). The bytes after the instruction, and whether one was lost at the crossing. -/
  | spiWrite (bytes : List Byte) (lost : Bool)
  /-- SPI_READ: An SPI READ frame returns a stream's stored reply (R450). The tag byte. -/
  | spiRead (tag : Byte)
  /-- SPI_READY: An SPI READY frame returns the unread-reply bits (R450). -/
  | spiReady
  /-- MAILBOX_GO: A write of CP_MBX_CTL.GO submits a mailbox packet (R452). The writer and the mailbox. -/
  | mailboxGo (who : Initiator) (p : Part)
  /-- CONT_TIMEOUT: A continuation idle for 100 ms is abandoned (R436). The stream whose continuation has been idle. -/
  | contTimeout (stream : Fin 36)
  /-- WARDEN_RESET: A warden reset answers pending packets TIMEOUT and empties the rings (R442). -/
  | wardenReset
  /-- LONG_PACKET_COMPLETE: A Long packet completes and its reply is sent (R439). The opcode group. -/
  | longPacketComplete (g : Fin 16)
  /-- ROOTSTAMP_READ: A read of CP_ROOTSTAMP_LO captures the high word (R461). The reader. -/
  | rootstampRead (who : Initiator)
  /-- ALL_OFF: Root opcode 0xF0 turns every rail off by tri-state (R215). -/
  | allOff
  /-- READ_CANOPY: Root opcode 0xF1 returns the canopy view (R456). -/
  | readCanopy
  /-- READ_LATCHES: Root opcode 0xF2 returns the latches (R456). -/
  | readLatches
  /-- RESET: Root opcode 0xF3 causes a device reset (R456). -/
  | rootReset
  /-- RAIL_OFF: Root opcode 0xF4 stops one rail (R215). -/
  | railOff
  /-- READ_IDENTITY: Root opcode 0xF5 returns the identity (R456). -/
  | readIdentity
  /-- PING: Root opcode 0xF6 returns the device state and echoes its parameters (R456). -/
  | ping
  /-- DEV_INFO: Opcode 0x00 returns device information (R460). -/
  | devInfo
  /-- DEV_STATUS: Opcode 0x01 returns device status (R460). -/
  | devStatus
  /-- ECHO: Opcode 0x02 echoes its parameters (R460). -/
  | echo
  /-- SET_STATE: Opcode 0x03 requests a device state (R460). -/
  | setState
  /-- REG_READ: Opcode 0x08 reads registers with the tag (R440). -/
  | regRead
  /-- REG_WRITE: Opcode 0x09 writes registers with the tag (R440). -/
  | regWrite
  /-- REG_MODIFY: Opcode 0x0A modifies a register (R440). -/
  | regModify
  /-- RAIL_STATUS: Opcode 0x20 returns rail status (R460). -/
  | railStatus
  /-- RAIL_ENABLE: Opcode 0x21 writes RL_CTL.EN (R460). -/
  | railEnable
  /-- RAIL_VOUT: Opcode 0x22 writes FL_REF (R460). -/
  | railVout
  /-- RAIL_RAMP: Opcode 0x23 writes FL_RAMP (R460). -/
  | railRamp
  /-- RAIL_LOADLINE: Opcode 0x24 writes the load-line registers (R460). -/
  | railLoadline
  /-- RAIL_COMP: Opcode 0x25 writes the software coefficient bank (R460). -/
  | railComp
  /-- RAIL_LIMITS: Opcode 0x26 writes the duty and integrator limits (R460). -/
  | railLimits
  /-- RAIL_STRIKE: Opcode 0x27 writes the strike settings (R460). -/
  | railStrike
  /-- RAIL_CONFIG: Opcode 0x28 writes the rail configuration (R460). -/
  | railConfig
  /-- RAIL_ILIM: Opcode 0x29 writes RL_ILIM (R460). -/
  | railIlim
  /-- RAIL_COPPICE: Opcode 0x2A writes the coppicing registers (R460). -/
  | railCoppice
  /-- RAIL_SEQ: Opcode 0x2B writes the sequencing registers (R460). -/
  | railSeq
  /-- RAIL_PROTECT: Opcode 0x2C writes the rail firebreak registers (R460). -/
  | railProtect
  /-- RAIL_CLEAR: Opcode 0x2D clears rail latches (R460). -/
  | railClear
  /-- RAIL_PERIOD: Opcode 0x2E writes the period registers (R460). -/
  | railPeriod
  /-- RAIL_STEER: Opcode 0x2F writes FL_STEER (R460). -/
  | railSteer
  /-- RAIL_CAUSE: Opcode 0x30 reads and may clear the rail causes (R460). -/
  | railCause
  /-- PHASE_STATUS: Opcode 0x40 returns phase status (R460). -/
  | phaseStatus
  /-- PHASE_ROLE: Opcode 0x41 writes PH_ROLE (R460). -/
  | phaseRole
  /-- PHASE_CONFIG: Opcode 0x42 writes the phase configuration (R460). -/
  | phaseConfig
  /-- PHASE_PROTECT: Opcode 0x43 writes the phase firebreak registers (R460). -/
  | phaseProtect
  /-- PHASE_CLEAR: Opcode 0x44 clears a failure or phase latches (R460). -/
  | phaseClear
  /-- PHASE_AZ: Opcode 0x45 starts an auto-zero (R460). -/
  | phaseAz
  /-- STAGE_DESC: Opcode 0x48 returns half of the descriptor (R460). -/
  | stageDesc
  /-- STAGE_ACCESS: Opcode 0x49 reads or writes stage registers (R460). -/
  | stageAccess
  /-- TONE_MAP: Opcode 0x4A tone-maps phases (R460). -/
  | toneMap
  /-- ROLL_CALL: Opcode 0x4B runs a roll call (R460). -/
  | rollCall
  /-- STORE_STATUS: Opcode 0x60 returns store status (R460). -/
  | storeStatus
  /-- STORE_CONFIG: Opcode 0x61 writes the store configuration (R460). -/
  | storeConfig
  /-- STORE_ENABLE: Opcode 0x62 writes ST_CTL (R460). -/
  | storeEnable
  /-- STORE_FLOOR: Opcode 0x63 writes ST_FLOOR (R460). -/
  | storeFloor
  /-- CEILING: Opcode 0x64 writes the ceiling registers (R460). -/
  | ceiling
  /-- ESCALATION: Opcode 0x65 writes the escalation registers (R460). -/
  | escalation
  /-- CEIL_SENSE: Opcode 0x66 writes the ceiling sense scaling (R460). -/
  | ceilSense
  /-- LANE_STATUS: Opcode 0x70 returns lane status (R460). -/
  | laneStatus
  /-- LANE_ENABLE: Opcode 0x71 writes LN_CTL (R460). -/
  | laneEnable
  /-- LANE_CONFIG: Opcode 0x72 writes the lane configuration (R460). -/
  | laneConfig
  /-- PARTNER_ID: Opcode 0x73 returns the partner identity (R460). -/
  | partnerId
  /-- INTENT_CONFIG: Opcode 0x74 writes the intent configuration (R460). -/
  | intentConfig
  /-- INTENT_TRUST: Opcode 0x75 writes trust and clears NEW (R460). -/
  | intentTrust
  /-- INTENT_STATUS: Opcode 0x76 returns intent status (R460). -/
  | intentStatus
  /-- COUPLE_CONFIG: Opcode 0x77 writes the coupling configuration (R460). -/
  | coupleConfig
  /-- COUPLE_CMD: Opcode 0x78 requests a carry-over or a rejoin (R460). -/
  | coupleCmd
  /-- COUPLE_STATUS: Opcode 0x79 returns coupling status (R460). -/
  | coupleStatus
  /-- TELE_LAST: Opcode 0x80 returns the latest results (R460). -/
  | teleLast
  /-- TELE_CONFIG: Opcode 0x81 writes the converter configuration (R460). -/
  | teleConfig
  /-- TELE_CTL: Opcode 0x82 writes TC_CTL (R460). -/
  | teleCtl
  /-- TELE_OWN: Opcode 0x83 writes TC_OWN (R460). -/
  | teleOwn
  /-- RAIL_READINGS: Opcode 0x84 returns the rail readings (R460). -/
  | railReadings
  /-- TIME_GET: Opcode 0x90 returns the time base and RTC (R460). -/
  | timeGet
  /-- RTC_SET: Opcode 0x91 sets the RTC (R460). -/
  | rtcSet
  /-- METER_READ: Opcode 0x92 returns a meter (R460). -/
  | meterRead
  /-- BILLING_READ: Opcode 0x93 returns an interval record (R460). -/
  | billingRead
  /-- LIFE_STAGE: Opcode 0x94 returns the stage counters (R460). -/
  | lifeStage
  /-- LIFE_DEVICE: Opcode 0x95 returns the device counters (R460). -/
  | lifeDevice
  /-- LOG_READ: Opcode 0x96 returns a log record (R460). -/
  | logRead
  /-- LIFE_FLUSH: Opcode 0x97 requests a flush (R460). -/
  | lifeFlush
  /-- FW_INFO: Opcode 0xA0 returns the firmware state (R460). -/
  | fwInfo
  /-- FW_BEGIN: Opcode 0xA1 opens a session and erases the span (R460). -/
  | fwBegin
  /-- FW_WRITE: Opcode 0xA2 programs image data (R460). -/
  | fwWrite
  /-- FW_VERIFY: Opcode 0xA3 verifies the image (R460). -/
  | fwVerify
  /-- FW_SWAP: Opcode 0xA4 arms the swap cell (R460). -/
  | fwSwap
  /-- FW_ABORT: Opcode 0xA5 ends the session (R460). -/
  | fwAbort
  /-- PART_INFO: Opcode 0xB0 returns the partition's charter block (R460). -/
  | partInfo
  /-- REFLOG_READ: Opcode 0xB1 returns and releases refusal records (R460). -/
  | reflogRead
  /-- CORE_ASSIGN: Opcode 0xB2 assigns a core to a partition (R460). -/
  | coreAssign
  /-- CORE_CTL: Opcode 0xB3 halts a core or releases it at an entry address (R460). -/
  | coreCtl
  /-- IMAGE_LOAD: Opcode 0xB4 verifies and loads an image into SRAM (R460). -/
  | imageLoad
  /-- GROVE_LEAD: Opcode 0xB5 writes GV_LEAD (R460). -/
  | groveLead
  /-- GROVE_BANKS: Opcode 0xB6 writes GV_BANKOWN (R460). -/
  | groveBanks
  /-- GROVE_INSTALL: Opcode 0xB7 installs a grove task from an image (R460). -/
  | groveInstall
  /-- GROVE_STD: Opcode 0xB8 installs a standard task (R460). -/
  | groveStd
  /-- GROVE_TASK: Opcode 0xB9 disables, enables or removes a task (R460). -/
  | groveTask
  /-- RES_ASSIGN: Opcode 0xBA assigns a DMA channel or a timer (R460). -/
  | resAssign
  /-- FUSE_OP: Opcode 0xBB performs a signed fuse operation (R460). -/
  | fuseOp
  /-- TRAIL_EVENT: A source event enters the fabric and is gated, divided and routed (R467). -/
  | trailEvent
  /-- TR_FIRE: A write of TR_FIRE routes a software event (R469). -/
  | trFire (who : Initiator) (t : Fin 4096)
  /-- TR_SRC_WRITE: A trail register write is checked and applies to later events (R471). The register: 0 TR_SRC, 1 TR_DSTA, 2 TR_DSTB. -/
  | trSrcWrite (who : Initiator) (t : Fin 4096) (reg : Fin 3) (data : Word)
  /-- CONSUMER_DELIVERY: A routed event reaches its consumer ports (R473). The consumer whose port hands on its first event. -/
  | consumerDelivery (cons : BitVec 12)
  /-- ELOG_WRITE: An event-log slot writes an element to its ring (R494). -/
  | elogWrite (n : Fin 256)
  /-- DMA_START: A write of DM_CTL.START starts the channel (R479). -/
  | dmaStart (who : Initiator) (ch : Fin 32)
  /-- DMA_STOP: A write of DM_CTL.STOP stops the channel at a boundary (R478). -/
  | dmaStop (who : Initiator) (ch : Fin 32)
  /-- DMA_CLR: A write of DM_CTL.CLR returns the channel to IDLE (R479). -/
  | dmaClr (who : Initiator) (ch : Fin 32)
  /-- DMA_TRIG: A trigger, from DM_CTL.TRIG or a trail, runs or is held pending (R480). The writer of DM_CTL.TRIG; none for a trail. -/
  | dmaTrig (who : Option Initiator) (ch : Fin 32)
  /-- DESCRIPTOR_FETCH: A descriptor fetch completes and is checked (R475). -/
  | descriptorFetch (ch : Fin 32)
  /-- DMA_BURST: The engine serves a channel with one burst (R482). -/
  | dmaBurst
  /-- PRODUCE: A PRODUCE doorbell adds COUNT to HEAD (R487). -/
  | produce (who : Initiator) (ring : BitVec 16) (count : BitVec 12)
  /-- CONSUME: A CONSUME doorbell advances TAIL and NEXT (R487). -/
  | consume (who : Initiator) (ring : BitVec 16) (count : BitVec 12)
  /-- ARM: An ARM doorbell sets EVT_EN (R487). -/
  | arm (who : Initiator) (ring : BitVec 16)
  /-- RING_CONTEXT_WRITE: A ring context write enables, disables or is refused (R486). -/
  | ringContextWrite (who : Initiator) (ring : BitVec 16) (word : Fin 8) (data : Word)
  /-- TOKEN_CLAIM: A hardware consumer claims an element once the token limits allow (R489). -/
  | tokenClaim (c : Claimer)
  /-- ARB_CLRMAX: A write of ME_ARB_CTL.CLRMAX clears the wait maxima (R503). -/
  | arbClrmax (who : Initiator)
  /-- SW_CAUSE_SET: A write of CN_SWSET sets software causes (R511). The word written to CN_SWSETp. -/
  | swCauseSet (who : Initiator) (p : Part) (data : Word)
  /-- CN_VIEW_READ: A read of CN_VIEW returns the reader's canopy view (R506). The value read has no place in the state (notes/assumptions: a reader keeps what it reads). -/
  | cnViewRead (who : Initiator)
  /-- REQ_ACTIVE: A PD_STATE request for Active starts the return from Glade (R524). PD_STATE is written with GO and REQ 0. -/
  | reqActive (who : Initiator)
  /-- REQ_QUIET: A PD_STATE request for Quiet stops the core clocks (R525). -/
  | reqQuiet (who : Initiator)
  /-- REQ_GLADE: A PD_STATE request for Glade freezes rails and cancels intents (R526). -/
  | reqGlade (who : Initiator)
  /-- REQ_CLEARING: A PD_STATE request for Clearing powers everything down but AON (R529). -/
  | reqClearing (who : Initiator)
  /-- QUIET_WAKE: A core wake or packet returns the device from Quiet (R523). -/
  | quietWake
  /-- GLADE_DOMAINS_ENTER: With feedforward at 0 and lanes OFF, the GRV and LANE domains enter off (R526). -/
  | gladeDomainsEnter
  /-- GLADE_RETURN_DONE: Grove self-tests finish, GLADE is cleared and the device is Active (R528). -/
  | gladeReturnDone
  /-- CLEARING_DOMAINS_ENTER: After the flash vote ends, the domains and then SVC enter off (R529). -/
  | clearingDomainsEnter
  /-- AON_WAKE: An enabled wake source ends Clearing (R530). -/
  | aonWake (src : Fin 5)
  /-- DOMAIN_ENTER: A domain that loses its last vote or allowance begins quiescence (R518). -/
  | domainEnter (n : Fin 48)
  /-- DOMAIN_ENTRY_STEP: A domain passes an abort point toward Off (R518). -/
  | domainEntryStep (n : Fin 48)
  /-- DOMAIN_WAKE: A wake during entry abandons it or waits for Off (R519). -/
  | domainWake (n : Fin 48)
  /-- DOMAIN_RETURN_DONE: A domain's return delay ends and the domain is on (R520). -/
  | domainReturnDone (n : Fin 48)
  /-- HOLD_RELEASE: A write of PD_HOLDREL releases a domain's pad hold (R521). The word written to PD_HOLDREL. -/
  | holdRelease (who : Initiator) (data : Word)
  /-- VOTE_WRITE: A partition's vote write is checked against its rights (R516). The word written to PD_VOTEAp, or to PD_VOTEBp. -/
  | voteWrite (who : Initiator) (p : Part) (high : Bool) (data : Word)
  /-- TIMER_MATCH: A timer count equals MATCH and raises match (R539). -/
  | timerMatch (t : Fin 16)
  /-- TIMER_OVERFLOW: A timer overflows and applies pending TOP and MATCH (R539). -/
  | timerOverflow (t : Fin 16)
  /-- TIMER_START_EVENT: A start event sets RUN when XSTART is 1 (R540). -/
  | timerStartEvent (t : Fin 16)
  /-- TIMER_CAPTURE: A capture event loads its stamp into TM_CAP (R542). -/
  | timerCapture (t : Fin 16) (stamp : BitVec 64)
  /-- TIMER_HI_WRITE: A write of the high word loads a 64-bit timer register (R541). The register: 0 CNT, 1 TOP, 2 MATCH. -/
  | timerHiWrite (who : Initiator) (t : Fin 16) (reg : Fin 3) (data : Word)
  /-- CAL0_READ: A read of TM_CAL0 captures TM_CAL1 (R562). -/
  | cal0Read (who : Initiator)
  /-- RTC_SET_WRITE: A write of TM_RTC_CTL.SET sends the set value into AON (R544). The word written to TM_RTC_CTL, with SET set. -/
  | rtcSetWrite (who : Initiator) (data : Word)
  /-- RTC_SET_APPLY: The set applies at an ACLK edge and closes the billing interval (R544). -/
  | rtcSetApply
  /-- RTC_ALARM: The RTC reaches TM_ALM and the alarm fires (R545). -/
  | rtcAlarm
  /-- RTC_END: The RTC reaches the calendar limit and stops (R543). -/
  | rtcEnd
  /-- DAY_BOUNDARY: A day boundary writes a daily growth ring (R555). -/
  | dayBoundary
  /-- YEAR_BOUNDARY: 1 January writes a yearly growth ring (R555). -/
  | yearBoundary
  /-- INTERVAL_CLOSE: A billing interval closes at a LEN boundary (R558). -/
  | intervalClose
  /-- METER_HANDOFF: The accumulators are handed to the AON meters (R556). -/
  | meterHandoff
  /-- FLUSH_PERIODIC: Every 600 s a flush of the life records runs (R551). -/
  | flushPeriodic
  /-- LF_FLUSH_WRITE: A write of LF_CTL.FLUSH requests a flush (R551). The word written to LF_CTL, with FLUSH set. -/
  | lfFlushWrite (who : Initiator) (data : Word)
  /-- FLUSH_DONE: A flush ends with FLUSH_DONE or FLUSH_ERR (R551). -/
  | flushDone
  /-- LOG_APPEND: A record is programmed into the log, rolling the head when needed (R666). Whether its program verifies. -/
  | logAppend (ok : Bool)
  /-- ADD: ADD instruction (R574). `sf`: the S bit (R570). -/
  | add (cpu : Cpu) (rt ra rb : GReg) (sf : Bool)
  /-- SUB: SUB instruction (R574). -/
  | sub (cpu : Cpu) (rt ra rb : GReg) (sf : Bool)
  /-- ADC: ADC instruction (R574). -/
  | adc (cpu : Cpu) (rt ra rb : GReg) (sf : Bool)
  /-- SBC: SBC instruction (R574). -/
  | sbc (cpu : Cpu) (rt ra rb : GReg) (sf : Bool)
  /-- AND: AND instruction (R574). -/
  | and (cpu : Cpu) (rt ra rb : GReg) (sf : Bool)
  /-- OR: OR instruction (R574). -/
  | or (cpu : Cpu) (rt ra rb : GReg) (sf : Bool)
  /-- XOR: XOR instruction (R574). -/
  | xor (cpu : Cpu) (rt ra rb : GReg) (sf : Bool)
  /-- ANDN: ANDN instruction (R574). -/
  | andn (cpu : Cpu) (rt ra rb : GReg) (sf : Bool)
  /-- SHL: SHL instruction (R574). -/
  | shl (cpu : Cpu) (rt ra rb : GReg) (sf : Bool)
  /-- SHR: SHR instruction (R574). -/
  | shr (cpu : Cpu) (rt ra rb : GReg) (sf : Bool)
  /-- SAR: SAR instruction (R574). -/
  | sar (cpu : Cpu) (rt ra rb : GReg) (sf : Bool)
  /-- ROR: ROR instruction (R574). -/
  | ror (cpu : Cpu) (rt ra rb : GReg) (sf : Bool)
  /-- SHLI: SHLI instruction (R574). The shift amount is the rb field. -/
  | shli (cpu : Cpu) (rt ra sh : GReg) (sf : Bool)
  /-- SHRI: SHRI instruction (R574). -/
  | shri (cpu : Cpu) (rt ra sh : GReg) (sf : Bool)
  /-- SARI: SARI instruction (R574). -/
  | sari (cpu : Cpu) (rt ra sh : GReg) (sf : Bool)
  /-- RORI: RORI instruction (R574). -/
  | rori (cpu : Cpu) (rt ra sh : GReg) (sf : Bool)
  /-- MIN: MIN instruction (R574). -/
  | min (cpu : Cpu) (rt ra rb : GReg) (sf : Bool)
  /-- MAX: MAX instruction (R574). -/
  | max (cpu : Cpu) (rt ra rb : GReg) (sf : Bool)
  /-- MINU: MINU instruction (R574). -/
  | minu (cpu : Cpu) (rt ra rb : GReg) (sf : Bool)
  /-- MAXU: MAXU instruction (R574). -/
  | maxu (cpu : Cpu) (rt ra rb : GReg) (sf : Bool)
  /-- CLZ: CLZ instruction (R574). -/
  | clz (cpu : Cpu) (rt ra : GReg) (sf : Bool)
  /-- CLS: CLS instruction (R574). -/
  | cls (cpu : Cpu) (rt ra : GReg) (sf : Bool)
  /-- POPC: POPC instruction (R574). -/
  | popc (cpu : Cpu) (rt ra : GReg) (sf : Bool)
  /-- REV: REV instruction (R574). -/
  | rev (cpu : Cpu) (rt ra : GReg) (sf : Bool)
  /-- PERMR: PERMR instruction (R579). The flags are unchanged whatever S holds (R579). -/
  | permr (cpu : Cpu) (rt ra rb : GReg) (sf : Bool)
  /-- ABS: ABS instruction (R574). -/
  | abs (cpu : Cpu) (rt ra : GReg) (sf : Bool)
  /-- ADDS: ADDS instruction (R574). -/
  | adds (cpu : Cpu) (rt ra rb : GReg) (sf : Bool)
  /-- SUBS: SUBS instruction (R574). -/
  | subs (cpu : Cpu) (rt ra rb : GReg) (sf : Bool)
  /-- MUL: MUL instruction (R575). -/
  | mul (cpu : Cpu) (rt ra rb : GReg) (sf : Bool)
  /-- MULHS: MULHS instruction (R575). -/
  | mulhs (cpu : Cpu) (rt ra rb : GReg) (sf : Bool)
  /-- MULHU: MULHU instruction (R575). -/
  | mulhu (cpu : Cpu) (rt ra rb : GReg) (sf : Bool)
  /-- DIV: DIV instruction (R576). -/
  | div (cpu : Cpu) (rt ra rb : GReg) (sf : Bool)
  /-- DIVU: DIVU instruction (R576). -/
  | divu (cpu : Cpu) (rt ra rb : GReg) (sf : Bool)
  /-- REM: REM instruction (R576). -/
  | rem (cpu : Cpu) (rt ra rb : GReg) (sf : Bool)
  /-- REMU: REMU instruction (R576). -/
  | remu (cpu : Cpu) (rt ra rb : GReg) (sf : Bool)
  /-- MULQ: MULQ instruction (R577). S, U, RND and SH of format Q. -/
  | mulq (cpu : Cpu) (rt ra rb : GReg) (sf u rnd : Bool) (sh : Fin 32)
  /-- MULQN: MULQN instruction (R577). -/
  | mulqn (cpu : Cpu) (rt ra rb : GReg) (sf u rnd : Bool) (sh : Fin 32)
  /-- MACQ: MACQ instruction (R577). -/
  | macq (cpu : Cpu) (rt ra rb : GReg) (sf u rnd : Bool) (sh : Fin 32)
  /-- MSUQ: MSUQ instruction (R577). -/
  | msuq (cpu : Cpu) (rt ra rb : GReg) (sf u rnd : Bool) (sh : Fin 32)
  /-- BFX: BFX instruction (R578). -/
  | bfx (cpu : Cpu) (rt ra : GReg) (pos wm1 : Fin 32)
  /-- BFXS: BFXS instruction (R578). -/
  | bfxs (cpu : Cpu) (rt ra : GReg) (pos wm1 : Fin 32)
  /-- BFI: BFI instruction (R578). -/
  | bfi (cpu : Cpu) (rt ra : GReg) (pos wm1 : Fin 32)
  /-- PERM: PERM instruction (R579). -/
  | perm (cpu : Cpu) (rt ra : GReg) (imm : BitVec 16)
  /-- ADDI: ADDI instruction (R580). -/
  | addi (cpu : Cpu) (rt ra : GReg) (imm : BitVec 16)
  /-- ADDIS: ADDIS instruction (R580). -/
  | addis (cpu : Cpu) (rt ra : GReg) (imm : BitVec 16)
  /-- ANDI: ANDI instruction (R580). -/
  | andi (cpu : Cpu) (rt ra : GReg) (imm : BitVec 16)
  /-- ORI: ORI instruction (R580). -/
  | ori (cpu : Cpu) (rt ra : GReg) (imm : BitVec 16)
  /-- XORI: XORI instruction (R580). -/
  | xori (cpu : Cpu) (rt ra : GReg) (imm : BitVec 16)
  /-- LUI: LUI instruction (R580). -/
  | lui (cpu : Cpu) (rt : GReg) (imm : BitVec 16)
  /-- CMPI: CMPI instruction (R580). -/
  | cmpi (cpu : Cpu) (ra : GReg) (imm : BitVec 16)
  /-- LDB: LDB instruction (R581). `m`: bits [15:0] of the word, format M: am, and d or k and d. -/
  | ldb (cpu : Cpu) (rt ra : GReg) (m : BitVec 16)
  /-- LDBU: LDBU instruction (R581). -/
  | ldbu (cpu : Cpu) (rt ra : GReg) (m : BitVec 16)
  /-- LDH: LDH instruction (R581). -/
  | ldh (cpu : Cpu) (rt ra : GReg) (m : BitVec 16)
  /-- LDHU: LDHU instruction (R581). -/
  | ldhu (cpu : Cpu) (rt ra : GReg) (m : BitVec 16)
  /-- LDW: LDW instruction (R581). -/
  | ldw (cpu : Cpu) (rt ra : GReg) (m : BitVec 16)
  /-- STB: STB instruction (R581). -/
  | stb (cpu : Cpu) (rt ra : GReg) (m : BitVec 16)
  /-- STH: STH instruction (R581). -/
  | sth (cpu : Cpu) (rt ra : GReg) (m : BitVec 16)
  /-- STW: STW instruction (R581). -/
  | stw (cpu : Cpu) (rt ra : GReg) (m : BitVec 16)
  /-- CAS: CAS instruction (R583). -/
  | cas (cpu : Cpu) (rt ra : GReg) (rb : GRegS)
  /-- B: Conditional branch instruction (R584). -/
  | bcond (cpu : Cpu) (cond : Fin 16) (disp : BitVec 22)
  /-- JMP: JMP instruction (R585). -/
  | jmp (cpu : Cpu) (disp : BitVec 26)
  /-- CALL: CALL instruction (R585). -/
  | call (cpu : Cpu) (disp : BitVec 26)
  /-- JR: JR instruction (R585). -/
  | jr (cpu : Cpu) (ra : GRegS)
  /-- JALR: JALR instruction (R585). -/
  | jalr (cpu : Cpu) (rt : GReg) (ra : GRegS)
  /-- SYSCALL: SYSCALL instruction (R586). -/
  | syscall (cpu : Cpu) (code : BitVec 10)
  /-- BRK: BRK instruction (R586). -/
  | brk (cpu : Cpu) (code : BitVec 10)
  /-- ERET: ERET instruction (R610). -/
  | eret (cpu : Cpu)
  /-- WAIT: WAIT instruction (R586). -/
  | wait (cpu : Cpu)
  /-- SYNC: SYNC instruction (R601). -/
  | sync (cpu : Cpu)
  /-- MFCR: MFCR instruction (R568). -/
  | mfcr (cpu : Cpu) (rt : GReg) (code : BitVec 10)
  /-- MTCR: MTCR instruction (R568). -/
  | mtcr (cpu : Cpu) (code : BitVec 10) (rt : GReg)
  /-- IMSET: IMSET instruction (R586). -/
  | imset (cpu : Cpu) (rt : GReg)
  /-- IMCLR: IMCLR instruction (R586). -/
  | imclr (cpu : Cpu) (rt : GReg)
  /-- TINV_A: TINV.A instruction (R631). -/
  | tinvA (cpu : Cpu) (ra : GReg)
  /-- TINV_T: TINV.T instruction (R631). -/
  | tinvT (cpu : Cpu) (ra : GReg)
  /-- TINV_ALL: TINV.ALL instruction (R631). -/
  | tinvAll (cpu : Cpu)
  /-- DONE: DONE ends a grove pass with its closing marker (R152). -/
  | done (cpu : Cpu)
  /-- DROP: DROP ends a grove pass with its cancel marker (R152). -/
  | drop (cpu : Cpu)
  /-- INTERRUPT_TAKE: At an instruction boundary a pending interrupt is taken (R606). At the boundary before the instruction at the CPU's pc; `divide`: that instruction is a divide in progress (R603). -/
  | interruptTake (cpu : Cpu) (divide : Bool)
  /-- STORE_DRAIN: A buffered store is accepted by its target and leaves the buffer (R597). -/
  | storeDrain (cpu : Cpu)
  /-- CORE_HALT_REQUEST: A warden halt request stops the core at a boundary (R613). -/
  | coreHaltRequest (c : Fin 4)
  /-- CACHE_LINE_FILL: An instruction cache miss fills a line (R593). The core (4: the warden) and a physical address in the line. -/
  | cacheLineFill (c : Fin 5) (addr : Word)
  /-- TLB_WALK: A TLB miss walks the stage-2 tables and fills an entry or faults (R628). The virtual address and the access: 0 load, 1 store, 2 fetch, 3 CAS. -/
  | tlbWalk (c : Fin 4) (va : Word) (kind : Fin 4)
  /-- SCRUB_VISIT: The scrubber visits a word and writes back corrections (R645). -/
  | scrubVisit
  /-- REMAP_SET: Setting V in ME_REMAP copies the word and redirects its address (R648). The bank, the entry and the word offset. -/
  | remapSet (who : Initiator) (b : Fin 16) (n : Fin 16) (waddr : BitVec 18)
  /-- REMAP_CLEAR: Clearing V copies the spare word back and ends the redirection (R648). -/
  | remapClear (who : Initiator) (b : Fin 16) (n : Fin 16) (waddr : BitVec 18)
  /-- REPAIR_MODE_WRITE: A write of ME_BCFG.REPAIR changes the repair mode or is refused (R647). The word written to ME_BCFG. -/
  | repairModeWrite (who : Initiator) (b : Fin 16) (data : Word)
  /-- FLASH_PROGRAM: An FC PROGRAM command starts a page program (R656). NLINES as written with GO. -/
  | flashProgram (who : Initiator) (nlines : Fin 16)
  /-- FLASH_ERASE: An FC ERASE command starts a sector erase (R657). -/
  | flashErase (who : Initiator)
  /-- FLASH_SUSPEND: An FC SUSPEND command stops the erase segment (R659). -/
  | flashSuspend (who : Initiator)
  /-- FLASH_RESUME: An FC RESUME command restarts the stopped segment (R659). -/
  | flashResume (who : Initiator)
  /-- FLASH_RDTWIN: An FC RDTWIN command copies idle-twin bytes into FC_BUF (R659). -/
  | flashRdtwin (who : Initiator)
  /-- RDTWIN_DONE: The idle-twin copy completes (R659). -/
  | rdtwinDone
  /-- FLASH_SWAP: An FC SWAP command programs a swap-cell line (R671). -/
  | flashSwap (who : Initiator)
  /-- PROGRAM_PULSE_DONE: A program pulse and its verify complete (R656). Whether the verify passes. -/
  | programPulseDone (ok : Bool)
  /-- ERASE_SEGMENT_DONE: An erase segment ends and its blank verify begins (R657). -/
  | eraseSegmentDone
  /-- ERASE_VERIFY_DONE: A blank verify passes or another segment runs (R657). Whether the blank verify passes. -/
  | eraseVerifyDone (ok : Bool)
  /-- BROWN_OUT: VIN below threshold for 1 µs raises the brown-out warning (R680). -/
  | brownOut
  /-- LF_PROGRAM_CUTOFF: 1 ms after the warning, no further life-record program starts (R662). -/
  | lfProgramCutoff
  /-- BROWN_OUT_END: VIN recovers for 1 ms and the warning ends (R680). -/
  | brownOutEnd
  /-- GPIO_EDGE: An edge on a pad sets its cause and raises a trail event (R686). The pad and the level it comes to. -/
  | gpioEdge (n : Fin 32) (level : Bool)
  /-- PAD_FUNC_WRITE: A PX_GCFG write that changes the function starts a handover (R688). The word written to PX_GCFG[i]. -/
  | padFuncWrite (who : Initiator) (n : Fin 32) (data : Word)
  /-- HANDOVER_END: The 2-cycle handover ends and the new function drives the pad (R688). -/
  | handoverEnd (n : Fin 32)
  /-- GSET_WRITE: A write of PX_GSET sets output bits of owned pads (R692). -/
  | gsetWrite (who : Initiator) (data : Word)
  /-- GCLR_WRITE: A write of PX_GCLR clears output bits of owned pads (R692). -/
  | gclrWrite (who : Initiator) (data : Word)
  /-- PULSE_END: A trail pulse on a pad ends after 2^PW cycles (R684). -/
  | pulseEnd (n : Fin 32)
  /-- VIO_LOST: A bank falls below 1.5 V and drives nothing (R679). The bank: 0 VIO_A to 3 VIO_D. -/
  | vioLost (b : Fin 4)
  /-- XTAL_OK: The crystal is validated and AON takes ACLK from it (R682). -/
  | xtalOk
  /-- XTAL_FAIL: The crystal stops and AON falls back to ROSC (R682). -/
  | xtalFail
  /-- VCORE_STEP: The buck setpoint moves by one 1 µs step (R678). -/
  | vcoreStep
  /-- BUCK_FAULT: A core-buck fault causes a device reset (R678). -/
  | buckFault
  /-- RESET_PIN: RESET_N low for 1 µs causes a device reset (R693). -/
  | resetPin
  /-- VIN_UNDERVOLTAGE: VIN below 2.55 V causes a device reset (R681). -/
  | vinUndervoltage
  /-- POWER_ON_RESET: VIN rises with the AON state lost and start-up begins (R697). -/
  | powerOnReset
  /-- RESET_RELEASE: With the source ended and the flash quiet, the reset is released (R694). -/
  | resetRelease
  /-- BUCK_PG: VCORE reaches its setpoint (R697). -/
  | buckPg
  /-- FUSE_LOAD_DONE: The fuse and charter shadows are loaded and the straps sampled (R697). ADDR in bits 2 to 0, BOOT in bits 4 and 3. -/
  | fuseLoadDone (straps : BitVec 5)
  /-- SVC_RELEASE: The PLLs lock and SVC is released (R697). Whether the PLLs lock on REFCLK, and the banks: VIO_A, its 3.3 V, VIO_B, its 3.3 V, VIO_C, VIO_D in bits 0 to 5. -/
  | svcRelease (refclk : Bool) (vio : BitVec 6)
  /-- BOOT_VERIFY_DONE: Boot-twin verification ends in pass, fallback or root-only (R423). -/
  | bootVerifyDone
  /-- LOG_SCAN_DONE: The log scan and meter restore complete after AON power-up (R668). -/
  | logScanDone
  /-- TAP_RESET: TRST_N or Test-Logic-Reset resets the TAP (R693). -/
  | tapReset
  /-- JTAG_IR_UPDATE: An instruction is loaded into the TAP, or refused as BYPASS (R700). The code shifted into the instruction register. -/
  | jtagIrUpdate (ir : BitVec 8)
  /-- ILLEGAL_INSTRUCTION: A fetched word that decodes to no assigned instruction (a reserved opcode, 0x0000_0000 or 0xFFFF_FFFF), or a word marked by a failed fetch, reaches DE and raises its exception, or on an engine a program fault (R571). The word fetched. Where its fetch failed, the exception is the fetch's; a word that names an assigned instruction raises nothing here. -/
  | illegalInstruction (cpu : Cpu) (w : Word)
  /-- AON_REGISTER_WRITE_ARRIVAL: A register write waiting in the AON crossing reaches its AON register at an ACLK edge, takes effect there and lowers the WQ fill (R28). The crossing: 0 life records, 1 meters, 2 RTC, 3 wake, 4 sampled comparators. -/
  | aonRegisterWriteArrival (q : Fin 5)
  /-- DEVICE_SOURCE_OUTPUT_FALL: The filtered output of a non-latching device source such as input over-current or a store source returns to 0, releasing FAULT_N and crowbars, starting the EFUSE_EN minimum and letting the store leave FAULT (R229). The source, as in FB_DSTAT. -/
  | deviceSourceOutputFall (src : Fin 8)
  /-- RESERVED_TYPE_FLIT: A flit that passes its CRC but carries a reserved TYPE, an ordered set not allowed in ACTIVE, or a controller-to-partner intent type is discarded and sets RSVD_TYPE or IG_RCAUSE.DROP (R293). -/
  | reservedTypeFlit (l : Lane) (typ : Byte) (pay : BitVec 104)
  /-- AVS_UNSUPPORTED_FRAME: An AVSBus frame with a bad CRC, an unmapped or broadcast select, or an unsupported command type is answered as taking no action and sets IG_DCAUSE.AVS_CRC or AVS_SEL (R364). A bad CRC; else a broadcast or unmapped select, or an unsupported command type. -/
  | avsUnsupportedFrame (badCrc : Bool)
  /-- SPI_UNKNOWN_INSTRUCTION: An SPI frame whose instruction byte is not WRITE, READ or READY is ignored with SPI_MISO at 0x00 and sets CP_CAUSE.ACC_ERR (R450). The instruction byte. -/
  | spiUnknownInstruction (instr : Byte)
  /-- LANE_CLRCNT: A write of 1 to LN_CTL.CLRCNT clears LN_ERRCNT and LN_DOWNCNT (R323). -/
  | laneClrcnt (who : Initiator) (l : Lane)
  deriving DecidableEq, Repr

end Sys2Proof
end

