-- ==== Sys2Proof/Decode.lean ====
section
/-! DEFINITION. The command that a word of the opcode table spells, and the instruction words of the CPUs (spec/16, R570,
R572, R574 to R586). The IZ6416 is driven by commands and spec/opcode_table.json gives none of its rows any bits, so no
word spells a command; a command that is an instruction of a CPU names it with its operands. -/

namespace Sys2Proof

/-- The command a word of `nbits` bits spells: none, since no row of the table gives bits. -/
def decodeTableWord (_nbits _w : Nat) : Option Instr := none

/-! ### The instruction formats (R570) -/

/-- Format R. -/
def encR (op rt ra rb : Nat) (sf : Bool) (fn : Nat) : Word :=
  BitVec.ofNat 32 (op * 2 ^ 26 + rt * 2 ^ 21 + ra * 2 ^ 16 + rb * 2 ^ 11 + sf.toNat * 2 ^ 10 + fn)

/-- Format Q, of major opcode 0x03. -/
def encQ (rt ra rb : Nat) (sf u neg acc rnd : Bool) (sh : Nat) : Word :=
  BitVec.ofNat 32 (0x03 * 2 ^ 26 + rt * 2 ^ 21 + ra * 2 ^ 16 + rb * 2 ^ 11 + sf.toNat * 2 ^ 10 + u.toNat * 2 ^ 9
    + neg.toNat * 2 ^ 8 + acc.toNat * 2 ^ 7 + rnd.toNat * 2 ^ 6 + sh)

/-- Format F, of major opcode 0x04. -/
def encF (rt ra pos wm1 fn : Nat) : Word :=
  BitVec.ofNat 32 (0x04 * 2 ^ 26 + rt * 2 ^ 21 + ra * 2 ^ 16 + pos * 2 ^ 11 + wm1 * 2 ^ 6 + fn)

/-- Formats I and M: the low half is the immediate, or am with d, or am with k and d. -/
def encI (op rt ra : Nat) (imm : BitVec 16) : Word := BitVec.ofNat 32 (op * 2 ^ 26 + rt * 2 ^ 21 + ra * 2 ^ 16 + imm.toNat)

/-- Formats B and J: what stands below the major opcode. -/
def encJ (op low : Nat) : Word := BitVec.ofNat 32 (op * 2 ^ 26 + low)

/-- Format Y with a code, of major opcode 0x30. -/
def encY (rt : Nat) (code : BitVec 10) (fn : Nat) : Word := BitVec.ofNat 32 (0x30 * 2 ^ 26 + rt * 2 ^ 21 + code.toNat * 2 ^ 11 + fn)

/-- The word of a command that is an instruction of a CPU (R572, R574 to R586); none for any other. -/
def cpuWord : Instr → Option Word
  | .add _ rt ra rb sf => some (encR 0x01 rt ra rb sf 0x00)
  | .sub _ rt ra rb sf => some (encR 0x01 rt ra rb sf 0x01)
  | .adc _ rt ra rb sf => some (encR 0x01 rt ra rb sf 0x02)
  | .sbc _ rt ra rb sf => some (encR 0x01 rt ra rb sf 0x03)
  | .and _ rt ra rb sf => some (encR 0x01 rt ra rb sf 0x04)
  | .or _ rt ra rb sf => some (encR 0x01 rt ra rb sf 0x05)
  | .xor _ rt ra rb sf => some (encR 0x01 rt ra rb sf 0x06)
  | .andn _ rt ra rb sf => some (encR 0x01 rt ra rb sf 0x07)
  | .shl _ rt ra rb sf => some (encR 0x01 rt ra rb sf 0x08)
  | .shr _ rt ra rb sf => some (encR 0x01 rt ra rb sf 0x09)
  | .sar _ rt ra rb sf => some (encR 0x01 rt ra rb sf 0x0A)
  | .ror _ rt ra rb sf => some (encR 0x01 rt ra rb sf 0x0B)
  | .shli _ rt ra sh sf => some (encR 0x01 rt ra sh sf 0x0C)
  | .shri _ rt ra sh sf => some (encR 0x01 rt ra sh sf 0x0D)
  | .sari _ rt ra sh sf => some (encR 0x01 rt ra sh sf 0x0E)
  | .rori _ rt ra sh sf => some (encR 0x01 rt ra sh sf 0x0F)
  | .min _ rt ra rb sf => some (encR 0x01 rt ra rb sf 0x10)
  | .max _ rt ra rb sf => some (encR 0x01 rt ra rb sf 0x11)
  | .minu _ rt ra rb sf => some (encR 0x01 rt ra rb sf 0x12)
  | .maxu _ rt ra rb sf => some (encR 0x01 rt ra rb sf 0x13)
  | .clz _ rt ra sf => some (encR 0x01 rt ra 0 sf 0x14)
  | .cls _ rt ra sf => some (encR 0x01 rt ra 0 sf 0x15)
  | .popc _ rt ra sf => some (encR 0x01 rt ra 0 sf 0x16)
  | .rev _ rt ra sf => some (encR 0x01 rt ra 0 sf 0x17)
  | .abs _ rt ra sf => some (encR 0x01 rt ra 0 sf 0x19)
  | .permr _ rt ra rb sf => some (encR 0x01 rt ra rb sf 0x18)
  | .adds _ rt ra rb sf => some (encR 0x01 rt ra rb sf 0x1A)
  | .subs _ rt ra rb sf => some (encR 0x01 rt ra rb sf 0x1B)
  | .mul _ rt ra rb sf => some (encR 0x02 rt ra rb sf 0x00)
  | .mulhs _ rt ra rb sf => some (encR 0x02 rt ra rb sf 0x01)
  | .mulhu _ rt ra rb sf => some (encR 0x02 rt ra rb sf 0x02)
  | .div _ rt ra rb sf => some (encR 0x02 rt ra rb sf 0x04)
  | .divu _ rt ra rb sf => some (encR 0x02 rt ra rb sf 0x05)
  | .rem _ rt ra rb sf => some (encR 0x02 rt ra rb sf 0x06)
  | .remu _ rt ra rb sf => some (encR 0x02 rt ra rb sf 0x07)
  | .mulq _ rt ra rb sf u rnd sh => some (encQ rt ra rb sf u false false rnd sh)
  | .mulqn _ rt ra rb sf u rnd sh => some (encQ rt ra rb sf u true false rnd sh)
  | .macq _ rt ra rb sf u rnd sh => some (encQ rt ra rb sf u false true rnd sh)
  | .msuq _ rt ra rb sf u rnd sh => some (encQ rt ra rb sf u true true rnd sh)
  | .bfx _ rt ra pos wm1 => some (encF rt ra pos wm1 0x00)
  | .bfxs _ rt ra pos wm1 => some (encF rt ra pos wm1 0x01)
  | .bfi _ rt ra pos wm1 => some (encF rt ra pos wm1 0x02)
  | .perm _ rt ra imm => some (encI 0x05 rt ra imm)
  | .addi _ rt ra imm => some (encI 0x06 rt ra imm)
  | .addis _ rt ra imm => some (encI 0x07 rt ra imm)
  | .andi _ rt ra imm => some (encI 0x08 rt ra imm)
  | .ori _ rt ra imm => some (encI 0x09 rt ra imm)
  | .xori _ rt ra imm => some (encI 0x0A rt ra imm)
  | .lui _ rt imm => some (encI 0x0B rt 0 imm)
  | .cmpi _ ra imm => some (encI 0x0C 0 ra imm)
  | .ldb _ rt ra m => some (encI 0x10 rt ra m)
  | .ldbu _ rt ra m => some (encI 0x11 rt ra m)
  | .ldh _ rt ra m => some (encI 0x12 rt ra m)
  | .ldhu _ rt ra m => some (encI 0x13 rt ra m)
  | .ldw _ rt ra m => some (encI 0x14 rt ra m)
  | .stb _ rt ra m => some (encI 0x15 rt ra m)
  | .sth _ rt ra m => some (encI 0x16 rt ra m)
  | .stw _ rt ra m => some (encI 0x17 rt ra m)
  | .cas _ rt ra rb => some (encR 0x18 rt ra rb.reg rb.sf 0)
  | .bcond _ cond disp => some (encJ 0x20 (cond * 2 ^ 22 + disp.toNat))
  | .jmp _ disp => some (encJ 0x21 disp.toNat)
  | .call _ disp => some (encJ 0x22 disp.toNat)
  | .jr _ ra => some (encR 0x23 0 ra.reg 0 ra.sf 0)
  | .jalr _ rt ra => some (encR 0x23 rt ra.reg 0 ra.sf 1)
  | .syscall _ code => some (encY 0 code 0x00)
  | .brk _ code => some (encY 0 code 0x01)
  | .eret _ => some (encY 0 0 0x02)
  | .wait _ => some (encY 0 0 0x03)
  | .sync _ => some (encY 0 0 0x04)
  | .mfcr _ rt code => some (encY rt code 0x05)
  | .mtcr _ code rt => some (encY rt code 0x06)
  | .imset _ rt => some (encY rt 0 0x07)
  | .imclr _ rt => some (encY rt 0 0x08)
  | .tinvA _ ra => some (encR 0x30 0 ra 0 false 0x09)
  | .tinvT _ ra => some (encR 0x30 0 ra 0 false 0x0A)
  | .tinvAll _ => some (encY 0 0 0x0B)
  | .done _ => some (encY 0 0 0x10)
  | .drop _ => some (encY 0 0 0x11)
  | .illegalInstruction _ w => some w
  | _ => none

end Sys2Proof
end

