-- ==== Sys2Proof/Config.lean ====
section
/-! DEFINITION. What an implementation or the outside world fixes and the spec does not state: the free values. None
has a body, so no proof can see one (notes/assumptions). -/

namespace Sys2Proof

/-- The free value of number `n`: what a result the spec leaves open turns out to be. The state's counter `fresh`
gives every use a number of its own. -/
opaque Config.freeValue : Nat → BitVec 64

/-- What a block loads from fuses whose place in the fuse array the spec does not give: 0 and 1 LN_VER.CUR and PREV, 2
IG_FEAT, 3 TC_TTRIM. -/
opaque Config.fuseTrim : Nat → BitVec 32

end Sys2Proof
end

