-- ==== Sys2Proof/Machine/Bits.lean ====
section
/-! DEFINITION. Bit fields of words and the pseudocode helpers of spec/00 (sat, usat, clamp, round; R4, R703, R704). -/

namespace Sys2Proof.Machine

/-- Bits [lo + n - 1 : lo] of a word, unsigned. -/
def bitsOf (w : Word) (lo n : Nat) : Nat := (w.extractLsb' lo n).toNat

/-- The word with bits [lo + n - 1 : lo] replaced by the low n bits of `v`. -/
def putBits (w : Word) (lo n : Nat) (v : Int) : Word :=
  let m : Word := BitVec.ofNat 32 (2 ^ n - 1) <<< lo
  (w &&& ~~~m) ||| ((BitVec.ofInt 32 v <<< lo) &&& m)

/-- The low `n` bits of `x` as a signed number (R2). -/
def sext (x : Int) (n : Nat) : Int :=
  let y := x % (2 ^ n : Int)
  if y < 2 ^ (n - 1) then y else y - 2 ^ n

/-- Bit `i` of a natural number, as 0 or 1. -/
def bit (x i : Nat) : Nat := (x >>> i) % 2

/-- sat(x, n): clamp to the signed n-bit range (spec/00, pseudocode). -/
def sat (x : Int) (n : Nat) : Int := max (-(2 ^ (n - 1) : Int)) (min x (2 ^ (n - 1) - 1))

/-- usat(x, n): clamp to the unsigned n-bit range. -/
def usat (x : Int) (n : Nat) : Int := max 0 (min x (2 ^ n - 1))

/-- clamp(x, lo, hi) is max(lo, min(x, hi)), lo where lo is above hi (R703). -/
def clampI (x lo hi : Int) : Int := max lo (min x hi)

/-- x >> n on a signed value: division by 2^n, rounded towards negative infinity (R4). -/
def asr (x : Int) (n : Nat) : Int := x / (2 ^ n : Int)

/-- round(x) for x = a / b with b above 0: the nearest integer, exact halves away from zero (R704). -/
def roundDiv (a b : Int) : Int :=
  if 0 ≤ a then (2 * a + b) / (2 * b) else -((2 * (-a) + b) / (2 * b))

/-- The quotient rounded up, for b above 0. -/
def ceilDiv (a b : Int) : Int := -((-a) / b)

/-- 1 for true, 0 for false. -/
def b2n (b : Bool) : Nat := if b then 1 else 0

/-- 1 for true, 0 for false. -/
def b2i (b : Bool) : Int := if b then 1 else 0

/-- How many bits of `x`, of its lowest `n`, are 1. -/
def popcount : Nat → Nat → Nat
  | 0, _ => 0
  | n + 1, x => bit x n + popcount n x

/-- Put x at its place in a list sorted by `le`, and a list so sorted. -/
def insBy {α : Type} (le : α → α → Bool) (x : α) : List α → List α
  | [] => [x]
  | y :: t => if le x y then x :: y :: t else y :: insBy le x t
def sortBy {α : Type} (le : α → α → Bool) (l : List α) : List α := l.foldr (insBy le) []

/-- A little-endian number from its bytes. -/
def leNat : List Nat → Nat
  | [] => 0
  | b :: t => b % 256 + 256 * leNat t

/-- The `n` bytes of `x`, lowest first. -/
def leBytes : Nat → Nat → List Nat
  | 0, _ => []
  | n + 1, x => (x % 256) :: leBytes n (x / 256)

/-- One bit of CRC-16 (polynomial 0x1021) shifted in. -/
def crcBit (c : Nat) : Nat :=
  if c ≥ 0x8000 then ((c * 2) % 0x10000) ^^^ 0x1021 else (c * 2) % 0x10000

/-- CRC-16 step over one byte, most significant bit first. -/
def crcByte (c b : Nat) : Nat :=
  (crcBit ∘ crcBit ∘ crcBit ∘ crcBit ∘ crcBit ∘ crcBit ∘ crcBit ∘ crcBit) (c ^^^ ((b % 256) * 256))

/-- CRC-16: polynomial 0x1021, initial value 0xFFFF, no reflection, no final exclusive-OR (R411, R427, R553). -/
def crc16 (l : List Nat) : Nat := l.foldl crcByte 0xFFFF

end Sys2Proof.Machine
end

