-- ==== Sys2Proof/Machine/RegTypes.lean ====
section
/-! DEFINITION. What a register description holds: where its copies lie, its reset word, its owner class and its
fields with their access types (spec/00, R6 to R16; spec/01, R35; spec/11, R399). The register files of this folder
list every register of the spec's summary tables in this form. -/

namespace Sys2Proof.Machine

/-- The access types of R10. -/
inductive Acc where
  | ro | rw | wo | w1c | w1s | rwl | rwo
  deriving DecidableEq, Repr

/-- Which owner a register has: the class that R38 and R399 check a writer against. -/
inductive Own where
  | p0        -- partition 0
  | sealed    -- only an initiator with the warden attribute
  | any       -- every partition (the block checks further)
  | rail      -- the owner of rail i
  | phase     -- the owner of phase i
  | lane      -- the owner of lane i
  | conv      -- the owner of converter i (TC_OWN)
  | chan      -- the owner of DMA channel i (DM_OWN)
  | timer     -- the owner of timer i (TM_OWN)
  | trail     -- the owner of trail i
  | pad       -- the owner of pad i (PX_GOWN)
  | padBits   -- owned bit by bit (R692)
  | part      -- partition i
  | store     -- the partition the charter gives the store
  | coretag   -- partition CH_CORETAG[i].PART
  | coreOnly  -- core i itself
  | ringElog  -- the owner of the ring the register names
  | gvTask    -- partition 0 and the grove task's owner
  deriving DecidableEq, Repr

/-- Who besides the owner may read a register. -/
inductive ReadAlso where
  | none | p0 | all | part | meter
  deriving DecidableEq, Repr

/-- Whether a register is double-buffered, and on which path its shadow is written (R22). -/
inductive Db where
  | none | sw | grove
  deriving DecidableEq, Repr

/-- A register: copy (i, j) lies at base + i * s1 + j * s2 (R8, R35). -/
structure Reg where
  base : Nat
  n1 : Nat := 1
  s1 : Nat := 0
  n2 : Nat := 1
  s2 : Nat := 0
  rst : Nat := 0
  /-- Reset words of the single copies, where the spec gives each its own (FB_DACT). -/
  rtab : List Nat := []
  own : Own := .p0
  rd : ReadAlso := .none
  db : Db := .none
  deriving DecidableEq, Repr

/-- A field of a register: its lowest bit, its width, its access type and the values R14 calls reserved. -/
structure Fld where
  reg : Reg
  lo : Nat
  n : Nat
  acc : Acc := .rw
  bad : List (Nat × Nat) := []
  deriving DecidableEq, Repr

/-- One row of the register map: a register and all its fields. -/
structure RegRow where
  reg : Reg
  fields : List Fld
  deriving DecidableEq, Repr

/-- The address of copy `i` of a register (R8). Copies of a doubly indexed register count the inner index fastest. -/
def Reg.addr (r : Reg) (i : Nat) : Nat := r.base + (i / r.n2) * r.s1 + (i % r.n2) * r.s2

/-- The reset word of copy `i`. -/
def Reg.reset (r : Reg) (i : Nat) : Word := BitVec.ofNat 32 ((r.rtab[i]?).getD r.rst)

/-- The copy of `r` that lies at address `a`, if one does. -/
def Reg.find? (r : Reg) (a : Nat) : Option Nat :=
  if a < r.base then none
  else
    let d := a - r.base
    let i := if r.s1 = 0 then 0 else d / r.s1
    let e := d - i * r.s1
    let j := if r.s2 = 0 then 0 else e / r.s2
    if i < r.n1 && j < r.n2 && e = j * r.s2 then some (i * r.n2 + j) else none

end Sys2Proof.Machine
end

