-- ==== Sys2Proof/Machine/RegsFabric.lean ====
section
/-! DEFINITION. The registers of the TR, DM, QM, ME, FC, TM, LF, EM blocks, one definition per register and per field, as the summaries and field
 tables of the spec give them (offset, copies, access, reset word, owner, reserved values). -/

namespace Sys2Proof.Machine

/-- TR_SRC: Source, gate, divider and enable of trail t; stride 0x4 (spec/13, R500). -/
def TR_SRC : Reg := { base := 0x400B0000, n1 := 4096, s1 := 0x4, rst := 0x00000FFF, own := .trail }
def TR_SRC_SRC : Fld := { reg := TR_SRC, lo := 0, n := 12, acc := .rw } -- Source (R462); 0xFFF none
def TR_SRC_GATE : Fld := { reg := TR_SRC, lo := 12, n := 12, acc := .rw } -- Gate (R463)
def TR_SRC_GEN : Fld := { reg := TR_SRC, lo := 24, n := 1, acc := .rw } -- 1: gate applied
def TR_SRC_GINV : Fld := { reg := TR_SRC, lo := 25, n := 1, acc := .rw } -- 1: gate passes on 0
def TR_SRC_DIV : Fld := { reg := TR_SRC, lo := 26, n := 3, acc := .rw } -- Pass every (DIV + 1)-th event (R467)
def TR_SRC_EN : Fld := { reg := TR_SRC, lo := 29, n := 1, acc := .rw } -- 1: trail routes
def TR_SRC_SEALED : Fld := { reg := TR_SRC, lo := 30, n := 1, acc := .rw } -- Security attribute; changed only with the warden attribute
def row_TR_SRC : RegRow := { reg := TR_SRC, fields := [TR_SRC_SRC, TR_SRC_GATE, TR_SRC_GEN, TR_SRC_GINV, TR_SRC_DIV, TR_SRC_EN, TR_SRC_SEALED] }
/-- TR_DSTA: Consumers 0 and 1; stride 0x4 (spec/13, R500). -/
def TR_DSTA : Reg := { base := 0x400B4000, n1 := 4096, s1 := 0x4, rst := 0x0FFF0FFF, own := .trail }
def TR_DSTA_C0 : Fld := { reg := TR_DSTA, lo := 0, n := 12, acc := .rw } -- Consumers 0 and 1 (R464); 0xFFF none
def TR_DSTA_C1 : Fld := { reg := TR_DSTA, lo := 16, n := 12, acc := .rw } -- Consumers 0 and 1 (R464); 0xFFF none
def row_TR_DSTA : RegRow := { reg := TR_DSTA, fields := [TR_DSTA_C0, TR_DSTA_C1] }
/-- TR_DSTB: Consumers 2 and 3; stride 0x4 (spec/13, R500). -/
def TR_DSTB : Reg := { base := 0x400B8000, n1 := 4096, s1 := 0x4, rst := 0x0FFF0FFF, own := .trail }
def TR_DSTB_C2 : Fld := { reg := TR_DSTB, lo := 0, n := 12, acc := .rw } -- Consumers 2 and 3
def TR_DSTB_C3 : Fld := { reg := TR_DSTB, lo := 16, n := 12, acc := .rw } -- Consumers 2 and 3
def row_TR_DSTB : RegRow := { reg := TR_DSTB, fields := [TR_DSTB_C2, TR_DSTB_C3] }
/-- TR_FIRE: Software event (R469) (spec/13, R500). -/
def TR_FIRE : Reg := { base := 0x400BC000 }
def TR_FIRE_TRAIL : Fld := { reg := TR_FIRE, lo := 0, n := 12, acc := .wo } -- Writing t fires trail t
def row_TR_FIRE : RegRow := { reg := TR_FIRE, fields := [TR_FIRE_TRAIL] }
/-- TR_GATESW: Software gates of partition p (spec/13, R500). -/
def TR_GATESW : Reg := { base := 0x400BC040, n1 := 8, s1 := 0x4, own := .part }
def TR_GATESW_GATE : Fld := { reg := TR_GATESW, lo := 0, n := 16, acc := .rw } -- Software gate levels of partition p
def row_TR_GATESW : RegRow := { reg := TR_GATESW, fields := [TR_GATESW_GATE] }
/-- TR_CAUSE: Leaf causes (spec/13, R500). -/
def TR_CAUSE : Reg := { base := 0x400BC100 }
def TR_CAUSE_IN_OVR : Fld := { reg := TR_CAUSE, lo := 0, n := 1, acc := .w1c } -- An event dropped at entry (R29, R472)
def TR_CAUSE_PORT_OVR : Fld := { reg := TR_CAUSE, lo := 1, n := 1, acc := .w1c } -- An event dropped at a consumer port (R470)
def TR_CAUSE_LOCK_ERR : Fld := { reg := TR_CAUSE, lo := 14, n := 1, acc := .w1c } -- Not used; reads 0
def TR_CAUSE_ACC_ERR : Fld := { reg := TR_CAUSE, lo := 15, n := 1, acc := .w1c } -- Reserved encoding written
def row_TR_CAUSE : RegRow := { reg := TR_CAUSE, fields := [TR_CAUSE_IN_OVR, TR_CAUSE_PORT_OVR, TR_CAUSE_LOCK_ERR, TR_CAUSE_ACC_ERR] }
/-- TR_CAUSE_EN: Cause enables to the bough (spec/13, R500). -/
def TR_CAUSE_EN : Reg := { base := 0x400BC104 }
def TR_CAUSE_EN_IN_OVR : Fld := { reg := TR_CAUSE_EN, lo := 0, n := 1, acc := .rw } -- An event dropped at entry (R29, R472)
def TR_CAUSE_EN_PORT_OVR : Fld := { reg := TR_CAUSE_EN, lo := 1, n := 1, acc := .rw } -- An event dropped at a consumer port (R470)
def TR_CAUSE_EN_LOCK_ERR : Fld := { reg := TR_CAUSE_EN, lo := 14, n := 1, acc := .rw } -- Not used; reads 0
def TR_CAUSE_EN_ACC_ERR : Fld := { reg := TR_CAUSE_EN, lo := 15, n := 1, acc := .rw } -- Reserved encoding written
def row_TR_CAUSE_EN : RegRow := { reg := TR_CAUSE_EN, fields := [TR_CAUSE_EN_IN_OVR, TR_CAUSE_EN_PORT_OVR, TR_CAUSE_EN_LOCK_ERR, TR_CAUSE_EN_ACC_ERR] }
/-- TR_DROPCNT: Dropped events (spec/13, R500). -/
def TR_DROPCNT : Reg := { base := 0x400BC108 }
def TR_DROPCNT_IN : Fld := { reg := TR_DROPCNT, lo := 0, n := 16, acc := .ro } -- Entry drops, saturating
def TR_DROPCNT_PORT : Fld := { reg := TR_DROPCNT, lo := 16, n := 16, acc := .ro } -- Port drops, saturating
def row_TR_DROPCNT : RegRow := { reg := TR_DROPCNT, fields := [TR_DROPCNT_IN, TR_DROPCNT_PORT] }
/-- DM_CTL: Commands (spec/13, R501). -/
def DM_CTL : Reg := { base := 0x400C0000, n1 := 32, s1 := 0x40, own := .chan }
def DM_CTL_START : Fld := { reg := DM_CTL, lo := 0, n := 1, acc := .wo } -- Writing 1 in IDLE starts the channel; elsewhere ignored
def DM_CTL_STOP : Fld := { reg := DM_CTL, lo := 1, n := 1, acc := .wo } -- Writing 1 stops at a boundary (R478)
def DM_CTL_CLR : Fld := { reg := DM_CTL, lo := 2, n := 1, acc := .wo } -- Writing 1 leaves STOPPED or ERROR
def DM_CTL_TRIG : Fld := { reg := DM_CTL, lo := 3, n := 1, acc := .wo } -- Writing 1 is a trigger
def row_DM_CTL : RegRow := { reg := DM_CTL, fields := [DM_CTL_START, DM_CTL_STOP, DM_CTL_CLR, DM_CTL_TRIG] }
/-- DM_FIRST: First descriptor (spec/13, R501). -/
def DM_FIRST : Reg := { base := 0x400C0004, n1 := 32, s1 := 0x40, own := .chan }
def DM_FIRST_ADDR : Fld := { reg := DM_FIRST, lo := 4, n := 28, acc := .rwl } -- First descriptor, bits [31:4]
def row_DM_FIRST : RegRow := { reg := DM_FIRST, fields := [DM_FIRST_ADDR] }
/-- DM_RING: Descriptor ring (spec/13, R501). -/
def DM_RING : Reg := { base := 0x400C0008, n1 := 32, s1 := 0x40, own := .chan }
def DM_RING_RING : Fld := { reg := DM_RING, lo := 0, n := 16, acc := .rwl } -- Descriptor ring (R481)
def DM_RING_EN : Fld := { reg := DM_RING, lo := 16, n := 1, acc := .rwl } -- 1: ring mode
def row_DM_RING : RegRow := { reg := DM_RING, fields := [DM_RING_RING, DM_RING_EN] }
/-- DM_STATUS: State and error (spec/13, R501). -/
def DM_STATUS : Reg := { base := 0x400C000C, n1 := 32, s1 := 0x40, own := .chan }
def DM_STATUS_STATE : Fld := { reg := DM_STATUS, lo := 0, n := 3, acc := .ro } -- 0 IDLE, 1 FETCH, 2 WAIT, 3 RUN, 4 RING_EMPTY, 5 STOPPED, 6 ERROR; 7 not used
def DM_STATUS_TPEND : Fld := { reg := DM_STATUS, lo := 3, n := 1, acc := .ro } -- A trigger is pending
def DM_STATUS_STOP_PEND : Fld := { reg := DM_STATUS, lo := 4, n := 1, acc := .ro } -- A stop waits for a boundary
def DM_STATUS_ERR_DIR : Fld := { reg := DM_STATUS, lo := 5, n := 1, acc := .ro } -- 0 read, 1 write
def DM_STATUS_ERR_KIND : Fld := { reg := DM_STATUS, lo := 6, n := 2, acc := .ro } -- 0 bus error or refusal, 1 uncorrectable error, 3 invalid descriptor; 2 not used
def row_DM_STATUS : RegRow := { reg := DM_STATUS, fields := [DM_STATUS_STATE, DM_STATUS_TPEND, DM_STATUS_STOP_PEND, DM_STATUS_ERR_DIR, DM_STATUS_ERR_KIND] }
/-- DM_CUR: Descriptor in hand (spec/13, R501). -/
def DM_CUR : Reg := { base := 0x400C0010, n1 := 32, s1 := 0x40, own := .chan }
def DM_CUR_ADDR : Fld := { reg := DM_CUR, lo := 0, n := 32, acc := .ro } -- Descriptor address (R477, R478)
def row_DM_CUR : RegRow := { reg := DM_CUR, fields := [DM_CUR_ADDR] }
/-- DM_LEFT: Bytes not yet written (spec/13, R501). -/
def DM_LEFT : Reg := { base := 0x400C0014, n1 := 32, s1 := 0x40, own := .chan }
def DM_LEFT_BYTES : Fld := { reg := DM_LEFT, lo := 0, n := 24, acc := .ro } -- Bytes not yet written
def row_DM_LEFT : RegRow := { reg := DM_LEFT, fields := [DM_LEFT_BYTES] }
/-- DM_ERRADDR: Faulting address (spec/13, R501). -/
def DM_ERRADDR : Reg := { base := 0x400C0018, n1 := 32, s1 := 0x40, own := .chan }
def DM_ERRADDR_ADDR : Fld := { reg := DM_ERRADDR, lo := 0, n := 32, acc := .ro } -- Faulting address
def row_DM_ERRADDR : RegRow := { reg := DM_ERRADDR, fields := [DM_ERRADDR_ADDR] }
/-- DM_CAUSE: Leaf causes (spec/13, R501). -/
def DM_CAUSE : Reg := { base := 0x400C001C, n1 := 32, s1 := 0x40, own := .chan }
def DM_CAUSE_DONE : Fld := { reg := DM_CAUSE, lo := 0, n := 1, acc := .w1c } -- A descriptor with EVT completed
def DM_CAUSE_END : Fld := { reg := DM_CAUSE, lo := 1, n := 1, acc := .w1c } -- The chain ended
def DM_CAUSE_STOPPED : Fld := { reg := DM_CAUSE, lo := 2, n := 1, acc := .w1c } -- STOPPED entered
def DM_CAUSE_ERR : Fld := { reg := DM_CAUSE, lo := 3, n := 1, acc := .w1c } -- ERROR entered
def DM_CAUSE_TOVR : Fld := { reg := DM_CAUSE, lo := 4, n := 1, acc := .w1c } -- A trigger found one pending and was dropped
def DM_CAUSE_LOCK_ERR : Fld := { reg := DM_CAUSE, lo := 14, n := 1, acc := .w1c } -- Write to a locked register (R483)
def DM_CAUSE_ACC_ERR : Fld := { reg := DM_CAUSE, lo := 15, n := 1, acc := .w1c } -- Reserved encoding, or a ring START refused (R481)
def row_DM_CAUSE : RegRow := { reg := DM_CAUSE, fields := [DM_CAUSE_DONE, DM_CAUSE_END, DM_CAUSE_STOPPED, DM_CAUSE_ERR, DM_CAUSE_TOVR, DM_CAUSE_LOCK_ERR, DM_CAUSE_ACC_ERR] }
/-- DM_CAUSE_EN: Cause enables to the bough (spec/13, R501). -/
def DM_CAUSE_EN : Reg := { base := 0x400C0020, n1 := 32, s1 := 0x40, own := .chan }
def DM_CAUSE_EN_DONE : Fld := { reg := DM_CAUSE_EN, lo := 0, n := 1, acc := .rw } -- A descriptor with EVT completed
def DM_CAUSE_EN_END : Fld := { reg := DM_CAUSE_EN, lo := 1, n := 1, acc := .rw } -- The chain ended
def DM_CAUSE_EN_STOPPED : Fld := { reg := DM_CAUSE_EN, lo := 2, n := 1, acc := .rw } -- STOPPED entered
def DM_CAUSE_EN_ERR : Fld := { reg := DM_CAUSE_EN, lo := 3, n := 1, acc := .rw } -- ERROR entered
def DM_CAUSE_EN_TOVR : Fld := { reg := DM_CAUSE_EN, lo := 4, n := 1, acc := .rw } -- A trigger found one pending and was dropped
def DM_CAUSE_EN_LOCK_ERR : Fld := { reg := DM_CAUSE_EN, lo := 14, n := 1, acc := .rw } -- Write to a locked register (R483)
def DM_CAUSE_EN_ACC_ERR : Fld := { reg := DM_CAUSE_EN, lo := 15, n := 1, acc := .rw } -- Reserved encoding, or a ring START refused (R481)
def row_DM_CAUSE_EN : RegRow := { reg := DM_CAUSE_EN, fields := [DM_CAUSE_EN_DONE, DM_CAUSE_EN_END, DM_CAUSE_EN_STOPPED, DM_CAUSE_EN_ERR, DM_CAUSE_EN_TOVR, DM_CAUSE_EN_LOCK_ERR, DM_CAUSE_EN_ACC_ERR] }
/-- DM_OWN: Owners of channels 8j to 8j + 7; not instance registers (spec/13, R501). -/
def DM_OWN : Reg := { base := 0x400C1000, n2 := 4, s2 := 0x4, own := .sealed }
def DM_OWN_PART (i : Nat) : Fld := { reg := DM_OWN, lo := 0 + 4 * i, n := 3, acc := .rwl } -- Owner of channel 8j + i
def row_DM_OWN : RegRow := { reg := DM_OWN, fields := (List.range 8).map DM_OWN_PART }
/-- DM_BOUGH: Channels with an enabled cause; not an instance register (spec/13, R501). -/
def DM_BOUGH : Reg := { base := 0x400C1010 }
def DM_BOUGH_CH : Fld := { reg := DM_BOUGH, lo := 0, n := 32, acc := .ro } -- Bit ch: channel ch has an enabled cause
def row_DM_BOUGH : RegRow := { reg := DM_BOUGH, fields := [DM_BOUGH_CH] }
/-- QM_DB: Doorbell (R487) (spec/13, R502). -/
def QM_DB : Reg := { base := 0x400D0000, own := .any }
def QM_DB_RING : Fld := { reg := QM_DB, lo := 0, n := 16, acc := .wo } -- Ring
def QM_DB_OP : Fld := { reg := QM_DB, lo := 16, n := 2, acc := .wo, bad := [(3, 3)] } -- 0 PRODUCE, 1 CONSUME, 2 ARM, 3 reserved
def QM_DB_COUNT : Fld := { reg := QM_DB, lo := 20, n := 12, acc := .wo } -- Elements, 1 to 4,095; 0 reserved for PRODUCE and CONSUME
def row_QM_DB : RegRow := { reg := QM_DB, fields := [QM_DB_RING, QM_DB_OP, QM_DB_COUNT] }
/-- QM_STATUS: Token pool (spec/13, R502). -/
def QM_STATUS : Reg := { base := 0x400D0004 }
def QM_STATUS_FREE : Fld := { reg := QM_STATUS, lo := 0, n := 18, acc := .ro } -- Tokens not held
def row_QM_STATUS : RegRow := { reg := QM_STATUS, fields := [QM_STATUS_FREE] }
/-- QM_CAUSE: Leaf causes (spec/13, R502). -/
def QM_CAUSE : Reg := { base := 0x400D0008 }
def QM_CAUSE_TOK_WAIT : Fld := { reg := QM_CAUSE, lo := 0, n := 1, acc := .w1c } -- A consumer waited at a token limit (R489)
def QM_CAUSE_LOST : Fld := { reg := QM_CAUSE, lo := 1, n := 1, acc := .w1c } -- Elements completed unsent at a link-down (R493)
def QM_CAUSE_LOCK_ERR : Fld := { reg := QM_CAUSE, lo := 14, n := 1, acc := .w1c } -- Write to a locked register
def QM_CAUSE_ACC_ERR : Fld := { reg := QM_CAUSE, lo := 15, n := 1, acc := .w1c } -- Reserved encoding written
def row_QM_CAUSE : RegRow := { reg := QM_CAUSE, fields := [QM_CAUSE_TOK_WAIT, QM_CAUSE_LOST, QM_CAUSE_LOCK_ERR, QM_CAUSE_ACC_ERR] }
/-- QM_CAUSE_EN: Cause enables to the bough (spec/13, R502). -/
def QM_CAUSE_EN : Reg := { base := 0x400D000C }
def QM_CAUSE_EN_TOK_WAIT : Fld := { reg := QM_CAUSE_EN, lo := 0, n := 1, acc := .rw } -- A consumer waited at a token limit (R489)
def QM_CAUSE_EN_LOST : Fld := { reg := QM_CAUSE_EN, lo := 1, n := 1, acc := .rw } -- Elements completed unsent at a link-down (R493)
def QM_CAUSE_EN_LOCK_ERR : Fld := { reg := QM_CAUSE_EN, lo := 14, n := 1, acc := .rw } -- Write to a locked register
def QM_CAUSE_EN_ACC_ERR : Fld := { reg := QM_CAUSE_EN, lo := 15, n := 1, acc := .rw } -- Reserved encoding written
def row_QM_CAUSE_EN : RegRow := { reg := QM_CAUSE_EN, fields := [QM_CAUSE_EN_TOK_WAIT, QM_CAUSE_EN_LOST, QM_CAUSE_EN_LOCK_ERR, QM_CAUSE_EN_ACC_ERR] }
/-- QM_TQUOTA: Token quota of partition p (spec/13, R502). -/
def QM_TQUOTA : Reg := { base := 0x400D0040, n1 := 8, s1 := 0x4, own := .sealed }
def QM_TQUOTA_QUOTA : Fld := { reg := QM_TQUOTA, lo := 0, n := 18, acc := .rw } -- Tokens partition p may hold (R490)
def row_QM_TQUOTA : RegRow := { reg := QM_TQUOTA, fields := [QM_TQUOTA_QUOTA] }
/-- QM_TUSE: Tokens held by partition p (spec/13, R502). -/
def QM_TUSE : Reg := { base := 0x400D0080, n1 := 8, s1 := 0x4, rd := .part }
def QM_TUSE_USED : Fld := { reg := QM_TUSE, lo := 0, n := 18, acc := .ro } -- Tokens held by partition p
def row_QM_TUSE : RegRow := { reg := QM_TUSE, fields := [QM_TUSE_USED] }
/-- QM_ELOG: Event-log slot i; stride 0x4 (spec/13, R502). -/
def QM_ELOG : Reg := { base := 0x400D0400, n1 := 256, s1 := 0x4, own := .ringElog }
def QM_ELOG_RING : Fld := { reg := QM_ELOG, lo := 0, n := 16, acc := .rw } -- Ring of slot i (R494)
def QM_ELOG_EN : Fld := { reg := QM_ELOG, lo := 16, n := 1, acc := .rw } -- 1: slot writes elements
def row_QM_ELOG : RegRow := { reg := QM_ELOG, fields := [QM_ELOG_RING, QM_ELOG_EN] }
/-- QM_LRX: Receive ring of lane l; stride 0x800 (spec/13, R502). -/
def QM_LRX : Reg := { base := 0x400D8000, n1 := 12, s1 := 0x800, own := .lane }
def QM_LRX_RING : Fld := { reg := QM_LRX, lo := 0, n := 16, acc := .rwl } -- Receive ring (R491); locked while the lane is not OFF
def QM_LRX_EN : Fld := { reg := QM_LRX, lo := 16, n := 1, acc := .rwl } -- 1: partner messages delivered; 0: discarded with LN_CAUSE.RSVD_TYPE
def row_QM_LRX : RegRow := { reg := QM_LRX, fields := [QM_LRX_RING, QM_LRX_EN] }
/-- QM_LTX: Transmit ring of lane l; stride 0x800 (spec/13, R502). -/
def QM_LTX : Reg := { base := 0x400D8004, n1 := 12, s1 := 0x800, own := .lane }
def QM_LTX_RING : Fld := { reg := QM_LTX, lo := 0, n := 16, acc := .rwl } -- Transmit ring; locked while the lane is not OFF
def QM_LTX_EN : Fld := { reg := QM_LTX, lo := 16, n := 1, acc := .rwl } -- 1: messages taken for sending
def row_QM_LTX : RegRow := { reg := QM_LTX, fields := [QM_LTX_RING, QM_LTX_EN] }
/-- ME_ARB_LIM: Wait limits of slots 4j to 4j + 3 (spec/13, R503). -/
def ME_ARB_LIM : Reg := { base := 0x40128000, n2 := 4, s2 := 0x4, rst := 0x10101010, own := .sealed }
def ME_ARB_LIM_LIM (i : Nat) : Fld := { reg := ME_ARB_LIM, lo := 0 + 8 * i, n := 8, acc := .rw, bad := [(0, 0)] } -- Wait limit of slot 4j + i
def row_ME_ARB_LIM : RegRow := { reg := ME_ARB_LIM, fields := (List.range 4).map ME_ARB_LIM_LIM }
/-- ME_ARB_MASK: Sideband mask (spec/13, R503). -/
def ME_ARB_MASK : Reg := { base := 0x40128010, rst := 0x0000F800 }
def ME_ARB_MASK_MASK : Fld := { reg := ME_ARB_MASK, lo := 0, n := 16, acc := .ro } -- Bit r: slot r masked by sideband
def row_ME_ARB_MASK : RegRow := { reg := ME_ARB_MASK, fields := [ME_ARB_MASK_MASK] }
/-- ME_ARB_CTL: Commands (spec/13, R503). -/
def ME_ARB_CTL : Reg := { base := 0x40128014 }
def ME_ARB_CTL_CLRMAX : Fld := { reg := ME_ARB_CTL, lo := 0, n := 1, acc := .wo } -- Writing 1 clears every ME_ARB_WMAX
def row_ME_ARB_CTL : RegRow := { reg := ME_ARB_CTL, fields := [ME_ARB_CTL_CLRMAX] }
/-- ME_ARB_STAT: Bank b; stride 0x4 (spec/13, R503). -/
def ME_ARB_STAT : Reg := { base := 0x40128040, n1 := 16, s1 := 0x4, rst := 0x0000000F }
def ME_ARB_STAT_PARK : Fld := { reg := ME_ARB_STAT, lo := 0, n := 4, acc := .ro } -- Parked slot; valid when PARKED is 1
def ME_ARB_STAT_PARKED : Fld := { reg := ME_ARB_STAT, lo := 4, n := 1, acc := .ro } -- 1: a slot is parked
def ME_ARB_STAT_LAST : Fld := { reg := ME_ARB_STAT, lo := 8, n := 4, acc := .ro } -- Last winner
def row_ME_ARB_STAT : RegRow := { reg := ME_ARB_STAT, fields := [ME_ARB_STAT_PARK, ME_ARB_STAT_PARKED, ME_ARB_STAT_LAST] }
/-- ME_ARB_WMAX: Slot r; stride 0x4 (spec/13, R503). -/
def ME_ARB_WMAX : Reg := { base := 0x40128080, n1 := 16, s1 := 0x4 }
def ME_ARB_WMAX_ROUNDS : Fld := { reg := ME_ARB_WMAX, lo := 0, n := 8, acc := .ro } -- Longest wait of slot r on any bank, saturating
def ME_ARB_WMAX_FORCED : Fld := { reg := ME_ARB_WMAX, lo := 8, n := 8, acc := .ro } -- Forced wins of slot r, saturating
def row_ME_ARB_WMAX : RegRow := { reg := ME_ARB_WMAX, fields := [ME_ARB_WMAX_ROUNDS, ME_ARB_WMAX_FORCED] }
/-- TM_TB_LO: Time base bits [31:0] (R537) (spec/15, R562). -/
def TM_TB_LO : Reg := { base := 0x40100000, rd := .all }
def TM_TB_LO_VALUE : Fld := { reg := TM_TB_LO, lo := 0, n := 32, acc := .ro }
def row_TM_TB_LO : RegRow := { reg := TM_TB_LO, fields := [TM_TB_LO_VALUE] }
/-- TM_TB_HI: Time base bits [63:32] (spec/15, R562). -/
def TM_TB_HI : Reg := { base := 0x40100004, rd := .all }
def TM_TB_HI_VALUE : Fld := { reg := TM_TB_HI, lo := 0, n := 32, acc := .ro }
def row_TM_TB_HI : RegRow := { reg := TM_TB_HI, fields := [TM_TB_HI_VALUE] }
/-- TM_OWN: Owners of timers 8j to 8j + 7 (spec/15, R562). -/
def TM_OWN : Reg := { base := 0x40100010, n2 := 2, s2 := 0x4, own := .sealed }
def TM_OWN_PART (i : Nat) : Fld := { reg := TM_OWN, lo := 0 + 4 * i, n := 3, acc := .rwl } -- Owner of timer 8j + i
def row_TM_OWN : RegRow := { reg := TM_OWN, fields := (List.range 8).map TM_OWN_PART }
/-- TM_BOUGH: Timers and RTC with an enabled cause (spec/15, R562). -/
def TM_BOUGH : Reg := { base := 0x40100018 }
def TM_BOUGH_TIMER : Fld := { reg := TM_BOUGH, lo := 0, n := 16, acc := .ro } -- Bit t: TM_TCAUSE[t] AND TM_TCAUSE_EN[t] not 0
def TM_BOUGH_RTC : Fld := { reg := TM_BOUGH, lo := 16, n := 1, acc := .ro } -- TM_ACAUSE AND TM_ACAUSE_EN not 0
def row_TM_BOUGH : RegRow := { reg := TM_BOUGH, fields := [TM_BOUGH_TIMER, TM_BOUGH_RTC] }
/-- TM_TCTL: Timer control; stride 0x40 (spec/15, R562). -/
def TM_TCTL : Reg := { base := 0x40100100, n1 := 16, s1 := 0x40, own := .timer }
def TM_TCTL_RUN : Fld := { reg := TM_TCTL, lo := 0, n := 1, acc := .rw } -- 1: counting
def TM_TCTL_MODE : Fld := { reg := TM_TCTL, lo := 1, n := 2, acc := .rw, bad := [(2, 3)] } -- 0 up, 1 symmetric, 2 and 3 reserved
def TM_TCTL_XSTART : Fld := { reg := TM_TCTL, lo := 3, n := 1, acc := .rw } -- 1: start event sets RUN
def TM_TCTL_OUTINV : Fld := { reg := TM_TCTL, lo := 4, n := 1, acc := .rw } -- 1: output inverted
def TM_TCTL_PRE : Fld := { reg := TM_TCTL, lo := 8, n := 8, acc := .rw } -- Prescaler, PCLK / (PRE + 1)
def row_TM_TCTL : RegRow := { reg := TM_TCTL, fields := [TM_TCTL_RUN, TM_TCTL_MODE, TM_TCTL_XSTART, TM_TCTL_OUTINV, TM_TCTL_PRE] }
/-- TM_TSTAT: Timer status; stride 0x40 (spec/15, R562). -/
def TM_TSTAT : Reg := { base := 0x40100104, n1 := 16, s1 := 0x40, own := .timer }
def TM_TSTAT_DOWN : Fld := { reg := TM_TSTAT, lo := 0, n := 1, acc := .ro } -- 1: counting down
def TM_TSTAT_OUT : Fld := { reg := TM_TSTAT, lo := 1, n := 1, acc := .ro } -- Output level (R540)
def row_TM_TSTAT : RegRow := { reg := TM_TSTAT, fields := [TM_TSTAT_DOWN, TM_TSTAT_OUT] }
/-- TM_CNT_LO: Count; stride 0x40 (spec/15, R562). -/
def TM_CNT_LO : Reg := { base := 0x40100108, n1 := 16, s1 := 0x40, own := .timer }
def TM_CNT_LO_VALUE : Fld := { reg := TM_CNT_LO, lo := 0, n := 32, acc := .rw }
def row_TM_CNT_LO : RegRow := { reg := TM_CNT_LO, fields := [TM_CNT_LO_VALUE] }
/-- TM_CNT_HI: Count; stride 0x40 (spec/15, R562). -/
def TM_CNT_HI : Reg := { base := 0x4010010C, n1 := 16, s1 := 0x40, own := .timer }
def TM_CNT_HI_VALUE : Fld := { reg := TM_CNT_HI, lo := 0, n := 32, acc := .rw }
def row_TM_CNT_HI : RegRow := { reg := TM_CNT_HI, fields := [TM_CNT_HI_VALUE] }
/-- TM_TOP_LO: Top; stride 0x40 (spec/15, R562). -/
def TM_TOP_LO : Reg := { base := 0x40100110, n1 := 16, s1 := 0x40, rst := 0xFFFFFFFF, own := .timer }
def TM_TOP_LO_VALUE : Fld := { reg := TM_TOP_LO, lo := 0, n := 32, acc := .rw }
def row_TM_TOP_LO : RegRow := { reg := TM_TOP_LO, fields := [TM_TOP_LO_VALUE] }
/-- TM_TOP_HI: Top; stride 0x40 (spec/15, R562). -/
def TM_TOP_HI : Reg := { base := 0x40100114, n1 := 16, s1 := 0x40, rst := 0xFFFFFFFF, own := .timer }
def TM_TOP_HI_VALUE : Fld := { reg := TM_TOP_HI, lo := 0, n := 32, acc := .rw }
def row_TM_TOP_HI : RegRow := { reg := TM_TOP_HI, fields := [TM_TOP_HI_VALUE] }
/-- TM_MAT_LO: Match; stride 0x40 (spec/15, R562). -/
def TM_MAT_LO : Reg := { base := 0x40100118, n1 := 16, s1 := 0x40, own := .timer }
def TM_MAT_LO_VALUE : Fld := { reg := TM_MAT_LO, lo := 0, n := 32, acc := .rw }
def row_TM_MAT_LO : RegRow := { reg := TM_MAT_LO, fields := [TM_MAT_LO_VALUE] }
/-- TM_MAT_HI: Match; stride 0x40 (spec/15, R562). -/
def TM_MAT_HI : Reg := { base := 0x4010011C, n1 := 16, s1 := 0x40, own := .timer }
def TM_MAT_HI_VALUE : Fld := { reg := TM_MAT_HI, lo := 0, n := 32, acc := .rw }
def row_TM_MAT_HI : RegRow := { reg := TM_MAT_HI, fields := [TM_MAT_HI_VALUE] }
/-- TM_CAP_LO: Capture stamp; stride 0x40 (spec/15, R562). -/
def TM_CAP_LO : Reg := { base := 0x40100120, n1 := 16, s1 := 0x40, own := .timer }
def TM_CAP_LO_VALUE : Fld := { reg := TM_CAP_LO, lo := 0, n := 32, acc := .ro }
def row_TM_CAP_LO : RegRow := { reg := TM_CAP_LO, fields := [TM_CAP_LO_VALUE] }
/-- TM_CAP_HI: Capture stamp; stride 0x40 (spec/15, R562). -/
def TM_CAP_HI : Reg := { base := 0x40100124, n1 := 16, s1 := 0x40, own := .timer }
def TM_CAP_HI_VALUE : Fld := { reg := TM_CAP_HI, lo := 0, n := 32, acc := .ro }
def row_TM_CAP_HI : RegRow := { reg := TM_CAP_HI, fields := [TM_CAP_HI_VALUE] }
/-- TM_TCAUSE: Timer causes; stride 0x40 (spec/15, R562). -/
def TM_TCAUSE : Reg := { base := 0x40100128, n1 := 16, s1 := 0x40, own := .timer }
def TM_TCAUSE_MATCH : Fld := { reg := TM_TCAUSE, lo := 0, n := 1, acc := .w1c } -- Match
def TM_TCAUSE_OVF : Fld := { reg := TM_TCAUSE, lo := 1, n := 1, acc := .w1c } -- Overflow
def TM_TCAUSE_CAP : Fld := { reg := TM_TCAUSE, lo := 2, n := 1, acc := .w1c } -- Capture
def TM_TCAUSE_CAP_OVR : Fld := { reg := TM_TCAUSE, lo := 3, n := 1, acc := .w1c } -- Capture while CAP set
def TM_TCAUSE_LOCK_ERR : Fld := { reg := TM_TCAUSE, lo := 14, n := 1, acc := .w1c } -- Write to a locked field
def TM_TCAUSE_ACC_ERR : Fld := { reg := TM_TCAUSE, lo := 15, n := 1, acc := .w1c } -- Reserved encoding written
def row_TM_TCAUSE : RegRow := { reg := TM_TCAUSE, fields := [TM_TCAUSE_MATCH, TM_TCAUSE_OVF, TM_TCAUSE_CAP, TM_TCAUSE_CAP_OVR, TM_TCAUSE_LOCK_ERR, TM_TCAUSE_ACC_ERR] }
/-- TM_TCAUSE_EN: Timer cause enables; stride 0x40 (spec/15, R562). -/
def TM_TCAUSE_EN : Reg := { base := 0x4010012C, n1 := 16, s1 := 0x40, own := .timer }
def TM_TCAUSE_EN_MATCH : Fld := { reg := TM_TCAUSE_EN, lo := 0, n := 1, acc := .rw } -- Match
def TM_TCAUSE_EN_OVF : Fld := { reg := TM_TCAUSE_EN, lo := 1, n := 1, acc := .rw } -- Overflow
def TM_TCAUSE_EN_CAP : Fld := { reg := TM_TCAUSE_EN, lo := 2, n := 1, acc := .rw } -- Capture
def TM_TCAUSE_EN_CAP_OVR : Fld := { reg := TM_TCAUSE_EN, lo := 3, n := 1, acc := .rw } -- Capture while CAP set
def TM_TCAUSE_EN_LOCK_ERR : Fld := { reg := TM_TCAUSE_EN, lo := 14, n := 1, acc := .rw } -- Write to a locked field
def TM_TCAUSE_EN_ACC_ERR : Fld := { reg := TM_TCAUSE_EN, lo := 15, n := 1, acc := .rw } -- Reserved encoding written
def row_TM_TCAUSE_EN : RegRow := { reg := TM_TCAUSE_EN, fields := [TM_TCAUSE_EN_MATCH, TM_TCAUSE_EN_OVF, TM_TCAUSE_EN_CAP, TM_TCAUSE_EN_CAP_OVR, TM_TCAUSE_EN_LOCK_ERR, TM_TCAUSE_EN_ACC_ERR] }
/-- TM_RTC_LO: RTC (spec/15, R562). -/
def TM_RTC_LO : Reg := { base := 0x50008000, rd := .all }
def TM_RTC_LO_SUB : Fld := { reg := TM_RTC_LO, lo := 0, n := 16, acc := .ro }
def TM_RTC_LO_SEC : Fld := { reg := TM_RTC_LO, lo := 16, n := 16, acc := .ro }
def row_TM_RTC_LO : RegRow := { reg := TM_RTC_LO, fields := [TM_RTC_LO_SUB, TM_RTC_LO_SEC] }
/-- TM_RTC_HI: RTC (spec/15, R562). -/
def TM_RTC_HI : Reg := { base := 0x50008004, rd := .all }
def TM_RTC_HI_SEC : Fld := { reg := TM_RTC_HI, lo := 0, n := 32, acc := .ro }
def row_TM_RTC_HI : RegRow := { reg := TM_RTC_HI, fields := [TM_RTC_HI_SEC] }
/-- TM_SET_LO: Set value (spec/15, R562). -/
def TM_SET_LO : Reg := { base := 0x50008008, rd := .all }
def TM_SET_LO_SUB : Fld := { reg := TM_SET_LO, lo := 0, n := 16, acc := .rw }
def TM_SET_LO_SEC : Fld := { reg := TM_SET_LO, lo := 16, n := 16, acc := .rw }
def row_TM_SET_LO : RegRow := { reg := TM_SET_LO, fields := [TM_SET_LO_SUB, TM_SET_LO_SEC] }
/-- TM_SET_HI: Set value (spec/15, R562). -/
def TM_SET_HI : Reg := { base := 0x5000800C, rd := .all }
def TM_SET_HI_SEC : Fld := { reg := TM_SET_HI, lo := 0, n := 32, acc := .rw }
def row_TM_SET_HI : RegRow := { reg := TM_SET_HI, fields := [TM_SET_HI_SEC] }
/-- TM_RTC_CTL: Set, validity and alarm (spec/15, R562). -/
def TM_RTC_CTL : Reg := { base := 0x50008010, rd := .all }
def TM_RTC_CTL_SET : Fld := { reg := TM_RTC_CTL, lo := 0, n := 1, acc := .wo } -- Writing 1 applies TM_SET (R544)
def TM_RTC_CTL_VALID : Fld := { reg := TM_RTC_CTL, lo := 1, n := 1, acc := .ro } -- 0 after AON power-up until a set (R546)
def TM_RTC_CTL_ALM_EN : Fld := { reg := TM_RTC_CTL, lo := 2, n := 1, acc := .rw } -- 1: alarm enabled
def TM_RTC_CTL_SETBUSY : Fld := { reg := TM_RTC_CTL, lo := 3, n := 1, acc := .ro } -- A set waits in the crossing
def row_TM_RTC_CTL : RegRow := { reg := TM_RTC_CTL, fields := [TM_RTC_CTL_SET, TM_RTC_CTL_VALID, TM_RTC_CTL_ALM_EN, TM_RTC_CTL_SETBUSY] }
/-- TM_ALM_LO: Alarm seconds (spec/15, R562). -/
def TM_ALM_LO : Reg := { base := 0x50008014, rd := .all }
def TM_ALM_LO_SEC : Fld := { reg := TM_ALM_LO, lo := 16, n := 16, acc := .rw }
def row_TM_ALM_LO : RegRow := { reg := TM_ALM_LO, fields := [TM_ALM_LO_SEC] }
/-- TM_ALM_HI: Alarm seconds (spec/15, R562). -/
def TM_ALM_HI : Reg := { base := 0x50008018, rd := .all }
def TM_ALM_HI_SEC : Fld := { reg := TM_ALM_HI, lo := 0, n := 32, acc := .rw }
def row_TM_ALM_HI : RegRow := { reg := TM_ALM_HI, fields := [TM_ALM_HI_SEC] }
/-- TM_CAL0: Calendar (spec/15, R562). -/
def TM_CAL0 : Reg := { base := 0x5000801C, rd := .all }
def TM_CAL0_YEAR : Fld := { reg := TM_CAL0, lo := 0, n := 8, acc := .ro } -- Year - 2000
def TM_CAL0_MONTH : Fld := { reg := TM_CAL0, lo := 8, n := 4, acc := .ro } -- 1 to 12
def TM_CAL0_DAY : Fld := { reg := TM_CAL0, lo := 16, n := 5, acc := .ro } -- 1 to 31
def row_TM_CAL0 : RegRow := { reg := TM_CAL0, fields := [TM_CAL0_YEAR, TM_CAL0_MONTH, TM_CAL0_DAY] }
/-- TM_CAL1: Calendar (spec/15, R562). -/
def TM_CAL1 : Reg := { base := 0x50008020, rd := .all }
def TM_CAL1_SEC : Fld := { reg := TM_CAL1, lo := 0, n := 6, acc := .ro } -- 0 to 59
def TM_CAL1_MIN : Fld := { reg := TM_CAL1, lo := 8, n := 6, acc := .ro } -- 0 to 59
def TM_CAL1_HOUR : Fld := { reg := TM_CAL1, lo := 16, n := 5, acc := .ro } -- 0 to 23
def row_TM_CAL1 : RegRow := { reg := TM_CAL1, fields := [TM_CAL1_SEC, TM_CAL1_MIN, TM_CAL1_HOUR] }
/-- TM_ACAUSE: RTC causes (spec/15, R562). -/
def TM_ACAUSE : Reg := { base := 0x50008024, rd := .all }
def TM_ACAUSE_ALARM : Fld := { reg := TM_ACAUSE, lo := 0, n := 1, acc := .w1c } -- Alarm fired
def TM_ACAUSE_SET : Fld := { reg := TM_ACAUSE, lo := 1, n := 1, acc := .w1c } -- RTC set
def TM_ACAUSE_SETBACK : Fld := { reg := TM_ACAUSE, lo := 2, n := 1, acc := .w1c } -- RTC set back
def TM_ACAUSE_INVALID : Fld := { reg := TM_ACAUSE, lo := 3, n := 1, acc := .w1c } -- RTC restored at AON power-up
def TM_ACAUSE_END : Fld := { reg := TM_ACAUSE, lo := 4, n := 1, acc := .w1c } -- Calendar limit reached
def TM_ACAUSE_ACC_ERR : Fld := { reg := TM_ACAUSE, lo := 15, n := 1, acc := .w1c } -- Reserved encoding written
def row_TM_ACAUSE : RegRow := { reg := TM_ACAUSE, fields := [TM_ACAUSE_ALARM, TM_ACAUSE_SET, TM_ACAUSE_SETBACK, TM_ACAUSE_INVALID, TM_ACAUSE_END, TM_ACAUSE_ACC_ERR] }
/-- TM_ACAUSE_EN: RTC cause enables (spec/15, R562). -/
def TM_ACAUSE_EN : Reg := { base := 0x50008028, rd := .all }
def TM_ACAUSE_EN_ALARM : Fld := { reg := TM_ACAUSE_EN, lo := 0, n := 1, acc := .rw } -- Alarm fired
def TM_ACAUSE_EN_SET : Fld := { reg := TM_ACAUSE_EN, lo := 1, n := 1, acc := .rw } -- RTC set
def TM_ACAUSE_EN_SETBACK : Fld := { reg := TM_ACAUSE_EN, lo := 2, n := 1, acc := .rw } -- RTC set back
def TM_ACAUSE_EN_INVALID : Fld := { reg := TM_ACAUSE_EN, lo := 3, n := 1, acc := .rw } -- RTC restored at AON power-up
def TM_ACAUSE_EN_END : Fld := { reg := TM_ACAUSE_EN, lo := 4, n := 1, acc := .rw } -- Calendar limit reached
def TM_ACAUSE_EN_ACC_ERR : Fld := { reg := TM_ACAUSE_EN, lo := 15, n := 1, acc := .rw } -- Reserved encoding written
def row_TM_ACAUSE_EN : RegRow := { reg := TM_ACAUSE_EN, fields := [TM_ACAUSE_EN_ALARM, TM_ACAUSE_EN_SET, TM_ACAUSE_EN_SETBACK, TM_ACAUSE_EN_INVALID, TM_ACAUSE_EN_END, TM_ACAUSE_EN_ACC_ERR] }
/-- TM_WQ: AON write queue fill (spec/15, R562). -/
def TM_WQ : Reg := { base := 0x5000802C, rd := .all }
def TM_WQ_FILL : Fld := { reg := TM_WQ, lo := 0, n := 3, acc := .ro } -- Writes waiting, 0 to 4
def row_TM_WQ : RegRow := { reg := TM_WQ, fields := [TM_WQ_FILL] }
/-- LF_CFG: Flush, wear and thermal options; 0x0364_3201 at AON power-up (spec/15, R563). -/
def LF_CFG : Reg := { base := 0x50000000, rst := 0x03643201 }
def LF_CFG_EN : Fld := { reg := LF_CFG, lo := 0, n := 1, acc := .rw } -- 1: periodic flush runs
def LF_CFG_LIFE_KH : Fld := { reg := LF_CFG, lo := 8, n := 8, acc := .rw, bad := [(0, 0)] } -- Rated life, 1,000 h (R549); 0 reserved
def LF_CFG_TCYC : Fld := { reg := LF_CFG, lo := 16, n := 8, acc := .rw, bad := [(0, 0)] } -- Weighted half-cycle life, thousands; 0 reserved
def LF_CFG_THYST : Fld := { reg := LF_CFG, lo := 24, n := 4, acc := .rw, bad := [(0, 0)] } -- Reversal threshold, °C; 0 reserved
def row_LF_CFG : RegRow := { reg := LF_CFG, fields := [LF_CFG_EN, LF_CFG_LIFE_KH, LF_CFG_TCYC, LF_CFG_THYST] }
/-- LF_CTL: Commands (spec/15, R563). -/
def LF_CTL : Reg := { base := 0x50000004 }
def LF_CTL_FLUSH : Fld := { reg := LF_CTL, lo := 0, n := 1, acc := .wo } -- Writing 1 requests a flush
def row_LF_CTL : RegRow := { reg := LF_CTL, fields := [LF_CTL_FLUSH] }
/-- LF_STATUS: Flush state (spec/15, R563). -/
def LF_STATUS : Reg := { base := 0x50000008 }
def LF_STATUS_BUSY : Fld := { reg := LF_STATUS, lo := 0, n := 1, acc := .ro } -- Flush in progress
def LF_STATUS_LAST : Fld := { reg := LF_STATUS, lo := 1, n := 2, acc := .ro } -- 0 complete, 1 flash error, 2 cut short by brown-out
def LF_STATUS_RESTORED : Fld := { reg := LF_STATUS, lo := 3, n := 1, acc := .ro } -- Counters restored from the log since AON power-up
def row_LF_STATUS : RegRow := { reg := LF_STATUS, fields := [LF_STATUS_BUSY, LF_STATUS_LAST, LF_STATUS_RESTORED] }
/-- LF_LSEQ: LSEQ of the newest record written (spec/15, R563). -/
def LF_LSEQ : Reg := { base := 0x5000000C }
def LF_LSEQ_VALUE : Fld := { reg := LF_LSEQ, lo := 0, n := 32, acc := .ro }
def row_LF_LSEQ : RegRow := { reg := LF_LSEQ, fields := [LF_LSEQ_VALUE] }
/-- LF_POH: Seconds with SVC on (spec/15, R563). -/
def LF_POH : Reg := { base := 0x50000010 }
def LF_POH_VALUE : Fld := { reg := LF_POH, lo := 0, n := 32, acc := .ro }
def row_LF_POH : RegRow := { reg := LF_POH, fields := [LF_POH_VALUE] }
/-- LF_ERASE: Erase counts, bank A, bank B, boot bank (spec/15, R563). -/
def LF_ERASE : Reg := { base := 0x50000014, n2 := 3, s2 := 0x4 }
def LF_ERASE_VALUE : Fld := { reg := LF_ERASE, lo := 0, n := 32, acc := .ro }
def row_LF_ERASE : RegRow := { reg := LF_ERASE, fields := [LF_ERASE_VALUE] }
/-- LF_FB0: Firebreak counts (spec/15, R563). -/
def LF_FB0 : Reg := { base := 0x50000020 }
def LF_FB0_RAILOFF : Fld := { reg := LF_FB0, lo := 0, n := 16, acc := .ro } -- Firebreak rail-offs, phase holds
def LF_FB0_HOLD : Fld := { reg := LF_FB0, lo := 16, n := 16, acc := .ro } -- Firebreak rail-offs, phase holds
def row_LF_FB0 : RegRow := { reg := LF_FB0, fields := [LF_FB0_RAILOFF, LF_FB0_HOLD] }
/-- LF_FB1: Firebreak counts (spec/15, R563). -/
def LF_FB1 : Reg := { base := 0x50000024 }
def LF_FB1_CROW : Fld := { reg := LF_FB1, lo := 0, n := 16, acc := .ro } -- Crowbar assertions, EFUSE_EN drops
def LF_FB1_EFUSE : Fld := { reg := LF_FB1, lo := 16, n := 16, acc := .ro } -- Crowbar assertions, EFUSE_EN drops
def row_LF_FB1 : RegRow := { reg := LF_FB1, fields := [LF_FB1_CROW, LF_FB1_EFUSE] }
/-- LF_SSEL: Slot selection (spec/15, R563). -/
def LF_SSEL : Reg := { base := 0x50000030 }
def LF_SSEL_PHASE : Fld := { reg := LF_SSEL, lo := 0, n := 6, acc := .rw } -- Phase slot
def LF_SSEL_BIN : Fld := { reg := LF_SSEL, lo := 8, n := 3, acc := .rw } -- THERM bin
def row_LF_SSEL : RegRow := { reg := LF_SSEL, fields := [LF_SSEL_PHASE, LF_SSEL_BIN] }
/-- LF_SON: ON_TIME of the slot (spec/15, R563). -/
def LF_SON : Reg := { base := 0x50000034 }
def LF_SON_VALUE : Fld := { reg := LF_SON, lo := 0, n := 32, acc := .ro }
def row_LF_SON : RegRow := { reg := LF_SON, fields := [LF_SON_VALUE] }
/-- LF_SCHG_LO: CHARGE of the slot, mC (spec/15, R563). -/
def LF_SCHG_LO : Reg := { base := 0x50000038 }
def LF_SCHG_LO_VALUE : Fld := { reg := LF_SCHG_LO, lo := 0, n := 32, acc := .ro }
def row_LF_SCHG_LO : RegRow := { reg := LF_SCHG_LO, fields := [LF_SCHG_LO_VALUE] }
/-- LF_SCHG_HI: CHARGE of the slot, mC (spec/15, R563). -/
def LF_SCHG_HI : Reg := { base := 0x5000003C }
def LF_SCHG_HI_VALUE : Fld := { reg := LF_SCHG_HI, lo := 0, n := 32, acc := .ro }
def row_LF_SCHG_HI : RegRow := { reg := LF_SCHG_HI, fields := [LF_SCHG_HI_VALUE] }
/-- LF_STHM: THERM bin and FAULTS (spec/15, R563). -/
def LF_STHM : Reg := { base := 0x50000040 }
def LF_STHM_HALF : Fld := { reg := LF_STHM, lo := 0, n := 16, acc := .ro } -- Half-cycles in BIN
def LF_STHM_FAULTS : Fld := { reg := LF_STHM, lo := 16, n := 16, acc := .ro } -- Fault count
def row_LF_STHM : RegRow := { reg := LF_STHM, fields := [LF_STHM_HALF, LF_STHM_FAULTS] }
/-- LF_SWEAR: Wear and slot state (spec/15, R563). -/
def LF_SWEAR : Reg := { base := 0x50000044 }
def LF_SWEAR_WEAR : Fld := { reg := LF_SWEAR, lo := 0, n := 16, acc := .ro } -- Wear index (R549)
def LF_SWEAR_MIRROR : Fld := { reg := LF_SWEAR, lo := 16, n := 1, acc := .ro } -- Slot loaded from the mirror
def LF_SWEAR_MAPPED : Fld := { reg := LF_SWEAR, lo := 17, n := 1, acc := .ro } -- A stage is mapped
def row_LF_SWEAR : RegRow := { reg := LF_SWEAR, fields := [LF_SWEAR_WEAR, LF_SWEAR_MIRROR, LF_SWEAR_MAPPED] }
/-- LF_CAUSE: Leaf causes (spec/15, R563). -/
def LF_CAUSE : Reg := { base := 0x50000050 }
def LF_CAUSE_FLUSH_DONE : Fld := { reg := LF_CAUSE, lo := 0, n := 1, acc := .w1c } -- Flush completed
def LF_CAUSE_FLUSH_ERR : Fld := { reg := LF_CAUSE, lo := 1, n := 1, acc := .w1c } -- Flush failed
def LF_CAUSE_MIRROR_BAD : Fld := { reg := LF_CAUSE, lo := 2, n := 1, acc := .w1c } -- Mirror CRC failed at mapping
def LF_CAUSE_RESTORE : Fld := { reg := LF_CAUSE, lo := 3, n := 1, acc := .w1c } -- Restored at AON power-up
def LF_CAUSE_BROWNOUT : Fld := { reg := LF_CAUSE, lo := 4, n := 1, acc := .w1c } -- Brown-out flush
def LF_CAUSE_ACC_ERR : Fld := { reg := LF_CAUSE, lo := 15, n := 1, acc := .w1c } -- Reserved encoding written
def row_LF_CAUSE : RegRow := { reg := LF_CAUSE, fields := [LF_CAUSE_FLUSH_DONE, LF_CAUSE_FLUSH_ERR, LF_CAUSE_MIRROR_BAD, LF_CAUSE_RESTORE, LF_CAUSE_BROWNOUT, LF_CAUSE_ACC_ERR] }
/-- LF_CAUSE_EN: Cause enables (spec/15, R563). -/
def LF_CAUSE_EN : Reg := { base := 0x50000054 }
def LF_CAUSE_EN_FLUSH_DONE : Fld := { reg := LF_CAUSE_EN, lo := 0, n := 1, acc := .rw } -- Flush completed
def LF_CAUSE_EN_FLUSH_ERR : Fld := { reg := LF_CAUSE_EN, lo := 1, n := 1, acc := .rw } -- Flush failed
def LF_CAUSE_EN_MIRROR_BAD : Fld := { reg := LF_CAUSE_EN, lo := 2, n := 1, acc := .rw } -- Mirror CRC failed at mapping
def LF_CAUSE_EN_RESTORE : Fld := { reg := LF_CAUSE_EN, lo := 3, n := 1, acc := .rw } -- Restored at AON power-up
def LF_CAUSE_EN_BROWNOUT : Fld := { reg := LF_CAUSE_EN, lo := 4, n := 1, acc := .rw } -- Brown-out flush
def LF_CAUSE_EN_ACC_ERR : Fld := { reg := LF_CAUSE_EN, lo := 15, n := 1, acc := .rw } -- Reserved encoding written
def row_LF_CAUSE_EN : RegRow := { reg := LF_CAUSE_EN, fields := [LF_CAUSE_EN_FLUSH_DONE, LF_CAUSE_EN_FLUSH_ERR, LF_CAUSE_EN_MIRROR_BAD, LF_CAUSE_EN_RESTORE, LF_CAUSE_EN_BROWNOUT, LF_CAUSE_EN_ACC_ERR] }
/-- LF_WQ: AON write queue fill (spec/15, R563). -/
def LF_WQ : Reg := { base := 0x50000058 }
def LF_WQ_FILL : Fld := { reg := LF_WQ, lo := 0, n := 3, acc := .ro } -- Writes waiting, 0 to 4
def row_LF_WQ : RegRow := { reg := LF_WQ, fields := [LF_WQ_FILL] }
/-- EM_E_LO: Delivered meter of rail k, µJ (spec/15, R564). -/
def EM_E_LO : Reg := { base := 0x50004000, n1 := 16, s1 := 0x400, rd := .meter }
def EM_E_LO_VALUE : Fld := { reg := EM_E_LO, lo := 0, n := 32, acc := .ro }
def row_EM_E_LO : RegRow := { reg := EM_E_LO, fields := [EM_E_LO_VALUE] }
/-- EM_E_HI: Delivered meter of rail k, µJ (spec/15, R564). -/
def EM_E_HI : Reg := { base := 0x50004004, n1 := 16, s1 := 0x400, rd := .meter }
def EM_E_HI_VALUE : Fld := { reg := EM_E_HI, lo := 0, n := 32, acc := .ro }
def row_EM_E_HI : RegRow := { reg := EM_E_HI, fields := [EM_E_HI_VALUE] }
/-- EM_R_LO: Returned meter of rail k, µJ (spec/15, R564). -/
def EM_R_LO : Reg := { base := 0x50004008, n1 := 16, s1 := 0x400, rd := .meter }
def EM_R_LO_VALUE : Fld := { reg := EM_R_LO, lo := 0, n := 32, acc := .ro }
def row_EM_R_LO : RegRow := { reg := EM_R_LO, fields := [EM_R_LO_VALUE] }
/-- EM_R_HI: Returned meter of rail k, µJ (spec/15, R564). -/
def EM_R_HI : Reg := { base := 0x5000400C, n1 := 16, s1 := 0x400, rd := .meter }
def EM_R_HI_VALUE : Fld := { reg := EM_R_HI, lo := 0, n := 32, acc := .ro }
def row_EM_R_HI : RegRow := { reg := EM_R_HI, fields := [EM_R_HI_VALUE] }
/-- EM_CFG: Interval length; 0x8000_0E10 at AON power-up (spec/15, R564). -/
def EM_CFG : Reg := { base := 0x50004200, rst := 0x80000E10 }
def EM_CFG_LEN : Fld := { reg := EM_CFG, lo := 0, n := 17, acc := .rw } -- Interval length, s (R558)
def EM_CFG_EN : Fld := { reg := EM_CFG, lo := 31, n := 1, acc := .rw } -- 1: intervals close at boundaries; meters run whatever EN holds
def row_EM_CFG : RegRow := { reg := EM_CFG, fields := [EM_CFG_LEN, EM_CFG_EN] }
/-- EM_STATUS: Epoch and queue (spec/15, R564). -/
def EM_STATUS : Reg := { base := 0x50004204, rd := .all }
def EM_STATUS_EPOCH : Fld := { reg := EM_STATUS, lo := 0, n := 16, acc := .ro } -- Epoch of the open interval
def EM_STATUS_RESTORED : Fld := { reg := EM_STATUS, lo := 16, n := 1, acc := .ro } -- R561 has run since AON power-up
def EM_STATUS_QFILL : Fld := { reg := EM_STATUS, lo := 24, n := 7, acc := .ro } -- Records queued, 0 to 64
def row_EM_STATUS : RegRow := { reg := EM_STATUS, fields := [EM_STATUS_EPOCH, EM_STATUS_RESTORED, EM_STATUS_QFILL] }
/-- EM_SEQ: SEQ of the open interval (spec/15, R564). -/
def EM_SEQ : Reg := { base := 0x50004208, rd := .all }
def EM_SEQ_SEQ : Fld := { reg := EM_SEQ, lo := 0, n := 32, acc := .ro } -- SEQ of the open interval
def row_EM_SEQ : RegRow := { reg := EM_SEQ, fields := [EM_SEQ_SEQ] }
/-- EM_CAUSE: Leaf causes (spec/15, R564). -/
def EM_CAUSE : Reg := { base := 0x50004210 }
def EM_CAUSE_CLOSE : Fld := { reg := EM_CAUSE, lo := 0, n := 1, acc := .w1c } -- An interval closed at a boundary
def EM_CAUSE_CUT : Fld := { reg := EM_CAUSE, lo := 1, n := 1, acc := .w1c } -- An interval closed by a set
def EM_CAUSE_PLOSS : Fld := { reg := EM_CAUSE, lo := 2, n := 1, acc := .w1c } -- Intervals closed after power loss
def EM_CAUSE_QOVR : Fld := { reg := EM_CAUSE, lo := 3, n := 1, acc := .w1c } -- A record was discarded (R560)
def EM_CAUSE_ACC_ERR : Fld := { reg := EM_CAUSE, lo := 15, n := 1, acc := .w1c } -- Reserved encoding written
def row_EM_CAUSE : RegRow := { reg := EM_CAUSE, fields := [EM_CAUSE_CLOSE, EM_CAUSE_CUT, EM_CAUSE_PLOSS, EM_CAUSE_QOVR, EM_CAUSE_ACC_ERR] }
/-- EM_CAUSE_EN: Cause enables (spec/15, R564). -/
def EM_CAUSE_EN : Reg := { base := 0x50004214 }
def EM_CAUSE_EN_CLOSE : Fld := { reg := EM_CAUSE_EN, lo := 0, n := 1, acc := .rw } -- An interval closed at a boundary
def EM_CAUSE_EN_CUT : Fld := { reg := EM_CAUSE_EN, lo := 1, n := 1, acc := .rw } -- An interval closed by a set
def EM_CAUSE_EN_PLOSS : Fld := { reg := EM_CAUSE_EN, lo := 2, n := 1, acc := .rw } -- Intervals closed after power loss
def EM_CAUSE_EN_QOVR : Fld := { reg := EM_CAUSE_EN, lo := 3, n := 1, acc := .rw } -- A record was discarded (R560)
def EM_CAUSE_EN_ACC_ERR : Fld := { reg := EM_CAUSE_EN, lo := 15, n := 1, acc := .rw } -- Reserved encoding written
def row_EM_CAUSE_EN : RegRow := { reg := EM_CAUSE_EN, fields := [EM_CAUSE_EN_CLOSE, EM_CAUSE_EN_CUT, EM_CAUSE_EN_PLOSS, EM_CAUSE_EN_QOVR, EM_CAUSE_EN_ACC_ERR] }
/-- EM_BOUGH: EM cause enabled (spec/15, R564). -/
def EM_BOUGH : Reg := { base := 0x50004218 }
def EM_BOUGH_DEV : Fld := { reg := EM_BOUGH, lo := 0, n := 1, acc := .ro } -- EM_CAUSE AND EM_CAUSE_EN not 0
def row_EM_BOUGH : RegRow := { reg := EM_BOUGH, fields := [EM_BOUGH_DEV] }
/-- EM_WQ: AON write queue fill (spec/15, R564). -/
def EM_WQ : Reg := { base := 0x5000421C }
def EM_WQ_FILL : Fld := { reg := EM_WQ, lo := 0, n := 3, acc := .ro } -- Writes waiting, 0 to 4
def row_EM_WQ : RegRow := { reg := EM_WQ, fields := [EM_WQ_FILL] }
/-- ME_BCFG: Repair mode and scrub enable (spec/19, R672). -/
def ME_BCFG : Reg := { base := 0x40120000, n1 := 17, s1 := 0x100, rst := 0x00000010 }
def ME_BCFG_REPAIR : Fld := { reg := ME_BCFG, lo := 0, n := 1, acc := .rw } -- 0 spare rows, 1 remap table (R647)
def ME_BCFG_SCRUB : Fld := { reg := ME_BCFG, lo := 4, n := 1, acc := .rw } -- 1: the scrubber visits the bank
def row_ME_BCFG : RegRow := { reg := ME_BCFG, fields := [ME_BCFG_REPAIR, ME_BCFG_SCRUB] }
/-- ME_BCNT: Error counts (spec/19, R672). -/
def ME_BCNT : Reg := { base := 0x40120004, n1 := 17, s1 := 0x100 }
def ME_BCNT_CE : Fld := { reg := ME_BCNT, lo := 0, n := 16, acc := .ro } -- Corrected bytes, saturating
def ME_BCNT_UE : Fld := { reg := ME_BCNT, lo := 16, n := 16, acc := .ro } -- Uncorrectable bytes, saturating
def row_ME_BCNT : RegRow := { reg := ME_BCNT, fields := [ME_BCNT_CE, ME_BCNT_UE] }
/-- ME_BERR: Last error (spec/19, R672). -/
def ME_BERR : Reg := { base := 0x40120008, n1 := 17, s1 := 0x100 }
def ME_BERR_ADDR : Fld := { reg := ME_BERR, lo := 0, n := 20, acc := .ro } -- Byte offset in the bank
def ME_BERR_LANE : Fld := { reg := ME_BERR, lo := 20, n := 2, acc := .ro } -- Byte lane
def ME_BERR_UE : Fld := { reg := ME_BERR, lo := 22, n := 1, acc := .ro } -- 1 uncorrectable, 0 corrected
def ME_BERR_SRC : Fld := { reg := ME_BERR, lo := 24, n := 4, acc := .ro } -- Initiator slot (R496)
def row_ME_BERR : RegRow := { reg := ME_BERR, fields := [ME_BERR_ADDR, ME_BERR_LANE, ME_BERR_UE, ME_BERR_SRC] }
/-- ME_BCAUSE: Bank leaf causes (spec/19, R672). -/
def ME_BCAUSE : Reg := { base := 0x4012000C, n1 := 17, s1 := 0x100 }
def ME_BCAUSE_CE : Fld := { reg := ME_BCAUSE, lo := 0, n := 1, acc := .w1c } -- A byte was corrected
def ME_BCAUSE_UE : Fld := { reg := ME_BCAUSE, lo := 1, n := 1, acc := .w1c } -- An uncorrectable byte was read
def ME_BCAUSE_SCRUB_UE : Fld := { reg := ME_BCAUSE, lo := 2, n := 1, acc := .w1c } -- The scrubber found an uncorrectable word
def ME_BCAUSE_LOCK_ERR : Fld := { reg := ME_BCAUSE, lo := 14, n := 1, acc := .w1c } -- Not used; reads 0
def ME_BCAUSE_ACC_ERR : Fld := { reg := ME_BCAUSE, lo := 15, n := 1, acc := .w1c } -- Refused REPAIR or remap write, or reserved encoding
def row_ME_BCAUSE : RegRow := { reg := ME_BCAUSE, fields := [ME_BCAUSE_CE, ME_BCAUSE_UE, ME_BCAUSE_SCRUB_UE, ME_BCAUSE_LOCK_ERR, ME_BCAUSE_ACC_ERR] }
/-- ME_BCAUSE_EN: Bank cause enables (spec/19, R672). -/
def ME_BCAUSE_EN : Reg := { base := 0x40120010, n1 := 17, s1 := 0x100 }
def ME_BCAUSE_EN_CE : Fld := { reg := ME_BCAUSE_EN, lo := 0, n := 1, acc := .rw } -- A byte was corrected
def ME_BCAUSE_EN_UE : Fld := { reg := ME_BCAUSE_EN, lo := 1, n := 1, acc := .rw } -- An uncorrectable byte was read
def ME_BCAUSE_EN_SCRUB_UE : Fld := { reg := ME_BCAUSE_EN, lo := 2, n := 1, acc := .rw } -- The scrubber found an uncorrectable word
def ME_BCAUSE_EN_LOCK_ERR : Fld := { reg := ME_BCAUSE_EN, lo := 14, n := 1, acc := .rw } -- Not used; reads 0
def ME_BCAUSE_EN_ACC_ERR : Fld := { reg := ME_BCAUSE_EN, lo := 15, n := 1, acc := .rw } -- Refused REPAIR or remap write, or reserved encoding
def row_ME_BCAUSE_EN : RegRow := { reg := ME_BCAUSE_EN, fields := [ME_BCAUSE_EN_CE, ME_BCAUSE_EN_UE, ME_BCAUSE_EN_SCRUB_UE, ME_BCAUSE_EN_LOCK_ERR, ME_BCAUSE_EN_ACC_ERR] }
/-- ME_BROWS: Fuse entries in use (spec/19, R672). -/
def ME_BROWS : Reg := { base := 0x40120014, n1 := 16, s1 := 0x100 }
def ME_BROWS_USED : Fld := { reg := ME_BROWS, lo := 0, n := 8, acc := .ro } -- Bit i: fuse entry i of the bank is USED
def row_ME_BROWS : RegRow := { reg := ME_BROWS, fields := [ME_BROWS_USED] }
/-- ME_REMAP: Remap entry i; stride 0x4 (spec/19, R672). -/
def ME_REMAP : Reg := { base := 0x40120040, n1 := 16, s1 := 0x100, n2 := 16, s2 := 0x4 }
def ME_REMAP_WADDR : Fld := { reg := ME_REMAP, lo := 2, n := 18, acc := .rw } -- Word offset in the bank
def ME_REMAP_V : Fld := { reg := ME_REMAP, lo := 31, n := 1, acc := .rw } -- 1: entry valid (R648)
def row_ME_REMAP : RegRow := { reg := ME_REMAP, fields := [ME_REMAP_WADDR, ME_REMAP_V] }
/-- ME_SCRUB: Scrubber (spec/19, R672). -/
def ME_SCRUB : Reg := { base := 0x40122000, rst := 0x01000001 }
def ME_SCRUB_EN : Fld := { reg := ME_SCRUB, lo := 0, n := 1, acc := .rw } -- 1: scrubber runs
def ME_SCRUB_RATE : Fld := { reg := ME_SCRUB, lo := 16, n := 16, acc := .rw, bad := [(0, 0)] } -- SCLK cycles per visit; 0 reserved
def row_ME_SCRUB : RegRow := { reg := ME_SCRUB, fields := [ME_SCRUB_EN, ME_SCRUB_RATE] }
/-- ME_SCRUBPOS: Scrubber position (spec/19, R672). -/
def ME_SCRUBPOS : Reg := { base := 0x40122004 }
def ME_SCRUBPOS_ADDR : Fld := { reg := ME_SCRUBPOS, lo := 2, n := 18, acc := .ro } -- Word offset of the next visit
def ME_SCRUBPOS_BANK : Fld := { reg := ME_SCRUBPOS, lo := 20, n := 5, acc := .ro } -- Bank of the next visit, 16 for AON SRAM
def row_ME_SCRUBPOS : RegRow := { reg := ME_SCRUBPOS, fields := [ME_SCRUBPOS_ADDR, ME_SCRUBPOS_BANK] }
/-- ME_SCRUBCNT: Passes completed (spec/19, R672). -/
def ME_SCRUBCNT : Reg := { base := 0x40122008 }
def ME_SCRUBCNT_PASSES : Fld := { reg := ME_SCRUBCNT, lo := 0, n := 32, acc := .ro } -- Passes completed, saturating
def row_ME_SCRUBCNT : RegRow := { reg := ME_SCRUBCNT, fields := [ME_SCRUBCNT_PASSES] }
/-- ME_TEST: Test mode (spec/19, R672). -/
def ME_TEST : Reg := { base := 0x4012200C, own := .sealed }
def ME_TEST_EN : Fld := { reg := ME_TEST, lo := 0, n := 1, acc := .rw } -- 1: test mode (R649)
def ME_TEST_BANK : Fld := { reg := ME_TEST, lo := 4, n := 5, acc := .rw, bad := [(17, 31)] } -- Bank under test, 0 to 16
def row_ME_TEST : RegRow := { reg := ME_TEST, fields := [ME_TEST_EN, ME_TEST_BANK] }
/-- ME_TCHKW: Check bits for test writes (spec/19, R672). -/
def ME_TCHKW : Reg := { base := 0x40122010, own := .sealed }
def ME_TCHKW_CHK : Fld := { reg := ME_TCHKW, lo := 0, n := 20, acc := .rw } -- Check bits of byte lane i in [5i + 4:5i]
def ME_TCHKW_VALID : Fld := { reg := ME_TCHKW, lo := 20, n := 2, acc := .rw } -- The two valid copies written
def row_ME_TCHKW : RegRow := { reg := ME_TCHKW, fields := [ME_TCHKW_CHK, ME_TCHKW_VALID] }
/-- ME_TCHKR: Check bits of the last test read (spec/19, R672). -/
def ME_TCHKR : Reg := { base := 0x40122014, own := .sealed }
def ME_TCHKR_CHK : Fld := { reg := ME_TCHKR, lo := 0, n := 20, acc := .ro } -- Stored check bits, as CHK
def ME_TCHKR_VALID : Fld := { reg := ME_TCHKR, lo := 20, n := 2, acc := .ro } -- Stored valid copies
def row_ME_TCHKR : RegRow := { reg := ME_TCHKR, fields := [ME_TCHKR_CHK, ME_TCHKR_VALID] }
/-- ME_CAUSE: Device leaf causes (spec/19, R672). -/
def ME_CAUSE : Reg := { base := 0x40122018 }
def ME_CAUSE_WBQ_OVR : Fld := { reg := ME_CAUSE, lo := 0, n := 1, acc := .w1c } -- A corrected word found the write-back queue full
def ME_CAUSE_ACC_ERR : Fld := { reg := ME_CAUSE, lo := 15, n := 1, acc := .w1c } -- Reserved encoding, or a narrow store in test mode
def row_ME_CAUSE : RegRow := { reg := ME_CAUSE, fields := [ME_CAUSE_WBQ_OVR, ME_CAUSE_ACC_ERR] }
/-- ME_CAUSE_EN: Device cause enables (spec/19, R672). -/
def ME_CAUSE_EN : Reg := { base := 0x4012201C }
def ME_CAUSE_EN_WBQ_OVR : Fld := { reg := ME_CAUSE_EN, lo := 0, n := 1, acc := .rw } -- A corrected word found the write-back queue full
def ME_CAUSE_EN_ACC_ERR : Fld := { reg := ME_CAUSE_EN, lo := 15, n := 1, acc := .rw } -- Reserved encoding, or a narrow store in test mode
def row_ME_CAUSE_EN : RegRow := { reg := ME_CAUSE_EN, fields := [ME_CAUSE_EN_WBQ_OVR, ME_CAUSE_EN_ACC_ERR] }
/-- ME_BOUGH: Banks and device with an enabled cause (spec/19, R672). -/
def ME_BOUGH : Reg := { base := 0x40122020 }
def ME_BOUGH_BANK : Fld := { reg := ME_BOUGH, lo := 0, n := 17, acc := .ro } -- Bit b: ME_BCAUSE AND ME_BCAUSE_EN of bank b not 0
def ME_BOUGH_DEV : Fld := { reg := ME_BOUGH, lo := 17, n := 1, acc := .ro } -- ME_CAUSE AND ME_CAUSE_EN not 0
def row_ME_BOUGH : RegRow := { reg := ME_BOUGH, fields := [ME_BOUGH_BANK, ME_BOUGH_DEV] }
/-- FC_WS: Read wait states (spec/19, R673). -/
def FC_WS : Reg := { base := 0x40110000, rst := 0x0000001F, own := .sealed }
def FC_WS_RD : Fld := { reg := FC_WS, lo := 0, n := 5, acc := .rw } -- Wait states (R652, R653)
def row_FC_WS : RegRow := { reg := FC_WS, fields := [FC_WS_RD] }
/-- FC_CMD: Command and result (spec/19, R673). -/
def FC_CMD : Reg := { base := 0x40110004, own := .sealed }
def FC_CMD_OP : Fld := { reg := FC_CMD, lo := 0, n := 3, acc := .rw, bad := [(7, 7)] } -- 0 none, 1 PROGRAM, 2 ERASE, 3 SUSPEND, 4 RESUME, 5 RDTWIN, 6 SWAP, 7 reserved
def FC_CMD_NLINES : Fld := { reg := FC_CMD, lo := 4, n := 4, acc := .rw } -- Lines - 1 for PROGRAM
def FC_CMD_GO : Fld := { reg := FC_CMD, lo := 8, n := 1, acc := .wo } -- Writing 1 issues OP
def FC_CMD_BUSY : Fld := { reg := FC_CMD, lo := 9, n := 1, acc := .ro } -- Command in progress
def FC_CMD_RES : Fld := { reg := FC_CMD, lo := 10, n := 2, acc := .ro } -- 0 done, 1 refused, 2 verify failed, 3 brown-out stop
def FC_CMD_WHY : Fld := { reg := FC_CMD, lo := 12, n := 4, acc := .ro } -- 0 none, 1 state, 2 line not erased, 3 address or space not allowed, 4 suspended sector, 5 brown-out, 6 reserved encoding
def row_FC_CMD : RegRow := { reg := FC_CMD, fields := [FC_CMD_OP, FC_CMD_NLINES, FC_CMD_GO, FC_CMD_BUSY, FC_CMD_RES, FC_CMD_WHY] }
/-- FC_ADDR: Command address (spec/19, R673). -/
def FC_ADDR : Reg := { base := 0x40110008, own := .sealed }
def FC_ADDR_ADDR : Fld := { reg := FC_ADDR, lo := 0, n := 23, acc := .rw } -- Flash address for SPACE 0; offset in the idle twin for SPACE 1; bit 0 names the twin for SWAP
def FC_ADDR_SPACE : Fld := { reg := FC_ADDR, lo := 24, n := 1, acc := .rw } -- 0 banks A and B, 1 idle twin
def row_FC_ADDR : RegRow := { reg := FC_ADDR, fields := [FC_ADDR_ADDR, FC_ADDR_SPACE] }
/-- FC_STATUS: Controller state (spec/19, R673). -/
def FC_STATUS : Reg := { base := 0x4011000C }
def FC_STATUS_STATE : Fld := { reg := FC_STATUS, lo := 0, n := 3, acc := .ro } -- 0 IDLE, 1 PROGRAM, 2 ERASE, 4 SUSPENDED, 5 SUSP_PROGRAM; 3, 6 and 7 not used
def FC_STATUS_BUSY_A : Fld := { reg := FC_STATUS, lo := 4, n := 1, acc := .ro } -- Bank A busy
def FC_STATUS_BUSY_B : Fld := { reg := FC_STATUS, lo := 5, n := 1, acc := .ro } -- Bank B busy
def FC_STATUS_BUSY_T : Fld := { reg := FC_STATUS, lo := 6, n := 1, acc := .ro } -- Idle twin busy
def FC_STATUS_BUSY_S : Fld := { reg := FC_STATUS, lo := 7, n := 1, acc := .ro } -- Swap cell busy
def FC_STATUS_LF : Fld := { reg := FC_STATUS, lo := 8, n := 1, acc := .ro } -- A command of the life-record block is running
def FC_STATUS_BROWN : Fld := { reg := FC_STATUS, lo := 9, n := 1, acc := .ro } -- Brown-out warning present
def FC_STATUS_SEG : Fld := { reg := FC_STATUS, lo := 12, n := 4, acc := .ro } -- Segment of the erase in progress, 1 to 8
def row_FC_STATUS : RegRow := { reg := FC_STATUS, fields := [FC_STATUS_STATE, FC_STATUS_BUSY_A, FC_STATUS_BUSY_B, FC_STATUS_BUSY_T, FC_STATUS_BUSY_S, FC_STATUS_LF, FC_STATUS_BROWN, FC_STATUS_SEG] }
/-- FC_SUSP: Suspended erase (spec/19, R673). -/
def FC_SUSP : Reg := { base := 0x40110010 }
def FC_SUSP_ADDR : Fld := { reg := FC_SUSP, lo := 0, n := 23, acc := .ro } -- Sector of the suspended erase
def FC_SUSP_LF : Fld := { reg := FC_SUSP, lo := 31, n := 1, acc := .ro } -- 1: suspended for the life-record block (R660)
def row_FC_SUSP : RegRow := { reg := FC_SUSP, fields := [FC_SUSP_ADDR, FC_SUSP_LF] }
/-- FC_SWAP: Swap-cell state (spec/19, R673). -/
def FC_SWAP : Reg := { base := 0x40110014 }
def FC_SWAP_ACTIVE : Fld := { reg := FC_SWAP, lo := 0, n := 1, acc := .ro } -- Active twin
def FC_SWAP_NAMED : Fld := { reg := FC_SWAP, lo := 1, n := 1, acc := .ro } -- Twin named by the cell
def FC_SWAP_ARMED : Fld := { reg := FC_SWAP, lo := 2, n := 1, acc := .ro } -- NAMED differs from ACTIVE
def FC_SWAP_HALF : Fld := { reg := FC_SWAP, lo := 3, n := 1, acc := .ro } -- Half holding the newest valid line
def FC_SWAP_USED : Fld := { reg := FC_SWAP, lo := 4, n := 9, acc := .ro } -- Lines used in that half, 0 to 256
def FC_SWAP_SEQ : Fld := { reg := FC_SWAP, lo := 16, n := 16, acc := .ro } -- SEQ bits [15:0] of the newest valid line
def row_FC_SWAP : RegRow := { reg := FC_SWAP, fields := [FC_SWAP_ACTIVE, FC_SWAP_NAMED, FC_SWAP_ARMED, FC_SWAP_HALF, FC_SWAP_USED, FC_SWAP_SEQ] }
/-- FC_ECCADDR: Last flash ECC error (spec/19, R673). -/
def FC_ECCADDR : Reg := { base := 0x40110018 }
def FC_ECCADDR_ADDR : Fld := { reg := FC_ECCADDR, lo := 4, n := 19, acc := .ro } -- Line address within the array
def FC_ECCADDR_ARR : Fld := { reg := FC_ECCADDR, lo := 24, n := 3, acc := .ro } -- 0 bank A, 1 bank B, 2 twin 0, 3 twin 1, 4 swap cell
def FC_ECCADDR_UE : Fld := { reg := FC_ECCADDR, lo := 31, n := 1, acc := .ro } -- 1 uncorrectable, 0 corrected
def row_FC_ECCADDR : RegRow := { reg := FC_ECCADDR, fields := [FC_ECCADDR_ADDR, FC_ECCADDR_ARR, FC_ECCADDR_UE] }
/-- FC_ECCCNT: Flash ECC counts (spec/19, R673). -/
def FC_ECCCNT : Reg := { base := 0x4011001C }
def FC_ECCCNT_CE : Fld := { reg := FC_ECCCNT, lo := 0, n := 16, acc := .ro } -- Corrected lines, saturating
def FC_ECCCNT_UE : Fld := { reg := FC_ECCCNT, lo := 16, n := 16, acc := .ro } -- Uncorrectable lines, saturating
def row_FC_ECCCNT : RegRow := { reg := FC_ECCCNT, fields := [FC_ECCCNT_CE, FC_ECCCNT_UE] }
/-- FC_LOG: Log retention (spec/19, R673). -/
def FC_LOG : Reg := { base := 0x40110020, rst := 0x00070190 }
def FC_LOG_KEEP : Fld := { reg := FC_LOG, lo := 0, n := 16, acc := .rw } -- Days kept for KINDs 0 and 4 (R667)
def FC_LOG_BKEEP : Fld := { reg := FC_LOG, lo := 16, n := 8, acc := .rw } -- Days kept for KIND 5
def row_FC_LOG : RegRow := { reg := FC_LOG, fields := [FC_LOG_KEEP, FC_LOG_BKEEP] }
/-- FC_LOGSTAT: Log window position (spec/19, R673). -/
def FC_LOGSTAT : Reg := { base := 0x40110024 }
def FC_LOGSTAT_HEAD : Fld := { reg := FC_LOGSTAT, lo := 0, n := 6, acc := .ro } -- Head sector, 0 to 55
def FC_LOGSTAT_SPARE : Fld := { reg := FC_LOGSTAT, lo := 8, n := 6, acc := .ro } -- Spare sector
def FC_LOGSTAT_SPARE_OK : Fld := { reg := FC_LOGSTAT, lo := 14, n := 1, acc := .ro } -- 1: the spare is erased
def FC_LOGSTAT_LINES : Fld := { reg := FC_LOGSTAT, lo := 16, n := 13, acc := .ro } -- Lines used in the head, 1 to 4,096
def row_FC_LOGSTAT : RegRow := { reg := FC_LOGSTAT, fields := [FC_LOGSTAT_HEAD, FC_LOGSTAT_SPARE, FC_LOGSTAT_SPARE_OK, FC_LOGSTAT_LINES] }
/-- FC_CAUSE: Leaf causes (spec/19, R673). -/
def FC_CAUSE : Reg := { base := 0x40110028 }
def FC_CAUSE_DONE : Fld := { reg := FC_CAUSE, lo := 0, n := 1, acc := .w1c } -- A command completed
def FC_CAUSE_REFUSED : Fld := { reg := FC_CAUSE, lo := 1, n := 1, acc := .w1c } -- A command was refused
def FC_CAUSE_VERIFY_FAIL : Fld := { reg := FC_CAUSE, lo := 2, n := 1, acc := .w1c } -- Program verify or erase failed
def FC_CAUSE_BUSY_RD : Fld := { reg := FC_CAUSE, lo := 3, n := 1, acc := .w1c } -- Read of a busy array (R655)
def FC_CAUSE_UE : Fld := { reg := FC_CAUSE, lo := 4, n := 1, acc := .w1c } -- Uncorrectable flash line
def FC_CAUSE_CE : Fld := { reg := FC_CAUSE, lo := 5, n := 1, acc := .w1c } -- Corrected flash line
def FC_CAUSE_SUSP_REF : Fld := { reg := FC_CAUSE, lo := 6, n := 1, acc := .w1c } -- SUSPEND refused
def FC_CAUSE_BROWN : Fld := { reg := FC_CAUSE, lo := 7, n := 1, acc := .w1c } -- Brown-out acted (R662)
def FC_CAUSE_LOG_FULL : Fld := { reg := FC_CAUSE, lo := 8, n := 1, acc := .w1c } -- Carry-forward reduced (R667)
def FC_CAUSE_LOCK_ERR : Fld := { reg := FC_CAUSE, lo := 14, n := 1, acc := .w1c } -- Not used; reads 0
def FC_CAUSE_ACC_ERR : Fld := { reg := FC_CAUSE, lo := 15, n := 1, acc := .w1c } -- Reserved encoding written
def row_FC_CAUSE : RegRow := { reg := FC_CAUSE, fields := [FC_CAUSE_DONE, FC_CAUSE_REFUSED, FC_CAUSE_VERIFY_FAIL, FC_CAUSE_BUSY_RD, FC_CAUSE_UE, FC_CAUSE_CE, FC_CAUSE_SUSP_REF, FC_CAUSE_BROWN, FC_CAUSE_LOG_FULL, FC_CAUSE_LOCK_ERR, FC_CAUSE_ACC_ERR] }
/-- FC_CAUSE_EN: Cause enables to the bough (spec/19, R673). -/
def FC_CAUSE_EN : Reg := { base := 0x4011002C }
def FC_CAUSE_EN_DONE : Fld := { reg := FC_CAUSE_EN, lo := 0, n := 1, acc := .rw } -- A command completed
def FC_CAUSE_EN_REFUSED : Fld := { reg := FC_CAUSE_EN, lo := 1, n := 1, acc := .rw } -- A command was refused
def FC_CAUSE_EN_VERIFY_FAIL : Fld := { reg := FC_CAUSE_EN, lo := 2, n := 1, acc := .rw } -- Program verify or erase failed
def FC_CAUSE_EN_BUSY_RD : Fld := { reg := FC_CAUSE_EN, lo := 3, n := 1, acc := .rw } -- Read of a busy array (R655)
def FC_CAUSE_EN_UE : Fld := { reg := FC_CAUSE_EN, lo := 4, n := 1, acc := .rw } -- Uncorrectable flash line
def FC_CAUSE_EN_CE : Fld := { reg := FC_CAUSE_EN, lo := 5, n := 1, acc := .rw } -- Corrected flash line
def FC_CAUSE_EN_SUSP_REF : Fld := { reg := FC_CAUSE_EN, lo := 6, n := 1, acc := .rw } -- SUSPEND refused
def FC_CAUSE_EN_BROWN : Fld := { reg := FC_CAUSE_EN, lo := 7, n := 1, acc := .rw } -- Brown-out acted (R662)
def FC_CAUSE_EN_LOG_FULL : Fld := { reg := FC_CAUSE_EN, lo := 8, n := 1, acc := .rw } -- Carry-forward reduced (R667)
def FC_CAUSE_EN_LOCK_ERR : Fld := { reg := FC_CAUSE_EN, lo := 14, n := 1, acc := .rw } -- Not used; reads 0
def FC_CAUSE_EN_ACC_ERR : Fld := { reg := FC_CAUSE_EN, lo := 15, n := 1, acc := .rw } -- Reserved encoding written
def row_FC_CAUSE_EN : RegRow := { reg := FC_CAUSE_EN, fields := [FC_CAUSE_EN_DONE, FC_CAUSE_EN_REFUSED, FC_CAUSE_EN_VERIFY_FAIL, FC_CAUSE_EN_BUSY_RD, FC_CAUSE_EN_UE, FC_CAUSE_EN_CE, FC_CAUSE_EN_SUSP_REF, FC_CAUSE_EN_BROWN, FC_CAUSE_EN_LOG_FULL, FC_CAUSE_EN_LOCK_ERR, FC_CAUSE_EN_ACC_ERR] }
/-- FC_BUF: Page buffer, 64 words (spec/19, R673). -/
def FC_BUF : Reg := { base := 0x40110100, n2 := 64, s2 := 0x4, own := .sealed }
def FC_BUF_BYTES : Fld := { reg := FC_BUF, lo := 0, n := 32, acc := .rw } -- Page bytes 4w to 4w + 3, lowest in [7:0]
def row_FC_BUF : RegRow := { reg := FC_BUF, fields := [FC_BUF_BYTES] }

def regsFabricPart0 : List RegRow :=
  [row_TR_SRC, row_TR_DSTA, row_TR_DSTB, row_TR_FIRE, row_TR_GATESW, row_TR_CAUSE, row_TR_CAUSE_EN, row_TR_DROPCNT, row_DM_CTL, row_DM_FIRST, row_DM_RING, row_DM_STATUS, row_DM_CUR, row_DM_LEFT, row_DM_ERRADDR, row_DM_CAUSE, row_DM_CAUSE_EN, row_DM_OWN, row_DM_BOUGH, row_QM_DB, row_QM_STATUS, row_QM_CAUSE, row_QM_CAUSE_EN, row_QM_TQUOTA, row_QM_TUSE, row_QM_ELOG, row_QM_LRX, row_QM_LTX, row_ME_ARB_LIM, row_ME_ARB_MASK]

def regsFabricPart1 : List RegRow :=
  [row_ME_ARB_CTL, row_ME_ARB_STAT, row_ME_ARB_WMAX, row_TM_TB_LO, row_TM_TB_HI, row_TM_OWN, row_TM_BOUGH, row_TM_TCTL, row_TM_TSTAT, row_TM_CNT_LO, row_TM_CNT_HI, row_TM_TOP_LO, row_TM_TOP_HI, row_TM_MAT_LO, row_TM_MAT_HI, row_TM_CAP_LO, row_TM_CAP_HI, row_TM_TCAUSE, row_TM_TCAUSE_EN, row_TM_RTC_LO, row_TM_RTC_HI, row_TM_SET_LO, row_TM_SET_HI, row_TM_RTC_CTL, row_TM_ALM_LO, row_TM_ALM_HI, row_TM_CAL0, row_TM_CAL1, row_TM_ACAUSE, row_TM_ACAUSE_EN]

def regsFabricPart2 : List RegRow :=
  [row_TM_WQ, row_LF_CFG, row_LF_CTL, row_LF_STATUS, row_LF_LSEQ, row_LF_POH, row_LF_ERASE, row_LF_FB0, row_LF_FB1, row_LF_SSEL, row_LF_SON, row_LF_SCHG_LO, row_LF_SCHG_HI, row_LF_STHM, row_LF_SWEAR, row_LF_CAUSE, row_LF_CAUSE_EN, row_LF_WQ, row_EM_E_LO, row_EM_E_HI, row_EM_R_LO, row_EM_R_HI, row_EM_CFG, row_EM_STATUS, row_EM_SEQ, row_EM_CAUSE, row_EM_CAUSE_EN, row_EM_BOUGH, row_EM_WQ, row_ME_BCFG]

def regsFabricPart3 : List RegRow :=
  [row_ME_BCNT, row_ME_BERR, row_ME_BCAUSE, row_ME_BCAUSE_EN, row_ME_BROWS, row_ME_REMAP, row_ME_SCRUB, row_ME_SCRUBPOS, row_ME_SCRUBCNT, row_ME_TEST, row_ME_TCHKW, row_ME_TCHKR, row_ME_CAUSE, row_ME_CAUSE_EN, row_ME_BOUGH, row_FC_WS, row_FC_CMD, row_FC_ADDR, row_FC_STATUS, row_FC_SUSP, row_FC_SWAP, row_FC_ECCADDR, row_FC_ECCCNT, row_FC_LOG, row_FC_LOGSTAT, row_FC_CAUSE, row_FC_CAUSE_EN, row_FC_BUF]

/-- The register map rows of the TR, DM, QM, ME, FC, TM, LF, EM blocks. -/
def regsFabric : List RegRow := regsFabricPart0 ++ regsFabricPart1 ++ regsFabricPart2 ++ regsFabricPart3

end Sys2Proof.Machine
end

