-- ==== Sys2Proof/Machine/RegsLink.lean ====
section
/-! DEFINITION. The registers of the LN, IG, TC, CH, CP blocks, one definition per register and per field, as the summaries and field
 tables of the spec give them (offset, copies, access, reset word, owner, reserved values). -/

namespace Sys2Proof.Machine

/-- LN_CTL: Enable and commands (spec/08, R323). -/
def LN_CTL : Reg := { base := 0x40060000, n1 := 12, s1 := 0x800, rst := 0x00000002, own := .lane }
def LN_CTL_EN : Fld := { reg := LN_CTL, lo := 0, n := 1, acc := .rw } -- 1: lane trains and runs
def LN_CTL_AUTO : Fld := { reg := LN_CTL, lo := 1, n := 1, acc := .rw } -- 1: DOWN returns to DETECT
def LN_CTL_RETRAIN : Fld := { reg := LN_CTL, lo := 2, n := 1, acc := .wo } -- Writing 1 in ACTIVE leaves it for DOWN
def LN_CTL_CLRCNT : Fld := { reg := LN_CTL, lo := 3, n := 1, acc := .wo } -- Writing 1 clears LN_ERRCNT and LN_DOWNCNT
def row_LN_CTL : RegRow := { reg := LN_CTL, fields := [LN_CTL_EN, LN_CTL_AUTO, LN_CTL_RETRAIN, LN_CTL_CLRCNT] }
/-- LN_CFG: Rate, bond and training options (spec/08, R323). -/
def LN_CFG : Reg := { base := 0x40060004, n1 := 12, s1 := 0x800, rst := 0x00403423, own := .lane }
def LN_CFG_RMAX : Fld := { reg := LN_CFG, lo := 0, n := 2, acc := .rwl } -- Highest rate: 0 7, 1 14, 2 28, 3 56 Gbit/s
def LN_CFG_FALLBACK : Fld := { reg := LN_CFG, lo := 4, n := 2, acc := .rwl } -- Failed attempts allowed per rate, less 1
def LN_CFG_WIDTH : Fld := { reg := LN_CFG, lo := 8, n := 2, acc := .rwl, bad := [(3, 3)] } -- Bond: 0 single, 1 two lanes, 2 four lanes, 3 reserved (R317)
def LN_CFG_DEGRADE : Fld := { reg := LN_CFG, lo := 10, n := 1, acc := .rwl } -- 1: width falls on a bond fault (R320)
def LN_CFG_PRESET : Fld := { reg := LN_CFG, lo := 12, n := 4, acc := .rwl, bad := [(8, 15)] } -- Preset first asked of the partner; 8 to 15 reserved
def LN_CFG_TXINV : Fld := { reg := LN_CFG, lo := 16, n := 1, acc := .rwl } -- 1: transmit polarity inverted
def LN_CFG_RXINV : Fld := { reg := LN_CFG, lo := 17, n := 1, acc := .rwl } -- 1: receive polarity inverted
def LN_CFG_RECOV_MAX : Fld := { reg := LN_CFG, lo := 20, n := 4, acc := .rwl } -- Recoveries allowed per second
def row_LN_CFG : RegRow := { reg := LN_CFG, fields := [LN_CFG_RMAX, LN_CFG_FALLBACK, LN_CFG_WIDTH, LN_CFG_DEGRADE, LN_CFG_PRESET, LN_CFG_TXINV, LN_CFG_RXINV, LN_CFG_RECOV_MAX] }
/-- LN_STATUS: State and link status (spec/08, R323). -/
def LN_STATUS : Reg := { base := 0x40060008, n1 := 12, s1 := 0x800, own := .lane }
def LN_STATUS_STATE : Fld := { reg := LN_STATUS, lo := 0, n := 4, acc := .ro } -- 0 OFF, 1 DETECT, 2 POLL, 3 CONFIG, 4 RATE, 5 EQ, 6 CHECK, 7 ACTIVE, 8 RECOVER, 9 DOWN, 10 TEST; 11 to 15 not used
def LN_STATUS_RATE : Fld := { reg := LN_STATUS, lo := 4, n := 2, acc := .ro } -- Rate in use, encoded as RMAX
def LN_STATUS_UP : Fld := { reg := LN_STATUS, lo := 6, n := 1, acc := .ro } -- Identity accepted in ACTIVE
def LN_STATUS_PRES : Fld := { reg := LN_STATUS, lo := 7, n := 1, acc := .ro } -- Partner termination sensed
def LN_STATUS_WIDTH : Fld := { reg := LN_STATUS, lo := 8, n := 2, acc := .ro } -- Width in use, encoded as LN_CFG.WIDTH
def LN_STATUS_FLOCK : Fld := { reg := LN_STATUS, lo := 10, n := 1, acc := .ro } -- Flit lock
def LN_STATUS_PVER : Fld := { reg := LN_STATUS, lo := 16, n := 8, acc := .ro } -- Negotiated version (R314)
def LN_STATUS_VERR : Fld := { reg := LN_STATUS, lo := 24, n := 1, acc := .ro } -- No common version
def row_LN_STATUS : RegRow := { reg := LN_STATUS, fields := [LN_STATUS_STATE, LN_STATUS_RATE, LN_STATUS_UP, LN_STATUS_PRES, LN_STATUS_WIDTH, LN_STATUS_FLOCK, LN_STATUS_PVER, LN_STATUS_VERR] }
/-- LN_EQ: Equalisation results (spec/08, R323). -/
def LN_EQ : Reg := { base := 0x4006000C, n1 := 12, s1 := 0x800, own := .lane }
def LN_EQ_CTLE : Fld := { reg := LN_EQ, lo := 0, n := 4, acc := .ro } -- CTLE code in use
def LN_EQ_PRESET_TX : Fld := { reg := LN_EQ, lo := 4, n := 4, acc := .ro } -- Preset own transmitter last applied; 15 after a step
def LN_EQ_PRESET_RX : Fld := { reg := LN_EQ, lo := 8, n := 4, acc := .ro } -- Preset chosen for the partner
def LN_EQ_EYE : Fld := { reg := LN_EQ, lo := 16, n := 8, acc := .ro } -- Present eye metric
def LN_EQ_ADAPT : Fld := { reg := LN_EQ, lo := 24, n := 1, acc := .ro } -- DFE adapting
def row_LN_EQ : RegRow := { reg := LN_EQ, fields := [LN_EQ_CTLE, LN_EQ_PRESET_TX, LN_EQ_PRESET_RX, LN_EQ_EYE, LN_EQ_ADAPT] }
/-- LN_TXC: Own transmit coefficients (spec/08, R323). -/
def LN_TXC : Reg := { base := 0x40060010, n1 := 12, s1 := 0x800, rst := 0x00000200, own := .lane }
def LN_TXC_PRE : Fld := { reg := LN_TXC, lo := 0, n := 4, acc := .ro } -- Magnitude of c-1
def LN_TXC_MAIN : Fld := { reg := LN_TXC, lo := 4, n := 6, acc := .ro } -- c0
def LN_TXC_POST : Fld := { reg := LN_TXC, lo := 10, n := 4, acc := .ro } -- Magnitude of c+1
def row_LN_TXC : RegRow := { reg := LN_TXC, fields := [LN_TXC_PRE, LN_TXC_MAIN, LN_TXC_POST] }
/-- LN_DFE: DFE tap readback (spec/08, R323). -/
def LN_DFE : Reg := { base := 0x40060014, n1 := 12, s1 := 0x800, own := .lane }
def LN_DFE_TAP : Fld := { reg := LN_DFE, lo := 0, n := 4, acc := .rw, bad := [(0, 0), (13, 15)] } -- Tap selected, 1 to 12; 0 and 13 to 15 reserved
def LN_DFE_VAL : Fld := { reg := LN_DFE, lo := 16, n := 8, acc := .ro } -- Selected tap, int8
def row_LN_DFE : RegRow := { reg := LN_DFE, fields := [LN_DFE_TAP, LN_DFE_VAL] }
/-- LN_RETRY: Retry and acknowledgement (spec/08, R323). -/
def LN_RETRY : Reg := { base := 0x40060018, n1 := 12, s1 := 0x800, rst := 0x00080820, own := .lane }
def LN_RETRY_TMO : Fld := { reg := LN_RETRY, lo := 0, n := 8, acc := .rw, bad := [(0, 0)] } -- Replay timeout, 8 word-cycle units (reset 292.6 ns); 0 reserved
def LN_RETRY_MAX : Fld := { reg := LN_RETRY, lo := 8, n := 4, acc := .rw, bad := [(0, 0)] } -- Replays before the limit; 0 reserved
def LN_RETRY_ACK_N : Fld := { reg := LN_RETRY, lo := 16, n := 4, acc := .rw, bad := [(0, 0)] } -- MSG flits per ACK; 0 reserved
def row_LN_RETRY : RegRow := { reg := LN_RETRY, fields := [LN_RETRY_TMO, LN_RETRY_MAX, LN_RETRY_ACK_N] }
/-- LN_LAT: Round-trip latency (spec/08, R323). -/
def LN_LAT : Reg := { base := 0x4006001C, n1 := 12, s1 := 0x800, own := .lane }
def LN_LAT_RTT : Fld := { reg := LN_LAT, lo := 0, n := 16, acc := .ro } -- Round trip, 0.5 ns (R304)
def row_LN_LAT : RegRow := { reg := LN_LAT, fields := [LN_LAT_RTT] }
/-- LN_ERRCNT: CRC failures and replays (spec/08, R323). -/
def LN_ERRCNT : Reg := { base := 0x40060020, n1 := 12, s1 := 0x800, own := .lane }
def LN_ERRCNT_CRC : Fld := { reg := LN_ERRCNT, lo := 0, n := 16, acc := .ro } -- CRC failures, saturating
def LN_ERRCNT_REPLAY : Fld := { reg := LN_ERRCNT, lo := 16, n := 16, acc := .ro } -- Replays, saturating
def row_LN_ERRCNT : RegRow := { reg := LN_ERRCNT, fields := [LN_ERRCNT_CRC, LN_ERRCNT_REPLAY] }
/-- LN_DOWNCNT: Link-downs and recoveries (spec/08, R323). -/
def LN_DOWNCNT : Reg := { base := 0x40060024, n1 := 12, s1 := 0x800, own := .lane }
def LN_DOWNCNT_DOWN : Fld := { reg := LN_DOWNCNT, lo := 0, n := 16, acc := .ro } -- Departures from ACTIVE, saturating
def LN_DOWNCNT_RECOV : Fld := { reg := LN_DOWNCNT, lo := 16, n := 16, acc := .ro } -- Recoveries, saturating
def row_LN_DOWNCNT : RegRow := { reg := LN_DOWNCNT, fields := [LN_DOWNCNT_DOWN, LN_DOWNCNT_RECOV] }
/-- LN_RAILS: Rails offered to the partner (spec/08, R323). -/
def LN_RAILS : Reg := { base := 0x40060028, n1 := 12, s1 := 0x800, own := .lane }
def LN_RAILS_RAILS : Fld := { reg := LN_RAILS, lo := 0, n := 16, acc := .rwl } -- Bit k: rail k offered to the partner (R316)
def row_LN_RAILS : RegRow := { reg := LN_RAILS, fields := [LN_RAILS_RAILS] }
/-- LN_TEST: Pattern test (spec/08, R323). -/
def LN_TEST : Reg := { base := 0x4006002C, n1 := 12, s1 := 0x800, own := .lane }
def LN_TEST_EN : Fld := { reg := LN_TEST, lo := 0, n := 1, acc := .rwl } -- 1: pattern test (TEST state)
def LN_TEST_PAT : Fld := { reg := LN_TEST, lo := 1, n := 2, acc := .rwl, bad := [(3, 3)] } -- 0 PRBS31, 1 PRBS13Q, 2 PRBS7, 3 reserved
def LN_TEST_CHK : Fld := { reg := LN_TEST, lo := 3, n := 1, acc := .rwl } -- 1: receiver checks the same pattern
def LN_TEST_ERRS : Fld := { reg := LN_TEST, lo := 16, n := 16, acc := .ro } -- Pattern errors, saturating; cleared when EN is set
def row_LN_TEST : RegRow := { reg := LN_TEST, fields := [LN_TEST_EN, LN_TEST_PAT, LN_TEST_CHK, LN_TEST_ERRS] }
/-- LN_PID: Partner identity frame (spec/08, R323). -/
def LN_PID : Reg := { base := 0x40060030, n1 := 12, s1 := 0x800, n2 := 12, s2 := 0x4, own := .lane }
def LN_PID_BYTES : Fld := { reg := LN_PID, lo := 0, n := 32, acc := .ro } -- Identity bytes 4w to 4w + 3, lowest in [7:0]; kept after link-down until the next frame is accepted
def row_LN_PID : RegRow := { reg := LN_PID, fields := [LN_PID_BYTES] }
/-- LN_CAUSE: Leaf causes (spec/08, R323). -/
def LN_CAUSE : Reg := { base := 0x40060060, n1 := 12, s1 := 0x800, own := .lane }
def LN_CAUSE_UP : Fld := { reg := LN_CAUSE, lo := 0, n := 1, acc := .w1c } -- Identity accepted
def LN_CAUSE_DOWN : Fld := { reg := LN_CAUSE, lo := 1, n := 1, acc := .w1c } -- Lane left ACTIVE for DOWN or OFF
def LN_CAUSE_RECOVER : Fld := { reg := LN_CAUSE, lo := 2, n := 1, acc := .w1c } -- Lane left ACTIVE for RECOVER
def LN_CAUSE_FALLBACK : Fld := { reg := LN_CAUSE, lo := 3, n := 1, acc := .w1c } -- ACTIVE below the common rate (R298)
def LN_CAUSE_ID_NEW : Fld := { reg := LN_CAUSE, lo := 4, n := 1, acc := .w1c } -- A new partner identity
def LN_CAUSE_ID_BAD : Fld := { reg := LN_CAUSE, lo := 5, n := 1, acc := .w1c } -- Identity frame refused
def LN_CAUSE_VERSION : Fld := { reg := LN_CAUSE, lo := 6, n := 1, acc := .w1c } -- No common version
def LN_CAUSE_TRAIN_FAIL : Fld := { reg := LN_CAUSE, lo := 7, n := 1, acc := .w1c } -- Training abandoned
def LN_CAUSE_BOND_DEG : Fld := { reg := LN_CAUSE, lo := 8, n := 1, acc := .w1c } -- Bond width reduced
def LN_CAUSE_RSVD_TYPE : Fld := { reg := LN_CAUSE, lo := 9, n := 1, acc := .w1c } -- Reserved type or bad message discarded
def LN_CAUSE_LOCK_ERR : Fld := { reg := LN_CAUSE, lo := 14, n := 1, acc := .w1c } -- Write to a locked register
def LN_CAUSE_ACC_ERR : Fld := { reg := LN_CAUSE, lo := 15, n := 1, acc := .w1c } -- Reserved encoding, or EN written to a bond member
def row_LN_CAUSE : RegRow := { reg := LN_CAUSE, fields := [LN_CAUSE_UP, LN_CAUSE_DOWN, LN_CAUSE_RECOVER, LN_CAUSE_FALLBACK, LN_CAUSE_ID_NEW, LN_CAUSE_ID_BAD, LN_CAUSE_VERSION, LN_CAUSE_TRAIN_FAIL, LN_CAUSE_BOND_DEG, LN_CAUSE_RSVD_TYPE, LN_CAUSE_LOCK_ERR, LN_CAUSE_ACC_ERR] }
/-- LN_CAUSE_EN: Cause enables to the bough (spec/08, R323). -/
def LN_CAUSE_EN : Reg := { base := 0x40060064, n1 := 12, s1 := 0x800, own := .lane }
def LN_CAUSE_EN_UP : Fld := { reg := LN_CAUSE_EN, lo := 0, n := 1, acc := .rw } -- Identity accepted
def LN_CAUSE_EN_DOWN : Fld := { reg := LN_CAUSE_EN, lo := 1, n := 1, acc := .rw } -- Lane left ACTIVE for DOWN or OFF
def LN_CAUSE_EN_RECOVER : Fld := { reg := LN_CAUSE_EN, lo := 2, n := 1, acc := .rw } -- Lane left ACTIVE for RECOVER
def LN_CAUSE_EN_FALLBACK : Fld := { reg := LN_CAUSE_EN, lo := 3, n := 1, acc := .rw } -- ACTIVE below the common rate (R298)
def LN_CAUSE_EN_ID_NEW : Fld := { reg := LN_CAUSE_EN, lo := 4, n := 1, acc := .rw } -- A new partner identity
def LN_CAUSE_EN_ID_BAD : Fld := { reg := LN_CAUSE_EN, lo := 5, n := 1, acc := .rw } -- Identity frame refused
def LN_CAUSE_EN_VERSION : Fld := { reg := LN_CAUSE_EN, lo := 6, n := 1, acc := .rw } -- No common version
def LN_CAUSE_EN_TRAIN_FAIL : Fld := { reg := LN_CAUSE_EN, lo := 7, n := 1, acc := .rw } -- Training abandoned
def LN_CAUSE_EN_BOND_DEG : Fld := { reg := LN_CAUSE_EN, lo := 8, n := 1, acc := .rw } -- Bond width reduced
def LN_CAUSE_EN_RSVD_TYPE : Fld := { reg := LN_CAUSE_EN, lo := 9, n := 1, acc := .rw } -- Reserved type or bad message discarded
def LN_CAUSE_EN_LOCK_ERR : Fld := { reg := LN_CAUSE_EN, lo := 14, n := 1, acc := .rw } -- Write to a locked register
def LN_CAUSE_EN_ACC_ERR : Fld := { reg := LN_CAUSE_EN, lo := 15, n := 1, acc := .rw } -- Reserved encoding, or EN written to a bond member
def row_LN_CAUSE_EN : RegRow := { reg := LN_CAUSE_EN, fields := [LN_CAUSE_EN_UP, LN_CAUSE_EN_DOWN, LN_CAUSE_EN_RECOVER, LN_CAUSE_EN_FALLBACK, LN_CAUSE_EN_ID_NEW, LN_CAUSE_EN_ID_BAD, LN_CAUSE_EN_VERSION, LN_CAUSE_EN_TRAIN_FAIL, LN_CAUSE_EN_BOND_DEG, LN_CAUSE_EN_RSVD_TYPE, LN_CAUSE_EN_LOCK_ERR, LN_CAUSE_EN_ACC_ERR] }
/-- LN_GRP: Group status; stride 0x40, g = 0 to 2 (spec/08, R323). -/
def LN_GRP : Reg := { base := 0x40066000, n1 := 3, s1 := 0x40 }
def LN_GRP_PLL_LOCK : Fld := { reg := LN_GRP, lo := 0, n := 1, acc := .ro } -- Group PLL locked
def LN_GRP_REF : Fld := { reg := LN_GRP, lo := 1, n := 1, acc := .ro } -- 1: REFCLK present; 0: lanes held OFF (R288)
def LN_GRP_PWR : Fld := { reg := LN_GRP, lo := 2, n := 1, acc := .ro } -- LANEg powered
def row_LN_GRP : RegRow := { reg := LN_GRP, fields := [LN_GRP_PLL_LOCK, LN_GRP_REF, LN_GRP_PWR] }
/-- LN_VER: Supported versions (spec/08, R323). -/
def LN_VER : Reg := { base := 0x40066100, rst := 0x00010000 }
def LN_VER_CUR : Fld := { reg := LN_VER, lo := 0, n := 8, acc := .ro } -- Current intent and coupling protocol version
def LN_VER_PREV : Fld := { reg := LN_VER, lo := 8, n := 8, acc := .ro } -- Previous version still supported
def LN_VER_LVER : Fld := { reg := LN_VER, lo := 16, n := 8, acc := .ro } -- Link-layer version
def row_LN_VER : RegRow := { reg := LN_VER, fields := [LN_VER_CUR, LN_VER_PREV, LN_VER_LVER] }
/-- LN_BOUGH: Lanes with an enabled cause (spec/08, R323). -/
def LN_BOUGH : Reg := { base := 0x40066200 }
def LN_BOUGH_LANE : Fld := { reg := LN_BOUGH, lo := 0, n := 12, acc := .ro } -- Bit l: lane l has an enabled cause
def row_LN_BOUGH : RegRow := { reg := LN_BOUGH, fields := [LN_BOUGH_LANE] }
/-- IG_RCFG: Rail intent options (spec/09, R366). -/
def IG_RCFG : Reg := { base := 0x40070000, n1 := 16, s1 := 0x400, rst := 0xE6041408, own := .rail }
def IG_RCFG_EN : Fld := { reg := IG_RCFG, lo := 0, n := 1, acc := .rw } -- 1: intents taken (R324)
def IG_RCFG_TSRC : Fld := { reg := IG_RCFG, lo := 1, n := 1, acc := .rw } -- Trust: 0 IG_TRUST, 1 IG_G_TRUST
def IG_RCFG_TGR : Fld := { reg := IG_RCFG, lo := 2, n := 1, acc := .rw } -- 1: trust limits grants (R335)
def IG_RCFG_CEIL : Fld := { reg := IG_RCFG, lo := 3, n := 1, acc := .rw } -- 1: grants checked against the ceiling budget
def IG_RCFG_ADV : Fld := { reg := IG_RCFG, lo := 8, n := 8, acc := .rw } -- Pulse advance, ns
def IG_RCFG_TMIN : Fld := { reg := IG_RCFG, lo := 16, n := 8, acc := .rw, bad := [(0, 0)] } -- Shortest pulse, 16 LCLK units; 0 reserved
def IG_RCFG_EFF : Fld := { reg := IG_RCFG, lo := 24, n := 8, acc := .rw, bad := [(0, 0)] } -- Conversion efficiency, Q0.8 unsigned; 0 reserved
def row_IG_RCFG : RegRow := { reg := IG_RCFG, fields := [IG_RCFG_EN, IG_RCFG_TSRC, IG_RCFG_TGR, IG_RCFG_CEIL, IG_RCFG_ADV, IG_RCFG_TMIN, IG_RCFG_EFF] }
/-- IG_FFK: Feedforward gains (spec/09, R366). -/
def IG_FFK : Reg := { base := 0x40070004, n1 := 16, s1 := 0x400, own := .rail }
def IG_FFK_KA : Fld := { reg := IG_FFK, lo := 0, n := 20, acc := .rw } -- Area per 0.5 A per phase, duty code × LCLK cycles
def IG_FFK_VK : Fld := { reg := IG_FFK, lo := 24, n := 8, acc := .rw } -- Voltage term, 1/256 DAC LSB per 0.5 A
def row_IG_FFK : RegRow := { reg := IG_FFK, fields := [IG_FFK_KA, IG_FFK_VK] }
/-- IG_WIN: Outcome windows (spec/09, R366). -/
def IG_WIN : Reg := { base := 0x40070008, n1 := 16, s1 := 0x400, rst := 0x00101019, own := .rail }
def IG_WIN_TOL : Fld := { reg := IG_WIN, lo := 0, n := 8, acc := .rw } -- Arrival tolerance, 8 ns units (reset 200 ns)
def IG_WIN_LATEW : Fld := { reg := IG_WIN, lo := 8, n := 8, acc := .rw } -- Late window, 64 ns units (reset 1,024 ns)
def IG_WIN_OVS : Fld := { reg := IG_WIN, lo := 16, n := 8, acc := .rw } -- Oversize margin, 1/64 (reset 25 %)
def row_IG_WIN : RegRow := { reg := IG_WIN, fields := [IG_WIN_TOL, IG_WIN_LATEW, IG_WIN_OVS] }
/-- IG_COUT: Output capacitance and divider (spec/09, R366). -/
def IG_COUT : Reg := { base := 0x4007000C, n1 := 16, s1 := 0x400, rst := 0x10000000, own := .rail }
def IG_COUT_C : Fld := { reg := IG_COUT, lo := 0, n := 20, acc := .rw } -- Output capacitance, µF; 0: no capacitor term
def IG_COUT_VDIV : Fld := { reg := IG_COUT, lo := 24, n := 8, acc := .rw, bad := [(0, 0)] } -- Sense divider ratio, Q4.4 unsigned; 0 reserved
def row_IG_COUT : RegRow := { reg := IG_COUT, fields := [IG_COUT_C, IG_COUT_VDIV] }
/-- IG_SLOTS: Partner slots (spec/09, R366). -/
def IG_SLOTS : Reg := { base := 0x40070010, n1 := 16, s1 := 0x400, own := .rail }
def IG_SLOTS_LANE (i : Nat) : Fld := { reg := IG_SLOTS, lo := 0 + 8 * i, n := 4, acc := .rw } -- Lane of slot s
def IG_SLOTS_EN (i : Nat) : Fld := { reg := IG_SLOTS, lo := 4 + 8 * i, n := 1, acc := .rw } -- Slot in use
def IG_SLOTS_NEW (i : Nat) : Fld := { reg := IG_SLOTS, lo := 5 + 8 * i, n := 1, acc := .w1c } -- New partner
def row_IG_SLOTS : RegRow := { reg := IG_SLOTS, fields := (List.range 4).map IG_SLOTS_LANE ++ (List.range 4).map IG_SLOTS_EN ++ (List.range 4).map IG_SLOTS_NEW }
/-- IG_TRUST: Software trust, SW db (spec/09, R366). -/
def IG_TRUST : Reg := { base := 0x40070014, n1 := 16, s1 := 0x400, own := .rail, db := .sw }
def IG_TRUST_T (i : Nat) : Fld := { reg := IG_TRUST, lo := 0 + 8 * i, n := 8, acc := .rw } -- Trust of slot s, Q0.8
def row_IG_TRUST : RegRow := { reg := IG_TRUST, fields := (List.range 4).map IG_TRUST_T }
/-- IG_G_TRUST: Grove trust, grove db (spec/09, R366). -/
def IG_G_TRUST : Reg := { base := 0x40070018, n1 := 16, s1 := 0x400, own := .rail, db := .grove }
def IG_G_TRUST_T (i : Nat) : Fld := { reg := IG_G_TRUST, lo := 0 + 8 * i, n := 8, acc := .rw } -- Trust of slot s, Q0.8
def row_IG_G_TRUST : RegRow := { reg := IG_G_TRUST, fields := (List.range 4).map IG_G_TRUST_T }
/-- IG_TLIM: Trust bounds and initial value (spec/09, R366). -/
def IG_TLIM : Reg := { base := 0x4007001C, n1 := 16, s1 := 0x400, rst := 0x0080FF00, own := .rail }
def IG_TLIM_MIN : Fld := { reg := IG_TLIM, lo := 0, n := 8, acc := .rw } -- Lowest effective trust
def IG_TLIM_MAX : Fld := { reg := IG_TLIM, lo := 8, n := 8, acc := .rw } -- Highest effective trust; below MIN reserved
def IG_TLIM_INIT : Fld := { reg := IG_TLIM, lo := 16, n := 8, acc := .rw } -- Trust of a new partner
def row_IG_TLIM : RegRow := { reg := IG_TLIM, fields := [IG_TLIM_MIN, IG_TLIM_MAX, IG_TLIM_INIT] }
/-- IG_TNOW: Effective trust (spec/09, R366). -/
def IG_TNOW : Reg := { base := 0x40070020, n1 := 16, s1 := 0x400, own := .rail }
def IG_TNOW_TE (i : Nat) : Fld := { reg := IG_TNOW, lo := 0 + 8 * i, n := 8, acc := .ro } -- Effective trust
def row_IG_TNOW : RegRow := { reg := IG_TNOW, fields := (List.range 4).map IG_TNOW_TE }
/-- IG_OUT: Outstanding intents (spec/09, R366). -/
def IG_OUT : Reg := { base := 0x40070024, n1 := 16, s1 := 0x400, own := .rail }
def IG_OUT_NOUT : Fld := { reg := IG_OUT, lo := 0, n := 4, acc := .ro } -- Outstanding intents, 0 to 8
def IG_OUT_GSUM : Fld := { reg := IG_OUT, lo := 16, n := 16, acc := .ro } -- Valid positive GDELTA sum, 0.5 A
def row_IG_OUT : RegRow := { reg := IG_OUT, fields := [IG_OUT_NOUT, IG_OUT_GSUM] }
/-- IG_LOAD: Load estimate (spec/09, R366). -/
def IG_LOAD : Reg := { base := 0x40070028, n1 := 16, s1 := 0x400, own := .rail }
def IG_LOAD_IL : Fld := { reg := IG_LOAD, lo := 0, n := 16, acc := .ro } -- Load estimate, int16, 0.25 A (R345)
def row_IG_LOAD : RegRow := { reg := IG_LOAD, fields := [IG_LOAD_IL] }
/-- IG_SCNT: Outcome counts per slot (spec/09, R366). -/
def IG_SCNT : Reg := { base := 0x40070030, n1 := 16, s1 := 0x400, n2 := 4, s2 := 0x4, own := .rail }
def IG_SCNT_ACC : Fld := { reg := IG_SCNT, lo := 0, n := 8, acc := .ro } -- Class 0, saturating
def IG_SCNT_PHANTOM : Fld := { reg := IG_SCNT, lo := 8, n := 8, acc := .ro } -- Class 1, saturating
def IG_SCNT_LATE : Fld := { reg := IG_SCNT, lo := 16, n := 8, acc := .ro } -- Class 2, saturating
def IG_SCNT_OVS : Fld := { reg := IG_SCNT, lo := 24, n := 8, acc := .ro } -- Class 3, saturating
def row_IG_SCNT : RegRow := { reg := IG_SCNT, fields := [IG_SCNT_ACC, IG_SCNT_PHANTOM, IG_SCNT_LATE, IG_SCNT_OVS] }
/-- IG_RCAUSE: Leaf causes (spec/09, R366). -/
def IG_RCAUSE : Reg := { base := 0x40070040, n1 := 16, s1 := 0x400, own := .rail }
def IG_RCAUSE_DROP : Fld := { reg := IG_RCAUSE, lo := 0, n := 1, acc := .w1c } -- Intent-class or coupling flit discarded
def IG_RCAUSE_LATE : Fld := { reg := IG_RCAUSE, lo := 1, n := 1, acc := .w1c } -- Late acceptance
def IG_RCAUSE_EARLY : Fld := { reg := IG_RCAUSE, lo := 2, n := 1, acc := .w1c } -- Lead above 8 µs refused
def IG_RCAUSE_FULL : Fld := { reg := IG_RCAUSE, lo := 3, n := 1, acc := .w1c } -- Outstanding table full
def IG_RCAUSE_PHANTOM : Fld := { reg := IG_RCAUSE, lo := 4, n := 1, acc := .w1c } -- Class 1 outcome
def IG_RCAUSE_OVERSIZE : Fld := { reg := IG_RCAUSE, lo := 5, n := 1, acc := .w1c } -- Class 3 outcome
def IG_RCAUSE_REVISED : Fld := { reg := IG_RCAUSE, lo := 6, n := 1, acc := .w1c } -- Grants scaled down
def IG_RCAUSE_OVERDRAW : Fld := { reg := IG_RCAUSE, lo := 7, n := 1, acc := .w1c } -- Load above the rail cap (R339)
def IG_RCAUSE_ID_NEW : Fld := { reg := IG_RCAUSE, lo := 8, n := 1, acc := .w1c } -- A slot's partner changed
def IG_RCAUSE_CPL_VER : Fld := { reg := IG_RCAUSE, lo := 9, n := 1, acc := .w1c } -- Coupling or carry-over refused
def IG_RCAUSE_CPL_LOST : Fld := { reg := IG_RCAUSE, lo := 10, n := 1, acc := .w1c } -- Member lost, or device standing down
def IG_RCAUSE_CPL_EPOCH : Fld := { reg := IG_RCAUSE, lo := 11, n := 1, acc := .w1c } -- New epoch applied
def IG_RCAUSE_CARRY : Fld := { reg := IG_RCAUSE, lo := 12, n := 1, acc := .w1c } -- Carry-over in effect
def IG_RCAUSE_LOCK_ERR : Fld := { reg := IG_RCAUSE, lo := 14, n := 1, acc := .w1c } -- Write to a locked register
def IG_RCAUSE_ACC_ERR : Fld := { reg := IG_RCAUSE, lo := 15, n := 1, acc := .w1c } -- Reserved encoding or wrong-path write
def row_IG_RCAUSE : RegRow := { reg := IG_RCAUSE, fields := [IG_RCAUSE_DROP, IG_RCAUSE_LATE, IG_RCAUSE_EARLY, IG_RCAUSE_FULL, IG_RCAUSE_PHANTOM, IG_RCAUSE_OVERSIZE, IG_RCAUSE_REVISED, IG_RCAUSE_OVERDRAW, IG_RCAUSE_ID_NEW, IG_RCAUSE_CPL_VER, IG_RCAUSE_CPL_LOST, IG_RCAUSE_CPL_EPOCH, IG_RCAUSE_CARRY, IG_RCAUSE_LOCK_ERR, IG_RCAUSE_ACC_ERR] }
/-- IG_RCAUSE_EN: Cause enables to the bough (spec/09, R366). -/
def IG_RCAUSE_EN : Reg := { base := 0x40070044, n1 := 16, s1 := 0x400, own := .rail }
def IG_RCAUSE_EN_DROP : Fld := { reg := IG_RCAUSE_EN, lo := 0, n := 1, acc := .rw } -- Intent-class or coupling flit discarded
def IG_RCAUSE_EN_LATE : Fld := { reg := IG_RCAUSE_EN, lo := 1, n := 1, acc := .rw } -- Late acceptance
def IG_RCAUSE_EN_EARLY : Fld := { reg := IG_RCAUSE_EN, lo := 2, n := 1, acc := .rw } -- Lead above 8 µs refused
def IG_RCAUSE_EN_FULL : Fld := { reg := IG_RCAUSE_EN, lo := 3, n := 1, acc := .rw } -- Outstanding table full
def IG_RCAUSE_EN_PHANTOM : Fld := { reg := IG_RCAUSE_EN, lo := 4, n := 1, acc := .rw } -- Class 1 outcome
def IG_RCAUSE_EN_OVERSIZE : Fld := { reg := IG_RCAUSE_EN, lo := 5, n := 1, acc := .rw } -- Class 3 outcome
def IG_RCAUSE_EN_REVISED : Fld := { reg := IG_RCAUSE_EN, lo := 6, n := 1, acc := .rw } -- Grants scaled down
def IG_RCAUSE_EN_OVERDRAW : Fld := { reg := IG_RCAUSE_EN, lo := 7, n := 1, acc := .rw } -- Load above the rail cap (R339)
def IG_RCAUSE_EN_ID_NEW : Fld := { reg := IG_RCAUSE_EN, lo := 8, n := 1, acc := .rw } -- A slot's partner changed
def IG_RCAUSE_EN_CPL_VER : Fld := { reg := IG_RCAUSE_EN, lo := 9, n := 1, acc := .rw } -- Coupling or carry-over refused
def IG_RCAUSE_EN_CPL_LOST : Fld := { reg := IG_RCAUSE_EN, lo := 10, n := 1, acc := .rw } -- Member lost, or device standing down
def IG_RCAUSE_EN_CPL_EPOCH : Fld := { reg := IG_RCAUSE_EN, lo := 11, n := 1, acc := .rw } -- New epoch applied
def IG_RCAUSE_EN_CARRY : Fld := { reg := IG_RCAUSE_EN, lo := 12, n := 1, acc := .rw } -- Carry-over in effect
def IG_RCAUSE_EN_LOCK_ERR : Fld := { reg := IG_RCAUSE_EN, lo := 14, n := 1, acc := .rw } -- Write to a locked register
def IG_RCAUSE_EN_ACC_ERR : Fld := { reg := IG_RCAUSE_EN, lo := 15, n := 1, acc := .rw } -- Reserved encoding or wrong-path write
def row_IG_RCAUSE_EN : RegRow := { reg := IG_RCAUSE_EN, fields := [IG_RCAUSE_EN_DROP, IG_RCAUSE_EN_LATE, IG_RCAUSE_EN_EARLY, IG_RCAUSE_EN_FULL, IG_RCAUSE_EN_PHANTOM, IG_RCAUSE_EN_OVERSIZE, IG_RCAUSE_EN_REVISED, IG_RCAUSE_EN_OVERDRAW, IG_RCAUSE_EN_ID_NEW, IG_RCAUSE_EN_CPL_VER, IG_RCAUSE_EN_CPL_LOST, IG_RCAUSE_EN_CPL_EPOCH, IG_RCAUSE_EN_CARRY, IG_RCAUSE_EN_LOCK_ERR, IG_RCAUSE_EN_ACC_ERR] }
/-- IG_CPL: Coupling configuration (spec/09, R366). -/
def IG_CPL : Reg := { base := 0x40070050, n1 := 16, s1 := 0x400, own := .rail }
def IG_CPL_EN : Fld := { reg := IG_CPL, lo := 0, n := 1, acc := .rwl } -- 1: rail coupled
def IG_CPL_NCFG : Fld := { reg := IG_CPL, lo := 4, n := 2, acc := .rwl } -- Configured members less 1; 0 reserved while EN is 1
def IG_CPL_MYIDX : Fld := { reg := IG_CPL, lo := 6, n := 2, acc := .rwl } -- This device's index
def IG_CPL_GROUP : Fld := { reg := IG_CPL, lo := 8, n := 8, acc := .rwl } -- Group
def IG_CPL_PRIO : Fld := { reg := IG_CPL, lo := 16, n := 4, acc := .rwl } -- Election priority, 15 highest
def IG_CPL_MINPH : Fld := { reg := IG_CPL, lo := 20, n := 9, acc := .rwl, bad := [(257, 511)] } -- Fewest group phases for carry-over, 1 to 256; 0 reserved while EN is 1; 257 to 511 reserved
def row_IG_CPL : RegRow := { reg := IG_CPL, fields := [IG_CPL_EN, IG_CPL_NCFG, IG_CPL_MYIDX, IG_CPL_GROUP, IG_CPL_PRIO, IG_CPL_MINPH] }
/-- IG_CPL_LNK: Links to peers (spec/09, R366). -/
def IG_CPL_LNK : Reg := { base := 0x40070054, n1 := 16, s1 := 0x400, own := .rail }
def IG_CPL_LNK_LANE (i : Nat) : Fld := { reg := IG_CPL_LNK, lo := 0 + 8 * i, n := 4, acc := .rwl } -- Lead lane of the link to peer p
def IG_CPL_LNK_VALID (i : Nat) : Fld := { reg := IG_CPL_LNK, lo := 4 + 8 * i, n := 1, acc := .rwl } -- Link in use
def row_IG_CPL_LNK : RegRow := { reg := IG_CPL_LNK, fields := (List.range 3).map IG_CPL_LNK_LANE ++ (List.range 3).map IG_CPL_LNK_VALID }
/-- IG_CPL_GAIN: Trim gain, bound and miss limit (spec/09, R366). -/
def IG_CPL_GAIN : Reg := { base := 0x40070058, n1 := 16, s1 := 0x400, rst := 0x04020008, own := .rail }
def IG_CPL_GAIN_KD : Fld := { reg := IG_CPL_GAIN, lo := 0, n := 8, acc := .rw } -- Trim gain (R358)
def IG_CPL_GAIN_DLIM : Fld := { reg := IG_CPL_GAIN, lo := 8, n := 12, acc := .rw } -- Trim bound, duty codes
def IG_CPL_GAIN_MISS : Fld := { reg := IG_CPL_GAIN, lo := 24, n := 4, acc := .rw, bad := [(0, 0)] } -- Missed CYCLE frames before loss; 0 reserved
def row_IG_CPL_GAIN : RegRow := { reg := IG_CPL_GAIN, fields := [IG_CPL_GAIN_KD, IG_CPL_GAIN_DLIM, IG_CPL_GAIN_MISS] }
/-- IG_CPL_KI: Group integrator gain (spec/09, R366). -/
def IG_CPL_KI : Reg := { base := 0x4007005C, n1 := 16, s1 := 0x400, own := .rail }
def IG_CPL_KI_KI : Fld := { reg := IG_CPL_KI, lo := 0, n := 24, acc := .rw } -- Group integrator gain, Q2.22
def row_IG_CPL_KI : RegRow := { reg := IG_CPL_KI, fields := [IG_CPL_KI_KI] }
/-- IG_CPLSTAT: Coupling role and epoch (spec/09, R366). -/
def IG_CPLSTAT : Reg := { base := 0x40070060, n1 := 16, s1 := 0x400, own := .rail }
def IG_CPLSTAT_ROLE : Fld := { reg := IG_CPLSTAT, lo := 0, n := 3, acc := .ro } -- 0 uncoupled, 1 master, 2 member, 3 standing down, 4 joining; 5 to 7 not used
def IG_CPLSTAT_NMEM : Fld := { reg := IG_CPLSTAT, lo := 4, n := 2, acc := .ro } -- Members less 1
def IG_CPLSTAT_QUORUM : Fld := { reg := IG_CPLSTAT, lo := 6, n := 1, acc := .ro } -- Admitted set has quorum
def IG_CPLSTAT_ALIGN : Fld := { reg := IG_CPLSTAT, lo := 7, n := 1, acc := .ro } -- Rail time aligned (R359)
def IG_CPLSTAT_EPOCH : Fld := { reg := IG_CPLSTAT, lo := 8, n := 8, acc := .ro } -- Epoch in effect
def IG_CPLSTAT_VER : Fld := { reg := IG_CPLSTAT, lo := 16, n := 8, acc := .ro } -- Group version
def row_IG_CPLSTAT : RegRow := { reg := IG_CPLSTAT, fields := [IG_CPLSTAT_ROLE, IG_CPLSTAT_NMEM, IG_CPLSTAT_QUORUM, IG_CPLSTAT_ALIGN, IG_CPLSTAT_EPOCH, IG_CPLSTAT_VER] }
/-- IG_CPLSTAT2: Group features and phases (spec/09, R366). -/
def IG_CPLSTAT2 : Reg := { base := 0x40070064, n1 := 16, s1 := 0x400, own := .rail }
def IG_CPLSTAT2_FEAT : Fld := { reg := IG_CPLSTAT2, lo := 0, n := 16, acc := .ro } -- Group features
def IG_CPLSTAT2_NPH : Fld := { reg := IG_CPLSTAT2, lo := 16, n := 9, acc := .ro } -- Group SWITCHING phases
def row_IG_CPLSTAT2 : RegRow := { reg := IG_CPLSTAT2, fields := [IG_CPLSTAT2_FEAT, IG_CPLSTAT2_NPH] }
/-- IG_CPLTOT: Group current (spec/09, R366). -/
def IG_CPLTOT : Reg := { base := 0x40070068, n1 := 16, s1 := 0x400, own := .rail }
def IG_CPLTOT_TOT : Fld := { reg := IG_CPLTOT, lo := 0, n := 16, acc := .ro } -- Group current, A
def IG_CPLTOT_PEER : Fld := { reg := IG_CPLTOT, lo := 16, n := 16, acc := .ro } -- Current of the other members, A
def row_IG_CPLTOT : RegRow := { reg := IG_CPLTOT, fields := [IG_CPLTOT_TOT, IG_CPLTOT_PEER] }
/-- IG_CPLCMD: Carry-over commands (spec/09, R366). -/
def IG_CPLCMD : Reg := { base := 0x4007006C, n1 := 16, s1 := 0x400, own := .rail }
def IG_CPLCMD_CARRY : Fld := { reg := IG_CPLCMD, lo := 0, n := 1, acc := .wo } -- Writing 1 requests carry-over
def IG_CPLCMD_REJOIN : Fld := { reg := IG_CPLCMD, lo := 1, n := 1, acc := .wo } -- Writing 1 asks to rejoin
def row_IG_CPLCMD : RegRow := { reg := IG_CPLCMD, fields := [IG_CPLCMD_CARRY, IG_CPLCMD_REJOIN] }
/-- IG_AVSWIN: AVSBus voltage window (spec/09, R366). -/
def IG_AVSWIN : Reg := { base := 0x40070070, n1 := 16, s1 := 0x400, own := .rail }
def IG_AVSWIN_MIN : Fld := { reg := IG_AVSWIN, lo := 0, n := 14, acc := .rw } -- Lowest AVSBus target, DAC LSB
def IG_AVSWIN_MAX : Fld := { reg := IG_AVSWIN, lo := 16, n := 14, acc := .rw } -- Highest AVSBus target, DAC LSB
def row_IG_AVSWIN : RegRow := { reg := IG_AVSWIN, fields := [IG_AVSWIN_MIN, IG_AVSWIN_MAX] }
/-- IG_DCFG: STATUS period; not an instance register (spec/09, R366). -/
def IG_DCFG : Reg := { base := 0x40078000 }
def IG_DCFG_STPER : Fld := { reg := IG_DCFG, lo := 0, n := 8, acc := .rw } -- STATUS period, µs; 0 disables
def row_IG_DCFG : RegRow := { reg := IG_DCFG, fields := [IG_DCFG_STPER] }
/-- IG_FEAT: Features of the supported versions (spec/09, R366). -/
def IG_FEAT : Reg := { base := 0x40078004 }
def IG_FEAT_FCUR : Fld := { reg := IG_FEAT, lo := 0, n := 16, acc := .ro } -- Features of LN_VER.CUR
def IG_FEAT_FPREV : Fld := { reg := IG_FEAT, lo := 16, n := 16, acc := .ro } -- Features of LN_VER.PREV
def row_IG_FEAT : RegRow := { reg := IG_FEAT, fields := [IG_FEAT_FCUR, IG_FEAT_FPREV] }
/-- IG_AVS_CFG: AVSBus port (spec/09, R366). -/
def IG_AVS_CFG : Reg := { base := 0x40078010 }
def IG_AVS_CFG_EN : Fld := { reg := IG_AVS_CFG, lo := 0, n := 1, acc := .rw } -- 1: AVSBus port runs
def IG_AVS_CFG_PART : Fld := { reg := IG_AVS_CFG, lo := 1, n := 3, acc := .rw } -- Partition whose rights AVSBus writes carry
def IG_AVS_CFG_VALID : Fld := { reg := IG_AVS_CFG, lo := 8, n := 8, acc := .rw } -- Bit j: select j mapped
def row_IG_AVS_CFG : RegRow := { reg := IG_AVS_CFG, fields := [IG_AVS_CFG_EN, IG_AVS_CFG_PART, IG_AVS_CFG_VALID] }
/-- IG_AVS_MAP: AVSBus selects to rails (spec/09, R366). -/
def IG_AVS_MAP : Reg := { base := 0x40078014 }
def IG_AVS_MAP_RAIL (i : Nat) : Fld := { reg := IG_AVS_MAP, lo := 0 + 4 * i, n := 4, acc := .rw } -- Rail of select j
def row_IG_AVS_MAP : RegRow := { reg := IG_AVS_MAP, fields := (List.range 8).map IG_AVS_MAP_RAIL }
/-- IG_AVS_STAT: AVSBus counts (spec/09, R366). -/
def IG_AVS_STAT : Reg := { base := 0x40078018 }
def IG_AVS_STAT_FRAMES : Fld := { reg := IG_AVS_STAT, lo := 0, n := 16, acc := .ro } -- Frames answered, saturating
def IG_AVS_STAT_CRC : Fld := { reg := IG_AVS_STAT, lo := 16, n := 16, acc := .ro } -- Frames with a bad CRC, saturating
def row_IG_AVS_STAT : RegRow := { reg := IG_AVS_STAT, fields := [IG_AVS_STAT_FRAMES, IG_AVS_STAT_CRC] }
/-- IG_DCAUSE: Device leaf causes (spec/09, R366). -/
def IG_DCAUSE : Reg := { base := 0x4007801C }
def IG_DCAUSE_AVS_CRC : Fld := { reg := IG_DCAUSE, lo := 0, n := 1, acc := .w1c } -- AVSBus CRC error
def IG_DCAUSE_AVS_SEL : Fld := { reg := IG_DCAUSE, lo := 1, n := 1, acc := .w1c } -- Unmapped select or unsupported command
def IG_DCAUSE_AVS_REF : Fld := { reg := IG_DCAUSE, lo := 2, n := 1, acc := .w1c } -- Write refused (R365)
def IG_DCAUSE_LOCK_ERR : Fld := { reg := IG_DCAUSE, lo := 14, n := 1, acc := .w1c } -- Write to a locked register
def IG_DCAUSE_ACC_ERR : Fld := { reg := IG_DCAUSE, lo := 15, n := 1, acc := .w1c } -- Reserved encoding written
def row_IG_DCAUSE : RegRow := { reg := IG_DCAUSE, fields := [IG_DCAUSE_AVS_CRC, IG_DCAUSE_AVS_SEL, IG_DCAUSE_AVS_REF, IG_DCAUSE_LOCK_ERR, IG_DCAUSE_ACC_ERR] }
/-- IG_DCAUSE_EN: Device cause enables (spec/09, R366). -/
def IG_DCAUSE_EN : Reg := { base := 0x40078020 }
def IG_DCAUSE_EN_AVS_CRC : Fld := { reg := IG_DCAUSE_EN, lo := 0, n := 1, acc := .rw } -- AVSBus CRC error
def IG_DCAUSE_EN_AVS_SEL : Fld := { reg := IG_DCAUSE_EN, lo := 1, n := 1, acc := .rw } -- Unmapped select or unsupported command
def IG_DCAUSE_EN_AVS_REF : Fld := { reg := IG_DCAUSE_EN, lo := 2, n := 1, acc := .rw } -- Write refused (R365)
def IG_DCAUSE_EN_LOCK_ERR : Fld := { reg := IG_DCAUSE_EN, lo := 14, n := 1, acc := .rw } -- Write to a locked register
def IG_DCAUSE_EN_ACC_ERR : Fld := { reg := IG_DCAUSE_EN, lo := 15, n := 1, acc := .rw } -- Reserved encoding written
def row_IG_DCAUSE_EN : RegRow := { reg := IG_DCAUSE_EN, fields := [IG_DCAUSE_EN_AVS_CRC, IG_DCAUSE_EN_AVS_SEL, IG_DCAUSE_EN_AVS_REF, IG_DCAUSE_EN_LOCK_ERR, IG_DCAUSE_EN_ACC_ERR] }
/-- IG_BOUGH: Rails and device with an enabled cause (spec/09, R366). -/
def IG_BOUGH : Reg := { base := 0x40078100 }
def IG_BOUGH_RAIL : Fld := { reg := IG_BOUGH, lo := 0, n := 16, acc := .ro } -- Bit k: rail k has an enabled cause
def IG_BOUGH_DEV : Fld := { reg := IG_BOUGH, lo := 16, n := 1, acc := .ro } -- Enabled device cause
def row_IG_BOUGH : RegRow := { reg := IG_BOUGH, fields := [IG_BOUGH_RAIL, IG_BOUGH_DEV] }
/-- TC_CTL: Enable and commands (spec/10, R391). -/
def TC_CTL : Reg := { base := 0x40080000, n1 := 8, s1 := 0x400, own := .conv }
def TC_CTL_EN : Fld := { reg := TC_CTL, lo := 0, n := 1, acc := .rw } -- 1: converter enabled (R370); 0 abandons a running sequence (R382)
def TC_CTL_GO : Fld := { reg := TC_CTL, lo := 1, n := 1, acc := .wo } -- Writing 1 is a trigger (R377)
def TC_CTL_ABORT : Fld := { reg := TC_CTL, lo := 2, n := 1, acc := .wo } -- Writing 1 abandons and empties the slot (R382)
def TC_CTL_CLRCNT : Fld := { reg := TC_CTL, lo := 3, n := 1, acc := .wo } -- Writing 1 clears TC_CNT
def row_TC_CTL : RegRow := { reg := TC_CTL, fields := [TC_CTL_EN, TC_CTL_GO, TC_CTL_ABORT, TC_CTL_CLRCNT] }
/-- TC_CFG: Steps, trigger and mode (spec/10, R391). -/
def TC_CFG : Reg := { base := 0x40080004, n1 := 8, s1 := 0x400, own := .conv }
def TC_CFG_NSTEP : Fld := { reg := TC_CFG, lo := 0, n := 4, acc := .rwl } -- Last step, 0 to 15
def TC_CFG_TSRC : Fld := { reg := TC_CFG, lo := 8, n := 3, acc := .rwl, bad := [(5, 7)] } -- Trigger source (R377)
def TC_CFG_MODE : Fld := { reg := TC_CFG, lo := 12, n := 1, acc := .rwl } -- 0 pending slot (R379), 1 restart (R381)
def TC_CFG_RAW : Fld := { reg := TC_CFG, lo := 13, n := 1, acc := .rwl } -- 1: discards delivered (R372)
def row_TC_CFG : RegRow := { reg := TC_CFG, fields := [TC_CFG_NSTEP, TC_CFG_TSRC, TC_CFG_MODE, TC_CFG_RAW] }
/-- TC_PER: Periodic trigger (spec/10, R391). -/
def TC_PER : Reg := { base := 0x40080008, n1 := 8, s1 := 0x400, rst := 0x000000C8, own := .conv }
def TC_PER_PER : Fld := { reg := TC_PER, lo := 0, n := 24, acc := .rwl, bad := [(0, 39)] } -- Period, PCLK cycles (reset 1 µs); 0 to 39 reserved
def row_TC_PER : RegRow := { reg := TC_PER, fields := [TC_PER_PER] }
/-- TC_RING: Telemetry ring (spec/10, R391). -/
def TC_RING : Reg := { base := 0x4008000C, n1 := 8, s1 := 0x400, own := .conv }
def TC_RING_RING : Fld := { reg := TC_RING, lo := 0, n := 16, acc := .rwl } -- Ring context number
def row_TC_RING : RegRow := { reg := TC_RING, fields := [TC_RING_RING] }
/-- TC_STATUS: Sequencer state (spec/10, R391). -/
def TC_STATUS : Reg := { base := 0x40080010, n1 := 8, s1 := 0x400, own := .conv }
def TC_STATUS_STATE : Fld := { reg := TC_STATUS, lo := 0, n := 2, acc := .ro } -- 0 idle, 1 running, 2 running with pending, 3 abandoning
def TC_STATUS_STEP : Fld := { reg := TC_STATUS, lo := 4, n := 4, acc := .ro } -- Step in progress
def TC_STATUS_GCNT : Fld := { reg := TC_STATUS, lo := 8, n := 3, acc := .ro } -- Present gain count
def TC_STATUS_SEQ : Fld := { reg := TC_STATUS, lo := 16, n := 16, acc := .ro } -- Sequences started, modulo 65,536
def row_TC_STATUS : RegRow := { reg := TC_STATUS, fields := [TC_STATUS_STATE, TC_STATUS_STEP, TC_STATUS_GCNT, TC_STATUS_SEQ] }
/-- TC_CAUSE: Leaf causes (spec/10, R391). -/
def TC_CAUSE : Reg := { base := 0x40080014, n1 := 8, s1 := 0x400, own := .conv }
def TC_CAUSE_DONE : Fld := { reg := TC_CAUSE, lo := 0, n := 1, acc := .w1c } -- A sequence completed
def TC_CAUSE_OVR : Fld := { reg := TC_CAUSE, lo := 1, n := 1, acc := .w1c } -- A trigger was dropped
def TC_CAUSE_RING_OVR : Fld := { reg := TC_CAUSE, lo := 2, n := 1, acc := .w1c } -- A record found the ring full
def TC_CAUSE_ABANDON : Fld := { reg := TC_CAUSE, lo := 3, n := 1, acc := .w1c } -- A sequence was abandoned
def TC_CAUSE_RANGE : Fld := { reg := TC_CAUSE, lo := 4, n := 1, acc := .w1c } -- A record carried OVR
def TC_CAUSE_PFAIL : Fld := { reg := TC_CAUSE, lo := 5, n := 1, acc := .w1c } -- A record carried PFAIL
def TC_CAUSE_CFG_ERR : Fld := { reg := TC_CAUSE, lo := 11, n := 1, acc := .w1c } -- EN write refused (R370)
def TC_CAUSE_LOCK_ERR : Fld := { reg := TC_CAUSE, lo := 14, n := 1, acc := .w1c } -- Write to a locked field
def TC_CAUSE_ACC_ERR : Fld := { reg := TC_CAUSE, lo := 15, n := 1, acc := .w1c } -- Reserved encoding written
def row_TC_CAUSE : RegRow := { reg := TC_CAUSE, fields := [TC_CAUSE_DONE, TC_CAUSE_OVR, TC_CAUSE_RING_OVR, TC_CAUSE_ABANDON, TC_CAUSE_RANGE, TC_CAUSE_PFAIL, TC_CAUSE_CFG_ERR, TC_CAUSE_LOCK_ERR, TC_CAUSE_ACC_ERR] }
/-- TC_CAUSE_EN: Cause enables to the bough (spec/10, R391). -/
def TC_CAUSE_EN : Reg := { base := 0x40080018, n1 := 8, s1 := 0x400, own := .conv }
def TC_CAUSE_EN_DONE : Fld := { reg := TC_CAUSE_EN, lo := 0, n := 1, acc := .rw } -- A sequence completed
def TC_CAUSE_EN_OVR : Fld := { reg := TC_CAUSE_EN, lo := 1, n := 1, acc := .rw } -- A trigger was dropped
def TC_CAUSE_EN_RING_OVR : Fld := { reg := TC_CAUSE_EN, lo := 2, n := 1, acc := .rw } -- A record found the ring full
def TC_CAUSE_EN_ABANDON : Fld := { reg := TC_CAUSE_EN, lo := 3, n := 1, acc := .rw } -- A sequence was abandoned
def TC_CAUSE_EN_RANGE : Fld := { reg := TC_CAUSE_EN, lo := 4, n := 1, acc := .rw } -- A record carried OVR
def TC_CAUSE_EN_PFAIL : Fld := { reg := TC_CAUSE_EN, lo := 5, n := 1, acc := .rw } -- A record carried PFAIL
def TC_CAUSE_EN_CFG_ERR : Fld := { reg := TC_CAUSE_EN, lo := 11, n := 1, acc := .rw } -- EN write refused (R370)
def TC_CAUSE_EN_LOCK_ERR : Fld := { reg := TC_CAUSE_EN, lo := 14, n := 1, acc := .rw } -- Write to a locked field
def TC_CAUSE_EN_ACC_ERR : Fld := { reg := TC_CAUSE_EN, lo := 15, n := 1, acc := .rw } -- Reserved encoding written
def row_TC_CAUSE_EN : RegRow := { reg := TC_CAUSE_EN, fields := [TC_CAUSE_EN_DONE, TC_CAUSE_EN_OVR, TC_CAUSE_EN_RING_OVR, TC_CAUSE_EN_ABANDON, TC_CAUSE_EN_RANGE, TC_CAUSE_EN_PFAIL, TC_CAUSE_EN_CFG_ERR, TC_CAUSE_EN_LOCK_ERR, TC_CAUSE_EN_ACC_ERR] }
/-- TC_CNT: Dropped triggers and records (spec/10, R391). -/
def TC_CNT : Reg := { base := 0x4008001C, n1 := 8, s1 := 0x400, own := .conv }
def TC_CNT_TDROP : Fld := { reg := TC_CNT, lo := 0, n := 16, acc := .ro } -- Dropped triggers, saturating
def TC_CNT_RDROP : Fld := { reg := TC_CNT, lo := 16, n := 16, acc := .ro } -- Records discarded at a full ring, saturating
def row_TC_CNT : RegRow := { reg := TC_CNT, fields := [TC_CNT_TDROP, TC_CNT_RDROP] }
/-- TC_STEP: Step s; stride 0x4 (spec/10, R391). -/
def TC_STEP : Reg := { base := 0x40080040, n1 := 8, s1 := 0x400, n2 := 16, s2 := 0x4, own := .conv }
def TC_STEP_CH : Fld := { reg := TC_STEP, lo := 0, n := 7, acc := .rw } -- Channel (R369)
def TC_STEP_GAIN : Fld := { reg := TC_STEP, lo := 8, n := 3, acc := .rw, bad := [(5, 7)] } -- Gain 2^GAIN, 0 to 4; 5 to 7 reserved
def TC_STEP_FLT : Fld := { reg := TC_STEP, lo := 12, n := 3, acc := .rw, bad := [(7, 7)] } -- Filter length 2^FLT, 0 to 6; 7 reserved
def row_TC_STEP : RegRow := { reg := TC_STEP, fields := [TC_STEP_CH, TC_STEP_GAIN, TC_STEP_FLT] }
/-- TC_LAST: Word 0 of step s's latest record; stride 0x4 (spec/10, R391). -/
def TC_LAST : Reg := { base := 0x40080100, n1 := 8, s1 := 0x400, n2 := 16, s2 := 0x4, own := .conv }
def TC_LAST_W0 : Fld := { reg := TC_LAST, lo := 0, n := 32, acc := .ro } -- Word 0 of the latest record with VALID 1 (R388)
def row_TC_LAST : RegRow := { reg := TC_LAST, fields := [TC_LAST_W0] }
/-- TC_LASTT: Stamp bits [31:0] of that record; stride 0x4 (spec/10, R391). -/
def TC_LASTT : Reg := { base := 0x40080180, n1 := 8, s1 := 0x400, n2 := 16, s2 := 0x4, own := .conv }
def TC_LASTT_STAMP : Fld := { reg := TC_LASTT, lo := 0, n := 32, acc := .ro } -- Its stamp bits [31:0]
def row_TC_LASTT : RegRow := { reg := TC_LASTT, fields := [TC_LASTT_STAMP] }
/-- TC_OWN: Converter owners; not an instance register (spec/10, R391). -/
def TC_OWN : Reg := { base := 0x40082000 }
def TC_OWN_PART (i : Nat) : Fld := { reg := TC_OWN, lo := 0 + 3 * i, n := 3, acc := .rwl } -- Owner partition of converter c
def row_TC_OWN : RegRow := { reg := TC_OWN, fields := (List.range 8).map TC_OWN_PART }
/-- TC_TTRIM: Temperature scaling; not an instance register (spec/10, R391). -/
def TC_TTRIM : Reg := { base := 0x40082004, rd := .all }
def TC_TTRIM_TGAIN : Fld := { reg := TC_TTRIM, lo := 0, n := 16, acc := .ro } -- Temperature gain, 2^-16 (1/16 °C) per code
def TC_TTRIM_TOFS : Fld := { reg := TC_TTRIM, lo := 16, n := 16, acc := .ro } -- Temperature offset, int16, 1/16 °C
def row_TC_TTRIM : RegRow := { reg := TC_TTRIM, fields := [TC_TTRIM_TGAIN, TC_TTRIM_TOFS] }
/-- TC_BOUGH: Converters with an enabled cause; not an instance register (spec/10, R391). -/
def TC_BOUGH : Reg := { base := 0x40082008, rd := .all }
def TC_BOUGH_CONV : Fld := { reg := TC_BOUGH, lo := 0, n := 8, acc := .ro } -- Bit c: converter c has an enabled cause
def row_TC_BOUGH : RegRow := { reg := TC_BOUGH, fields := [TC_BOUGH_CONV] }
/-- CH_STATUS: Slot selection (spec/11, R426). -/
def CH_STATUS : Reg := { base := 0x40090000 }
def CH_STATUS_SLOT : Fld := { reg := CH_STATUS, lo := 0, n := 2, acc := .ro } -- Governing slot; 0 under the default charter
def CH_STATUS_DEFAULT : Fld := { reg := CH_STATUS, lo := 2, n := 1, acc := .ro } -- Default charter governs (R415)
def CH_STATUS_PENDING : Fld := { reg := CH_STATUS, lo := 3, n := 1, acc := .ro } -- A different slot governs after reset (R418)
def CH_STATUS_VALID : Fld := { reg := CH_STATUS, lo := 4, n := 4, acc := .ro } -- Bit s: slot s valid
def CH_STATUS_RETIRED : Fld := { reg := CH_STATUS, lo := 8, n := 4, acc := .ro } -- Bit s: slot s retired
def CH_STATUS_BLANK : Fld := { reg := CH_STATUS, lo := 12, n := 4, acc := .ro } -- Bit s: slot s blank
def CH_STATUS_NPART : Fld := { reg := CH_STATUS, lo := 16, n := 4, acc := .ro } -- Partitions in use
def row_CH_STATUS : RegRow := { reg := CH_STATUS, fields := [CH_STATUS_SLOT, CH_STATUS_DEFAULT, CH_STATUS_PENDING, CH_STATUS_VALID, CH_STATUS_RETIRED, CH_STATUS_BLANK, CH_STATUS_NPART] }
/-- CH_SERIAL: Governing charter revision (spec/11, R426). -/
def CH_SERIAL : Reg := { base := 0x40090004 }
def CH_SERIAL_SERIAL : Fld := { reg := CH_SERIAL, lo := 0, n := 16, acc := .ro } -- SERIAL of the governing slot; 0 under the default charter
def CH_SERIAL_CVER : Fld := { reg := CH_SERIAL, lo := 16, n := 8, acc := .ro } -- Its CVER; 1 under the default charter (R717)
def row_CH_SERIAL : RegRow := { reg := CH_SERIAL, fields := [CH_SERIAL_SERIAL, CH_SERIAL_CVER] }
/-- CH_BOOT: Boot verification result, written by the root sequencer at boot (spec/11, R426). -/
def CH_BOOT : Reg := { base := 0x40090008 }
def CH_BOOT_TWIN : Fld := { reg := CH_BOOT, lo := 0, n := 1, acc := .ro } -- Boot block in use
def CH_BOOT_FALLBACK : Fld := { reg := CH_BOOT, lo := 1, n := 1, acc := .ro } -- The other twin was booted (R423)
def CH_BOOT_ROOTONLY : Fld := { reg := CH_BOOT, lo := 2, n := 1, acc := .ro } -- No root firmware passed
def CH_BOOT_KEYIDX : Fld := { reg := CH_BOOT, lo := 4, n := 3, acc := .ro } -- Key that verified it
def CH_BOOT_VERSION : Fld := { reg := CH_BOOT, lo := 16, n := 16, acc := .ro } -- VERSION bits [15:0] of the root firmware
def row_CH_BOOT : RegRow := { reg := CH_BOOT, fields := [CH_BOOT_TWIN, CH_BOOT_FALLBACK, CH_BOOT_ROOTONLY, CH_BOOT_KEYIDX, CH_BOOT_VERSION] }
/-- CH_WHOAMI: Reader's tag (spec/11, R426). -/
def CH_WHOAMI : Reg := { base := 0x4009000C, rd := .all }
def CH_WHOAMI_PART : Fld := { reg := CH_WHOAMI, lo := 0, n := 3, acc := .ro } -- Reader's partition tag
def CH_WHOAMI_WARDEN : Fld := { reg := CH_WHOAMI, lo := 3, n := 1, acc := .ro } -- Reader carries the warden attribute
def CH_WHOAMI_DEBUG : Fld := { reg := CH_WHOAMI, lo := 4, n := 1, acc := .ro } -- Reader is the debug port
def row_CH_WHOAMI : RegRow := { reg := CH_WHOAMI, fields := [CH_WHOAMI_PART, CH_WHOAMI_WARDEN, CH_WHOAMI_DEBUG] }
/-- CH_CAUSE: Leaf causes (spec/11, R426). -/
def CH_CAUSE : Reg := { base := 0x40090010 }
def CH_CAUSE_REFUSED : Fld := { reg := CH_CAUSE, lo := 0, n := 1, acc := .w1c } -- A refusal was recorded
def CH_CAUSE_REF_OVR : Fld := { reg := CH_CAUSE, lo := 1, n := 1, acc := .w1c } -- A refusal was not logged (R406)
def CH_CAUSE_FALLBACK : Fld := { reg := CH_CAUSE, lo := 2, n := 1, acc := .w1c } -- Boot used the other twin
def CH_CAUSE_VERIFY_FAIL : Fld := { reg := CH_CAUSE, lo := 3, n := 1, acc := .w1c } -- An image failed verification
def CH_CAUSE_FUSE_DONE : Fld := { reg := CH_CAUSE, lo := 4, n := 1, acc := .w1c } -- A fuse operation completed
def CH_CAUSE_FUSE_FAIL : Fld := { reg := CH_CAUSE, lo := 5, n := 1, acc := .w1c } -- A fuse operation ended with RES other than 0
def CH_CAUSE_SLOT_BAD : Fld := { reg := CH_CAUSE, lo := 6, n := 1, acc := .w1c } -- A spent slot was found at reset
def CH_CAUSE_LOCK_ERR : Fld := { reg := CH_CAUSE, lo := 14, n := 1, acc := .w1c } -- Not used; reads 0
def CH_CAUSE_ACC_ERR : Fld := { reg := CH_CAUSE, lo := 15, n := 1, acc := .w1c } -- Reserved encoding, or CH_CORETAG written while running
def row_CH_CAUSE : RegRow := { reg := CH_CAUSE, fields := [CH_CAUSE_REFUSED, CH_CAUSE_REF_OVR, CH_CAUSE_FALLBACK, CH_CAUSE_VERIFY_FAIL, CH_CAUSE_FUSE_DONE, CH_CAUSE_FUSE_FAIL, CH_CAUSE_SLOT_BAD, CH_CAUSE_LOCK_ERR, CH_CAUSE_ACC_ERR] }
/-- CH_CAUSE_EN: Cause enables to the bough (spec/11, R426). -/
def CH_CAUSE_EN : Reg := { base := 0x40090014 }
def CH_CAUSE_EN_REFUSED : Fld := { reg := CH_CAUSE_EN, lo := 0, n := 1, acc := .rw } -- A refusal was recorded
def CH_CAUSE_EN_REF_OVR : Fld := { reg := CH_CAUSE_EN, lo := 1, n := 1, acc := .rw } -- A refusal was not logged (R406)
def CH_CAUSE_EN_FALLBACK : Fld := { reg := CH_CAUSE_EN, lo := 2, n := 1, acc := .rw } -- Boot used the other twin
def CH_CAUSE_EN_VERIFY_FAIL : Fld := { reg := CH_CAUSE_EN, lo := 3, n := 1, acc := .rw } -- An image failed verification
def CH_CAUSE_EN_FUSE_DONE : Fld := { reg := CH_CAUSE_EN, lo := 4, n := 1, acc := .rw } -- A fuse operation completed
def CH_CAUSE_EN_FUSE_FAIL : Fld := { reg := CH_CAUSE_EN, lo := 5, n := 1, acc := .rw } -- A fuse operation ended with RES other than 0
def CH_CAUSE_EN_SLOT_BAD : Fld := { reg := CH_CAUSE_EN, lo := 6, n := 1, acc := .rw } -- A spent slot was found at reset
def CH_CAUSE_EN_LOCK_ERR : Fld := { reg := CH_CAUSE_EN, lo := 14, n := 1, acc := .rw } -- Not used; reads 0
def CH_CAUSE_EN_ACC_ERR : Fld := { reg := CH_CAUSE_EN, lo := 15, n := 1, acc := .rw } -- Reserved encoding, or CH_CORETAG written while running
def row_CH_CAUSE_EN : RegRow := { reg := CH_CAUSE_EN, fields := [CH_CAUSE_EN_REFUSED, CH_CAUSE_EN_REF_OVR, CH_CAUSE_EN_FALLBACK, CH_CAUSE_EN_VERIFY_FAIL, CH_CAUSE_EN_FUSE_DONE, CH_CAUSE_EN_FUSE_FAIL, CH_CAUSE_EN_SLOT_BAD, CH_CAUSE_EN_LOCK_ERR, CH_CAUSE_EN_ACC_ERR] }
/-- CH_REF_HEAD: Records written (spec/11, R426). -/
def CH_REF_HEAD : Reg := { base := 0x40090020 }
def CH_REF_HEAD_HEAD : Fld := { reg := CH_REF_HEAD, lo := 0, n := 5, acc := .ro } -- Records written, modulo 32
def row_CH_REF_HEAD : RegRow := { reg := CH_REF_HEAD, fields := [CH_REF_HEAD_HEAD] }
/-- CH_REF_TAIL: Records released (spec/11, R426). -/
def CH_REF_TAIL : Reg := { base := 0x40090024 }
def CH_REF_TAIL_TAIL : Fld := { reg := CH_REF_TAIL, lo := 0, n := 5, acc := .rw } -- Records released, modulo 32 (R407)
def row_CH_REF_TAIL : RegRow := { reg := CH_REF_TAIL, fields := [CH_REF_TAIL_TAIL] }
/-- CH_REFCNT: Refusal totals (spec/11, R426). -/
def CH_REFCNT : Reg := { base := 0x40090028 }
def CH_REFCNT_TOTAL : Fld := { reg := CH_REFCNT, lo := 0, n := 16, acc := .ro } -- Refusals, saturating
def CH_REFCNT_LOST : Fld := { reg := CH_REFCNT, lo := 16, n := 16, acc := .ro } -- Refusals not logged, saturating
def row_CH_REFCNT : RegRow := { reg := CH_REFCNT, fields := [CH_REFCNT_TOTAL, CH_REFCNT_LOST] }
/-- CH_PREF: Refusals caused by partition p (spec/11, R426). -/
def CH_PREF : Reg := { base := 0x40090040, n1 := 8, s1 := 0x4, rd := .part }
def CH_PREF_COUNT : Fld := { reg := CH_PREF, lo := 0, n := 16, acc := .ro } -- Refusals caused by partition p, saturating
def row_CH_PREF : RegRow := { reg := CH_PREF, fields := [CH_PREF_COUNT] }
/-- CH_KEYSTAT: Key slots (spec/11, R426). -/
def CH_KEYSTAT : Reg := { base := 0x40090080, rd := .all }
def CH_KEYSTAT_USE (i : Nat) : Fld := { reg := CH_KEYSTAT, lo := 0 + 4 * i, n := 2, acc := .ro } -- USE of key i
def CH_KEYSTAT_REVOKED (i : Nat) : Fld := { reg := CH_KEYSTAT, lo := 2 + 4 * i, n := 1, acc := .ro } -- Key i revoked
def row_CH_KEYSTAT : RegRow := { reg := CH_KEYSTAT, fields := (List.range 8).map CH_KEYSTAT_USE ++ (List.range 8).map CH_KEYSTAT_REVOKED }
/-- CH_CORETAG: Partition of core c; stride 0x4, c = 0 to 3 (spec/11, R426). -/
def CH_CORETAG : Reg := { base := 0x40090090, n1 := 4, s1 := 0x4, rst := 0x00000100, own := .sealed }
def CH_CORETAG_PART : Fld := { reg := CH_CORETAG, lo := 0, n := 3, acc := .rw } -- Partition tag of core c (R398)
def CH_CORETAG_HALTED : Fld := { reg := CH_CORETAG, lo := 8, n := 1, acc := .ro } -- Core c halted; 1 from core reset until the warden releases the core (R612)
def row_CH_CORETAG : RegRow := { reg := CH_CORETAG, fields := [CH_CORETAG_PART, CH_CORETAG_HALTED] }
/-- CH_FPROG: Fuse engine (spec/11, R426). -/
def CH_FPROG : Reg := { base := 0x400900A0, own := .sealed }
def CH_FPROG_OP : Fld := { reg := CH_FPROG, lo := 0, n := 3, acc := .rw, bad := [(5, 7)] } -- 0 none, 1 program slot, 2 retire slot, 3 program key, 4 revoke key; 5 to 7 reserved
def CH_FPROG_SLOT : Fld := { reg := CH_FPROG, lo := 4, n := 2, acc := .rw } -- Charter slot
def CH_FPROG_KEY : Fld := { reg := CH_FPROG, lo := 8, n := 3, acc := .rw } -- Key slot
def CH_FPROG_GO : Fld := { reg := CH_FPROG, lo := 16, n := 1, acc := .wo } -- Writing 1 starts OP; ignored and ACC_ERR set while BUSY
def CH_FPROG_BUSY : Fld := { reg := CH_FPROG, lo := 17, n := 1, acc := .ro } -- Operation in progress
def CH_FPROG_RES : Fld := { reg := CH_FPROG, lo := 18, n := 2, acc := .ro } -- 0 done, 1 refused (target not blank, not valid, or image invalid), 2 read-back mismatch, 3 brown-out stop
def row_CH_FPROG : RegRow := { reg := CH_FPROG, fields := [CH_FPROG_OP, CH_FPROG_SLOT, CH_FPROG_KEY, CH_FPROG_GO, CH_FPROG_BUSY, CH_FPROG_RES] }
/-- CH_FPROG_SRC: Fuse engine source (spec/11, R426). -/
def CH_FPROG_SRC : Reg := { base := 0x400900A4, own := .sealed }
def CH_FPROG_SRC_ADDR : Fld := { reg := CH_FPROG_SRC, lo := 0, n := 32, acc := .rw } -- SRAM address, word-aligned, of the 256-byte slot image, or of a 32-byte key hash followed by its control word
def row_CH_FPROG_SRC : RegRow := { reg := CH_FPROG_SRC, fields := [CH_FPROG_SRC_ADDR] }
/-- CH_VCTL: Verification engine (spec/11, R426). -/
def CH_VCTL : Reg := { base := 0x400900B0, own := .sealed }
def CH_VCTL_GO : Fld := { reg := CH_VCTL, lo := 0, n := 1, acc := .wo } -- Writing 1 verifies the image at CH_VSRC
def CH_VCTL_BUSY : Fld := { reg := CH_VCTL, lo := 1, n := 1, acc := .ro } -- Verification in progress
def CH_VCTL_RES : Fld := { reg := CH_VCTL, lo := 2, n := 3, acc := .ro } -- 0 pass, 1 header invalid or KIND or PART not as expected, 2 key not accepted, 3 body hash mismatch, 4 signature bad; 5 to 7 not used
def CH_VCTL_PART : Fld := { reg := CH_VCTL, lo := 8, n := 3, acc := .rw } -- Expected target partition
def CH_VCTL_KIND : Fld := { reg := CH_VCTL, lo := 12, n := 4, acc := .rw, bad := [(3, 15)] } -- Expected KIND; 3 to 15 reserved
def row_CH_VCTL : RegRow := { reg := CH_VCTL, fields := [CH_VCTL_GO, CH_VCTL_BUSY, CH_VCTL_RES, CH_VCTL_PART, CH_VCTL_KIND] }
/-- CH_VSRC: Image header address (spec/11, R426). -/
def CH_VSRC : Reg := { base := 0x400900B4, own := .sealed }
def CH_VSRC_ADDR : Fld := { reg := CH_VSRC, lo := 0, n := 32, acc := .rw } -- Header address in flash or SRAM, word-aligned
def row_CH_VSRC : RegRow := { reg := CH_VSRC, fields := [CH_VSRC_ADDR] }
/-- CH_VINFO: Last verified version (spec/11, R426). -/
def CH_VINFO : Reg := { base := 0x400900B8, own := .sealed }
def CH_VINFO_VERSION : Fld := { reg := CH_VINFO, lo := 0, n := 32, acc := .ro } -- VERSION of the last image that passed
def row_CH_VINFO : RegRow := { reg := CH_VINFO, fields := [CH_VINFO_VERSION] }
/-- CH_CHARTER: Governing charter, 64 words (spec/11, R426). -/
def CH_CHARTER : Reg := { base := 0x40090200, n2 := 64, s2 := 0x4 }
def CH_CHARTER_BYTES : Fld := { reg := CH_CHARTER, lo := 0, n := 32, acc := .ro } -- Governing charter bytes 4w to 4w + 3, lowest in [7:0]; under the default charter, the image of R717
def row_CH_CHARTER : RegRow := { reg := CH_CHARTER, fields := [CH_CHARTER_BYTES] }
/-- CH_REFLOG: Refusal log, record r at 0x400 + r × 0x10 (spec/11, R426). -/
def CH_REFLOG : Reg := { base := 0x40090400, n2 := 64, s2 := 0x4 }
def CH_REFLOG_WORD : Fld := { reg := CH_REFLOG, lo := 0, n := 32, acc := .ro }
def row_CH_REFLOG : RegRow := { reg := CH_REFLOG, fields := [CH_REFLOG_WORD] }
/-- CP_CFG: Port enables and PMBus options (spec/12, R461). -/
def CP_CFG : Reg := { base := 0x400A0000, rst := 0x00001207 }
def CP_CFG_PMB_EN : Fld := { reg := CP_CFG, lo := 0, n := 1, acc := .rw } -- 1: PMBus port enabled
def CP_CFG_SPI_EN : Fld := { reg := CP_CFG, lo := 1, n := 1, acc := .rw } -- 1: SPI port enabled
def CP_CFG_LANE_EN : Fld := { reg := CP_CFG, lo := 2, n := 1, acc := .rw } -- 1: lane port enabled
def CP_CFG_STDPART : Fld := { reg := CP_CFG, lo := 4, n := 3, acc := .rw } -- Partition of the PMBus standard commands
def CP_CFG_PEC_REQ : Fld := { reg := CP_CFG, lo := 8, n := 1, acc := .rw } -- 1: PEC required (R446)
def CP_CFG_ARA_EN : Fld := { reg := CP_CFG, lo := 9, n := 1, acc := .rw } -- 1: answer the Alert Response Address
def CP_CFG_WAIT : Fld := { reg := CP_CFG, lo := 12, n := 4, acc := .rw, bad := [(0, 0)] } -- Process-call wait, ms; 0 reserved
def row_CP_CFG : RegRow := { reg := CP_CFG, fields := [CP_CFG_PMB_EN, CP_CFG_SPI_EN, CP_CFG_LANE_EN, CP_CFG_STDPART, CP_CFG_PEC_REQ, CP_CFG_ARA_EN, CP_CFG_WAIT] }
/-- CP_STATUS: Address, rings and root state (spec/12, R461). -/
def CP_STATUS : Reg := { base := 0x400A0004 }
def CP_STATUS_ADDR : Fld := { reg := CP_STATUS, lo := 0, n := 7, acc := .ro } -- PMBus address
def CP_STATUS_ROOT_BUSY : Fld := { reg := CP_STATUS, lo := 7, n := 1, acc := .ro } -- Root sequencer executing
def CP_STATUS_RINGS : Fld := { reg := CP_STATUS, lo := 8, n := 8, acc := .ro } -- Bit p: partition p's ring not empty
def CP_STATUS_WARDEN : Fld := { reg := CP_STATUS, lo := 16, n := 1, acc := .ro } -- Warden out of reset
def row_CP_STATUS : RegRow := { reg := CP_STATUS, fields := [CP_STATUS_ADDR, CP_STATUS_ROOT_BUSY, CP_STATUS_RINGS, CP_STATUS_WARDEN] }
/-- CP_CML: PMBus STATUS_CML (spec/12, R461). -/
def CP_CML : Reg := { base := 0x400A0008 }
def CP_CML_OTHER : Fld := { reg := CP_CML, lo := 1, n := 1, acc := .w1c } -- Other communication fault
def CP_CML_PEC : Fld := { reg := CP_CML, lo := 5, n := 1, acc := .w1c } -- PEC failed
def CP_CML_DATA : Fld := { reg := CP_CML, lo := 6, n := 1, acc := .w1c } -- Invalid data
def CP_CML_CMD : Fld := { reg := CP_CML, lo := 7, n := 1, acc := .w1c } -- Unsupported command
def row_CP_CML : RegRow := { reg := CP_CML, fields := [CP_CML_OTHER, CP_CML_PEC, CP_CML_DATA, CP_CML_CMD] }
/-- CP_ROOTCNT: Root opcodes executed (spec/12, R461). -/
def CP_ROOTCNT : Reg := { base := 0x400A000C }
def CP_ROOTCNT_COUNT : Fld := { reg := CP_ROOTCNT, lo := 0, n := 16, acc := .ro } -- Root opcodes executed, saturating
def CP_ROOTCNT_LAST : Fld := { reg := CP_ROOTCNT, lo := 16, n := 8, acc := .ro } -- Last root opcode
def row_CP_ROOTCNT : RegRow := { reg := CP_ROOTCNT, fields := [CP_ROOTCNT_COUNT, CP_ROOTCNT_LAST] }
/-- CP_ROOTSTAMP_LO: Last root rail-off stamp, bits [31:0] (spec/12, R461). -/
def CP_ROOTSTAMP_LO : Reg := { base := 0x400A0010 }
def CP_ROOTSTAMP_LO_STAMP : Fld := { reg := CP_ROOTSTAMP_LO, lo := 0, n := 32, acc := .ro } -- Decision stamp bits [31:0] (R459)
def row_CP_ROOTSTAMP_LO : RegRow := { reg := CP_ROOTSTAMP_LO, fields := [CP_ROOTSTAMP_LO_STAMP] }
/-- CP_ROOTSTAMP_HI: Bits [63:32], as captured (spec/12, R461). -/
def CP_ROOTSTAMP_HI : Reg := { base := 0x400A0014 }
def CP_ROOTSTAMP_HI_STAMP : Fld := { reg := CP_ROOTSTAMP_HI, lo := 0, n := 32, acc := .ro } -- Bits [63:32]
def row_CP_ROOTSTAMP_HI : RegRow := { reg := CP_ROOTSTAMP_HI, fields := [CP_ROOTSTAMP_HI_STAMP] }
/-- CP_CAUSE: Leaf causes (spec/12, R461). -/
def CP_CAUSE : Reg := { base := 0x400A0018 }
def CP_CAUSE_CRC : Fld := { reg := CP_CAUSE, lo := 0, n := 1, acc := .w1c } -- Framing or CRC failure (R429)
def CP_CAUSE_PEC : Fld := { reg := CP_CAUSE, lo := 1, n := 1, acc := .w1c } -- PMBus PEC failure
def CP_CAUSE_RING_FULL : Fld := { reg := CP_CAUSE, lo := 2, n := 1, acc := .w1c } -- BUSY for a full ring
def CP_CAUSE_STALE : Fld := { reg := CP_CAUSE, lo := 3, n := 1, acc := .w1c } -- STALE reply
def CP_CAUSE_DENIED : Fld := { reg := CP_CAUSE, lo := 4, n := 1, acc := .w1c } -- DENIED reply
def CP_CAUSE_ROOT : Fld := { reg := CP_CAUSE, lo := 5, n := 1, acc := .w1c } -- A root opcode executed
def CP_CAUSE_REASM : Fld := { reg := CP_CAUSE, lo := 6, n := 1, acc := .w1c } -- Continuation abandoned
def CP_CAUSE_SPI_OVR : Fld := { reg := CP_CAUSE, lo := 7, n := 1, acc := .w1c } -- SPI byte lost
def CP_CAUSE_WRESET : Fld := { reg := CP_CAUSE, lo := 8, n := 1, acc := .w1c } -- Packets answered TIMEOUT (R442)
def CP_CAUSE_LOCK_ERR : Fld := { reg := CP_CAUSE, lo := 14, n := 1, acc := .w1c } -- Not used; reads 0
def CP_CAUSE_ACC_ERR : Fld := { reg := CP_CAUSE, lo := 15, n := 1, acc := .w1c } -- Reserved encoding or unknown SPI instruction
def row_CP_CAUSE : RegRow := { reg := CP_CAUSE, fields := [CP_CAUSE_CRC, CP_CAUSE_PEC, CP_CAUSE_RING_FULL, CP_CAUSE_STALE, CP_CAUSE_DENIED, CP_CAUSE_ROOT, CP_CAUSE_REASM, CP_CAUSE_SPI_OVR, CP_CAUSE_WRESET, CP_CAUSE_LOCK_ERR, CP_CAUSE_ACC_ERR] }
/-- CP_CAUSE_EN: Cause enables to the bough (spec/12, R461). -/
def CP_CAUSE_EN : Reg := { base := 0x400A001C }
def CP_CAUSE_EN_CRC : Fld := { reg := CP_CAUSE_EN, lo := 0, n := 1, acc := .rw } -- Framing or CRC failure (R429)
def CP_CAUSE_EN_PEC : Fld := { reg := CP_CAUSE_EN, lo := 1, n := 1, acc := .rw } -- PMBus PEC failure
def CP_CAUSE_EN_RING_FULL : Fld := { reg := CP_CAUSE_EN, lo := 2, n := 1, acc := .rw } -- BUSY for a full ring
def CP_CAUSE_EN_STALE : Fld := { reg := CP_CAUSE_EN, lo := 3, n := 1, acc := .rw } -- STALE reply
def CP_CAUSE_EN_DENIED : Fld := { reg := CP_CAUSE_EN, lo := 4, n := 1, acc := .rw } -- DENIED reply
def CP_CAUSE_EN_ROOT : Fld := { reg := CP_CAUSE_EN, lo := 5, n := 1, acc := .rw } -- A root opcode executed
def CP_CAUSE_EN_REASM : Fld := { reg := CP_CAUSE_EN, lo := 6, n := 1, acc := .rw } -- Continuation abandoned
def CP_CAUSE_EN_SPI_OVR : Fld := { reg := CP_CAUSE_EN, lo := 7, n := 1, acc := .rw } -- SPI byte lost
def CP_CAUSE_EN_WRESET : Fld := { reg := CP_CAUSE_EN, lo := 8, n := 1, acc := .rw } -- Packets answered TIMEOUT (R442)
def CP_CAUSE_EN_LOCK_ERR : Fld := { reg := CP_CAUSE_EN, lo := 14, n := 1, acc := .rw } -- Not used; reads 0
def CP_CAUSE_EN_ACC_ERR : Fld := { reg := CP_CAUSE_EN, lo := 15, n := 1, acc := .rw } -- Reserved encoding or unknown SPI instruction
def row_CP_CAUSE_EN : RegRow := { reg := CP_CAUSE_EN, fields := [CP_CAUSE_EN_CRC, CP_CAUSE_EN_PEC, CP_CAUSE_EN_RING_FULL, CP_CAUSE_EN_STALE, CP_CAUSE_EN_DENIED, CP_CAUSE_EN_ROOT, CP_CAUSE_EN_REASM, CP_CAUSE_EN_SPI_OVR, CP_CAUSE_EN_WRESET, CP_CAUSE_EN_LOCK_ERR, CP_CAUSE_EN_ACC_ERR] }
/-- CP_BOUGH: Mailboxes and device with an enabled cause (spec/12, R461). -/
def CP_BOUGH : Reg := { base := 0x400A0020 }
def CP_BOUGH_SRC : Fld := { reg := CP_BOUGH, lo := 0, n := 9, acc := .ro } -- Bits 0 to 7: mailbox p; bit 8: device
def row_CP_BOUGH : RegRow := { reg := CP_BOUGH, fields := [CP_BOUGH_SRC] }
/-- CP_PCNT: Packets of partition p (spec/12, R461). -/
def CP_PCNT : Reg := { base := 0x400A0040, n1 := 8, s1 := 0x4, rd := .part }
def CP_PCNT_OK : Fld := { reg := CP_PCNT, lo := 0, n := 16, acc := .ro } -- Replies OK or PARTIAL, saturating
def CP_PCNT_ERR : Fld := { reg := CP_PCNT, lo := 16, n := 16, acc := .ro } -- Other replies, saturating
def row_CP_PCNT : RegRow := { reg := CP_PCNT, fields := [CP_PCNT_OK, CP_PCNT_ERR] }
/-- CP_VOUTMAP: Output reading source, per rail (spec/12, R461). -/
def CP_VOUTMAP : Reg := { base := 0x400A4000, n1 := 16, s1 := 0x400 }
def CP_VOUTMAP_CONV : Fld := { reg := CP_VOUTMAP, lo := 0, n := 3, acc := .rw } -- Converter
def CP_VOUTMAP_STEP : Fld := { reg := CP_VOUTMAP, lo := 4, n := 4, acc := .rw } -- Step
def CP_VOUTMAP_EN : Fld := { reg := CP_VOUTMAP, lo := 8, n := 1, acc := .rw } -- 1: mapping valid; 0: output readings 0
def row_CP_VOUTMAP : RegRow := { reg := CP_VOUTMAP, fields := [CP_VOUTMAP_CONV, CP_VOUTMAP_STEP, CP_VOUTMAP_EN] }
/-- CP_MBX_REQ: Request, 64 words; stride 0x400 (spec/12, R461). -/
def CP_MBX_REQ : Reg := { base := 0x400A8000, n1 := 8, s1 := 0x400, n2 := 64, s2 := 0x4, own := .part }
def CP_MBX_REQ_BYTES : Fld := { reg := CP_MBX_REQ, lo := 0, n := 32, acc := .rw } -- Request bytes 4w to 4w + 3, lowest in [7:0]
def row_CP_MBX_REQ : RegRow := { reg := CP_MBX_REQ, fields := [CP_MBX_REQ_BYTES] }
/-- CP_MBX_RPL: Reply, 64 words; stride 0x400 (spec/12, R461). -/
def CP_MBX_RPL : Reg := { base := 0x400A8100, n1 := 8, s1 := 0x400, n2 := 64, s2 := 0x4, own := .part }
def CP_MBX_RPL_BYTES : Fld := { reg := CP_MBX_RPL, lo := 0, n := 32, acc := .ro } -- Reply bytes 4w to 4w + 3, lowest in [7:0]
def row_CP_MBX_RPL : RegRow := { reg := CP_MBX_RPL, fields := [CP_MBX_RPL_BYTES] }
/-- CP_MBX_CTL: Mailbox command; stride 0x400 (spec/12, R461). -/
def CP_MBX_CTL : Reg := { base := 0x400A8200, n1 := 8, s1 := 0x400, own := .part }
def CP_MBX_CTL_GO : Fld := { reg := CP_MBX_CTL, lo := 0, n := 1, acc := .wo } -- Writing 1 submits the request (R452)
def row_CP_MBX_CTL : RegRow := { reg := CP_MBX_CTL, fields := [CP_MBX_CTL_GO] }
/-- CP_MBX_STAT: Mailbox state; stride 0x400 (spec/12, R461). -/
def CP_MBX_STAT : Reg := { base := 0x400A8204, n1 := 8, s1 := 0x400, own := .part }
def CP_MBX_STAT_BUSY : Fld := { reg := CP_MBX_STAT, lo := 0, n := 1, acc := .ro } -- Request executing
def CP_MBX_STAT_DONE : Fld := { reg := CP_MBX_STAT, lo := 1, n := 1, acc := .ro } -- CP_MBX_RPL holds the latest reply; cleared by GO
def CP_MBX_STAT_LEN : Fld := { reg := CP_MBX_STAT, lo := 16, n := 9, acc := .ro } -- Reply bytes, 8 to 256
def row_CP_MBX_STAT : RegRow := { reg := CP_MBX_STAT, fields := [CP_MBX_STAT_BUSY, CP_MBX_STAT_DONE, CP_MBX_STAT_LEN] }
/-- CP_MBX_CAUSE: Mailbox causes; stride 0x400 (spec/12, R461). -/
def CP_MBX_CAUSE : Reg := { base := 0x400A8208, n1 := 8, s1 := 0x400, own := .part }
def CP_MBX_CAUSE_DONE : Fld := { reg := CP_MBX_CAUSE, lo := 0, n := 1, acc := .w1c } -- A reply arrived
def CP_MBX_CAUSE_ACC_ERR : Fld := { reg := CP_MBX_CAUSE, lo := 15, n := 1, acc := .w1c } -- Write while BUSY
def row_CP_MBX_CAUSE : RegRow := { reg := CP_MBX_CAUSE, fields := [CP_MBX_CAUSE_DONE, CP_MBX_CAUSE_ACC_ERR] }
/-- CP_MBX_CAUSE_EN: Mailbox cause enables; stride 0x400 (spec/12, R461). -/
def CP_MBX_CAUSE_EN : Reg := { base := 0x400A820C, n1 := 8, s1 := 0x400, own := .part }
def CP_MBX_CAUSE_EN_DONE : Fld := { reg := CP_MBX_CAUSE_EN, lo := 0, n := 1, acc := .rw } -- A reply arrived
def CP_MBX_CAUSE_EN_ACC_ERR : Fld := { reg := CP_MBX_CAUSE_EN, lo := 15, n := 1, acc := .rw } -- Write while BUSY
def row_CP_MBX_CAUSE_EN : RegRow := { reg := CP_MBX_CAUSE_EN, fields := [CP_MBX_CAUSE_EN_DONE, CP_MBX_CAUSE_EN_ACC_ERR] }

def regsLinkPart0 : List RegRow :=
  [row_LN_CTL, row_LN_CFG, row_LN_STATUS, row_LN_EQ, row_LN_TXC, row_LN_DFE, row_LN_RETRY, row_LN_LAT, row_LN_ERRCNT, row_LN_DOWNCNT, row_LN_RAILS, row_LN_TEST, row_LN_PID, row_LN_CAUSE, row_LN_CAUSE_EN, row_LN_GRP, row_LN_VER, row_LN_BOUGH, row_IG_RCFG, row_IG_FFK, row_IG_WIN, row_IG_COUT, row_IG_SLOTS, row_IG_TRUST, row_IG_G_TRUST, row_IG_TLIM, row_IG_TNOW, row_IG_OUT, row_IG_LOAD, row_IG_SCNT]

def regsLinkPart1 : List RegRow :=
  [row_IG_RCAUSE, row_IG_RCAUSE_EN, row_IG_CPL, row_IG_CPL_LNK, row_IG_CPL_GAIN, row_IG_CPL_KI, row_IG_CPLSTAT, row_IG_CPLSTAT2, row_IG_CPLTOT, row_IG_CPLCMD, row_IG_AVSWIN, row_IG_DCFG, row_IG_FEAT, row_IG_AVS_CFG, row_IG_AVS_MAP, row_IG_AVS_STAT, row_IG_DCAUSE, row_IG_DCAUSE_EN, row_IG_BOUGH, row_TC_CTL, row_TC_CFG, row_TC_PER, row_TC_RING, row_TC_STATUS, row_TC_CAUSE, row_TC_CAUSE_EN, row_TC_CNT, row_TC_STEP, row_TC_LAST, row_TC_LASTT]

def regsLinkPart2 : List RegRow :=
  [row_TC_OWN, row_TC_TTRIM, row_TC_BOUGH, row_CH_STATUS, row_CH_SERIAL, row_CH_BOOT, row_CH_WHOAMI, row_CH_CAUSE, row_CH_CAUSE_EN, row_CH_REF_HEAD, row_CH_REF_TAIL, row_CH_REFCNT, row_CH_PREF, row_CH_KEYSTAT, row_CH_CORETAG, row_CH_FPROG, row_CH_FPROG_SRC, row_CH_VCTL, row_CH_VSRC, row_CH_VINFO, row_CH_CHARTER, row_CH_REFLOG, row_CP_CFG, row_CP_STATUS, row_CP_CML, row_CP_ROOTCNT, row_CP_ROOTSTAMP_LO, row_CP_ROOTSTAMP_HI, row_CP_CAUSE, row_CP_CAUSE_EN]

def regsLinkPart3 : List RegRow :=
  [row_CP_BOUGH, row_CP_PCNT, row_CP_VOUTMAP, row_CP_MBX_REQ, row_CP_MBX_RPL, row_CP_MBX_CTL, row_CP_MBX_STAT, row_CP_MBX_CAUSE, row_CP_MBX_CAUSE_EN]

/-- The register map rows of the LN, IG, TC, CH, CP blocks. -/
def regsLink : List RegRow := regsLinkPart0 ++ regsLinkPart1 ++ regsLinkPart2 ++ regsLinkPart3

end Sys2Proof.Machine
end

