-- ==== Sys2Proof/Machine/RegsLoop.lean ====
section
/-! DEFINITION. The registers of the FL, PH, GV, RL blocks, one definition per register and per field, as the summaries and field
 tables of the spec give them (offset, copies, access, reset word, owner, reserved values). -/

namespace Sys2Proof.Machine

/-- FL_CFG: Loop options, SW db (spec/02, R83). -/
def FL_CFG : Reg := { base := 0x40000000, n1 := 16, s1 := 0x400, rst := 0x00000440, own := .rail, db := .sw }
def FL_CFG_LEAD : Fld := { reg := FL_CFG, lo := 0, n := 6, acc := .rw } -- Lead phase when LEAD_AUTO is 0 (R73)
def FL_CFG_LEAD_AUTO : Fld := { reg := FL_CFG, lo := 6, n := 1, acc := .rw } -- 1: lead is the lowest-numbered active phase
def FL_CFG_BANK : Fld := { reg := FL_CFG, lo := 8, n := 1, acc := .rw } -- Coefficient bank in use: 0 software, 1 grove
def FL_CFG_LL_SRC : Fld := { reg := FL_CFG, lo := 9, n := 1, acc := .rw } -- Load-line slope: 0 FL_LL.SLOPE, 1 FL_G_LL.SLOPE bounded by FL_LL_LIM
def FL_CFG_LL_EN : Fld := { reg := FL_CFG, lo := 10, n := 1, acc := .rw } -- 1: load line applied
def FL_CFG_OFS_EN : Fld := { reg := FL_CFG, lo := 11, n := 1, acc := .rw } -- 1: grove offset applied
def FL_CFG_FF_EN : Fld := { reg := FL_CFG, lo := 12, n := 1, acc := .rw } -- 1: feedforward terms accepted
def FL_CFG_NS : Fld := { reg := FL_CFG, lo := 13, n := 1, acc := .rw } -- 1: non-sink operation while running (R61)
def FL_CFG_OVR_INT : Fld := { reg := FL_CFG, lo := 14, n := 1, acc := .rw } -- 1: integrator integrates over-range samples
def FL_CFG_SS_STRIKE : Fld := { reg := FL_CFG, lo := 15, n := 1, acc := .rw } -- 1: strike and release allowed in soft start
def FL_CFG_REL_MODE : Fld := { reg := FL_CFG, lo := 16, n := 1, acc := .rw } -- Release action: 0 low-side on, 1 tri-state (R66)
def row_FL_CFG : RegRow := { reg := FL_CFG, fields := [FL_CFG_LEAD, FL_CFG_LEAD_AUTO, FL_CFG_BANK, FL_CFG_LL_SRC, FL_CFG_LL_EN, FL_CFG_OFS_EN, FL_CFG_FF_EN, FL_CFG_NS, FL_CFG_OVR_INT, FL_CFG_SS_STRIKE, FL_CFG_REL_MODE] }
/-- FL_STATUS: Mode and live flags (spec/02, R83). -/
def FL_STATUS : Reg := { base := 0x40000004, n1 := 16, s1 := 0x400, own := .rail }
def FL_STATUS_MODE : Fld := { reg := FL_STATUS, lo := 0, n := 3, acc := .ro } -- 0 OFF, 1 RUN, 2 STRIKE, 3 RELEASE, 4 RESTORE; 5-7 not used
def FL_STATUS_RAMPING : Fld := { reg := FL_STATUS, lo := 3, n := 1, acc := .ro } -- r differs from target
def FL_STATUS_SETTLE : Fld := { reg := FL_STATUS, lo := 4, n := 1, acc := .ro } -- Newest sample carries SETTLE
def FL_STATUS_OVR : Fld := { reg := FL_STATUS, lo := 5, n := 1, acc := .ro } -- Newest sample over-range
def FL_STATUS_DSAT_HI : Fld := { reg := FL_STATUS, lo := 6, n := 1, acc := .ro } -- Duty at DMAX
def FL_STATUS_DSAT_LO : Fld := { reg := FL_STATUS, lo := 7, n := 1, acc := .ro } -- Duty at DMIN
def FL_STATUS_INT_HOLD : Fld := { reg := FL_STATUS, lo := 8, n := 1, acc := .ro } -- Integrator held (R56)
def FL_STATUS_FROZEN : Fld := { reg := FL_STATUS, lo := 9, n := 1, acc := .ro } -- Rail frozen (R80)
def FL_STATUS_NS_ACT : Fld := { reg := FL_STATUS, lo := 10, n := 1, acc := .ro } -- Non-sink operation active
def FL_STATUS_BANK_ACT : Fld := { reg := FL_STATUS, lo := 11, n := 1, acc := .ro } -- Active coefficient bank
def FL_STATUS_FF_ACT : Fld := { reg := FL_STATUS, lo := 12, n := 1, acc := .ro } -- A feedforward term is non-zero
def FL_STATUS_LEAD_ACT : Fld := { reg := FL_STATUS, lo := 16, n := 6, acc := .ro } -- Present lead phase
def FL_STATUS_NPH : Fld := { reg := FL_STATUS, lo := 24, n := 7, acc := .ro } -- Active phases, 0 to 64
def row_FL_STATUS : RegRow := { reg := FL_STATUS, fields := [FL_STATUS_MODE, FL_STATUS_RAMPING, FL_STATUS_SETTLE, FL_STATUS_OVR, FL_STATUS_DSAT_HI, FL_STATUS_DSAT_LO, FL_STATUS_INT_HOLD, FL_STATUS_FROZEN, FL_STATUS_NS_ACT, FL_STATUS_BANK_ACT, FL_STATUS_FF_ACT, FL_STATUS_LEAD_ACT, FL_STATUS_NPH] }
/-- FL_REF: Reference target, SW db (spec/02, R83). -/
def FL_REF : Reg := { base := 0x40000008, n1 := 16, s1 := 0x400, own := .rail, db := .sw }
def FL_REF_TGT : Fld := { reg := FL_REF, lo := 0, n := 14, acc := .rw } -- Target, DAC LSB of 97.65625 µV
def FL_REF_STEP : Fld := { reg := FL_REF, lo := 31, n := 1, acc := .rw } -- 1: move to TGT at commit (R50)
def row_FL_REF : RegRow := { reg := FL_REF, fields := [FL_REF_TGT, FL_REF_STEP] }
/-- FL_RAMP: Ramp rates, SW db (spec/02, R83). -/
def FL_RAMP : Reg := { base := 0x4000000C, n1 := 16, s1 := 0x400, rst := 0x0A00000D, own := .rail, db := .sw }
def FL_RAMP_SS_RATE : Fld := { reg := FL_RAMP, lo := 0, n := 16, acc := .rw, bad := [(0, 0)] } -- Soft-start rate, 2^-8 F per LCLK cycle; 0 reserved
def FL_RAMP_SLEW : Fld := { reg := FL_RAMP, lo := 16, n := 16, acc := .rw, bad := [(0, 0)] } -- Slew rate, 2^-8 F per LCLK cycle; 0 reserved
def row_FL_RAMP : RegRow := { reg := FL_RAMP, fields := [FL_RAMP_SS_RATE, FL_RAMP_SLEW] }
/-- FL_REFNOW: Present reference (spec/02, R83). -/
def FL_REFNOW : Reg := { base := 0x40000010, n1 := 16, s1 := 0x400, own := .rail }
def FL_REFNOW_REF : Fld := { reg := FL_REFNOW, lo := 0, n := 21, acc := .ro } -- Integer part of r, F
def row_FL_REFNOW : RegRow := { reg := FL_REFNOW, fields := [FL_REFNOW_REF] }
/-- FL_WIN: Last code and centre (spec/02, R83). -/
def FL_WIN : Reg := { base := 0x40000014, n1 := 16, s1 := 0x400, own := .rail }
def FL_WIN_CODE : Fld := { reg := FL_WIN, lo := 0, n := 9, acc := .ro } -- Newest window code, int9
def FL_WIN_CENTRE : Fld := { reg := FL_WIN, lo := 16, n := 14, acc := .ro } -- Centre, DAC code
def row_FL_WIN : RegRow := { reg := FL_WIN, fields := [FL_WIN_CODE, FL_WIN_CENTRE] }
/-- FL_LL: Load line, SW db (spec/02, R83). -/
def FL_LL : Reg := { base := 0x40000018, n1 := 16, s1 := 0x400, rst := 0x00640000, own := .rail, db := .sw }
def FL_LL_SLOPE : Fld := { reg := FL_LL, lo := 0, n := 10, acc := .rw } -- Load line, 10 µΩ units
def FL_LL_SHIFT : Fld := { reg := FL_LL, lo := 12, n := 3, acc := .rw } -- Current filter k of R53
def FL_LL_MAXDROP : Fld := { reg := FL_LL, lo := 16, n := 8, acc := .rw } -- Drop bound, 2 mV units (reset 200 mV)
def row_FL_LL : RegRow := { reg := FL_LL, fields := [FL_LL_SLOPE, FL_LL_SHIFT, FL_LL_MAXDROP] }
/-- FL_LL_LIM: Bounds on grove slope, SW db (spec/02, R83). -/
def FL_LL_LIM : Reg := { base := 0x4000001C, n1 := 16, s1 := 0x400, own := .rail, db := .sw }
def FL_LL_LIM_MIN : Fld := { reg := FL_LL_LIM, lo := 0, n := 10, acc := .rw } -- Lowest grove slope
def FL_LL_LIM_MAX : Fld := { reg := FL_LL_LIM, lo := 16, n := 10, acc := .rw } -- Highest grove slope
def row_FL_LL_LIM : RegRow := { reg := FL_LL_LIM, fields := [FL_LL_LIM_MIN, FL_LL_LIM_MAX] }
/-- FL_DLIM: Duty limits, SW db (spec/02, R83). -/
def FL_DLIM : Reg := { base := 0x40000020, n1 := 16, s1 := 0x400, rst := 0x80000000, own := .rail, db := .sw }
def FL_DLIM_DMIN : Fld := { reg := FL_DLIM, lo := 0, n := 16, acc := .rw } -- Lowest duty code
def FL_DLIM_DMAX : Fld := { reg := FL_DLIM, lo := 16, n := 16, acc := .rw } -- Highest duty code
def row_FL_DLIM : RegRow := { reg := FL_DLIM, fields := [FL_DLIM_DMIN, FL_DLIM_DMAX] }
/-- FL_ILIM: Integrator limits, SW db (spec/02, R83). -/
def FL_ILIM : Reg := { base := 0x40000024, n1 := 16, s1 := 0x400, rst := 0x80000000, own := .rail, db := .sw }
def FL_ILIM_IMIN : Fld := { reg := FL_ILIM, lo := 0, n := 16, acc := .rw } -- Integrator floor, duty code
def FL_ILIM_IMAX : Fld := { reg := FL_ILIM, lo := 16, n := 16, acc := .rw } -- Integrator ceiling, duty code
def row_FL_ILIM : RegRow := { reg := FL_ILIM, fields := [FL_ILIM_IMIN, FL_ILIM_IMAX] }
/-- FL_IPRE: Integrator preload (spec/02, R83). -/
def FL_IPRE : Reg := { base := 0x40000028, n1 := 16, s1 := 0x400, own := .rail }
def FL_IPRE_D : Fld := { reg := FL_IPRE, lo := 0, n := 16, acc := .rwl } -- Integrator preload at start (R57); locked while the rail is not off
def row_FL_IPRE : RegRow := { reg := FL_IPRE, fields := [FL_IPRE_D] }
/-- FL_S_KI: Software coefficient bank, SW db (spec/02, R83). -/
def FL_S_KI : Reg := { base := 0x40000030, n1 := 16, s1 := 0x400, own := .rail, db := .sw }
def FL_S_KI_COEF : Fld := { reg := FL_S_KI, lo := 0, n := 24, acc := .rw } -- Coefficient, Q2.22 (coefficient registers)
def row_FL_S_KI : RegRow := { reg := FL_S_KI, fields := [FL_S_KI_COEF] }
/-- FL_S_B0: Software coefficient bank, SW db (spec/02, R83). -/
def FL_S_B0 : Reg := { base := 0x40000034, n1 := 16, s1 := 0x400, own := .rail, db := .sw }
def FL_S_B0_COEF : Fld := { reg := FL_S_B0, lo := 0, n := 24, acc := .rw } -- Coefficient, Q2.22 (coefficient registers)
def row_FL_S_B0 : RegRow := { reg := FL_S_B0, fields := [FL_S_B0_COEF] }
/-- FL_S_B1: Software coefficient bank, SW db (spec/02, R83). -/
def FL_S_B1 : Reg := { base := 0x40000038, n1 := 16, s1 := 0x400, own := .rail, db := .sw }
def FL_S_B1_COEF : Fld := { reg := FL_S_B1, lo := 0, n := 24, acc := .rw } -- Coefficient, Q2.22 (coefficient registers)
def row_FL_S_B1 : RegRow := { reg := FL_S_B1, fields := [FL_S_B1_COEF] }
/-- FL_S_B2: Software coefficient bank, SW db (spec/02, R83). -/
def FL_S_B2 : Reg := { base := 0x4000003C, n1 := 16, s1 := 0x400, own := .rail, db := .sw }
def FL_S_B2_COEF : Fld := { reg := FL_S_B2, lo := 0, n := 24, acc := .rw } -- Coefficient, Q2.22 (coefficient registers)
def row_FL_S_B2 : RegRow := { reg := FL_S_B2, fields := [FL_S_B2_COEF] }
/-- FL_S_A1: Software coefficient bank, SW db (spec/02, R83). -/
def FL_S_A1 : Reg := { base := 0x40000040, n1 := 16, s1 := 0x400, own := .rail, db := .sw }
def FL_S_A1_COEF : Fld := { reg := FL_S_A1, lo := 0, n := 24, acc := .rw } -- Coefficient, Q2.22 (coefficient registers)
def row_FL_S_A1 : RegRow := { reg := FL_S_A1, fields := [FL_S_A1_COEF] }
/-- FL_S_A2: Software coefficient bank, SW db (spec/02, R83). -/
def FL_S_A2 : Reg := { base := 0x40000044, n1 := 16, s1 := 0x400, own := .rail, db := .sw }
def FL_S_A2_COEF : Fld := { reg := FL_S_A2, lo := 0, n := 24, acc := .rw } -- Coefficient, Q2.22 (coefficient registers)
def row_FL_S_A2 : RegRow := { reg := FL_S_A2, fields := [FL_S_A2_COEF] }
/-- FL_S_GSH: Software coefficient bank, SW db (spec/02, R83). -/
def FL_S_GSH : Reg := { base := 0x40000048, n1 := 16, s1 := 0x400, own := .rail, db := .sw }
def FL_S_GSH_GSH : Fld := { reg := FL_S_GSH, lo := 0, n := 4, acc := .rw } -- Gain shift, 0 to 15 (FL_S_GSH and FL_G_GSH); bits [31:4] reserved
def row_FL_S_GSH : RegRow := { reg := FL_S_GSH, fields := [FL_S_GSH_GSH] }
/-- FL_G_KI: Grove coefficient bank, grove db (spec/02, R83). -/
def FL_G_KI : Reg := { base := 0x40000050, n1 := 16, s1 := 0x400, own := .rail, db := .grove }
def FL_G_KI_COEF : Fld := { reg := FL_G_KI, lo := 0, n := 24, acc := .rw } -- Coefficient, Q2.22 (coefficient registers)
def row_FL_G_KI : RegRow := { reg := FL_G_KI, fields := [FL_G_KI_COEF] }
/-- FL_G_B0: Grove coefficient bank, grove db (spec/02, R83). -/
def FL_G_B0 : Reg := { base := 0x40000054, n1 := 16, s1 := 0x400, own := .rail, db := .grove }
def FL_G_B0_COEF : Fld := { reg := FL_G_B0, lo := 0, n := 24, acc := .rw } -- Coefficient, Q2.22 (coefficient registers)
def row_FL_G_B0 : RegRow := { reg := FL_G_B0, fields := [FL_G_B0_COEF] }
/-- FL_G_B1: Grove coefficient bank, grove db (spec/02, R83). -/
def FL_G_B1 : Reg := { base := 0x40000058, n1 := 16, s1 := 0x400, own := .rail, db := .grove }
def FL_G_B1_COEF : Fld := { reg := FL_G_B1, lo := 0, n := 24, acc := .rw } -- Coefficient, Q2.22 (coefficient registers)
def row_FL_G_B1 : RegRow := { reg := FL_G_B1, fields := [FL_G_B1_COEF] }
/-- FL_G_B2: Grove coefficient bank, grove db (spec/02, R83). -/
def FL_G_B2 : Reg := { base := 0x4000005C, n1 := 16, s1 := 0x400, own := .rail, db := .grove }
def FL_G_B2_COEF : Fld := { reg := FL_G_B2, lo := 0, n := 24, acc := .rw } -- Coefficient, Q2.22 (coefficient registers)
def row_FL_G_B2 : RegRow := { reg := FL_G_B2, fields := [FL_G_B2_COEF] }
/-- FL_G_A1: Grove coefficient bank, grove db (spec/02, R83). -/
def FL_G_A1 : Reg := { base := 0x40000060, n1 := 16, s1 := 0x400, own := .rail, db := .grove }
def FL_G_A1_COEF : Fld := { reg := FL_G_A1, lo := 0, n := 24, acc := .rw } -- Coefficient, Q2.22 (coefficient registers)
def row_FL_G_A1 : RegRow := { reg := FL_G_A1, fields := [FL_G_A1_COEF] }
/-- FL_G_A2: Grove coefficient bank, grove db (spec/02, R83). -/
def FL_G_A2 : Reg := { base := 0x40000064, n1 := 16, s1 := 0x400, own := .rail, db := .grove }
def FL_G_A2_COEF : Fld := { reg := FL_G_A2, lo := 0, n := 24, acc := .rw } -- Coefficient, Q2.22 (coefficient registers)
def row_FL_G_A2 : RegRow := { reg := FL_G_A2, fields := [FL_G_A2_COEF] }
/-- FL_G_GSH: Grove coefficient bank, grove db (spec/02, R83). -/
def FL_G_GSH : Reg := { base := 0x40000068, n1 := 16, s1 := 0x400, own := .rail, db := .grove }
def FL_G_GSH_GSH : Fld := { reg := FL_G_GSH, lo := 0, n := 4, acc := .rw } -- Gain shift, 0 to 15 (FL_S_GSH and FL_G_GSH); bits [31:4] reserved
def row_FL_G_GSH : RegRow := { reg := FL_G_GSH, fields := [FL_G_GSH_GSH] }
/-- FL_G_LL: Grove load-line slope, grove db (spec/02, R83). -/
def FL_G_LL : Reg := { base := 0x40000070, n1 := 16, s1 := 0x400, own := .rail, db := .grove }
def FL_G_LL_SLOPE : Fld := { reg := FL_G_LL, lo := 0, n := 10, acc := .rw } -- Grove slope, 10 µΩ units; grove path
def row_FL_G_LL : RegRow := { reg := FL_G_LL, fields := [FL_G_LL_SLOPE] }
/-- FL_G_OFS: Grove voltage offset, grove db (spec/02, R83). -/
def FL_G_OFS : Reg := { base := 0x40000074, n1 := 16, s1 := 0x400, own := .rail, db := .grove }
def FL_G_OFS_OFS : Fld := { reg := FL_G_OFS, lo := 0, n := 12, acc := .rw } -- Grove offset, int12, DAC LSB; grove path
def row_FL_G_OFS : RegRow := { reg := FL_G_OFS, fields := [FL_G_OFS_OFS] }
/-- FL_OFS_LIM: Bound on grove offset, SW db (spec/02, R83). -/
def FL_OFS_LIM : Reg := { base := 0x40000078, n1 := 16, s1 := 0x400, own := .rail, db := .sw }
def FL_OFS_LIM_LIM : Fld := { reg := FL_OFS_LIM, lo := 0, n := 12, acc := .rw, bad := [(2048, 4095)] } -- Offset bound, 0 to 2,047 DAC LSB
def row_FL_OFS_LIM : RegRow := { reg := FL_OFS_LIM, fields := [FL_OFS_LIM_LIM] }
/-- FL_STRIKE: Strike settings, SW db (spec/02, R83). -/
def FL_STRIKE : Reg := { base := 0x40000080, n1 := 16, s1 := 0x400, rst := 0x0A641800, own := .rail, db := .sw }
def FL_STRIKE_TH : Fld := { reg := FL_STRIKE, lo := 0, n := 8, acc := .rw } -- Entry threshold, window LSB; 0 disables
def FL_STRIKE_EXIT : Fld := { reg := FL_STRIKE, lo := 8, n := 8, acc := .rw } -- Exit threshold, window LSB (reset 6.00 mV)
def FL_STRIKE_TMAX : Fld := { reg := FL_STRIKE, lo := 16, n := 8, acc := .rw, bad := [(0, 0)] } -- Limit, 4 LCLK (2 ns) units, reset 200 ns; 0 reserved
def FL_STRIKE_HOLDOFF : Fld := { reg := FL_STRIKE, lo := 24, n := 8, acc := .rw } -- Hold-off, 4 LCLK units (reset 20 ns)
def row_FL_STRIKE : RegRow := { reg := FL_STRIKE, fields := [FL_STRIKE_TH, FL_STRIKE_EXIT, FL_STRIKE_TMAX, FL_STRIKE_HOLDOFF] }
/-- FL_RELEASE: Release settings, SW db (spec/02, R83). -/
def FL_RELEASE : Reg := { base := 0x40000084, n1 := 16, s1 := 0x400, rst := 0x0A641800, own := .rail, db := .sw }
def FL_RELEASE_TH : Fld := { reg := FL_RELEASE, lo := 0, n := 8, acc := .rw } -- Entry threshold, window LSB; 0 disables
def FL_RELEASE_EXIT : Fld := { reg := FL_RELEASE, lo := 8, n := 8, acc := .rw } -- Exit threshold, window LSB (reset 6.00 mV)
def FL_RELEASE_TMAX : Fld := { reg := FL_RELEASE, lo := 16, n := 8, acc := .rw, bad := [(0, 0)] } -- Limit, 4 LCLK (2 ns) units, reset 200 ns; 0 reserved
def FL_RELEASE_HOLDOFF : Fld := { reg := FL_RELEASE, lo := 24, n := 8, acc := .rw } -- Hold-off, 4 LCLK units (reset 20 ns)
def row_FL_RELEASE : RegRow := { reg := FL_RELEASE, fields := [FL_RELEASE_TH, FL_RELEASE_EXIT, FL_RELEASE_TMAX, FL_RELEASE_HOLDOFF] }
/-- FL_RESTORE: Restore length, SW db (spec/02, R83). -/
def FL_RESTORE : Reg := { base := 0x40000088, n1 := 16, s1 := 0x400, rst := 0x00000004, own := .rail, db := .sw }
def FL_RESTORE_PERIODS : Fld := { reg := FL_RESTORE, lo := 0, n := 4, acc := .rw, bad := [(0, 0)] } -- Restore length, 1 to 15 switching periods; 0 reserved
def row_FL_RESTORE : RegRow := { reg := FL_RESTORE, fields := [FL_RESTORE_PERIODS] }
/-- FL_FF: Feedforward limits, SW db (spec/02, R83). -/
def FL_FF : Reg := { base := 0x40000090, n1 := 16, s1 := 0x400, rst := 0x00100000, own := .rail, db := .sw }
def FL_FF_FFD_MAX : Fld := { reg := FL_FF, lo := 0, n := 16, acc := .rw } -- Duty-term bound, duty codes
def FL_FF_DECAY : Fld := { reg := FL_FF, lo := 16, n := 8, acc := .rw } -- Withdrawal ramp, 16 LCLK units (reset 128 ns); 0 means one cycle
def FL_FF_FFV_MAX : Fld := { reg := FL_FF, lo := 24, n := 8, acc := .rw } -- Voltage-term bound, DAC LSB
def row_FL_FF : RegRow := { reg := FL_FF, fields := [FL_FF_FFD_MAX, FL_FF_DECAY, FL_FF_FFV_MAX] }
/-- FL_FFNOW: Present feedforward terms (spec/02, R83). -/
def FL_FFNOW : Reg := { base := 0x40000094, n1 := 16, s1 := 0x400, own := .rail }
def FL_FFNOW_FFD : Fld := { reg := FL_FFNOW, lo := 0, n := 18, acc := .ro } -- Present duty term, int18
def FL_FFNOW_FFV : Fld := { reg := FL_FFNOW, lo := 20, n := 9, acc := .ro } -- Present voltage term, int9, DAC LSB
def row_FL_FFNOW : RegRow := { reg := FL_FFNOW, fields := [FL_FFNOW_FFD, FL_FFNOW_FFV] }
/-- FL_CMT: Commit control (spec/02, R83). -/
def FL_CMT : Reg := { base := 0x400000A0, n1 := 16, s1 := 0x400, own := .rail }
def FL_CMT_HOLD : Fld := { reg := FL_CMT, lo := 0, n := 1, acc := .rw } -- 1: software writes wait (R75)
def FL_CMT_VIEW : Fld := { reg := FL_CMT, lo := 1, n := 1, acc := .rw } -- Read view of db registers: 0 shadow, 1 active
def FL_CMT_CLRCNT : Fld := { reg := FL_CMT, lo := 2, n := 1, acc := .wo } -- Writing 1 clears FL_COUNT
def FL_CMT_PEND_SW : Fld := { reg := FL_CMT, lo := 8, n := 1, acc := .ro } -- Software changes pending
def FL_CMT_PEND_GV : Fld := { reg := FL_CMT, lo := 9, n := 1, acc := .ro } -- A grove pass pending
def FL_CMT_COUNT : Fld := { reg := FL_CMT, lo := 16, n := 16, acc := .ro } -- Commit points, modulo 65,536
def row_FL_CMT : RegRow := { reg := FL_CMT, fields := [FL_CMT_HOLD, FL_CMT_VIEW, FL_CMT_CLRCNT, FL_CMT_PEND_SW, FL_CMT_PEND_GV, FL_CMT_COUNT] }
/-- FL_STEER: Stale-steering watchdog (spec/02, R83). -/
def FL_STEER : Reg := { base := 0x400000A4, n1 := 16, s1 := 0x400, rst := 0x00000010, own := .rail }
def FL_STEER_STALE_LIM : Fld := { reg := FL_STEER, lo := 0, n := 8, acc := .rw } -- Commit points before freezing; 0 disables
def FL_STEER_GV_EN : Fld := { reg := FL_STEER, lo := 8, n := 1, acc := .rw } -- 1: grove steering expected
def FL_STEER_STALE : Fld := { reg := FL_STEER, lo := 16, n := 1, acc := .w1c } -- Frozen by the watchdog (R82)
def FL_STEER_GLADE : Fld := { reg := FL_STEER, lo := 17, n := 1, acc := .ro } -- Frozen by Glade
def FL_STEER_AGE : Fld := { reg := FL_STEER, lo := 24, n := 8, acc := .ro } -- Commit points since the last grove pass
def row_FL_STEER : RegRow := { reg := FL_STEER, fields := [FL_STEER_STALE_LIM, FL_STEER_GV_EN, FL_STEER_STALE, FL_STEER_GLADE, FL_STEER_AGE] }
/-- FL_CAUSE: Leaf causes (spec/02, R83). -/
def FL_CAUSE : Reg := { base := 0x400000B0, n1 := 16, s1 := 0x400, own := .rail }
def FL_CAUSE_STRIKE : Fld := { reg := FL_CAUSE, lo := 0, n := 1, acc := .w1c } -- A strike began
def FL_CAUSE_RELEASE : Fld := { reg := FL_CAUSE, lo := 1, n := 1, acc := .w1c } -- A release began
def FL_CAUSE_STRIKE_TMAX : Fld := { reg := FL_CAUSE, lo := 2, n := 1, acc := .w1c } -- A strike reached TMAX
def FL_CAUSE_REL_TMAX : Fld := { reg := FL_CAUSE, lo := 3, n := 1, acc := .w1c } -- A release reached TMAX
def FL_CAUSE_OVR_PERSIST : Fld := { reg := FL_CAUSE, lo := 4, n := 1, acc := .w1c } -- Over-range run reached FL_OVR.LIM
def FL_CAUSE_DSAT : Fld := { reg := FL_CAUSE, lo := 5, n := 1, acc := .w1c } -- Duty held at DMAX or DMIN for a whole lead-phase period between commit points (R708)
def FL_CAUSE_STALE : Fld := { reg := FL_CAUSE, lo := 6, n := 1, acc := .w1c } -- Watchdog froze the rail
def FL_CAUSE_DISCARD : Fld := { reg := FL_CAUSE, lo := 7, n := 1, acc := .w1c } -- A grove pass was discarded while frozen
def FL_CAUSE_CLAMP : Fld := { reg := FL_CAUSE, lo := 8, n := 1, acc := .w1c } -- A grove value was bounded (R54)
def FL_CAUSE_LOCK_ERR : Fld := { reg := FL_CAUSE, lo := 14, n := 1, acc := .w1c } -- Write to FL_IPRE while locked
def FL_CAUSE_ACC_ERR : Fld := { reg := FL_CAUSE, lo := 15, n := 1, acc := .w1c } -- Reserved encoding (R14) or wrong-path write (R22), including such writes to the per-rail PH_ registers of the rail (R705)
def row_FL_CAUSE : RegRow := { reg := FL_CAUSE, fields := [FL_CAUSE_STRIKE, FL_CAUSE_RELEASE, FL_CAUSE_STRIKE_TMAX, FL_CAUSE_REL_TMAX, FL_CAUSE_OVR_PERSIST, FL_CAUSE_DSAT, FL_CAUSE_STALE, FL_CAUSE_DISCARD, FL_CAUSE_CLAMP, FL_CAUSE_LOCK_ERR, FL_CAUSE_ACC_ERR] }
/-- FL_CAUSE_EN: Cause enables to the bough (spec/02, R83). -/
def FL_CAUSE_EN : Reg := { base := 0x400000B4, n1 := 16, s1 := 0x400, own := .rail }
def FL_CAUSE_EN_STRIKE : Fld := { reg := FL_CAUSE_EN, lo := 0, n := 1, acc := .rw } -- A strike began
def FL_CAUSE_EN_RELEASE : Fld := { reg := FL_CAUSE_EN, lo := 1, n := 1, acc := .rw } -- A release began
def FL_CAUSE_EN_STRIKE_TMAX : Fld := { reg := FL_CAUSE_EN, lo := 2, n := 1, acc := .rw } -- A strike reached TMAX
def FL_CAUSE_EN_REL_TMAX : Fld := { reg := FL_CAUSE_EN, lo := 3, n := 1, acc := .rw } -- A release reached TMAX
def FL_CAUSE_EN_OVR_PERSIST : Fld := { reg := FL_CAUSE_EN, lo := 4, n := 1, acc := .rw } -- Over-range run reached FL_OVR.LIM
def FL_CAUSE_EN_DSAT : Fld := { reg := FL_CAUSE_EN, lo := 5, n := 1, acc := .rw } -- Duty held at DMAX or DMIN for a whole lead-phase period between commit points (R708)
def FL_CAUSE_EN_STALE : Fld := { reg := FL_CAUSE_EN, lo := 6, n := 1, acc := .rw } -- Watchdog froze the rail
def FL_CAUSE_EN_DISCARD : Fld := { reg := FL_CAUSE_EN, lo := 7, n := 1, acc := .rw } -- A grove pass was discarded while frozen
def FL_CAUSE_EN_CLAMP : Fld := { reg := FL_CAUSE_EN, lo := 8, n := 1, acc := .rw } -- A grove value was bounded (R54)
def FL_CAUSE_EN_LOCK_ERR : Fld := { reg := FL_CAUSE_EN, lo := 14, n := 1, acc := .rw } -- Write to FL_IPRE while locked
def FL_CAUSE_EN_ACC_ERR : Fld := { reg := FL_CAUSE_EN, lo := 15, n := 1, acc := .rw } -- Reserved encoding (R14) or wrong-path write (R22), including such writes to the per-rail PH_ registers of the rail (R705)
def row_FL_CAUSE_EN : RegRow := { reg := FL_CAUSE_EN, fields := [FL_CAUSE_EN_STRIKE, FL_CAUSE_EN_RELEASE, FL_CAUSE_EN_STRIKE_TMAX, FL_CAUSE_EN_REL_TMAX, FL_CAUSE_EN_OVR_PERSIST, FL_CAUSE_EN_DSAT, FL_CAUSE_EN_STALE, FL_CAUSE_EN_DISCARD, FL_CAUSE_EN_CLAMP, FL_CAUSE_EN_LOCK_ERR, FL_CAUSE_EN_ACC_ERR] }
/-- FL_OVR: Over-range persistence (spec/02, R83). -/
def FL_OVR : Reg := { base := 0x400000B8, n1 := 16, s1 := 0x400, rst := 0x00000100, own := .rail }
def FL_OVR_LIM : Fld := { reg := FL_OVR, lo := 0, n := 16, acc := .rw } -- Over-range run, LCLK cycles (reset 128 ns); 0 disables
def row_FL_OVR : RegRow := { reg := FL_OVR, fields := [FL_OVR_LIM] }
/-- FL_INT_LO: Integrator bits [31:0] (spec/02, R83). -/
def FL_INT_LO : Reg := { base := 0x400000C0, n1 := 16, s1 := 0x400, own := .rail }
def FL_INT_LO_INT : Fld := { reg := FL_INT_LO, lo := 0, n := 32, acc := .ro } -- Integrator bits [31:0] of the status snapshot; reading captures bits [39:32] of the same value (R709)
def row_FL_INT_LO : RegRow := { reg := FL_INT_LO, fields := [FL_INT_LO_INT] }
/-- FL_INT_HI: Integrator bits [39:32] (spec/02, R83). -/
def FL_INT_HI : Reg := { base := 0x400000C4, n1 := 16, s1 := 0x400, own := .rail }
def FL_INT_HI_INT : Fld := { reg := FL_INT_HI, lo := 0, n := 8, acc := .ro } -- Integrator bits [39:32] of the value whose bits [31:0] the last FL_INT_LO read returned
def row_FL_INT_HI : RegRow := { reg := FL_INT_HI, fields := [FL_INT_HI_INT] }
/-- FL_DUTY: Present duty command (spec/02, R83). -/
def FL_DUTY : Reg := { base := 0x400000C8, n1 := 16, s1 := 0x400, own := .rail }
def FL_DUTY_D : Fld := { reg := FL_DUTY, lo := 0, n := 16, acc := .ro } -- Present duty command
def row_FL_DUTY : RegRow := { reg := FL_DUTY, fields := [FL_DUTY_D] }
/-- FL_ERR: Present error (spec/02, R83). -/
def FL_ERR : Reg := { base := 0x400000CC, n1 := 16, s1 := 0x400, own := .rail }
def FL_ERR_X : Fld := { reg := FL_ERR, lo := 0, n := 18, acc := .ro } -- Present error, int18, F
def row_FL_ERR : RegRow := { reg := FL_ERR, fields := [FL_ERR_X] }
/-- FL_ISUM: Summed phase current (spec/02, R83). -/
def FL_ISUM : Reg := { base := 0x400000D0, n1 := 16, s1 := 0x400, own := .rail }
def FL_ISUM_ISUM : Fld := { reg := FL_ISUM, lo := 0, n := 16, acc := .ro } -- Summed current, int16, 0.25 A
def row_FL_ISUM : RegRow := { reg := FL_ISUM, fields := [FL_ISUM_ISUM] }
/-- FL_DROOP: Present load-line drop (spec/02, R83). -/
def FL_DROOP : Reg := { base := 0x400000D4, n1 := 16, s1 := 0x400, own := .rail }
def FL_DROOP_DROOP : Fld := { reg := FL_DROOP, lo := 0, n := 20, acc := .ro } -- Present drop, int20, F
def row_FL_DROOP : RegRow := { reg := FL_DROOP, fields := [FL_DROOP_DROOP] }
/-- FL_COUNT: Strike and release counts (spec/02, R83). -/
def FL_COUNT : Reg := { base := 0x400000E0, n1 := 16, s1 := 0x400, own := .rail }
def FL_COUNT_STRIKES : Fld := { reg := FL_COUNT, lo := 0, n := 16, acc := .ro } -- Entries to STRIKE from any state (R62), saturating at 65,535
def FL_COUNT_RELEASES : Fld := { reg := FL_COUNT, lo := 16, n := 16, acc := .ro } -- Entries to RELEASE from any state (R62), saturating at 65,535
def row_FL_COUNT : RegRow := { reg := FL_COUNT, fields := [FL_COUNT_STRIKES, FL_COUNT_RELEASES] }
/-- FL_BOUGH: One bit per rail with an enabled cause; not an instance register (spec/02, R83). -/
def FL_BOUGH : Reg := { base := 0x40004000 }
def FL_BOUGH_RAIL : Fld := { reg := FL_BOUGH, lo := 0, n := 16, acc := .ro } -- Bit n: rail n has an enabled cause
def row_FL_BOUGH : RegRow := { reg := FL_BOUGH, fields := [FL_BOUGH_RAIL] }
/-- PH_ROLE: Role and rail (R111) (spec/03, R134). -/
def PH_ROLE : Reg := { base := 0x40010000, n1 := 64, s1 := 0x100, own := .phase }
def PH_ROLE_ROLE : Fld := { reg := PH_ROLE, lo := 0, n := 2, acc := .rwl, bad := [(3, 3)] } -- 0 none, 1 rail, 2 store, 3 reserved
def PH_ROLE_RAIL : Fld := { reg := PH_ROLE, lo := 4, n := 4, acc := .rwl } -- Rail, when ROLE is 1
def PH_ROLE_STIDX : Fld := { reg := PH_ROLE, lo := 8, n := 2, acc := .rwl } -- Store phase index, when ROLE is 2
def row_PH_ROLE : RegRow := { reg := PH_ROLE, fields := [PH_ROLE_ROLE, PH_ROLE_RAIL, PH_ROLE_STIDX] }
/-- PH_CFG: Phase options, SW db (spec/03, R134). -/
def PH_CFG : Reg := { base := 0x40010004, n1 := 64, s1 := 0x100, rst := 0x03041010, own := .phase, db := .sw }
def PH_CFG_TON_MIN : Fld := { reg := PH_CFG, lo := 0, n := 8, acc := .rw } -- Shortest pulse, LCLK cycles (reset 8 ns)
def PH_CFG_TOFF_MIN : Fld := { reg := PH_CFG, lo := 8, n := 8, acc := .rw } -- Shortest off-time, LCLK cycles (reset 8 ns)
def PH_CFG_ZCTH : Fld := { reg := PH_CFG, lo := 16, n := 6, acc := .rw } -- Non-sink threshold, 0.25 A (reset 1 A)
def PH_CFG_ANG_SRC : Fld := { reg := PH_CFG, lo := 22, n := 1, acc := .rw } -- Angle: 0 PH_ANG, 1 PH_G_ANG
def PH_CFG_SHARE_SRC : Fld := { reg := PH_CFG, lo := 23, n := 1, acc := .rw } -- Weight: 0 PH_SHARE, 1 PH_G_SHARE
def PH_CFG_EQ_EN : Fld := { reg := PH_CFG, lo := 24, n := 1, acc := .rw } -- 1: equalisation runs
def PH_CFG_CAL_AUTO : Fld := { reg := PH_CFG, lo := 25, n := 1, acc := .rw } -- 1: calibration from descriptor (R104)
def PH_CFG_NOSTAGE : Fld := { reg := PH_CFG, lo := 26, n := 1, acc := .rw } -- 1: phase may arm without a mapped stage
def PH_CFG_EN_DLY : Fld := { reg := PH_CFG, lo := 27, n := 5, acc := .rw } -- Arming delay with NOSTAGE, 4 µs units; 0: ARMED at the first PCLK edge after ENnn rises, for a stage that needs no enable delay
def row_PH_CFG : RegRow := { reg := PH_CFG, fields := [PH_CFG_TON_MIN, PH_CFG_TOFF_MIN, PH_CFG_ZCTH, PH_CFG_ANG_SRC, PH_CFG_SHARE_SRC, PH_CFG_EQ_EN, PH_CFG_CAL_AUTO, PH_CFG_NOSTAGE, PH_CFG_EN_DLY] }
/-- PH_ANG: Software angle, SW db (spec/03, R134). -/
def PH_ANG : Reg := { base := 0x40010008, n1 := 64, s1 := 0x100, own := .phase, db := .sw }
def PH_ANG_ANG : Fld := { reg := PH_ANG, lo := 0, n := 16, acc := .rw } -- Angle, 1/65,536 period; software path
def row_PH_ANG : RegRow := { reg := PH_ANG, fields := [PH_ANG_ANG] }
/-- PH_G_ANG: Grove angle, grove db (spec/03, R134). -/
def PH_G_ANG : Reg := { base := 0x4001000C, n1 := 64, s1 := 0x100, own := .phase, db := .grove }
def PH_G_ANG_ANG : Fld := { reg := PH_G_ANG, lo := 0, n := 16, acc := .rw } -- Angle, 1/65,536 period; grove path
def row_PH_G_ANG : RegRow := { reg := PH_G_ANG, fields := [PH_G_ANG_ANG] }
/-- PH_ISCAL: Sense calibration, SW db (spec/03, R134). -/
def PH_ISCAL : Reg := { base := 0x40010010, n1 := 64, s1 := 0x100, rst := 0x10001000, own := .phase, db := .sw }
def PH_ISCAL_GAIN : Fld := { reg := PH_ISCAL, lo := 0, n := 16, acc := .rw } -- Calibration gain, uint16, 2^-14
def PH_ISCAL_OFS : Fld := { reg := PH_ISCAL, lo := 16, n := 12, acc := .rw } -- Offset, int12, raw LSB
def PH_ISCAL_RANGE : Fld := { reg := PH_ISCAL, lo := 28, n := 2, acc := .rw, bad := [(3, 3)] } -- Input range (R103)
def row_PH_ISCAL : RegRow := { reg := PH_ISCAL, fields := [PH_ISCAL_GAIN, PH_ISCAL_OFS, PH_ISCAL_RANGE] }
/-- PH_SHARE: Software share weight, SW db (spec/03, R134). -/
def PH_SHARE : Reg := { base := 0x40010014, n1 := 64, s1 := 0x100, rst := 0x00000100, own := .phase, db := .sw }
def PH_SHARE_W : Fld := { reg := PH_SHARE, lo := 0, n := 9, acc := .rw } -- Share weight, 256 = 1.0; software path
def row_PH_SHARE : RegRow := { reg := PH_SHARE, fields := [PH_SHARE_W] }
/-- PH_G_SHARE: Grove share weight, grove db (spec/03, R134). -/
def PH_G_SHARE : Reg := { base := 0x40010018, n1 := 64, s1 := 0x100, rst := 0x00000100, own := .phase, db := .grove }
def PH_G_SHARE_W : Fld := { reg := PH_G_SHARE, lo := 0, n := 9, acc := .rw } -- Share weight, 256 = 1.0; grove path
def row_PH_G_SHARE : RegRow := { reg := PH_G_SHARE, fields := [PH_G_SHARE_W] }
/-- PH_EQ: Equalisation gain and bound, SW db (spec/03, R134). -/
def PH_EQ : Reg := { base := 0x4001001C, n1 := 64, s1 := 0x100, rst := 0x00020008, own := .phase, db := .sw }
def PH_EQ_KEQ : Fld := { reg := PH_EQ, lo := 0, n := 8, acc := .rw } -- Equalisation gain (R107)
def PH_EQ_LIM : Fld := { reg := PH_EQ, lo := 8, n := 12, acc := .rw, bad := [(2048, 4095)] } -- Trim bound, 0 to 2,047 duty codes
def row_PH_EQ : RegRow := { reg := PH_EQ, fields := [PH_EQ_KEQ, PH_EQ_LIM] }
/-- PH_CTL: Commands (spec/03, R134). -/
def PH_CTL : Reg := { base := 0x40010020, n1 := 64, s1 := 0x100, own := .phase }
def PH_CTL_AZ : Fld := { reg := PH_CTL, lo := 0, n := 1, acc := .wo } -- Writing 1 starts auto-zero (R105)
def PH_CTL_CLR_FAIL : Fld := { reg := PH_CTL, lo := 1, n := 1, acc := .wo } -- Writing 1 leaves FAILED
def PH_CTL_CLRCNT : Fld := { reg := PH_CTL, lo := 2, n := 1, acc := .wo } -- Writing 1 clears PH_COUNT
def row_PH_CTL : RegRow := { reg := PH_CTL, fields := [PH_CTL_AZ, PH_CTL_CLR_FAIL, PH_CTL_CLRCNT] }
/-- PH_STATUS: State and live flags (spec/03, R134). -/
def PH_STATUS : Reg := { base := 0x40010024, n1 := 64, s1 := 0x100, own := .phase }
def PH_STATUS_STATE : Fld := { reg := PH_STATUS, lo := 0, n := 3, acc := .ro } -- 0 IDLE, 1 TONE, 2 ARMING, 3 ARMED, 4 SWITCHING, 5 SHED, 6 HELD, 7 FAILED
def PH_STATUS_PWM : Fld := { reg := PH_STATUS, lo := 3, n := 2, acc := .ro } -- 0 TRI, 1 LOW, 2 HIGH
def PH_STATUS_EN : Fld := { reg := PH_STATUS, lo := 5, n := 1, acc := .ro } -- ENnn level
def PH_STATUS_NS_TRI : Fld := { reg := PH_STATUS, lo := 6, n := 1, acc := .ro } -- TRI under R93
def PH_STATUS_CBC : Fld := { reg := PH_STATUS, lo := 7, n := 1, acc := .ro } -- Current limit acted in this period
def PH_STATUS_OVR : Fld := { reg := PH_STATUS, lo := 8, n := 1, acc := .ro } -- Newest current sample over-range
def PH_STATUS_EQ_HOLD : Fld := { reg := PH_STATUS, lo := 9, n := 1, acc := .ro } -- Trim not updated: the phase is not SWITCHING, its rail is frozen, or PH_CFG.EQ_EN is 0 (R109)
def PH_STATUS_ANG_SLEW : Fld := { reg := PH_STATUS, lo := 10, n := 1, acc := .ro } -- Active angle differs from target
def PH_STATUS_AZ_BUSY : Fld := { reg := PH_STATUS, lo := 11, n := 1, acc := .ro } -- Auto-zero running (R105)
def row_PH_STATUS : RegRow := { reg := PH_STATUS, fields := [PH_STATUS_STATE, PH_STATUS_PWM, PH_STATUS_EN, PH_STATUS_NS_TRI, PH_STATUS_CBC, PH_STATUS_OVR, PH_STATUS_EQ_HOLD, PH_STATUS_ANG_SLEW, PH_STATUS_AZ_BUSY] }
/-- PH_IMEAS: Current (spec/03, R134). -/
def PH_IMEAS : Reg := { base := 0x40010028, n1 := 64, s1 := 0x100, own := .phase }
def PH_IMEAS_I : Fld := { reg := PH_IMEAS, lo := 0, n := 10, acc := .ro } -- Newest current, int10, 0.25 A
def PH_IMEAS_OVR : Fld := { reg := PH_IMEAS, lo := 10, n := 1, acc := .ro } -- I is over-range
def PH_IMEAS_IAVG : Fld := { reg := PH_IMEAS, lo := 16, n := 16, acc := .ro } -- Period mean, int16, 1/64 A (R106)
def row_PH_IMEAS : RegRow := { reg := PH_IMEAS, fields := [PH_IMEAS_I, PH_IMEAS_OVR, PH_IMEAS_IAVG] }
/-- PH_EQNOW: Present trim and weight (spec/03, R134). -/
def PH_EQNOW : Reg := { base := 0x4001002C, n1 := 64, s1 := 0x100, own := .phase }
def PH_EQNOW_EQ : Fld := { reg := PH_EQNOW, lo := 0, n := 12, acc := .ro } -- Trim, int12, duty codes
def PH_EQNOW_WEFF : Fld := { reg := PH_EQNOW, lo := 16, n := 9, acc := .ro } -- Effective weight
def row_PH_EQNOW : RegRow := { reg := PH_EQNOW, fields := [PH_EQNOW_EQ, PH_EQNOW_WEFF] }
/-- PH_ANGNOW: Present and target angle (spec/03, R134). -/
def PH_ANGNOW : Reg := { base := 0x40010030, n1 := 64, s1 := 0x100, own := .phase }
def PH_ANGNOW_ANG : Fld := { reg := PH_ANGNOW, lo := 0, n := 16, acc := .ro } -- Active angle
def PH_ANGNOW_TGT : Fld := { reg := PH_ANGNOW, lo := 16, n := 16, acc := .ro } -- Committed target angle
def row_PH_ANGNOW : RegRow := { reg := PH_ANGNOW, fields := [PH_ANGNOW_ANG, PH_ANGNOW_TGT] }
/-- PH_STAGE: Mapped stage (spec/03, R134). -/
def PH_STAGE : Reg := { base := 0x40010034, n1 := 64, s1 := 0x100, own := .phase }
def PH_STAGE_MAPPED : Fld := { reg := PH_STAGE, lo := 0, n := 1, acc := .ro } -- A stage is mapped
def PH_STAGE_DESC_OK : Fld := { reg := PH_STAGE, lo := 1, n := 1, acc := .ro } -- Its descriptor is accepted
def PH_STAGE_CONFLICT : Fld := { reg := PH_STAGE, lo := 2, n := 1, acc := .ro } -- Tone answered by more than one stage
def PH_STAGE_LOST : Fld := { reg := PH_STAGE, lo := 3, n := 1, acc := .ro } -- Stage lost (R121)
def PH_STAGE_BUS : Fld := { reg := PH_STAGE, lo := 4, n := 2, acc := .ro } -- Stage bus
def PH_STAGE_DADDR : Fld := { reg := PH_STAGE, lo := 6, n := 7, acc := .ro } -- Dynamic address
def PH_STAGE_TEMP : Fld := { reg := PH_STAGE, lo := 16, n := 13, acc := .ro } -- Stage temperature, int13, 1/16 °C
def row_PH_STAGE : RegRow := { reg := PH_STAGE, fields := [PH_STAGE_MAPPED, PH_STAGE_DESC_OK, PH_STAGE_CONFLICT, PH_STAGE_LOST, PH_STAGE_BUS, PH_STAGE_DADDR, PH_STAGE_TEMP] }
/-- PH_SFAULT: Last stage fault report (spec/03, R134). -/
def PH_SFAULT : Reg := { base := 0x40010038, n1 := 64, s1 := 0x100, own := .phase }
def PH_SFAULT_FAULT : Fld := { reg := PH_SFAULT, lo := 0, n := 8, acc := .ro } -- Last FAULT byte reported by the stage
def row_PH_SFAULT : RegRow := { reg := PH_SFAULT, fields := [PH_SFAULT_FAULT] }
/-- PH_CAUSE: Leaf causes (spec/03, R134). -/
def PH_CAUSE : Reg := { base := 0x4001003C, n1 := 64, s1 := 0x100, own := .phase }
def PH_CAUSE_IOVR : Fld := { reg := PH_CAUSE, lo := 1, n := 1, acc := .w1c } -- Current sample over-range
def PH_CAUSE_CLAMP : Fld := { reg := PH_CAUSE, lo := 2, n := 1, acc := .w1c } -- Grove value bounded
def PH_CAUSE_STAGE_FAULT : Fld := { reg := PH_CAUSE, lo := 3, n := 1, acc := .w1c } -- Stage fault report
def PH_CAUSE_STAGE_LOST : Fld := { reg := PH_CAUSE, lo := 4, n := 1, acc := .w1c } -- Stage lost
def PH_CAUSE_STAGE_TEMP : Fld := { reg := PH_CAUSE, lo := 5, n := 1, acc := .w1c } -- T_WARN or T_LIMIT crossed
def PH_CAUSE_DESC_BAD : Fld := { reg := PH_CAUSE, lo := 6, n := 1, acc := .w1c } -- Descriptor refused
def PH_CAUSE_CONFLICT : Fld := { reg := PH_CAUSE, lo := 7, n := 1, acc := .w1c } -- Tone conflict
def PH_CAUSE_EQ_SAT : Fld := { reg := PH_CAUSE, lo := 8, n := 1, acc := .w1c } -- Trim at bound for 64 periods
def PH_CAUSE_AZ_DONE : Fld := { reg := PH_CAUSE, lo := 9, n := 1, acc := .w1c } -- Auto-zero complete
def PH_CAUSE_LOCK_ERR : Fld := { reg := PH_CAUSE, lo := 14, n := 1, acc := .w1c } -- PH_ROLE write while not IDLE
def PH_CAUSE_ACC_ERR : Fld := { reg := PH_CAUSE, lo := 15, n := 1, acc := .w1c } -- Reserved encoding, wrong-path write or refused command
def row_PH_CAUSE : RegRow := { reg := PH_CAUSE, fields := [PH_CAUSE_IOVR, PH_CAUSE_CLAMP, PH_CAUSE_STAGE_FAULT, PH_CAUSE_STAGE_LOST, PH_CAUSE_STAGE_TEMP, PH_CAUSE_DESC_BAD, PH_CAUSE_CONFLICT, PH_CAUSE_EQ_SAT, PH_CAUSE_AZ_DONE, PH_CAUSE_LOCK_ERR, PH_CAUSE_ACC_ERR] }
/-- PH_CAUSE_EN: Cause enables to the bough (spec/03, R134). -/
def PH_CAUSE_EN : Reg := { base := 0x40010040, n1 := 64, s1 := 0x100, own := .phase }
def PH_CAUSE_EN_IOVR : Fld := { reg := PH_CAUSE_EN, lo := 1, n := 1, acc := .rw } -- Current sample over-range
def PH_CAUSE_EN_CLAMP : Fld := { reg := PH_CAUSE_EN, lo := 2, n := 1, acc := .rw } -- Grove value bounded
def PH_CAUSE_EN_STAGE_FAULT : Fld := { reg := PH_CAUSE_EN, lo := 3, n := 1, acc := .rw } -- Stage fault report
def PH_CAUSE_EN_STAGE_LOST : Fld := { reg := PH_CAUSE_EN, lo := 4, n := 1, acc := .rw } -- Stage lost
def PH_CAUSE_EN_STAGE_TEMP : Fld := { reg := PH_CAUSE_EN, lo := 5, n := 1, acc := .rw } -- T_WARN or T_LIMIT crossed
def PH_CAUSE_EN_DESC_BAD : Fld := { reg := PH_CAUSE_EN, lo := 6, n := 1, acc := .rw } -- Descriptor refused
def PH_CAUSE_EN_CONFLICT : Fld := { reg := PH_CAUSE_EN, lo := 7, n := 1, acc := .rw } -- Tone conflict
def PH_CAUSE_EN_EQ_SAT : Fld := { reg := PH_CAUSE_EN, lo := 8, n := 1, acc := .rw } -- Trim at bound for 64 periods
def PH_CAUSE_EN_AZ_DONE : Fld := { reg := PH_CAUSE_EN, lo := 9, n := 1, acc := .rw } -- Auto-zero complete
def PH_CAUSE_EN_LOCK_ERR : Fld := { reg := PH_CAUSE_EN, lo := 14, n := 1, acc := .rw } -- PH_ROLE write while not IDLE
def PH_CAUSE_EN_ACC_ERR : Fld := { reg := PH_CAUSE_EN, lo := 15, n := 1, acc := .rw } -- Reserved encoding, wrong-path write or refused command
def row_PH_CAUSE_EN : RegRow := { reg := PH_CAUSE_EN, fields := [PH_CAUSE_EN_IOVR, PH_CAUSE_EN_CLAMP, PH_CAUSE_EN_STAGE_FAULT, PH_CAUSE_EN_STAGE_LOST, PH_CAUSE_EN_STAGE_TEMP, PH_CAUSE_EN_DESC_BAD, PH_CAUSE_EN_CONFLICT, PH_CAUSE_EN_EQ_SAT, PH_CAUSE_EN_AZ_DONE, PH_CAUSE_EN_LOCK_ERR, PH_CAUSE_EN_ACC_ERR] }
/-- PH_COUNT: Skip and current-limit counts (spec/03, R134). -/
def PH_COUNT : Reg := { base := 0x40010044, n1 := 64, s1 := 0x100, own := .phase }
def PH_COUNT_SKIPS : Fld := { reg := PH_COUNT, lo := 0, n := 16, acc := .ro } -- Skipped periods, saturating
def PH_COUNT_CBC : Fld := { reg := PH_COUNT, lo := 16, n := 16, acc := .ro } -- Current-limit trips, saturating
def row_PH_COUNT : RegRow := { reg := PH_COUNT, fields := [PH_COUNT_SKIPS, PH_COUNT_CBC] }
/-- PH_RAW: Newest raw sense code (spec/03, R134). -/
def PH_RAW : Reg := { base := 0x40010048, n1 := 64, s1 := 0x100, own := .phase }
def PH_RAW_RAW : Fld := { reg := PH_RAW, lo := 0, n := 12, acc := .ro } -- Newest raw code, int12
def row_PH_RAW : RegRow := { reg := PH_RAW, fields := [PH_RAW_RAW] }
/-- PH_RPER: Rail period target, SW db (spec/03, R134). -/
def PH_RPER : Reg := { base := 0x40014000, n1 := 16, s1 := 0x400, rst := 0x00007D00, own := .rail, db := .sw }
def PH_RPER_PER : Fld := { reg := PH_RPER, lo := 0, n := 17, acc := .rw, bad := [(0, 3999), (128001, 131071)] } -- Half-period target, taps (reset 1 MHz)
def PH_RPER_SRC : Fld := { reg := PH_RPER, lo := 31, n := 1, acc := .rw } -- Target: 0 PH_RPER, 1 PH_G_RPER
def row_PH_RPER : RegRow := { reg := PH_RPER, fields := [PH_RPER_PER, PH_RPER_SRC] }
/-- PH_G_RPER: Rail period target, grove db (spec/03, R134). -/
def PH_G_RPER : Reg := { base := 0x40014004, n1 := 16, s1 := 0x400, rst := 0x00007D00, own := .rail, db := .grove }
def PH_G_RPER_PER : Fld := { reg := PH_G_RPER, lo := 0, n := 17, acc := .rw, bad := [(0, 3999), (128001, 131071)] } -- Half-period target, taps; grove path
def row_PH_G_RPER : RegRow := { reg := PH_G_RPER, fields := [PH_G_RPER_PER] }
/-- PH_RPER_MIN: Lowest half-period, SW db (spec/03, R134). -/
def PH_RPER_MIN : Reg := { base := 0x40014008, n1 := 16, s1 := 0x400, rst := 0x00000FA0, own := .rail, db := .sw }
def PH_RPER_MIN_PER : Fld := { reg := PH_RPER_MIN, lo := 0, n := 17, acc := .rw, bad := [(0, 3999), (128001, 131071)] } -- Lowest half-period, taps
def row_PH_RPER_MIN : RegRow := { reg := PH_RPER_MIN, fields := [PH_RPER_MIN_PER] }
/-- PH_RPER_MAX: Highest half-period, SW db (spec/03, R134). -/
def PH_RPER_MAX : Reg := { base := 0x4001400C, n1 := 16, s1 := 0x400, rst := 0x0001F400, own := .rail, db := .sw }
def PH_RPER_MAX_PER : Fld := { reg := PH_RPER_MAX, lo := 0, n := 17, acc := .rw, bad := [(0, 3999), (128001, 131071)] } -- Highest half-period, taps
def row_PH_RPER_MAX : RegRow := { reg := PH_RPER_MAX, fields := [PH_RPER_MAX_PER] }
/-- PH_RLOCK: Lock steps, SW db (spec/03, R134). -/
def PH_RLOCK : Reg := { base := 0x40014010, n1 := 16, s1 := 0x400, rst := 0x01000040, own := .rail, db := .sw }
def PH_RLOCK_FSTEP : Fld := { reg := PH_RLOCK, lo := 0, n := 12, acc := .rw } -- Largest H change per commit point, taps; 0 one step
def PH_RLOCK_ASTEP : Fld := { reg := PH_RLOCK, lo := 16, n := 12, acc := .rw } -- Largest angle step per valley, 1/65,536 period
def row_PH_RLOCK : RegRow := { reg := PH_RLOCK, fields := [PH_RLOCK_FSTEP, PH_RLOCK_ASTEP] }
/-- PH_RPERNOW: Active half-period; equals the target from the LCLK cycle after reset (R100) (spec/03, R134). -/
def PH_RPERNOW : Reg := { base := 0x40014014, n1 := 16, s1 := 0x400, rst := 0x80007D00, own := .rail }
def PH_RPERNOW_PER : Fld := { reg := PH_RPERNOW, lo := 0, n := 17, acc := .ro } -- Active half-period, taps (R100)
def PH_RPERNOW_BOUND : Fld := { reg := PH_RPERNOW, lo := 29, n := 1, acc := .ro } -- Grove target bounded by MIN or MAX
def PH_RPERNOW_STAGE : Fld := { reg := PH_RPERNOW, lo := 30, n := 1, acc := .ro } -- Target bounded by a stage's FSW_MAX
def PH_RPERNOW_LOCKED : Fld := { reg := PH_RPERNOW, lo := 31, n := 1, acc := .ro } -- Active equals target
def row_PH_RPERNOW : RegRow := { reg := PH_RPERNOW, fields := [PH_RPERNOW_PER, PH_RPERNOW_BOUND, PH_RPERNOW_STAGE, PH_RPERNOW_LOCKED] }
/-- PH_SB_CFG: Bus options (spec/03, R134). -/
def PH_SB_CFG : Reg := { base := 0x40018000, n1 := 4, s1 := 0x40, rst := 0x030A0807 }
def PH_SB_CFG_EN : Fld := { reg := PH_SB_CFG, lo := 0, n := 1, acc := .rw } -- Bus enabled; 0 to 1 starts roll call
def PH_SB_CFG_HJ_EN : Fld := { reg := PH_SB_CFG, lo := 1, n := 1, acc := .rw } -- Hot-Join accepted
def PH_SB_CFG_AUTO_MAP : Fld := { reg := PH_SB_CFG, lo := 2, n := 1, acc := .rw } -- Tone mapping after roll call
def PH_SB_CFG_SCL_DIV : Fld := { reg := PH_SB_CFG, lo := 8, n := 8, acc := .rw, bad := [(0, 7)] } -- SCL = PCLK / (2 × SCL_DIV); 0 to 7 reserved
def PH_SB_CFG_ROLL_MS : Fld := { reg := PH_SB_CFG, lo := 16, n := 8, acc := .rw } -- Presence period, ms; 0 disables
def PH_SB_CFG_MISS : Fld := { reg := PH_SB_CFG, lo := 24, n := 4, acc := .rw, bad := [(0, 0)] } -- Misses before lost; 0 reserved
def row_PH_SB_CFG : RegRow := { reg := PH_SB_CFG, fields := [PH_SB_CFG_EN, PH_SB_CFG_HJ_EN, PH_SB_CFG_AUTO_MAP, PH_SB_CFG_SCL_DIV, PH_SB_CFG_ROLL_MS, PH_SB_CFG_MISS] }
/-- PH_SB_STATUS: Bus status (spec/03, R134). -/
def PH_SB_STATUS : Reg := { base := 0x40018004, n1 := 4, s1 := 0x40 }
def PH_SB_STATUS_NTGT : Fld := { reg := PH_SB_STATUS, lo := 0, n := 5, acc := .ro } -- Targets with addresses, 0 to 16
def PH_SB_STATUS_BUSY : Fld := { reg := PH_SB_STATUS, lo := 8, n := 1, acc := .ro } -- A transfer in progress
def PH_SB_STATUS_ROLL : Fld := { reg := PH_SB_STATUS, lo := 9, n := 1, acc := .ro } -- Roll call in progress
def row_PH_SB_STATUS : RegRow := { reg := PH_SB_STATUS, fields := [PH_SB_STATUS_NTGT, PH_SB_STATUS_BUSY, PH_SB_STATUS_ROLL] }
/-- PH_SB_CAUSE: Bus leaf causes (spec/03, R134). -/
def PH_SB_CAUSE : Reg := { base := 0x40018008, n1 := 4, s1 := 0x40 }
def PH_SB_CAUSE_HJ : Fld := { reg := PH_SB_CAUSE, lo := 0, n := 1, acc := .w1c } -- Hot-Join received
def PH_SB_CAUSE_NEW : Fld := { reg := PH_SB_CAUSE, lo := 1, n := 1, acc := .w1c } -- New stage accepted
def PH_SB_CAUSE_LOST : Fld := { reg := PH_SB_CAUSE, lo := 2, n := 1, acc := .w1c } -- A stage lost
def PH_SB_CAUSE_DESC_BAD : Fld := { reg := PH_SB_CAUSE, lo := 3, n := 1, acc := .w1c } -- A descriptor refused
def PH_SB_CAUSE_OVERFULL : Fld := { reg := PH_SB_CAUSE, lo := 4, n := 1, acc := .w1c } -- Hot-Join refused (R118)
def PH_SB_CAUSE_NACK : Fld := { reg := PH_SB_CAUSE, lo := 5, n := 1, acc := .w1c } -- A transfer not acknowledged
def PH_SB_CAUSE_IBI_DROP : Fld := { reg := PH_SB_CAUSE, lo := 6, n := 1, acc := .w1c } -- Interrupt discarded (R126)
def PH_SB_CAUSE_BUS_ERR : Fld := { reg := PH_SB_CAUSE, lo := 7, n := 1, acc := .w1c } -- Protocol error on the bus
def PH_SB_CAUSE_ACC_ERR : Fld := { reg := PH_SB_CAUSE, lo := 15, n := 1, acc := .w1c } -- Reserved encoding written
def row_PH_SB_CAUSE : RegRow := { reg := PH_SB_CAUSE, fields := [PH_SB_CAUSE_HJ, PH_SB_CAUSE_NEW, PH_SB_CAUSE_LOST, PH_SB_CAUSE_DESC_BAD, PH_SB_CAUSE_OVERFULL, PH_SB_CAUSE_NACK, PH_SB_CAUSE_IBI_DROP, PH_SB_CAUSE_BUS_ERR, PH_SB_CAUSE_ACC_ERR] }
/-- PH_SB_CAUSE_EN: Bus cause enables (spec/03, R134). -/
def PH_SB_CAUSE_EN : Reg := { base := 0x4001800C, n1 := 4, s1 := 0x40 }
def PH_SB_CAUSE_EN_HJ : Fld := { reg := PH_SB_CAUSE_EN, lo := 0, n := 1, acc := .rw } -- Hot-Join received
def PH_SB_CAUSE_EN_NEW : Fld := { reg := PH_SB_CAUSE_EN, lo := 1, n := 1, acc := .rw } -- New stage accepted
def PH_SB_CAUSE_EN_LOST : Fld := { reg := PH_SB_CAUSE_EN, lo := 2, n := 1, acc := .rw } -- A stage lost
def PH_SB_CAUSE_EN_DESC_BAD : Fld := { reg := PH_SB_CAUSE_EN, lo := 3, n := 1, acc := .rw } -- A descriptor refused
def PH_SB_CAUSE_EN_OVERFULL : Fld := { reg := PH_SB_CAUSE_EN, lo := 4, n := 1, acc := .rw } -- Hot-Join refused (R118)
def PH_SB_CAUSE_EN_NACK : Fld := { reg := PH_SB_CAUSE_EN, lo := 5, n := 1, acc := .rw } -- A transfer not acknowledged
def PH_SB_CAUSE_EN_IBI_DROP : Fld := { reg := PH_SB_CAUSE_EN, lo := 6, n := 1, acc := .rw } -- Interrupt discarded (R126)
def PH_SB_CAUSE_EN_BUS_ERR : Fld := { reg := PH_SB_CAUSE_EN, lo := 7, n := 1, acc := .rw } -- Protocol error on the bus
def PH_SB_CAUSE_EN_ACC_ERR : Fld := { reg := PH_SB_CAUSE_EN, lo := 15, n := 1, acc := .rw } -- Reserved encoding written
def row_PH_SB_CAUSE_EN : RegRow := { reg := PH_SB_CAUSE_EN, fields := [PH_SB_CAUSE_EN_HJ, PH_SB_CAUSE_EN_NEW, PH_SB_CAUSE_EN_LOST, PH_SB_CAUSE_EN_DESC_BAD, PH_SB_CAUSE_EN_OVERFULL, PH_SB_CAUSE_EN_NACK, PH_SB_CAUSE_EN_IBI_DROP, PH_SB_CAUSE_EN_BUS_ERR, PH_SB_CAUSE_EN_ACC_ERR] }
/-- PH_SB_ROLL: Roll call command (spec/03, R134). -/
def PH_SB_ROLL : Reg := { base := 0x40018010, n1 := 4, s1 := 0x40 }
def PH_SB_ROLL_START : Fld := { reg := PH_SB_ROLL, lo := 0, n := 1, acc := .wo } -- Writing 1 starts roll call
def row_PH_SB_ROLL : RegRow := { reg := PH_SB_ROLL, fields := [PH_SB_ROLL_START] }
/-- PH_MAP_CTL: Tone mapping command; not an instance register (spec/03, R134). -/
def PH_MAP_CTL : Reg := { base := 0x40018100 }
def PH_MAP_CTL_PHASE : Fld := { reg := PH_MAP_CTL, lo := 0, n := 6, acc := .rw } -- Phase for GO
def PH_MAP_CTL_GO : Fld := { reg := PH_MAP_CTL, lo := 8, n := 1, acc := .wo } -- Writing 1 tone-maps PHASE
def PH_MAP_CTL_ALL : Fld := { reg := PH_MAP_CTL, lo := 9, n := 1, acc := .wo } -- Writing 1 tone-maps every IDLE unmapped phase
def PH_MAP_CTL_BUSY : Fld := { reg := PH_MAP_CTL, lo := 16, n := 1, acc := .ro } -- Mapping in progress
def PH_MAP_CTL_RESULT : Fld := { reg := PH_MAP_CTL, lo := 17, n := 3, acc := .ro } -- Last GO: 0 none, 1 mapped, 2 no answer, 3 conflict, 4 phase not IDLE
def row_PH_MAP_CTL : RegRow := { reg := PH_MAP_CTL, fields := [PH_MAP_CTL_PHASE, PH_MAP_CTL_GO, PH_MAP_CTL_ALL, PH_MAP_CTL_BUSY, PH_MAP_CTL_RESULT] }
/-- PH_SACC_CMD: Stage access command; not an instance register (spec/03, R134). -/
def PH_SACC_CMD : Reg := { base := 0x40018110 }
def PH_SACC_CMD_PHASE : Fld := { reg := PH_SACC_CMD, lo := 0, n := 6, acc := .rw } -- Phase whose mapped stage is addressed
def PH_SACC_CMD_WR : Fld := { reg := PH_SACC_CMD, lo := 7, n := 1, acc := .rw } -- 1 write, 0 read
def PH_SACC_CMD_ADDR : Fld := { reg := PH_SACC_CMD, lo := 8, n := 16, acc := .rw } -- Stage address
def PH_SACC_CMD_LEN : Fld := { reg := PH_SACC_CMD, lo := 24, n := 3, acc := .rw, bad := [(0, 0), (5, 7)] } -- Bytes, 1 to 4; 0 and 5 to 7 reserved
def PH_SACC_CMD_GO : Fld := { reg := PH_SACC_CMD, lo := 28, n := 1, acc := .wo } -- Writing 1 starts the transfer
def PH_SACC_CMD_BUSY : Fld := { reg := PH_SACC_CMD, lo := 29, n := 1, acc := .ro } -- Transfer in progress
def PH_SACC_CMD_RES : Fld := { reg := PH_SACC_CMD, lo := 30, n := 2, acc := .ro } -- 0 done, 1 no acknowledgement, 2 no mapped stage, 3 refused (R133)
def row_PH_SACC_CMD : RegRow := { reg := PH_SACC_CMD, fields := [PH_SACC_CMD_PHASE, PH_SACC_CMD_WR, PH_SACC_CMD_ADDR, PH_SACC_CMD_LEN, PH_SACC_CMD_GO, PH_SACC_CMD_BUSY, PH_SACC_CMD_RES] }
/-- PH_SACC_DATA: Stage access data; not an instance register (spec/03, R134). -/
def PH_SACC_DATA : Reg := { base := 0x40018114 }
def PH_SACC_DATA_DATA : Fld := { reg := PH_SACC_DATA, lo := 0, n := 32, acc := .rw } -- Data, first byte in [7:0]; a read transfer fills it
def row_PH_SACC_DATA : RegRow := { reg := PH_SACC_DATA, fields := [PH_SACC_DATA_DATA] }
/-- PH_BOUGH0: Phases 0-31 with an enabled cause (spec/03, R134). -/
def PH_BOUGH0 : Reg := { base := 0x40018200 }
def PH_BOUGH0_PHASE : Fld := { reg := PH_BOUGH0, lo := 0, n := 32, acc := .ro } -- Bit n: phase n has an enabled cause
def row_PH_BOUGH0 : RegRow := { reg := PH_BOUGH0, fields := [PH_BOUGH0_PHASE] }
/-- PH_BOUGH1: Phases 32-63 with an enabled cause (spec/03, R134). -/
def PH_BOUGH1 : Reg := { base := 0x40018204 }
def PH_BOUGH1_PHASE : Fld := { reg := PH_BOUGH1, lo := 0, n := 32, acc := .ro } -- Bit n: phase n + 32 has an enabled cause
def row_PH_BOUGH1 : RegRow := { reg := PH_BOUGH1, fields := [PH_BOUGH1_PHASE] }
/-- PH_BOUGH2: Buses with an enabled cause (spec/03, R134). -/
def PH_BOUGH2 : Reg := { base := 0x40018208 }
def PH_BOUGH2_BUS : Fld := { reg := PH_BOUGH2, lo := 0, n := 4, acc := .ro } -- Bit m: bus m has an enabled cause
def row_PH_BOUGH2 : RegRow := { reg := PH_BOUGH2, fields := [PH_BOUGH2_BUS] }
/-- PH_DESC: Cached descriptor, 32 words; instance stride 0x100 (spec/03, R134). -/
def PH_DESC : Reg := { base := 0x4001A000, n1 := 64, s1 := 0x100, n2 := 32, s2 := 0x4, own := .phase, rd := .p0 }
def PH_DESC_BYTES : Fld := { reg := PH_DESC, lo := 0, n := 32, acc := .ro } -- Descriptor bytes 4w to 4w + 3, lowest in [7:0]; all 0 while no accepted descriptor
def row_PH_DESC : RegRow := { reg := PH_DESC, fields := [PH_DESC_BYTES] }
/-- GV_CFG: Grove enable and scheduling (spec/04, R181). -/
def GV_CFG : Reg := { base := 0x40020000, n1 := 16, s1 := 0x1000 }
def GV_CFG_EN : Fld := { reg := GV_CFG, lo := 0, n := 1, acc := .rw } -- 1: grove dispatches (R179)
def GV_CFG_RESV : Fld := { reg := GV_CFG, lo := 1, n := 4, acc := .rw, bad := [(9, 15)] } -- Engines reserved for PRI ≥ RPRI, 0 to 8; 9 to 15 reserved
def GV_CFG_RPRI : Fld := { reg := GV_CFG, lo := 5, n := 3, acc := .rw } -- Lowest priority allowed reserved engines
def GV_CFG_SHADOW : Fld := { reg := GV_CFG, lo := 8, n := 1, acc := .rw } -- 1: every pass shadowed (R172)
def row_GV_CFG : RegRow := { reg := GV_CFG, fields := [GV_CFG_EN, GV_CFG_RESV, GV_CFG_RPRI, GV_CFG_SHADOW] }
/-- GV_STATUS: Pool, spares and load (spec/04, R181). -/
def GV_STATUS : Reg := { base := 0x40020004, n1 := 16, s1 := 0x1000 }
def GV_STATUS_POOL : Fld := { reg := GV_STATUS, lo := 0, n := 6, acc := .ro } -- Engines in the pool, 0 to 32
def GV_STATUS_SPARES : Fld := { reg := GV_STATUS, lo := 6, n := 2, acc := .ro } -- Spares left, 0 to 2
def GV_STATUS_SELFTEST : Fld := { reg := GV_STATUS, lo := 8, n := 1, acc := .ro } -- A self-test is running
def GV_STATUS_SHED : Fld := { reg := GV_STATUS, lo := 9, n := 1, acc := .ro } -- At least one task shed (R177)
def GV_STATUS_LOAD : Fld := { reg := GV_STATUS, lo := 12, n := 12, acc := .ro } -- Sum of LOAD of enabled tasks, shadowed tasks twice, 1/64 engine
def GV_STATUS_RET_HI : Fld := { reg := GV_STATUS, lo := 28, n := 2, acc := .ro } -- Bit e - 32: engine e retired, for engines 32 and 33
def row_GV_STATUS : RegRow := { reg := GV_STATUS, fields := [GV_STATUS_POOL, GV_STATUS_SPARES, GV_STATUS_SELFTEST, GV_STATUS_SHED, GV_STATUS_LOAD, GV_STATUS_RET_HI] }
/-- GV_LEAD: Rails led by this grove (spec/04, R181). -/
def GV_LEAD : Reg := { base := 0x40020008, n1 := 16, s1 := 0x1000 }
def GV_LEAD_RAILS : Fld := { reg := GV_LEAD, lo := 0, n := 16, acc := .rwl } -- Bit k: grove leads rail k; bit k locked while rail k is not off (R139)
def row_GV_LEAD : RegRow := { reg := GV_LEAD, fields := [GV_LEAD_RAILS] }
/-- GV_CAUSE: Leaf causes (spec/04, R181). -/
def GV_CAUSE : Reg := { base := 0x4002000C, n1 := 16, s1 := 0x1000 }
def GV_CAUSE_RETIRE : Fld := { reg := GV_CAUSE, lo := 0, n := 1, acc := .w1c } -- An engine was retired
def GV_CAUSE_SPARE_OUT : Fld := { reg := GV_CAUSE, lo := 1, n := 1, acc := .w1c } -- An engine was retired with no spare left
def GV_CAUSE_SHED : Fld := { reg := GV_CAUSE, lo := 2, n := 1, acc := .w1c } -- A task was shed
def GV_CAUSE_MISMATCH : Fld := { reg := GV_CAUSE, lo := 3, n := 1, acc := .w1c } -- Shadow-run mismatch
def GV_CAUSE_TRANSIENT : Fld := { reg := GV_CAUSE, lo := 4, n := 1, acc := .w1c } -- Mismatch cleared by self-test
def GV_CAUSE_WDOG : Fld := { reg := GV_CAUSE, lo := 5, n := 1, acc := .w1c } -- Watchdog trip (R163)
def GV_CAUSE_TASK_FAULT : Fld := { reg := GV_CAUSE, lo := 6, n := 1, acc := .w1c } -- Program fault (R164)
def GV_CAUSE_PASS_LOST : Fld := { reg := GV_CAUSE, lo := 7, n := 1, acc := .w1c } -- A repeated pass failed (R176)
def GV_CAUSE_ADMIT : Fld := { reg := GV_CAUSE, lo := 8, n := 1, acc := .w1c } -- Task enable refused (R162)
def GV_CAUSE_TOVR : Fld := { reg := GV_CAUSE, lo := 9, n := 1, acc := .w1c } -- A task trigger was dropped (R159)
def GV_CAUSE_OWN_ERR : Fld := { reg := GV_CAUSE, lo := 10, n := 1, acc := .w1c } -- Steering or arm write refused (R150)
def GV_CAUSE_STEER_OVERLAP : Fld := { reg := GV_CAUSE, lo := 11, n := 1, acc := .w1c } -- Provisional value replaced across passes (R151)
def GV_CAUSE_CAPT_OVR : Fld := { reg := GV_CAUSE, lo := 12, n := 1, acc := .w1c } -- Arm while capture busy
def GV_CAUSE_OUTQ_OVR : Fld := { reg := GV_CAUSE, lo := 13, n := 1, acc := .w1c } -- Outcome discarded (R157)
def GV_CAUSE_LOCK_ERR : Fld := { reg := GV_CAUSE, lo := 14, n := 1, acc := .w1c } -- Write to a locked field
def GV_CAUSE_ACC_ERR : Fld := { reg := GV_CAUSE, lo := 15, n := 1, acc := .w1c } -- Reserved encoding or conflicting GV_LEAD write
def GV_CAUSE_CODE_BUSY : Fld := { reg := GV_CAUSE, lo := 16, n := 1, acc := .w1c } -- Instruction write into an enabled task's code (R145)
def row_GV_CAUSE : RegRow := { reg := GV_CAUSE, fields := [GV_CAUSE_RETIRE, GV_CAUSE_SPARE_OUT, GV_CAUSE_SHED, GV_CAUSE_MISMATCH, GV_CAUSE_TRANSIENT, GV_CAUSE_WDOG, GV_CAUSE_TASK_FAULT, GV_CAUSE_PASS_LOST, GV_CAUSE_ADMIT, GV_CAUSE_TOVR, GV_CAUSE_OWN_ERR, GV_CAUSE_STEER_OVERLAP, GV_CAUSE_CAPT_OVR, GV_CAUSE_OUTQ_OVR, GV_CAUSE_LOCK_ERR, GV_CAUSE_ACC_ERR, GV_CAUSE_CODE_BUSY] }
/-- GV_CAUSE_EN: Cause enables to the bough (spec/04, R181). -/
def GV_CAUSE_EN : Reg := { base := 0x40020010, n1 := 16, s1 := 0x1000 }
def GV_CAUSE_EN_RETIRE : Fld := { reg := GV_CAUSE_EN, lo := 0, n := 1, acc := .rw } -- An engine was retired
def GV_CAUSE_EN_SPARE_OUT : Fld := { reg := GV_CAUSE_EN, lo := 1, n := 1, acc := .rw } -- An engine was retired with no spare left
def GV_CAUSE_EN_SHED : Fld := { reg := GV_CAUSE_EN, lo := 2, n := 1, acc := .rw } -- A task was shed
def GV_CAUSE_EN_MISMATCH : Fld := { reg := GV_CAUSE_EN, lo := 3, n := 1, acc := .rw } -- Shadow-run mismatch
def GV_CAUSE_EN_TRANSIENT : Fld := { reg := GV_CAUSE_EN, lo := 4, n := 1, acc := .rw } -- Mismatch cleared by self-test
def GV_CAUSE_EN_WDOG : Fld := { reg := GV_CAUSE_EN, lo := 5, n := 1, acc := .rw } -- Watchdog trip (R163)
def GV_CAUSE_EN_TASK_FAULT : Fld := { reg := GV_CAUSE_EN, lo := 6, n := 1, acc := .rw } -- Program fault (R164)
def GV_CAUSE_EN_PASS_LOST : Fld := { reg := GV_CAUSE_EN, lo := 7, n := 1, acc := .rw } -- A repeated pass failed (R176)
def GV_CAUSE_EN_ADMIT : Fld := { reg := GV_CAUSE_EN, lo := 8, n := 1, acc := .rw } -- Task enable refused (R162)
def GV_CAUSE_EN_TOVR : Fld := { reg := GV_CAUSE_EN, lo := 9, n := 1, acc := .rw } -- A task trigger was dropped (R159)
def GV_CAUSE_EN_OWN_ERR : Fld := { reg := GV_CAUSE_EN, lo := 10, n := 1, acc := .rw } -- Steering or arm write refused (R150)
def GV_CAUSE_EN_STEER_OVERLAP : Fld := { reg := GV_CAUSE_EN, lo := 11, n := 1, acc := .rw } -- Provisional value replaced across passes (R151)
def GV_CAUSE_EN_CAPT_OVR : Fld := { reg := GV_CAUSE_EN, lo := 12, n := 1, acc := .rw } -- Arm while capture busy
def GV_CAUSE_EN_OUTQ_OVR : Fld := { reg := GV_CAUSE_EN, lo := 13, n := 1, acc := .rw } -- Outcome discarded (R157)
def GV_CAUSE_EN_LOCK_ERR : Fld := { reg := GV_CAUSE_EN, lo := 14, n := 1, acc := .rw } -- Write to a locked field
def GV_CAUSE_EN_ACC_ERR : Fld := { reg := GV_CAUSE_EN, lo := 15, n := 1, acc := .rw } -- Reserved encoding or conflicting GV_LEAD write
def GV_CAUSE_EN_CODE_BUSY : Fld := { reg := GV_CAUSE_EN, lo := 16, n := 1, acc := .rw } -- Instruction write into an enabled task's code (R145)
def row_GV_CAUSE_EN : RegRow := { reg := GV_CAUSE_EN, fields := [GV_CAUSE_EN_RETIRE, GV_CAUSE_EN_SPARE_OUT, GV_CAUSE_EN_SHED, GV_CAUSE_EN_MISMATCH, GV_CAUSE_EN_TRANSIENT, GV_CAUSE_EN_WDOG, GV_CAUSE_EN_TASK_FAULT, GV_CAUSE_EN_PASS_LOST, GV_CAUSE_EN_ADMIT, GV_CAUSE_EN_TOVR, GV_CAUSE_EN_OWN_ERR, GV_CAUSE_EN_STEER_OVERLAP, GV_CAUSE_EN_CAPT_OVR, GV_CAUSE_EN_OUTQ_OVR, GV_CAUSE_EN_LOCK_ERR, GV_CAUSE_EN_ACC_ERR, GV_CAUSE_EN_CODE_BUSY] }
/-- GV_RETIRED: Retired engines 0 to 31 (spec/04, R181). -/
def GV_RETIRED : Reg := { base := 0x40020014, n1 := 16, s1 := 0x1000 }
def GV_RETIRED_ENG : Fld := { reg := GV_RETIRED, lo := 0, n := 32, acc := .ro } -- Bit e: engine e retired
def row_GV_RETIRED : RegRow := { reg := GV_RETIRED, fields := [GV_RETIRED_ENG] }
/-- GV_SHCNT: Shadow-run counts (spec/04, R181). -/
def GV_SHCNT : Reg := { base := 0x40020018, n1 := 16, s1 := 0x1000 }
def GV_SHCNT_PASSES : Fld := { reg := GV_SHCNT, lo := 0, n := 16, acc := .ro } -- Shadowed passes, modulo 65,536
def GV_SHCNT_MISMATCH : Fld := { reg := GV_SHCNT, lo := 16, n := 8, acc := .ro } -- Mismatches, saturating at 255
def GV_SHCNT_TRANSIENT : Fld := { reg := GV_SHCNT, lo := 24, n := 8, acc := .ro } -- Mismatches cleared by self-test, saturating at 255
def row_GV_SHCNT : RegRow := { reg := GV_SHCNT, fields := [GV_SHCNT_PASSES, GV_SHCNT_MISMATCH, GV_SHCNT_TRANSIENT] }
/-- GV_BANKOWN: Data-bank owners, 8 banks per register (spec/04, R181). -/
def GV_BANKOWN : Reg := { base := 0x40020080, n1 := 16, s1 := 0x1000, n2 := 4, s2 := 0x4, own := .sealed }
def GV_BANKOWN_PART (i : Nat) : Fld := { reg := GV_BANKOWN, lo := 0 + 4 * i, n := 3, acc := .rw } -- Owner partition of bank 8j + i
def GV_BANKOWN_VALID (i : Nat) : Fld := { reg := GV_BANKOWN, lo := 3 + 4 * i, n := 1, acc := .rw } -- 1: bank assigned
def row_GV_BANKOWN : RegRow := { reg := GV_BANKOWN, fields := (List.range 8).map GV_BANKOWN_PART ++ (List.range 8).map GV_BANKOWN_VALID }
/-- GV_TCFG: Task options and trigger; stride 0x10 (spec/04, R181). -/
def GV_TCFG : Reg := { base := 0x40020100, n1 := 16, s1 := 0x1000, n2 := 64, s2 := 0x10, own := .sealed }
def GV_TCFG_EN : Fld := { reg := GV_TCFG, lo := 0, n := 1, acc := .rw } -- 1: enabled, subject to R162
def GV_TCFG_PRI : Fld := { reg := GV_TCFG, lo := 1, n := 3, acc := .rw } -- Priority, 7 highest
def GV_TCFG_SHADOW : Fld := { reg := GV_TCFG, lo := 4, n := 1, acc := .rw } -- 1: passes shadowed
def GV_TCFG_OWNER : Fld := { reg := GV_TCFG, lo := 5, n := 3, acc := .rw } -- Owner partition
def GV_TCFG_TRIG : Fld := { reg := GV_TCFG, lo := 8, n := 2, acc := .rw } -- 0 none, 1 tick, 2 trail port, 3 grove event
def GV_TCFG_TSEL : Fld := { reg := GV_TCFG, lo := 10, n := 4, acc := .rw } -- Rail, port or event (R158)
def GV_TCFG_DIV : Fld := { reg := GV_TCFG, lo := 14, n := 8, acc := .rw } -- A pass on every (DIV + 1)-th trigger
def GV_TCFG_LOAD : Fld := { reg := GV_TCFG, lo := 22, n := 10, acc := .rw } -- Declared load, 1/64 engine
def row_GV_TCFG : RegRow := { reg := GV_TCFG, fields := [GV_TCFG_EN, GV_TCFG_PRI, GV_TCFG_SHADOW, GV_TCFG_OWNER, GV_TCFG_TRIG, GV_TCFG_TSEL, GV_TCFG_DIV, GV_TCFG_LOAD] }
/-- GV_TCODE: Task code; stride 0x10 (spec/04, R181). -/
def GV_TCODE : Reg := { base := 0x40020104, n1 := 16, s1 := 0x1000, n2 := 64, s2 := 0x10, own := .sealed }
def GV_TCODE_ENTRY : Fld := { reg := GV_TCODE, lo := 0, n := 14, acc := .rwl } -- Entry, word address in instruction memory
def GV_TCODE_CBASE : Fld := { reg := GV_TCODE, lo := 14, n := 6, acc := .rwl } -- Code region base, 1 KB units
def GV_TCODE_CLEN : Fld := { reg := GV_TCODE, lo := 20, n := 6, acc := .rwl } -- Code region length - 1, 1 KB units
def row_GV_TCODE : RegRow := { reg := GV_TCODE, fields := [GV_TCODE_ENTRY, GV_TCODE_CBASE, GV_TCODE_CLEN] }
/-- GV_TDATA: Task data region and budget; stride 0x10 (spec/04, R181). -/
def GV_TDATA : Reg := { base := 0x40020108, n1 := 16, s1 := 0x1000, n2 := 64, s2 := 0x10, own := .sealed }
def GV_TDATA_DBASE : Fld := { reg := GV_TDATA, lo := 0, n := 5, acc := .rwl } -- First data bank
def GV_TDATA_DBANKS : Fld := { reg := GV_TDATA, lo := 5, n := 5, acc := .rwl } -- Data banks - 1; DBASE + DBANKS above 31 reserved
def GV_TDATA_BUDGET : Fld := { reg := GV_TDATA, lo := 12, n := 12, acc := .rwl, bad := [(0, 0)] } -- Pass budget, 16 GCLK units; 0 reserved
def row_GV_TDATA : RegRow := { reg := GV_TDATA, fields := [GV_TDATA_DBASE, GV_TDATA_DBANKS, GV_TDATA_BUDGET] }
/-- GV_TSTAT: Task state; stride 0x10 (spec/04, R181). -/
def GV_TSTAT : Reg := { base := 0x4002010C, n1 := 16, s1 := 0x1000, n2 := 64, s2 := 0x10, own := .gvTask }
def GV_TSTAT_STATE : Fld := { reg := GV_TSTAT, lo := 0, n := 3, acc := .ro } -- 0 disabled, 1 idle, 2 pending, 3 running, 4 running with pending, 5 shed, 6 faulted; 7 not used
def GV_TSTAT_OVR : Fld := { reg := GV_TSTAT, lo := 3, n := 1, acc := .w1c } -- A trigger was dropped
def GV_TSTAT_LASTERR : Fld := { reg := GV_TSTAT, lo := 4, n := 4, acc := .ro } -- 0 none, 1 illegal instruction, 2 access outside map, 3 fetch outside code region, 4 watchdog, 5 pass lost, 6 ownership refusal; 7 to 15 not used
def GV_TSTAT_PASSES : Fld := { reg := GV_TSTAT, lo := 8, n := 16, acc := .ro } -- Completed passes, modulo 65,536
def GV_TSTAT_MAXLEN : Fld := { reg := GV_TSTAT, lo := 24, n := 8, acc := .ro } -- Longest pass, 256 GCLK units rounded up, saturating
def row_GV_TSTAT : RegRow := { reg := GV_TSTAT, fields := [GV_TSTAT_STATE, GV_TSTAT_OVR, GV_TSTAT_LASTERR, GV_TSTAT_PASSES, GV_TSTAT_MAXLEN] }
/-- RL_CTL: Rail enable (spec/05, R216). -/
def RL_CTL : Reg := { base := 0x40030000, n1 := 16, s1 := 0x400, own := .rail }
def RL_CTL_EN : Fld := { reg := RL_CTL, lo := 0, n := 1, acc := .rw } -- 1: rail requested on (R183, R186); a write of 0 is a sequenced stop
def row_RL_CTL : RegRow := { reg := RL_CTL, fields := [RL_CTL_EN] }
/-- RL_CFG: Start, retry and stop options (spec/05, R216). -/
def RL_CFG : Reg := { base := 0x40030004, n1 := 16, s1 := 0x400, rst := 0x00014301, own := .rail }
def RL_CFG_MIN_PH : Fld := { reg := RL_CFG, lo := 0, n := 7, acc := .rwl, bad := [(0, 0), (65, 127)] } -- Fewest available phases, 1 to 64; 0 and 65 to 127 reserved
def RL_CFG_RETRY : Fld := { reg := RL_CFG, lo := 8, n := 3, acc := .rwl } -- Hiccup retries, 0 to 7
def RL_CFG_OFF_MODE : Fld := { reg := RL_CFG, lo := 12, n := 2, acc := .rwl, bad := [(3, 3)] } -- Shutdown mode (R214)
def RL_CFG_PB_EN : Fld := { reg := RL_CFG, lo := 14, n := 1, acc := .rwl } -- 1: measure pre-bias
def RL_CFG_SS_NS : Fld := { reg := RL_CFG, lo := 15, n := 1, acc := .rwl } -- 1: non-sink through every soft start
def RL_CFG_HOT_ADMIT : Fld := { reg := RL_CFG, lo := 16, n := 1, acc := .rwl } -- 1: admit hot-attached phases (R213)
def RL_CFG_FOLLOW : Fld := { reg := RL_CFG, lo := 17, n := 1, acc := .rwl } -- 1: stop when a predecessor loses PG (R190)
def row_RL_CFG : RegRow := { reg := RL_CFG, fields := [RL_CFG_MIN_PH, RL_CFG_RETRY, RL_CFG_OFF_MODE, RL_CFG_PB_EN, RL_CFG_SS_NS, RL_CFG_HOT_ADMIT, RL_CFG_FOLLOW] }
/-- RL_STATUS: State and flags (spec/05, R216). -/
def RL_STATUS : Reg := { base := 0x40030008, n1 := 16, s1 := 0x400, own := .rail }
def RL_STATUS_STATE : Fld := { reg := RL_STATUS, lo := 0, n := 4, acc := .ro } -- 0 OFF, 1 PENDING, 2 ARMING, 3 PREBIAS, 4 SOFT_START, 5 ON, 6 STOPPING, 7 HICCUP, 8 LATCHED; 9 to 15 not used
def RL_STATUS_PG : Fld := { reg := RL_STATUS, lo := 4, n := 1, acc := .ro } -- Power-good (R188)
def RL_STATUS_DEGRADED : Fld := { reg := RL_STATUS, lo := 5, n := 1, acc := .ro } -- R211
def RL_STATUS_PREBIAS : Fld := { reg := RL_STATUS, lo := 6, n := 1, acc := .ro } -- The last start was pre-biased
def RL_STATUS_NS_FORCE : Fld := { reg := RL_STATUS, lo := 7, n := 1, acc := .ro } -- Non-sink forced by the sequencer
def RL_STATUS_RETRIES : Fld := { reg := RL_STATUS, lo := 8, n := 3, acc := .ro } -- Aborts in the present start series
def RL_STATUS_OFF_WAIT : Fld := { reg := RL_STATUS, lo := 11, n := 1, acc := .ro } -- A sequenced stop waits for RL_SEQ_OFF
def RL_STATUS_NSW : Fld := { reg := RL_STATUS, lo := 16, n := 7, acc := .ro } -- SWITCHING phases, 0 to 64
def RL_STATUS_NSHED : Fld := { reg := RL_STATUS, lo := 24, n := 7, acc := .ro } -- SHED phases, 0 to 64
def row_RL_STATUS : RegRow := { reg := RL_STATUS, fields := [RL_STATUS_STATE, RL_STATUS_PG, RL_STATUS_DEGRADED, RL_STATUS_PREBIAS, RL_STATUS_NS_FORCE, RL_STATUS_RETRIES, RL_STATUS_OFF_WAIT, RL_STATUS_NSW, RL_STATUS_NSHED] }
/-- RL_SEQ_ON: Power-up dependencies (spec/05, R216). -/
def RL_SEQ_ON : Reg := { base := 0x4003000C, n1 := 16, s1 := 0x400 }
def RL_SEQ_ON_DEP : Fld := { reg := RL_SEQ_ON, lo := 0, n := 16, acc := .rwl } -- Bit j: rail j is a predecessor; own bit reserved (R191)
def RL_SEQ_ON_DLY : Fld := { reg := RL_SEQ_ON, lo := 16, n := 12, acc := .rwl } -- Delay after the predecessors qualify, 10 µs units
def row_RL_SEQ_ON : RegRow := { reg := RL_SEQ_ON, fields := [RL_SEQ_ON_DEP, RL_SEQ_ON_DLY] }
/-- RL_SEQ_OFF: Power-down dependencies (spec/05, R216). -/
def RL_SEQ_OFF : Reg := { base := 0x40030010, n1 := 16, s1 := 0x400 }
def RL_SEQ_OFF_DEP : Fld := { reg := RL_SEQ_OFF, lo := 0, n := 16, acc := .rwl } -- Bit j: rail j is a predecessor; own bit reserved (R191)
def RL_SEQ_OFF_DLY : Fld := { reg := RL_SEQ_OFF, lo := 16, n := 12, acc := .rwl } -- Delay after the predecessors qualify, 10 µs units
def row_RL_SEQ_OFF : RegRow := { reg := RL_SEQ_OFF, fields := [RL_SEQ_OFF_DEP, RL_SEQ_OFF_DLY] }
/-- RL_SEQ_TMO: Sequencing timeout (spec/05, R216). -/
def RL_SEQ_TMO : Reg := { base := 0x40030014, n1 := 16, s1 := 0x400, rst := 0x000003E8 }
def RL_SEQ_TMO_TMO : Fld := { reg := RL_SEQ_TMO, lo := 0, n := 16, acc := .rw } -- PENDING timeout, ms; 0: none
def row_RL_SEQ_TMO : RegRow := { reg := RL_SEQ_TMO, fields := [RL_SEQ_TMO_TMO] }
/-- RL_SS: Soft-start timeout and blanking (spec/05, R216). -/
def RL_SS : Reg := { base := 0x40030018, n1 := 16, s1 := 0x400, rst := 0x000A2710, own := .rail }
def RL_SS_TMO : Fld := { reg := RL_SS, lo := 0, n := 16, acc := .rwl, bad := [(0, 0)] } -- Soft-start limit, 10 µs units (reset 100 ms); 0 reserved
def RL_SS_BLANK_EXT : Fld := { reg := RL_SS, lo := 16, n := 8, acc := .rwl } -- Blanking after ON entry, µs
def row_RL_SS : RegRow := { reg := RL_SS, fields := [RL_SS_TMO, RL_SS_BLANK_EXT] }
/-- RL_PG: Power-good window (spec/05, R216). -/
def RL_PG : Reg := { base := 0x4003001C, n1 := 16, s1 := 0x400, rst := 0x00100A50, own := .rail }
def RL_PG_WIN : Fld := { reg := RL_PG, lo := 0, n := 8, acc := .rw } -- Error bound, window LSB (reset 20 mV)
def RL_PG_DLY : Fld := { reg := RL_PG, lo := 8, n := 8, acc := .rw } -- Qualification time, µs
def RL_PG_FILT : Fld := { reg := RL_PG, lo := 16, n := 8, acc := .rw, bad := [(0, 0)] } -- Loss filter, 4 LCLK units (reset 32 ns); 0 reserved
def row_RL_PG : RegRow := { reg := RL_PG, fields := [RL_PG_WIN, RL_PG_DLY, RL_PG_FILT] }
/-- RL_TRK: Ramp-tracking monitor (spec/05, R216). -/
def RL_TRK : Reg := { base := 0x40030020, n1 := 16, s1 := 0x400, rst := 0x100FA0C8, own := .rail }
def RL_TRK_TH : Fld := { reg := RL_TRK, lo := 0, n := 8, acc := .rwl } -- Lag threshold, window LSB (reset 50 mV)
def RL_TRK_TIME : Fld := { reg := RL_TRK, lo := 8, n := 16, acc := .rwl, bad := [(0, 0)] } -- Lag run, LCLK cycles (reset 2 µs); 0 reserved
def RL_TRK_CBC_N : Fld := { reg := RL_TRK, lo := 24, n := 5, acc := .rwl, bad := [(0, 0)] } -- Consecutive limited periods; 0 reserved
def row_RL_TRK : RegRow := { reg := RL_TRK, fields := [RL_TRK_TH, RL_TRK_TIME, RL_TRK_CBC_N] }
/-- RL_PB: Pre-bias thresholds and result (spec/05, R216). -/
def RL_PB : Reg := { base := 0x40030024, n1 := 16, s1 := 0x400, rst := 0x00001919, own := .rail }
def RL_PB_MIN : Fld := { reg := RL_PB, lo := 0, n := 8, acc := .rwl } -- Pre-bias threshold, 2 mV units (reset 50 mV)
def RL_PB_HIGH : Fld := { reg := RL_PB, lo := 8, n := 8, acc := .rwl } -- Largest excess over target, 2 mV units (reset 50 mV)
def RL_PB_SENSED : Fld := { reg := RL_PB, lo := 16, n := 14, acc := .ro } -- Measured output, DAC LSB (R193)
def row_RL_PB : RegRow := { reg := RL_PB, fields := [RL_PB_MIN, RL_PB_HIGH, RL_PB_SENSED] }
/-- RL_OFF: Shutdown ramp (spec/05, R216). -/
def RL_OFF : Reg := { base := 0x40030028, n1 := 16, s1 := 0x400, rst := 0x3232000D, own := .rail }
def RL_OFF_RATE : Fld := { reg := RL_OFF, lo := 0, n := 16, acc := .rw, bad := [(0, 0)] } -- Ramp-down rate, 2^-8 F per LCLK cycle (reset 99.2 mV/ms); 0 reserved
def RL_OFF_VEND : Fld := { reg := RL_OFF, lo := 16, n := 8, acc := .rw } -- End level, 2 mV units (reset 100 mV)
def RL_OFF_TMO : Fld := { reg := RL_OFF, lo := 24, n := 8, acc := .rw, bad := [(0, 0)] } -- Stop limit, ms (reset 50 ms); 0 reserved
def row_RL_OFF : RegRow := { reg := RL_OFF, fields := [RL_OFF_RATE, RL_OFF_VEND, RL_OFF_TMO] }
/-- RL_ILIM: Rail current limit (spec/05, R216). -/
def RL_ILIM : Reg := { base := 0x4003002C, n1 := 16, s1 := 0x400, own := .rail }
def RL_ILIM_LIM : Fld := { reg := RL_ILIM, lo := 0, n := 16, acc := .rw } -- Rail current limit, A; 0: capacity alone
def RL_ILIM_EFF : Fld := { reg := RL_ILIM, lo := 16, n := 16, acc := .ro } -- Effective limit, A (R210)
def row_RL_ILIM : RegRow := { reg := RL_ILIM, fields := [RL_ILIM_LIM, RL_ILIM_EFF] }
/-- RL_CAP: Capacity (spec/05, R216). -/
def RL_CAP : Reg := { base := 0x40030030, n1 := 16, s1 := 0x400, own := .rail }
def RL_CAP_CAP : Fld := { reg := RL_CAP, lo := 0, n := 16, acc := .ro } -- Capacity, A
def RL_CAP_NAVAIL : Fld := { reg := RL_CAP, lo := 16, n := 7, acc := .ro } -- Available phases
def row_RL_CAP : RegRow := { reg := RL_CAP, fields := [RL_CAP_CAP, RL_CAP_NAVAIL] }
/-- RL_COP: Coppicing options (spec/05, R216). -/
def RL_COP : Reg := { base := 0x40030034, n1 := 16, s1 := 0x400, rst := 0x0040001C, own := .rail }
def RL_COP_EN : Fld := { reg := RL_COP, lo := 0, n := 1, acc := .rw } -- 1: shedding enabled
def RL_COP_ORDER : Fld := { reg := RL_COP, lo := 1, n := 1, acc := .rw } -- 0 by phase number, 1 by wear (R201)
def RL_COP_ADD_STRIKE : Fld := { reg := RL_COP, lo := 2, n := 1, acc := .rw } -- 1: a strike re-adds all
def RL_COP_ADD_INTENT : Fld := { reg := RL_COP, lo := 3, n := 1, acc := .rw } -- 1: a positive intent re-adds all
def RL_COP_MIN_ON : Fld := { reg := RL_COP, lo := 4, n := 7, acc := .rw, bad := [(0, 0), (65, 127)] } -- Fewest SWITCHING phases after a shed, 1 to 64; 0 reserved
def RL_COP_DWELL : Fld := { reg := RL_COP, lo := 16, n := 8, acc := .rw, bad := [(0, 0)] } -- Commit points below SHED_I before a shed; 0 reserved
def row_RL_COP : RegRow := { reg := RL_COP, fields := [RL_COP_EN, RL_COP_ORDER, RL_COP_ADD_STRIKE, RL_COP_ADD_INTENT, RL_COP_MIN_ON, RL_COP_DWELL] }
/-- RL_COP_TH: Coppicing thresholds (spec/05, R216). -/
def RL_COP_TH : Reg := { base := 0x40030038, n1 := 16, s1 := 0x400, rst := 0x07800280, own := .rail }
def RL_COP_TH_SHED_I : Fld := { reg := RL_COP_TH, lo := 0, n := 16, acc := .rw } -- Shed threshold, 1/64 A per phase (reset 10 A)
def RL_COP_TH_ADD_I : Fld := { reg := RL_COP_TH, lo := 16, n := 16, acc := .rw } -- Re-add threshold, 1/64 A per phase (reset 30 A)
def row_RL_COP_TH : RegRow := { reg := RL_COP_TH, fields := [RL_COP_TH_SHED_I, RL_COP_TH_ADD_I] }
/-- RL_PF: Phase-failure detection (spec/05, R216). -/
def RL_PF : Reg := { base := 0x4003003C, n1 := 16, s1 := 0x400, rst := 0x512008FB, own := .rail }
def RL_PF_FMASK : Fld := { reg := RL_PF, lo := 0, n := 8, acc := .rw } -- FAULT bits that fail the phase
def RL_PF_OPEN_I : Fld := { reg := RL_PF, lo := 8, n := 8, acc := .rw } -- Open threshold, 0.25 A (reset 2 A); 0 disables
def RL_PF_OPEN_N : Fld := { reg := RL_PF, lo := 16, n := 8, acc := .rw, bad := [(0, 0)] } -- Valleys below OPEN_I; 0 reserved
def RL_PF_TEMP_EN : Fld := { reg := RL_PF, lo := 24, n := 1, acc := .rw } -- 1: T_LIMIT fails the phase
def RL_PF_NOSTAGE_I : Fld := { reg := RL_PF, lo := 25, n := 7, acc := .rw } -- Capacity of a NOSTAGE phase, A
def row_RL_PF : RegRow := { reg := RL_PF, fields := [RL_PF_FMASK, RL_PF_OPEN_I, RL_PF_OPEN_N, RL_PF_TEMP_EN, RL_PF_NOSTAGE_I] }
/-- RL_PMASK_LO: Phases 0-31 assigned to the rail (spec/05, R216). -/
def RL_PMASK_LO : Reg := { base := 0x40030040, n1 := 16, s1 := 0x400, own := .rail }
def RL_PMASK_LO_PH : Fld := { reg := RL_PMASK_LO, lo := 0, n := 32, acc := .ro } -- Bit n: phase n has role rail k
def row_RL_PMASK_LO : RegRow := { reg := RL_PMASK_LO, fields := [RL_PMASK_LO_PH] }
/-- RL_PMASK_HI: Phases 32-63 assigned to the rail (spec/05, R216). -/
def RL_PMASK_HI : Reg := { base := 0x40030044, n1 := 16, s1 := 0x400, own := .rail }
def RL_PMASK_HI_PH : Fld := { reg := RL_PMASK_HI, lo := 0, n := 32, acc := .ro } -- Bit n: phase n + 32 has role rail k
def row_RL_PMASK_HI : RegRow := { reg := RL_PMASK_HI, fields := [RL_PMASK_HI_PH] }
/-- RL_CAUSE: Leaf causes (spec/05, R216). -/
def RL_CAUSE : Reg := { base := 0x40030048, n1 := 16, s1 := 0x400, own := .rail }
def RL_CAUSE_START_SHORT : Fld := { reg := RL_CAUSE, lo := 0, n := 1, acc := .w1c } -- Monitor aborted a start (R197)
def RL_CAUSE_SS_TMO : Fld := { reg := RL_CAUSE, lo := 1, n := 1, acc := .w1c } -- Soft start reached RL_SS.TMO
def RL_CAUSE_RETRY_OUT : Fld := { reg := RL_CAUSE, lo := 2, n := 1, acc := .w1c } -- Retries exhausted; rail latched
def RL_CAUSE_ARM_FAIL : Fld := { reg := RL_CAUSE, lo := 3, n := 1, acc := .w1c } -- Fewer than MIN_PH phases armed in 1 ms
def RL_CAUSE_PB_HIGH : Fld := { reg := RL_CAUSE, lo := 4, n := 1, acc := .w1c } -- Pre-bias above target; start refused
def RL_CAUSE_SEQ_TMO : Fld := { reg := RL_CAUSE, lo := 5, n := 1, acc := .w1c } -- PENDING timeout
def RL_CAUSE_DEP_LOST : Fld := { reg := RL_CAUSE, lo := 6, n := 1, acc := .w1c } -- Stopped on a predecessor's PG loss
def RL_CAUSE_PHASE_FAIL : Fld := { reg := RL_CAUSE, lo := 7, n := 1, acc := .w1c } -- A phase was declared failed
def RL_CAUSE_CAP_LOW : Fld := { reg := RL_CAUSE, lo := 8, n := 1, acc := .w1c } -- Capacity below the rail limit
def RL_CAUSE_MIN_PH : Fld := { reg := RL_CAUSE, lo := 9, n := 1, acc := .w1c } -- Available phases below MIN_PH
def RL_CAUSE_PG_LOST : Fld := { reg := RL_CAUSE, lo := 10, n := 1, acc := .w1c } -- PG fell while ON
def RL_CAUSE_CFG_ERR : Fld := { reg := RL_CAUSE, lo := 11, n := 1, acc := .w1c } -- EN write refused (R183)
def RL_CAUSE_OFF_TMO : Fld := { reg := RL_CAUSE, lo := 12, n := 1, acc := .w1c } -- Stop reached RL_OFF.TMO
def RL_CAUSE_LOCK_ERR : Fld := { reg := RL_CAUSE, lo := 14, n := 1, acc := .w1c } -- Write to a locked register (R184)
def RL_CAUSE_ACC_ERR : Fld := { reg := RL_CAUSE, lo := 15, n := 1, acc := .w1c } -- Reserved encoding written
def row_RL_CAUSE : RegRow := { reg := RL_CAUSE, fields := [RL_CAUSE_START_SHORT, RL_CAUSE_SS_TMO, RL_CAUSE_RETRY_OUT, RL_CAUSE_ARM_FAIL, RL_CAUSE_PB_HIGH, RL_CAUSE_SEQ_TMO, RL_CAUSE_DEP_LOST, RL_CAUSE_PHASE_FAIL, RL_CAUSE_CAP_LOW, RL_CAUSE_MIN_PH, RL_CAUSE_PG_LOST, RL_CAUSE_CFG_ERR, RL_CAUSE_OFF_TMO, RL_CAUSE_LOCK_ERR, RL_CAUSE_ACC_ERR] }
/-- RL_CAUSE_EN: Cause enables to the bough (spec/05, R216). -/
def RL_CAUSE_EN : Reg := { base := 0x4003004C, n1 := 16, s1 := 0x400, own := .rail }
def RL_CAUSE_EN_START_SHORT : Fld := { reg := RL_CAUSE_EN, lo := 0, n := 1, acc := .rw } -- Monitor aborted a start (R197)
def RL_CAUSE_EN_SS_TMO : Fld := { reg := RL_CAUSE_EN, lo := 1, n := 1, acc := .rw } -- Soft start reached RL_SS.TMO
def RL_CAUSE_EN_RETRY_OUT : Fld := { reg := RL_CAUSE_EN, lo := 2, n := 1, acc := .rw } -- Retries exhausted; rail latched
def RL_CAUSE_EN_ARM_FAIL : Fld := { reg := RL_CAUSE_EN, lo := 3, n := 1, acc := .rw } -- Fewer than MIN_PH phases armed in 1 ms
def RL_CAUSE_EN_PB_HIGH : Fld := { reg := RL_CAUSE_EN, lo := 4, n := 1, acc := .rw } -- Pre-bias above target; start refused
def RL_CAUSE_EN_SEQ_TMO : Fld := { reg := RL_CAUSE_EN, lo := 5, n := 1, acc := .rw } -- PENDING timeout
def RL_CAUSE_EN_DEP_LOST : Fld := { reg := RL_CAUSE_EN, lo := 6, n := 1, acc := .rw } -- Stopped on a predecessor's PG loss
def RL_CAUSE_EN_PHASE_FAIL : Fld := { reg := RL_CAUSE_EN, lo := 7, n := 1, acc := .rw } -- A phase was declared failed
def RL_CAUSE_EN_CAP_LOW : Fld := { reg := RL_CAUSE_EN, lo := 8, n := 1, acc := .rw } -- Capacity below the rail limit
def RL_CAUSE_EN_MIN_PH : Fld := { reg := RL_CAUSE_EN, lo := 9, n := 1, acc := .rw } -- Available phases below MIN_PH
def RL_CAUSE_EN_PG_LOST : Fld := { reg := RL_CAUSE_EN, lo := 10, n := 1, acc := .rw } -- PG fell while ON
def RL_CAUSE_EN_CFG_ERR : Fld := { reg := RL_CAUSE_EN, lo := 11, n := 1, acc := .rw } -- EN write refused (R183)
def RL_CAUSE_EN_OFF_TMO : Fld := { reg := RL_CAUSE_EN, lo := 12, n := 1, acc := .rw } -- Stop reached RL_OFF.TMO
def RL_CAUSE_EN_LOCK_ERR : Fld := { reg := RL_CAUSE_EN, lo := 14, n := 1, acc := .rw } -- Write to a locked register (R184)
def RL_CAUSE_EN_ACC_ERR : Fld := { reg := RL_CAUSE_EN, lo := 15, n := 1, acc := .rw } -- Reserved encoding written
def row_RL_CAUSE_EN : RegRow := { reg := RL_CAUSE_EN, fields := [RL_CAUSE_EN_START_SHORT, RL_CAUSE_EN_SS_TMO, RL_CAUSE_EN_RETRY_OUT, RL_CAUSE_EN_ARM_FAIL, RL_CAUSE_EN_PB_HIGH, RL_CAUSE_EN_SEQ_TMO, RL_CAUSE_EN_DEP_LOST, RL_CAUSE_EN_PHASE_FAIL, RL_CAUSE_EN_CAP_LOW, RL_CAUSE_EN_MIN_PH, RL_CAUSE_EN_PG_LOST, RL_CAUSE_EN_CFG_ERR, RL_CAUSE_EN_OFF_TMO, RL_CAUSE_EN_LOCK_ERR, RL_CAUSE_EN_ACC_ERR] }
/-- RL_BOUGH: One bit per rail with an enabled cause; not an instance register (spec/05, R216). -/
def RL_BOUGH : Reg := { base := 0x40034000 }
def RL_BOUGH_RAIL : Fld := { reg := RL_BOUGH, lo := 0, n := 16, acc := .ro } -- Bit k: rail k has an enabled cause
def row_RL_BOUGH : RegRow := { reg := RL_BOUGH, fields := [RL_BOUGH_RAIL] }

def regsLoopPart0 : List RegRow :=
  [row_FL_CFG, row_FL_STATUS, row_FL_REF, row_FL_RAMP, row_FL_REFNOW, row_FL_WIN, row_FL_LL, row_FL_LL_LIM, row_FL_DLIM, row_FL_ILIM, row_FL_IPRE, row_FL_S_KI, row_FL_S_B0, row_FL_S_B1, row_FL_S_B2, row_FL_S_A1, row_FL_S_A2, row_FL_S_GSH, row_FL_G_KI, row_FL_G_B0, row_FL_G_B1, row_FL_G_B2, row_FL_G_A1, row_FL_G_A2, row_FL_G_GSH, row_FL_G_LL, row_FL_G_OFS, row_FL_OFS_LIM, row_FL_STRIKE, row_FL_RELEASE]

def regsLoopPart1 : List RegRow :=
  [row_FL_RESTORE, row_FL_FF, row_FL_FFNOW, row_FL_CMT, row_FL_STEER, row_FL_CAUSE, row_FL_CAUSE_EN, row_FL_OVR, row_FL_INT_LO, row_FL_INT_HI, row_FL_DUTY, row_FL_ERR, row_FL_ISUM, row_FL_DROOP, row_FL_COUNT, row_FL_BOUGH, row_PH_ROLE, row_PH_CFG, row_PH_ANG, row_PH_G_ANG, row_PH_ISCAL, row_PH_SHARE, row_PH_G_SHARE, row_PH_EQ, row_PH_CTL, row_PH_STATUS, row_PH_IMEAS, row_PH_EQNOW, row_PH_ANGNOW, row_PH_STAGE]

def regsLoopPart2 : List RegRow :=
  [row_PH_SFAULT, row_PH_CAUSE, row_PH_CAUSE_EN, row_PH_COUNT, row_PH_RAW, row_PH_RPER, row_PH_G_RPER, row_PH_RPER_MIN, row_PH_RPER_MAX, row_PH_RLOCK, row_PH_RPERNOW, row_PH_SB_CFG, row_PH_SB_STATUS, row_PH_SB_CAUSE, row_PH_SB_CAUSE_EN, row_PH_SB_ROLL, row_PH_MAP_CTL, row_PH_SACC_CMD, row_PH_SACC_DATA, row_PH_BOUGH0, row_PH_BOUGH1, row_PH_BOUGH2, row_PH_DESC, row_GV_CFG, row_GV_STATUS, row_GV_LEAD, row_GV_CAUSE, row_GV_CAUSE_EN, row_GV_RETIRED, row_GV_SHCNT]

def regsLoopPart3 : List RegRow :=
  [row_GV_BANKOWN, row_GV_TCFG, row_GV_TCODE, row_GV_TDATA, row_GV_TSTAT, row_RL_CTL, row_RL_CFG, row_RL_STATUS, row_RL_SEQ_ON, row_RL_SEQ_OFF, row_RL_SEQ_TMO, row_RL_SS, row_RL_PG, row_RL_TRK, row_RL_PB, row_RL_OFF, row_RL_ILIM, row_RL_CAP, row_RL_COP, row_RL_COP_TH, row_RL_PF, row_RL_PMASK_LO, row_RL_PMASK_HI, row_RL_CAUSE, row_RL_CAUSE_EN, row_RL_BOUGH]

/-- The register map rows of the FL, PH, GV, RL blocks. -/
def regsLoop : List RegRow := regsLoopPart0 ++ regsLoopPart1 ++ regsLoopPart2 ++ regsLoopPart3

end Sys2Proof.Machine
end

