-- ==== Sys2Proof/Machine/RegsPower.lean ====
section
/-! DEFINITION. The registers of the FB, ST, PD, CN, PX blocks, one definition per register and per field, as the summaries and field
 tables of the spec give them (offset, copies, access, reset word, owner, reserved values). -/

namespace Sys2Proof.Machine

/-- FB_PTH: Current-limit thresholds, per phase (spec/06, R253). -/
def FB_PTH : Reg := { base := 0x40040000, n1 := 64, s1 := 0x100, rst := 0x005000C8, own := .phase }
def FB_PTH_OC_POS : Fld := { reg := FB_PTH, lo := 0, n := 10, acc := .rwl, bad := [(0, 0), (512, 1023)] } -- Positive limit, 0.25 A (reset 50 A); 0, 512 to 1,023 and values above the present FB_PHOC.HOC reserved (R719)
def FB_PTH_OC_NEG : Fld := { reg := FB_PTH, lo := 16, n := 10, acc := .rwl, bad := [(512, 1023)] } -- Negative limit magnitude, 0.25 A (reset 20 A); 0 disables
def row_FB_PTH : RegRow := { reg := FB_PTH, fields := [FB_PTH_OC_POS, FB_PTH_OC_NEG] }
/-- FB_PHOC: Hard over-current and high-side short, per phase (spec/06, R253). -/
def FB_PHOC : Reg := { base := 0x40040004, n1 := 64, s1 := 0x100, rst := 0x010201FF, own := .phase }
def FB_PHOC_HOC : Fld := { reg := FB_PHOC, lo := 0, n := 10, acc := .rwl, bad := [(512, 1023)] } -- Hard limit, 0.25 A; values below the present OC_POS, and 512 to 1,023, reserved (R719)
def FB_PHOC_HSS_N : Fld := { reg := FB_PHOC, lo := 16, n := 4, acc := .rwl, bad := [(0, 0)] } -- Samples for a high-side short; 0 reserved
def FB_PHOC_GUARD : Fld := { reg := FB_PHOC, lo := 20, n := 8, acc := .rwl } -- LOW time before a sample counts, LCLK cycles
def row_FB_PHOC : RegRow := { reg := FB_PHOC, fields := [FB_PHOC_HOC, FB_PHOC_HSS_N, FB_PHOC_GUARD] }
/-- FB_PFILT: Current comparator filters, per phase (spec/06, R253). -/
def FB_PFILT : Reg := { base := 0x40040008, n1 := 64, s1 := 0x100, rst := 0x00C81111, own := .phase }
def FB_PFILT_CBC_N : Fld := { reg := FB_PFILT, lo := 0, n := 4, acc := .rwl } -- Positive limit filter
def FB_PFILT_CBC_M : Fld := { reg := FB_PFILT, lo := 4, n := 4, acc := .rwl } -- Positive limit filter
def FB_PFILT_NOC_N : Fld := { reg := FB_PFILT, lo := 8, n := 4, acc := .rwl } -- Negative limit filter
def FB_PFILT_NOC_M : Fld := { reg := FB_PFILT, lo := 12, n := 4, acc := .rwl } -- Negative limit filter
def FB_PFILT_HOC_N : Fld := { reg := FB_PFILT, lo := 16, n := 4, acc := .rwl } -- Hard limit filter
def FB_PFILT_HOC_M : Fld := { reg := FB_PFILT, lo := 20, n := 4, acc := .rwl } -- Hard limit filter
def row_FB_PFILT : RegRow := { reg := FB_PFILT, fields := [FB_PFILT_CBC_N, FB_PFILT_CBC_M, FB_PFILT_NOC_N, FB_PFILT_NOC_M, FB_PFILT_HOC_N, FB_PFILT_HOC_M] }
/-- FB_PLAT: Phase latches (spec/06, R253). -/
def FB_PLAT : Reg := { base := 0x4004000C, n1 := 64, s1 := 0x100, own := .phase }
def FB_PLAT_HOC : Fld := { reg := FB_PLAT, lo := 0, n := 1, acc := .ro } -- Hard over-current latched
def FB_PLAT_HSS : Fld := { reg := FB_PLAT, lo := 1, n := 1, acc := .ro } -- High-side short latched
def FB_PLAT_SOT : Fld := { reg := FB_PLAT, lo := 2, n := 1, acc := .ro } -- Stage over-temperature latched
def row_FB_PLAT : RegRow := { reg := FB_PLAT, fields := [FB_PLAT_HOC, FB_PLAT_HSS, FB_PLAT_SOT] }
/-- FB_PCLR: Phase latch clears (spec/06, R253). -/
def FB_PCLR : Reg := { base := 0x40040010, n1 := 64, s1 := 0x100, own := .phase }
def FB_PCLR_CLR : Fld := { reg := FB_PCLR, lo := 0, n := 3, acc := .wo } -- Writing 1 requests a clear of the FB_PLAT bit (R249)
def row_FB_PCLR : RegRow := { reg := FB_PCLR, fields := [FB_PCLR_CLR] }
/-- FB_PSTAT: Phase comparator outputs (spec/06, R253). -/
def FB_PSTAT : Reg := { base := 0x40040014, n1 := 64, s1 := 0x100, own := .phase }
def FB_PSTAT_CBC : Fld := { reg := FB_PSTAT, lo := 0, n := 1, acc := .ro } -- Positive limit filtered output
def FB_PSTAT_NOC : Fld := { reg := FB_PSTAT, lo := 1, n := 1, acc := .ro } -- Negative limit filtered output
def FB_PSTAT_HOC : Fld := { reg := FB_PSTAT, lo := 2, n := 1, acc := .ro } -- Hard limit filtered output
def FB_PSTAT_HSS_CNT : Fld := { reg := FB_PSTAT, lo := 4, n := 4, acc := .ro } -- Present count of R236
def row_FB_PSTAT : RegRow := { reg := FB_PSTAT, fields := [FB_PSTAT_CBC, FB_PSTAT_NOC, FB_PSTAT_HOC, FB_PSTAT_HSS_CNT] }
/-- FB_PCAUSE: Phase leaf causes (spec/06, R253). -/
def FB_PCAUSE : Reg := { base := 0x40040018, n1 := 64, s1 := 0x100, own := .phase }
def FB_PCAUSE_NOC : Fld := { reg := FB_PCAUSE, lo := 0, n := 1, acc := .w1c } -- Negative limit tripped
def FB_PCAUSE_HOC : Fld := { reg := FB_PCAUSE, lo := 1, n := 1, acc := .w1c } -- Hard over-current
def FB_PCAUSE_HSS : Fld := { reg := FB_PCAUSE, lo := 2, n := 1, acc := .w1c } -- High-side short
def FB_PCAUSE_SOT : Fld := { reg := FB_PCAUSE, lo := 3, n := 1, acc := .w1c } -- Phase held for stage temperature
def FB_PCAUSE_CLR_REF : Fld := { reg := FB_PCAUSE, lo := 13, n := 1, acc := .w1c } -- A clear was refused
def FB_PCAUSE_LOCK_ERR : Fld := { reg := FB_PCAUSE, lo := 14, n := 1, acc := .w1c } -- Write to a locked register
def FB_PCAUSE_ACC_ERR : Fld := { reg := FB_PCAUSE, lo := 15, n := 1, acc := .w1c } -- Reserved encoding written
def row_FB_PCAUSE : RegRow := { reg := FB_PCAUSE, fields := [FB_PCAUSE_NOC, FB_PCAUSE_HOC, FB_PCAUSE_HSS, FB_PCAUSE_SOT, FB_PCAUSE_CLR_REF, FB_PCAUSE_LOCK_ERR, FB_PCAUSE_ACC_ERR] }
/-- FB_PCAUSE_EN: Phase cause enables (spec/06, R253). -/
def FB_PCAUSE_EN : Reg := { base := 0x4004001C, n1 := 64, s1 := 0x100, own := .phase }
def FB_PCAUSE_EN_NOC : Fld := { reg := FB_PCAUSE_EN, lo := 0, n := 1, acc := .rw } -- Negative limit tripped
def FB_PCAUSE_EN_HOC : Fld := { reg := FB_PCAUSE_EN, lo := 1, n := 1, acc := .rw } -- Hard over-current
def FB_PCAUSE_EN_HSS : Fld := { reg := FB_PCAUSE_EN, lo := 2, n := 1, acc := .rw } -- High-side short
def FB_PCAUSE_EN_SOT : Fld := { reg := FB_PCAUSE_EN, lo := 3, n := 1, acc := .rw } -- Phase held for stage temperature
def FB_PCAUSE_EN_CLR_REF : Fld := { reg := FB_PCAUSE_EN, lo := 13, n := 1, acc := .rw } -- A clear was refused
def FB_PCAUSE_EN_LOCK_ERR : Fld := { reg := FB_PCAUSE_EN, lo := 14, n := 1, acc := .rw } -- Write to a locked register
def FB_PCAUSE_EN_ACC_ERR : Fld := { reg := FB_PCAUSE_EN, lo := 15, n := 1, acc := .rw } -- Reserved encoding written
def row_FB_PCAUSE_EN : RegRow := { reg := FB_PCAUSE_EN, fields := [FB_PCAUSE_EN_NOC, FB_PCAUSE_EN_HOC, FB_PCAUSE_EN_HSS, FB_PCAUSE_EN_SOT, FB_PCAUSE_EN_CLR_REF, FB_PCAUSE_EN_LOCK_ERR, FB_PCAUSE_EN_ACC_ERR] }
/-- FB_RCFG: Ladder fractions and ceilings, per rail (spec/06, R253). -/
def FB_RCFG : Reg := { base := 0x40044000, n1 := 16, s1 := 0x400, rst := 0x0C0C0808, own := .rail }
def FB_RCFG_OV_F : Fld := { reg := FB_RCFG, lo := 0, n := 6, acc := .rwl, bad := [(0, 0), (33, 63)] } -- Over-voltage base fraction, 1/64; 0 and 33 to 63 reserved
def FB_RCFG_UV_F : Fld := { reg := FB_RCFG, lo := 8, n := 6, acc := .rwl, bad := [(0, 0), (33, 63)] } -- Under-voltage base fraction, 1/64; 0 and 33 to 63 reserved
def FB_RCFG_OV_CEIL : Fld := { reg := FB_RCFG, lo := 16, n := 6, acc := .rwl, bad := [(33, 63)] } -- Over-voltage ceiling, OV_F to 32; below OV_F and 33 to 63 reserved (R243)
def FB_RCFG_UV_CEIL : Fld := { reg := FB_RCFG, lo := 24, n := 6, acc := .rwl, bad := [(33, 63)] } -- Under-voltage ceiling, UV_F to 32; below UV_F and 33 to 63 reserved (R243)
def row_FB_RCFG : RegRow := { reg := FB_RCFG, fields := [FB_RCFG_OV_F, FB_RCFG_UV_F, FB_RCFG_OV_CEIL, FB_RCFG_UV_CEIL] }
/-- FB_RABS: Absolute over-voltage, per rail (spec/06, R253). -/
def FB_RABS : Reg := { base := 0x40044004, n1 := 16, s1 := 0x400, own := .rail }
def FB_RABS_TH : Fld := { reg := FB_RABS, lo := 0, n := 14, acc := .rwl } -- Absolute threshold, DAC LSB; 0 disables
def row_FB_RABS : RegRow := { reg := FB_RABS, fields := [FB_RABS_TH] }
/-- FB_RFILT: Voltage comparator filters, per rail (spec/06, R253). -/
def FB_RFILT : Reg := { base := 0x40044008, n1 := 16, s1 := 0x400, rst := 0x00538553, own := .rail }
def FB_RFILT_OV_N : Fld := { reg := FB_RFILT, lo := 0, n := 4, acc := .rwl } -- Over-voltage filter
def FB_RFILT_OV_M : Fld := { reg := FB_RFILT, lo := 4, n := 4, acc := .rwl } -- Over-voltage filter
def FB_RFILT_UV_N : Fld := { reg := FB_RFILT, lo := 8, n := 4, acc := .rwl } -- Under-voltage filter
def FB_RFILT_UV_M : Fld := { reg := FB_RFILT, lo := 12, n := 4, acc := .rwl } -- Under-voltage filter
def FB_RFILT_ABS_N : Fld := { reg := FB_RFILT, lo := 16, n := 4, acc := .rwl } -- Absolute filter
def FB_RFILT_ABS_M : Fld := { reg := FB_RFILT, lo := 20, n := 4, acc := .rwl } -- Absolute filter
def row_FB_RFILT : RegRow := { reg := FB_RFILT, fields := [FB_RFILT_OV_N, FB_RFILT_OV_M, FB_RFILT_UV_N, FB_RFILT_UV_M, FB_RFILT_ABS_N, FB_RFILT_ABS_M] }
/-- FB_RACT: Rail source actions (spec/06, R253). -/
def FB_RACT : Reg := { base := 0x4004400C, n1 := 16, s1 := 0x400, rst := 0x003D3132, own := .rail }
def FB_RACT_MODE (i : Nat) : Fld := { reg := FB_RACT, lo := 0 + 8 * i, n := 2, acc := .rwl, bad := [(3, 3)] } -- Rail-off mode of action group g: 0 over-voltage, 1 under-voltage, 2 absolute
def FB_RACT_CROW (i : Nat) : Fld := { reg := FB_RACT, lo := 2 + 8 * i, n := 1, acc := .rwl } -- Assert CROWBAR_N of FB_CROWMAP
def FB_RACT_EFUSE (i : Nat) : Fld := { reg := FB_RACT, lo := 3 + 8 * i, n := 1, acc := .rwl } -- Drop EFUSE_EN
def FB_RACT_FAULT (i : Nat) : Fld := { reg := FB_RACT, lo := 4 + 8 * i, n := 1, acc := .rwl } -- Assert FAULT_N
def FB_RACT_LATCH (i : Nat) : Fld := { reg := FB_RACT, lo := 5 + 8 * i, n := 1, acc := .rwl } -- Latch
def row_FB_RACT : RegRow := { reg := FB_RACT, fields := (List.range 3).map FB_RACT_MODE ++ (List.range 3).map FB_RACT_CROW ++ (List.range 3).map FB_RACT_EFUSE ++ (List.range 3).map FB_RACT_FAULT ++ (List.range 3).map FB_RACT_LATCH }
/-- FB_RADAPT: Margin adaptation (spec/06, R253). -/
def FB_RADAPT : Reg := { base := 0x40044010, n1 := 16, s1 := 0x400, rst := 0x00000A41, own := .rail }
def FB_RADAPT_EN : Fld := { reg := FB_RADAPT, lo := 0, n := 1, acc := .rw } -- 1: margin adaptation (R242)
def FB_RADAPT_GTH : Fld := { reg := FB_RADAPT, lo := 4, n := 4, acc := .rw } -- Near-misses per interval that widen
def FB_RADAPT_T : Fld := { reg := FB_RADAPT, lo := 8, n := 4, acc := .rw } -- Interval 2^T µs
def FB_RADAPT_OV_FE : Fld := { reg := FB_RADAPT, lo := 16, n := 6, acc := .ro } -- Effective over-voltage fraction
def FB_RADAPT_UV_FE : Fld := { reg := FB_RADAPT, lo := 24, n := 6, acc := .ro } -- Effective under-voltage fraction
def row_FB_RADAPT : RegRow := { reg := FB_RADAPT, fields := [FB_RADAPT_EN, FB_RADAPT_GTH, FB_RADAPT_T, FB_RADAPT_OV_FE, FB_RADAPT_UV_FE] }
/-- FB_RTEST: Comparator test (spec/06, R253). -/
def FB_RTEST : Reg := { base := 0x40044014, n1 := 16, s1 := 0x400, rst := 0x00000A00, own := .rail }
def FB_RTEST_GO : Fld := { reg := FB_RTEST, lo := 0, n := 1, acc := .wo } -- Writing 1 starts the test (R235)
def FB_RTEST_LEN : Fld := { reg := FB_RTEST, lo := 8, n := 8, acc := .rw, bad := [(0, 0)] } -- Test window, µs; 0 reserved
def FB_RTEST_RES : Fld := { reg := FB_RTEST, lo := 16, n := 2, acc := .ro } -- 0 none, 1 pass, 2 fail
def FB_RTEST_BUSY : Fld := { reg := FB_RTEST, lo := 18, n := 1, acc := .ro } -- Test running
def row_FB_RTEST : RegRow := { reg := FB_RTEST, fields := [FB_RTEST_GO, FB_RTEST_LEN, FB_RTEST_RES, FB_RTEST_BUSY] }
/-- FB_RLAT: Rail latches (spec/06, R253). -/
def FB_RLAT : Reg := { base := 0x40044018, n1 := 16, s1 := 0x400, own := .rail }
def FB_RLAT_OV : Fld := { reg := FB_RLAT, lo := 0, n := 1, acc := .ro } -- Over-voltage latched
def FB_RLAT_UV : Fld := { reg := FB_RLAT, lo := 1, n := 1, acc := .ro } -- Under-voltage latched
def FB_RLAT_ABS : Fld := { reg := FB_RLAT, lo := 2, n := 1, acc := .ro } -- Absolute over-voltage latched
def FB_RLAT_START_SHORT : Fld := { reg := FB_RLAT, lo := 3, n := 1, acc := .ro } -- Start short latched (R198)
def FB_RLAT_HSS : Fld := { reg := FB_RLAT, lo := 4, n := 1, acc := .ro } -- Rail off for a high-side short
def FB_RLAT_DEV : Fld := { reg := FB_RLAT, lo := 5, n := 1, acc := .ro } -- Rail off by a latching device source
def row_FB_RLAT : RegRow := { reg := FB_RLAT, fields := [FB_RLAT_OV, FB_RLAT_UV, FB_RLAT_ABS, FB_RLAT_START_SHORT, FB_RLAT_HSS, FB_RLAT_DEV] }
/-- FB_RCLR: Rail latch clears (spec/06, R253). -/
def FB_RCLR : Reg := { base := 0x4004401C, n1 := 16, s1 := 0x400, own := .rail }
def FB_RCLR_CLR : Fld := { reg := FB_RCLR, lo := 0, n := 6, acc := .wo } -- Writing 1 requests a clear of the FB_RLAT bit
def row_FB_RCLR : RegRow := { reg := FB_RCLR, fields := [FB_RCLR_CLR] }
/-- FB_RSTAT: Rail comparator outputs (spec/06, R253). -/
def FB_RSTAT : Reg := { base := 0x40044020, n1 := 16, s1 := 0x400, own := .rail }
def FB_RSTAT_OV : Fld := { reg := FB_RSTAT, lo := 0, n := 1, acc := .ro } -- Over-voltage filtered output
def FB_RSTAT_UV : Fld := { reg := FB_RSTAT, lo := 1, n := 1, acc := .ro } -- Under-voltage filtered output
def FB_RSTAT_ABS : Fld := { reg := FB_RSTAT, lo := 2, n := 1, acc := .ro } -- Absolute filtered output
def FB_RSTAT_BLANK : Fld := { reg := FB_RSTAT, lo := 3, n := 1, acc := .ro } -- Voltage comparators blanked
def FB_RSTAT_OFF_ACT : Fld := { reg := FB_RSTAT, lo := 4, n := 2, acc := .ro } -- Rail-off in progress: 0 none, 1 tri-state, 2 discharge
def row_FB_RSTAT : RegRow := { reg := FB_RSTAT, fields := [FB_RSTAT_OV, FB_RSTAT_UV, FB_RSTAT_ABS, FB_RSTAT_BLANK, FB_RSTAT_OFF_ACT] }
/-- FB_RCAUSE: Rail leaf causes (spec/06, R253). -/
def FB_RCAUSE : Reg := { base := 0x40044024, n1 := 16, s1 := 0x400, own := .rail }
def FB_RCAUSE_OV : Fld := { reg := FB_RCAUSE, lo := 0, n := 1, acc := .w1c } -- Over-voltage decision
def FB_RCAUSE_UV : Fld := { reg := FB_RCAUSE, lo := 1, n := 1, acc := .w1c } -- Under-voltage decision
def FB_RCAUSE_ABS : Fld := { reg := FB_RCAUSE, lo := 2, n := 1, acc := .w1c } -- Absolute over-voltage decision
def FB_RCAUSE_START_SHORT : Fld := { reg := FB_RCAUSE, lo := 3, n := 1, acc := .w1c } -- Start short
def FB_RCAUSE_RAIL_OFF : Fld := { reg := FB_RCAUSE, lo := 4, n := 1, acc := .w1c } -- Firebreak turned the rail off
def FB_RCAUSE_MARGIN : Fld := { reg := FB_RCAUSE, lo := 5, n := 1, acc := .w1c } -- A fraction reached its ceiling
def FB_RCAUSE_TEST_FAIL : Fld := { reg := FB_RCAUSE, lo := 6, n := 1, acc := .w1c } -- Comparator test failed
def FB_RCAUSE_TEST_DONE : Fld := { reg := FB_RCAUSE, lo := 7, n := 1, acc := .w1c } -- Comparator test passed
def FB_RCAUSE_CLR_REF : Fld := { reg := FB_RCAUSE, lo := 13, n := 1, acc := .w1c } -- A clear was refused
def FB_RCAUSE_LOCK_ERR : Fld := { reg := FB_RCAUSE, lo := 14, n := 1, acc := .w1c } -- Write to a locked register
def FB_RCAUSE_ACC_ERR : Fld := { reg := FB_RCAUSE, lo := 15, n := 1, acc := .w1c } -- Reserved encoding, or a test outside OFF
def row_FB_RCAUSE : RegRow := { reg := FB_RCAUSE, fields := [FB_RCAUSE_OV, FB_RCAUSE_UV, FB_RCAUSE_ABS, FB_RCAUSE_START_SHORT, FB_RCAUSE_RAIL_OFF, FB_RCAUSE_MARGIN, FB_RCAUSE_TEST_FAIL, FB_RCAUSE_TEST_DONE, FB_RCAUSE_CLR_REF, FB_RCAUSE_LOCK_ERR, FB_RCAUSE_ACC_ERR] }
/-- FB_RCAUSE_EN: Rail cause enables (spec/06, R253). -/
def FB_RCAUSE_EN : Reg := { base := 0x40044028, n1 := 16, s1 := 0x400, own := .rail }
def FB_RCAUSE_EN_OV : Fld := { reg := FB_RCAUSE_EN, lo := 0, n := 1, acc := .rw } -- Over-voltage decision
def FB_RCAUSE_EN_UV : Fld := { reg := FB_RCAUSE_EN, lo := 1, n := 1, acc := .rw } -- Under-voltage decision
def FB_RCAUSE_EN_ABS : Fld := { reg := FB_RCAUSE_EN, lo := 2, n := 1, acc := .rw } -- Absolute over-voltage decision
def FB_RCAUSE_EN_START_SHORT : Fld := { reg := FB_RCAUSE_EN, lo := 3, n := 1, acc := .rw } -- Start short
def FB_RCAUSE_EN_RAIL_OFF : Fld := { reg := FB_RCAUSE_EN, lo := 4, n := 1, acc := .rw } -- Firebreak turned the rail off
def FB_RCAUSE_EN_MARGIN : Fld := { reg := FB_RCAUSE_EN, lo := 5, n := 1, acc := .rw } -- A fraction reached its ceiling
def FB_RCAUSE_EN_TEST_FAIL : Fld := { reg := FB_RCAUSE_EN, lo := 6, n := 1, acc := .rw } -- Comparator test failed
def FB_RCAUSE_EN_TEST_DONE : Fld := { reg := FB_RCAUSE_EN, lo := 7, n := 1, acc := .rw } -- Comparator test passed
def FB_RCAUSE_EN_CLR_REF : Fld := { reg := FB_RCAUSE_EN, lo := 13, n := 1, acc := .rw } -- A clear was refused
def FB_RCAUSE_EN_LOCK_ERR : Fld := { reg := FB_RCAUSE_EN, lo := 14, n := 1, acc := .rw } -- Write to a locked register
def FB_RCAUSE_EN_ACC_ERR : Fld := { reg := FB_RCAUSE_EN, lo := 15, n := 1, acc := .rw } -- Reserved encoding, or a test outside OFF
def row_FB_RCAUSE_EN : RegRow := { reg := FB_RCAUSE_EN, fields := [FB_RCAUSE_EN_OV, FB_RCAUSE_EN_UV, FB_RCAUSE_EN_ABS, FB_RCAUSE_EN_START_SHORT, FB_RCAUSE_EN_RAIL_OFF, FB_RCAUSE_EN_MARGIN, FB_RCAUSE_EN_TEST_FAIL, FB_RCAUSE_EN_TEST_DONE, FB_RCAUSE_EN_CLR_REF, FB_RCAUSE_EN_LOCK_ERR, FB_RCAUSE_EN_ACC_ERR] }
/-- FB_IIN: Input over-current (spec/06, R253). -/
def FB_IIN : Reg := { base := 0x40048000, rst := 0x00005364 }
def FB_IIN_TH : Fld := { reg := FB_IIN, lo := 0, n := 8, acc := .rwl, bad := [(0, 0)] } -- Input threshold, 0.5 mV (reset 50 mV); 0 reserved
def FB_IIN_N : Fld := { reg := FB_IIN, lo := 8, n := 4, acc := .rwl } -- Input filter
def FB_IIN_M : Fld := { reg := FB_IIN, lo := 12, n := 4, acc := .rwl } -- Input filter
def row_FB_IIN : RegRow := { reg := FB_IIN, fields := [FB_IIN_TH, FB_IIN_N, FB_IIN_M] }
/-- FB_OT: Die over-temperature (spec/06, R253). -/
def FB_OT : Reg := { base := 0x40048004, rst := 0x000005AA }
def FB_OT_TH : Fld := { reg := FB_OT, lo := 0, n := 8, acc := .rwl } -- Die threshold, °C + 40 (reset 130 °C)
def FB_OT_HYST : Fld := { reg := FB_OT, lo := 8, n := 4, acc := .rwl } -- Condition end, °C below TH
def row_FB_OT : RegRow := { reg := FB_OT, fields := [FB_OT_TH, FB_OT_HYST] }
/-- FB_STORE: Store voltage and current limits (spec/06, R253). -/
def FB_STORE : Reg := { base := 0x40048008 }
def FB_STORE_OV : Fld := { reg := FB_STORE, lo := 0, n := 10, acc := .rwl } -- Store over-voltage, 1.5625 mV; 0 disables
def FB_STORE_OC : Fld := { reg := FB_STORE, lo := 16, n := 11, acc := .rwl } -- Store over-current, 0.25 A; 0 disables
def row_FB_STORE : RegRow := { reg := FB_STORE, fields := [FB_STORE_OV, FB_STORE_OC] }
/-- FB_STH: Store temperature limit (spec/06, R253). -/
def FB_STH : Reg := { base := 0x4004800C }
def FB_STH_TH : Fld := { reg := FB_STH, lo := 0, n := 8, acc := .rwl } -- STORE_TH trip level, 6.25 mV; 0 disables
def row_FB_STH : RegRow := { reg := FB_STH, fields := [FB_STH_TH] }
/-- FB_LANE: Lanes watched for loss (spec/06, R253). -/
def FB_LANE : Reg := { base := 0x40048010 }
def FB_LANE_MASK : Fld := { reg := FB_LANE, lo := 0, n := 12, acc := .rwl } -- Bit l: loss of lane l is a source
def row_FB_LANE : RegRow := { reg := FB_LANE, fields := [FB_LANE_MASK] }
/-- FB_DLOCK: Device configuration lock (spec/06, R253). -/
def FB_DLOCK : Reg := { base := 0x40048014 }
def FB_DLOCK_LOCK : Fld := { reg := FB_DLOCK, lo := 0, n := 1, acc := .rwo } -- 1: device RWL registers locked until reset
def row_FB_DLOCK : RegRow := { reg := FB_DLOCK, fields := [FB_DLOCK_LOCK] }
/-- FB_CROWMAP: Crowbar of each rail (spec/06, R253). -/
def FB_CROWMAP : Reg := { base := 0x40048018 }
def FB_CROWMAP_C (i : Nat) : Fld := { reg := FB_CROWMAP, lo := 0 + 2 * i, n := 2, acc := .rwl } -- Crowbar of rail k
def row_FB_CROWMAP : RegRow := { reg := FB_CROWMAP, fields := (List.range 16).map FB_CROWMAP_C }
/-- FB_PINCFG: Output pin options (spec/06, R253). -/
def FB_PINCFG : Reg := { base := 0x4004801C, rst := 0x0000640A }
def FB_PINCFG_CROW_MIN : Fld := { reg := FB_PINCFG, lo := 0, n := 8, acc := .rwl } -- Shortest crowbar assertion, µs
def FB_PINCFG_EFUSE_MIN : Fld := { reg := FB_PINCFG, lo := 8, n := 8, acc := .rwl } -- Shortest non-latched EFUSE_EN drop, ms
def FB_PINCFG_EFUSE_ON : Fld := { reg := FB_PINCFG, lo := 16, n := 1, acc := .rwl } -- 1: EFUSE_EN may go high (R228)
def row_FB_PINCFG : RegRow := { reg := FB_PINCFG, fields := [FB_PINCFG_CROW_MIN, FB_PINCFG_EFUSE_MIN, FB_PINCFG_EFUSE_ON] }
/-- FB_WDG: Warden watchdog (spec/06, R253). -/
def FB_WDG : Reg := { base := 0x40048020, rst := 0x00031388, own := .sealed }
def FB_WDG_TMO : Fld := { reg := FB_WDG, lo := 0, n := 16, acc := .rw, bad := [(0, 0)] } -- Timeout, 10 µs units (reset 50 ms); 0 reserved
def FB_WDG_EN : Fld := { reg := FB_WDG, lo := 16, n := 1, acc := .rw } -- 1: watchdog runs
def FB_WDG_ACT : Fld := { reg := FB_WDG, lo := 17, n := 2, acc := .rw, bad := [(3, 3)] } -- 0 cause, 1 warden reset, 2 device reset, 3 reserved
def row_FB_WDG : RegRow := { reg := FB_WDG, fields := [FB_WDG_TMO, FB_WDG_EN, FB_WDG_ACT] }
/-- FB_WDG_KICK: Warden watchdog kick (spec/06, R253). -/
def FB_WDG_KICK : Reg := { base := 0x40048024, own := .sealed }
def FB_WDG_KICK_KEY : Fld := { reg := FB_WDG_KICK, lo := 0, n := 16, acc := .wo } -- 0x5A3C kicks
def row_FB_WDG_KICK : RegRow := { reg := FB_WDG_KICK, fields := [FB_WDG_KICK_KEY] }
/-- FB_WDG_CNT: Warden watchdog remaining (spec/06, R253). -/
def FB_WDG_CNT : Reg := { base := 0x40048028 }
def FB_WDG_CNT_LEFT : Fld := { reg := FB_WDG_CNT, lo := 0, n := 16, acc := .ro } -- Time left, 10 µs units
def row_FB_WDG_CNT : RegRow := { reg := FB_WDG_CNT, fields := [FB_WDG_CNT_LEFT] }
/-- FB_CWDG: Core watchdog; instance stride 0x8, c = 0 to 3 (spec/06, R253). -/
def FB_CWDG : Reg := { base := 0x40048040, n1 := 4, s1 := 0x8, rst := 0x00001388, own := .sealed }
def FB_CWDG_TMO : Fld := { reg := FB_CWDG, lo := 0, n := 16, acc := .rw, bad := [(0, 0)] } -- Timeout, 10 µs units; 0 reserved
def FB_CWDG_EN : Fld := { reg := FB_CWDG, lo := 16, n := 1, acc := .rw } -- 1: watchdog runs
def FB_CWDG_ACT : Fld := { reg := FB_CWDG, lo := 17, n := 1, acc := .rw } -- 1: reset core c on expiry
def row_FB_CWDG : RegRow := { reg := FB_CWDG, fields := [FB_CWDG_TMO, FB_CWDG_EN, FB_CWDG_ACT] }
/-- FB_CWDG_KICK: Core watchdog kick; instance stride 0x8 (spec/06, R253). -/
def FB_CWDG_KICK : Reg := { base := 0x40048044, n1 := 4, s1 := 0x8, own := .coreOnly }
def FB_CWDG_KICK_KEY : Fld := { reg := FB_CWDG_KICK, lo := 0, n := 16, acc := .wo } -- 0x5A3C kicks
def row_FB_CWDG_KICK : RegRow := { reg := FB_CWDG_KICK, fields := [FB_CWDG_KICK_KEY] }
/-- FB_DACT: Device source actions (spec/06, R253). -/
def FB_DACT : Reg := { base := 0x40048100, n2 := 8, s2 := 0x4, rtab := [0x0385FFFF, 0x0305FFFF, 0x03000000, 0x00000000, 0x03040000, 0x03040000, 0x03040000, 0x00000000] }
def FB_DACT_RAILS : Fld := { reg := FB_DACT, lo := 0, n := 16, acc := .rwl } -- Bit k: rail k is turned off
def FB_DACT_MODE : Fld := { reg := FB_DACT, lo := 16, n := 2, acc := .rwl, bad := [(3, 3)] } -- Rail-off mode: 0 none, 1 tri-state, 2 discharge, 3 reserved
def FB_DACT_STORE : Fld := { reg := FB_DACT, lo := 18, n := 1, acc := .rwl } -- 1: every store-role phase TRI
def FB_DACT_CROW : Fld := { reg := FB_DACT, lo := 19, n := 4, acc := .rwl } -- Bit j: assert CROWBAR_N[j]
def FB_DACT_EFUSE : Fld := { reg := FB_DACT, lo := 23, n := 1, acc := .rwl } -- 1: drop EFUSE_EN
def FB_DACT_FAULT : Fld := { reg := FB_DACT, lo := 24, n := 1, acc := .rwl } -- 1: assert FAULT_N
def FB_DACT_LATCH : Fld := { reg := FB_DACT, lo := 25, n := 1, acc := .rwl } -- 1: latch
def row_FB_DACT : RegRow := { reg := FB_DACT, fields := [FB_DACT_RAILS, FB_DACT_MODE, FB_DACT_STORE, FB_DACT_CROW, FB_DACT_EFUSE, FB_DACT_FAULT, FB_DACT_LATCH] }
/-- FB_DLAT: Device latches (spec/06, R253). -/
def FB_DLAT : Reg := { base := 0x40048200 }
def FB_DLAT_SRC : Fld := { reg := FB_DLAT, lo := 0, n := 8, acc := .ro } -- Bit s: source s latched
def row_FB_DLAT : RegRow := { reg := FB_DLAT, fields := [FB_DLAT_SRC] }
/-- FB_DCLR: Device latch clears (spec/06, R253). -/
def FB_DCLR : Reg := { base := 0x40048204 }
def FB_DCLR_CLR : Fld := { reg := FB_DCLR, lo := 0, n := 8, acc := .wo } -- Writing 1 requests a clear of latch s
def row_FB_DCLR : RegRow := { reg := FB_DCLR, fields := [FB_DCLR_CLR] }
/-- FB_DSTAT: Device source outputs (spec/06, R253). -/
def FB_DSTAT : Reg := { base := 0x40048208 }
def FB_DSTAT_SRC : Fld := { reg := FB_DSTAT, lo := 0, n := 8, acc := .ro } -- Bit s: source s output, filtered where filtered
def row_FB_DSTAT : RegRow := { reg := FB_DSTAT, fields := [FB_DSTAT_SRC] }
/-- FB_DCAUSE: Device leaf causes (spec/06, R253). -/
def FB_DCAUSE : Reg := { base := 0x4004820C }
def FB_DCAUSE_SRC : Fld := { reg := FB_DCAUSE, lo := 0, n := 8, acc := .w1c } -- Bit s: source s decided
def FB_DCAUSE_CROW : Fld := { reg := FB_DCAUSE, lo := 8, n := 1, acc := .w1c } -- A crowbar was asserted
def FB_DCAUSE_EFUSE : Fld := { reg := FB_DCAUSE, lo := 9, n := 1, acc := .w1c } -- EFUSE_EN was dropped
def FB_DCAUSE_CLR_REF : Fld := { reg := FB_DCAUSE, lo := 13, n := 1, acc := .w1c } -- A clear was refused
def FB_DCAUSE_LOCK_ERR : Fld := { reg := FB_DCAUSE, lo := 14, n := 1, acc := .w1c } -- Write to a locked register
def FB_DCAUSE_ACC_ERR : Fld := { reg := FB_DCAUSE, lo := 15, n := 1, acc := .w1c } -- Reserved encoding or invalid kick
def row_FB_DCAUSE : RegRow := { reg := FB_DCAUSE, fields := [FB_DCAUSE_SRC, FB_DCAUSE_CROW, FB_DCAUSE_EFUSE, FB_DCAUSE_CLR_REF, FB_DCAUSE_LOCK_ERR, FB_DCAUSE_ACC_ERR] }
/-- FB_DCAUSE_EN: Device cause enables (spec/06, R253). -/
def FB_DCAUSE_EN : Reg := { base := 0x40048210 }
def FB_DCAUSE_EN_SRC : Fld := { reg := FB_DCAUSE_EN, lo := 0, n := 8, acc := .rw } -- Bit s: source s decided
def FB_DCAUSE_EN_CROW : Fld := { reg := FB_DCAUSE_EN, lo := 8, n := 1, acc := .rw } -- A crowbar was asserted
def FB_DCAUSE_EN_EFUSE : Fld := { reg := FB_DCAUSE_EN, lo := 9, n := 1, acc := .rw } -- EFUSE_EN was dropped
def FB_DCAUSE_EN_CLR_REF : Fld := { reg := FB_DCAUSE_EN, lo := 13, n := 1, acc := .rw } -- A clear was refused
def FB_DCAUSE_EN_LOCK_ERR : Fld := { reg := FB_DCAUSE_EN, lo := 14, n := 1, acc := .rw } -- Write to a locked register
def FB_DCAUSE_EN_ACC_ERR : Fld := { reg := FB_DCAUSE_EN, lo := 15, n := 1, acc := .rw } -- Reserved encoding or invalid kick
def row_FB_DCAUSE_EN : RegRow := { reg := FB_DCAUSE_EN, fields := [FB_DCAUSE_EN_SRC, FB_DCAUSE_EN_CROW, FB_DCAUSE_EN_EFUSE, FB_DCAUSE_EN_CLR_REF, FB_DCAUSE_EN_LOCK_ERR, FB_DCAUSE_EN_ACC_ERR] }
/-- FB_PINS: Output pin levels (spec/06, R253). -/
def FB_PINS : Reg := { base := 0x40048214, rst := 0x0000002F }
def FB_PINS_CROWBAR_N : Fld := { reg := FB_PINS, lo := 0, n := 4, acc := .ro } -- Pin levels
def FB_PINS_FAULT_N : Fld := { reg := FB_PINS, lo := 4, n := 1, acc := .ro } -- Pin level, 0 asserted; reads 0 until SVC releases it after reset
def FB_PINS_EFUSE_EN : Fld := { reg := FB_PINS, lo := 5, n := 1, acc := .ro } -- Inverted pin level: 1 while EFUSE_EN is low
def row_FB_PINS : RegRow := { reg := FB_PINS, fields := [FB_PINS_CROWBAR_N, FB_PINS_FAULT_N, FB_PINS_EFUSE_EN] }
/-- FB_TEMP: Hottest die sensor (spec/06, R253). -/
def FB_TEMP : Reg := { base := 0x40048218 }
def FB_TEMP_MAX : Fld := { reg := FB_TEMP, lo := 0, n := 8, acc := .ro } -- Hottest sensor reading, °C + 40
def FB_TEMP_IDX : Fld := { reg := FB_TEMP, lo := 8, n := 5, acc := .ro } -- Its sensor number
def row_FB_TEMP : RegRow := { reg := FB_TEMP, fields := [FB_TEMP_MAX, FB_TEMP_IDX] }
/-- FB_BOUGH: Bough summaries (spec/06, R253). -/
def FB_BOUGH : Reg := { base := 0x40048300, n2 := 4, s2 := 0x4 }
def FB_BOUGH_BITS : Fld := { reg := FB_BOUGH, lo := 0, n := 32, acc := .ro }
def row_FB_BOUGH : RegRow := { reg := FB_BOUGH, fields := [FB_BOUGH_BITS] }
/-- FB_SC_CFG: Sampled comparator; instance stride 0x10, j = 0 to 7 (spec/06, R253). -/
def FB_SC_CFG : Reg := { base := 0x5000E000, n1 := 8, s1 := 0x10 }
def FB_SC_CFG_EN : Fld := { reg := FB_SC_CFG, lo := 0, n := 1, acc := .rw } -- 1: comparator runs
def FB_SC_CFG_SEL : Fld := { reg := FB_SC_CFG, lo := 1, n := 5, acc := .rw, bad := [(19, 31)] } -- Input: 0 to 15 VSNk_P/N, 16 VBUS_SN, 17 store sense, 18 STORE_TH; 19 to 31 reserved
def FB_SC_CFG_DIR : Fld := { reg := FB_SC_CFG, lo := 6, n := 1, acc := .rw } -- 0: trips above threshold; 1: below
def FB_SC_CFG_PER : Fld := { reg := FB_SC_CFG, lo := 8, n := 4, acc := .rw } -- Sample every 2^PER ACLK edges
def FB_SC_CFG_WAKE : Fld := { reg := FB_SC_CFG, lo := 12, n := 1, acc := .rw } -- 1: wake request
def FB_SC_CFG_EFUSE : Fld := { reg := FB_SC_CFG, lo := 13, n := 1, acc := .rw } -- 1: drop EFUSE_EN
def FB_SC_CFG_CROW : Fld := { reg := FB_SC_CFG, lo := 14, n := 4, acc := .rw } -- Bit j: assert CROWBAR_N[j]
def FB_SC_CFG_FAULT : Fld := { reg := FB_SC_CFG, lo := 18, n := 1, acc := .rw } -- 1: assert FAULT_N
def FB_SC_CFG_N : Fld := { reg := FB_SC_CFG, lo := 20, n := 4, acc := .rw } -- Consecutive samples; 0 reserved while EN is 1
def row_FB_SC_CFG : RegRow := { reg := FB_SC_CFG, fields := [FB_SC_CFG_EN, FB_SC_CFG_SEL, FB_SC_CFG_DIR, FB_SC_CFG_PER, FB_SC_CFG_WAKE, FB_SC_CFG_EFUSE, FB_SC_CFG_CROW, FB_SC_CFG_FAULT, FB_SC_CFG_N] }
/-- FB_SC_TH: Sampled threshold; stride 0x10 (spec/06, R253). -/
def FB_SC_TH : Reg := { base := 0x5000E004, n1 := 8, s1 := 0x10 }
def FB_SC_TH_TH : Fld := { reg := FB_SC_TH, lo := 0, n := 10, acc := .rw } -- Threshold, 1.5625 mV
def row_FB_SC_TH : RegRow := { reg := FB_SC_TH, fields := [FB_SC_TH_TH] }
/-- FB_SC_STAT: Sampled status; stride 0x10 (spec/06, R253). -/
def FB_SC_STAT : Reg := { base := 0x5000E008, n1 := 8, s1 := 0x10 }
def FB_SC_STAT_OUT : Fld := { reg := FB_SC_STAT, lo := 0, n := 1, acc := .ro } -- Result of the last sample
def FB_SC_STAT_CNT : Fld := { reg := FB_SC_STAT, lo := 4, n := 4, acc := .ro } -- Present consecutive count
def row_FB_SC_STAT : RegRow := { reg := FB_SC_STAT, fields := [FB_SC_STAT_OUT, FB_SC_STAT_CNT] }
/-- FB_SC_CAUSE: Sampled causes (spec/06, R253). -/
def FB_SC_CAUSE : Reg := { base := 0x5000E080 }
def FB_SC_CAUSE_TRIP : Fld := { reg := FB_SC_CAUSE, lo := 0, n := 8, acc := .w1c } -- Bit j: comparator j decided; clearing ends its actions (R245)
def FB_SC_CAUSE_ACC_ERR : Fld := { reg := FB_SC_CAUSE, lo := 15, n := 1, acc := .w1c } -- Reserved encoding written
def row_FB_SC_CAUSE : RegRow := { reg := FB_SC_CAUSE, fields := [FB_SC_CAUSE_TRIP, FB_SC_CAUSE_ACC_ERR] }
/-- FB_SC_CAUSE_EN: Sampled cause enables (spec/06, R253). -/
def FB_SC_CAUSE_EN : Reg := { base := 0x5000E084 }
def FB_SC_CAUSE_EN_TRIP : Fld := { reg := FB_SC_CAUSE_EN, lo := 0, n := 8, acc := .rw } -- Bit j: comparator j decided; clearing ends its actions (R245)
def FB_SC_CAUSE_EN_ACC_ERR : Fld := { reg := FB_SC_CAUSE_EN, lo := 15, n := 1, acc := .rw } -- Reserved encoding written
def row_FB_SC_CAUSE_EN : RegRow := { reg := FB_SC_CAUSE_EN, fields := [FB_SC_CAUSE_EN_TRIP, FB_SC_CAUSE_EN_ACC_ERR] }
/-- FB_SC_WQ: AON write queue fill (spec/06, R253). -/
def FB_SC_WQ : Reg := { base := 0x5000E088 }
def FB_SC_WQ_FILL : Fld := { reg := FB_SC_WQ, lo := 0, n := 3, acc := .ro } -- Writes waiting in the AON crossing, 0 to 4
def row_FB_SC_WQ : RegRow := { reg := FB_SC_WQ, fields := [FB_SC_WQ_FILL] }
/-- ST_CFG: Store kind, side and sense rail (spec/07, R286). -/
def ST_CFG : Reg := { base := 0x40050000, rst := 0x000000F0, own := .store }
def ST_CFG_KIND : Fld := { reg := ST_CFG, lo := 0, n := 2, acc := .rwl, bad := [(3, 3)] } -- 0 none, 1 supercapacitor, 2 cell pack, 3 reserved
def ST_CFG_SIDE : Fld := { reg := ST_CFG, lo := 2, n := 1, acc := .rwl } -- Converter orientation (R258)
def ST_CFG_GRANT_ALLOW : Fld := { reg := ST_CFG, lo := 3, n := 1, acc := .rwl } -- 1: budget may count the allowance (R271)
def ST_CFG_SNS_RAIL : Fld := { reg := ST_CFG, lo := 4, n := 4, acc := .rwl } -- Rail lending its sense pair (R256)
def row_ST_CFG : RegRow := { reg := ST_CFG, fields := [ST_CFG_KIND, ST_CFG_SIDE, ST_CFG_GRANT_ALLOW, ST_CFG_SNS_RAIL] }
/-- ST_CTL: Enable and charge enable (spec/07, R286). -/
def ST_CTL : Reg := { base := 0x40050004, rst := 0x00000002, own := .store }
def ST_CTL_EN : Fld := { reg := ST_CTL, lo := 0, n := 1, acc := .rw } -- 1: store enabled (R259)
def ST_CTL_CHG_EN : Fld := { reg := ST_CTL, lo := 1, n := 1, acc := .rw } -- 1: charging allowed
def row_ST_CTL : RegRow := { reg := ST_CTL, fields := [ST_CTL_EN, ST_CTL_CHG_EN] }
/-- ST_STATUS: State and flags (spec/07, R286). -/
def ST_STATUS : Reg := { base := 0x40050008, own := .store }
def ST_STATUS_STATE : Fld := { reg := ST_STATUS, lo := 0, n := 3, acc := .ro } -- 0 OFF, 1 ABSENT, 2 QUALIFY, 3 CONNECT, 4 RUN, 5 HOLDUP, 6 FAULT; 7 not used
def ST_STATUS_DIR : Fld := { reg := ST_STATUS, lo := 3, n := 2, acc := .ro } -- 0 idle, 1 charging, 2 discharging; 3 not used
def ST_STATUS_FULL : Fld := { reg := ST_STATUS, lo := 5, n := 1, acc := .ro } -- R269
def ST_STATUS_AT_FLOOR : Fld := { reg := ST_STATUS, lo := 6, n := 1, acc := .ro } -- R267
def ST_STATUS_PRES : Fld := { reg := ST_STATUS, lo := 7, n := 1, acc := .ro } -- Presence debounced
def ST_STATUS_CHG_INH : Fld := { reg := ST_STATUS, lo := 8, n := 1, acc := .ro } -- STORE_TH outside the charge window
def ST_STATUS_THR : Fld := { reg := ST_STATUS, lo := 9, n := 2, acc := .ro } -- 0 none, 1 allowance in use, 2 throttling, 3 drooping
def ST_STATUS_DLVL : Fld := { reg := ST_STATUS, lo := 12, n := 4, acc := .ro } -- Highest engaged droop priority; 0 none
def row_ST_STATUS : RegRow := { reg := ST_STATUS, fields := [ST_STATUS_STATE, ST_STATUS_DIR, ST_STATUS_FULL, ST_STATUS_AT_FLOOR, ST_STATUS_PRES, ST_STATUS_CHG_INH, ST_STATUS_THR, ST_STATUS_DLVL] }
/-- ST_CEIL: Ceiling and allowance (spec/07, R286). -/
def ST_CEIL : Reg := { base := 0x4005000C, rst := 0x00640000 }
def ST_CEIL_LIM : Fld := { reg := ST_CEIL, lo := 0, n := 16, acc := .rw } -- Ceiling, 1/16 A; 0: no ceiling (R264); subject to R279
def ST_CEIL_ALLOW_PM : Fld := { reg := ST_CEIL, lo := 16, n := 10, acc := .rw, bad := [(1001, 1023)] } -- Allowance, per mille of LIM; above 1,000 reserved
def row_ST_CEIL : RegRow := { reg := ST_CEIL, fields := [ST_CEIL_LIM, ST_CEIL_ALLOW_PM] }
/-- ST_CMARG: Margin and charge gap (spec/07, R286). -/
def ST_CMARG : Reg := { base := 0x40050010, rst := 0x00500020 }
def ST_CMARG_MARGIN : Fld := { reg := ST_CMARG, lo := 0, n := 12, acc := .rw } -- Regulation margin, 1/16 A (reset 2 A)
def ST_CMARG_GAP : Fld := { reg := ST_CMARG, lo := 16, n := 12, acc := .rw } -- Charge gap, 1/16 A (reset 5 A)
def row_ST_CMARG : RegRow := { reg := ST_CMARG, fields := [ST_CMARG_MARGIN, ST_CMARG_GAP] }
/-- ST_ALLOW: Bucket size and refill window (spec/07, R286). -/
def ST_ALLOW : Reg := { base := 0x40050014, rst := 0x006407D0 }
def ST_ALLOW_T : Fld := { reg := ST_ALLOW, lo := 0, n := 16, acc := .rw, bad := [(0, 0)] } -- Bucket size, µs; 0 reserved
def ST_ALLOW_WIN : Fld := { reg := ST_ALLOW, lo := 16, n := 16, acc := .rw, bad := [(0, 0)] } -- Refill window, ms; 0 reserved
def row_ST_ALLOW : RegRow := { reg := ST_ALLOW, fields := [ST_ALLOW_T, ST_ALLOW_WIN] }
/-- ST_BUCKET: Bucket level (spec/07, R286). -/
def ST_BUCKET : Reg := { base := 0x40050018, rst := 0x07D00000 }
def ST_BUCKET_LEVEL : Fld := { reg := ST_BUCKET, lo := 0, n := 32, acc := .ro } -- Bucket, 2^-16 µs
def row_ST_BUCKET : RegRow := { reg := ST_BUCKET, fields := [ST_BUCKET_LEVEL] }
/-- ST_ESC: Throttle and droop timing (spec/07, R286). -/
def ST_ESC : Reg := { base := 0x4005001C, rst := 0x320A0105 }
def ST_ESC_DDLY : Fld := { reg := ST_ESC, lo := 0, n := 4, acc := .rw, bad := [(0, 0)] } -- Ticks over before a droop step; 0 reserved
def ST_ESC_DSTEP : Fld := { reg := ST_ESC, lo := 4, n := 8, acc := .rw, bad := [(0, 0)] } -- Droop step, 1/256 (reset 6.25 %); 0 reserved
def ST_ESC_DREL : Fld := { reg := ST_ESC, lo := 16, n := 8, acc := .rw, bad := [(0, 0)] } -- Droop release, 10 µs units; 0 reserved
def ST_ESC_TREL : Fld := { reg := ST_ESC, lo := 24, n := 8, acc := .rw, bad := [(0, 0)] } -- Throttle release, ticks; 0 reserved
def row_ST_ESC : RegRow := { reg := ST_ESC, fields := [ST_ESC_DDLY, ST_ESC_DSTEP, ST_ESC_DREL, ST_ESC_TREL] }
/-- ST_TMAP: Throttle group of each rail (spec/07, R286). -/
def ST_TMAP : Reg := { base := 0x40050020 }
def ST_TMAP_G (i : Nat) : Fld := { reg := ST_TMAP, lo := 0 + 2 * i, n := 2, acc := .rw } -- THROTTLE_N group of rail k
def row_ST_TMAP : RegRow := { reg := ST_TMAP, fields := (List.range 16).map ST_TMAP_G }
/-- ST_PRIO0: Droop priority, rails 0-7 (spec/07, R286). -/
def ST_PRIO0 : Reg := { base := 0x40050024 }
def ST_PRIO0_P (i : Nat) : Fld := { reg := ST_PRIO0, lo := 0 + 4 * i, n := 4, acc := .rw } -- Priority of rail k
def row_ST_PRIO0 : RegRow := { reg := ST_PRIO0, fields := (List.range 8).map ST_PRIO0_P }
/-- ST_PRIO1: Droop priority, rails 8-15 (spec/07, R286). -/
def ST_PRIO1 : Reg := { base := 0x40050028 }
def ST_PRIO1_P (i : Nat) : Fld := { reg := ST_PRIO1, lo := 0 + 4 * i, n := 4, acc := .rw } -- Priority of rail k + 8
def row_ST_PRIO1 : RegRow := { reg := ST_PRIO1, fields := (List.range 8).map ST_PRIO1_P }
/-- ST_SNS: Bus and store dividers (spec/07, R286). -/
def ST_SNS : Reg := { base := 0x4005002C, rst := 0x10000C00 }
def ST_SNS_VBUS_DIV : Fld := { reg := ST_SNS, lo := 0, n := 16, acc := .rwl, bad := [(0, 0)] } -- VBUS_SN divider ratio, Q8.8 unsigned (reset 12.0); 0 reserved
def ST_SNS_STORE_DIV : Fld := { reg := ST_SNS, lo := 16, n := 16, acc := .rwl, bad := [(0, 0)] } -- Store sense divider ratio, Q8.8 unsigned (reset 16.0); 0 reserved
def row_ST_SNS : RegRow := { reg := ST_SNS, fields := [ST_SNS_VBUS_DIV, ST_SNS_STORE_DIV] }
/-- ST_SHUNT: Shunt scale (spec/07, R286). -/
def ST_SHUNT : Reg := { base := 0x40050030, rst := 0x00020000 }
def ST_SHUNT_K : Fld := { reg := ST_SHUNT, lo := 0, n := 20, acc := .rwl, bad := [(0, 0)] } -- Shunt scale (R254); 0 reserved
def row_ST_SHUNT : RegRow := { reg := ST_SHUNT, fields := [ST_SHUNT_K] }
/-- ST_VLIM: Empty and full voltages (spec/07, R286). -/
def ST_VLIM : Reg := { base := 0x40050034, own := .store }
def ST_VLIM_V_EMPTY : Fld := { reg := ST_VLIM, lo := 0, n := 16, acc := .rwl } -- Empty voltage, mV
def ST_VLIM_V_FULL : Fld := { reg := ST_VLIM, lo := 16, n := 16, acc := .rwl } -- Full voltage, mV
def row_ST_VLIM : RegRow := { reg := ST_VLIM, fields := [ST_VLIM_V_EMPTY, ST_VLIM_V_FULL] }
/-- ST_VLIM2: Sanity limit and recharge hysteresis (spec/07, R286). -/
def ST_VLIM2 : Reg := { base := 0x40050038, own := .store }
def ST_VLIM2_V_MAX : Fld := { reg := ST_VLIM2, lo := 0, n := 16, acc := .rwl } -- Sanity and charge-stop voltage, mV
def ST_VLIM2_RECHG : Fld := { reg := ST_VLIM2, lo := 16, n := 16, acc := .rwl } -- Recharge hysteresis, mV
def row_ST_VLIM2 : RegRow := { reg := ST_VLIM2, fields := [ST_VLIM2_V_MAX, ST_VLIM2_RECHG] }
/-- ST_CAPY: Supercapacitor capacitance (spec/07, R286). -/
def ST_CAPY : Reg := { base := 0x4005003C, own := .store }
def ST_CAPY_CAP : Fld := { reg := ST_CAPY, lo := 0, n := 16, acc := .rwl } -- Capacitance, 10 mF
def row_ST_CAPY : RegRow := { reg := ST_CAPY, fields := [ST_CAPY_CAP] }
/-- ST_ECAP: Pack energy capacity (spec/07, R286). -/
def ST_ECAP : Reg := { base := 0x40050040, own := .store }
def ST_ECAP_E : Fld := { reg := ST_ECAP, lo := 0, n := 32, acc := .rwl } -- Pack energy when full, mJ
def row_ST_ECAP : RegRow := { reg := ST_ECAP, fields := [ST_ECAP_E] }
/-- ST_FLOOR: Reserve floor (spec/07, R286). -/
def ST_FLOOR : Reg := { base := 0x40050044, own := .store }
def ST_FLOOR_E : Fld := { reg := ST_FLOOR, lo := 0, n := 32, acc := .rw } -- Reserve floor, mJ
def row_ST_FLOOR : RegRow := { reg := ST_FLOOR, fields := [ST_FLOOR_E] }
/-- ST_ILIM: Charge and discharge limits (spec/07, R286). -/
def ST_ILIM : Reg := { base := 0x40050048, own := .store }
def ST_ILIM_CHG_MAX : Fld := { reg := ST_ILIM, lo := 0, n := 12, acc := .rwl } -- Charge limit, 0.25 A store-side
def ST_ILIM_DIS_MAX : Fld := { reg := ST_ILIM, lo := 16, n := 12, acc := .rwl } -- Discharge limit, 0.25 A store-side
def row_ST_ILIM : RegRow := { reg := ST_ILIM, fields := [ST_ILIM_CHG_MAX, ST_ILIM_DIS_MAX] }
/-- ST_TERM: Taper end and temperature window (spec/07, R286). -/
def ST_TERM : Reg := { base := 0x4005004C, rst := 0xFF000000, own := .store }
def ST_TERM_TERM : Fld := { reg := ST_TERM, lo := 0, n := 12, acc := .rwl } -- Taper end, 0.25 A
def ST_TERM_TH_LO : Fld := { reg := ST_TERM, lo := 16, n := 8, acc := .rwl } -- Lowest STORE_TH for charging, 6.25 mV
def ST_TERM_TH_HI : Fld := { reg := ST_TERM, lo := 24, n := 8, acc := .rwl } -- Highest STORE_TH for charging, 6.25 mV
def row_ST_TERM : RegRow := { reg := ST_TERM, fields := [ST_TERM_TERM, ST_TERM_TH_LO, ST_TERM_TH_HI] }
/-- ST_LOOP: Store current-loop gains (spec/07, R286). -/
def ST_LOOP : Reg := { base := 0x40050050, rst := 0x00000210, own := .store }
def ST_LOOP_KP : Fld := { reg := ST_LOOP, lo := 0, n := 8, acc := .rwl } -- Proportional gain (R261)
def ST_LOOP_KI : Fld := { reg := ST_LOOP, lo := 8, n := 8, acc := .rwl } -- Integral gain (R261)
def row_ST_LOOP : RegRow := { reg := ST_LOOP, fields := [ST_LOOP_KP, ST_LOOP_KI] }
/-- ST_PER: Store half-period (spec/07, R286). -/
def ST_PER : Reg := { base := 0x40050054, rst := 0x0000FA00, own := .store }
def ST_PER_PER : Fld := { reg := ST_PER, lo := 0, n := 17, acc := .rwl, bad := [(0, 3999), (128001, 131071)] } -- Store half-period, taps (reset 0.5 MHz); R87
def row_ST_PER : RegRow := { reg := ST_PER, fields := [ST_PER_PER] }
/-- ST_HOLD: Hold-up thresholds (spec/07, R286). -/
def ST_HOLD : Reg := { base := 0x40050058, own := .store }
def ST_HOLD_VBUS_LO : Fld := { reg := ST_HOLD, lo := 0, n := 16, acc := .rwl } -- Hold-up entry, mV; 0 disables
def ST_HOLD_V_HOLD : Fld := { reg := ST_HOLD, lo := 16, n := 16, acc := .rwl } -- Hold-up bus target, mV
def row_ST_HOLD : RegRow := { reg := ST_HOLD, fields := [ST_HOLD_VBUS_LO, ST_HOLD_V_HOLD] }
/-- ST_REINS: Qualify time and reconnect ramp (spec/07, R286). -/
def ST_REINS : Reg := { base := 0x4005005C, rst := 0x000403E8, own := .store }
def ST_REINS_QUAL : Fld := { reg := ST_REINS, lo := 0, n := 10, acc := .rwl, bad := [(0, 0)] } -- Qualify time, ms; 0 reserved
def ST_REINS_RAMP : Fld := { reg := ST_REINS, lo := 16, n := 8, acc := .rwl, bad := [(0, 0)] } -- Limit ramp, 0.25 A per 10 µs; 0 reserved
def row_ST_REINS : RegRow := { reg := ST_REINS, fields := [ST_REINS_QUAL, ST_REINS_RAMP] }
/-- ST_IIN: Input current (spec/07, R286). -/
def ST_IIN : Reg := { base := 0x40050080, own := .store, rd := .p0 }
def ST_IIN_IIN : Fld := { reg := ST_IIN, lo := 0, n := 16, acc := .ro } -- Input current of the last tick, 1/16 A
def ST_IIN_LOAD : Fld := { reg := ST_IIN, lo := 16, n := 16, acc := .ro } -- Load-side input current, int16, 1/16 A
def row_ST_IIN : RegRow := { reg := ST_IIN, fields := [ST_IIN_IIN, ST_IIN_LOAD] }
/-- ST_VMEAS: Bus and store voltage (spec/07, R286). -/
def ST_VMEAS : Reg := { base := 0x40050084, own := .store, rd := .p0 }
def ST_VMEAS_VBUS : Fld := { reg := ST_VMEAS, lo := 0, n := 16, acc := .ro } -- Bus voltage, mV
def ST_VMEAS_VSTORE : Fld := { reg := ST_VMEAS, lo := 16, n := 16, acc := .ro } -- Store voltage, mV
def row_ST_VMEAS : RegRow := { reg := ST_VMEAS, fields := [ST_VMEAS_VBUS, ST_VMEAS_VSTORE] }
/-- ST_IST: Store current and target (spec/07, R286). -/
def ST_IST : Reg := { base := 0x40050088, own := .store, rd := .p0 }
def ST_IST_IST : Fld := { reg := ST_IST, lo := 0, n := 12, acc := .ro } -- Store current, int12, 0.25 A, positive charging
def ST_IST_TGT : Fld := { reg := ST_IST, lo := 16, n := 12, acc := .ro } -- Target ist_tgt, int12, 0.25 A
def row_ST_IST : RegRow := { reg := ST_IST, fields := [ST_IST_IST, ST_IST_TGT] }
/-- ST_ENERGY: Store energy (spec/07, R286). -/
def ST_ENERGY : Reg := { base := 0x4005008C, own := .store, rd := .p0 }
def ST_ENERGY_E : Fld := { reg := ST_ENERGY, lo := 0, n := 32, acc := .ro } -- Energy above empty, mJ
def row_ST_ENERGY : RegRow := { reg := ST_ENERGY, fields := [ST_ENERGY_E] }
/-- ST_RESV: Energy reserved for grants (spec/07, R286). -/
def ST_RESV : Reg := { base := 0x40050090, own := .store, rd := .p0 }
def ST_RESV_E : Fld := { reg := ST_RESV, lo := 0, n := 32, acc := .ro } -- Reserved for grants, mJ
def row_ST_RESV : RegRow := { reg := ST_RESV, fields := [ST_RESV_E] }
/-- ST_BUDGET: Headroom and store power (spec/07, R286). -/
def ST_BUDGET : Reg := { base := 0x40050094, own := .store, rd := .p0 }
def ST_BUDGET_SPARE : Fld := { reg := ST_BUDGET, lo := 0, n := 16, acc := .ro } -- Headroom, 1/16 A
def ST_BUDGET_PST : Fld := { reg := ST_BUDGET, lo := 16, n := 16, acc := .ro } -- Store discharge power limit, W
def row_ST_BUDGET : RegRow := { reg := ST_BUDGET, fields := [ST_BUDGET_SPARE, ST_BUDGET_PST] }
/-- ST_DSTAT: Drooping rails and store temperature (spec/07, R286). -/
def ST_DSTAT : Reg := { base := 0x40050098 }
def ST_DSTAT_DROOP : Fld := { reg := ST_DSTAT, lo := 0, n := 16, acc := .ro } -- Bit k: rail k in droop
def ST_DSTAT_TH : Fld := { reg := ST_DSTAT, lo := 16, n := 8, acc := .ro } -- STORE_TH, 6.25 mV
def row_ST_DSTAT : RegRow := { reg := ST_DSTAT, fields := [ST_DSTAT_DROOP, ST_DSTAT_TH] }
/-- ST_CAUSE: Leaf causes (spec/07, R286). -/
def ST_CAUSE : Reg := { base := 0x400500A0 }
def ST_CAUSE_REMOVED : Fld := { reg := ST_CAUSE, lo := 0, n := 1, acc := .w1c } -- Store removal detected
def ST_CAUSE_INSERTED : Fld := { reg := ST_CAUSE, lo := 1, n := 1, acc := .w1c } -- Store connected, RUN entered
def ST_CAUSE_QUAL_FAIL : Fld := { reg := ST_CAUSE, lo := 2, n := 1, acc := .w1c } -- Voltage not sane in QUALIFY
def ST_CAUSE_AT_FLOOR : Fld := { reg := ST_CAUSE, lo := 3, n := 1, acc := .w1c } -- Energy reached the floor
def ST_CAUSE_FULL : Fld := { reg := ST_CAUSE, lo := 4, n := 1, acc := .w1c } -- FULL set
def ST_CAUSE_ALLOW_OUT : Fld := { reg := ST_CAUSE, lo := 5, n := 1, acc := .w1c } -- Bucket emptied
def ST_CAUSE_THROTTLE : Fld := { reg := ST_CAUSE, lo := 6, n := 1, acc := .w1c } -- THROTTLE_N asserted
def ST_CAUSE_DROOP : Fld := { reg := ST_CAUSE, lo := 7, n := 1, acc := .w1c } -- Droop step taken
def ST_CAUSE_HOLDUP : Fld := { reg := ST_CAUSE, lo := 8, n := 1, acc := .w1c } -- Hold-up entered
def ST_CAUSE_RATIO : Fld := { reg := ST_CAUSE, lo := 9, n := 1, acc := .w1c } -- Voltage ratio outside R258
def ST_CAUSE_FAULT : Fld := { reg := ST_CAUSE, lo := 10, n := 1, acc := .w1c } -- Firebreak store action
def ST_CAUSE_CFG_ERR : Fld := { reg := ST_CAUSE, lo := 11, n := 1, acc := .w1c } -- EN or ST_CEIL write refused
def ST_CAUSE_LOCK_ERR : Fld := { reg := ST_CAUSE, lo := 14, n := 1, acc := .w1c } -- Write to a locked field
def ST_CAUSE_ACC_ERR : Fld := { reg := ST_CAUSE, lo := 15, n := 1, acc := .w1c } -- Reserved encoding written
def row_ST_CAUSE : RegRow := { reg := ST_CAUSE, fields := [ST_CAUSE_REMOVED, ST_CAUSE_INSERTED, ST_CAUSE_QUAL_FAIL, ST_CAUSE_AT_FLOOR, ST_CAUSE_FULL, ST_CAUSE_ALLOW_OUT, ST_CAUSE_THROTTLE, ST_CAUSE_DROOP, ST_CAUSE_HOLDUP, ST_CAUSE_RATIO, ST_CAUSE_FAULT, ST_CAUSE_CFG_ERR, ST_CAUSE_LOCK_ERR, ST_CAUSE_ACC_ERR] }
/-- ST_CAUSE_EN: Cause enables to the bough (spec/07, R286). -/
def ST_CAUSE_EN : Reg := { base := 0x400500A4 }
def ST_CAUSE_EN_REMOVED : Fld := { reg := ST_CAUSE_EN, lo := 0, n := 1, acc := .rw } -- Store removal detected
def ST_CAUSE_EN_INSERTED : Fld := { reg := ST_CAUSE_EN, lo := 1, n := 1, acc := .rw } -- Store connected, RUN entered
def ST_CAUSE_EN_QUAL_FAIL : Fld := { reg := ST_CAUSE_EN, lo := 2, n := 1, acc := .rw } -- Voltage not sane in QUALIFY
def ST_CAUSE_EN_AT_FLOOR : Fld := { reg := ST_CAUSE_EN, lo := 3, n := 1, acc := .rw } -- Energy reached the floor
def ST_CAUSE_EN_FULL : Fld := { reg := ST_CAUSE_EN, lo := 4, n := 1, acc := .rw } -- FULL set
def ST_CAUSE_EN_ALLOW_OUT : Fld := { reg := ST_CAUSE_EN, lo := 5, n := 1, acc := .rw } -- Bucket emptied
def ST_CAUSE_EN_THROTTLE : Fld := { reg := ST_CAUSE_EN, lo := 6, n := 1, acc := .rw } -- THROTTLE_N asserted
def ST_CAUSE_EN_DROOP : Fld := { reg := ST_CAUSE_EN, lo := 7, n := 1, acc := .rw } -- Droop step taken
def ST_CAUSE_EN_HOLDUP : Fld := { reg := ST_CAUSE_EN, lo := 8, n := 1, acc := .rw } -- Hold-up entered
def ST_CAUSE_EN_RATIO : Fld := { reg := ST_CAUSE_EN, lo := 9, n := 1, acc := .rw } -- Voltage ratio outside R258
def ST_CAUSE_EN_FAULT : Fld := { reg := ST_CAUSE_EN, lo := 10, n := 1, acc := .rw } -- Firebreak store action
def ST_CAUSE_EN_CFG_ERR : Fld := { reg := ST_CAUSE_EN, lo := 11, n := 1, acc := .rw } -- EN or ST_CEIL write refused
def ST_CAUSE_EN_LOCK_ERR : Fld := { reg := ST_CAUSE_EN, lo := 14, n := 1, acc := .rw } -- Write to a locked field
def ST_CAUSE_EN_ACC_ERR : Fld := { reg := ST_CAUSE_EN, lo := 15, n := 1, acc := .rw } -- Reserved encoding written
def row_ST_CAUSE_EN : RegRow := { reg := ST_CAUSE_EN, fields := [ST_CAUSE_EN_REMOVED, ST_CAUSE_EN_INSERTED, ST_CAUSE_EN_QUAL_FAIL, ST_CAUSE_EN_AT_FLOOR, ST_CAUSE_EN_FULL, ST_CAUSE_EN_ALLOW_OUT, ST_CAUSE_EN_THROTTLE, ST_CAUSE_EN_DROOP, ST_CAUSE_EN_HOLDUP, ST_CAUSE_EN_RATIO, ST_CAUSE_EN_FAULT, ST_CAUSE_EN_CFG_ERR, ST_CAUSE_EN_LOCK_ERR, ST_CAUSE_EN_ACC_ERR] }
/-- CN_VIEW: Canopy view of the reader (spec/14, R533). -/
def CN_VIEW : Reg := { base := 0x400E0000, rd := .all }
def CN_VIEW_VIEW : Fld := { reg := CN_VIEW, lo := 0, n := 22, acc := .ro } -- Canopy bits of R504 in the reader's view
def row_CN_VIEW : RegRow := { reg := CN_VIEW, fields := [CN_VIEW_VIEW] }
/-- CN_CANOPY: Whole canopy (spec/14, R533). -/
def CN_CANOPY : Reg := { base := 0x400E0004, own := .sealed }
def CN_CANOPY_CANOPY : Fld := { reg := CN_CANOPY, lo := 0, n := 22, acc := .ro } -- Whole canopy
def row_CN_CANOPY : RegRow := { reg := CN_CANOPY, fields := [CN_CANOPY_CANOPY] }
/-- CN_PIN: ALERT_N and its contributors (spec/14, R533). -/
def CN_PIN : Reg := { base := 0x400E0008 }
def CN_PIN_ALERT : Fld := { reg := CN_PIN, lo := 0, n := 1, acc := .ro } -- 1: ALERT_N asserted
def CN_PIN_PART : Fld := { reg := CN_PIN, lo := 8, n := 8, acc := .ro } -- Bit p: partition p contributes under R507
def row_CN_PIN : RegRow := { reg := CN_PIN, fields := [CN_PIN_ALERT, CN_PIN_PART] }
/-- CN_BOUGHGV: Grove bough bits (spec/14, R533). -/
def CN_BOUGHGV : Reg := { base := 0x400E0010 }
def CN_BOUGHGV_GROVE : Fld := { reg := CN_BOUGHGV, lo := 0, n := 16, acc := .ro } -- Bit n: GV_CAUSE AND GV_CAUSE_EN of grove n not 0
def row_CN_BOUGHGV : RegRow := { reg := CN_BOUGHGV, fields := [CN_BOUGHGV_GROVE] }
/-- CN_BOUGHX: Bough bits of single-instance blocks and software causes (spec/14, R533). -/
def CN_BOUGHX : Reg := { base := 0x400E0014 }
def CN_BOUGHX_BLK : Fld := { reg := CN_BOUGHX, lo := 0, n := 7, acc := .ro } -- Bits 0 ST, 1 CH, 2 TR, 3 QM, 4 PD, 5 FC, 6 LF: cause AND enable not 0
def CN_BOUGHX_SW : Fld := { reg := CN_BOUGHX, lo := 8, n := 8, acc := .ro } -- Bit 8 + p: software causes of partition p
def row_CN_BOUGHX : RegRow := { reg := CN_BOUGHX, fields := [CN_BOUGHX_BLK, CN_BOUGHX_SW] }
/-- CN_ALERT_EN: Enables of partition p to ALERT_N (spec/14, R533). -/
def CN_ALERT_EN : Reg := { base := 0x400E0040, n1 := 8, s1 := 0x4, own := .part }
def CN_ALERT_EN_EN : Fld := { reg := CN_ALERT_EN, lo := 0, n := 22, acc := .rw } -- Bit b: canopy bit b of p's view reaches ALERT_N
def row_CN_ALERT_EN : RegRow := { reg := CN_ALERT_EN, fields := [CN_ALERT_EN_EN] }
/-- CN_IRQEN: Canopy interrupt enables of core c (spec/14, R533). -/
def CN_IRQEN : Reg := { base := 0x400E0080, n1 := 4, s1 := 0x4, own := .coretag }
def CN_IRQEN_EN : Fld := { reg := CN_IRQEN, lo := 0, n := 22, acc := .rw } -- Bit b: canopy bit b interrupts core c; cleared by a CH_CORETAG[c] write
def row_CN_IRQEN : RegRow := { reg := CN_IRQEN, fields := [CN_IRQEN_EN] }
/-- CN_WIRQEN: Canopy interrupt enables of the warden (spec/14, R533). -/
def CN_WIRQEN : Reg := { base := 0x400E0090, own := .sealed }
def CN_WIRQEN_EN : Fld := { reg := CN_WIRQEN, lo := 0, n := 22, acc := .rw } -- Bit b: canopy bit b interrupts the warden
def row_CN_WIRQEN : RegRow := { reg := CN_WIRQEN, fields := [CN_WIRQEN_EN] }
/-- CN_SWCAUSE: Software causes of partition p (spec/14, R533). -/
def CN_SWCAUSE : Reg := { base := 0x400E0100, n1 := 8, s1 := 0x4, own := .part }
def CN_SWCAUSE_SW : Fld := { reg := CN_SWCAUSE, lo := 0, n := 16, acc := .w1c } -- Software causes
def row_CN_SWCAUSE : RegRow := { reg := CN_SWCAUSE, fields := [CN_SWCAUSE_SW] }
/-- CN_SWSET: Software cause set (R511) (spec/14, R533). -/
def CN_SWSET : Reg := { base := 0x400E0120, n1 := 8, s1 := 0x4, own := .part }
def CN_SWSET_SET : Fld := { reg := CN_SWSET, lo := 0, n := 16, acc := .wo } -- Writing 1 sets the CN_SWCAUSEp bit
def row_CN_SWSET : RegRow := { reg := CN_SWSET, fields := [CN_SWSET_SET] }
/-- CN_SWEN: Software cause enables (spec/14, R533). -/
def CN_SWEN : Reg := { base := 0x400E0140, n1 := 8, s1 := 0x4, own := .part }
def CN_SWEN_EN : Fld := { reg := CN_SWEN, lo := 0, n := 16, acc := .rw } -- Enables to CN_BOUGHX
def row_CN_SWEN : RegRow := { reg := CN_SWEN, fields := [CN_SWEN_EN] }
/-- PD_STATE: Device state and request (spec/14, R534). -/
def PD_STATE : Reg := { base := 0x400F0000 }
def PD_STATE_STATE : Fld := { reg := PD_STATE, lo := 0, n := 2, acc := .ro } -- 0 Active, 1 Quiet, 2 Glade; 3 not shown
def PD_STATE_BUSY : Fld := { reg := PD_STATE, lo := 2, n := 1, acc := .ro } -- A transition in progress
def PD_STATE_REQ : Fld := { reg := PD_STATE, lo := 4, n := 2, acc := .rw } -- Requested state, 0 to 3
def PD_STATE_GO : Fld := { reg := PD_STATE, lo := 8, n := 1, acc := .wo } -- Writing 1 requests REQ (R524)
def row_PD_STATE : RegRow := { reg := PD_STATE, fields := [PD_STATE_STATE, PD_STATE_BUSY, PD_STATE_REQ, PD_STATE_GO] }
/-- PD_ONA: Domains 0-31 on (spec/14, R534). -/
def PD_ONA : Reg := { base := 0x400F0004, rst := 0x00002001 }
def PD_ONA_DOM : Fld := { reg := PD_ONA, lo := 0, n := 32, acc := .ro }
def row_PD_ONA : RegRow := { reg := PD_ONA, fields := [PD_ONA_DOM] }
/-- PD_ONB: Domains 32-47 on (spec/14, R534). -/
def PD_ONB : Reg := { base := 0x400F0008, rst := 0x00008000 }
def PD_ONB_DOM : Fld := { reg := PD_ONB, lo := 0, n := 16, acc := .ro }
def row_PD_ONB : RegRow := { reg := PD_ONB, fields := [PD_ONB_DOM] }
/-- PD_HWVOTEA: Hardware votes, domains 0-31 (spec/14, R534). -/
def PD_HWVOTEA : Reg := { base := 0x400F000C, rst := 0x00002001 }
def PD_HWVOTEA_DOM : Fld := { reg := PD_HWVOTEA, lo := 0, n := 32, acc := .ro }
def row_PD_HWVOTEA : RegRow := { reg := PD_HWVOTEA, fields := [PD_HWVOTEA_DOM] }
/-- PD_HWVOTEB: Hardware votes, domains 32-47 (spec/14, R534). -/
def PD_HWVOTEB : Reg := { base := 0x400F0010, rst := 0x00008000 }
def PD_HWVOTEB_DOM : Fld := { reg := PD_HWVOTEB, lo := 0, n := 16, acc := .ro }
def row_PD_HWVOTEB : RegRow := { reg := PD_HWVOTEB, fields := [PD_HWVOTEB_DOM] }
/-- PD_HOLD: Pads held, domains 0-15 (spec/14, R534). -/
def PD_HOLD : Reg := { base := 0x400F0014 }
def PD_HOLD_HELD : Fld := { reg := PD_HOLD, lo := 0, n := 14, acc := .ro } -- Bit d: pads of domain d held (R521)
def row_PD_HOLD : RegRow := { reg := PD_HOLD, fields := [PD_HOLD_HELD] }
/-- PD_HOLDREL: Hold release (spec/14, R534). -/
def PD_HOLDREL : Reg := { base := 0x400F0018 }
def PD_HOLDREL_REL : Fld := { reg := PD_HOLDREL, lo := 0, n := 14, acc := .wo } -- Writing 1 releases domain d
def row_PD_HOLDREL : RegRow := { reg := PD_HOLDREL, fields := [PD_HOLDREL_REL] }
/-- PD_HOLDAUTO: Release at end of return (spec/14, R534). -/
def PD_HOLDAUTO : Reg := { base := 0x400F001C }
def PD_HOLDAUTO_AUTO : Fld := { reg := PD_HOLDAUTO, lo := 0, n := 14, acc := .rw } -- 1: released at end of return
def row_PD_HOLDAUTO : RegRow := { reg := PD_HOLDAUTO, fields := [PD_HOLDAUTO_AUTO] }
/-- PD_SRBRET: Retention of each bank when off (spec/14, R534). -/
def PD_SRBRET : Reg := { base := 0x400F0020, rst := 0x0000FFFF }
def PD_SRBRET_RET : Fld := { reg := PD_SRBRET, lo := 0, n := 15, acc := .rw } -- Bit k: bank k retained when off
def PD_SRBRET_RET15 : Fld := { reg := PD_SRBRET, lo := 15, n := 1, acc := .ro } -- Bank 15 always retained
def row_PD_SRBRET : RegRow := { reg := PD_SRBRET, fields := [PD_SRBRET_RET, PD_SRBRET_RET15] }
/-- PD_CAUSE: Leaf causes (spec/14, R534). -/
def PD_CAUSE : Reg := { base := 0x400F0024 }
def PD_CAUSE_DONE : Fld := { reg := PD_CAUSE, lo := 0, n := 1, acc := .w1c } -- A state transition completed
def PD_CAUSE_REFUSE : Fld := { reg := PD_CAUSE, lo := 1, n := 1, acc := .w1c } -- A request refused (R524)
def PD_CAUSE_ABANDON : Fld := { reg := PD_CAUSE, lo := 2, n := 1, acc := .w1c } -- An entry abandoned (R519)
def PD_CAUSE_WAKE_LATE : Fld := { reg := PD_CAUSE, lo := 3, n := 1, acc := .w1c } -- A wake after AP3
def PD_CAUSE_OFF_ACC : Fld := { reg := PD_CAUSE, lo := 4, n := 1, acc := .w1c } -- Access to a domain not on (R517)
def PD_CAUSE_LOCK_ERR : Fld := { reg := PD_CAUSE, lo := 14, n := 1, acc := .w1c } -- Not used; reads 0
def PD_CAUSE_ACC_ERR : Fld := { reg := PD_CAUSE, lo := 15, n := 1, acc := .w1c } -- Reserved encoding, or release of a domain not on
def row_PD_CAUSE : RegRow := { reg := PD_CAUSE, fields := [PD_CAUSE_DONE, PD_CAUSE_REFUSE, PD_CAUSE_ABANDON, PD_CAUSE_WAKE_LATE, PD_CAUSE_OFF_ACC, PD_CAUSE_LOCK_ERR, PD_CAUSE_ACC_ERR] }
/-- PD_CAUSE_EN: Cause enables to the bough (spec/14, R534). -/
def PD_CAUSE_EN : Reg := { base := 0x400F0028 }
def PD_CAUSE_EN_DONE : Fld := { reg := PD_CAUSE_EN, lo := 0, n := 1, acc := .rw } -- A state transition completed
def PD_CAUSE_EN_REFUSE : Fld := { reg := PD_CAUSE_EN, lo := 1, n := 1, acc := .rw } -- A request refused (R524)
def PD_CAUSE_EN_ABANDON : Fld := { reg := PD_CAUSE_EN, lo := 2, n := 1, acc := .rw } -- An entry abandoned (R519)
def PD_CAUSE_EN_WAKE_LATE : Fld := { reg := PD_CAUSE_EN, lo := 3, n := 1, acc := .rw } -- A wake after AP3
def PD_CAUSE_EN_OFF_ACC : Fld := { reg := PD_CAUSE_EN, lo := 4, n := 1, acc := .rw } -- Access to a domain not on (R517)
def PD_CAUSE_EN_LOCK_ERR : Fld := { reg := PD_CAUSE_EN, lo := 14, n := 1, acc := .rw } -- Not used; reads 0
def PD_CAUSE_EN_ACC_ERR : Fld := { reg := PD_CAUSE_EN, lo := 15, n := 1, acc := .rw } -- Reserved encoding, or release of a domain not on
def row_PD_CAUSE_EN : RegRow := { reg := PD_CAUSE_EN, fields := [PD_CAUSE_EN_DONE, PD_CAUSE_EN_REFUSE, PD_CAUSE_EN_ABANDON, PD_CAUSE_EN_WAKE_LATE, PD_CAUSE_EN_OFF_ACC, PD_CAUSE_EN_LOCK_ERR, PD_CAUSE_EN_ACC_ERR] }
/-- PD_VOTEA: Votes of partition p, domains 0-31; stride 0x8 (spec/14, R534). -/
def PD_VOTEA : Reg := { base := 0x400F0040, n1 := 8, s1 := 0x8, own := .part }
def PD_VOTEA_VOTE : Fld := { reg := PD_VOTEA, lo := 0, n := 32, acc := .rw } -- Bit d: vote on domain d; bits 14 and 15 reserved
def row_PD_VOTEA : RegRow := { reg := PD_VOTEA, fields := [PD_VOTEA_VOTE] }
/-- PD_VOTEB: Votes of partition p, domains 32-47; stride 0x8 (spec/14, R534). -/
def PD_VOTEB : Reg := { base := 0x400F0044, n1 := 8, s1 := 0x8, own := .part }
def PD_VOTEB_VOTE : Fld := { reg := PD_VOTEB, lo := 0, n := 16, acc := .rw } -- Bit d - 32; bit 15 reserved
def row_PD_VOTEB : RegRow := { reg := PD_VOTEB, fields := [PD_VOTEB_VOTE] }
/-- PD_DSTAT: Domain d; stride 0x4 (spec/14, R534). -/
def PD_DSTAT : Reg := { base := 0x400F0100, n1 := 48, s1 := 0x4 }
def PD_DSTAT_STATE : Fld := { reg := PD_DSTAT, lo := 0, n := 3, acc := .ro } -- 0 off, 1 on, 2 entering, 3 retained, 4 returning
def PD_DSTAT_STEP : Fld := { reg := PD_DSTAT, lo := 4, n := 2, acc := .ro } -- Last abort point reached in the present entry, 0 none
def PD_DSTAT_HELD : Fld := { reg := PD_DSTAT, lo := 6, n := 1, acc := .ro } -- Pads held
def PD_DSTAT_ABORTS : Fld := { reg := PD_DSTAT, lo := 8, n := 8, acc := .ro } -- Entries abandoned, saturating
def row_PD_DSTAT : RegRow := { reg := PD_DSTAT, fields := [PD_DSTAT_STATE, PD_DSTAT_STEP, PD_DSTAT_HELD, PD_DSTAT_ABORTS] }
/-- PD_WAKE_EN: Clearing wake sources (spec/14, R534). -/
def PD_WAKE_EN : Reg := { base := 0x5000C000 }
def PD_WAKE_EN_SC : Fld := { reg := PD_WAKE_EN, lo := 0, n := 1, acc := .rw } -- Sampled-comparator wake
def PD_WAKE_EN_RTC : Fld := { reg := PD_WAKE_EN, lo := 1, n := 1, acc := .rw } -- RTC alarm
def PD_WAKE_EN_GPIO : Fld := { reg := PD_WAKE_EN, lo := 2, n := 1, acc := .rw } -- GPIO selected in PD_WAKE_GPIO
def PD_WAKE_EN_PMB : Fld := { reg := PD_WAKE_EN, lo := 3, n := 1, acc := .rw } -- PMBus START condition
def PD_WAKE_EN_SPI : Fld := { reg := PD_WAKE_EN, lo := 4, n := 1, acc := .rw } -- SPI_CS_N falling edge
def row_PD_WAKE_EN : RegRow := { reg := PD_WAKE_EN, fields := [PD_WAKE_EN_SC, PD_WAKE_EN_RTC, PD_WAKE_EN_GPIO, PD_WAKE_EN_PMB, PD_WAKE_EN_SPI] }
/-- PD_WAKE_SRC: Source of the last wake (spec/14, R534). -/
def PD_WAKE_SRC : Reg := { base := 0x5000C004 }
def PD_WAKE_SRC_SRC : Fld := { reg := PD_WAKE_SRC, lo := 0, n := 5, acc := .w1c } -- Bit per source, as PD_WAKE_EN
def row_PD_WAKE_SRC : RegRow := { reg := PD_WAKE_SRC, fields := [PD_WAKE_SRC_SRC] }
/-- PD_WAKE_GPIO: GPIO wake selection (spec/14, R534). -/
def PD_WAKE_GPIO : Reg := { base := 0x5000C008 }
def PD_WAKE_GPIO_SEL : Fld := { reg := PD_WAKE_GPIO, lo := 0, n := 8, acc := .rw } -- Bit i: G0i wakes
def PD_WAKE_GPIO_POL : Fld := { reg := PD_WAKE_GPIO, lo := 8, n := 8, acc := .rw } -- Bit 8 + i: 1 wakes on high, 0 on low
def row_PD_WAKE_GPIO : RegRow := { reg := PD_WAKE_GPIO, fields := [PD_WAKE_GPIO_SEL, PD_WAKE_GPIO_POL] }
/-- PD_CLR_ALERT: ALERT_N in Clearing (spec/14, R534). -/
def PD_CLR_ALERT : Reg := { base := 0x5000C00C }
def PD_CLR_ALERT_SC : Fld := { reg := PD_CLR_ALERT, lo := 0, n := 8, acc := .rw } -- Bit j: FB_SC_CAUSE bit j asserts ALERT_N in Clearing (R532)
def row_PD_CLR_ALERT : RegRow := { reg := PD_CLR_ALERT, fields := [PD_CLR_ALERT_SC] }
/-- PD_WQ: AON write queue fill (spec/14, R534). -/
def PD_WQ : Reg := { base := 0x5000C010 }
def PD_WQ_FILL : Fld := { reg := PD_WQ, lo := 0, n := 3, acc := .ro } -- Writes waiting in the AON crossing, 0 to 4
def row_PD_WQ : RegRow := { reg := PD_WQ, fields := [PD_WQ_FILL] }
/-- PX_STRAP: Straps (spec/20, R702). -/
def PX_STRAP : Reg := { base := 0x40130000 }
def PX_STRAP_ADDR : Fld := { reg := PX_STRAP, lo := 0, n := 3, acc := .ro } -- ADDR[2:0]
def PX_STRAP_BOOT : Fld := { reg := PX_STRAP, lo := 4, n := 2, acc := .ro } -- BOOT[1:0] (R683)
def row_PX_STRAP : RegRow := { reg := PX_STRAP, fields := [PX_STRAP_ADDR, PX_STRAP_BOOT] }
/-- PX_STATUS: Supplies, clocks and buck (spec/20, R702). -/
def PX_STATUS : Reg := { base := 0x40130004 }
def PX_STATUS_VIOA : Fld := { reg := PX_STATUS, lo := 0, n := 1, acc := .ro } -- VIO_A present
def PX_STATUS_VIOA_33 : Fld := { reg := PX_STATUS, lo := 1, n := 1, acc := .ro } -- VIO_A at 3.3 V
def PX_STATUS_VIOB : Fld := { reg := PX_STATUS, lo := 2, n := 1, acc := .ro } -- VIO_B present
def PX_STATUS_VIOB_33 : Fld := { reg := PX_STATUS, lo := 3, n := 1, acc := .ro } -- VIO_B at 3.3 V
def PX_STATUS_VIOC : Fld := { reg := PX_STATUS, lo := 4, n := 1, acc := .ro } -- VIO_C present
def PX_STATUS_VIOD : Fld := { reg := PX_STATUS, lo := 5, n := 1, acc := .ro } -- VIO_D present
def PX_STATUS_REFCLK : Fld := { reg := PX_STATUS, lo := 8, n := 1, acc := .ro } -- PLLs on REFCLK
def PX_STATUS_XTAL_OK : Fld := { reg := PX_STATUS, lo := 9, n := 1, acc := .ro } -- R682
def PX_STATUS_BUCK_PG : Fld := { reg := PX_STATUS, lo := 10, n := 1, acc := .ro } -- VCORE at its setpoint
def PX_STATUS_BUCK_RAMP : Fld := { reg := PX_STATUS, lo := 11, n := 1, acc := .ro } -- Setpoint moving
def PX_STATUS_BOR : Fld := { reg := PX_STATUS, lo := 12, n := 1, acc := .ro } -- Brown-out warning present
def row_PX_STATUS : RegRow := { reg := PX_STATUS, fields := [PX_STATUS_VIOA, PX_STATUS_VIOA_33, PX_STATUS_VIOB, PX_STATUS_VIOB_33, PX_STATUS_VIOC, PX_STATUS_VIOD, PX_STATUS_REFCLK, PX_STATUS_XTAL_OK, PX_STATUS_BUCK_PG, PX_STATUS_BUCK_RAMP, PX_STATUS_BOR] }
/-- PX_RSTSRC: Reset sources since last cleared (spec/20, R702). -/
def PX_RSTSRC : Reg := { base := 0x40130008 }
def PX_RSTSRC_POR : Fld := { reg := PX_RSTSRC, lo := 0, n := 1, acc := .w1c } -- AON power-up
def PX_RSTSRC_UVLO : Fld := { reg := PX_RSTSRC, lo := 1, n := 1, acc := .w1c } -- VIN under-voltage
def PX_RSTSRC_PIN : Fld := { reg := PX_RSTSRC, lo := 2, n := 1, acc := .w1c } -- RESET_N
def PX_RSTSRC_ROOT : Fld := { reg := PX_RSTSRC, lo := 3, n := 1, acc := .w1c } -- Root opcode 0xF3
def PX_RSTSRC_WDOG : Fld := { reg := PX_RSTSRC, lo := 4, n := 1, acc := .w1c } -- Warden watchdog device reset
def PX_RSTSRC_BUCK : Fld := { reg := PX_RSTSRC, lo := 5, n := 1, acc := .w1c } -- Core-buck fault
def PX_RSTSRC_WARDEN : Fld := { reg := PX_RSTSRC, lo := 6, n := 1, acc := .w1c } -- Warden reset
def PX_RSTSRC_CORE : Fld := { reg := PX_RSTSRC, lo := 8, n := 4, acc := .w1c } -- Bit c: core reset of core c
def row_PX_RSTSRC : RegRow := { reg := PX_RSTSRC, fields := [PX_RSTSRC_POR, PX_RSTSRC_UVLO, PX_RSTSRC_PIN, PX_RSTSRC_ROOT, PX_RSTSRC_WDOG, PX_RSTSRC_BUCK, PX_RSTSRC_WARDEN, PX_RSTSRC_CORE] }
/-- PX_BOR: Brown-out threshold (spec/20, R702). -/
def PX_BOR : Reg := { base := 0x4013000C, rst := 0x00000006 }
def PX_BOR_TH : Fld := { reg := PX_BOR, lo := 0, n := 7, acc := .rw, bad := [(101, 127)] } -- Threshold 2.75 V + TH × 25 mV; 101 to 127 reserved
def row_PX_BOR : RegRow := { reg := PX_BOR, fields := [PX_BOR_TH] }
/-- PX_VCORE: Core setpoint (spec/20, R702). -/
def PX_VCORE : Reg := { base := 0x40130010, rst := 0x00140014 }
def PX_VCORE_SET : Fld := { reg := PX_VCORE, lo := 0, n := 6, acc := .rw, bad := [(41, 63)] } -- Setpoint 0.65 V + SET × 5 mV; 41 to 63 reserved
def PX_VCORE_NOW : Fld := { reg := PX_VCORE, lo := 16, n := 6, acc := .ro } -- Present setpoint, same code
def row_PX_VCORE : RegRow := { reg := PX_VCORE, fields := [PX_VCORE_SET, PX_VCORE_NOW] }
/-- PX_CAUSE: Leaf causes (spec/20, R702). -/
def PX_CAUSE : Reg := { base := 0x40130014 }
def PX_CAUSE_BOR : Fld := { reg := PX_CAUSE, lo := 0, n := 1, acc := .w1c } -- Brown-out warning
def PX_CAUSE_BOR_END : Fld := { reg := PX_CAUSE, lo := 1, n := 1, acc := .w1c } -- Warning ended
def PX_CAUSE_VIO_LOST : Fld := { reg := PX_CAUSE, lo := 2, n := 1, acc := .w1c } -- A bank lost its supply (R679)
def PX_CAUSE_XTAL_FAIL : Fld := { reg := PX_CAUSE, lo := 3, n := 1, acc := .w1c } -- Crystal stopped
def PX_CAUSE_PULSE_OVR : Fld := { reg := PX_CAUSE, lo := 4, n := 1, acc := .w1c } -- Trail pulse dropped (R687)
def PX_CAUSE_JTAG_REF : Fld := { reg := PX_CAUSE, lo := 5, n := 1, acc := .w1c } -- Test instruction refused (R700)
def PX_CAUSE_STRAP_BAD : Fld := { reg := PX_CAUSE, lo := 6, n := 1, acc := .w1c } -- Reserved BOOT value
def PX_CAUSE_BUCK_LIM : Fld := { reg := PX_CAUSE, lo := 7, n := 1, acc := .w1c } -- A buck phase reached its peak limit
def PX_CAUSE_LOCK_ERR : Fld := { reg := PX_CAUSE, lo := 14, n := 1, acc := .w1c } -- Write to a locked field (R691)
def PX_CAUSE_ACC_ERR : Fld := { reg := PX_CAUSE, lo := 15, n := 1, acc := .w1c } -- Reserved encoding written
def row_PX_CAUSE : RegRow := { reg := PX_CAUSE, fields := [PX_CAUSE_BOR, PX_CAUSE_BOR_END, PX_CAUSE_VIO_LOST, PX_CAUSE_XTAL_FAIL, PX_CAUSE_PULSE_OVR, PX_CAUSE_JTAG_REF, PX_CAUSE_STRAP_BAD, PX_CAUSE_BUCK_LIM, PX_CAUSE_LOCK_ERR, PX_CAUSE_ACC_ERR] }
/-- PX_CAUSE_EN: Cause enables to the bough (spec/20, R702). -/
def PX_CAUSE_EN : Reg := { base := 0x40130018 }
def PX_CAUSE_EN_BOR : Fld := { reg := PX_CAUSE_EN, lo := 0, n := 1, acc := .rw } -- Brown-out warning
def PX_CAUSE_EN_BOR_END : Fld := { reg := PX_CAUSE_EN, lo := 1, n := 1, acc := .rw } -- Warning ended
def PX_CAUSE_EN_VIO_LOST : Fld := { reg := PX_CAUSE_EN, lo := 2, n := 1, acc := .rw } -- A bank lost its supply (R679)
def PX_CAUSE_EN_XTAL_FAIL : Fld := { reg := PX_CAUSE_EN, lo := 3, n := 1, acc := .rw } -- Crystal stopped
def PX_CAUSE_EN_PULSE_OVR : Fld := { reg := PX_CAUSE_EN, lo := 4, n := 1, acc := .rw } -- Trail pulse dropped (R687)
def PX_CAUSE_EN_JTAG_REF : Fld := { reg := PX_CAUSE_EN, lo := 5, n := 1, acc := .rw } -- Test instruction refused (R700)
def PX_CAUSE_EN_STRAP_BAD : Fld := { reg := PX_CAUSE_EN, lo := 6, n := 1, acc := .rw } -- Reserved BOOT value
def PX_CAUSE_EN_BUCK_LIM : Fld := { reg := PX_CAUSE_EN, lo := 7, n := 1, acc := .rw } -- A buck phase reached its peak limit
def PX_CAUSE_EN_LOCK_ERR : Fld := { reg := PX_CAUSE_EN, lo := 14, n := 1, acc := .rw } -- Write to a locked field (R691)
def PX_CAUSE_EN_ACC_ERR : Fld := { reg := PX_CAUSE_EN, lo := 15, n := 1, acc := .rw } -- Reserved encoding written
def row_PX_CAUSE_EN : RegRow := { reg := PX_CAUSE_EN, fields := [PX_CAUSE_EN_BOR, PX_CAUSE_EN_BOR_END, PX_CAUSE_EN_VIO_LOST, PX_CAUSE_EN_XTAL_FAIL, PX_CAUSE_EN_PULSE_OVR, PX_CAUSE_EN_JTAG_REF, PX_CAUSE_EN_STRAP_BAD, PX_CAUSE_EN_BUCK_LIM, PX_CAUSE_EN_LOCK_ERR, PX_CAUSE_EN_ACC_ERR] }
/-- PX_BOUGH0: Pads with an enabled cause (spec/20, R702). -/
def PX_BOUGH0 : Reg := { base := 0x4013001C, own := .padBits }
def PX_BOUGH0_PAD : Fld := { reg := PX_BOUGH0, lo := 0, n := 32, acc := .ro } -- Bit i: PX_GCAUSE AND PX_GCAUSE_EN bit i
def row_PX_BOUGH0 : RegRow := { reg := PX_BOUGH0, fields := [PX_BOUGH0_PAD] }
/-- PX_BOUGH1: Device cause enabled (spec/20, R702). -/
def PX_BOUGH1 : Reg := { base := 0x40130020 }
def PX_BOUGH1_DEV : Fld := { reg := PX_BOUGH1, lo := 0, n := 1, acc := .ro } -- PX_CAUSE AND PX_CAUSE_EN not 0
def row_PX_BOUGH1 : RegRow := { reg := PX_BOUGH1, fields := [PX_BOUGH1_DEV] }
/-- PX_GOWN: Owners of pads 8j to 8j + 7 (spec/20, R702). -/
def PX_GOWN : Reg := { base := 0x40130040, n2 := 4, s2 := 0x4 }
def PX_GOWN_PART (i : Nat) : Fld := { reg := PX_GOWN, lo := 0 + 4 * i, n := 3, acc := .rwl } -- Owner of pad 8j + i
def PX_GOWN_VALID (i : Nat) : Fld := { reg := PX_GOWN, lo := 3 + 4 * i, n := 1, acc := .rwl } -- 0: partition 0 owns the pad
def row_PX_GOWN : RegRow := { reg := PX_GOWN, fields := (List.range 8).map PX_GOWN_PART ++ (List.range 8).map PX_GOWN_VALID }
/-- PX_GIN: Pad inputs (spec/20, R702). -/
def PX_GIN : Reg := { base := 0x40130080, own := .padBits }
def PX_GIN_IN : Fld := { reg := PX_GIN, lo := 0, n := 32, acc := .ro } -- Bit i: input path of Gi (R688, R689)
def row_PX_GIN : RegRow := { reg := PX_GIN, fields := [PX_GIN_IN] }
/-- PX_GOUT: Output levels (spec/20, R702). -/
def PX_GOUT : Reg := { base := 0x40130084, own := .padBits }
def PX_GOUT_OUT : Fld := { reg := PX_GOUT, lo := 0, n := 32, acc := .rw } -- Bit i: output level for FUNC 2
def row_PX_GOUT : RegRow := { reg := PX_GOUT, fields := [PX_GOUT_OUT] }
/-- PX_GSET: Set output bits (spec/20, R702). -/
def PX_GSET : Reg := { base := 0x40130088, own := .padBits }
def PX_GSET_SET : Fld := { reg := PX_GSET, lo := 0, n := 32, acc := .wo } -- Writing 1 sets the PX_GOUT bit
def row_PX_GSET : RegRow := { reg := PX_GSET, fields := [PX_GSET_SET] }
/-- PX_GCLR: Clear output bits (spec/20, R702). -/
def PX_GCLR : Reg := { base := 0x4013008C, own := .padBits }
def PX_GCLR_CLR : Fld := { reg := PX_GCLR, lo := 0, n := 32, acc := .wo } -- Writing 1 clears the PX_GOUT bit; with PX_GSET in one cycle, set governs
def row_PX_GCLR : RegRow := { reg := PX_GCLR, fields := [PX_GCLR_CLR] }
/-- PX_GCAUSE: Edge causes (spec/20, R702). -/
def PX_GCAUSE : Reg := { base := 0x40130090, own := .padBits }
def PX_GCAUSE_EDGE : Fld := { reg := PX_GCAUSE, lo := 0, n := 32, acc := .w1c } -- Bit i: selected edge on Gi
def row_PX_GCAUSE : RegRow := { reg := PX_GCAUSE, fields := [PX_GCAUSE_EDGE] }
/-- PX_GCAUSE_EN: Edge cause enables (spec/20, R702). -/
def PX_GCAUSE_EN : Reg := { base := 0x40130094, own := .padBits }
def PX_GCAUSE_EN_EN : Fld := { reg := PX_GCAUSE_EN, lo := 0, n := 32, acc := .rw } -- Enables to PX_BOUGH0
def row_PX_GCAUSE_EN : RegRow := { reg := PX_GCAUSE_EN, fields := [PX_GCAUSE_EN_EN] }
/-- PX_GCFG: Pad i configuration; stride 0x4 (spec/20, R702). -/
def PX_GCFG : Reg := { base := 0x40130100, n1 := 32, s1 := 0x4, own := .pad }
def PX_GCFG_FUNC : Fld := { reg := PX_GCFG, lo := 0, n := 3, acc := .rwl, bad := [(6, 7)] } -- Function (R684)
def PX_GCFG_SEL : Fld := { reg := PX_GCFG, lo := 4, n := 4, acc := .rwl } -- Timer for FUNC 4
def PX_GCFG_PULL : Fld := { reg := PX_GCFG, lo := 8, n := 2, acc := .rwl, bad := [(3, 3)] } -- 0 none, 1 down, 2 up, each 50 kΩ; 3 reserved
def PX_GCFG_HAND : Fld := { reg := PX_GCFG, lo := 10, n := 2, acc := .rwl, bad := [(3, 3)] } -- Handover: 0 hold, 1 high-impedance, 2 weak pull to SAFE; 3 reserved
def PX_GCFG_SAFE : Fld := { reg := PX_GCFG, lo := 12, n := 1, acc := .rwl } -- Level of the handover pull
def PX_GCFG_OD : Fld := { reg := PX_GCFG, lo := 13, n := 1, acc := .rwl } -- 1: open drain
def PX_GCFG_PW : Fld := { reg := PX_GCFG, lo := 14, n := 2, acc := .rwl } -- Pulse length 2^PW PCLK cycles
def PX_GCFG_EDGE : Fld := { reg := PX_GCFG, lo := 17, n := 2, acc := .rwl } -- 0 none, 1 rising, 2 falling, 3 both
def PX_GCFG_HB : Fld := { reg := PX_GCFG, lo := 19, n := 1, acc := .ro } -- Handover in progress
def row_PX_GCFG : RegRow := { reg := PX_GCFG, fields := [PX_GCFG_FUNC, PX_GCFG_SEL, PX_GCFG_PULL, PX_GCFG_HAND, PX_GCFG_SAFE, PX_GCFG_OD, PX_GCFG_PW, PX_GCFG_EDGE, PX_GCFG_HB] }
/-- PX_PHCFG: Phase pads; stride 0x100 (spec/20, R702). -/
def PX_PHCFG : Reg := { base := 0x40134000, n1 := 64, s1 := 0x100, rst := 0x00000011, own := .phase }
def PX_PHCFG_PDRV : Fld := { reg := PX_PHCFG, lo := 0, n := 2, acc := .rwl, bad := [(3, 3)] } -- PWM drive: 0 8 mA, 1 12 mA, 2 16 mA; 3 reserved
def PX_PHCFG_EDRV : Fld := { reg := PX_PHCFG, lo := 4, n := 2, acc := .rwl, bad := [(3, 3)] } -- EN drive, as PDRV
def row_PX_PHCFG : RegRow := { reg := PX_PHCFG, fields := [PX_PHCFG_PDRV, PX_PHCFG_EDRV] }
/-- PX_FBCFG: Firebreak pads (spec/20, R702). -/
def PX_FBCFG : Reg := { base := 0x40138000, rst := 0x00000005 }
def PX_FBCFG_CDRV : Fld := { reg := PX_FBCFG, lo := 0, n := 2, acc := .rwl, bad := [(3, 3)] } -- CROWBAR_N drive, as PDRV
def PX_FBCFG_EDRV : Fld := { reg := PX_FBCFG, lo := 2, n := 2, acc := .rwl, bad := [(3, 3)] } -- EFUSE_EN drive, as PDRV
def PX_FBCFG_FWPU : Fld := { reg := PX_FBCFG, lo := 4, n := 1, acc := .rwl } -- 1: 50 kΩ pull-up on FAULT_N
def row_PX_FBCFG : RegRow := { reg := PX_FBCFG, fields := [PX_FBCFG_CDRV, PX_FBCFG_EDRV, PX_FBCFG_FWPU] }

def regsPowerPart0 : List RegRow :=
  [row_FB_PTH, row_FB_PHOC, row_FB_PFILT, row_FB_PLAT, row_FB_PCLR, row_FB_PSTAT, row_FB_PCAUSE, row_FB_PCAUSE_EN, row_FB_RCFG, row_FB_RABS, row_FB_RFILT, row_FB_RACT, row_FB_RADAPT, row_FB_RTEST, row_FB_RLAT, row_FB_RCLR, row_FB_RSTAT, row_FB_RCAUSE, row_FB_RCAUSE_EN, row_FB_IIN, row_FB_OT, row_FB_STORE, row_FB_STH, row_FB_LANE, row_FB_DLOCK, row_FB_CROWMAP, row_FB_PINCFG, row_FB_WDG, row_FB_WDG_KICK, row_FB_WDG_CNT]

def regsPowerPart1 : List RegRow :=
  [row_FB_CWDG, row_FB_CWDG_KICK, row_FB_DACT, row_FB_DLAT, row_FB_DCLR, row_FB_DSTAT, row_FB_DCAUSE, row_FB_DCAUSE_EN, row_FB_PINS, row_FB_TEMP, row_FB_BOUGH, row_FB_SC_CFG, row_FB_SC_TH, row_FB_SC_STAT, row_FB_SC_CAUSE, row_FB_SC_CAUSE_EN, row_FB_SC_WQ, row_ST_CFG, row_ST_CTL, row_ST_STATUS, row_ST_CEIL, row_ST_CMARG, row_ST_ALLOW, row_ST_BUCKET, row_ST_ESC, row_ST_TMAP, row_ST_PRIO0, row_ST_PRIO1, row_ST_SNS, row_ST_SHUNT]

def regsPowerPart2 : List RegRow :=
  [row_ST_VLIM, row_ST_VLIM2, row_ST_CAPY, row_ST_ECAP, row_ST_FLOOR, row_ST_ILIM, row_ST_TERM, row_ST_LOOP, row_ST_PER, row_ST_HOLD, row_ST_REINS, row_ST_IIN, row_ST_VMEAS, row_ST_IST, row_ST_ENERGY, row_ST_RESV, row_ST_BUDGET, row_ST_DSTAT, row_ST_CAUSE, row_ST_CAUSE_EN, row_CN_VIEW, row_CN_CANOPY, row_CN_PIN, row_CN_BOUGHGV, row_CN_BOUGHX, row_CN_ALERT_EN, row_CN_IRQEN, row_CN_WIRQEN, row_CN_SWCAUSE, row_CN_SWSET]

def regsPowerPart3 : List RegRow :=
  [row_CN_SWEN, row_PD_STATE, row_PD_ONA, row_PD_ONB, row_PD_HWVOTEA, row_PD_HWVOTEB, row_PD_HOLD, row_PD_HOLDREL, row_PD_HOLDAUTO, row_PD_SRBRET, row_PD_CAUSE, row_PD_CAUSE_EN, row_PD_VOTEA, row_PD_VOTEB, row_PD_DSTAT, row_PD_WAKE_EN, row_PD_WAKE_SRC, row_PD_WAKE_GPIO, row_PD_CLR_ALERT, row_PD_WQ, row_PX_STRAP, row_PX_STATUS, row_PX_RSTSRC, row_PX_BOR, row_PX_VCORE, row_PX_CAUSE, row_PX_CAUSE_EN, row_PX_BOUGH0, row_PX_BOUGH1, row_PX_GOWN]

def regsPowerPart4 : List RegRow :=
  [row_PX_GIN, row_PX_GOUT, row_PX_GSET, row_PX_GCLR, row_PX_GCAUSE, row_PX_GCAUSE_EN, row_PX_GCFG, row_PX_PHCFG, row_PX_FBCFG]

/-- The register map rows of the FB, ST, PD, CN, PX blocks. -/
def regsPower : List RegRow := regsPowerPart0 ++ regsPowerPart1 ++ regsPowerPart2 ++ regsPowerPart3 ++ regsPowerPart4

end Sys2Proof.Machine
end

