-- ==== Sys2Proof/Machine/Store.lean ====
section
/-! DEFINITION. The sparse stores the state is built from: a list of (key, value) pairs with strictly rising keys
and no entry equal to what an unlisted key reads as, so that equal contents are equal data. -/

namespace Sys2Proof.Machine

/-- The value at key `k`, or `d` where nothing is listed. -/
def Store.get {α : Type} : List (Nat × α) → Nat → α → α
  | [], _, d => d
  | (k', v) :: t, k, d => if k' = k then v else Store.get t k d

/-- Put (k, v) at its place among rising keys, over what stood there. -/
def Store.ins {α : Type} : List (Nat × α) → Nat → α → List (Nat × α)
  | [], k, v => [(k, v)]
  | (k', v') :: t, k, v =>
    if k < k' then (k, v) :: (k', v') :: t
    else if k = k' then (k, v) :: t
    else (k', v') :: Store.ins t k v

/-- Drop key `k`. -/
def Store.del {α : Type} : List (Nat × α) → Nat → List (Nat × α)
  | [], _ => []
  | (k', v') :: t, k => if k' = k then Store.del t k else (k', v') :: Store.del t k

/-- Write `v` at key `k` of a store whose unlisted key `k` reads `d`: writing `d` removes the entry. -/
def Store.put {α : Type} [DecidableEq α] (l : List (Nat × α)) (k : Nat) (v d : α) : List (Nat × α) :=
  if v = d then Store.del l k else Store.ins l k v

/-- Every key of `l` is above `k`. -/
def Store.above {α : Type} (k : Nat) (l : List (Nat × α)) : Bool := l.all fun c => decide (k < c.1)

/-- The canonical form: keys strictly rising, no entry equal to what its key reads when unlisted. -/
def Store.wf {α : Type} [DecidableEq α] (d : Nat → α) : List (Nat × α) → Bool
  | [] => true
  | (k, v) :: t => decide (v ≠ d k) && Store.above k t && Store.wf d t

end Sys2Proof.Machine
end

