-- ==== Sys2Proof/Machine/State.lean ====
section
/-! DEFINITION. The state of the IZ6416 as plain data: the register store, the active (double-buffered) values, the
internal variables the spec names without giving them a register, the collections, the memories and the queue of
waiting commands. -/

namespace Sys2Proof.Machine

/-- The internal variables the spec names without giving them a register. Each has copies, one per rail, phase,
grove or other unit its text names. -/
inductive Hid where
  /-- Rail time t of a rail (16: the store's), in taps (R86). -/
  | railTime
  /-- The reference r of a rail with its 8 fraction bits, in 1/256 F (R49). -/
  | refFrac
  /-- The filtered summed current isum_f of a rail (R53). -/
  | isumF
  /-- The positioned reference p of a rail, in F (R53). -/
  | posRef
  /-- The 40-bit integrator i of a rail (R55). -/
  | integ
  /-- x1, the error of the previous cycle of a rail (R55). -/
  | errX1
  /-- x2, the error of the cycle before that (R55). -/
  | errX2
  /-- x_valid, the last error from a sample without SETTLE (R48, R55). -/
  | errValid
  /-- y1, the biquad output of the previous cycle (R55). -/
  | outY1
  /-- y2, the biquad output of the cycle before that (R55). -/
  | outY2
  /-- How many coming samples of a rail still carry SETTLE (R48). -/
  | settleLeft
  /-- Run of over-range samples of a rail, in LCLK cycles (R46). -/
  | ovrRun
  /-- The last sensed output of a rail, centre × 100 + c × 256 F (R45, R556). -/
  | vSense
  /-- Phases of a rail that a strike or release forces, bit n for phase n (R67). -/
  | forceMask
  /-- Phases of a rail whose current limit tripped during its strike, bit n for phase n (R67). -/
  | forceCbc
  /-- 1 while the phases of a rail are held LOW by a stop in mode DISCHARGE or a mode-2 rail-off (R214, R222). -/
  | forceHold
  /-- 1 while the strike hold-off timer of a rail runs (R63). -/
  | strikeHoldoff
  /-- 1 while the release hold-off timer of a rail runs (R63). -/
  | releaseHoldoff
  /-- LCLK cycles a rail's loop has spent in STRIKE or RELEASE (R62). -/
  | modeTime
  /-- Lead-phase valleys of a rail since it entered RESTORE (R68). -/
  | restoreCnt
  /-- 1 while dsat_hi held in every cycle of a rail since its last commit point (R708). -/
  | satHiAll
  /-- 1 while dsat_lo held in every cycle of a rail since its last commit point (R708). -/
  | satLoAll
  /-- 1 while the cycles since a rail's last commit point form a period of R708. -/
  | satValid
  /-- The lead phase of a rail plus 1; 0 when it has none (R73). -/
  | lastLead
  /-- The time base of a rail's last commit point (16: the store's) plus 1 (R72). -/
  | commitAt
  /-- The duty term the intent logic presents to a rail (R69). -/
  | ffdIn
  /-- The voltage term the intent logic presents to a rail (R71). -/
  | ffvIn
  /-- 1 once RAMP_DONE was raised since a rail entered SOFT_START (R188). -/
  | rampDone
  /-- Run of LCLK cycles in which |X| of a rail exceeds the bound of RL_PG.WIN (R188). -/
  | pgBad
  /-- Run of LCLK cycles of a rail that meet the lag condition of R197. -/
  | trkRun
  /-- Run of lead-phase periods of a rail with at least half its phases limited (R197). -/
  | trkCbc
  /-- Commit points of a rail in a row with ip below SHED_I (R200). -/
  | copDwell
  /-- The stop of a rail in STOPPING: 0 sequenced, 1 immediate, 2 minimum-phase (R185). -/
  | stopKind
  /-- The mode of a rail's stop in progress: 0 RAMP, 1 TRI, 2 DISCHARGE (R214). -/
  | stopMode
  /-- 1 while a rail's shutdown is not complete (R185). -/
  | shutPend
  /-- 1 when a phase had a positive current-limit trip in the present lead-phase period (R197). -/
  | armCbc
  /-- acc_n, the equalisation integrator of a phase, in 1/256 duty code (R107). -/
  | eqAcc
  /-- Periods in a row in which a phase's trim was updated and stood at a bound; negative at the lower (R109). -/
  | eqSatRun
  /-- Sum of a phase's calibrated samples in the present period (R106). -/
  | iSum
  /-- Their number (R106). -/
  | iCnt
  /-- 1 once a phase has made its pulse of the present period (R89). -/
  | pulseMade
  /-- The tap of a phase's last rise, time base × 32 + tap (R89). -/
  | riseAt
  /-- The tap of its last fall (R89). -/
  | fallAt
  /-- 1 once the phase has fallen since reset (R89). -/
  | everFell
  /-- The time base of a phase's last valley, plus 1 (R86). -/
  | valleyAt
  /-- The tap up to which a phase's position may reach 0 again and still be at the valley already counted, plus 1 (R95, R99). -/
  | ghostEnd
  /-- 1 from a phase's entry into SWITCHING to its next valley (R96). -/
  | waitValley
  /-- 1 once a SHED phase has reached its next valley (R115). -/
  | shedDone
  /-- 1 while a phase is TRI after a negative current-limit trip (R92, R223). -/
  | negTri
  /-- History of the positive current limit of a phase (R232). -/
  | cbcHist
  /-- History of its negative current limit. -/
  | nocHist
  /-- History of its hard over-current comparator. -/
  | hocHist
  /-- 1 once the present hard over-current output of a phase has been decided. -/
  | hocDone
  /-- 1 once a phase raised its current-limit event in the present period (R247). -/
  | cbcEvent
  /-- 1 once a phase raised its negative-limit event in the present period (R247). -/
  | nocEvent
  /-- Valleys in a row with a phase's IAVG below the open threshold (R206). -/
  | openRun
  /-- Sum of the raw samples of a running auto-zero (R105). -/
  | azSum
  /-- Their number (R105). -/
  | azCnt
  /-- The mapping round (R713). -/
  | mapRound
  /-- Phases still to be toned by the present mapping command, bit n for phase n (R122). -/
  | mapQueue
  /-- 1 while the present mapping command is a GO (R714). -/
  | mapByGo
  /-- History of the over-voltage comparator of a rail (R232). -/
  | ovHist
  /-- History of its under-voltage comparator. -/
  | uvHist
  /-- History of its absolute over-voltage comparator. -/
  | absHist
  /-- Last raw output of the over-voltage comparator of a rail. -/
  | ovRaw
  /-- Last raw output of its under-voltage comparator. -/
  | uvRaw
  /-- 1 once the present over-voltage output of a rail has been decided. -/
  | ovDone
  /-- 1 once the present under-voltage output has been decided. -/
  | uvDone
  /-- 1 once the present absolute over-voltage output has been decided. -/
  | absDone
  /-- Near misses g of the over-voltage comparator of a rail (R242). -/
  | ovNear
  /-- Near misses g of its under-voltage comparator (R242). -/
  | uvNear
  /-- 1 while the blanking window of R196 of a rail is open. -/
  | ssBlank
  /-- The time base of the last write of FB_RTEST.GO on a rail, plus 1 (R234, R235). -/
  | testBlank
  /-- History of the input over-current comparator (R232). -/
  | iinHist
  /-- Histories of the store comparators: 0 over-voltage, 1 over-current, 2 over-temperature (R219). -/
  | stHist
  /-- 1 once the present output of device source s has been decided. -/
  | devDone
  /-- Scans in a row in which some sensor i read at or above FB_OT.TH (R238). -/
  | dieRun
  /-- 1 while the shortest assertion of CROWBAR_N[j] runs (R227). -/
  | crowMin
  /-- 1 while the shortest drop of EFUSE_EN runs (R228). -/
  | efuseMin
  /-- acc, the store controller's integrator (R261). -/
  | sAcc
  /-- d, the store duty of the last store commit point (R261). -/
  | sDuty
  /-- The store voltage of the last store commit point, in mV (R255). -/
  | sVst
  /-- The store current of the last store commit point, in 0.25 A (R255). -/
  | sIst
  /-- The store voltage of the tick before (R281). -/
  | sPrevVst
  /-- tb, the store target on the bus side, in 1/16 A (R263). -/
  | sBus
  /-- run_d, ticks in a row over the allowance (R274). -/
  | sRunD
  /-- run_r, ticks in a row at or under the ceiling (R274). -/
  | sRunR
  /-- Sum of FL_ISUM of a rail over the cycles since the last ceiling tick (R276). -/
  | tkSum
  /-- Their number (R276). -/
  | tkCnt
  /-- FL_ISUM of a rail averaged over the last tick, in 0.25 A (R276, R277). -/
  | tkAvg
  /-- chg_lim, in 0.25 A (R269). -/
  | sChgLim
  /-- Ticks since the last step of the limit ramp (R283). -/
  | sRampTick
  /-- 1 while the limits of a newly connected store ramp up (R283). -/
  | sRamping
  /-- 1 while a charge session is open (R270). -/
  | sSession
  /-- The stamp of its opening (R270). -/
  | sSessOpen
  /-- The store voltage at its opening, in mV (R270). -/
  | sSessV
  /-- The energy it has taken in, in nJ (R270). -/
  | sSessE
  /-- 1 while the open session has no positive target (R270). -/
  | sSessIdle
  /-- Ticks in a row with the bus at the level that ends HOLDUP (R280). -/
  | sHoldOk
  /-- E of a cell pack, or the energy of a supercapacitor, in nJ (R266). -/
  | sEnergyN
  /-- The priority level of a droop engagement, 1 to 15: 1 while engaged (R276). -/
  | dLevel
  /-- The input current at a level's step, in 1/16 A (R276). -/
  | dIin
  /-- D, a level's measured effect, in 1/16 A (R276). -/
  | dEffect
  /-- 1 while a level's effect is still to be recorded (R276). -/
  | dEffPend
  /-- Ticks in a row that meet the release condition of a level (R278). -/
  | dRelRun
  /-- L, the current limit of an engaged rail, in 0.25 A (R276). -/
  | dLim
  /-- dcap, the duty cap of an engaged rail, in duty codes (R277). -/
  | dCap
  /-- 1 while a rail is engaged in droop (R276). -/
  | dOn
  /-- 1 while an engaged rail's level has been released and its cap rises (R278). -/
  | dRel
  /-- THROTTLE_N[g]: 1 while asserted (R275). -/
  | throttle
  /-- ON_TIME of a phase's life slot, in seconds (R547). -/
  | lOn
  /-- ACLK edges with ENnn high towards the next second (R547). -/
  | lOnFrac
  /-- CHARGE of the slot, in mC (R547). -/
  | lChg
  /-- Charge not yet handed to AON, in units of 1/64 A times a tap (R547). -/
  | lChgAcc
  /-- THERM of slot i / 8, bin i % 8 (R547). -/
  | lTherm
  /-- FAULTS of the slot (R547). -/
  | lFaults
  /-- The running temperature extreme of the stage, in 1/16 °C (R548). -/
  | lExt
  /-- The extreme before it (R548). -/
  | lPrevExt
  /-- The direction since that extreme: 0 none yet, 1 rising, -1 falling (R548). -/
  | lDir
  /-- 1 once a temperature was read since mapping (R548). -/
  | lSeen
  /-- The wear index of the stage (R549). -/
  | lWear
  /-- 1 while the slot was loaded from the mirror (R547). -/
  | lMirror
  /-- The SEQ last read or written of the stage's mirror (R131). -/
  | lSeq
  /-- 1 once SVC has been released after the last device reset (R230). -/
  | svcOn
  /-- The time base at which a phase last went LOW (R236). -/
  | lowAt
  /-- 1 from a committed reference step of a rail to the centre move it causes (R47, R50). -/
  | refStep
  /-- The delivered accumulator of a rail in its LOOP domain (R556). -/
  | emD
  /-- The returned accumulator of a rail (R556). -/
  | emR
  /-- The last sample of a rail's output, in F, before the window clamps it (R222). -/
  | vPin
  /-- The hottest die reading of the period, in °C + 40: 0 daily, 1 yearly (R554). -/
  | dieMax
  /-- The rising limit of a newly connected store, in 0.25 A (R283). -/
  | sRamp
  /-- Energy reserved for grants, in nJ (R272). -/
  | sResvN
  /-- 1 while the load estimate of a rail lies beyond its rail cap (R339). -/
  | igOver
  /-- The time base of lane L's last STATUS frames, plus 1 (R341) -/
  | igStAt
  /-- The time base of the last HELLO of rail k, plus 1 (R352) -/
  | cHelloAt
  /-- 1 while rail k owes a HELLO for a link that came up (R352) -/
  | cHelloDue
  /-- Commit points of its own after which rail k, having lost its master, elects a new one (R361) -/
  | cElect
  /-- 1 while rail k stands down because it was let go by a carry-over (R363) -/
  | cLeft
  /-- VER and FEAT of the epoch last announced by rail k, VER in bits [23:16] (R355) -/
  | cAnn
  /-- The rates a lane may still train at, bit j for rate j (R296, R297) -/
  | lRates
  /-- Failed attempts of lane i / 4 at rate i % 4 (R296) -/
  | lFail
  /-- DEVID of the last identity accepted on a lane since device reset, plus 1 (R313) -/
  | lDevid
  /-- MSG flits a lane may still send (R310) -/
  | lCredit
  /-- SEQ of a lane's next new MSG flit (R306, R310) -/
  | lTxSeq
  /-- The SEQ a lane expects next (R308) -/
  | lRxSeq
  /-- MSG flits received in order and not yet acknowledged (R308) -/
  | lAckDue
  /-- MSG flits freed and not yet returned as credit (R308) -/
  | lFreed
  /-- Replays of a lane in which the same SEQ was not acknowledged (R311) -/
  | lReplays
  /-- Sum of the round trips measured in CHECK, in ticks (R304) -/
  | lRttSum
  /-- Their number (R304) -/
  | lRttCnt
  /-- The receiver's equalisation phase of a lane: 0 CTLE, 1 presets, 2 post-cursor steps, 3 pre-cursor steps, 4 done (R301) -/
  | lEqPhase
  /-- The code or preset under trial (R301) -/
  | lEqIdx
  /-- The highest EYE of the phase so far (R301) -/
  | lEqBest
  /-- The code or preset that gave it (R301) -/
  | lEqCode
  /-- EYE before the step under trial (R301) -/
  | lEqPrev
  /-- Steps taken in all (R301) -/
  | lEqSteps
  /-- 1 once a lane's receiver sent DONE (R297) -/
  | lEqSent
  /-- The first member in use of a degraded bond, counted from its lead (R320) -/
  | lBase
  /-- The members of the bond led by lane L that have done what the present training state asks, bit m for member L + m (R318) -/
  | lMemb
  /-- Scrambler of lane l: the last 58 bits it sent, the newest in bit 0 (R290) -/
  | lScr
  /-- The scrambled bits of the last flit on the line of lane l, the first sent in bit 127 (R290) -/
  | lWire
  /-- Where the next flit slot of the link led by lane L lies, in sevenths of a tick (R289) -/
  | lSlot
  /-- Flits the link led by lane L has sent since ACTIVE entry (R319) -/
  | lTxK
  /-- Flits lane l has sent since its last SKIP (R295) -/
  | lSkip
  /-- The time base at which the electrical idle of RATE ends (R297) -/
  | lIdle
  /-- Consecutive flits of lane l that passed their CRC while it seeks flit lock (R294) -/
  | lGood
  /-- DFE tap i % 16 of lane i / 16 (R302) -/
  | lDfe
  /-- The time base, plus 1, from which it adapts; 0 while it is not known (R302) -/
  | lDfeAt
  /-- Sum of FL_ISUM of a rail over the cycles of the present load estimate (R345) -/
  | igSum
  /-- Their number (R345) -/
  | igCnt
  /-- The sensed output of a rail at its last load estimate, in F (R345) -/
  | igPrevV
  /-- The last CAP sent to the partner on lane i % 12 for rail i / 12, in 0.5 A (R339) -/
  | igCap
  /-- The terms coupling adds to the feedforward duty of a rail (R357, R358) -/
  | cTerm
  /-- The summed current of the other members of a coupled rail, in 0.25 A (R345, R358) -/
  | cIsum
  /-- Their SWITCHING phases (R342, R358) -/
  | cNsw
  /-- The outcome tail of a grove, as last written (R157) -/
  | gOutTail
  /-- The group integrator ci at the master of a coupled rail; elsewhere the last CI heard, in duty codes (R357) -/
  | cCi
  /-- The device trim dt of a coupled rail (R358) -/
  | cDt
  /-- The commit count of a coupled rail, modulo 256 (R352) -/
  | cSeq
  /-- The admitted set of a coupled rail, bit i for MYIDX i (R354) -/
  | cSet
  /-- The time base of the master's valley as last estimated (R359) -/
  | cValley
  /-- 1 once such an estimate was made -/
  | cValleyOk
  /-- The master's AOFS for this device (R359) -/
  | cAofs
  /-- 1 while an accepted carry-over waits for its epoch (R363) -/
  | cCarry
  /-- The epoch a master announced last (R355) -/
  | cEpoch
  /-- Lanes declared down and not trained since, bit l for lane l (R241) -/
  | lLost
  /-- RATES of a link's partner (R298) -/
  | lPRates
  /-- The preset a link's partner asked to start with (R296) -/
  | lPPreset
  /-- The channel of a converter's previous conversion, plus 1 (R372) -/
  | tcPrevCh
  /-- The gain code of its previous delivered conversion, plus 1 (R374) -/
  | tcPrevGain
  /-- The PCLK cycle in which the refusal log last took a record, plus 1 (R406) -/
  | refAt
  /-- The tick from which the fuse pulse in progress may end (R417) -/
  | fuseAt
  /-- The time base when the device entered Quiet (R525) -/
  | quietAt
  /-- The tick of a converter's next periodic trigger (R377) -/
  | tcPerAt
  /-- The tick from which a converter may hand its next record to the crossing (R383) -/
  | tcHand
  /-- The time base at which a phase was last declared failed, plus 1 (R386) -/
  | failAt
  /-- What the device state allows: 0 every domain, 1 Glade, 2 SVC alone, 3 none (R513, R526, R529) -/
  | pdAllow
  /-- The transition in progress: 0 none, 1 Glade entry, 2 Glade return, 3 Clearing entry, 4 Clearing return (R524) -/
  | pdTrans
  /-- 1 when a wake of domain i fell after AP3 of its entry (R519) -/
  | pdLate
  /-- 1 while the warden and root sequencer hold theirs (R515) -/
  | wVote
  /-- 1 while the warden is halted (R609) -/
  | cHalt
  /-- 1 while CPU i stands at a WAIT (R586) -/
  | cWait
  /-- 1 while a late store error of core i is pending (R600) -/
  | cLate
  /-- 1 after a second one (R600) -/
  | cMulti
  /-- Pending trail lines of core i, bit j for line j (R604) -/
  | cLines
  /-- Trail lines of core i whose event was lost while pending (R604) -/
  | cLineOvr
  /-- The time base from which CPU i counts SCLK cycles (R568) -/
  | cCycBase
  /-- Replacement pointer of a TLB (R625) -/
  | cTlbPtr
  /-- Pseudo-LRU bits of set i % 256 of the cache of core i / 256 (R593) -/
  | cPlru
  /-- 1 while a debug session holds core i (R608) -/
  | cDbg
  /-- 15 minus the rank of slot i % 16 at the arbiter of bank i / 16, as an offset from its reset value (R497) -/
  | arbRank
  /-- Wait count of slot i % 16 at bank i / 16 (R497) -/
  | arbWait
  /-- Engine i % 64 of grove i / 64: 0 unknown, 1 pool, 2 spare, 3 retired, 4 under self-test from the pool, 5 power-up self-test (R135, R174) -/
  | gEng
  /-- 1 + the kind of the standard task that task i % 64 of grove i / 64 is (GROVE_STD); 0 none (R166) -/
  | gStd
  /-- Trigger count of task i % 64 of grove i / 64 (R158) -/
  | gDiv
  /-- Stamp of the trigger waiting in its slot (R159) -/
  | gStamp
  /-- Number of passes grove g has started (R151) -/
  | gTag
  /-- Set of SWITCHING phases of rail i % 16 last seen by grove i / 16 (R158) -/
  | gSet
  /-- Time latched by engine i % 64 of grove i / 64 (R147) -/
  | gTimeHi
  /-- Capture unit of a grove: 0 idle, 1 armed, 2 running (R154) -/
  | capSt
  /-- Its control word (R154) -/
  | capCfg
  /-- Partition of its record (R154) -/
  | capPart
  /-- OBASE (R155) -/
  | capBase
  /-- Samples recorded (R154) -/
  | capCnt
  /-- Commit points since its start (R155) -/
  | capTone
  /-- The pair of lines in the read buffer of flash array i, plus 1 (R652) -/
  | fcPair
  /-- SPACE of the suspended erase: 0 a bank, 1 the idle twin (R659) -/
  | fcSpace
  /-- Stamp of the trigger that found it running (R159) -/
  | gStamp2
  /-- TOP in effect of timer i (R541) -/
  | tmTop
  /-- MATCH in effect of timer i (R541) -/
  | tmMat
  /-- Count of timer i at the instant of tmAt (R539) -/
  | tmBase
  /-- The time base at that instant -/
  | tmAt
  /-- 1 while timer i counts down -/
  | tmDown
  /-- Holding word of register j of timer i, at 3 i + j: 0 CNT, 1 TOP, 2 MATCH (R541) -/
  | tmHold
  /-- The fraction of the held time base, in 1/32 tick (R536) -/
  | tbFrac
  /-- TM_CAL1 as captured for reader i (R562) -/
  | cal1
  /-- 1 once a write of TM_RTC_CTL.SET has crossed into AON (R544) -/
  | setReady
  /-- The day of the RTC whose ring is open (R555) -/
  | rtcDay
  /-- The year whose ring is open (R555) -/
  | rtcYear
  /-- 1 while the RTC stands below TM_ALM (R545) -/
  | almBelow
  /-- 1 once the RTC stands at the calendar limit (R543) -/
  | rtcStop
  /-- Deadfall records in the period: 0 daily, 1 yearly (R554) -/
  | deadCnt
  /-- frac_d of the meter of a rail (R556) -/
  | emFracD
  /-- frac_r of it -/
  | emFracR
  /-- EM_E of a rail at the start of the open interval (R558) -/
  | emStart
  /-- The time base at that start -/
  | emStamp
  /-- The RTC at that start -/
  | emRtc
  /-- EM_CFG.LEN in effect; 0 for the value of EM_CFG (R558) -/
  | emLen
  /-- The RTC seconds at which intervals were last evaluated (R558) -/
  | emLast
  /-- 1 when a billing record was discarded and the next carries GAP (R560) -/
  | emGap
  /-- ACLK edges with SVC on towards the next second (R550) -/
  | pohFrac
  /-- 1 when a log write of the present flush failed (R551) -/
  | lfErr
  /-- 1 when domain i went off with its contents retained (R520) -/
  | pdKept
  /-- The command the flash controller runs: its OP, plus 8 once the data is in place (R656) -/
  | fcOp
  /-- The key of its first line, of its page or of its sector (R656) -/
  | fcBase
  /-- Its number of lines (R656) -/
  | fcLines
  /-- The key of the sector under erase or suspended (R657) -/
  | fcErase
  /-- 1 while the blank verify of a segment runs (R657) -/
  | fcVerify
  /-- The log sector the life-record block is to erase, plus 1 (R666) -/
  | lfErase
  /-- 1 once no further program of the life-record block starts (R662) -/
  | lfCut
  /-- The level at GPIO pad i (R686) -/
  | padLvl
  /-- What the outgoing function of pad i last drove, plus 1: 0 low, 1 high, 2 nothing; also the level a hold keeps (R521, R688) -/
  | padOld
  /-- A write of PX_GCFG that waits for the end of the handover of pad i, plus 1 (R690) -/
  | padNext
  /-- 1 while the trail pulse of pad i runs (R684) -/
  | padPulse
  /-- The core setpoint above 0.75 V, in mV (R678) -/
  | vcoreOff
  /-- 1 while EXTEST, CLAMP or HIGHZ is in force (R700) -/
  | tapTest
  /-- The instruction in the TAP less IDCODE (R699) -/
  | tapIr
  /-- Where start-up stands: 0 the buck ramps, 1 a reset is held, 2 the fuse load, 3 the PLLs lock, 4 SVC is released (R694, R697) -/
  | start
  /-- 0 before the boot twins are verified, 1 once one passed, 2 once none did, 3 while the active twin is to be verified again (R423, R698) -/
  | bootOk
  /-- 1 once the log scan and restoration have completed (R698) -/
  | scanDone
  /-- 1 from a warden reset until the command-port block has answered what was pending (R442) -/
  | wrst
  /-- Samples of sampled comparator i in a row beyond its threshold (R244) -/
  | scRun
  /-- The divider count of trail t (R467) -/
  | trDiv
  /-- The element of its ring that DMA channel i holds, plus 1 (R481) -/
  | dmaElem
  /-- The source address the channel reads next (R476) -/
  | dmaSrc
  /-- The destination address it writes next (R476) -/
  | dmaDst
  /-- Word 2 of its descriptor (R474) -/
  | dmaCtl
  /-- Word 3 of its descriptor (R474) -/
  | dmaNext
  /-- Bytes read and not yet written, little-endian (R476) -/
  | dmaHold
  /-- Their number (R476) -/
  | dmaHeld
  /-- The channel served last, plus 1 (R482) -/
  | dmaLast
  /-- 1 once FB_DLOCK was written since its reset (R10, R11) -/
  | rwoDone
  /-- The time base of the last valid kick of the warden's watchdog (0) or core i - 1's, plus 1 (R239, R240) -/
  | wdgAt
  /-- What the last command that reads a register returned (0) and whether it ended in a bus error (1) -/
  | rdOut
  /-- The decision stamp of the last root opcode, 64 bits (R459, R461) -/
  | rootStamp
  /-- The partition whose ring was served last, plus 1 (R438) -/
  | cpServed
  /-- How often lane i left ACTIVE (R454) -/
  | lSess
  /-- The number of the open firmware session, plus 1 (R460) -/
  | fwSess
  /-- Its target: 0 the idle twin, 1 the flash window -/
  | fwTgt
  /-- Its offset -/
  | fwOff
  /-- Its length -/
  | fwLen
  /-- The partition that opened it -/
  | fwPart
  /-- 1 once it verified an image of KIND 0 after its last write -/
  | fwOk
  /-- PAGE of the PMBus port (R448) -/
  | pmbPage
  /-- The partition named in the last packet to 0xD0 where that packet set REPLY, plus 1 (R444) -/
  | pmbLast
  /-- The PMBus stream whose reply a process call waits for, plus 1 (R445) -/
  | pmbCall
  /-- 1 after a TINV of the warden that no SYNC has followed (R633) -/
  | cTinv
  /-- Items that entered a crossing of R28 at the tick xAt: 0 events to the cores, 16 + l flits of lane l to the intent logic -/
  | xCnt
  /-- The time base of that tick, plus 1 -/
  | xAt
  /-- u >> s of rail i / 8 from the sample of the last tick equal to i % 8 modulo 8 (R44, R55) -/
  | dLine
  /-- The duty command of a rail that places the edges of this cycle (R44, R69) -/
  | dEdge
  /-- The integrator of rail i / 3 at the last PCLK edge (i % 3 = 0) and at the two before it (R709) -/
  | intSnap
  /-- 1 once GLADE was set since a rail froze (R82) -/
  | frzGlade
  /-- The active angle from which a phase returns in RESTORE (R68) -/
  | restFrom
  /-- Reads in a row that the stage mapped to a phase has not acknowledged (R121) -/
  | sbMiss
  /-- The phase whose tone window is open, plus 1 (R122, R123) -/
  | toneNow
  /-- The time base at which its tone frame began (R122) -/
  | toneAt
  /-- Roll calls whose tone mapping waits for the present mapping command (R120, R713) -/
  | toneDue
  /-- Bits of the pre-bias search of a rail still to settle (R193) -/
  | pbLeft
  /-- LCLK cycles of its present step (R193) -/
  | pbTick
  /-- The mean phase current of a rail at its last commit point, in 1/64 A (R200, R206) -/
  | ipNow
  /-- 1 once the stage of a phase last reported a temperature at or above T_LIMIT (R206, R219) -/
  | tAbove
  /-- LCLK cycles of a rail's comparator test (R235) -/
  | testCnt
  /-- What its raw outputs have shown: 1 over-voltage 0 and 2 under-voltage 1 at the threshold 16,383, 4 over-voltage 1 and 8 under-voltage 0 at the threshold 0 (R235) -/
  | testSeen
  /-- The time base, plus 1, at which a rail-off action last reached a rail as an immediate stop (R225, R226) -/
  | roStop
  /-- The actions a decision of sampled comparator i took: bits 0 to 3 CROW, 4 EFUSE, 5 FAULT (R245) -/
  | scAct
  /-- The time base at the last ACLK edge, from which AON holds it while LCLK is stopped (R536) -/
  | tbAclk
  /-- 1 from the stop of LCLK until the TM block has loaded the held count (R536) -/
  | tbWait
  /-- Byte i % 64 of the life mirror last written to the stage of phase i / 64 (R131) -/
  | mirror
  /-- What cell i of the boundary register holds: 0 nothing driven, 1 low, 2 high (R701) -/
  | cell
  /-- The level that a pad keeps while its domain's pads are held, by its boundary cell, as `cell` (R521) -/
  | pinHeld
  /-- The duty command of rail i / 4 formed, with its feedforward term, at the last tick equal to i % 4 modulo 4 (R69) -/
  | dForm
  /-- The time base at which a rail entered PENDING or SOFT_START (R185) -/
  | stAt
  /-- 1 while an action that turns several rails off at once has rail k among them (R190) -/
  | offNow
  /-- FC_LOGSTAT as it stood at a device reset, until SVC is released (R16, R668) -/
  | logKeep
  /-- 1 while a life slot belongs to a mapped stage (R547, R563) -/
  | lMap
  /-- Lane L (lead): 1 + the rate at which the EIOS that still wait leave, after a failed attempt (R296) -/
  | lEios
  /-- Lane L (lead): 1 + the WIDTH of the first TS2 received in CONFIG (R318) -/
  | lPWidth
  /-- Lane l: its taps have been adapted since device reset (R302, R323) -/
  | lDfeNew
  /-- Lane l: the state of its pattern generator in TEST (R297) -/
  | lPrbs
  /-- 1 + the word of trail register i (3 t + 0 TR_SRC, 1 TR_DSTA, 2 TR_DSTB) before the writes of the present GCLK cycle (R471) -/
  | trOld
  /-- Trail t: its divider count as an event routed in that cycle finds it (R471) -/
  | trOldDiv
  /-- 1 + the GCLK cycle in which a trail register was last written (R471) -/
  | trCyc
  /-- Phase n: the mean of the period that ended, on its way to PH_IMEAS.IAVG (R106) -/
  | avgPend
  /-- Phase n: 1 + the tick at which that mean is available (R106); 0 where none is on its way -/
  | avgAt
  /-- Phase n: its newest current sample (R106) -/
  | iLast
  /-- Phase n: 1 + the tick of that sample (R106) -/
  | iLastAt
  /-- When the device reset of a RESET may come, plus 1 (R456) -/
  | rstAt
  /-- What GPIO pad i keeps while it is held, as `padOut` codes it (R521) -/
  | padHeld
  /-- 1 while domain n enters off and its pads are held by this entry (R519) -/
  | pdHeldNow
  /-- 1 while stage snapshots wait for the next flush, after a brown-out (R552) -/
  | lfWait
  deriving DecidableEq, Repr

/-- The key of copy `i` of a variable. -/
def Hid.key (v : Hid) (i : Nat) : Nat := i * 1024 + v.ctorIdx

/-- A write on its way to the active copy of a double-buffered register (R22, R23): the commit domain (0 to 15 a rail,
16 the store, 17 none), the register's address, its reset word, the word written and the time base at which it became
pending (R77). -/
structure DbWrite where
  dom : Nat
  addr : Nat
  rst : Word
  val : Word
  stamp : Nat
  deriving DecidableEq, Repr

/-- An event on its way into the trail fabric: its source number (R462), its stamp (R30) and, from the
end of the cycle of its capture on, the levels of its trails' gates (R468). -/
structure Ev where
  src : Nat
  stamp : Nat
  gates : Option (List (Nat × Bool)) := none
  deriving DecidableEq, Repr

/-- A record waiting to be written to the life log (R553, R554): its kind, its length in bytes, the stamp and RTC of its
header, and its body as (byte offset, size in bytes, value). -/
structure LogRec where
  kind : Nat
  len : Nat
  stamp : Nat
  rtc : Nat
  body : List (Nat × Nat × Nat)
  deriving DecidableEq, Repr

/-- A target on a stage bus: its dynamic address, its provisioned ID, its descriptor bytes, whether the descriptor was
accepted, whether the stage is lost, and whether it is marked CONFLICT (R118, R121, R123, R129, R710). -/
structure Target where
  bus : Nat
  addr : Nat
  pid : Nat
  desc : List Nat
  ok : Bool
  lost : Bool
  conflict : Bool
  deriving DecidableEq, Repr

/-- An answer to the tone frame of the phase being mapped (R123). -/
structure ToneAns where
  bus : Nat
  addr : Nat
  code : Nat
  deriving DecidableEq, Repr

/-- A flit of the transmitter of a link (R291): its lead lane; the member that carries it (12: whichever's turn it is); its
TYPE (R292) and its payload bits [103:0]. Once it is on the line: its scrambled bits, the first sent in bit 127, and its
symbols in the order of transmission (R290). -/
structure Flit where
  lane : Nat
  line : Nat
  typ : Nat
  pay : Nat
  wire : Nat
  levels : List Int
  deriving DecidableEq, Repr

/-- A MSG flit in the replay buffer of a lane (R310): its SEQ, its payload, and the ring element it ends, counted from 1;
0 for none. -/
structure Unacked where
  lane : Nat
  seq : Nat
  pay : Nat
  elem : Nat
  deriving DecidableEq, Repr

/-- A message waiting to be sent on a lane: its channel, its bytes, the ring element it came from, counted from 1 (0 for
none), and how many of its flits have gone. -/
structure TxMsg where
  lane : Nat
  ch : Nat
  bytes : List Nat
  elem : Nat
  gone : Nat
  deriving DecidableEq, Repr

/-- A message received on a lane, whole (`full`) or in part: its channel, its bytes, the stamp of its first flit, and how
many of its flits have had no credit returned. -/
structure RxMsg where
  lane : Nat
  ch : Nat
  bytes : List Nat
  stamp : Nat
  owed : Nat
  full : Bool
  deriving DecidableEq, Repr

/-- A completed token: the ring, the element counted from 1, and whether it is completed unsent (R489, R493). -/
structure ElemDone where
  ring : Nat
  elem : Nat
  lost : Bool
  deriving DecidableEq, Repr

/-- An intent in the table of a rail (R331 to R348). `orig` is the device it came from: 0 this one, else 1 + MYIDX of
the member that forwarded it (R362). -/
structure Intent where
  rail : Nat
  slot : Nat
  lane : Nat
  orig : Nat
  id : Nat
  delta : Int
  stamp : Int
  arr : Int
  dur : Nat
  conf : Nat
  rise : Nat
  te : Nat
  /-- Accepted and not yet resolved. -/
  live : Bool
  /-- Its grant has been fixed and has not ended. -/
  valid : Bool
  gd : Int
  cap : Int
  /-- Input power of the grant and its store part, in µW, and the part of the reservation left, in nJ. -/
  watts : Nat
  part : Nat
  resv : Nat
  /-- Eight times the baseline, in 0.25 A; the crossing instant plus 1, 0 for none; the sum and number of the estimates in the
  measurement window. -/
  base : Int
  cross : Nat
  mSum : Int
  mCnt : Nat
  /-- 1 once its store part has arrived, 2 once it has ended (R265). -/
  pt : Nat
  deriving DecidableEq, Repr

/-- The feedforward pulse of an intent (R342): sign, height and interval of its duty term, its voltage term and the end
of that, and the instant it was withdrawn, plus 1; 0 for not. -/
structure Pulse where
  rail : Nat
  slot : Nat
  orig : Nat
  id : Nat
  sign : Int
  h : Nat
  st : Int
  e : Int
  vb : Nat
  vEnd : Int
  cut : Nat
  /-- The stamp of its intent, which tells it from an earlier one of the same ID (R344). -/
  stamp : Int
  deriving DecidableEq, Repr

/-- A load estimate of a rail (R345): its instant and its value in 0.25 A. -/
structure Est where
  rail : Nat
  at_ : Nat
  il : Int
  deriving DecidableEq, Repr

/-- A trigger on its way to a grove (R158): kind as GV_TCFG.TRIG (1 tick, 2 trail port, 3 grove event), the rail, port
or event, and its stamp. -/
structure GvTrig where
  grove : Nat
  kind : Nat
  sel : Nat
  stamp : Nat
  deriving DecidableEq, Repr

/-- What a coupled rail knows of the peer on link p of IG_CPL_LNK (R352, R353). -/
structure Peer where
  rail : Nat
  p : Nat
  idx : Nat
  prio : Nat
  devid : Nat
  vcur : Nat
  vprev : Nat
  feat : Nat
  featp : Nat
  nph : Nat
  /-- Heard by HELLO or CYCLE and not lost. -/
  heard : Bool
  /-- In the admitted set. -/
  inSet : Bool
  /-- It stood down after a carry-over and asks for nothing yet (R363). -/
  away : Bool
  master : Bool
  mstate : Nat
  isum : Int
  nsw : Nat
  cap : Nat
  miss : Nat
  /-- Its HELLO has come: PRIO, IDX, versions and features are known (R353). -/
  hello : Bool
  deriving DecidableEq, Repr

/-- An epoch announced and not yet in effect (R355). -/
structure Epoch where
  rail : Nat
  epoch : Nat
  act : Nat
  ver : Nat
  feat : Nat
  members : Nat
  /-- The master's CYCLE with SEQ equal to ACT_SEQ has come. -/
  hit : Bool
  deriving DecidableEq, Repr

/-- The sequence a converter runs (R372): the step words it started with, the step in progress, whether its conversion is
the discard, its sampling instant, whether it ends at the boundary, 1 with and 2 without a new sequence, and its number
(R384). -/
structure TcSeq where
  conv : Nat
  steps : List Nat
  cur : Nat
  disc : Bool
  start : Nat
  stop : Nat
  num : Nat := 0
  deriving DecidableEq, Repr

/-- What a converter keeps of a step between sequences (R374, R376): the codes of its history, newest first, with OVR and
PFAIL, the step word of its previous run plus 1, and its filter count. -/
structure TcHist where
  conv : Nat
  step : Nat
  codes : List (Int × Bool × Bool)
  cfg : Nat
  fcount : Nat
  deriving DecidableEq, Repr

/-- A result record (R384): its four words; `over` once it waits for the crossing. -/
structure TcRec where
  conv : Nat
  w0 : Nat
  w1 : Nat
  stamp : Nat
  handed : Bool
  deriving DecidableEq, Repr

/-- The fuse engine's operation (R416 to R420): OP, the slot or key, the fuses still to be blown as (byte, bit), and
whether SEAL is being blown. -/
structure FuseOp where
  op : Nat
  idx : Nat
  todo : List (Nat × Nat)
  sealing : Bool
  image : List Nat
  deriving DecidableEq, Repr

/-- A store in the store buffer of a core (R597): its physical address, its width in bytes and its data. -/
structure SbEntry where
  cpu : Nat
  addr : Nat
  n : Nat
  data : Nat
  deriving DecidableEq, Repr

/-- A line of 32 bytes of an instruction cache or line buffer (R592, R593): where it is held (1024 c + 4 set + way in the cache
of CPU c; 2 c for the line CPU c executes from, 2 c + 1 for the next sequential one), its number, that is its physical address
divided by 32, and its bytes. -/
structure ILine where
  key : Nat
  line : Nat
  bytes : List Byte
  deriving DecidableEq, Repr

/-- An entry of a TLB (R625): the slot is 2^`lg` bytes; `perm1` holds stage 1's V, R, W, X and U in bits 0 to 4; `word`
is the table word that yielded it, with stage 2's R, W and X in bits 2 to 4, `level` and `loc` its level and its address,
`dirty` the copy of its D. -/
structure TlbEntry where
  core : Nat
  idx : Nat
  part : Nat
  ttag : Nat
  va : Nat
  ipa : Nat
  lg : Nat
  pa : Nat
  perm1 : Nat
  blk : Nat
  word : Nat
  level : Nat
  loc : Nat
  dirty : Bool
  deriving DecidableEq, Repr

/-- A running pass of a grove (R151, R158 to R176): its task, its engine and, when shadowed, the second one (else 64),
its tag, the stamp of its trigger, when it started, whether it is a repeat, the stores of the first engine not yet
compared with the second's, whether it was cancelled and waits for self-tests, and how many of them run and failed. -/
structure Pass where
  grove : Nat
  task : Nat
  e1 : Nat
  e2 : Nat
  tag : Nat
  stamp : Nat
  start : Nat
  rep : Bool
  cmp : List (Nat × Nat × Nat)
  /-- 0 running, 1 cancelled by the watchdog, 2 by a mismatch: its engines are under self-test. -/
  test : Nat
  failed : Nat
  tests : Nat
  /-- Cancelled from outside while its engines are under self-test: it is not repeated. -/
  gone : Bool
  deriving DecidableEq, Repr

/-- A provisional value of a steering field (R151): its engine-side offset in the steering window, the pass that wrote
it, and the value. -/
structure Prov where
  grove : Nat
  off : Nat
  tag : Nat
  val : Word
  deriving DecidableEq, Repr

/-- An item of a grove's steering queue (R141, R152): kind 0 a write, 1 a closing marker, 2 a cancel marker. -/
structure SteerItem where
  grove : Nat
  kind : Nat
  off : Nat
  tag : Nat
  val : Word
  deriving DecidableEq, Repr

/-- An event waiting at a consumer port (R470): the consumer, the trail it came by, its source and its stamp. -/
structure PortEv where
  cons : Nat
  trail : Nat
  src : Nat
  stamp : Nat
  deriving DecidableEq, Repr

/-- A register write in the crossing into AON (R28): the queue, 0 life records, 1 meters, 2 RTC, 3 wake, 4 sampled
comparators; the address and the word. -/
structure AonWrite where
  q : Nat
  addr : Nat
  val : Word
  deriving DecidableEq, Repr

/-- What the command-port block keeps of a stream (R433): its number, 0 to 7 the PMBus tags, 8 to 15 the SPI tags, 16 to
23 the mailboxes, 24 to 35 the lanes; whether a packet was accepted since it last became fresh; the SEQ and CRC of the
last one; whether that one still executes; the stored reply; and whether an SPI reader has not yet read it. -/
structure Stream where
  id : Nat
  used : Bool
  seq : Nat
  crc : Nat
  busy : Bool
  reply : List Nat
  unread : Bool
  deriving DecidableEq, Repr

/-- An accepted packet (R427, R437): its stream, opcode, FLAGS, partition, PORT, SEQ, parameters, the stamp of its
acceptance, for a lane the count of its departures from ACTIVE, the rails a root opcode has turned off since its
acceptance (R459), and what its stream held before it: SEQ, CRC and whether unread (R434). A PMBus standard command is a
packet with opcode 0x100 plus its code and stream 36 (R448). -/
structure Packet where
  stream : Nat
  op : Nat
  flags : Nat
  part : Nat
  port : Nat
  seq : Nat
  params : List Nat
  stamp : Nat
  sess : Nat
  offs : Nat := 0
  was : Option (Nat × Nat × Bool) := none
  deriving DecidableEq, Repr

/-- A continuation (R435): its stream, opcode, SEQ of the last part and the parameters held. -/
structure Cont where
  stream : Nat
  op : Nat
  seq : Nat
  params : List Nat
  deriving DecidableEq, Repr

/-- A packet the warden has started and not yet answered (R439): how far it has come, and what it has gathered. -/
structure LongOp where
  pkt : Packet
  idx : Nat
  acc : List Nat
  deriving DecidableEq, Repr

/-- Everything of the device but its memories and the queue. -/
structure Dev where
  /-- Every register of the register map, at its address; an unlisted one holds its reset word. -/
  regs : List (Nat × Word)
  /-- The active values of the double-buffered registers (R23), at the same addresses. -/
  act : List (Nat × Word)
  /-- The internal variables (`Hid`), at their keys. -/
  hid : List (Nat × Int)
  /-- The W1C bits that events set last, by register address, with the time base at which they did (R12). -/
  sets : List (Nat × Word × Nat)
  /-- The time base, in ticks of 0.5 ns (R30, R535). -/
  tb : BitVec 64
  /-- Events waiting to enter the trail fabric, oldest first (R28). -/
  evq : List Ev
  /-- Software writes pending for a commit point (R75). -/
  pendSw : List DbWrite
  /-- Software writes that wait for HOLD to be cleared (R75). -/
  heldSw : List DbWrite
  /-- Grove writes pending for a commit point (R76). -/
  pendGv : List DbWrite
  /-- Records waiting for the life log, oldest first. -/
  logq : List LogRec
  /-- The targets that hold an address on a stage bus. -/
  targets : List Target
  /-- Answers to the present tone frame. -/
  toneAns : List ToneAns
  /-- Flits that have gone on the line, oldest first; a filler that takes a slot nothing else claims is not listed (R295). -/
  sent : List Flit
  /-- Flits that wait at the lanes' transmitters for a slot, in the order they came (R295). -/
  txq : List Flit
  /-- The replay buffers of the lanes, oldest first (R310). -/
  unacked : List Unacked
  /-- Messages waiting to be sent, oldest first. -/
  txMsgs : List TxMsg
  /-- Messages in reassembly or waiting for their receive ring, oldest first. -/
  rxMsgs : List RxMsg
  /-- Stamps of the recoveries of each lane (R297). -/
  recovs : List (Nat × Nat)
  /-- Tokens completed and not yet taken by the queue manager. -/
  elemsDone : List ElemDone
  /-- Messages of channel 0 received and not yet taken by the lane ports (R307, R427). -/
  portMsgs : List RxMsg
  /-- The intent tables of the rails. -/
  intents : List Intent
  /-- The feedforward pulses. -/
  pulses : List Pulse
  /-- The latest load estimates, oldest first. -/
  ests : List Est
  /-- Triggers on their way to the groves. -/
  gvTrigs : List GvTrig
  /-- The words of the grove windows that hold no copy of a register: the outcome queue and the capture record, at
  grove × 0x10000 + window offset (R154, R157). -/
  gwin : List (Nat × Word)
  /-- Intents taken here and waiting for the rail master's GFWD (R362). -/
  fwdWait : List Intent
  /-- The peers of the coupled rails. -/
  peers : List Peer
  /-- Epochs announced and not yet in effect. -/
  epochs : List Epoch
  /-- The fuse shadow, loaded at start-up, one byte per entry (R409, R697). -/
  shadow : List (Nat × Byte)
  /-- The sequences the converters run. -/
  tcSeqs : List TcSeq
  /-- The histories of the converters' steps. -/
  tcHists : List TcHist
  /-- Result records held or waiting for the crossing, oldest first. -/
  tcRecs : List TcRec
  /-- The fuse engine's operation, if one runs. -/
  fuseOp : Option FuseOp
  /-- General registers: g1 to g31 of CPU c at 32 c + r; CPUs 0 to 3 the application cores, 4 the warden, 5 + 34 g + e
  engine e of grove g (R565). -/
  gpr : List (Nat × Word)
  /-- Control registers of CPU c at 128 c + number (R568, R635), its pc at 128 c + 0x60. -/
  creg : List (Nat × Word)
  /-- The store buffers, oldest first (R597). -/
  sbuf : List SbEntry
  /-- The TLBs (R625). -/
  tlb : List TlbEntry
  /-- The lines of the instruction caches (R593). -/
  icache : List ILine
  /-- The line buffers (R592). -/
  lineBuf : List ILine
  /-- The scrubber's write-back queue (R642). -/
  wbq : List Nat
  /-- Passes of the groves that run or wait for self-tests. -/
  passes : List Pass
  /-- Provisional values of the steering fields. -/
  prov : List Prov
  /-- The steering queues, oldest first. -/
  steerq : List SteerItem
  /-- Events waiting at the consumer ports of the trail fabric, by stamp and trail (R470). -/
  ports : List PortEv
  /-- Elements of rings completed out of order: (ring, element number) (R489). -/
  ringDone : List (Nat × Nat)
  /-- Register writes in the crossings into AON, oldest first (R28). -/
  aonQ : List AonWrite
  /-- The streams of the command ports (R433). -/
  streams : List Stream
  /-- Continuations in progress (R435). -/
  conts : List Cont
  /-- The command rings, in the order of acceptance (R437). -/
  rings : List Packet
  /-- Packets in the slots of the root sequencer, in the order of acceptance (R455). -/
  rootq : List Packet
  /-- Long packets in progress (R439). -/
  longs : List LongOp
  /-- The packet that holds the warden until it is answered (R438). -/
  held : Option LongOp
  /-- The bytes that the last read on a port returned (R444, R448, R450, R364). -/
  portOut : List Nat
  /-- The number of the next free value (a field of the model, not of the spec). -/
  fresh : Nat
  deriving DecidableEq, Repr

/-- The machine. -/
structure State where
  dev : Dev
  /-- Memories, flash arrays and fuses, one byte per entry; an unlisted byte reads as `Mem.blank` says (R33). -/
  mem : List Host.Cell
  /-- Commands waiting, first in, first out. -/
  pending : List Instr
  deriving DecidableEq, Repr

/-- A device with nothing in it. -/
def Dev.blank : Dev :=
  { regs := [], act := [], hid := [], sets := [], tb := 0, evq := [], pendSw := [], heldSw := [], pendGv := [], logq := [],
    targets := [], toneAns := [],
    sent := [], txq := [], unacked := [], txMsgs := [], rxMsgs := [], recovs := [], elemsDone := [], portMsgs := [], intents := [],
    pulses := [], ests := [], gvTrigs := [], gwin := [], fwdWait := [], peers := [], epochs := [], shadow := [],
    tcSeqs := [], tcHists := [], tcRecs := [], fuseOp := none, gpr := [], creg := [], sbuf := [], tlb := [],
    icache := [], lineBuf := [], wbq := [], passes := [], prov := [], steerq := [], ports := [], ringDone := [], aonQ := [],
    streams := [], conts := [], rings := [], rootq := [], longs := [], held := none, portOut := [],
    fresh := 0 }

/-- The machine right after the power-on reset, the core buck ramping: every register at its reset value but
PX_RSTSRC.POR and PX_STATUS.BUCK_RAMP, which the start-up shows set (R693, R697), memory with nothing listed. -/
def State.reset : State :=
  { dev := { Dev.blank with regs := [(0x40130004, 0x800), (0x40130008, 1)] }, mem := [], pending := [] }

/-- No command stops with a fault: wherever the spec speaks of an error it describes what the device does then. -/
inductive Fault where
  deriving DecidableEq, Repr

/-- Why a command has no meaning. -/
inductive Refusal where
  /-- The model gives the command no meaning yet. Raised by `exec`'s arm; safe, since nothing is proved of it. -/
  | notModelled (mnemonic : String)
  deriving DecidableEq, Repr

end Sys2Proof.Machine
end

