-- ==== Sys2Proof/Machine/Ops.lean ====
section
/-! DEFINITION. The named operations over registers, fields, internal variables, events and the queue of records, on
which every meaning is built. -/

namespace Sys2Proof.Machine

/-- The value a word gives a field. -/
def valOf (w : Word) (F : Fld) : Nat := bitsOf w F.lo F.n

namespace Dev

/-- Register `R`, copy `i` (the shadow copy of a double-buffered one). -/
def r (d : Dev) (R : Reg) (i : Nat := 0) : Word := Store.get d.regs (R.addr i) (R.reset i)

/-- Set register `R`, copy `i`. -/
def setR (d : Dev) (R : Reg) (i : Nat) (w : Word) : Dev :=
  { d with regs := Store.put d.regs (R.addr i) w (R.reset i) }

/-- The active copy of a double-buffered register (R23). -/
def ar (d : Dev) (R : Reg) (i : Nat := 0) : Word := Store.get d.act (R.addr i) (R.reset i)

/-- Set the active copy. -/
def setAr (d : Dev) (R : Reg) (i : Nat) (w : Word) : Dev :=
  { d with act := Store.put d.act (R.addr i) w (R.reset i) }

/-- Field `F` of copy `i`, unsigned. -/
def f (d : Dev) (F : Fld) (i : Nat := 0) : Nat := bitsOf (d.r F.reg i) F.lo F.n

/-- Field `F` of copy `i`, two's complement (R2). -/
def fi (d : Dev) (F : Fld) (i : Nat := 0) : Int := sext (d.f F i) F.n

/-- Whether field `F` of copy `i` is not 0. -/
def on (d : Dev) (F : Fld) (i : Nat := 0) : Bool := d.f F i != 0

/-- Set field `F` of copy `i` to the low bits of `v`. -/
def setF (d : Dev) (F : Fld) (i : Nat) (v : Int) : Dev :=
  d.setR F.reg i (putBits (d.r F.reg i) F.lo F.n v)

/-- The time base (R30, R707). -/
def now (d : Dev) : Nat := d.tb.toNat

/-- The cycle of its block's clock in which a register at address a takes the tick t: LCLK, GCLK, PCLK, SCLK, the lane word
clock or, in AON, ACLK. The stage buses run on PCLK; the intent and grant registers go by LCLK, the clock of what sets their
causes, where R19 names two (R19, R25; notes/assumptions/6.md). -/
def cycleOf (a t : Nat) : Nat :=
  if 0x50000000 ≤ a then t * 32 / 1953125
  else match a / 0x10000 - 0x4000 with
  | 0 | 7 => t
  | 1 => if 0x40018000 ≤ a then t / 10 else t
  | 6 => t * 7 / 16
  | 2 | 11 => t / 2
  | 12 | 13 | 18 => t * 2 / 5
  | _ => t / 10

/-- The W1C bits of the register at address a that an event has set in the present cycle of its clock (R12). -/
def setNow (d : Dev) (a : Nat) : Word :=
  let x := Store.get d.sets a (0, 0)
  if cycleOf a x.2 = cycleOf a d.now then x.1 else 0

/-- Note that an event sets bit b of the register at address a now. -/
def markSet (d : Dev) (a b : Nat) : List (Nat × Word × Nat) :=
  Store.put d.sets a (putBits (d.setNow a) b 1 1, d.now) (0, 0)

/-- Set a one-bit field: how a cause is set. Where it is W1C, the set of this cycle is noted (R12). -/
def set1 (d : Dev) (F : Fld) (i : Nat := 0) : Dev :=
  { d.setF F i 1 with sets := if F.acc = .w1c then d.markSet (F.reg.addr i) F.lo else d.sets }

/-- The active value of field `F`, unsigned. -/
def a (d : Dev) (F : Fld) (i : Nat := 0) : Nat := bitsOf (d.ar F.reg i) F.lo F.n

/-- The active value of field `F`, two's complement. -/
def ai (d : Dev) (F : Fld) (i : Nat := 0) : Int := sext (d.a F i) F.n

/-- Whether the active value of field `F` is not 0. -/
def aon (d : Dev) (F : Fld) (i : Nat := 0) : Bool := d.a F i != 0

/-- Internal variable `v`, copy `i`. -/
def h (d : Dev) (v : Hid) (i : Nat := 0) : Int := Store.get d.hid (v.key i) 0

/-- Whether internal variable `v`, copy `i`, is not 0. -/
def hon (d : Dev) (v : Hid) (i : Nat := 0) : Bool := d.h v i != 0

/-- Internal variable `v`, copy `i`, as a natural number. -/
def hn (d : Dev) (v : Hid) (i : Nat := 0) : Nat := (d.h v i).toNat

/-- Set internal variable `v`, copy `i`. -/
def setH (d : Dev) (v : Hid) (i : Nat) (x : Int) : Dev :=
  { d with hid := Store.put d.hid (v.key i) x 0 }

/-- Add 1 to a field, saturating at its largest value. -/
def incSat (d : Dev) (F : Fld) (i : Nat := 0) : Dev :=
  if d.f F i + 1 < 2 ^ F.n then d.setF F i (d.f F i + 1) else d

/-- Add `n` to a field, saturating at its largest value. -/
def addSat (d : Dev) (F : Fld) (i n : Nat) : Dev := d.setF F i (min (d.f F i + n) (2 ^ F.n - 1))

/-- Set bit `b` of field `F` of copy `i`; where the field is W1C, a set of this cycle is noted (R12). -/
def setBit (d : Dev) (F : Fld) (i b : Nat) (v : Bool) : Dev :=
  { d.setF F i (if v then (d.f F i ||| 2 ^ b : Nat) else (d.f F i - (if (d.f F i).testBit b then 2 ^ b else 0) : Nat)) with
    sets := if v ∧ F.acc = .w1c then d.markSet (F.reg.addr i) (F.lo + b) else d.sets }

/-- Bit `b` of an internal bit set. -/
def hbit (d : Dev) (v : Hid) (i b : Nat) : Bool := (d.hn v i).testBit b

/-- Set bit `b` of an internal bit set. -/
def setHbit (d : Dev) (v : Hid) (i b : Nat) (x : Bool) : Dev :=
  let m := d.hn v i
  d.setH v i (if x then (m ||| 2 ^ b : Nat) else (m - (if m.testBit b then 2 ^ b else 0) : Nat))

/-- The RTC: 48-bit seconds and 16-bit subseconds as one count (R543). -/
def rtc (d : Dev) : Nat :=
  d.f TM_RTC_HI_SEC * 2 ^ 32 + d.f TM_RTC_LO_SEC * 2 ^ 16 + d.f TM_RTC_LO_SUB

/-- A free value: what a result the spec leaves open turns out to be (notes/assumptions/2.md). The state carries the
number of the next one. -/
def free (d : Dev) : Nat × Dev := ((Config.freeValue d.fresh).toNat, { d with fresh := d.fresh + 1 })

/-- Do `g` for every `i` below `n`, in rising order. -/
def each (d : Dev) (n : Nat) (g : Dev → Nat → Dev) : Dev := (List.range n).foldl g d

/-- Do `g` for every member of a list, in order. -/
def eachIn {α : Type} (d : Dev) (l : List α) (g : Dev → α → Dev) : Dev := l.foldl g d

/-- Do `g` where `c` holds, else nothing: the guard of a command. -/
def when (d : Dev) (c : Bool) (g : Dev → Dev) : Dev := if c then g d else d

/-- Whether a source is an event of the RL block, which runs at PCLK: PG_RISE, PG_FALL and START_SHORT (R19, R462). -/
def railPclk (src : Nat) : Bool := src < 0x100 && (src % 16 == 4 || src % 16 == 5 || src % 16 == 9)

/-- The crossing into the trail fabric that an event takes: LCLK events of rails and phases share a queue per group of
four rails (R28; which group a phase belongs to, notes/assumptions/30.md), and every other source has one of its own.
DESIGN CHOICE (notes/assumptions/30.md): a firebreak device source belongs to no rail group, and R28 does not say which
queue takes it; each has a queue of its own, 16 deep. -/
def evGroup (src : Nat) : Nat :=
  if railPclk src then 0x1000 + src
  else if src < 0x100 then src / 64 else if src < 0x200 then (src - 0x100) / 64 else if src / 8 = 0x41 then 0x208 else src

/-- The depth of that crossing (R28, R472): LCLK events 16, AON events 4, the one-event register of any other source 1. -/
def evDepth (src : Nat) : Nat :=
  if railPclk src then 1 else if src < 0x208 then 16 else if src < 0x210 then 4 else 1

/-- Raise the event of source `src`, stamped now. A full crossing drops it and sets TR_CAUSE.IN_OVR (R29, R30). -/
def raise (d : Dev) (src : Nat) : Dev :=
  if (d.evq.filter fun e => evGroup e.src == evGroup src).length < evDepth src then
    { d with evq := d.evq ++ [{ src := src, stamp := d.now }] }
  else (d.set1 TR_CAUSE_IN_OVR).incSat TR_DROPCNT_IN

/-- Whether an event that entered the crossing to the core lines at tick t is in it still: 3 SCLK cycles from the first SCLK
edge at or after t (R28). -/
def lineHeld (d : Dev) (t : Nat) : Bool := 2 * d.now < 5 * ((2 * t + 4) / 5 + 3)

/-- The fill of that crossing: what entered it at each of the last ticks and has not left it. -/
def lineFill (d : Dev) : Nat :=
  (List.range 16).foldl (fun n j =>
    if d.hon .xAt (32 + j) && d.lineHeld (d.hn .xAt (32 + j) - 1) then n + d.hn .xCnt (32 + j) else n) 0

/-- An event enters it. -/
def lineIn (d : Dev) : Dev :=
  let q := 32 + d.now % 16
  (d.setH .xCnt q ((if d.hn .xAt q = d.now + 1 then d.h .xCnt q else 0) + 1)).setH .xAt q (d.now + 1 : Nat)

/-- The rail events of R462. -/
def raiseRail (d : Dev) (k kind : Nat) : Dev := d.raise (16 * k + kind)

/-- The phase events of R462. -/
def raisePhase (d : Dev) (n kind : Nat) : Dev := d.raise (0x100 + 4 * n + kind)

/-- A quotient rounded down; over 0 the spec states none, and the value is free (notes/assumptions/2.md). -/
def divFree (d : Dev) (a b : Int) : Int × Dev :=
  if b = 0 then let (v, d) := d.free; (sext v 16, d) else (a / b, d)

/-- An exact quotient as an integer. Where it is none and the spec does not say how it is rounded, it is freely one of the
two integers next to it; over 0 it is free (notes/assumptions/2.md). -/
def quotFree (d : Dev) (a b : Int) : Int × Dev :=
  if b = 0 then d.divFree a b
  else if a % b = 0 then (a / b, d)
  else
    let (a, b) := if b < 0 then (-a, -b) else (a, b)
    let (v, d) := d.free
    (a / b + (v % 2 : Nat), d)

/-- The fill of the crossing from lane l to the intent logic: it drains one flit in each LCLK cycle (R28, R292). -/
def laneFill (d : Dev) (l : Nat) : Nat := d.hn .xCnt (16 + l) - (d.now + 1 - d.hn .xAt (16 + l))

/-- A flit of lane l enters that crossing. -/
def laneIn (d : Dev) (l : Nat) : Dev :=
  (d.setH .xCnt (16 + l) (d.laneFill l + 1 : Nat)).setH .xAt (16 + l) (d.now + 1 : Nat)

/-- A word of the window of grove g that copies no register. -/
def gw (d : Dev) (g off : Nat) : Word := Store.get d.gwin (g * 0x10000 + off) 0

/-- Set such a word. -/
def setGw (d : Dev) (g off : Nat) (w : Int) : Dev :=
  { d with gwin := Store.put d.gwin (g * 0x10000 + off) (BitVec.ofInt 32 w) 0 }

/-- A trigger goes to grove g (R158). -/
def gvTrig (d : Dev) (g kind sel : Nat) : Dev :=
  { d with gvTrigs := d.gvTrigs ++ [{ grove := g, kind := kind, sel := sel, stamp := d.now }] }

/-- The grove that leads rail k (R138). -/
def leadGrove (d : Dev) (k : Nat) : Option Nat := (List.range 16).find? fun g => (d.f GV_LEAD_RAILS g).testBit k

/-- Put a record at the end of the life-log queue. -/
def logPush (d : Dev) (kind len : Nat) (body : List (Nat × Nat × Nat)) : Dev :=
  { d with logq := d.logq ++ [{ kind := kind, len := len, stamp := d.now, rtc := d.rtc, body := body }] }

/-- Put a deadfall record ahead of every other queued record but an earlier deadfall, and count it for the growth rings
(R554). -/
def logDeadfall (d : Dev) (body : List (Nat × Nat × Nat)) : Dev :=
  let d := (d.setH .deadCnt 0 (d.h .deadCnt 0 + 1)).setH .deadCnt 1 (d.h .deadCnt 1 + 1)
  { d with logq := (d.logq.filter fun r => r.kind == 3)
      ++ [{ kind := 3, len := 64, stamp := d.now, rtc := d.rtc, body := body }]
      ++ (d.logq.filter fun r => r.kind != 3) }

end Dev

/-- Whether domain n is on (R512). -/
def domOn (d : Dev) (n : Nat) : Bool :=
  if n < 32 then (d.f PD_ONA_DOM).testBit n else (d.f PD_ONB_DOM).testBit (n - 32)

/-- A meaning that changes the device alone. -/
def State.onDev (s : State) (g : Dev → Dev) : State := { s with dev := g s.dev }

/-- The outcome of a command that changes the device alone. -/
def State.ok (s : State) (g : Dev → Dev) : Host.Outcome State Fault Refusal := .next (s.onDev g)

/-- The same of a block in SVC, which does nothing while its domain is not on (R40, R512). -/
def State.svc (s : State) (g : Dev → Dev) : Host.Outcome State Fault Refusal := s.ok fun d => if domOn d 0 then g d else d

end Sys2Proof.Machine
end

