-- ==== Sys2Proof/Machine/LaneBase.lean ====
section
/-! DEFINITION. What the link and the intent logic share: bonds, the partner's identity, and handing a frame to a
lane's transmitter (spec/08, R291, R292, R312, R317, R319). -/

namespace Sys2Proof.Machine

/-- Lane states (LN_STATUS.STATE). -/
abbrev lnOff : Nat := 0
abbrev lnDetect : Nat := 1
abbrev lnPoll : Nat := 2
abbrev lnConfig : Nat := 3
abbrev lnRate : Nat := 4
abbrev lnEq : Nat := 5
abbrev lnCheck : Nat := 6
abbrev lnActive : Nat := 7
abbrev lnRecover : Nat := 8
abbrev lnDown : Nat := 9
abbrev lnTest : Nat := 10

/-- Pack fields (lowest bit, width, value) into a payload. -/
def packFields (l : List (Nat × Nat × Int)) : Nat :=
  l.foldl (fun a x => a + (x.2.2 % (2 ^ x.2.1 : Int)).toNat * 2 ^ x.1) 0

/-- Bits [hi:lo] of a payload. -/
def payBits (p hi lo : Nat) : Nat := p / 2 ^ lo % 2 ^ (hi + 1 - lo)

/-- The lead lane of the bond that lane l is configured into; l itself for a single lane (R317). -/
def leadLane (d : Dev) (l : Nat) : Nat :=
  let g := l / 4 * 4
  if d.f LN_CFG_WIDTH g = 2 then g
  else if l < g + 2 then (if d.f LN_CFG_WIDTH g = 1 then g else l)
  else if d.f LN_CFG_WIDTH (g + 2) = 1 then g + 2 else l

/-- The members of the bond led by lane L, as configured (R317). -/
def bondLanes (d : Dev) (L : Nat) : List Nat := (List.range (2 ^ d.f LN_CFG_WIDTH L)).map fun j => L + j

/-- Whether a lane is a bond member other than the lead. -/
def isMember (d : Dev) (l : Nat) : Bool := leadLane d l != l

/-- State of the link that lane l belongs to. -/
def lnState (d : Dev) (l : Nat) : Nat := d.f LN_STATUS_STATE (leadLane d l)

/-- Byte b of the partner's identity frame (R312, LN_PIDw). -/
def pidByte (d : Dev) (L b : Nat) : Nat := bitsOf (d.r LN_PID (L * 12 + b / 4)) (8 * (b % 4)) 8

/-- Bit c of CAPS of the partner (R312). -/
def partnerCap (d : Dev) (L c : Nat) : Bool := (pidByte d L 6 + 256 * pidByte d L 7).testBit c

/-- Whether the link carries intent-class and coupling-class flits: UP with a common version (R314, R324). -/
def linkUp (d : Dev) (L : Nat) : Bool := d.on LN_STATUS_UP L && !d.on LN_STATUS_VERR L

/-- Byte `a` of the fuse shadow. -/
def shadowByte (d : Dev) (a : Nat) : Nat := (Store.get d.shadow a 0).toNat

/-- `n` bytes of the fuse shadow, little-endian. -/
def shadowNat (d : Dev) (a n : Nat) : Nat := leNat ((List.range n).map fun j => shadowByte d (a + j))

/-- The device's own identity, from the fuse shadow (spec/11). -/
def ownDevid (d : Dev) : Nat := shadowNat d 0 8

/-- How many members carry the link, and which (R317, R320). -/
def bondWidth (d : Dev) (L : Nat) : Nat := 2 ^ d.f LN_STATUS_WIDTH L
def carriers (d : Dev) (L : Nat) : List Nat := (List.range (bondWidth d L)).map fun j => L + d.hn .lBase L + j

/-- Whether the receive pads of lane l are held, so that nothing new is read through them (R522). -/
def lrxHeld (d : Dev) (l : Nat) : Bool := d.on PD_DSTAT_HELD (9 + l / 4)

/-- Do `g` with what comes in on the line of lane l, unless its pads are held. -/
def Dev.heard (d : Dev) (l : Nat) (g : Dev → Dev) : Dev := if lrxHeld d l then d else g d

/-- No member named: the transmitter gives the flit to the member whose turn it is. -/
abbrev anyLine : Nat := 12

/-- Hand a flit to the transmitter of the link led by lane L, for member m, or for the member whose turn it is (R319). It
waits for its slot. -/
def sendOn (d : Dev) (L m typ : Nat) (pay : Nat) : Dev :=
  { d with txq := d.txq ++ [{ lane := L, line := m, typ := typ, pay := pay, wire := 0, levels := [] }] }
def sendFlit (d : Dev) (L typ : Nat) (pay : List (Nat × Nat × Int)) : Dev := sendOn d L anyLine typ (packFields pay)

/-- Hand an intent-class or coupling-class frame to it: with no common version, or out of ACTIVE, it is discarded
(R314). -/
def sendFrame (d : Dev) (L typ : Nat) (pay : List (Nat × Nat × Int)) : Dev :=
  if linkUp d L && d.f LN_STATUS_STATE L = lnActive then sendFlit d L typ pay else d

end Sys2Proof.Machine
end

