-- ==== Sys2Proof/Machine/Grant.lean ====
section
/-! DEFINITION. The intent tables: trust, acceptance, grants, caps, feedforward pulses, load estimates and outcomes
(spec/09, R324 to R350). -/

namespace Sys2Proof.Machine

/-- The effective trust te of slot s of rail k (R326, R327). -/
def trustOf (d : Dev) (k s : Nat) : Nat :=
  if d.on (IG_SLOTS_NEW s) k then d.f IG_TLIM_INIT k
  else
    let t := if d.on IG_RCFG_TSRC k then d.a (IG_G_TRUST_T s) k else d.a (IG_TRUST_T s) k
    (clampI t (d.f IG_TLIM_MIN k) (d.f IG_TLIM_MAX k)).toNat

/-- The slot of rail k that takes intents from lane l, of the link led by lane L (R324). -/
def slotOf (d : Dev) (k l L : Nat) : Option Nat :=
  (List.range 4).find? fun s => d.on (IG_SLOTS_EN s) k && (d.f (IG_SLOTS_LANE s) k == l || d.f (IG_SLOTS_LANE s) k == L)

/-- The live intents of rail k. -/
def liveOn (d : Dev) (k : Nat) : List Intent := d.intents.filter fun i => i.rail == k && i.live

/-- gsum: the positive GDELTA of every grant of rail k that has not ended (R338, IG_OUT.GSUM). -/
def gsumOf (d : Dev) (k : Nat) : Int :=
  (d.intents.filter fun i => i.rail == k && i.valid && 0 < i.gd).foldl (fun a i => a + i.gd) 0

/-- Show NOUT and GSUM, drop entries that are neither live nor hold a grant, and show te. -/
def showOut (d : Dev) (k : Nat) : Dev :=
  let d := { d with intents := d.intents.filter fun i => i.live || i.valid }
  let d := (d.setF IG_OUT_NOUT k (liveOn d k).length).setF IG_OUT_GSUM k (gsumOf d k)
  d.each 4 fun d s => d.setF (IG_TNOW_TE s) k (trustOf d k s)

/-- Replace the entries that satisfy `p`. -/
def mapIntents (d : Dev) (p : Intent → Bool) (g : Intent → Intent) : Dev :=
  { d with intents := d.intents.map fun i => if p i then g i else i }

/-- Whether two entries are the same one. -/
def sameIntent (i j : Intent) : Bool :=
  i.rail == j.rail && i.slot == j.slot && i.orig == j.orig && i.id == j.id && i.stamp == j.stamp

/-! ### The store's reservation -/

/-- Change ST_RESV by `x` nJ, never below 0 (R272). -/
def addResv (d : Dev) (x : Int) : Dev :=
  let v := max 0 (d.h .sResvN + x)
  (d.setH .sResvN 0 v).setF ST_RESV_E 0 (v / 1000000)

/-- The energy a tick discharged, in nJ, comes out of the reservations of the grants whose arrival has passed, the
earliest first (R272; notes/assumptions/40.md). -/
def grantDrain (d : Dev) (nj : Nat) : Dev :=
  let go := d.intents.foldl (fun (acc : List Intent × Nat) i =>
    if i.valid && decide (i.arr ≤ (d.now : Int)) then
      let u := min i.resv acc.2
      (acc.1 ++ [{ i with resv := i.resv - u }], acc.2 - u)
    else (acc.1 ++ [i], acc.2)) ([], nj)
  addResv { d with intents := go.1 } (-(nj : Int))

/-- The sensed ratio keeps the bound of R258. -/
def ratioOk (d : Dev) (vbus vst : Nat) : Bool :=
  if d.on ST_CFG_SIDE then decide (10 * vbus < 9 * vst) else decide (10 * vst < 9 * vbus)

/-- AT_FLOOR, and its cause on its rise, as E stands against FLOOR (R267). -/
def floorShow (d : Dev) : Dev :=
  let low := d.f ST_ENERGY_E ≤ d.f ST_FLOOR_E
  let d := if low && !d.on ST_STATUS_AT_FLOOR then d.set1 ST_CAUSE_AT_FLOOR else d
  d.setF ST_STATUS_AT_FLOOR 0 (b2i low)

/-- Whether charging is allowed (R268). -/
def chargeOk (d : Dev) (vbus vst th : Nat) : Bool :=
  d.f ST_STATUS_STATE == 4 && d.on ST_CTL_CHG_EN && !d.on ST_STATUS_FULL && vst < d.f ST_VLIM2_V_MAX
  && d.f ST_TERM_TH_LO ≤ th && th ≤ d.f ST_TERM_TH_HI && ratioOk d vbus vst

/-- Set the store target: tb on the bus side, and ist_tgt and DIR from it (R263). -/
def setTarget (d : Dev) (tb : Int) (vbus vst : Nat) : Dev :=
  let (tgt, d) := if tb = 0 then ((0 : Int), d) else d.divFree (tb * vbus) (4 * vst)
  let tgt := sat tgt 12
  ((d.setH .sBus 0 tb).setF ST_IST_TGT 0 tgt).setF ST_STATUS_DIR 0 (if 0 < tgt then 1 else if tgt < 0 then 2 else 0)

/-- A granted intent's store part of `w` µW arrives, or its window ends: tb falls, or rises, by the part on the bus side
(R265). Without a ceiling nothing is discharged for load (R264), outside HOLDUP nothing at or below the floor (R267,
R273) and in HOLDUP nothing at E = 0 (R284); nothing charges where R268 forbids it, and with the ratio broken the target is
0 (R258). -/
def storePart (d : Dev) (w : Nat) (ends : Bool) : Dev :=
  if !d.on ST_CEIL_LIM then d
  else
    let vbus := d.f ST_VMEAS_VBUS
    let vst := d.f ST_VMEAS_VSTORE
    let (p, d) := d.divFree (w * 16 : Nat) (1000 * vbus : Nat)
    let x := if ends then d.h .sBus + p else d.h .sBus - p
    let empty := d.f ST_ENERGY_E ≤ (if d.f ST_STATUS_STATE = 5 then 0 else d.f ST_FLOOR_E)
    let x := if empty then max x 0 else x
    let x := if chargeOk d vbus vst (d.f ST_DSTAT_TH) then x else min x 0
    setTarget d (if !ratioOk d vbus vst then 0 else x) vbus vst

/-- A grant gives its reservation back (R272, R338). -/
def freeResv (d : Dev) (i : Intent) : Dev := if i.resv = 0 then d else addResv d (-(i.resv : Int))

/-- The burst budget of R271 for T = t µs, in W, and its headroom term; no store term when `noStore` (R340). -/
def stBudget (d : Dev) (t : Nat) (noStore : Bool) : Int × Int :=
  let st := d.f ST_STATUS_STATE
  let vbus : Int := d.f ST_VMEAS_VBUS
  let lim : Int := d.f ST_CEIL_LIM
  let spare := max 0 ((lim - d.f ST_CMARG_MARGIN) - d.fi ST_IIN_LOAD) * vbus / 16000
  let a := max 0 ((d.f ST_ENERGY_E : Int) - d.f ST_FLOOR_E - d.f ST_RESV_E)
  let dis : Int := if d.hon .sRamping then min (d.f ST_ILIM_DIS_MAX : Int) (d.h .sRamp) else d.f ST_ILIM_DIS_MAX
  let pst := if st = 4 && !noStore then min (dis * d.f ST_VMEAS_VSTORE / 4000) (a * 1000 / t) else 0
  let al := if d.on ST_CFG_GRANT_ALLOW && t ≤ d.f ST_BUCKET_LEVEL / 65536 then lim * d.f ST_CEIL_ALLOW_PM / 1000 * vbus / 16000 else 0
  if st = 5 then (0, 0) else (spare + pst + al, spare)

/-- The input power of every positive grant whose arrival lies after now, but for `i`, in µW: committed_w (R335). -/
def committed (d : Dev) (i : Intent) : Nat :=
  (d.intents.filter fun j => j.valid && 0 < j.gd && decide ((d.now : Int) < j.arr) && !sameIntent i j).foldl (fun a j => a + j.watts) 0

/-- The power of g at the input of rail k, in µW, floored (R335). -/
def inputPower (d : Dev) (k : Nat) (g : Int) : Int :=
  g * d.a FL_REF_TGT k * d.f IG_COUT_VDIV k * 1000000 / (1280 * d.f IG_RCFG_EFF k)

/-- The grant within the ceiling budget: g, its input power and its store part, in µW (R335, R336). -/
def withinBudget (d : Dev) (i : Intent) (g : Int) (noStore : Bool) : Int × Nat × Nat × Dev :=
  if d.on IG_RCFG_CEIL i.rail && d.on ST_CEIL_LIM then
    let (bw, sw) := stBudget d i.dur noStore
    let com : Int := committed d i
    let bud := bw * 1000000 - com
    let gw := inputPower d i.rail g
    let (g, d) :=
      if bud < gw then
        let (q, d) := d.divFree (max bud 0 * d.f IG_RCFG_EFF i.rail * 1280)
          (1000000 * d.a FL_REF_TGT i.rail * d.f IG_COUT_VDIV i.rail)
        (clampI q 0 g, d)
      else (g, d)
    let gw := inputPower d i.rail g
    (g, gw.toNat, if noStore then 0 else (gw - (sw * 1000000 - com)).toNat, d)
  else (g, (inputPower d i.rail g).toNat, 0, d)

/-- g of R335 for an intent with positive DELTA, its input power and its store part; gsum without the intent itself. -/
def grantOf (d : Dev) (i : Intent) (noStore : Bool) : Int × Nat × Nat × Dev :=
  let k := i.rail
  let gs := gsumOf d k - (if d.intents.any fun j => sameIntent i j && j.valid then max i.gd 0 else 0)
  let g := clampI i.delta 0 (max ((d.f RL_ILIM_EFF k : Int) * 2 - d.fi IG_LOAD_IL k / 2 - gs) 0)
  withinBudget d i (if d.on IG_RCFG_TGR k then min g (i.delta * i.te / 256) else g) noStore

/-- The decision at G (R335 to R337): the entry with its grant, and GRES; CAP saturates to its field (R4). -/
def decideGrant (d : Dev) (i : Intent) : Intent × Nat × Dev :=
  let k := i.rail
  let il := d.fi IG_LOAD_IL k
  let gs := gsumOf d k
  let eff : Int := d.f RL_ILIM_EFF k * 2
  if i.delta < 0 then
    ({ i with gd := i.delta, cap := usat (min eff (il / 2 + gs + i.delta)) 16, valid := true }, 0, d)
  else
    let (g, w, part, d) := grantOf d i false
    let resv := part * i.dur / 1000
    let d := if part = 0 then d else addResv d resv
    ({ i with gd := g, cap := usat (min eff (il / 2 + gs + g)) 16, valid := true, watts := w, part := part, resv := resv },
      if g = i.delta then 0 else if 0 < g then 1 else 2, d)

/-! ### Frames -/

/-- A GRANT frame to lane L (R328); the CAP of a grant is the last one sent to that partner (R339). -/
def sendGrant (d : Dev) (i : Intent) (gres note : Nat) : Dev :=
  let d := if gres < 3 then d.setH .igCap (i.rail * 12 + i.lane) i.cap else d
  let (g, c, v) := if gres < 3 then (i.gd, i.cap, (i.dur : Int)) else (0, 0, 0)
  sendFrame d i.lane 0x12 [(100, 4, i.rail), (92, 8, i.id), (76, 16, g), (60, 16, c), (44, 16, v), (42, 2, gres),
    (40, 2, note), (32, 8, i.te)]

/-- A CAP frame to lane L (R328, R340). -/
def sendCap (d : Dev) (k L id : Nat) (g cap : Int) (reason : Nat) (thr : Bool) : Dev :=
  let cap := usat cap 16
  sendFrame (d.setH .igCap (k * 12 + L) cap) L 0x13 [(100, 4, k), (92, 8, id), (76, 16, g), (60, 16, cap),
    (56, 4, reason), (55, 1, b2i thr)]

/-- Whether an entry's grant is inside its validity (R338). -/
def inValidity (d : Dev) (i : Intent) : Bool := i.valid && decide (i.arr - d.f IG_WIN_TOL i.rail * 16 ≤ (d.now : Int))

/-- The lanes of this device's partners with a valid grant on rail k (R338). -/
def partnersOf (d : Dev) (k : Nat) : List Nat :=
  (List.range 12).filter fun L => d.intents.any fun i => i.rail == k && i.lane == L && i.orig == 0 && inValidity d i

/-- The rail cap, in 0.5 A, if a grant of one of this device's partners is valid; forwarded grants count in the rail's valid
GDELTA sum (R339). -/
def railCap (d : Dev) (k : Nat) : Option Int :=
  let all := d.intents.filter fun i => i.rail == k && inValidity d i
  let v := all.filter fun i => i.orig == 0
  if v.isEmpty then none
  else
    let gs := (all.filter fun i => 0 < i.gd).foldl (fun a i => a + i.gd) 0
    some (v.foldl (fun a i => max a (d.h .igCap (k * 12 + i.lane))) 0 + gs * d.f IG_WIN_OVS k / 64)

/-- At each ceiling tick a rail whose load estimate exceeds its rail cap is reported (R339). -/
def overdrawCheck (d : Dev) : Dev :=
  d.each 16 fun d k =>
    match railCap d k with
    | some c =>
      let o := decide (c * 2 < d.fi IG_LOAD_IL k)
      let d := d.setH .igOver k (b2i o)
      if o then d.set1 IG_RCAUSE_OVERDRAW k else d
    | none => d.setH .igOver k 0

/-- The CAP frames a throttle asks for on rail k (R275, R340). -/
def throttleFrames (d : Dev) (k : Nat) : Dev :=
  match railCap d k with
  | some c => d.eachIn (partnersOf d k) fun d L => sendCap d k L 0xFF 0 c 1 true
  | none => d

/-- The CAP frames of a release (R340). -/
def releaseFrames (d : Dev) (k : Nat) : Dev :=
  d.eachIn (partnersOf d k) fun d L => sendCap d k L 0xFF 0 (d.f RL_ILIM_EFF k * 2) 0 false

/-- A grant's GDELTA, store part and reservation fall to those of `g` (R340). -/
def regrant (d : Dev) (i : Intent) (g : Int) (noStore : Bool) : Dev :=
  let w := (inputPower d i.rail g).toNat
  let part := if noStore then 0 else i.part - (i.watts - w)
  let resv := min i.resv (part * i.dur / 1000)
  let d := addResv d ((resv : Int) - i.resv)
  mapIntents d (sameIntent i) fun j => { j with gd := g, watts := w, part := part, resv := resv }

/-- The CAP of R335 for a revised grant, which only falls, and its CAP frame (R340); `i` is the entry as it was. -/
def recap (d : Dev) (i : Intent) (reason : Nat) : Dev :=
  match d.intents.find? (sameIntent i) with
  | none => d
  | some j =>
    let cap := min j.cap (usat (min (d.f RL_ILIM_EFF j.rail * 2 : Int) (d.fi IG_LOAD_IL j.rail / 2 + gsumOf d j.rail)) 16)
    let d := mapIntents d (sameIntent i) fun x => { x with cap := cap }
    if j.orig = 0 then sendCap d j.rail j.lane j.id j.gd cap reason false else d

/-- On a fall of EFF every positive grant scales by one factor so that gsum fits the headroom (R340). -/
def grantRevise (d : Dev) (k : Nat) : Dev :=
  let gs := gsumOf d k
  let hr := max 0 ((d.f RL_ILIM_EFF k : Int) * 2 - d.fi IG_LOAD_IL k / 2)
  if gs ≤ hr then d
  else
    let l := d.intents.filter fun i => i.rail == k && i.valid && 0 < i.gd
    let d := d.eachIn l fun d i => regrant d i (i.gd * hr / gs) false
    showOut ((d.eachIn l fun d i => recap d i 2).set1 IG_RCAUSE_REVISED k) k

/-- On removal of the store every grant with a store part is computed again with the store term at 0, and one whose GDELTA
falls is revised (R282, R340). -/
def grantStoreLost (d : Dev) : Dev :=
  let l := d.intents.filter fun i => i.valid && 0 < i.part
  let d := d.eachIn l fun d i =>
    let (g, _, _, d) := grantOf d i true
    let d := regrant d i (min g i.gd) true
    if g < i.gd then recap d i 3 else d
  d.each 16 fun d k => if (l.any fun i => i.rail == k) then showOut d k else d

/-! ### Feedforward -/

/-- The value a ramp that began at `v` has with `left` of its `span` cycles to go (R71). -/
def decayed (v : Int) (left span : Nat) : Int :=
  if span = 0 then 0 else if 0 ≤ v then v * left / span else -((-v) * left / span)

/-- The length of the ramp of R71 in LCLK cycles. -/
def decaySpan (d : Dev) (k : Nat) : Nat := max 1 (d.a FL_FF_DECAY k * 16)

/-- A term that is `v` from `st` until `fin`, withdrawn at `cut` or, where `soft`, ramping down from `fin`. -/
def termAt (v st fin : Int) (soft : Bool) (cut : Nat) (span : Nat) (t : Int) : Int :=
  let stop : Int := if cut = 0 then fin else min fin (cut - 1)
  let ramps := soft || (cut != 0 && (cut : Int) - 1 < fin)
  if t < st || stop ≤ st then 0
  else if t < stop then v
  else if ramps then decayed v (span - (t - stop).toNat) span
  else 0

/-- The duty and voltage terms of a pulse at time t (R343, R344). -/
def pulseFfd (d : Dev) (p : Pulse) : Int :=
  termAt (p.sign * p.h) p.st p.e false p.cut (decaySpan d p.rail) d.now
def pulseFfv (d : Dev) (p : Pulse) : Int :=
  termAt (p.sign * p.vb) p.st p.vEnd true p.cut (decaySpan d p.rail) d.now

/-- The terms the intent logic presents to the fast loop of rail k in the present LCLK cycle (R343, R357, R358): under
GLADE those alone that it has withdrawn, on their way to 0 (R70, R71). -/
def ffPresent (d : Dev) (k : Nat) : Dev :=
  let glade := d.on FL_STEER_GLADE k
  let ps := d.pulses.filter fun p => p.rail == k && (!glade || p.cut != 0)
  let ffd := ps.foldl (fun a p => a + pulseFfd d p) (if glade then 0 else d.h .cTerm k)
  let ffv := ps.foldl (fun a p => a + pulseFfv d p) 0
  (d.setH .ffdIn k ffd).setH .ffvIn k ffv

/-- Pulses whose terms have come to an end leave. -/
def dropPulses (d : Dev) : Dev :=
  { d with pulses := d.pulses.filter fun p =>
      decide ((d.now : Int) < max (p.e + decaySpan d p.rail) (p.vEnd + decaySpan d p.rail)) }

/-- At G the pulse of an accepted intent that is not late is scheduled (R342); `nsw` counts the rail's SWITCHING phases,
the group's on a coupled rail. `known`: GDELTA is known here (R362). With no phase switching, or FFD_MAX at 0, the
spec states no quotient, and the value is free. -/
def schedule (d : Dev) (i : Intent) (nsw : Nat) (known : Bool) : Dev :=
  let k := i.rail
  let fmax : Int := d.a FL_FF_FFD_MAX k
  let fd := if 0 < i.delta && known && partnerCap d i.lane 1 then i.gd else i.delta
  let (a, d) := d.divFree (fd.natAbs * d.f IG_FFK_KA k) nsw
  let sc : Int := i.te * (i.conf + 1) / 16 + 1
  let a := a * sc / 256
  let (ln, d) := d.divFree (-a) fmax
  let len := max (d.f IG_RCFG_TMIN k * 16 : Int) (-ln)
  let mid := i.arr + 4 * i.rise - 2 * d.f IG_RCFG_ADV k
  let st := max (mid - len / 2) d.now
  let e := mid - len / 2 + len
  let hh := if st < e then min (ceilDiv a (e - st)) fmax else 0
  let vb := min ((fd.natAbs * d.f IG_FFK_VK k : Nat) / 256 * sc / 256) (d.a FL_FF_FFV_MAX k)
  let p : Pulse :=
    { rail := k, slot := i.slot, orig := i.orig, id := i.id, sign := if 0 < fd then 1 else -1, h := hh.toNat, st := st,
      e := e, vb := vb.toNat, vEnd := i.arr + 8 * i.rise, cut := 0, stamp := i.stamp }
  { d with pulses := d.pulses ++ [p] }

/-- Withdraw the pulse of an entry, and no other of the same ID (R344). -/
def withdraw (d : Dev) (i : Intent) : Dev :=
  { d with pulses := d.pulses.map fun p =>
      if p.rail == i.rail && p.slot == i.slot && p.orig == i.orig && p.id == i.id && p.stamp == i.stamp && p.cut == 0
      then { p with cut := d.now + 1 } else p }

/-- Withdraw the latest pulse of a forwarded intent at a member that keeps no entry for it (R333, R362). -/
def withdrawLast (d : Dev) (i : Intent) : Dev :=
  let mine (p : Pulse) : Bool := p.rail == i.rail && p.slot == i.slot && p.orig == i.orig && p.id == i.id && p.cut == 0
  match (d.pulses.filter mine).getLast? with
  | some p => withdraw d { i with stamp := p.stamp }
  | none => d

/-! ### Outcomes -/

/-- The place in order of R348: A, then S, then the lane. -/
def earlier (i j : Intent) : Bool :=
  decide (i.arr < j.arr) || (i.arr == j.arr && (decide (i.stamp < j.stamp) || (i.stamp == j.stamp && i.lane < j.lane)))

/-- Post an outcome to the lead grove of the rail (R157); its fields saturate (R4). -/
def postOutcome (d : Dev) (i : Intent) (cls : Nat) (meas err : Int) : Dev :=
  match d.leadGrove i.rail with
  | none => d
  | some g =>
    let h := (d.gw g 0x1400).toNat
    if (h + 2 ^ 32 - d.hn .gOutTail g) % 2 ^ 32 = 64 then d.set1 GV_CAUSE_OUTQ_OVR g
    else
      let o := 0x1000 + (h % 64) * 16
      let d := d.setGw g o (i.rail + 16 * i.slot + 256 * cls)
      let d := d.setGw g (o + 4) (i.delta % 65536 + (sat meas 16 % 65536) * 65536)
      let d := (d.setGw g (o + 8) (sat err 32)).setGw g (o + 12) d.now
      (d.setGw g 0x1400 (h + 1)).gvTrig g 3 1

/-- Resolve an entry of this device with a class (R346, R347): its counts, its causes and its outcome. A forwarded entry
is resolved by its origin (R362). Where the class goes without a measured step or an arrival error, the spec states
none, and the value is free. -/
def resolve (d : Dev) (i : Intent) (cls : Nat) (meas err : Option Int) : Dev :=
  let d := mapIntents d (sameIntent i) fun j => { j with live := false }
  if i.orig ≠ 0 then showOut d i.rail
  else
    let j := i.rail * 4 + i.slot
    let d := match cls with
      | 0 => d.incSat IG_SCNT_ACC j
      | 1 => (d.incSat IG_SCNT_PHANTOM j).set1 IG_RCAUSE_PHANTOM i.rail
      | 2 => d.incSat IG_SCNT_LATE j
      | 3 => (d.incSat IG_SCNT_OVS j).set1 IG_RCAUSE_OVERSIZE i.rail
      | _ => d
    let (m, d) := match meas with
      | some m => (m, d)
      | none => let (v, d) := d.free; (sext v 16, d)
    let (e, d) := match err with
      | some e => (e, d)
      | none => let (v, d) := d.free; (sext v 32, d)
    showOut (postOutcome d i cls m e) i.rail

/-- The store part of a grant arrives, or ends (R265). -/
def partTurn (d : Dev) (i : Intent) (ends : Bool) : Dev :=
  let d := mapIntents d (sameIntent i) fun j => { j with pt := if ends then 2 else 1 }
  storePart d i.part ends

/-- A grant ends, by its window or by a cancel: a store part that has arrived ends with it (R265), GDELTA leaves gsum and
the reservation returns (R338). -/
def endGrant (d : Dev) (i : Intent) : Dev :=
  if i.valid then
    let d := if i.pt = 1 then partTurn d i true else d
    showOut (mapIntents (freeResv d i) (sameIntent i) fun j => { j with valid := false, resv := 0, part := 0 }) i.rail
  else d

/-- An entry is cancelled: class 4, its pulse withdrawn, its grant at an end (R334, R349). -/
def cancelIntent (d : Dev) (i : Intent) : Dev :=
  let d := if i.live then resolve d i 4 none none else d
  endGrant (withdraw d i) i

/-- s of R55, by which ci is above its duty codes. -/
def cplShift (d : Dev) (k : Nat) : Nat := 8 + (if d.aon FL_CFG_BANK k then d.a FL_G_GSH_GSH k else d.a FL_S_GSH_GSH k)

/-- A device takes another role in its group; a master that ceases to be one keeps of ci its duty codes, as a CI received
(R357). -/
def setRole (d : Dev) (k role : Nat) : Dev :=
  let d := if d.f IG_CPLSTAT_ROLE k = 1 && role != 1 then d.setH .cCi k (asr (d.h .cCi k) (cplShift d k)) else d
  d.setF IG_CPLSTAT_ROLE k role

/-- A coupled device whose rail stops is no longer in its group's set (notes/assumptions/41.md). -/
def cplLeave (d : Dev) (k : Nat) : Dev :=
  if 1 ≤ d.f IG_CPLSTAT_ROLE k && d.f IG_CPLSTAT_ROLE k ≤ 3 then (setRole d k 4).setH .cTerm k 0 else d

/-- A rail leaves ON: every outstanding intent is cancelled and its partner told (R350). -/
def grantRailOff (d : Dev) (k : Nat) : Dev :=
  let d := cplLeave d k
  let l := liveOn d k
  if l.isEmpty then d
  else
    let ps := (List.range 12).filter fun L => l.any fun i => i.lane == L && i.orig == 0
    (d.eachIn l cancelIntent).eachIn ps fun d L => sendCap d k L 0xFF 0 0 4 false

/-- A lane leaves ACTIVE: every outstanding intent taken from it is cancelled, and nothing is sent (R349). A forwarded
intent is withdrawn at the members by IFWD with DELTA 0 (R362). -/
def grantLaneDown (d : Dev) (L : Nat) : Dev :=
  d.eachIn (d.intents.filter fun i => i.lane == L && i.orig == 0 && i.live) cancelIntent

/-- An accepted identity with ID_NEW marks every slot that names the lane (R326). -/
def slotsNew (d : Dev) (l : Nat) : Dev :=
  d.each 16 fun d k =>
    let hit := (List.range 4).filter fun s => d.f (IG_SLOTS_LANE s) k == l
    if hit.isEmpty then d
    else showOut ((d.eachIn hit fun d s => d.set1 (IG_SLOTS_NEW s) k).set1 IG_RCAUSE_ID_NEW k) k

/-! ### The load estimate -/

/-- One LCLK cycle towards the estimate of rail k (R345). -/
def loadAcc (d : Dev) (k : Nat) : Dev :=
  (d.setH .igSum k (d.h .igSum k + d.fi FL_ISUM_ISUM k)).setH .igCnt k (d.h .igCnt k + 1)

/-- The sum of the last eight estimates of rail k before stamp s: eight times the baseline (R345). -/
def baselineOf (d : Dev) (k : Nat) (s : Int) : Int :=
  let l := (d.ests.filter fun e => e.rail == k && decide ((e.at_ : Int) < s)).reverse.take 8
  l.foldl (fun a e => a + e.il) 0

/-- Eight times the baseline in force: while an earlier intent of the rail is unresolved, its baseline plus its DELTA (R348). -/
def baseInForce (l : List Intent) : Nat → Intent → Int
  | 0, i => i.base
  | n + 1, i =>
    match (l.filter fun j => earlier j i).foldl (fun (b : Option Intent) j =>
        match b with | none => some j | some x => if earlier x j then some j else b) none with
    | none => i.base
    | some j => baseInForce l n j + 16 * j.delta

/-- The instant W of an entry, in ticks (R345). -/
def lateEdge (d : Dev) (i : Intent) : Int := i.arr + 8 * i.rise + d.f IG_WIN_TOL i.rail * 16

/-- The end of its late window (R346). -/
def lateEnd (d : Dev) (i : Intent) : Int := lateEdge d i + d.f IG_WIN_LATEW i.rail * 128

/-- An estimate reaches the entries of its rail: crossings and measurement windows (R345, R348). A crossing fixes the
baseline its measurement is taken from. -/
def estimateStep (d : Dev) (k : Nat) (il : Int) : Dev :=
  let l := liveOn d k
  let t : Int := d.now
  let step (i : Intent) : Intent :=
    if i.cross = 0 then
      let blocked := l.any fun j => earlier j i && j.cross == 0
      let b := baseInForce l 8 i
      let rise := if 0 < i.delta then 8 * il - b else b - 8 * il
      if !blocked && i.stamp ≤ t && t < lateEnd d i && (8 * i.delta.natAbs : Int) ≤ rise then
        { i with cross := d.now + 1, base := b }
      else i
    else
      let D : Int := i.cross - 1
      if D + 4 * i.rise + 200 ≤ t && t < D + 4 * i.rise + 600 then { i with mSum := i.mSum + il, mCnt := i.mCnt + 1 }
      else i
  mapIntents d (fun i => i.rail == k && i.live) step

/-- LOAD_ESTIMATE (R345). The capacitor term is in 0.25 A: 1 µF × 1 F / 8 ns is 1/2,048 of it. -/
def loadEstimate (d : Dev) (k : Nat) : Dev :=
  let n := d.h .igCnt k
  let mean := if n = 0 then d.fi FL_ISUM_ISUM k else d.h .igSum k / n
  let v := d.h .vSense k
  let il := sat (mean - d.f IG_COUT_C k * (v - d.h .igPrevV k) / 2048
    + (if d.on IG_CPL_EN k then d.h .cIsum k else 0)) 16
  let d := (((d.setH .igSum k 0).setH .igCnt k 0).setH .igPrevV k v).setF IG_LOAD_IL k il
  let d := estimateStep d k il
  let old := d.ests.filter fun e => e.rail == k
  let rest := d.ests.filter fun e => e.rail != k
  { d with ests := rest ++ (old.drop (old.length - 63)) ++ [{ rail := k, at_ := d.now, il := il }] }

/-- The entry of rail k that is next to be resolved: the earliest live one (R348). -/
def headIntent (d : Dev) (k : Nat) : Option Intent :=
  (liveOn d k).foldl (fun b j => match b with | none => some j | some x => if earlier j x then some j else b) none

/-- Classify the earliest entry of rail k if its time has come (R346). A window that no estimate fell in has no mean, and
the measured step is free. The comparison is exact; the posted words discard low-order bits (R4). -/
def resolveHead (d : Dev) (k : Nat) : Dev :=
  match headIntent d k with
  | none => d
  | some i =>
    let t : Int := d.now
    if i.cross = 0 then
      if lateEnd d i ≤ t then resolve d i 1 none none else d
    else
      let D : Int := i.cross - 1
      if D + 4 * i.rise + 600 ≤ t then
        -- the measured step, in 0.25 A, is num / den
        let den : Int := 8 * i.mCnt
        let (num, den, d) : Int × Int × Dev :=
          if den = 0 then let (v, d) := d.divFree 0 0; (v, 1, d) else (8 * i.mSum - i.base * i.mCnt, den, d)
        let inWin := decide (i.arr - d.f IG_WIN_TOL k * 16 ≤ D) && decide (D < lateEdge d i)
        let small := decide ((num.natAbs : Int) * 64 ≤ (64 + d.f IG_WIN_OVS k) * 2 * i.delta.natAbs * den)
        let cls := if inWin then (if small then 0 else 3) else 2
        resolve d i cls (some (num / (2 * den))) (some ((D - i.arr - 4 * i.rise) / 2))
      else d

end Sys2Proof.Machine
end

