-- ==== Sys2Proof/Machine/LifeOps.lean ====
section
/-! DEFINITION. The life slots of the stages and the records other blocks ask of the life log (R207, R547 to R549,
R554). -/

namespace Sys2Proof.Machine

/-- Byte `b` of the cached descriptor of phase n (R130). -/
def descByte (d : Dev) (n b : Nat) : Nat := bitsOf (d.r PH_DESC (n * 32 + b / 4)) (8 * (b % 4)) 8

/-- Two bytes of it, little-endian (R128). -/
def descHalf (d : Dev) (n b : Nat) : Nat := descByte d n b + 256 * descByte d n (b + 1)

/-- VENDOR of the mapped stage (R128). -/
def descVendor (d : Dev) (n : Nat) : Nat := descHalf d n 6

/-- SERIAL of the mapped stage (R128). -/
def descSerial (d : Dev) (n : Nat) : Nat := leNat ((List.range 8).map fun j => descByte d n (0x18 + j))

/-- The counters of a phase's slot start at 0 (R547). -/
def lifeZero (d : Dev) (n : Nat) : Dev :=
  let d := d.eachIn [Hid.lOn, .lOnFrac, .lChg, .lChgAcc, .lFaults, .lExt, .lPrevExt, .lDir, .lSeen, .lWear, .lMirror, .lSeq]
    fun d v => d.setH v n 0
  d.each 8 fun d b => d.setH .lTherm (n * 8 + b) 0

/-- The wear index, recomputed (R549). With no accepted descriptor it is 0; a rating of 0 A leaves the quotient, and so
the index, open. -/
def lifeWear (d : Dev) (n : Nat) : Dev :=
  if !d.on PH_STAGE_DESC_OK n then d.setH .lWear n 0
  else
    let rated := descHalf d n 0x20
    let wsum := (List.range 8).foldl (fun a b => a + d.hn .lTherm (n * 8 + b) * 2 ^ b) 0
    let wt := 65536 * wsum / (d.f LF_CFG_TCYC * 1000)
    if rated = 0 then
      let (v, d) := d.free
      d.setH .lWear n (v % 65536 : Nat)
    else
      let wc := 65536 * 4 * d.hn .lChg n / (rated * d.f LF_CFG_LIFE_KH * 3600000000)
      d.setH .lWear n (min 65535 (max wc wt) : Nat)

/-- At mapping the slot loads the stage's mirror when CAPS bit 2 is set and the mirror's CRC is right; else it starts
at 0, a bad CRC setting MIRROR_BAD (R131, R547). -/
def lifeLoad (d : Dev) (n : Nat) (mirror : List Nat) : Dev :=
  let d := (lifeZero d n).setH .lMap n 1
  let d :=
    if (descByte d n 0x36).testBit 2 then
      if mirror.length = 64 && crc16 (mirror.take 62) = leNat (mirror.drop 62) then
        let at_ (o w : Nat) : Nat := leNat ((mirror.drop o).take w)
        let d := (((d.setH .lSeq n (at_ 0 4)).setH .lOn n (at_ 4 4)).setH .lChg n (at_ 8 8)).setH .lFaults n (at_ 0x20 2)
        let d := d.each 8 fun d b => d.setH .lTherm (n * 8 + b) (at_ (0x10 + 2 * b) 2)
        d.setH .lMirror n 1
      else d.set1 LF_CAUSE_MIRROR_BAD
    else d
  lifeWear d n

/-- The 64 bytes of the slot of phase n as a life mirror with write sequence `seq` (R131). -/
def lifeBytes (d : Dev) (n seq : Nat) : List Nat :=
  let b := leBytes 4 seq ++ leBytes 4 (d.hn .lOn n) ++ leBytes 8 (d.hn .lChg n)
    ++ ((List.range 8).flatMap fun j => leBytes 2 (d.hn .lTherm (n * 8 + j))) ++ leBytes 2 (d.hn .lFaults n) ++ [0, 0]
    ++ leBytes 8 (ownDevid d) ++ List.replicate 18 0
  b ++ leBytes 2 (crc16 b)

/-- The controller writes the life mirror of phase n's stage, with SEQ one higher than the last read or written (R131). -/
def lifeMirror (d : Dev) (n : Nat) : Dev :=
  let d := d.setH .lSeq n ((d.h .lSeq n + 1) % 2 ^ 32)
  d.eachIn ((lifeBytes d n (d.hn .lSeq n)).zipIdx) fun d x => d.setH .mirror (n * 64 + x.2) (x.1 : Nat)

/-- A stage snapshot record (KIND 7) of phase n (R554). -/
def lifeSnapshot (d : Dev) (n : Nat) (final : Bool) : Dev :=
  d.logPush 7 96 ([(24, 1, n), (25, 1, b2n final), (26, 2, descVendor d n), (28, 8, descSerial d n),
    (36, 4, d.hn .lOn n), (40, 8, d.hn .lChg n), (64, 2, d.hn .lFaults n), (66, 2, d.hn .lWear n)]
    ++ (List.range 8).map fun b => (48 + 2 * b, 2, d.hn .lTherm (n * 8 + b)))

/-- A stage is unmapped: its counters go to a stage snapshot with FINAL (R547). -/
def lifeUnmap (d : Dev) (n : Nat) : Dev := (lifeZero (lifeSnapshot d n true) n).setH .lMap n 0

/-- One more fault of the stage (R547). -/
def lifeFault (d : Dev) (n : Nat) : Dev := d.setH .lFaults n (min 65535 (d.h .lFaults n + 1))

/-- The bin of a temperature swing in 1/16 °C; a bin boundary belongs to the upper bin (R548). -/
def thermBin (dt : Nat) : Nat :=
  if dt < 160 then 0 else if dt < 320 then 1 else if dt < 480 then 2 else if dt < 640 then 3
  else if dt < 800 then 4 else if dt < 1040 then 5 else if dt < 1280 then 6 else 7

/-- A temperature read of the stage, in 1/16 °C (R548). The first one is the running extreme, and the first departure
from it sets the direction (notes/assumptions/31.md). -/
def lifeTemp (d : Dev) (n : Nat) (t : Int) : Dev :=
  let hyst : Int := d.f LF_CFG_THYST * 16
  if !d.hon .lSeen n then (((d.setH .lSeen n 1).setH .lExt n t).setH .lPrevExt n t).setH .lDir n 0
  else
    let e := d.h .lExt n
    let dir := d.h .lDir n
    if dir = 0 then
      if hyst ≤ t - e then (d.setH .lDir n 1).setH .lExt n t
      else if hyst ≤ e - t then (d.setH .lDir n (-1)).setH .lExt n t
      else d
    else if 0 < dir * (t - e) then d.setH .lExt n t
    else if hyst ≤ dir * (e - t) then
      let b := thermBin (e - d.h .lPrevExt n).natAbs
      let d := d.setH .lTherm (n * 8 + b) (min 65535 (d.h .lTherm (n * 8 + b) + 1))
      ((d.setH .lPrevExt n e).setH .lExt n t).setH .lDir n (-dir)
    else d

/-- The deadfall record of a phase failure (R207, R554): source 0 stage fault, 1 stage temperature, 2 open, 3 stage
lost, 4 high-side short. -/
def deadfallPhase (d : Dev) (k n src : Nat) : Dev :=
  d.logDeadfall [(24, 1, 0), (25, 1, k), (26, 1, n), (27, 1, src), (28, 2, descVendor d n), (30, 8, descSerial d n),
    (38, 2, d.f PH_IMEAS_IAVG n), (40, 2, (sext (d.f PH_STAGE_TEMP n) 13 % 65536).toNat), (42, 1, d.f PH_SFAULT_FAULT n)]

end Sys2Proof.Machine
end

