-- ==== Sys2Proof/Machine/RailOps.lean ====
section
/-! DEFINITION. What the rail, phase and firebreak commands share: the queries over a rail's phases, the phase states
of R115, the rail states of R185, stopping a rail, the firebreak's actions and its pins. -/

namespace Sys2Proof.Machine

/-- Phase states (PH_STATUS.STATE). -/
abbrev phIdle : Nat := 0
abbrev phTone : Nat := 1
abbrev phArming : Nat := 2
abbrev phArmed : Nat := 3
abbrev phSwitching : Nat := 4
abbrev phShed : Nat := 5
abbrev phHeld : Nat := 6
abbrev phFailed : Nat := 7

/-- Rail states (RL_STATUS.STATE). -/
abbrev rlOff : Nat := 0
abbrev rlPending : Nat := 1
abbrev rlArming : Nat := 2
abbrev rlPrebias : Nat := 3
abbrev rlSoftStart : Nat := 4
abbrev rlOn : Nat := 5
abbrev rlStopping : Nat := 6
abbrev rlHiccup : Nat := 7
abbrev rlLatched : Nat := 8

/-- Loop modes (FL_STATUS.MODE). -/
abbrev flOff : Nat := 0
abbrev flRun : Nat := 1
abbrev flStrike : Nat := 2
abbrev flRelease : Nat := 3
abbrev flRestore : Nat := 4

/-- PWM pair states (PH_STATUS.PWM, R84). -/
abbrev pwmTri : Nat := 0
abbrev pwmLow : Nat := 1
abbrev pwmHigh : Nat := 2

/-- The commit domain of a phase: its rail, 16 for the store, 17 for none (R110, R114). -/
def phDom (d : Dev) (n : Nat) : Nat :=
  if d.f PH_ROLE_ROLE n = 1 then d.f PH_ROLE_RAIL n else if d.f PH_ROLE_ROLE n = 2 then 16 else 17

/-- The phases of a rail (16: of the store), in rising order. -/
def domPhases (d : Dev) (k : Nat) : List Nat := (List.range 64).filter fun n => phDom d n == k

/-- The state of phase n. -/
def phState (d : Dev) (n : Nat) : Nat := d.f PH_STATUS_STATE n

/-- The state of rail k. -/
def rlState (d : Dev) (k : Nat) : Nat := d.f RL_STATUS_STATE k

/-- The loop mode of rail k. -/
def flMode (d : Dev) (k : Nat) : Nat := d.f FL_STATUS_MODE k

/-- The phases of a rail in a given state. -/
def phasesIn (d : Dev) (k st : Nat) : List Nat := (domPhases d k).filter fun n => phState d n == st

/-- The SWITCHING phases of a rail: its active phases (R67, R73). -/
def switching (d : Dev) (k : Nat) : List Nat := phasesIn d k phSwitching

/-- NSW, the number of SWITCHING phases. -/
def nsw (d : Dev) (k : Nat) : Nat := (switching d k).length

/-- The available phases of a rail: SWITCHING, SHED or HELD (R185). -/
def navail (d : Dev) (k : Nat) : Nat :=
  ((domPhases d k).filter fun n => phState d n == phSwitching || phState d n == phShed || phState d n == phHeld).length

/-- The lead phase of a rail (R73); of the store, the phase with STIDX 0 (R260). -/
def leadOf (d : Dev) (k : Nat) : Option Nat :=
  if k = 16 then ((domPhases d 16).filter fun n => d.f PH_ROLE_STIDX n == 0 && phState d n == phSwitching).head?
  else
    let l := switching d k
    if !d.aon FL_CFG_LEAD_AUTO k && l.contains (d.a FL_CFG_LEAD k) then some (d.a FL_CFG_LEAD k) else l.head?

/-- Whether a rail is frozen (R80). -/
def frozen (d : Dev) (k : Nat) : Bool := d.on FL_STATUS_FROZEN k

/-- Whether a phase may start up: a mapped stage with an accepted descriptor, or NOSTAGE (R115, R182). -/
def mayArm (d : Dev) (n : Nat) : Bool :=
  (d.on PH_STAGE_MAPPED n && d.on PH_STAGE_DESC_OK n) || d.aon PH_CFG_NOSTAGE n

/-- Whether the I/O bank of phase n is present (R182, R679). -/
def bankOn (d : Dev) (n : Nat) : Bool := if n < 32 then d.on PX_STATUS_VIOC else d.on PX_STATUS_VIOD

/-- The phases eligible for rail k (R182, R679). -/
def eligible (d : Dev) (k : Nat) : List Nat :=
  (domPhases d k).filter fun n => phState d n == phIdle && mayArm d n && bankOn d n

/-- Whether any firebreak latch of the rail or of one of its phases is set (R183). -/
def anyLatch (d : Dev) (k : Nat) : Bool :=
  d.r FB_RLAT k != 0 || (domPhases d k).any fun n => d.r FB_PLAT n != 0

/-- The stage bound of a set of phases, in taps: ceil(640,000 / FSW_MAX) of the slowest mapped stage (R97). -/
def stageBound (d : Dev) (l : List Nat) : Nat :=
  l.foldl (fun b n =>
    if d.on PH_STAGE_MAPPED n && d.on PH_STAGE_DESC_OK n && descByte d n 0x26 != 0
    then max b ((640000 + descByte d n 0x26 - 1) / descByte d n 0x26) else b) 0

/-- The period value a rail asks for before its bounds (R97). -/
def perAsked (d : Dev) (k : Nat) : Nat := if d.aon PH_RPER_SRC k then d.a PH_G_RPER_PER k else d.a PH_RPER_PER k

/-- The period target of a rail, in taps (R97). -/
def perTarget (d : Dev) (k : Nat) : Nat :=
  let lo := max (max (d.a PH_RPER_MIN_PER k) 4000) (stageBound d (domPhases d k))
  max lo (min (perAsked d k) (min (d.a PH_RPER_MAX_PER k) 128000))

/-- The half-period in use, in taps: a rail's active H, or the store's (R86, R97, R260). -/
def domH (d : Dev) (k : Nat) : Nat :=
  if k < 16 then d.f PH_RPERNOW_PER k
  else max (max 4000 (stageBound d (domPhases d 16))) (min (d.f ST_PER_PER) 128000)

/-- Set H, and show whether it is locked and bounded (R98, R100). -/
def setPer (d : Dev) (k hNew : Nat) : Dev :=
  let asked := perAsked d k
  let base := max (max (d.a PH_RPER_MIN_PER k) 4000) (min asked (min (d.a PH_RPER_MAX_PER k) 128000))
  let d := d.setF PH_RPERNOW_PER k hNew
  let d := d.setF PH_RPERNOW_LOCKED k (b2i (hNew = perTarget d k))
  let d := d.setF PH_RPERNOW_BOUND k
    (b2i (d.aon PH_RPER_SRC k && (asked < d.a PH_RPER_MIN_PER k || d.a PH_RPER_MAX_PER k < asked)))
  d.setF PH_RPERNOW_STAGE k (b2i (base < stageBound d (domPhases d k)))

/-- H of a domain changes from h0 to h1: t and every phase's position keep their fraction of the period, and the taps to
the end of a repeated valley stretch with them (R99). -/
def rescale (d : Dev) (k : Nat) (h0 h1 : Int) : Dev :=
  if h0 = 0 || h0 = h1 then d
  else
    let c : Int := d.now * 32
    (d.setH .railTime k (d.h .railTime k * h1 / h0)).eachIn (domPhases d k) fun d n =>
      if c < d.h .ghostEnd n then d.setH .ghostEnd n (c + ceilDiv ((d.h .ghostEnd n - c) * h1) h0 + 1) else d

/-- With no SWITCHING phase the active H takes the target (R100); with one it stays, and what PH_RPERNOW shows of the
target is brought up to date (R98). -/
def idlePer (d : Dev) (k : Nat) : Dev :=
  if k < 16 then
    if nsw d k = 0 then setPer (rescale d k (domH d k) (perTarget d k)) k (perTarget d k) else setPer d k (domH d k)
  else d

/-- What the period of a domain does when the stages of its phases, or its phases, have changed since `d0`: a rail's target
moves (R97, R98, R100), the store's H moves at once (R99, R260). -/
def boundMoved (d0 d : Dev) (k : Nat) : Dev :=
  if k = 16 then rescale d 16 (domH d0 16) (domH d 16) else idlePer d k

/-- The committed target angle of a phase; a store phase takes PH_ANG whatever ANG_SRC holds (R94, R260). -/
def angTarget (d : Dev) (n : Nat) : Nat :=
  if d.aon PH_CFG_ANG_SRC n && phDom d n != 16 then d.a PH_G_ANG_ANG n else d.a PH_ANG_ANG n

/-- The code of the frame now on ENnn: round and phase (R122). -/
def toneCode (d : Dev) (n : Nat) : Nat := d.hn .mapRound 0 * 64 + n

/-- The 16 bits of a tone frame: the preamble 0b1011, the code, and the exclusive-OR of the code's nibbles (R122). -/
def toneFrame (code : Nat) : Nat := 0xB000 + code * 16 + (code / 16 ^^^ code % 16)

/-- ENnn of a phase in TONE: each bit of the frame takes 4,000 LCLK cycles, the most significant first, a 1 as high then
low and a 0 as low then high; low after the frame (R122). -/
def toneLevel (d : Dev) (n : Nat) : Bool :=
  let half := (d.now - d.hn .toneAt) / 2000
  half < 32 && ((toneFrame (toneCode d n)).testBit (15 - half / 2) != (half % 2 == 1))

/-- The placement offset o_n, in taps (R94). -/
def phOffset (d : Dev) (n : Nat) : Nat := d.f PH_ANGNOW_ANG n * (2 * domH d (phDom d n)) / 65536

/-- The position q_n of a phase at a tap of the present LCLK cycle (R86). -/
def phPos (d : Dev) (n tap : Nat) : Nat :=
  let p := 2 * domH d (phDom d n)
  ((d.hn .railTime (phDom d n) + tap + p - phOffset d n) % p)

/-- The tap of the present LCLK cycle at which a phase reaches its valley, if it does (R86). -/
def valleyTap (d : Dev) (n : Nat) : Option Nat := (List.range 32).find? fun t => phPos d n t == 0

/-- The tap of the present LCLK cycle at which a phase reaches a valley that is not counted yet. A step of the angle or of
H may bring the position back to 0 after a valley; that is the same valley, since a period has one (R72, R89, R95, R99;
notes/assumptions/11.md). -/
def valleyDue (d : Dev) (n : Nat) : Option Nat :=
  match valleyTap d n with
  | some t => if d.h .ghostEnd n ≤ d.now * 32 + t then some t else none
  | none => none

/-- Whether non-sink operation is active on a rail (R61); never on the store (R260). -/
def nsAct (d : Dev) (k : Nat) : Bool := k < 16 && (d.aon FL_CFG_NS k || d.on RL_STATUS_NS_FORCE k)

/-- The duty limits of a phase: its rail's, DMAX replaced by dcap in droop; the store's own (R88, R260, R277). -/
def dutyMax (d : Dev) (k : Nat) : Nat :=
  if k < 16 then (if d.hon .dOn k then d.hn .dCap k else d.a FL_DLIM_DMAX k) else 63488
def dutyMin (d : Dev) (k : Nat) : Nat := if k < 16 then d.a FL_DLIM_DMIN k else 2048

/-- The half-width D_n, in taps (R88), on the duty command of the sample that places this cycle's edges (R44). -/
def halfWidth (d : Dev) (n : Nat) : Nat :=
  let k := phDom d n
  let duty : Int := if k < 16 then d.h .dEdge k else d.h .sDuty 0
  let dn := clampI (duty + d.fi PH_EQNOW_EQ n) (dutyMin d k) (dutyMax d k)
  (dn * domH d k / 65536).toNat

/-- Put the PWM pair of a phase into a state at a tap of the present cycle (R84, R90). -/
def setPwm (d : Dev) (n v : Nat) (tap : Nat := 0) : Dev :=
  let o := d.f PH_STATUS_PWM n
  if o = v then d
  else
    let t : Int := d.now * 32 + tap
    let d := if o = pwmHigh then (d.setH .fallAt n t).setH .everFell n 1 else d
    let d := if v = pwmHigh then ((d.setH .riseAt n t).setH .negTri n 0).setF PH_STATUS_NS_TRI n 0 else d
    let d := if v = pwmLow then d.setH .lowAt n d.now else d
    d.setF PH_STATUS_PWM n v

/-- A phase enters SWITCHING: the committed target is its active angle at once, acc_n is 0, and no rise comes before its
next valley (R96, R109). -/
def phEnterSwitching (d : Dev) (n : Nat) : Dev :=
  let d := d.setF PH_ANGNOW_ANG n (angTarget d n)
  let d := d.eachIn [Hid.eqAcc, .eqSatRun, .iSum, .iCnt, .negTri, .shedDone, .cbcEvent, .nocEvent, .openRun,
      .ghostEnd, .restFrom] fun d v => d.setH v n 0
  let d := ((d.setH .waitValley n 1).setH .pulseMade n 1).setF PH_EQNOW_EQ n 0
  (d.setF PH_STATUS_CBC n 0).setF PH_STATUS_NS_TRI n 0

/-- Put a phase into a state of R115, with what the state does to its pins (R84, R85), and restart the coppicing count
of its rail when the rail's set of SWITCHING phases changes (R203). -/
def phSet (d : Dev) (n st : Nat) : Dev :=
  let o := phState d n
  let k := phDom d n
  let d := d.setF PH_STATUS_STATE n st
  let d := if o = phArmed && st ≠ phArmed then ((d.setF PH_STATUS_AZ_BUSY n 0).setH .azSum n 0).setH .azCnt n 0 else d
  let d := if st = phSwitching || st = phShed then d else setPwm d n pwmTri
  let d := if st = phSwitching then phEnterSwitching d n else d
  let d := if st = phIdle || st = phFailed then d.setF PH_STATUS_EN n 0
           else if st = phArming then d.setF PH_STATUS_EN n 1 else d
  let d := if st = phShed then d.setH .shedDone n 0 else d
  if (o = phSwitching) ≠ (st = phSwitching) && k < 16 then
    (d.setH .copDwell k 0).setHbit .forceMask k n false
  else d

/-- When the lead phase changes, the cycles to the next commit point form no period of R708. -/
def leadCheck (d : Dev) (k : Nat) : Dev :=
  let l : Int := match leadOf d k with | some n => n + 1 | none => 0
  if d.h .lastLead k = l then d else (d.setH .lastLead k l).setH .satValid k 0

/-- The capacity of a rail in A: I_RATED of each SWITCHING, SHED, HELD or ARMED phase's stage in whole amps, NOSTAGE_I
for a NOSTAGE phase (R210). -/
def capacity (d : Dev) (k : Nat) : Nat :=
  (domPhases d k).foldl (fun a n =>
    if phState d n == phSwitching || phState d n == phShed || phState d n == phHeld || phState d n == phArmed then
      a + (if d.aon PH_CFG_NOSTAGE n then d.f RL_PF_NOSTAGE_I k else descHalf d n 0x20 / 4)
    else a) 0

/-- The effective current limit of a rail (R210). -/
def effLimit (d : Dev) (k : Nat) : Nat :=
  if d.f RL_ILIM_LIM k = 0 then capacity d k else min (d.f RL_ILIM_LIM k) (capacity d k)

/-- Bring CAP, EFF, NAVAIL and DEGRADED up to date; a fall of EFF goes to the intent logic and a fall of CAP below LIM
sets CAP_LOW (R210, R211). -/
def settleCap (d : Dev) (k : Nat) : Dev :=
  if 16 ≤ k then d
  else
    let lim := d.f RL_ILIM_LIM k
    let cap0 := d.f RL_CAP_CAP k
    let eff0 := d.f RL_ILIM_EFF k
    let cap := capacity d k
    let eff := effLimit d k
    let d := ((d.setF RL_CAP_CAP k cap).setF RL_CAP_NAVAIL k (navail d k)).setF RL_ILIM_EFF k eff
    let d := d.setF RL_STATUS_DEGRADED k (b2i ((phasesIn d k phFailed != []) || (lim != 0 && cap < lim)))
    let d := if lim != 0 && cap < lim && lim ≤ cap0 then d.set1 RL_CAUSE_CAP_LOW k else d
    if eff < eff0 then grantRevise d k else d

/-- The window centre moves to `c`; a move of more than 8 DAC LSB marks the next two samples SETTLE (R48). -/
def moveCentre (d : Dev) (k : Nat) (c : Int) : Dev :=
  let d := if 8 < (c - d.f FL_WIN_CENTRE k).natAbs then d.setH .settleLeft k 2 else d
  d.setF FL_WIN_CENTRE k c

/-- The loop of a rail turns off: r and the centre become 0 (R48, R52, R62). -/
def loopOff (d : Dev) (k : Nat) : Dev :=
  let d := ((moveCentre d k 0).setF FL_STATUS_MODE k flOff).setF FL_REFNOW_REF k 0
  let d := d.eachIn [FL_STATUS_DSAT_HI, FL_STATUS_DSAT_LO, FL_STATUS_INT_HOLD, FL_DUTY_D] fun d F => d.setF F k 0
  d.eachIn [Hid.refFrac, .refStep, .forceMask, .forceCbc, .modeTime, .restoreCnt, .satHiAll, .satLoAll] fun d v => d.setH v k 0

/-- Every phase of the rail goes TRI. -/
def allTri (d : Dev) (k : Nat) : Dev := d.eachIn (domPhases d k) fun d n => setPwm d n pwmTri

/-- Every SWITCHING phase of the rail is held LOW and every other one TRI (R214, R222). -/
def holdLow (d : Dev) (k : Nat) : Dev :=
  (d.setH .forceHold k 1).eachIn (domPhases d k) fun d n =>
    setPwm d n (if phState d n == phSwitching then pwmLow else pwmTri)

/-- The firebreak tri-states the phases of a rail or of the store: those that were SWITCHING or SHED are HELD (R115, R222,
R280). -/
def fbTri (d : Dev) (k : Nat) : Dev :=
  let d := d.eachIn (domPhases d k) fun d n =>
    if phState d n = phSwitching || phState d n = phShed then phSet d n phHeld else setPwm d n pwmTri
  settleCap (leadCheck d k) k

/-- The firebreak holds the SWITCHING phases of a rail LOW and tri-states every other one, a SHED one into HELD (R115,
R222). -/
def fbLow (d : Dev) (k : Nat) : Dev :=
  (holdLow d k).eachIn (phasesIn d k phShed) fun d n => phSet d n phHeld

/-- Shutdown complete: every phase of the rail that is not FAILED goes to IDLE with TRI and ENnn low (R115, R185). -/
def shutdown (d : Dev) (k : Nat) : Dev :=
  let d := d.eachIn (domPhases d k) fun d n =>
    if phArming ≤ phState d n && phState d n ≤ phHeld then phSet d n phIdle else d
  let d := (d.setH .shutPend k 0).setH .forceHold k 0
  if k < 16 then idlePer (settleCap (leadCheck (loopOff (d.setF FB_RSTAT_OFF_ACT k 0) k) k) k) k else d

/-- The check of R183, made when EN is written 1 in OFF and when a rail reaches OFF with EN at 1 (R186). The rail that
lends its pins to the store is refused (R256). -/
def enCheck (d : Dev) (k : Nat) : Dev :=
  if (eligible d k).length < d.f RL_CFG_MIN_PH k || anyLatch d k || (d.on ST_CTL_EN && d.f ST_CFG_SNS_RAIL == k) then
    (d.setF RL_CTL_EN k 0).set1 RL_CAUSE_CFG_ERR k
  else (((d.setF RL_CTL_EN k 1).setF RL_STATUS_STATE k rlPending).setF RL_STATUS_RETRIES k 0).setH .stAt k d.now

/-- A rail reaches OFF; with EN still 1 it is checked again (R186). -/
def toOff (d : Dev) (k : Nat) : Dev :=
  let d := (loopOff (d.setF RL_STATUS_STATE k rlOff) k).setF RL_STATUS_OFF_WAIT k 0
  if d.on RL_CTL_EN k then enCheck d k else d

/-- A rail leaves SOFT_START or ON: the non-sink force and the blanking of R196 end (R194, R196), and its intents are
cancelled (R350). -/
def leaveRun (d : Dev) (k : Nat) : Dev :=
  (((grantRailOff d k).setF RL_STATUS_NS_FORCE k 0).setH .ssBlank k 0).setF RL_STATUS_OFF_WAIT k 0

/-- The action of a stop of a rail with switching phases, by its mode (R214). -/
def stopAction (d : Dev) (k mode : Nat) : Dev :=
  if mode = 0 then d
  else if mode = 1 then (allTri (loopOff d k) k).eachIn (domPhases d k) fun d n => d.setF PH_STATUS_EN n 0
  else holdLow (loopOff d k) k

/-- Whether rail j, in a state in which it can, FOLLOWs rail k when PG of k falls (R190). A rail that the same action turns
off in this cycle leaves its state by that action, the earlier row of R185, and takes no stop beside it (R17). -/
def follows (d : Dev) (j k : Nat) : Bool :=
  d.on RL_CFG_FOLLOW j && (d.f RL_SEQ_ON_DEP j).testBit k && rlArming ≤ rlState d j && rlState d j ≤ rlOn
    && !d.hon .offNow j

/-- Do `g` for each rail of a set at once: none of them is stopped by the fall of another's PG (R190). -/
def offTogether (d : Dev) (rails : Nat) (g : Dev → Nat → Dev) : Dev :=
  let l := (List.range 16).filter fun k => rails.testBit k
  let d := (d.eachIn l fun d k => d.setH .offNow k 1).eachIn l g
  d.eachIn l fun d k => d.setH .offNow k 0

/-- A stop request reaches rail k (R185, R214): kind 0 sequenced, 1 immediate, 2 minimum-phase. The fall of PG that
follows stops, at once, every rail that FOLLOWs this one (R189, R190), each of which may pull down others; `fuel`
bounds that chain, which is never longer than the sixteen rails. -/
def stopRail : Nat → Dev → Nat → Nat → Nat → Dev
  | 0, d, _, _, _ => d
  | fuel + 1, d, k, kind, mode =>
    let st := rlState d k
    if st = rlPending then toOff d k
    else if st = rlArming || st = rlPrebias then
      (((d.setF RL_STATUS_STATE k rlStopping).setH .stopKind k kind).setH .stopMode k 1).setH .shutPend k 1
    else if st = rlHiccup then toOff (shutdown d k) k
    else if st = rlSoftStart || st = rlOn then
      let d := (((d.setF RL_STATUS_STATE k rlStopping).setH .stopKind k kind).setH .stopMode k mode).setH .shutPend k 1
      let d := stopAction (leaveRun d k) k mode
      if d.on RL_STATUS_PG k then
        let d := (d.setF RL_STATUS_PG k 0).raiseRail k 5
        d.each 16 fun d j =>
          if follows d j k then stopRail fuel ((d.set1 RL_CAUSE_DEP_LOST j).setF RL_CTL_EN j 0) j 1 (d.f RL_CFG_OFF_MODE j)
          else d
      else d
    else d

/-- An immediate stop in the rail's own mode. -/
def stopNow (d : Dev) (k : Nat) : Dev := stopRail 17 d k 1 (d.f RL_CFG_OFF_MODE k)

/-- PG falls (R189), and the rails that FOLLOW it stop (R190). -/
def pgFall (d : Dev) (k : Nat) : Dev :=
  if d.on RL_STATUS_PG k then
    let d := (d.setF RL_STATUS_PG k 0).raiseRail k 5
    d.each 16 fun d j =>
      if follows d j k then stopNow ((d.set1 RL_CAUSE_DEP_LOST j).setF RL_CTL_EN j 0) j
      else d
  else d

/-- A rail enters LATCHED (R185): r and the centre become 0. With EN at 0 and its shutdown complete it goes on to OFF. -/
def toLatched (d : Dev) (k : Nat) : Dev :=
  let d := pgFall (leaveRun (loopOff (d.setF RL_STATUS_STATE k rlLatched) k) k) k
  if d.on RL_CTL_EN k || d.hon .shutPend k then d else toOff d k

/-- The start abort that is due on rail k, if one is: by the monitor, one of whose runs is complete (true), or by the time in
SOFT_START (R197). It is the earlier row of R185 than a minimum-phase stop, a stop request and the step to ON (R17). -/
def abortDue (d : Dev) (k : Nat) : Option Bool :=
  if rlState d k ≠ rlSoftStart then none
  else if d.f RL_TRK_TIME k ≤ d.hn .trkRun k || d.f RL_TRK_CBC_N k ≤ d.hn .trkCbc k then some true
  else if d.hn .stAt k + d.f RL_SS_TMO k * 20000 ≤ d.now then some false
  else none

/-- A start abort (R185, R198): by the ramp-tracking monitor or by the timeout. A sequenced stop that was waiting in
SOFT_START is a stop request in HICCUP, which does not wait; fewer than MIN_PH available phases end HICCUP at once. -/
def startAbort (d : Dev) (k : Nat) (monitor : Bool) : Dev :=
  let stop := d.on RL_STATUS_OFF_WAIT k
  let d := d.eachIn (switching d k) fun d n => (phSet d n phHeld).incSat LF_FB0_HOLD
  let d := leaveRun (loopOff d k) k
  let d := if monitor then
      (((d.set1 FB_RLAT_START_SHORT k).set1 FB_RCAUSE_START_SHORT k).set1 RL_CAUSE_START_SHORT k).raiseRail k 9
    else d.set1 RL_CAUSE_SS_TMO k
  if d.f RL_STATUS_RETRIES k < d.f RL_CFG_RETRY k then
    let d := (d.setF RL_STATUS_STATE k rlHiccup).setF RL_STATUS_RETRIES k (d.f RL_STATUS_RETRIES k + 1)
    let d := settleCap (leadCheck (pgFall d k) k) k
    if stop then stopRail 17 d k 0 (d.f RL_CFG_OFF_MODE k)
    else if navail d k < d.f RL_CFG_MIN_PH k then toLatched (shutdown (d.set1 RL_CAUSE_MIN_PH k) k) k
    else d
  else toLatched (shutdown (d.set1 RL_CAUSE_RETRY_OUT k) k) k

/-- A stop request reaches rail k. Where a start abort is due in this cycle it is taken, and the request then meets HICCUP
(R17, R185). -/
def stopReq (d : Dev) (k kind mode : Nat) : Dev :=
  let d := match abortDue d k with
    | some m => startAbort d k m
    | none => d
  stopRail 17 d k kind mode

/-- After a change of a rail's phases: lead (R73), capacity (R210) and the minimum of available phases (R185). -/
def settleRail (d : Dev) (k : Nat) : Dev :=
  if 16 ≤ k then d
  else
    let d := settleCap (leadCheck d k) k
    if navail d k < d.f RL_CFG_MIN_PH k then
      if let some m := abortDue d k then startAbort d k m
      else if rlState d k = rlSoftStart || rlState d k = rlOn then
        stopRail 17 (d.set1 RL_CAUSE_MIN_PH k) k 2 (d.f RL_CFG_OFF_MODE k)
      else if rlState d k = rlHiccup then toLatched (shutdown (d.set1 RL_CAUSE_MIN_PH k) k) k
      else d
    else d

/-- A phase failure is declared (R206, R207): 0 stage fault, 1 stage temperature, 2 open phase, 3 stage lost, 4
high-side short. A phase in IDLE has no row for it in the table of R115 and stays IDLE. -/
def phaseFail (d : Dev) (n src : Nat) : Dev :=
  let k := phDom d n
  if phState d n = phIdle then d
  else
    let d := phSet ((lifeFault d n).setH .failAt n (d.now + 1)) n phFailed
    if k < 16 then settleRail (deadfallPhase (d.set1 RL_CAUSE_PHASE_FAIL k) k n src) k else d

/-- The firebreak tri-states a phase and holds it (R115, R219). -/
def phHold (d : Dev) (n : Nat) : Dev :=
  if phState d n = phSwitching || phState d n = phShed then
    settleRail ((phSet d n phHeld).incSat LF_FB0_HOLD) (phDom d n)
  else setPwm d n pwmTri

/-- Start-up of a phase (R115). -/
def phStart (d : Dev) (n : Nat) : Dev :=
  if phState d n = phIdle && mayArm d n then phSet d n phArming else d

/-- A SHED phase is re-added (R202). -/
def phReadd (d : Dev) (n : Nat) : Dev := if phState d n = phShed then phSet d n phSwitching else d

/-- Every SHED phase of a rail in ON is re-added (R202, R203). -/
def readdAll (d : Dev) (k : Nat) : Dev :=
  if rlState d k = rlOn && d.f IG_CPLSTAT_ROLE k != 3 then leadCheck ((d.eachIn (phasesIn d k phShed) phReadd)) k else d

/-- Hot attach: in SOFT_START or ON, with HOT_ADMIT set, every eligible phase starts up (R213). DESIGN CHOICE
(notes/assumptions/61.md): a phase that became eligible before SOFT_START, in ARMING, PREBIAS or HICCUP, starts up at the next
such event of its rail in SOFT_START or ON, and not at the entry to SOFT_START; R213 does not say when. -/
def hotAttach (d : Dev) (k : Nat) : Dev :=
  if k < 16 && (rlState d k = rlSoftStart || rlState d k = rlOn) && d.on RL_CFG_HOT_ADMIT k then
    d.eachIn (eligible d k) phStart
  else d

/-! ### Firebreak actions -/

/-- A rail-off action (R222, R224 to R226): mode 1 tri-state, 2 discharge. `dev`: a latching device source caused it. A
second action of the cycle in which one came as an immediate stop is combined with that one. -/
def railOff (d : Dev) (k mode : Nat) (dev : Bool) : Dev :=
  if mode = 0 then d
  else
    let d := if dev then d.set1 FB_RLAT_DEV k else d
    let st := rlState d k
    if d.h .roStop k = d.now + 1 then d
    else if st = rlSoftStart || st = rlOn || st = rlStopping then
      let d := (d.set1 FB_RCAUSE_RAIL_OFF k).incSat LF_FB0_RAILOFF
      let d := (d.setF FB_RSTAT_OFF_ACT k mode).setH .shutPend k 1
      let d := if mode = 1 then fbTri ((loopOff d k).setH .forceHold k 0) k else fbLow (loopOff d k) k
      toLatched d k
    else if st = rlPending || st = rlArming || st = rlPrebias || st = rlHiccup then
      let d := ((d.set1 FB_RCAUSE_RAIL_OFF k).incSat LF_FB0_RAILOFF).setH .roStop k (d.now + 1)
      stopNow (d.setF RL_CTL_EN k 0) k
    else if mode = 1 && d.f FB_RSTAT_OFF_ACT k = 2 then
      fbTri ((d.setF FB_RSTAT_OFF_ACT k 1).setH .forceHold k 0) k
    else d

/-- Whether a rail source (0 OV, 1 UV, 2 ABS) holds its pin outputs: its latch is set, or it does not latch and its
filtered output is 1 (R227 to R229). -/
def railHolds (d : Dev) (k s : Nat) : Bool :=
  (bitsOf (d.r FB_RLAT k) s 1 != 0) || (!d.on (FB_RACT_LATCH s) k && bitsOf (d.r FB_RSTAT k) s 1 != 0)

/-- Whether a device source holds its pin outputs. -/
def devHolds (d : Dev) (s : Nat) : Bool :=
  (d.f FB_DLAT_SRC).testBit s || (!d.on FB_DACT_LATCH s && (d.f FB_DSTAT_SRC).testBit s)

/-- Whether CROWBAR_N[j] is asserted (R227, R245). -/
def crowAsserted (d : Dev) (j : Nat) : Bool :=
  ((List.range 16).any fun k => d.f (FB_CROWMAP_C k) == j &&
    ((List.range 3).any fun s => d.on (FB_RACT_CROW s) k && railHolds d k s))
  || ((List.range 8).any fun s => (d.f FB_DACT_CROW s).testBit j && devHolds d s)
  || ((List.range 8).any fun c => (d.f FB_SC_CAUSE_TRIP).testBit c && d.hbit .scAct c j)
  || d.hon .crowMin j

/-- Whether a source holds EFUSE_EN low (R228, R237, R245). -/
def efuseHeld (d : Dev) : Bool :=
  ((List.range 16).any fun k => d.on FB_RLAT_HSS k ||
    ((List.range 3).any fun s => d.on (FB_RACT_EFUSE s) k && railHolds d k s))
  || ((List.range 64).any fun n => d.on FB_PLAT_HSS n)
  || ((List.range 8).any fun s => d.on FB_DACT_EFUSE s && devHolds d s)
  || ((List.range 8).any fun c => (d.f FB_SC_CAUSE_TRIP).testBit c && d.hbit .scAct c 4)
  || d.hon .efuseMin

/-- Whether FAULT_N is asserted (R229, R230, R237, R245). -/
def faultAsserted (d : Dev) : Bool :=
  !d.hon .svcOn
  || ((List.range 16).any fun k => d.on FB_RLAT_HSS k ||
    ((List.range 3).any fun s => d.on (FB_RACT_FAULT s) k && railHolds d k s))
  || ((List.range 64).any fun n => d.on FB_PLAT_HSS n)
  || ((List.range 8).any fun s => d.on FB_DACT_FAULT s && devHolds d s)
  || ((List.range 8).any fun c => (d.f FB_SC_CAUSE_TRIP).testBit c && d.hbit .scAct c 5)

/-- Bring the firebreak's pins up to date, with the causes and counts of a crowbar asserted and EFUSE_EN dropped
(R227 to R230, R550). -/
def fbPins (d : Dev) : Dev :=
  let crow0 := d.f FB_PINS_CROWBAR_N
  let ef0 := d.f FB_PINS_EFUSE_EN
  let d := d.each 4 fun d j =>
    if crowAsserted d j then
      let d := if crow0.testBit j then (d.set1 FB_DCAUSE_CROW).incSat LF_FB1_CROW else d
      d.setBit FB_PINS_CROWBAR_N 0 j false
    else d.setBit FB_PINS_CROWBAR_N 0 j true
  let held := efuseHeld d
  let d := if ef0 = 0 && held then (d.set1 FB_DCAUSE_EFUSE).incSat LF_FB1_EFUSE else d
  let d := d.setF FB_PINS_EFUSE_EN 0 (b2i (held || !d.on FB_PINCFG_EFUSE_ON || !d.hon .svcOn))
  d.setF FB_PINS_FAULT_N 0 (b2i (!faultAsserted d))

/-- Close the open charge session with an end code: 0 DONE, 1 REMOVED, 2 FAULT, 3 STOPPED (R270, R554). -/
def closeSession (d : Dev) (code : Nat) : Dev :=
  if d.hon .sSession then
    let d := d.logPush 4 64 [(24, 8, d.hn .sSessOpen), (32, 2, d.hn .sSessV), (34, 2, d.f ST_VMEAS_VSTORE),
      (36, 4, d.hn .sSessE / 1000000), (40, 1, code), (41, 1, d.f ST_CFG_KIND)]
    (d.setH .sSession 0 0).setH .sSessIdle 0 0
  else d

/-- A firebreak store action (R280): store phases TRI, the session closed FAULT. -/
def storeFault (d : Dev) : Dev :=
  let d := fbTri d 16
  if d.f ST_STATUS_STATE ≠ 0 && d.f ST_STATUS_STATE ≠ 6 then
    (closeSession (d.setF ST_STATUS_STATE 0 6) 2).set1 ST_CAUSE_FAULT
  else d

/-- A device source decides (R219, R226, R247, R248): its cause, its event and the actions of its FB_DACT. -/
def devAction (d : Dev) (s : Nat) : Dev :=
  let d := (d.setBit FB_DCAUSE_SRC 0 s true).raise (0x200 + s)
  let lat := d.on FB_DACT_LATCH s
  let d := if lat then d.setBit FB_DLAT_SRC 0 s true else d
  let mode := d.f FB_DACT_MODE s
  let d := if mode = 0 then d else offTogether d (d.f FB_DACT_RAILS s) fun d k => railOff d k mode lat
  let d := if d.on FB_DACT_STORE s then storeFault d else d
  let d := if lat then d else
    let d := d.each 4 fun d j => if (d.f FB_DACT_CROW s).testBit j then d.setH .crowMin j 1 else d
    if d.on FB_DACT_EFUSE s then d.setH .efuseMin 0 1 else d
  fbPins d

/-- A rail source decides (0 OV, 1 UV, 2 ABS): its cause, its event and the actions of its group of FB_RACT. -/
def railAction (d : Dev) (k s : Nat) : Dev :=
  let d := (d.set1 { reg := FB_RCAUSE, lo := s, n := 1, acc := .w1c } k).raiseRail k (6 + s)
  let lat := d.on (FB_RACT_LATCH s) k
  let d := if lat then d.setR FB_RLAT k (putBits (d.r FB_RLAT k) s 1 1) else d
  let d := railOff d k (d.f (FB_RACT_MODE s) k) false
  let d := if lat then d else
    let d := if d.on (FB_RACT_CROW s) k then d.setH .crowMin (d.f (FB_CROWMAP_C k)) 1 else d
    if d.on (FB_RACT_EFUSE s) k then d.setH .efuseMin 0 1 else d
  fbPins d

end Sys2Proof.Machine
end

