-- ==== Sys2Proof/Machine/Couple.lean ====
section
/-! DEFINITION. Coupled rails: peers, election, admission, epochs, the per-cycle exchange and carry-over (spec/09,
R351 to R363). -/

namespace Sys2Proof.Machine

/-- Coupling roles (IG_CPLSTAT.ROLE). -/
abbrev cplNone : Nat := 0
abbrev cplMaster : Nat := 1
abbrev cplMember : Nat := 2
abbrev cplDown : Nat := 3
abbrev cplJoining : Nat := 4

/-- The role of rail k. -/
def cplRole (d : Dev) (k : Nat) : Nat := d.f IG_CPLSTAT_ROLE k

/-- The links of rail k in use: (peer, lane). -/
def cplLinks (d : Dev) (k : Nat) : List (Nat × Nat) :=
  ((List.range 3).filter fun p => d.on (IG_CPL_LNK_VALID p) k).map fun p => (p, d.f (IG_CPL_LNK_LANE p) k)

/-- The peer on link p of rail k, as known. -/
def peerOf (d : Dev) (k p : Nat) : Option Peer := d.peers.find? fun x => x.rail == k && x.p == p

/-- The peers of rail k. -/
def peersOn (d : Dev) (k : Nat) : List Peer := d.peers.filter fun x => x.rail == k

/-- Put a peer's entry in place. -/
def setPeer (d : Dev) (x : Peer) : Dev :=
  { d with peers := (d.peers.filter fun y => !(y.rail == x.rail && y.p == x.p)) ++ [x] }

/-- The sums over the other members that the estimate, the trim and the feedforward use, and the status that shows them
(R345, R358, IG_CPLSTAT2, IG_CPLTOT). -/
def cplShow (d : Dev) (k : Nat) : Dev :=
  let ps := (peersOn d k).filter fun x => x.inSet
  let cur : Int := ps.foldl (fun a x => a + x.isum) 0
  let n : Nat := ps.foldl (fun a x => a + x.nsw) 0
  let d := (d.setH .cIsum k cur).setH .cNsw k n
  let d := d.setF IG_CPLSTAT2_NPH k (nsw d k + n)
  (d.setF IG_CPLTOT_TOT k ((d.fi FL_ISUM_ISUM k + cur) / 4)).setF IG_CPLTOT_PEER k (cur / 4)

/-- A coupling frame to every linked member (R352). -/
def cplSendAll (d : Dev) (k typ : Nat) (pay : List (Nat × Nat × Int)) : Dev :=
  d.eachIn (cplLinks d k) fun d l => sendFrame d l.2 typ ((96, 8, (d.f IG_CPL_GROUP k : Int)) :: pay)

/-- A coupling frame to the member on link p. -/
def cplSendTo (d : Dev) (k p typ : Nat) (pay : List (Nat × Nat × Int)) : Dev :=
  d.eachIn ((cplLinks d k).filter fun l => l.1 == p) fun d l =>
    sendFrame d l.2 typ ((96, 8, (d.f IG_CPL_GROUP k : Int)) :: pay)

/-- HELLO to every linked member (R352). -/
def sendHello (d : Dev) (k : Nat) : Dev :=
  cplSendAll d k 0x22 [(88, 8, d.f LN_VER_CUR), (80, 8, d.f LN_VER_PREV), (64, 16, d.f IG_FEAT_FCUR),
    (48, 16, d.f IG_FEAT_FPREV), (44, 4, d.f IG_CPL_PRIO k), (42, 2, d.f IG_CPL_MYIDX k), (40, 2, d.f IG_CPL_NCFG k),
    (30, 9, (domPhases d k).length)]

/-- A device outside a set with quorum stands down: every phase of its rail is shed, the lead included (R354). -/
def standDown (d : Dev) (k : Nat) : Dev :=
  if cplRole d k = cplDown then d
  else
    let d := (setRole d k cplDown).set1 IG_RCAUSE_CPL_LOST k
    let d := d.eachIn (phasesIn d k phSwitching) fun d n => phSet d n phShed
    cplShow (d.setH .cTerm k 0) k

/-- How many members a set has. -/
def setSize (m : Nat) : Nat := popcount 4 m

/-- Whether a set has quorum (R354). -/
def quorum (d : Dev) (k m : Nat) : Bool :=
  let n := d.f IG_CPL_NCFG k + 1
  decide (n < 2 * setSize m) || (2 * setSize m == n && m.testBit 0)

/-- A set takes effect at this device (R354, R355): role, count, quorum, and the phases re-added, where the device had stood
down, or shed. DESIGN CHOICE (notes/assumptions/62.md): a peer whose HELLO has not come counts in the set by its MSTATE. -/
def applySet (d : Dev) (k m : Nat) (master : Bool) : Dev :=
  let me := m.testBit (d.f IG_CPL_MYIDX k)
  let q := quorum d k m
  let d := (d.setH .cSet k m).setF IG_CPLSTAT_QUORUM k (b2i q)
  let d := d.setF IG_CPLSTAT_NMEM k ((setSize m : Int) - 1)
  let d := { d with peers := d.peers.map fun x => if x.rail == k then { x with inSet := if x.hello then m.testBit x.idx else x.mstate == 1 } else x }
  if !me || !q then
    let gone := d.hon .cCarry k && !me
    let d := if gone then (d.set1 IG_RCAUSE_CARRY k).setH .cCarry k 0 else d
    standDown (d.setH .cLeft k (b2i gone)) k
  else
    let was := cplRole d k
    let d := setRole d k (if master then cplMaster else cplMember)
    let d := if was = cplMember || was = cplMaster then d else d.setH .cDt k 0
    cplShow (if was = cplDown || nsw d k = 0 then readdAll d k else d) k

/-- The versions a peer supports, and this device's own (R353). -/
def peerVers (x : Peer) : List Nat := [x.vcur, x.vprev]
def ownVers (d : Dev) : List Nat := [d.f LN_VER_CUR, d.f LN_VER_PREV]

/-- The versions common to this device and a list of peers. -/
def commonVers (d : Dev) (l : List Peer) : List Nat :=
  (ownVers d).filter fun v => l.all fun x => (peerVers x).contains v

/-- The features of version v at a peer and here (R355). -/
def featFor (cur prev fc fp v : Nat) : Nat := if v = cur then fc else if v = prev then fp else 0

/-- The election key (R353): (15 - PRIO, DEVID), the lower winning. -/
def keyLt (a b : Nat × Nat) : Bool := decide (a.1 < b.1) || (a.1 == b.1 && decide (a.2 < b.2))
def ownKey (d : Dev) (k : Nat) : Nat × Nat := (15 - d.f IG_CPL_PRIO k, ownDevid d)
def peerKey (x : Peer) : Nat × Nat := (15 - x.prio, x.devid)

/-- Whether this device, not yet in the set, leaves its members with no common version: it is refused (R353). -/
def refusedHere (d : Dev) (k : Nat) : Bool :=
  let ms := (peersOn d k).filter fun x => x.mstate == 1 && x.vcur != 0
  (cplRole d k = cplNone || cplRole d k = cplJoining) && !ms.isEmpty && (commonVers d ms).isEmpty

/-- Put a peer in its place among peers in ascending key order. -/
def insKey (x : Peer) : List Peer → List Peer
  | [] => [x]
  | y :: t => if keyLt (peerKey x) (peerKey y) then x :: y :: t else y :: insKey x t

/-- Peers in ascending key order. -/
def byKey (l : List Peer) : List Peer := l.foldl (fun a x => insKey x a) []

/-- The set the master admits: in ascending key order, each device heard by HELLO that leaves a common version (R353).
Refused devices set CPL_VER. -/
def admitSet (d : Dev) (k : Nat) : List Peer × Bool :=
  (byKey ((peersOn d k).filter fun x => x.heard && x.hello && !x.away)).foldl (fun acc x =>
    if (commonVers d (acc.1 ++ [x])).isEmpty then (acc.1, true) else (acc.1 ++ [x], acc.2)) ([], false)

/-- The version of a set, the highest common one, and its features, those all have for it (R355). -/
def setVer (d : Dev) (l : List Peer) : Nat := (commonVers d l).foldl max 0
def setFeat (d : Dev) (l : List Peer) : Nat :=
  let v := setVer d l
  let own := featFor (d.f LN_VER_CUR) (d.f LN_VER_PREV) (d.f IG_FEAT_FCUR) (d.f IG_FEAT_FPREV) v
  l.foldl (fun a x => a &&& featFor x.vcur x.vprev x.feat x.featp v) own

/-- The master announces an epoch (R355): its version and features, and ACT_SEQ four commit points ahead. `self` is whether
this device stays in the set. -/
def announce (d : Dev) (k : Nat) (l : List Peer) (self : Bool) : Dev :=
  let me : Nat := if self then 2 ^ d.f IG_CPL_MYIDX k else 0
  let m : Nat := l.foldl (fun a x => a ||| 2 ^ x.idx) me
  let v := setVer d l
  let ft := setFeat d l
  let e := (d.hn .cEpoch k + 1) % 256
  let act := (d.hn .cSeq k + 4) % 256
  let d := (d.setH .cEpoch k e).setH .cAnn k (v * 65536 + ft : Nat)
  let d := { d with epochs := d.epochs
      ++ [{ rail := k, epoch := e, act := act, ver := v, feat := ft, members := m, hit := false }] }
  cplSendAll d k 0x21 [(88, 8, e), (80, 8, act), (72, 8, v), (56, 16, ft), (52, 4, m)]

/-- The set last announced, or the one in effect. -/
def announcedSet (d : Dev) (k : Nat) : Nat :=
  match (d.epochs.filter fun x => x.rail == k).getLast? with
  | some e => e.members
  | none => d.hn .cSet k

/-- The master brings its set up to date: a change of VER, FEAT, membership or master is announced (R353, R355). One whose
own carry-over is accepted leaves its set at the epoch announced (R363). -/
def masterAdmit (d : Dev) (k : Nat) (fresh : Bool) : Dev :=
  if cplRole d k = cplMaster && !d.hon .cCarry k then
    let (l, refused) := admitSet d k
    let d := if refused then d.set1 IG_RCAUSE_CPL_VER k else d
    let m := l.foldl (fun a x => a ||| 2 ^ x.idx) (2 ^ d.f IG_CPL_MYIDX k)
    if !fresh && m = announcedSet d k && d.hn .cAnn k = setVer d l * 65536 + setFeat d l then d else announce d k l true
  else d

/-- With no master heard, the lowest-keyed linked device becomes master (R353); it starts ci from the last CI it heard
(R357). A device that left by a carry-over takes no part until it rejoins (R363). DESIGN CHOICE
(notes/assumptions/62.md): a peer known by CYCLE alone counts with PRIO 0. -/
def elect (d : Dev) (k : Nat) : Dev :=
  let r := cplRole d k
  let ps := (peersOn d k).filter fun x => x.heard && !x.away
  if rlState d k = rlOn && d.on IG_CPL_EN k && !d.hon .cLeft k && r != cplMaster && !d.hon .cElect k && !(ps.any fun x => x.master)
      && ps.all fun x => keyLt (ownKey d k) (peerKey x) then
    let d := (d.setH .cEpoch k (d.f IG_CPLSTAT_EPOCH k)).setH .cCi k (d.h .cCi k * 2 ^ cplShift d k)
    masterAdmit (setRole d k cplMaster) k true
  else masterAdmit d k false

/-- Whether a pending epoch of rail k is due (R355): at the master when its own SEQ is ACT_SEQ, at another device once the
master's CYCLE with that SEQ has come. DESIGN CHOICE (notes/assumptions/62.md): a master whose rail has no commit point
does not wait for its SEQ, which stands still. -/
def epochDue (d : Dev) (k : Nat) (e : Epoch) : Bool :=
  e.rail == k && (e.hit || (cplRole d k = cplMaster && (d.hn .cSeq k == e.act || (leadOf d k).isNone)))

/-- The epochs of rail k that are due take effect, in the order announced (R355); one announced before an epoch in effect is
out of date. -/
def epochApply (d : Dev) (k : Nat) : Dev :=
  match (d.epochs.filter (epochDue d k)).getLast? with
  | none => d
  | some e =>
    let mine := cplRole d k = cplMaster
    let rest := (d.epochs.filter fun (x : Epoch) => x.rail == k).reverse.takeWhile fun x => x != e
    let d := { d with epochs := (d.epochs.filter fun (x : Epoch) => x.rail != k) ++ rest.reverse }
    let d := (d.setF IG_CPLSTAT_EPOCH k e.epoch).setF IG_CPLSTAT_VER k e.ver
    let d := (d.setF IG_CPLSTAT2_FEAT k e.feat).set1 IG_RCAUSE_CPL_EPOCH k
    let d := d.when (!mine) fun d => d.setH .cEpoch k e.epoch
    applySet d k e.members mine

/-- The rails whose coupling uses the link led by lane L, with the link's number (R352). -/
def cplRails (d : Dev) (L : Nat) : List (Nat × Nat) :=
  (List.range 16).flatMap fun k =>
    if d.on IG_CPL_EN k then ((cplLinks d k).filter fun x => x.2 == L).map fun x => (k, x.1) else []

/-- Take a coupling frame from lane L (R352): of the rails linked over it, the one of its group; a frame of no such group is
discarded with DROP of each. -/
def takeCpl (d : Dev) (L group : Nat) (g : Dev → Nat → Nat → Dev) : Dev :=
  if linkUp d L then
    let rs := cplRails d L
    let mine := rs.filter fun x => d.f IG_CPL_GROUP x.1 == group
    if mine.isEmpty then d.eachIn rs fun d x => d.set1 IG_RCAUSE_DROP x.1 else d.eachIn mine fun d x => g d x.1 x.2
  else d

/-- A peer of which the identity of its link alone is known (R312): DEVID, and the versions PVER and PVER_MIN. -/
def blankPeer (d : Dev) (L k p : Nat) : Peer :=
  { rail := k, p := p, idx := 0, prio := 0, devid := leNat ((List.range 8).map fun j => pidByte d L (8 + j)),
    vcur := pidByte d L 2, vprev := pidByte d L 3, hello := false, feat := 0, featp := 0, nph := 0,
    heard := false, inSet := false, away := false, master := false, mstate := 0, isum := 0, nsw := 0, cap := 0,
    miss := 0 }

/-- HELLO_RECEIVE (R353): what it says is kept, a device with no common version sets CPL_VER, and election and admission
run. -/
def helloReceive (d : Dev) (L pay : Nat) : Dev :=
  takeCpl d L (payBits pay 103 96) fun d k p =>
    let o := (peerOf d k p).getD (blankPeer d L k p)
    let x := { o with idx := payBits pay 43 42, prio := payBits pay 47 44, vcur := payBits pay 95 88,
                      vprev := payBits pay 87 80, feat := payBits pay 79 64, featp := payBits pay 63 48,
                      nph := payBits pay 38 30, heard := true, hello := true,
                      devid := leNat ((List.range 8).map fun j => pidByte d L (8 + j)) }
    let d := setPeer d x
    let d := if (commonVers d [x]).isEmpty || refusedHere d k then d.set1 IG_RCAUSE_CPL_VER k else d
    elect d k

/-- CYCLE_RECEIVE (R357, R359, R361). -/
def cycleReceive (d : Dev) (L pay stamp : Nat) : Dev :=
  takeCpl d L (payBits pay 103 96) fun d k p =>
    let o := (peerOf d k p).getD (blankPeer d L k p)
    let ms := payBits pay 55 55 = 1
    let x := { o with heard := true, master := ms, mstate := payBits pay 54 52, away := o.away || payBits pay 54 52 == 3, isum := sext (payBits pay 79 64) 16,
                      nsw := payBits pay 62 56, cap := payBits pay 15 0, miss := 0 }
    let d := setPeer d x
    let d := d.when (refusedHere d k) fun d => d.set1 IG_RCAUSE_CPL_VER k
    let d :=
      if ms && cplRole d k != cplMaster then
        let d := d.setH .cCi k (sext (payBits pay 47 32) 16)
        let d := ((d.setH .cValley k ((stamp : Int) - d.f LN_LAT_RTT L / 2)).setH .cValleyOk k 1).setH .cAofs k
          (payBits pay 31 16)
        { d with epochs := d.epochs.map fun e =>
            if e.rail == k && e.act == payBits pay 87 80 then { e with hit := true } else e }
      else d
    cplShow d k

/-- EPOCH_RECEIVE (R355); a device left out for want of a common version sets CPL_VER (R353). -/
def epochReceive (d : Dev) (L pay : Nat) : Dev :=
  takeCpl d L (payBits pay 103 96) fun d k _ =>
    if cplRole d k = cplMaster then d
    else
      let e : Epoch := { rail := k, epoch := payBits pay 95 88, act := payBits pay 87 80, ver := payBits pay 79 72,
                         feat := payBits pay 71 56, members := payBits pay 55 52, hit := false }
      let d := { d with epochs := d.epochs ++ [e] }
      if !e.members.testBit (d.f IG_CPL_MYIDX k) && !(ownVers d).contains e.ver then d.set1 IG_RCAUSE_CPL_VER k else d

/-- A member is lost (R361): the master announces an epoch without it; a device that lost the master elects a new one after
MISS of its own commit points, and one left in a set without quorum stands down (R354). -/
def memberLost (d : Dev) (k p : Nat) : Dev :=
  match peerOf d k p with
  | none => d
  | some x =>
    if !x.heard && !x.inSet then d
    else
      let d := setPeer d { x with heard := false, inSet := false, master := false, isum := 0, nsw := 0, miss := 0 }
      let d := cplShow (if x.inSet then d.set1 IG_RCAUSE_CPL_LOST k else d) k
      let d := if cplRole d k = cplMaster then elect d k
        else if cplRole d k = cplMember && x.master then d.setH .cElect k (d.f IG_CPL_GAIN_MISS k) else d
      let left := ((peersOn d k).filter fun y => y.inSet).foldl (fun a y => a ||| 2 ^ y.idx) (2 ^ d.f IG_CPL_MYIDX k)
      if (cplRole d k = cplMaster || cplRole d k = cplMember) && !quorum d k left then
        standDown (d.setF IG_CPLSTAT_QUORUM k 0) k
      else d

/-- A link leaves ACTIVE: the member behind it is lost on every rail coupled over it (R361). -/
def cplLinkDown (d : Dev) (L : Nat) : Dev := d.eachIn (cplRails d L) fun d x => memberLost d x.1 x.2

/-- Whether the master may let the member on link p go (R363): the phases left number at least MINPH and their CAP
exceeds the group's present current. `p` = 3 stands for the master itself. DESIGN CHOICE (notes/assumptions/62.md): no
frame carries a peer's available phases; its NPH of HELLO stands for them, or NSW where no HELLO has come. -/
def carryOk (d : Dev) (k p : Nat) : Bool :=
  let ps := (peersOn d k).filter fun x => x.inSet && x.p != p
  let n := ps.foldl (fun a x => a + (if x.hello then x.nph else x.nsw)) (if p = 3 then 0 else navail d k)
  let c := ps.foldl (fun a x => a + x.cap) (if p = 3 then 0 else d.f RL_CAP_CAP k)
  decide (d.f IG_CPL_MINPH k ≤ n) && decide (d.fi FL_ISUM_ISUM k + d.h .cIsum k < (c * 4 : Nat))

/-- CARRY_RECEIVE (R363). -/
def carryReceive (d : Dev) (L pay : Nat) : Dev :=
  takeCpl d L (payBits pay 103 96) fun d k p =>
    let op := payBits pay 95 88
    if op = 0 then
      if cplRole d k = cplMaster then
        if carryOk d k p then
          let d := match peerOf d k p with
            | some x => setPeer d { x with away := true }
            | none => d
          let d := announce d k ((peersOn d k).filter fun x => x.inSet && x.p != p) true
          cplSendTo d k p 0x23 [(88, 8, 1), (80, 8, d.h .cEpoch k)]
        else cplSendTo d k p 0x23 [(88, 8, 2)]
      else d
    else if op = 1 then d.setH .cCarry k 1
    else if op = 2 then d.set1 IG_RCAUSE_CPL_VER k
    else if op = 3 then
      match peerOf d k p with
      | some x => masterAdmit (setPeer d { x with heard := true, away := false }) k false
      | none => d
    else d

/-- A write of 1 to IG_CPLCMD.CARRY (R363): a member asks the master; the master judges its own request. -/
def carryRequest (d : Dev) (k : Nat) : Dev :=
  if cplRole d k = cplMember then
    d.eachIn ((peersOn d k).filter fun x => x.master) fun d x => cplSendTo d k x.p 0x23 [(88, 8, 0)]
  else if cplRole d k = cplMaster then
    if carryOk d k 3 then announce (d.setH .cCarry k 1) k ((peersOn d k).filter fun x => x.inSet) false
    else d.set1 IG_RCAUSE_CPL_VER k
  else d

/-- A write of 1 to IG_CPLCMD.REJOIN (R363). -/
def rejoinRequest (d : Dev) (k : Nat) : Dev :=
  if d.on IG_CPL_EN k && cplRole d k != cplMaster && cplRole d k != cplMember then
    cplSendAll (((setRole d k cplJoining).setH .cDt k 0).setH .cLeft k 0) k 0x23 [(88, 8, 3)]
  else d

/-! ### At each commit point -/

/-- The device trim (R358). -/
def deviceTrim (d : Dev) (k : Nat) : Dev :=
  if cplRole d k = cplMaster || cplRole d k = cplMember then
    let n := nsw d k
    let isum := d.fi FL_ISUM_ISUM k
    let (ipg, d) := d.divFree ((isum + d.h .cIsum k) * 16) (n + d.h .cNsw k)
    let (ipl, d) := d.divFree (isum * 16) n
    let lim : Int := d.f IG_CPL_GAIN_DLIM k
    d.setH .cDt k (clampI (d.h .cDt k + asr (d.f IG_CPL_GAIN_KD k * (ipg - ipl)) 6) (-lim) lim)
  else d

/-- Rail time moves toward the master's by at most 32 taps, and by no more than leaves every phase's edges alone
(R359). -/
def railAlign (d : Dev) (k : Nat) : Dev :=
  if cplRole d k = cplMember && d.hon .cValleyOk k && domH d k != 0 then
    let p : Int := 2 * domH d k
    let want := ((d.now : Int) - d.h .cValley k) * 32 - d.h .cAofs k * p / 65536
    let res := sext' (want - d.h .railTime k) p
    let room : Int := (phasesIn d k phSwitching).foldl (fun a n => min a (max 0 ((domH d k : Int) - halfWidth d n - 32))) 32
    let mv := clampI res (-room) room
    let d := d.setH .railTime k ((d.h .railTime k + mv) % p)
    d.setF IG_CPLSTAT_ALIGN k (b2i (decide ((res - mv).natAbs < 64)))
  else d
where
  /-- x modulo p, brought nearest to 0. -/
  sext' (x p : Int) : Int := let y := x % p; if 2 * y < p then y else y - p

/-- The CYCLE frames of a commit point (R352, R360), and the misses counted towards R361. -/
def cycleSend (d : Dev) (k : Nat) : Dev :=
  let ps := (peersOn d k).filter fun x => x.inSet
  let ms := cplRole d k = cplMaster
  let mst : Int := if cplRole d k = cplDown then (if d.hon .cLeft k then 3 else 2)
    else if cplRole d k = cplJoining then 0 else 1
  let m := ps.foldl (fun a x => max a x.nsw) (nsw d k)
  let d := d.eachIn (cplLinks d k) fun d l =>
    let idx := match peerOf d k l.1 with | some x => x.idx | none => 0
    let aofs := if ms && m != 0 then idx * 65536 / ((ps.length + 1) * m) else 0
    let ci : Int := if ms then asr (d.h .cCi k) (cplShift d k) else 0
    cplSendTo d k l.1 0x20 [(88, 8, d.f IG_CPLSTAT_EPOCH k), (80, 8, d.h .cSeq k), (64, 16, d.fi FL_ISUM_ISUM k),
      (56, 7, nsw d k), (55, 1, b2i ms), (52, 3, mst), (32, 16, ci), (16, 16, aofs), (0, 16, d.f RL_CAP_CAP k)]
  { d with peers := d.peers.map fun x => if x.rail == k && x.inSet then { x with miss := x.miss + 1 } else x }

/-- Election at a commit point (R353, R361): a rail that has lost its master waits; one that hears peers and no master
elects. -/
def cplElect (d : Dev) (k : Nat) : Dev :=
  if d.hon .cElect k then
    let d := d.setH .cElect k (d.h .cElect k - 1)
    if d.hon .cElect k then d else elect d k
  else if (peersOn d k).any fun x => x.heard then elect d k
  else d

/-- What a commit point of a coupled rail does (R352, R353, R355, R358, R359). -/
def cplCommit (d : Dev) (k : Nat) : Dev :=
  if d.on IG_CPL_EN k then
    let d := cplElect (d.setH .cSeq k ((d.h .cSeq k + 1) % 256)) k
    cplShow (cycleSend (railAlign (deviceTrim (epochApply d k) k) k) k) k
  else d

/-! ### The commands -/

/-- A coupling flit of lane l crosses to the intent logic (R28, R29): a full crossing drops it, with DROP of the rails
coupled over its link. -/
def cplCross (d : Dev) (l : Nat) (g : Dev → Dev) : Dev :=
  d.heard l fun d =>
    if 16 ≤ d.laneFill l then d.eachIn (cplRails d (leadLane d l)) fun d x => d.set1 IG_RCAUSE_DROP x.1 else g (d.laneIn l)

/-- CYCLE_RECEIVE (R357): the frame's payload and its stamp (R32). -/
def execCycleReceive (l : Lane) (pay : BitVec 104) (stamp : BitVec 64) (s : State) : Host.Outcome State Fault Refusal :=
  s.svc fun d => cplCross d l fun d => cycleReceive d (leadLane d l) pay.toNat stamp.toNat

/-- EPOCH_RECEIVE (R355). -/
def execEpochReceive (l : Lane) (pay : BitVec 104) (s : State) : Host.Outcome State Fault Refusal :=
  s.svc fun d => cplCross d l fun d => epochReceive d (leadLane d l) pay.toNat

/-- Whether rail k sends a HELLO: a link has come up, or, while it is no member, 1 ms has passed since the last (R352). -/
def helloDue (d : Dev) (k : Nat) : Bool :=
  d.hon .cHelloDue k || (cplRole d k != cplMaster && cplRole d k != cplMember && d.hn .cHelloAt k ≤ d.now + 1 - 2000000)

/-- HELLO_SEND (R352): at link-up, and every 1 ms while not a member. -/
def execHelloSend (k : Rail) (s : State) : Host.Outcome State Fault Refusal :=
  s.svc fun d => d.when (d.on IG_CPL_EN k && helloDue d k) fun d =>
    let d := (d.setH .cHelloAt k (d.now + 1 : Nat)).setH .cHelloDue k 0
    sendHello (if cplRole d k = cplNone then d.setF IG_CPLSTAT_ROLE k cplJoining else d) k

/-- HELLO_RECEIVE (R353). -/
def execHelloReceive (l : Lane) (pay : BitVec 104) (s : State) : Host.Outcome State Fault Refusal :=
  s.svc fun d => cplCross d l fun d => helloReceive d (leadLane d l) pay.toNat

/-- CARRY_RECEIVE (R363). -/
def execCarryReceive (l : Lane) (pay : BitVec 104) (s : State) : Host.Outcome State Fault Refusal :=
  s.svc fun d => cplCross d l fun d => carryReceive d (leadLane d l) pay.toNat

/-- MEMBER_LOST (R361): MISS CYCLE frames in a row of link p have not come. -/
def execMemberLost (k : Rail) (p : Fin 3) (s : State) : Host.Outcome State Fault Refusal :=
  s.svc fun d => d.when ((peersOn d k).any fun x => x.p == p.val && decide (d.f IG_CPL_GAIN_MISS k ≤ x.miss)) fun d =>
    memberLost d k p

end Sys2Proof.Machine
end

