-- ==== Sys2Proof/Machine/FastLoop.lean ====
section
/-! DEFINITION. The fast loop (spec/02): window conversion, ramp, positioning, compensator, loop modes, feedforward,
commit of double-buffered values and freezing. -/

namespace Sys2Proof.Machine

/-! ### Double-buffered registers (R22, R23, R72 to R78) -/

/-- A software write reaches the shadow of a double-buffered register: it becomes pending, or waits for HOLD (R75).
DESIGN CHOICE (notes/assumptions/10.md): a change of a phase still pending when PH_ROLE moves the phase to another rail
keeps the commit domain it had at its write; R23 does not say which rail's commit point applies it. -/
def pushSw (d : Dev) (dom : Nat) (R : Reg) (i : Nat) (w : Word) : Dev :=
  let d := d.setR R i w
  let e : DbWrite := { dom := dom, addr := R.addr i, rst := R.reset i, val := w, stamp := d.now }
  if dom < 16 && d.on FL_CMT_HOLD dom then { d with heldSw := d.heldSw ++ [e] } else { d with pendSw := d.pendSw ++ [e] }

/-- HOLD is cleared: the rail's held writes become pending together (R75). -/
def releaseHold (d : Dev) (k : Nat) : Dev :=
  { d with pendSw := d.pendSw ++ (d.heldSw.filter fun e => e.dom == k).map fun e => { e with stamp := d.now },
           heldSw := d.heldSw.filter (fun e => e.dom != k) }

/-- One pending write reaches the active copy (R23). -/
def applyDb (d : Dev) (e : DbWrite) : Dev := { d with act := Store.put d.act e.addr e.val e.rst }

/-- The gain shift in effect (R55). -/
def gsh (d : Dev) (k : Nat) : Nat := if d.aon FL_CFG_BANK k then d.a FL_G_GSH_GSH k else d.a FL_S_GSH_GSH k

/-- R58: a changed gain shift shifts i, y1 and y2, so that u >> s keeps its value. -/
def shiftComp (d : Dev) (k g g' : Nat) : Dev :=
  let sh (x : Int) : Int := if g ≤ g' then sat (x * 2 ^ (g' - g)) 40 else asr x (g - g')
  if g = g' then d
  else ((d.setH .integ k (sh (d.h .integ k))).setH .outY1 k (sh (d.h .outY1 k))).setH .outY2 k (sh (d.h .outY2 k))

/-- Whether a grove value in use lies beyond its bound (R54). -/
def groveBeyond (d : Dev) (k : Nat) : Bool :=
  (d.aon FL_CFG_LL_SRC k && (d.a FL_G_LL_SLOPE k < d.a FL_LL_LIM_MIN k || d.a FL_LL_LIM_MAX k < d.a FL_G_LL_SLOPE k))
  || (d.aon FL_CFG_OFS_EN k && (d.a FL_OFS_LIM_LIM k : Int) < (d.ai FL_G_OFS_OFS k).natAbs)

/-- Whether rail k is in soft start. -/
def inSoftStart (d : Dev) (k : Nat) : Bool := rlState d k == rlSoftStart

/-- The target the reference moves to: 0 in a stop of mode RAMP, else FL_REF.TGT, with 8 fraction bits (R49, R214). -/
def refTarget (d : Dev) (k : Nat) : Int :=
  if rlState d k = rlStopping && d.h .stopMode k = 0 then 0 else d.a FL_REF_TGT k * 25600

/-- RAMP_DONE is raised (R51, R188). -/
def rampDoneEv (d : Dev) (k : Nat) : Dev := (d.raiseRail k 1).setH .rampDone k 1

/-- Set r (R49). -/
def setRef (d : Dev) (k : Nat) (x : Int) : Dev := (d.setH .refFrac k x).setF FL_REFNOW_REF k (asr x 8)

/-- Whether a pending write takes part in a commit of domain k made before tick `upTo` (R77). -/
def dueAt (k upTo : Nat) (e : DbWrite) : Bool := e.dom == k && decide (e.stamp < upTo)

/-- Every write of commit domain `k` that became pending before tick `upTo` becomes active together, with what the change
does at once: the reference step (R50), the gain shift (R58), the clamp causes (R54, R108), the bound flags of the
period (R97), the rail's capacity (R210) and the start-up of a phase that NOSTAGE makes eligible (R213). DESIGN CHOICE (notes/assumptions/10.md): a committed FL_REF with STEP 1 makes no step while the rail stops
in mode RAMP with its loop running; R50 does not say what it does there. -/
def applyPending (d : Dev) (k upTo : Nat) : Dev :=
  let sw := d.pendSw.filter (dueAt k upTo)
  let gv := if k < 16 && frozen d k then [] else d.pendGv.filter (dueAt k upTo)
  let all := sw ++ gv
  let d0 := d
  let d := all.foldl applyDb d
  let d := { d with pendSw := d.pendSw.filter (fun e => !dueAt k upTo e),
                    pendGv := if k < 16 && frozen d k then d.pendGv else d.pendGv.filter (fun e => !dueAt k upTo e) }
  let d := (List.range 64).foldl (fun d n =>
    if all.any (fun e => e.addr == PH_G_SHARE.addr n || e.addr == PH_CFG.addr n) && d.aon PH_CFG_SHARE_SRC n
        && (d.a PH_G_SHARE_W n < 205 || 256 < d.a PH_G_SHARE_W n) then d.set1 PH_CAUSE_CLAMP n else d) d
  if k < 16 then
    let d := shiftComp d k (gsh d0 k) (gsh d k)
    let chg (R : Reg) : Bool := d.ar R k != d0.ar R k
    let d := if (chg FL_G_LL || chg FL_G_OFS || chg FL_LL_LIM || chg FL_OFS_LIM || chg FL_CFG) && groveBeyond d k
      then d.set1 FL_CAUSE_CLAMP k else d
    let d := if all.any (fun e => e.addr == FL_REF.addr k) && d.aon FL_REF_STEP k && flMode d k != flOff
        && !inSoftStart d k && rlState d k != rlStopping then
        let t : Int := d.a FL_REF_TGT k * 25600
        let d := if d.h .refFrac k ≠ t then rampDoneEv d k else d
        (setRef d k t).setH .refStep k 1
      else d
    let d := setPer d k (domH d k)
    if (List.range 64).any fun n => all.any fun e => e.addr == PH_CFG.addr n then hotAttach (settleCap d k) k else d
  else d

/-- A pending write is discarded: its shadow returns to the active value (R80; notes/assumptions/10.md). -/
def undoDb (d : Dev) (e : DbWrite) : Dev :=
  { d with regs := Store.put d.regs e.addr (Store.get d.act e.addr e.rst) e.rst }

/-- A rail freezes: grove passes that wait for a commit point are discarded (R79 to R81). -/
def freeze (d : Dev) (k : Nat) : Dev :=
  let gone := d.pendGv.filter fun e => e.dom == k
  let d := gone.foldl undoDb { d with pendGv := d.pendGv.filter fun e => e.dom != k }
  let d := if gone.isEmpty then d else d.set1 FL_CAUSE_DISCARD k
  (d.setF FL_STATUS_FROZEN k 1).setH .frzGlade k (b2i (frozen d k && d.hon .frzGlade k))

/-- A frozen rail leaves the frozen state once STALE and GLADE are clear. AGE restarts there where STALE alone froze the
rail, and where the rail has no commit point (`idle`); else it goes on counting since the last grove pass (R79, R82). -/
def unfreeze (d : Dev) (k : Nat) (idle : Bool) : Dev :=
  if frozen d k && !d.on FL_STEER_STALE k && !d.on FL_STEER_GLADE k then
    let e := d.setF FL_STATUS_FROZEN k 0
    if idle || !d.hon .frzGlade k then e.setF FL_STEER_AGE k 0 else e
  else d

/-- GLADE freezes rail k (R81). -/
def gladeFreeze (d : Dev) (k : Nat) : Dev := (freeze (d.setF FL_STEER_GLADE k 1) k).setH .frzGlade k 1

/-- R98, R99: at a commit point the active H moves toward its target, and t is rescaled. -/
def perStep (d : Dev) (k : Nat) : Dev :=
  let h0 : Int := domH d k
  let t : Int := perTarget d k
  let fs : Int := d.a PH_RLOCK_FSTEP k
  let h1 := if fs = 0 then t else h0 + clampI (t - h0) (-fs) fs
  setPer (rescale d k h0 h1) k h1.toNat

/-- The part of a commit point of a switching rail that belongs to the fast loop: the DSAT check (R708), the pending
writes (R72, R77), the COMMIT event and count (R78), AGE (R79), leaving the frozen state (R82) and the period step
(R98). -/
def commitLoop (d : Dev) (k : Nat) : Dev :=
  let d := if d.hon .satValid k && (d.hon .satHiAll k || d.hon .satLoAll k) then d.set1 FL_CAUSE_DSAT k else d
  let d := match leadOf d k with
    | some n => d.setH .ghostEnd n (d.now * 32 + 65 : Nat)
    | none => d
  let d := applyPending d k d.now
  let d := (d.setF FL_CMT_COUNT k (d.f FL_CMT_COUNT k + 1)).raiseRail k 0
  let d := if d.on FL_STEER_GV_EN k then d.incSat FL_STEER_AGE k else d
  let d := perStep (unfreeze d k false) k
  leadCheck (((d.setH .satValid k 1).setH .satHiAll k 1).setH .satLoAll k 1) k

/-- R74, R82, R100, R114: a domain with no switching phase applies its pending changes, raising no COMMIT event. The
command stands for the LCLK cycle after the one in which they became pending. -/
def commitIdle (d : Dev) (k : Nat) : Dev :=
  let d := applyPending d k (d.now + 1)
  if k < 16 then idlePer (unfreeze d k true) k else d

/-! ### One LCLK cycle of one rail -/

/-- The summed phase current of a rail's active phases, in 0.25 A (R53, R116). -/
def railSum (d : Dev) (k : Nat) : Int := (switching d k).foldl (fun a n => a + d.fi PH_IMEAS_I n) 0

/-- The load-line slope in use (R53, R54). -/
def slopeUsed (d : Dev) (k : Nat) : Nat :=
  if d.aon FL_CFG_LL_SRC k then max (min (d.a FL_G_LL_SLOPE k) (d.a FL_LL_LIM_MAX k)) (d.a FL_LL_LIM_MIN k)
  else d.a FL_LL_SLOPE k

/-- The feedforward duty term after its bound, 0 while ignored (R69, R70). DESIGN CHOICE (notes/assumptions/10.md): 'while
the rail is frozen under Glade' is read as while GLADE is set, and what the intent logic has withdrawn at the entry still
ramps to 0 as R71 says, so that under GLADE only withdrawn terms are presented (ffPresent). -/
def ffdUsed (d : Dev) (k : Nat) : Int :=
  if !d.aon FL_CFG_FF_EN k || flMode d k == flStrike || flMode d k == flRelease then 0
  else clampI (d.h .ffdIn k) (-(d.a FL_FF_FFD_MAX k)) (d.a FL_FF_FFD_MAX k)

/-- The feedforward voltage term after its bound, in DAC LSB, 0 while ignored (R53, R70). -/
def ffvUsed (d : Dev) (k : Nat) : Int :=
  if !d.aon FL_CFG_FF_EN k then 0
  else clampI (d.h .ffvIn k) (-(d.a FL_FF_FFV_MAX k)) (d.a FL_FF_FFV_MAX k)

/-- The reference ramp (R49, R51). -/
def rampStep (d : Dev) (k : Nat) : Dev :=
  let t := refTarget d k
  let r0 := d.h .refFrac k
  let rate : Int := if rlState d k = rlStopping && d.h .stopMode k = 0 then d.f RL_OFF_RATE k
    else if inSoftStart d k then d.a FL_RAMP_SS_RATE k else d.a FL_RAMP_SLEW k
  let r1 := if r0 < t then min (r0 + rate) t else max (r0 - rate) t
  let d := setRef d k r1
  if r1 = t && r0 ≠ t then rampDoneEv d k else d

/-- The positioned reference p (R53). -/
def positionStep (d : Dev) (k : Nat) : Dev :=
  let isum := railSum d k
  let f0 := d.h .isumF k
  let isf := f0 + asr (isum - f0) (d.a FL_LL_SHIFT k)
  let mx : Int := d.a FL_LL_MAXDROP k * 2048
  let droop := if d.aon FL_CFG_LL_EN k then clampI (asr (slopeUsed d k * isf * 167772) 16) (-mx) mx else 0
  let lim : Int := d.a FL_OFS_LIM_LIM k
  let ofs := if d.aon FL_CFG_OFS_EN k then clampI (d.ai FL_G_OFS_OFS k) (-lim) lim * 100 else 0
  let p := asr (d.h .refFrac k) 8 - droop + ofs + ffvUsed d k * 100
  (((d.setH .isumF k isf).setF FL_DROOP_DROOP k droop).setF FL_ISUM_ISUM k isum).setH .posRef k p

/-- A coefficient of the bank in use (R55). -/
def coef (d : Dev) (k : Nat) (s g : Fld) : Int := if d.aon FL_CFG_BANK k then d.ai g k else d.ai s k

/-- The compensator (R55, R56) on the error `x` of a sample that is over-range or not. DESIGN CHOICE
(notes/assumptions/10.md): of 'the previous cycle had dsat_hi and x > 0' the model takes dsat_hi of the previous cycle
and x of this one; R56 does not say whose x it means. -/
def compensate (d : Dev) (k : Nat) (x : Int) (ovr : Bool) : Dev :=
  let m := flMode d k
  let hold := (d.on FL_STATUS_DSAT_HI k && decide (0 < x)) || (d.on FL_STATUS_DSAT_LO k && decide (x < 0))
    || m == flStrike || m == flRelease || (ovr && !d.aon FL_CFG_OVR_INT k)
  let s := 8 + gsh d k
  let i0 := d.h .integ k
  let i1 := if hold then i0
    else clampI (sat (i0 + asr (coef d k FL_S_KI_COEF FL_G_KI_COEF * x) 6) 40)
      (d.a FL_ILIM_IMIN k * 2 ^ s) (d.a FL_ILIM_IMAX k * 2 ^ s)
  let x1 := d.h .errX1 k
  let x2 := d.h .errX2 k
  let y1 := d.h .outY1 k
  let y2 := d.h .outY2 k
  let y := sat (asr (coef d k FL_S_B0_COEF FL_G_B0_COEF * x + coef d k FL_S_B1_COEF FL_G_B1_COEF * x1
      + coef d k FL_S_B2_COEF FL_G_B2_COEF * x2) 6
    - asr (coef d k FL_S_A1_COEF FL_G_A1_COEF * y1 + coef d k FL_S_A2_COEF FL_G_A2_COEF * y2) 22) 40
  let u := asr (sat (i1 + y) 40) s
  let dc := usat (u + ffdUsed d k) 16
  let dmin : Int := dutyMin d k
  let dmax : Int := dutyMax d k
  let hi := decide (dmax ≤ dc)
  let lo := decide (dc ≤ dmin)
  let d := ((((d.setH .integ k i1).setH .errX2 k x1).setH .errX1 k x).setH .outY2 k y1).setH .outY1 k y
  let d := (d.setF FL_DUTY_D k (clampI dc dmin dmax)).setF FL_STATUS_INT_HOLD k (b2i hold)
  let d := d.setH .dLine (k * 8 + d.now % 8) u
  let d := (d.setF FL_STATUS_DSAT_HI k (b2i hi)).setF FL_STATUS_DSAT_LO k (b2i lo)
  let d := if hi then d else d.setH .satHiAll k 0
  if lo then d else d.setH .satLoAll k 0

/-- The centre follows the positioned reference (R47, R48). -/
def centreTrack (d : Dev) (k : Nat) : Dev :=
  let c0 : Int := d.f FL_WIN_CENTRE k
  let t := clampI ((d.h .posRef k + 50) / 100) 0 16383
  moveCentre (d.setH .refStep k 0) k (if d.hon .refStep k then t else c0 + clampI (t - c0) (-4) 4)

/-- One step of the pre-bias search on a window sample of the output `v`, in F: its sign settles the bit under trial, and
the next bit is tried (R193). -/
def pbStep (d : Dev) (k : Nat) (v : Int) : Dev :=
  match d.hn .pbLeft k with
  | 0 => d
  | b + 1 =>
    let c0 : Int := d.f FL_WIN_CENTRE k
    let c1 := if v < c0 * 100 then c0 - 2 ^ b else c0
    moveCentre ((d.setH .pbLeft k b).setH .pbTick k 0) k (if b = 0 then c1 else c1 + 2 ^ (b - 1))

/-- The search takes one step every 16 LCLK cycles (R193). -/
def pbCycle (d : Dev) (k : Nat) (v : Int) : Dev :=
  if 15 ≤ d.hn .pbTick k then pbStep d k v else d.setH .pbTick k (d.h .pbTick k + 1)

/-! ### Strike and release (R62 to R68) -/

/-- The force of a strike or release on the phases that are SWITCHING at its entry (R66, R67, R91): on for a strike, the
low side on or TRI for a release. -/
def force (d : Dev) (k : Nat) (strike : Bool) : Dev :=
  let l := switching d k
  let d := ((d.setH .forceMask k 0).setH .forceCbc k 0).eachIn l fun d n => d.setHbit .forceMask k n true
  d.eachIn l fun d n =>
    if strike then
      if d.on PH_STATUS_CBC n then d else (setPwm d n pwmHigh).setH .pulseMade n 1
    else setPwm d n (if d.aon FL_CFG_REL_MODE k || nsAct d k || d.hon .negTri n then pwmTri else pwmLow)

/-- The loop enters STRIKE or RELEASE, from any state (R62); a strike re-adds shed phases when ADD_STRIKE is 1
(R202). -/
def enterForced (d : Dev) (k : Nat) (strike : Bool) : Dev :=
  let d := (d.setF FL_STATUS_MODE k (if strike then flStrike else flRelease)).setH .modeTime k 0
  let d := d.eachIn (switching d k) fun d n => d.setH .restFrom n 0
  if strike then
    let d := force (((d.set1 FL_CAUSE_STRIKE k).raiseRail k 2).incSat FL_COUNT_STRIKES k) k true
    if d.on RL_COP_ADD_STRIKE k then readdAll d k else d
  else force (((d.set1 FL_CAUSE_RELEASE k).raiseRail k 3).incSat FL_COUNT_RELEASES k) k false

/-- Start a hold-off timer (R63); one of length 0 has run out. -/
def startHoldoff (d : Dev) (k : Nat) (strike : Bool) : Dev :=
  if strike then (if d.a FL_STRIKE_HOLDOFF k = 0 then d else d.setH .strikeHoldoff k 1)
  else (if d.a FL_RELEASE_HOLDOFF k = 0 then d else d.setH .releaseHoldoff k 1)

/-- The force is removed and the loop enters RESTORE (R62, R68). DESIGN CHOICE (notes/assumptions/10.md): phases that were
forced together stand together, at the active angle of the lead phase, and return from there, and so do those that R67
lets follow RESTORE with them; R68 does not say from which angle their equal steps start. -/
def enterRestore (d : Dev) (k : Nat) (strike : Bool) : Dev :=
  let d := (d.setF FL_STATUS_MODE k flRestore).setH .restoreCnt k 0
  let d := match leadOf d k with
    | some m =>
      let a := d.f PH_ANGNOW_ANG m
      d.eachIn (switching d k) fun d n => (d.setH .restFrom n (a + 1 : Nat)).setF PH_ANGNOW_ANG n a
    | none => d
  startHoldoff ((d.setH .forceMask k 0).setH .forceCbc k 0) k strike

/-- Whether R64 inhibits entry to STRIKE or RELEASE. -/
def inhibited (d : Dev) (k : Nat) (strike : Bool) : Bool :=
  (inSoftStart d k && !d.aon FL_CFG_SS_STRIKE k) || (rlState d k == rlStopping && d.h .stopMode k == 0)
  || (strike && d.hon .dOn k)

/-- The error calls for a strike, and for a release (R62); a threshold of 0 disables the mode. -/
def strikeEnter (d : Dev) (k : Nat) (x : Int) : Bool :=
  d.a FL_STRIKE_TH k != 0 && decide ((d.a FL_STRIKE_TH k * 256 : Nat) < x) && !inhibited d k true
def releaseEnter (d : Dev) (k : Nat) (x : Int) : Bool :=
  d.a FL_RELEASE_TH k != 0 && decide (x < -((d.a FL_RELEASE_TH k * 256 : Nat) : Int)) && !inhibited d k false

/-- Whether a strike or release has lasted its limit (R62). -/
def atLimit (d : Dev) (k : Nat) (strike : Bool) : Bool :=
  (if strike then d.a FL_STRIKE_TMAX k else d.a FL_RELEASE_TMAX k) * 4 ≤ d.hn .modeTime k

/-- The transitions of R62 that the error of the newest sample decides. A strike or release at its limit waits for the
limit's own command. -/
def modeStep (d : Dev) (k : Nat) (x : Int) : Dev :=
  let m := flMode d k
  if m = flRun || m = flRestore then
    if strikeEnter d k x && !d.hon .strikeHoldoff k then enterForced d k true
    else if releaseEnter d k x && !d.hon .releaseHoldoff k then enterForced d k false
    else d
  else if m = flStrike then
    let d := d.setH .modeTime k (d.h .modeTime k + 1)
    if releaseEnter d k x then enterForced (startHoldoff (startHoldoff d k false) k true) k false
    else if atLimit d k true then d
    else if x ≤ (d.a FL_STRIKE_EXIT k * 256 : Nat) then enterRestore d k true
    else d
  else if m = flRelease then
    let d := d.setH .modeTime k (d.h .modeTime k + 1)
    if strikeEnter d k x then enterForced (startHoldoff (startHoldoff d k true) k false) k true
    else if atLimit d k false then d
    else if -((d.a FL_RELEASE_EXIT k * 256 : Nat) : Int) ≤ x then enterRestore d k false
    else d
  else d

/-! ### The rail's comparators (R231 to R234, R242) -/

/-- Shift a raw output into a history of M outputs (R232). -/
def histNext (hist m : Nat) (raw : Bool) : Nat := (2 * hist + b2n raw) % 2 ^ m

/-- The majority filter (R232). -/
def majority (hist m n : Nat) : Bool := n ≤ popcount 15 (hist % 2 ^ m)

/-- Whether the test window of rail k is open: FB_RTEST.LEN µs from the write of GO (R234). -/
def testOpen (d : Dev) (k : Nat) : Bool :=
  d.hon .testBlank k && d.now + 1 < d.hn .testBlank k + d.f FB_RTEST_LEN k * 2000

/-- Whether the over- and under-voltage comparators are blanked (R220, R234). -/
def blanked (d : Dev) (k : Nat) : Bool := rlState d k != rlOn || d.hon .ssBlank k || testOpen d k

/-- The thresholds of the comparators of rail k, in DAC LSB (R231). -/
def thOv (d : Dev) (k : Nat) : Int :=
  usat (asr (asr (d.h .refFrac k) 8 / 100 * (64 + d.f FB_RADAPT_OV_FE k)) 6) 14
def thUv (d : Dev) (k : Nat) : Int :=
  usat (asr (d.h .posRef k / 100 * (64 - (d.f FB_RADAPT_UV_FE k : Int))) 6) 14

/-- Whether a comparator test drives the thresholds of rail k in this cycle: 64 cycles each (R235). -/
def testing (d : Dev) (k : Nat) : Bool := d.on FB_RTEST_BUSY k && d.hn .testCnt k < 128

/-- The level a comparator test drives them to (R235). -/
def testLevel (d : Dev) (k : Nat) : Int := if d.hn .testCnt k < 64 then 16383 else 0

/-- A comparator test takes note of the raw outputs of this cycle (R235). -/
def testStep (d : Dev) (k : Nat) (ov uv : Bool) : Dev :=
  if testing d k then
    let seen := if d.hn .testCnt k < 64 then b2n (!ov) + 2 * b2n uv else 4 * b2n ov + 8 * b2n (!uv)
    (d.setH .testSeen k (d.hn .testSeen k ||| seen : Nat)).setH .testCnt k (d.h .testCnt k + 1)
  else d

/-- The shortest drop of EFUSE_EN begins anew where a filtered rail output falls that selects EFUSE and does not latch
(R228); `was`: FB_RSTAT before. -/
def railFell (d : Dev) (k : Nat) (was : Word) : Dev :=
  d.each 3 fun d s =>
    if bitsOf was s 1 != 0 && bitsOf (d.r FB_RSTAT k) s 1 == 0 && !d.on (FB_RACT_LATCH s) k && d.on (FB_RACT_EFUSE s) k
    then d.setH .efuseMin 0 1 else d

/-- One sample of one voltage comparator: history, filtered output, near misses while adaptation is enabled (R242). -/
def voltComp (d : Dev) (k : Nat) (raw blank : Bool) (hist rawV done near : Hid) (n m : Fld) (out : Fld) : Dev :=
  let hi := histNext (d.hn hist k) (d.f m k) raw
  let o := majority hi (d.f m k) (d.f n k) && !blank
  let d := if raw && !d.hon rawV k && !o && d.on FB_RADAPT_EN k then d.setH near k (d.h near k + 1) else d
  let d := ((d.setH hist k hi).setH rawV k (b2i raw)).setF out k (b2i o)
  if o then d else d.setH done k 0

/-- One sample `v` (in F) of a rail's comparators, against the thresholds set in the cycle before, or those of a test. -/
def railComps (d : Dev) (k : Nat) (v : Int) : Dev :=
  let bl := blanked d k
  let was := d.r FB_RSTAT k
  let ov := decide ((if testing d k then testLevel d k else thOv d k) * 100 < v)
  let uv := decide (v < (if testing d k then testLevel d k else thUv d k) * 100)
  let d := testStep d k ov uv
  let ab := d.on FB_RABS_TH k && decide ((d.f FB_RABS_TH k * 100 : Nat) < v)
  let d := voltComp d k ov bl .ovHist .ovRaw .ovDone .ovNear FB_RFILT_OV_N FB_RFILT_OV_M FB_RSTAT_OV
  let d := voltComp d k uv bl .uvHist .uvRaw .uvDone .uvNear FB_RFILT_UV_N FB_RFILT_UV_M FB_RSTAT_UV
  let hi := histNext (d.hn .absHist k) (d.f FB_RFILT_ABS_M k) ab
  let o := majority hi (d.f FB_RFILT_ABS_M k) (d.f FB_RFILT_ABS_N k)
  let d := (d.setH .absHist k hi).setF FB_RSTAT_ABS k (b2i o)
  let d := if o then d else d.setH .absDone k 0
  railFell (d.setF FB_RSTAT_BLANK k (b2i bl)) k was

/-- The integration of the energy meter every 16 LCLK cycles while the loop is not OFF (R556). -/
def meterStep (d : Dev) (k : Nat) : Dev :=
  if d.now % 16 = 0 && flMode d k != flOff then
    let e := d.h .vSense k * d.fi FL_ISUM_ISUM k * d.f IG_COUT_VDIV k
    if 0 < e then d.setH .emD k (d.h .emD k + e) else d.setH .emR k (d.h .emR k - e)
  else d

/-- The duty command on its way to the edges: an edge takes its position from a sample taken at least 8 LCLK cycles,
4.0 ns, before it (R44), and from the feedforward term presented 3 cycles before it (R69); so the term of this cycle joins
what the compensator made of the sample of 5 cycles ago. -/
def dutyLine (d : Dev) (k : Nat) : Dev :=
  let u := d.h .dLine (k * 8 + (d.now + 3) % 8)
  let dd := if flMode d k = flOff then 0 else clampI (usat (u + ffdUsed d k) 16) (dutyMin d k) (dutyMax d k)
  (d.setH .dEdge k (d.h .dForm (k * 4 + (d.now + 1) % 4))).setH .dForm (k * 4 + d.now % 4) dd

/-- One LCLK cycle of the fast loop of rail k on the sampled output `v`, in F (R43 to R64). The mode is decided on a
sample before the sample is compensated, as R43 and R65 order the two (notes/assumptions/10.md). The voltage is floored to
whole F, which no conversion can tell from the exact one. -/
def loopCycle (d : Dev) (k : Nat) (v : Int) : Dev :=
  let d := railComps d k v
  let c0 : Int := d.f FL_WIN_CENTRE k
  let c := clampI ((v - c0 * 100) / 256) (-256) 255
  let ovr := c == -256 || c == 255
  let vs := c0 * 100 + c * 256
  let d := ((d.setF FL_WIN_CODE k c).setF FL_STATUS_OVR k (b2i ovr)).setH .vSense k vs |>.setH .vPin k v
  let d := d.setH .ovrRun k (if ovr then d.h .ovrRun k + 1 else 0)
  let settle := d.hon .settleLeft k
  let d := (d.setF FL_STATUS_SETTLE k (b2i settle)).setH .settleLeft k (max 0 (d.h .settleLeft k - 1))
  let d := ffPresent d k
  let d := meterStep d k
  if flMode d k = flOff then
    let d := ((d.setF FL_DUTY_D k 0).setH .satHiAll k 0).setH .satLoAll k 0
    let d := dutyLine (positionStep (d.setH .dLine (k * 8 + d.now % 8) 0) k) k
    if rlState d k = rlPrebias then pbCycle d k v
    else if d.on ST_CTL_EN && d.f ST_CFG_SNS_RAIL == k then
      d.setF FL_WIN_CENTRE k (clampI (c0 + clampI c (-4) 4) 0 16383)
    else d
  else
    let d := positionStep (rampStep d k) k
    let x0 := sat (d.h .posRef k - vs) 18
    let x := if settle then d.h .errValid k else x0
    let d := (d.setH .errValid k x).setF FL_ERR_X k x
    let d := dutyLine (compensate (modeStep d k x) k x ovr) k
    let d := d.setH .pgBad k (if x.natAbs > d.f RL_PG_WIN k * 256 then d.h .pgBad k + 1 else 0)
    let lag := inSoftStart d k && (decide ((d.f RL_TRK_TH k * 256 : Nat) < x) || c == -256)
    centreTrack (d.setH .trkRun k (if lag then d.h .trkRun k + 1 else 0)) k

/-- The state-window flags that follow from the feedforward terms (FL_FFNOW, FL_STATUS.FF_ACT). -/
def ffShow (d : Dev) (k : Nat) : Dev :=
  let d := (d.setF FL_FFNOW_FFD k (ffdUsed d k)).setF FL_FFNOW_FFV k (ffvUsed d k)
  d.setF FL_STATUS_FF_ACT k (b2i (d.h .ffdIn k != 0 || d.h .ffvIn k != 0))

/-- The rail sequencer starts the loop of rail k at a start value, in DAC LSB (R51, R52, R57). -/
def loopStart (d : Dev) (k start : Nat) : Dev :=
  let d := moveCentre (setRef d k (start * 25600)) k start
  let d := d.setH .integ k (d.f FL_IPRE_D k * 2 ^ (8 + gsh d k) : Nat)
  let d := d.eachIn [Hid.errX1, .errX2, .outY1, .outY2, .refStep, .satValid, .strikeHoldoff, .releaseHoldoff, .trkRun, .trkCbc]
    fun d v => d.setH v k 0
  let d := (d.setH .posRef k (start * 100)).setF FL_STATUS_MODE k flRun
  let d := (d.setF FL_STATUS_DSAT_HI k 0).setF FL_STATUS_DSAT_LO k 0
  if start = d.a FL_REF_TGT k then rampDoneEv d k else d

/-! ### The commands -/

/-- OVR_PERSIST (R46): the run reaches FL_OVR.LIM; 0 disables. -/
def execOvrPersist (k : Rail) (s : State) : Host.Outcome State Fault Refusal :=
  s.ok fun d => d.when (d.on FL_OVR_LIM k && d.f FL_OVR_LIM k ≤ d.hn .ovrRun k) fun d => d.set1 FL_CAUSE_OVR_PERSIST k

/-- STRIKE_LIMIT (R62). -/
def execStrikeLimit (k : Rail) (s : State) : Host.Outcome State Fault Refusal :=
  s.ok fun d => d.when (flMode d k == flStrike && atLimit d k true) fun d =>
    enterRestore (d.set1 FL_CAUSE_STRIKE_TMAX k) k true

/-- RELEASE_LIMIT (R62). -/
def execReleaseLimit (k : Rail) (s : State) : Host.Outcome State Fault Refusal :=
  s.ok fun d => d.when (flMode d k == flRelease && atLimit d k false) fun d =>
    enterRestore (d.set1 FL_CAUSE_REL_TMAX k) k false

/-- HOLDOFF_EXPIRE (R63): the strike (`strike`) or the release hold-off timer of rail k runs out. -/
def execHoldoffExpire (k : Rail) (strike : Bool) (s : State) : Host.Outcome State Fault Refusal :=
  s.ok fun d => d.setH (if strike then .strikeHoldoff else .releaseHoldoff) k 0

/-- RESTORE_DONE (R62, R68): the PERIODS-th lead-phase valley after entry to RESTORE has been counted. -/
def execRestoreDone (k : Rail) (s : State) : Host.Outcome State Fault Refusal :=
  s.ok fun d => d.when (flMode d k == flRestore && d.a FL_RESTORE_PERIODS k ≤ d.hn .restoreCnt k) fun d =>
    (d.setF FL_STATUS_MODE k flRun).eachIn (switching d k) fun d n => d.setH .restFrom n 0

/-- SHADOW_APPLY_IDLE (R74, R114): domain `c` has no switching phase. -/
def execShadowApplyIdle (c : Fin 18) (s : State) : Host.Outcome State Fault Refusal :=
  s.ok fun d => d.when (c.val == 17 || (switching d c).isEmpty) fun d => commitIdle d c

/-- STALE_FREEZE (R79): AGE has reached STALE_LIM; 0 disables. -/
def execStaleFreeze (k : Rail) (s : State) : Host.Outcome State Fault Refusal :=
  s.ok fun d => d.when (d.on FL_STEER_GV_EN k && d.on FL_STEER_STALE_LIM k && d.f FL_STEER_STALE_LIM k ≤ d.f FL_STEER_AGE k)
    fun d => ((freeze d k).set1 FL_STEER_STALE k).set1 FL_CAUSE_STALE k

/-- At each PCLK edge the status snapshot of the integrators moves on (R28, R709). -/
def intSnapStep (d : Dev) : Dev :=
  if d.now % 10 = 0 then d.each 16 fun d k =>
    ((d.setH .intSnap (3 * k + 2) (d.h .intSnap (3 * k + 1))).setH .intSnap (3 * k + 1) (d.h .intSnap (3 * k))).setH
      .intSnap (3 * k) (d.h .integ k)
  else d

/-- What a read of FL_INT_LO does: it takes the integrator of 2 PCLK cycles before the PCLK edge of the read (R709). -/
def intLoRead (d : Dev) (k : Nat) : Dev :=
  let i := d.h .intSnap (3 * k + 2)
  (d.setF FL_INT_LO_INT k i).setF FL_INT_HI_INT k (asr i 32)

end Sys2Proof.Machine
end

