-- ==== Sys2Proof/Machine/Phase.lean ====
section
/-! DEFINITION. The phase channels and the stage buses (spec/03). -/

namespace Sys2Proof.Machine

/-! ### Current samples and comparators -/

/-- A new current sample of phase n from its raw code (R101, R102, R105, R106, R236). -/
def phSample (d : Dev) (n : Nat) (raw : Int) : Dev :=
  let raw := sat raw 12
  let full := asr ((raw - d.ai PH_ISCAL_OFS n) * d.a PH_ISCAL_GAIN n) 14
  let i := sat full 10
  let ovr := raw == -2048 || raw == 2047 || i != full
  let d := ((d.setF PH_IMEAS_I n i).setF PH_IMEAS_OVR n (b2i ovr)).setF PH_STATUS_OVR n (b2i ovr)
  let d := (if ovr then d.set1 PH_CAUSE_IOVR n else d).setF PH_RAW_RAW n raw
  let d := (d.setH .iSum n (d.h .iSum n + i)).setH .iCnt n (d.h .iCnt n + 1)
  let d := (d.setH .iLast n i).setH .iLastAt n (d.now + 1 : Nat)
  let d := if d.on PH_STATUS_AZ_BUSY n && d.h .azCnt n < 256 then
    (d.setH .azSum n (d.h .azSum n + raw)).setH .azCnt n (d.h .azCnt n + 1) else d
  if d.f PH_STATUS_PWM n = pwmLow && d.h .lowAt n + d.f FB_PHOC_GUARD n ≤ d.now && (d.f FB_PTH_OC_POS n : Int) ≤ i then
    d.incSat FB_PSTAT_HSS_CNT n
  else d.setF FB_PSTAT_HSS_CNT n 0

/-- One LCLK cycle of the three current comparators of a phase, on the current of its newest sample (R232). -/
def phComps (d : Dev) (n : Nat) : Dev :=
  let i := d.fi PH_IMEAS_I n
  let one (d : Dev) (raw : Bool) (hist : Hid) (m nn out : Fld) : Dev :=
    let hi := histNext (d.hn hist n) (d.f m n) raw
    (d.setH hist n hi).setF out n (b2i (majority hi (d.f m n) (d.f nn n)))
  let d := one d (decide ((d.f FB_PTH_OC_POS n : Int) ≤ i)) .cbcHist FB_PFILT_CBC_M FB_PFILT_CBC_N FB_PSTAT_CBC
  let d := one d (d.on FB_PTH_OC_NEG n && decide (i ≤ -(d.f FB_PTH_OC_NEG n : Int))) .nocHist
    FB_PFILT_NOC_M FB_PFILT_NOC_N FB_PSTAT_NOC
  let d := one d (decide ((d.f FB_PHOC_HOC n : Int) ≤ i)) .hocHist FB_PFILT_HOC_M FB_PFILT_HOC_N FB_PSTAT_HOC
  if d.on FB_PSTAT_HOC n then d else d.setH .hocDone n 0

/-! ### Edges (R88 to R93) -/

/-- Whether a phase is in a period it makes pulses in: SWITCHING, or SHED and not yet at its next valley (R85, R89). -/
def inPeriod (d : Dev) (n : Nat) : Bool := phState d n == phSwitching || (phState d n == phShed && !d.hon .shedDone n)

/-- Whether a phase drives pulses of its own: SWITCHING, or SHED in its last period, its loop running, no hold and no
force upon it (R85, R91). -/
def pulsing (d : Dev) (n : Nat) : Bool :=
  let k := phDom d n
  inPeriod d n && k < 17
  && (if k < 16 then flMode d k != flOff else d.f ST_STATUS_STATE == 4 || d.f ST_STATUS_STATE == 5)
  && !d.hon .forceHold k && !d.hbit .forceMask k n && !d.hbit .forceCbc k n

/-- Whether a phase may rise at a tap (R89). -/
def mayRise (d : Dev) (n tap : Nat) : Bool :=
  let hh := domH d (phDom d n)
  let dd := halfWidth d n
  let q := phPos d n tap
  hh - dd ≤ q && q < hh + dd && d.a PH_CFG_TON_MIN n * 32 ≤ 2 * dd
  && (!d.hon .everFell n || d.h .fallAt n + d.a PH_CFG_TOFF_MIN n * 32 ≤ d.now * 32 + tap)

/-- Whether the pulse of a phase ends at a tap (R89). -/
def mustFall (d : Dev) (n tap : Nat) : Bool :=
  let q := phPos d n tap
  (domH d (phDom d n) + halfWidth d n ≤ q && d.h .riseAt n + d.a PH_CFG_TON_MIN n * 32 ≤ d.now * 32 + tap) || q == 0

/-- PWM_RISE (R89): the phase rises at the first tap of this LCLK cycle that R89 allows. -/
def riseNow (d : Dev) (n : Nat) : Dev :=
  if pulsing d n && d.f PH_STATUS_PWM n != pwmHigh && !d.hon .pulseMade n && !d.on PH_STATUS_CBC n then
    match (List.range 32).find? (mayRise d n) with
    | some tap => (setPwm d n pwmHigh tap).setH .pulseMade n 1
    | none => d
  else d

/-- PWM_FALL (R89). -/
def fallNow (d : Dev) (n : Nat) : Dev :=
  if pulsing d n && d.f PH_STATUS_PWM n == pwmHigh then
    match (List.range 32).find? (mustFall d n) with
    | some tap => setPwm d n pwmLow tap
    | none => d
  else d

/-- A positive current-limit trip (R67, R92, R247). -/
def cbcTrip (d : Dev) (n : Nat) : Dev :=
  let k := phDom d n
  let d := if d.f PH_STATUS_PWM n = pwmHigh then setPwm d n (if nsAct d k then pwmTri else pwmLow) else d
  let d := ((d.set1 PH_STATUS_CBC n).incSat PH_COUNT_CBC n).setH .armCbc n 1
  let d := if d.hon .cbcEvent n then d else (d.raisePhase n 0).setH .cbcEvent n 1
  if k < 16 && flMode d k = flStrike && d.hbit .forceMask k n then
    (d.setHbit .forceMask k n false).setHbit .forceCbc k n true
  else d

/-- A negative current-limit trip (R92, R223, R247). -/
def nocTrip (d : Dev) (n : Nat) : Dev :=
  let d := ((setPwm d n pwmTri).setH .negTri n 1).incSat PH_COUNT_CBC n
  let d := d.set1 FB_PCAUSE_NOC n
  if d.hon .nocEvent n then d else (d.raisePhase n 1).setH .nocEvent n 1

/-! ### The valley (R95, R106 to R109) -/

/-- The effective weight of a phase (R108). -/
def weff (d : Dev) (n : Nat) : Int :=
  clampI (if d.aon PH_CFG_SHARE_SRC n then d.a PH_G_SHARE_W n else d.a PH_SHARE_W n) 205 256

/-- The mean of the period that ends at a valley at a tap, in 1/64 A (R106): a sample taken at the valley itself belongs to the
period that begins. IAVG takes the mean when the result of its last sample is available, 8 LCLK cycles after it was taken. -/
def avgStep (d : Dev) (n tap : Nat) : Dev :=
  let own := tap = 0 && d.hn .iLastAt n == d.now + 1
  let keep : Int := if own then d.h .iLast n else 0
  let sum := d.h .iSum n - keep
  let cnt := d.h .iCnt n - b2i own
  let last := if own then d.now - 4 else d.hn .iLastAt n - 1
  let d := (d.setH .iSum n keep).setH .iCnt n (b2i own)
  if cnt ≤ 0 then d
  else
    let mean := sat (sum * 16 / cnt) 16
    if last + 8 ≤ d.now then d.setF PH_IMEAS_IAVG n mean
    else (d.setH .avgPend n mean).setH .avgAt n (last + 9 : Nat)

/-- A mean whose last sample's result is available reaches IAVG (R106). -/
def avgArrive (d : Dev) (n : Nat) : Dev :=
  if d.hon .avgAt n && d.hn .avgAt n ≤ d.now + 1 then
    (d.setF PH_IMEAS_IAVG n (d.h .avgPend n)).setH .avgAt n 0
  else d

/-- The mean of the last whole period, be it in IAVG or on its way there. -/
def lastMean (d : Dev) (n : Nat) : Int := if d.hon .avgAt n then d.h .avgPend n else d.fi PH_IMEAS_IAVG n

/-- The active angle moves toward the committed target (R95). A store phase has no rail and so no ASTEP: it moves by as
much as the pulse region allows. -/
def angleStep (d : Dev) (n : Nat) : Dev :=
  let k := phDom d n
  let hh : Int := domH d k
  let a : Int := d.f PH_ANGNOW_ANG n
  let t : Int := angTarget d n
  let up := (t - a) % 65536
  let delta := if up ≤ 32768 then up else up - 65536
  let astep : Int := if k < 16 then d.a PH_RLOCK_ASTEP k else 65536
  let room := max 0 ((hh - halfWidth d n - 32) * 65536 / (2 * hh))
  let lim := min astep room
  d.setF PH_ANGNOW_ANG n ((a + clampI delta (-lim) lim) % 65536)

/-- How far a step of the angle moved the offset up, so that the position reaches 0 once more, in taps (R95). -/
def angleBack (d e : Dev) (n : Nat) : Nat :=
  let hh := domH d (phDom d n)
  let s := (phOffset e n + 2 * hh - phOffset d n) % (2 * hh)
  if s < hh then s else 0

/-- A valley of the lead phase in RESTORE: it is counted, and every phase still on its way takes one of the PERIODS equal
steps to its target angle, the shorter way round (R68, R94). DESIGN CHOICE (notes/assumptions/10.md): a step back over
the position 0 makes no second valley, and one forward over it ends the period without a valley; R68 is silent on both. -/
def restoreStep (d : Dev) (k tap : Nat) : Dev :=
  let j := d.h .restoreCnt k + 1
  let p := d.a FL_RESTORE_PERIODS k
  (d.setH .restoreCnt k j).eachIn ((switching d k).filter fun n => d.hon .restFrom n) fun d n =>
    let a := d.h .restFrom n - 1
    let up := (angTarget d n - a) % 65536
    let e := d.setF PH_ANGNOW_ANG n ((a + (if up ≤ 32768 then up else up - 65536) * min j p / p) % 65536)
    let e := if (p : Int) ≤ j then e.setH .restFrom n 0 else e
    let hh := domH d k
    let s := (phOffset e n + 2 * hh - phOffset d n) % (2 * hh)
    let q := phPos d n tap
    if s < hh then
      if q < s then e.setH .ghostEnd n (max (d.h .ghostEnd n) ((d.now * 32 + tap + (s - q) : Nat) + 1)) else e
    else if 2 * hh ≤ q + (2 * hh - s) then (e.setH .pulseMade n 0).setF PH_STATUS_CBC n 0 else e

/-- The equalisation trim is updated (R107, R109). -/
def eqStep (d : Dev) (n : Nat) : Dev :=
  let k := phDom d n
  let l := switching d k
  let tot := l.foldl (fun a m => a + d.fi PH_IMEAS_IAVG m) 0
  let wsum := l.foldl (fun a m => a + weff d m) 0
  let err := tot * weff d n / wsum - d.fi PH_IMEAS_IAVG n
  let lim : Int := d.a PH_EQ_LIM n
  let acc := clampI (sat (d.h .eqAcc n + asr (d.a PH_EQ_KEQ n * err) 4) 20) (-(lim * 256)) (lim * 256)
  let eq := asr acc 8
  let run0 := d.h .eqSatRun n
  let run := if lim = 0 then 0 else if eq = lim then max run0 0 + 1 else if eq = -lim then min run0 0 - 1 else 0
  let d := ((d.setH .eqAcc n acc).setF PH_EQNOW_EQ n eq).setF PH_EQNOW_WEFF n (weff d n)
  let d := d.setH .eqSatRun n run
  if 64 ≤ run.natAbs then d.set1 PH_CAUSE_EQ_SAT n else d

/-- The mean phase current ip of a rail, in 1/64 A (spec/05, Coppicing). -/
def meanPhase (d : Dev) (k : Nat) : Int := if nsw d k = 0 then 0 else d.fi FL_ISUM_ISUM k * 16 / nsw d k

/-- The open-phase source of R206, on the ip of the rail's last commit point. -/
def openCheck (d : Dev) (n : Nat) : Dev :=
  let k := phDom d n
  let th : Int := d.f RL_PF_OPEN_I k * 16
  if k < 16 && phState d n = phSwitching && th ≠ 0 then
    let low := decide (d.fi PH_IMEAS_IAVG n < th) && decide (4 * th ≤ d.h .ipNow k)
    let d := d.setH .openRun n (if low then d.h .openRun n + 1 else 0)
    if d.f RL_PF_OPEN_N k ≤ d.hn .openRun n then phaseFail (d.setH .openRun n 0) n 2 else d
  else d

/-- Charge delivered in the period, positive periods only (R547). -/
def chargeStep (d : Dev) (n : Nat) : Dev :=
  let i := lastMean d n
  if 0 < i && d.on PH_STAGE_MAPPED n then d.setH .lChgAcc n (d.h .lChgAcc n + i * (2 * domH d (phDom d n) : Nat)) else d

/-- A phase reaches its valley at a tap (R89, R95, R106, R107, R67, R68, R115, R206, R223). The trim and the open-phase
count use the IAVG that is latest at the valley; the mean of the period that ends comes after them (R106). A phase that a strike forces, and that its current limit had stopped before the strike, is HIGH from the
valley that ends the limit (R67, R91). -/
def valley (d : Dev) (n tap : Nat) : Dev :=
  let k := phDom d n
  let st := phState d n
  let sw := st == phSwitching
  let forced := d.hbit .forceMask k n
  let d := if inPeriod d n && !d.hon .pulseMade n && !d.hon .waitValley n then d.incSat PH_COUNT_SKIPS n else d
  let d := if d.f PH_STATUS_PWM n = pwmHigh && !forced then setPwm d n pwmLow tap else d
  let d := if d.hon .forceHold k && d.hon .negTri n && sw then (setPwm d n pwmLow tap).setH .negTri n 0 else d
  let d := if st = phShed && !d.hon .shedDone n then (setPwm d n pwmTri tap).setH .shedDone n 1 else d
  let d := if sw && !d.hon .restFrom n then
      let e := angleStep d n
      e.setH .ghostEnd n (max (d.h .ghostEnd n) ((d.now * 32 + max (tap + angleBack d e n) 64 : Nat) + 1))
    else d
  let d := if sw && d.aon PH_CFG_EQ_EN n && !(k < 16 && frozen d k) then eqStep d n else d
  let d := d.eachIn [Hid.waitValley, .cbcEvent, .nocEvent] fun d v => d.setH v n 0
  let d := d.setF PH_STATUS_CBC n 0
  let d := if k < 16 && forced && flMode d k = flStrike then setPwm d n pwmHigh tap else d
  let d := d.setH .pulseMade n (b2i (forced && d.f PH_STATUS_PWM n == pwmHigh))
  let d := if k < 16 && flMode d k = flRestore && leadOf d k = some n then restoreStep d k tap else d
  chargeStep (avgStep (openCheck (d.setH .valleyAt n (d.now + 1)) n) n tap) n

/-! ### Stages, tones and buses (R117 to R133) -/

/-- The phase a stage is mapped to. -/
def phaseOfStage (d : Dev) (bus addr : Nat) : Option Nat :=
  (List.range 64).find? fun n => d.on PH_STAGE_MAPPED n && d.f PH_STAGE_BUS n == bus && d.f PH_STAGE_DADDR n == addr

/-- The acceptance conditions of a descriptor (R128, R129). -/
def descOk (l : List Nat) : Bool :=
  let b (i : Nat) : Nat := (l[i]?).getD 0
  let w (i : Nat) : Nat := b i + 256 * b (i + 1)
  l.length == 128 && b 0 == 0x49 && b 1 == 0x5A && b 2 == 0x53 && b 3 == 0x44 && crc16 (l.take 126) == w 126
  && 1 ≤ b 4 && 128 ≤ b 5 && w 6 != 0 && w 6 != 0xFFFF && (b 0x36).testBit 3 && (b 0x36).testBit 4
  && 160 ≤ w 0x28 && w 0x28 ≤ 20000 && 5 ≤ b 0x26 && b 0x26 ≤ 160

/-- The calibration word of a descriptor (R104), saturated to its fields (R4). -/
def calWord (gain : Nat) (ofs : Int) : Word :=
  let need : Int := 128 * gain + ofs.natAbs
  let range : Nat := if need ≤ 320000 then 0 else if need ≤ 640000 then 1 else 2
  let lsb4 : Int := 625 * 2 ^ range
  let g := usat (roundDiv (16384 * lsb4) gain) 16
  let o := sat (roundDiv (4 * ofs) lsb4) 12
  putBits (putBits (putBits 0 0 16 g) 16 12 o) 28 2 range

/-- The stage mapped to phase n is unmapped from it: its life counters go to the log (R123, R547). -/
def unmap (d : Dev) (n : Nat) : Dev :=
  let d0 := d
  let d := if d.on PH_STAGE_MAPPED n then lifeUnmap d n else d
  let d := (d.setF PH_STAGE_MAPPED n 0).setF PH_STAGE_DESC_OK n 0
  boundMoved d0 (d.each 32 fun d w => d.setR PH_DESC (n * 32 + w) 0) (phDom d n)

/-- Change what is known of the target at an address. -/
def updTarget (d : Dev) (bus addr : Nat) (g : Target → Target) : Dev :=
  { d with targets := d.targets.map fun t => if t.bus == bus && t.addr == addr then g t else t }

/-- A stage is mapped to phase n (R104, R123, R130, R547). DESIGN CHOICE (notes/assumptions/11.md): a stage that was mapped
to another phase as well stays mapped to that one; R123 unmaps only the former stage of the toned phase. -/
def mapStage (d : Dev) (n : Nat) (t : Target) (mirror : List Nat) : Dev :=
  let d := unmap (updTarget d t.bus t.addr fun x => { x with conflict := false }) n
  let d0 := d
  let d := ((d.setF PH_STAGE_MAPPED n 1).setF PH_STAGE_BUS n t.bus).setF PH_STAGE_DADDR n t.addr
  let d := (((d.setF PH_STAGE_LOST n 0).setF PH_STAGE_CONFLICT n 0).setH .sbMiss n 0).setH .tAbove n 0
  let d := if t.ok then
      let d := d.each 32 fun d w => d.setR PH_DESC (n * 32 + w) (BitVec.ofNat 32 (leNat ((t.desc.drop (4 * w)).take 4)))
      let d := d.set1 PH_STAGE_DESC_OK n
      if d.aon PH_CFG_CAL_AUTO n then
        pushSw d (phDom d n) PH_ISCAL n (calWord (descHalf d n 0x28) (sext (descHalf d n 0x2A) 16))
      else d
    else d.set1 PH_CAUSE_DESC_BAD n
  let d := lifeLoad d n mirror
  hotAttach (boundMoved d0 d (phDom d n)) (phDom d n)

/-- Whether the lost stage of phase n no longer holds its address: it has rejoined, or the bus was reset (R712). -/
def rejoined (d : Dev) (n : Nat) : Bool :=
  d.on PH_STAGE_LOST n
  && !d.targets.any fun t => t.lost && t.bus == d.f PH_STAGE_BUS n && t.addr == d.f PH_STAGE_DADDR n

/-- The IDLE phases with no mapped stage, as a bit set; one whose lost stage has rejoined is toned afresh (R712). -/
def unmappedIdle (d : Dev) : Nat :=
  (List.range 64).foldl (fun m n =>
    if phState d n == phIdle && (!d.on PH_STAGE_MAPPED n || rejoined d n) then m + 2 ^ n else m) 0

/-- The mapping commands in turn: the next phase of the present one that is IDLE is toned (R122); where none is left, the
command ends and the tone mapping of a roll call that waits begins, with a round of its own (R713). `due` bounds how many
wait. -/
def toneNext (d : Dev) (due : Nat := d.hn .toneDue) : Dev :=
  match (List.range 64).find? fun n => d.hbit .mapQueue 0 n && phState d n == phIdle with
  | some n =>
    let d := ({ d with toneAns := [] } : Dev).setHbit .mapQueue 0 n false
    phSet ((d.setH .toneNow 0 (n + 1 : Nat)).setH .toneAt 0 d.now) n phTone
  | none =>
    match due with
    | 0 => (({ d with toneAns := [] } : Dev).eachIn [Hid.mapQueue, .toneNow, .toneDue] fun d v => d.setH v 0 0).setF
        PH_MAP_CTL_BUSY 0 0
    | due + 1 =>
      let d := ((d.setH .toneDue 0 due).setH .mapRound 0 ((d.h .mapRound 0 + 1) % 4)).setH .mapByGo 0 0
      toneNext (d.setH .mapQueue 0 (unmappedIdle d)) due

/-- A mapping command begins: the round advances and the phases of `m` are toned in turn (R122, R713). -/
def toneStart (d : Dev) (m : Nat) (go : Bool) : Dev :=
  let d := (d.setH .mapRound 0 ((d.h .mapRound 0 + 1) % 4)).setH .mapByGo 0 (b2i go)
  toneNext ((d.setH .mapQueue 0 m).setF PH_MAP_CTL_BUSY 0 1)

/-- TONE_MAP_GO: a write of PH_MAP_CTL.GO while not BUSY (R714). -/
def toneGo (d : Dev) : Dev :=
  let n := d.f PH_MAP_CTL_PHASE
  let d := d.setF PH_MAP_CTL_RESULT 0 0
  if phState d n = phIdle then toneStart d (2 ^ n) true
  else (d.setH .mapRound 0 ((d.h .mapRound 0 + 1) % 4)).setF PH_MAP_CTL_RESULT 0 4

/-- TONE_MAP_ALL: a write of PH_MAP_CTL.ALL while not BUSY. -/
def toneAll (d : Dev) : Dev := toneStart d (unmappedIdle d) false

/-- The tone mapping a roll call runs under AUTO_MAP, as a mapping command of its own (R120, R713). DESIGN CHOICE
(notes/assumptions/11.md): while another command runs it waits for that one's end. -/
def toneAuto (d : Dev) : Dev :=
  if d.on PH_MAP_CTL_BUSY then d.setH .toneDue 0 (d.h .toneDue 0 + 1) else toneStart d (unmappedIdle d) false

/-- The answer window closes (R123): the outcome of every answer with the frame's code. DESIGN CHOICE
(notes/assumptions/11.md): a phase that failed within the window stays FAILED and takes the outcome all the same. -/
def toneClose (d : Dev) (mirror : List Nat) : Dev :=
  match d.hn .toneNow with
  | 0 => d
  | n + 1 =>
    let hits := d.toneAns.filter fun a => a.code == toneCode d n
    let d := if phState d n = phTone then phSet d n phIdle else d
    let (d, res) :=
      match hits with
      | [] => ((unmap d n).setF PH_STAGE_CONFLICT n 0, 2)
      | [a] =>
        match d.targets.find? (fun (t : Target) => t.bus == a.bus && t.addr == a.addr) with
        | some t => (mapStage d n t mirror, 1)
        | none => (unmap d n, 2)
      | _ =>
        let d := ((unmap d n).set1 PH_STAGE_CONFLICT n).set1 PH_CAUSE_CONFLICT n
        (d.eachIn hits fun d a =>
          let d := updTarget d a.bus a.addr fun x => { x with conflict := true }
          match phaseOfStage d a.bus a.addr with
          | some m => d.set1 PH_STAGE_CONFLICT m
          | none => d, 3)
    let d := if d.hon .mapByGo then d.setF PH_MAP_CTL_RESULT 0 res else d
    toneNext (hotAttach (d.setH .toneNow 0 0) (phDom d n))

/-- Roll call begins on bus m (R120); at enable the addresses are reset first. -/
def rollStart (d : Dev) (m : Nat) (rst : Bool) : Dev :=
  if d.on PH_SB_CFG_EN m then
    let d := if rst then { d with targets := d.targets.filter fun t => t.bus != m } else d
    ((d.set1 PH_SB_STATUS_ROLL m).set1 PH_SB_STATUS_BUSY m).setF PH_SB_STATUS_NTGT m
      (d.targets.filter fun t => t.bus == m).length
  else d

/-- Roll call ends; with AUTO_MAP the IDLE phases with no mapped stage are toned (R120). -/
def rollEnd (d : Dev) (m : Nat) : Dev :=
  let d := (d.setF PH_SB_STATUS_ROLL m 0).setF PH_SB_STATUS_BUSY m 0
  if d.on PH_SB_CFG_AUTO_MAP m then toneAuto d else d

/-- The vendor and serial number of a descriptor. -/
def descIdent (l : List Nat) : List Nat := (l.drop 6).take 2 ++ (l.drop 0x18).take 8

/-- Show how many targets each bus has given an address. -/
def showTargets (d : Dev) : Dev :=
  d.each 4 fun d m => d.setF PH_SB_STATUS_NTGT m (d.targets.filter fun t => t.bus == m).length

/-- The descriptor of a new target has been read: it gets the lowest free address, a lost stage that rejoins on any bus
then giving up its former one, and its descriptor is accepted or refused (R118, R120, R129, R712). DESIGN CHOICE
(notes/assumptions/11.md): a target that ENTDAA finds while 16 hold an address gets none and sets OVERFULL, as a refused
Hot-Join does in R118. -/
def newTarget (d : Dev) (m : Nat) (pid : Nat) (bytes : List Nat) : Dev :=
  let used := (d.targets.filter fun (t : Target) => t.bus == m).map Target.addr
  match ((List.range 16).map (0x20 + ·)).find? fun a => !used.contains a with
  | none => d.set1 PH_SB_CAUSE_OVERFULL m
  | some a =>
    let ok := descOk bytes
    let t : Target := { bus := m, addr := a, pid := pid, desc := bytes, ok := ok, lost := false, conflict := false }
    let keep := d.targets.filter fun t => !(t.lost && descIdent t.desc == descIdent bytes)
    let d := showTargets { d with targets := keep ++ [t] }
    if ok then d.set1 PH_SB_CAUSE_NEW m else d.set1 PH_SB_CAUSE_DESC_BAD m

/-- The temperature of the stage of phase n, in 1/16 °C (spec/03, Reports), saturated to its field (R4). -/
def stageTemp (d : Dev) (n raw : Nat) : Int :=
  sat (asr (raw * descHalf d n 0x30 : Nat) 16 + sext (descHalf d n 0x32) 16) 13

/-- Stage over-temperature: the phase is held, or fails where RL_PF.TEMP_EN is 1 (R206, R219). -/
def stageOt (d : Dev) (n : Nat) : Dev :=
  let d := (d.set1 FB_PLAT_SOT n).set1 FB_PCAUSE_SOT n
  if phDom d n < 16 && d.on RL_PF_TEMP_EN (phDom d n) then
    (if phState d n = phIdle || phState d n = phFailed then d else phaseFail d n 1)
  else phHold d n

/-- A stage's FAULT report (R125, R126, R206, R547). -/
def faultReport (d : Dev) (bus addr fault : Nat) : Dev :=
  match phaseOfStage d bus addr with
  | none => d.set1 PH_SB_CAUSE_IBI_DROP bus
  | some n =>
    let newBit := fault &&& (255 - d.f PH_SFAULT_FAULT n) != 0
    let d := (d.setF PH_SFAULT_FAULT n fault).set1 PH_CAUSE_STAGE_FAULT n
    let d := if newBit then lifeFault d n else d
    if phDom d n < 16 && fault &&& d.f RL_PF_FMASK (phDom d n) != 0 && phState d n != phIdle && phState d n != phFailed then
      phaseFail d n 0
    else d

/-- A stage's temperature report (R125, R126, R206, R219): T_LIMIT is crossed upward where the stage's report before it
was below. DESIGN CHOICE (notes/assumptions/61.md): of a mapped stage with no accepted descriptor PH_DESC is 0 and is read as
it stands, T_LIMIT −40 °C and the temperature 0, so that its first report counts as a crossing; the spec gives such a stage no
conversion and no limit. -/
def tempReport (d : Dev) (bus addr raw : Nat) : Dev :=
  match phaseOfStage d bus addr with
  | none => d.set1 PH_SB_CAUSE_IBI_DROP bus
  | some n =>
    let t := stageTemp d n raw
    let above := decide (((descByte d n 0x35 : Int) - 40) * 16 ≤ t)
    let up := above && !d.hon .tAbove n
    let d := ((d.setF PH_STAGE_TEMP n t).set1 PH_CAUSE_STAGE_TEMP n).setH .tAbove n (b2i above)
    if up then stageOt d n else d

/-- One mapped stage of a presence poll: its answer (STATUS and TEMP), or none (R121, R548). -/
def presence (d : Dev) (m n : Nat) (ans : Option (Nat × Nat)) : Dev :=
  match ans with
  | some (_, raw) =>
    let t := stageTemp d n raw
    lifeTemp ((d.setH .sbMiss n 0).setF PH_STAGE_TEMP n t) n t
  | none =>
    let d := (d.setH .sbMiss n (d.h .sbMiss n + 1)).set1 PH_SB_CAUSE_NACK m
    if d.f PH_SB_CFG_MISS m ≤ d.hn .sbMiss n && !d.on PH_STAGE_LOST n then
      let d := updTarget d m (d.f PH_STAGE_DADDR n) fun x => { x with lost := true }
      let d := ((d.set1 PH_STAGE_LOST n).set1 PH_CAUSE_STAGE_LOST n).set1 PH_SB_CAUSE_LOST m
      if phDom d n < 16 && phState d n != phIdle && phState d n != phFailed then phaseFail d n 3 else d
    else d

/-- A write of PH_SACC_CMD.GO while not BUSY (R133): only FAULT and VENDOR may be written. DESIGN CHOICE
(notes/assumptions/61.md): a write of another address to a phase with no mapped stage, which both results fit, gives 2. -/
def saccGo (d : Dev) : Dev :=
  let n := d.f PH_SACC_CMD_PHASE
  let ad := d.f PH_SACC_CMD_ADDR
  let last := ad + d.f PH_SACC_CMD_LEN - 1
  if !d.on PH_STAGE_MAPPED n then d.setF PH_SACC_CMD_RES 0 2
  else if d.on PH_SACC_CMD_WR && !((ad == 0x84 && last == 0x84) || (0x200 ≤ ad && last ≤ 0x2FF)) then
    d.setF PH_SACC_CMD_RES 0 3
  else (d.set1 PH_SACC_CMD_BUSY).set1 PH_SB_STATUS_BUSY (d.f PH_STAGE_BUS n)

/-- The stage access ends (R133): a read fills the low bytes of PH_SACC_DATA. DESIGN CHOICE (notes/assumptions/61.md): a write of
PH_SACC_CMD without GO while BUSY is taken, and the access ends by the PHASE, WR and LEN then in the register; R133 neither
refuses such a write nor says what it does to the access under way. -/
def saccDone (d : Dev) (ack : Bool) (data : Word) : Dev :=
  if d.on PH_SACC_CMD_BUSY then
    let m := d.f PH_STAGE_BUS (d.f PH_SACC_CMD_PHASE)
    let d := (d.setF PH_SACC_CMD_BUSY 0 0).setF PH_SB_STATUS_BUSY m (b2i (d.on PH_SB_STATUS_ROLL m))
    if ack then
      let d := d.setF PH_SACC_CMD_RES 0 0
      if d.on PH_SACC_CMD_WR then d
      else d.setR PH_SACC_DATA 0 (putBits (d.r PH_SACC_DATA) 0 (8 * d.f PH_SACC_CMD_LEN) data.toNat)
    else (d.setF PH_SACC_CMD_RES 0 1).set1 PH_SB_CAUSE_NACK m
  else d

/-- AZ_START: a write of 1 to PH_CTL.AZ (R105). -/
def azStart (d : Dev) (n : Nat) : Dev :=
  if phState d n = phArmed && !d.on PH_STATUS_AZ_BUSY n then ((d.set1 PH_STATUS_AZ_BUSY n).setH .azSum n 0).setH .azCnt n 0
  else d.set1 PH_CAUSE_ACC_ERR n

/-- The 256th sample of an auto-zero is in: OFS takes the mean, rounded down (R4), on the software path (R105). -/
def azDone (d : Dev) (n : Nat) : Dev :=
  if d.on PH_STATUS_AZ_BUSY n && 256 ≤ d.h .azCnt n then
    let d := (d.setF PH_STATUS_AZ_BUSY n 0).set1 PH_CAUSE_AZ_DONE n
    pushSw d (phDom d n) PH_ISCAL n (putBits (d.r PH_ISCAL n) 16 12 (asr (d.h .azSum n) 8))
  else d

/-- CLR_FAIL: a write of 1 to PH_CTL.CLR_FAIL (R115, R547). DESIGN CHOICE (notes/assumptions/61.md): DESC_OK and PH_DESC keep the
former stage's descriptor, for R115 clears MAPPED alone. -/
def clrFail (d : Dev) (n : Nat) : Dev :=
  if phState d n = phFailed then
    let d := phSet d n phIdle
    let d0 := d
    let d := if d.on PH_STAGE_MAPPED n then lifeUnmap d n else d
    hotAttach (settleCap (boundMoved d0 (d.setF PH_STAGE_MAPPED n 0) (phDom d n)) (phDom d n)) (phDom d n)
  else d

/-! ### The commands -/

/-- The tap of the valley of phase n in this LCLK cycle. The lead phase's valley is the commit point, which comes first
(R95) and, by the rescale of R99, may have moved the position. -/
def valleyHere (d : Dev) (n : Nat) : Option Nat :=
  if leadOf d (phDom d n) = some n then
    (if d.h .commitAt (phDom d n) = d.now + 1 then some ((valleyTap d n).getD 31) else none)
  else valleyDue d n

/-- PHASE_VALLEY (R106): the position of phase n reaches 0 in this LCLK cycle. -/
def execPhaseValley (n : Phase) (s : State) : Host.Outcome State Fault Refusal :=
  s.ok fun d => d.when (phDom d n < 17 && d.h .valleyAt n != d.now + 1) fun d =>
    match valleyHere d n with
    | some tap => valley d n tap
    | none => d

/-- PWM_RISE (R89). -/
def execPwmRise (n : Phase) (s : State) : Host.Outcome State Fault Refusal := s.ok fun d => riseNow d n

/-- PWM_FALL (R89). -/
def execPwmFall (n : Phase) (s : State) : Host.Outcome State Fault Refusal := s.ok fun d => fallNow d n

/-- CBC_TRIP (R92, R221): the filtered output is 1, has not yet acted in this period and the pair is not TRI. -/
def execCbcTrip (n : Phase) (s : State) : Host.Outcome State Fault Refusal :=
  s.ok fun d => d.when (d.on FB_PSTAT_CBC n && !d.on PH_STATUS_CBC n && d.f PH_STATUS_PWM n != pwmTri) fun d => cbcTrip d n

/-- NOC_TRIP (R92, R221). -/
def execNocTrip (n : Phase) (s : State) : Host.Outcome State Fault Refusal :=
  s.ok fun d => d.when (d.on FB_PSTAT_NOC n && d.f PH_STATUS_PWM n == pwmLow) fun d => nocTrip d n

/-- NS_ZERO_CURRENT (R93). -/
def execNsZeroCurrent (n : Phase) (s : State) : Host.Outcome State Fault Refusal :=
  s.ok fun d => d.when (nsAct d (phDom d n) && d.f PH_STATUS_PWM n == pwmLow
      && decide (d.fi PH_IMEAS_I n ≤ d.a PH_CFG_ZCTH n)) fun d =>
    (setPwm d n pwmTri).set1 PH_STATUS_NS_TRI n

/-- AZ_DONE (R105). -/
def execAzDone (n : Phase) (s : State) : Host.Outcome State Fault Refusal := s.ok fun d => azDone d n

/-- ARM_DELAY_EXPIRE (R115): the arming delay of the phase has run. -/
def execArmDelayExpire (n : Phase) (s : State) : Host.Outcome State Fault Refusal :=
  s.ok fun d => d.when (phState d n == phArming) fun d => settleCap (phSet d n phArmed) (phDom d n)

/-- Whether the stage buses hear their stages: SVC is on and holds no pads (R19, R522). A transaction on held lines finds no
answer (notes/assumptions/33.md). -/
def sbusOpen (d : Dev) : Bool := domOn d 0 && !d.on PD_DSTAT_HELD 0

/-- TONE_ANSWER (R123, R124): a stage answers a tone; an answer of another round is discarded. -/
def execToneAnswer (m : Fin 4) (addr : Fin 128) (code : Byte) (s : State) : Host.Outcome State Fault Refusal :=
  s.ok fun d => d.when (sbusOpen d && d.on PH_MAP_CTL_BUSY && decide (code.toNat / 64 = d.hn .mapRound 0)) fun d =>
    { d with toneAns := d.toneAns ++ [{ bus := m, addr := addr, code := code.toNat }] }

/-- TONE_WINDOW_CLOSE (R123): `mirror` is the life mirror read from the stage that is mapped (R547). -/
def execToneWindowClose (mirror : List Byte) (s : State) : Host.Outcome State Fault Refusal :=
  s.ok fun d => d.when (domOn d 0) fun d => toneClose d (if sbusOpen d then mirror.map BitVec.toNat else [])

/-- STAGE_FAULT_REPORT (R125). -/
def execStageFaultReport (m : Fin 4) (addr : Fin 128) (fault : Byte) (s : State) : Host.Outcome State Fault Refusal :=
  s.ok fun d => d.when (sbusOpen d) fun d => faultReport d m addr fault.toNat

/-- STAGE_TEMP_REPORT (R125). -/
def execStageTempReport (m : Fin 4) (addr : Fin 128) (temp : BitVec 16) (s : State) : Host.Outcome State Fault Refusal :=
  s.ok fun d => d.when (sbusOpen d) fun d => tempReport d m addr temp.toNat

/-- HOT_JOIN (R118, R120, R711): refused while HJ_EN is 0, or with 16 targets addressed. -/
def execHotJoin (m : Fin 4) (s : State) : Host.Outcome State Fault Refusal :=
  s.ok fun d => d.when (sbusOpen d && d.on PH_SB_CFG_EN m) fun d =>
    if !d.on PH_SB_CFG_HJ_EN m then d.set1 PH_SB_CAUSE_HJ m
    else if 16 ≤ (d.targets.filter fun t => t.bus == m.val).length then
      (d.set1 PH_SB_CAUSE_HJ m).set1 PH_SB_CAUSE_OVERFULL m
    else rollStart (d.set1 PH_SB_CAUSE_HJ m) m false

/-- DESC_READ_DONE (R129): the roll call of bus m has read the descriptor of a new target (none: ENTDAA found no other);
`last` ends the roll call. -/
def execDescReadDone (m : Fin 4) (t : Option (BitVec 48 × List Byte)) (last : Bool) (s : State) :
    Host.Outcome State Fault Refusal :=
  s.ok fun d => d.when (domOn d 0 && d.on PH_SB_STATUS_ROLL m) fun d =>
    let d := match if sbusOpen d then t else none with
      | some (pid, bytes) => newTarget d m pid.toNat (bytes.map BitVec.toNat)
      | none => d
    if last then rollEnd d m else d

/-- PRESENCE_POLL (R121): the answers, by address, of the mapped stages of bus m; a stage not listed did not
acknowledge. -/
def execPresencePoll (m : Fin 4) (ans : List (Fin 128 × Byte × BitVec 16)) (s : State) : Host.Outcome State Fault Refusal :=
  s.ok fun d => d.when (domOn d 0 && d.on PH_SB_CFG_EN m && d.on PH_SB_CFG_ROLL_MS m) fun d =>
    let ans := if sbusOpen d then ans else []
    d.each 64 fun d n =>
      if d.on PH_STAGE_MAPPED n && d.f PH_STAGE_BUS n == m.val then
        presence d m n ((ans.find? fun a => a.1.val == d.f PH_STAGE_DADDR n).map fun a => (a.2.1.toNat, a.2.2.toNat))
      else d

/-- STAGE_ACCESS_DONE (R133). -/
def execStageAccessDone (ack : Bool) (data : Word) (s : State) : Host.Outcome State Fault Refusal :=
  s.ok fun d => d.when (domOn d 0) fun d => saccDone d (ack && sbusOpen d) data

end Sys2Proof.Machine
end

