-- ==== Sys2Proof/Machine/Rail.lean ====
section
/-! DEFINITION. The rail sequencer (spec/05). -/

namespace Sys2Proof.Machine

/-- Entry to SOFT_START (R185, R194, R196, R243, R715): ARMED phases, and HELD ones with no HOC or SOT latch, enter
SWITCHING; the loop starts at the start value; the effective fractions are at their bases. -/
def enterSoftStart (d : Dev) (k start : Nat) (pre : Bool) : Dev :=
  let d := (d.setF RL_STATUS_STATE k rlSoftStart).setF RL_STATUS_PREBIAS k (b2i pre)
  let d := d.setF RL_STATUS_NS_FORCE k (b2i (pre || d.on RL_CFG_SS_NS k))
  let d := ((d.setH .rampDone k 0).setH .ssBlank k 1).setH .stAt k d.now
  let d := (d.setF FB_RADAPT_OV_FE k (d.f FB_RCFG_OV_F k)).setF FB_RADAPT_UV_FE k (d.f FB_RCFG_UV_F k)
  let d := d.eachIn (domPhases d k) fun d n =>
    let d := d.setH .armCbc n 0
    if phState d n = phArmed || (phState d n = phHeld && !d.on FB_PLAT_HOC n && !d.on FB_PLAT_SOT n)
    then phSet d n phSwitching else d
  settleRail (loopStart (d.setH .pgBad k 0) k start) k

/-- A rail leaves ARMING or HICCUP for PREBIAS, where the search begins with the top DAC bit, or for SOFT_START where
PB_EN is 0 (R185, R193, R195). -/
def toPrebias (d : Dev) (k : Nat) : Dev :=
  if d.on RL_CFG_PB_EN k then
    moveCentre (((d.setF RL_STATUS_STATE k rlPrebias).setH .pbLeft k 14).setH .pbTick k 0) k 0x2000
  else enterSoftStart (d.setF RL_PB_SENSED k 0) k 0 false

/-- The number of ARMED phases of a rail. -/
def narmed (d : Dev) (k : Nat) : Nat := (phasesIn d k phArmed).length

/-- A predecessor set, as rail numbers. -/
def depRails (m : Nat) : List Nat := (List.range 16).filter fun j => m.testBit j

/-- Whether the wait of a sequenced stop is over at once (R185, R187). -/
def offQualifies (d : Dev) (k : Nat) : Bool :=
  (depRails (d.f RL_SEQ_OFF_DEP k)).all fun j => rlState d j == rlOff

/-- A write of RL_CTL.EN (R183, R185, R186): 1 asks for the rail, 0 is a sequenced stop. DESIGN CHOICE
(notes/assumptions/61.md): a write of 1 while OFF_WAIT is set does not withdraw the stop that waits, which is carried out; with
EN at 1 the rail starts again once it is OFF. R186 says so of STOPPING alone. -/
def enWrite (d : Dev) (k : Nat) (v : Bool) : Dev :=
  let st := rlState d k
  if v && d.hon .tapTest then d.set1 RL_CAUSE_CFG_ERR k
  else if v then (if st = rlOff then (if d.on RL_CTL_EN k then d else enCheck d k) else d.setF RL_CTL_EN k 1)
  else
    let d := d.setF RL_CTL_EN k 0
    if let some m := abortDue d k then stopRail 17 (startAbort d k m) k 0 (d.f RL_CFG_OFF_MODE k)
    else if st = rlSoftStart || st = rlOn then
      if d.f RL_SEQ_OFF_DEP k = 0 || (offQualifies d k && d.f RL_SEQ_OFF_DLY k = 0) then
        stopRail 17 d k 0 (d.f RL_CFG_OFF_MODE k)
      else d.setF RL_STATUS_OFF_WAIT k 1
    else if st = rlLatched then (if d.hon .shutPend k then d else toOff d k)
    else stopRail 17 d k 0 (d.f RL_CFG_OFF_MODE k)

/-- Shutdown of rail k completes (R185, R214, R222). -/
def shutdownDone (d : Dev) (k : Nat) : Dev :=
  let st := rlState d k
  let d := shutdown d k
  if st = rlStopping then
    if d.h .stopKind k = 2 then toLatched d k else toOff d k
  else if st = rlLatched && !d.on RL_CTL_EN k then toOff d k
  else d

/-- A sampled output below RL_OFF.VEND × 2 mV (R214, R222). -/
def belowVend (d : Dev) (k : Nat) : Bool := decide (d.h .vPin k < (d.f RL_OFF_VEND k * 2048 : Nat))

/-- Whether the shutdown in progress is complete (R214, R222). -/
def shutdownReady (d : Dev) (k : Nat) : Bool :=
  d.hon .shutPend k &&
  (if rlState d k = rlStopping then d.h .stopMode k == 1 || belowVend d k
   else rlState d k == rlLatched && d.f FB_RSTAT_OFF_ACT k != 2)

/-- Root rail-off, 0xF4 (R215). -/
def rootRailOff (d : Dev) (k : Nat) : Dev :=
  let d := d.setF RL_CTL_EN k 0
  if rlState d k = rlLatched then (if d.hon .shutPend k then d else toOff d k)
  else stopReq d k 1 (d.f RL_CFG_OFF_MODE k)

/-- Root all-rails-off, 0xF0 (R215): every rail that is not OFF stops at once in mode TRI. -/
def rootAllOff (d : Dev) : Dev :=
  offTogether d 0xFFFF fun d k =>
    let d := d.setF RL_CTL_EN k 0
    let st := rlState d k
    if st = rlOff then d
    else if st = rlStopping then
      shutdownDone ((stopAction (d.setH .forceHold k 0) k 1).setH .stopMode k 1) k
    else if st = rlLatched then
      shutdownDone (allTri ((d.setH .forceHold k 0).setF FB_RSTAT_OFF_ACT k 1) k) k
    else stopRail 17 d k 1 1

/-! ### Coppicing and admission at a commit point (R197, R200 to R204, R213) -/

/-- Of a list of phases, the one coppicing takes: by number, or by wear (R201, R202). `hi`: the highest. -/
def pickPhase (d : Dev) (k : Nat) (hi : Bool) (l : List Nat) : Option Nat :=
  l.foldl (fun b n => match b with
    | none => some n
    | some m =>
      if d.on RL_COP_ORDER k then
        (if hi then (if d.h .lWear m ≤ d.h .lWear n then some n else some m)
         else (if d.h .lWear n < d.h .lWear m then some n else some m))
      else (if hi then some n else some m)) none

/-- The sequencer's work at a commit point of rail k. -/
def commitRail (d : Dev) (k : Nat) : Dev :=
  let sw := switching d k
  let hits := (sw.filter fun n => d.hon .armCbc n).length
  let d := d.setH .trkCbc k (if inSoftStart d k && sw.length ≤ 2 * hits then d.h .trkCbc k + 1 else 0)
  let d := d.eachIn (domPhases d k) fun d n => d.setH .armCbc n 0
  let ip := meanPhase d k
  let on := rlState d k == rlOn
  let d := (d.setH .ipNow k ip).setH .copDwell k (if ip < d.f RL_COP_TH_SHED_I k then d.h .copDwell k + 1 else 0)
  let n1 := sw.length - 1
  let d :=
    if on && d.on RL_COP_EN k && d.f RL_COP_DWELL k ≤ d.hn .copDwell k && d.f RL_COP_MIN_ON k ≤ n1
        && d.f RL_CFG_MIN_PH k ≤ n1 && !frozen d k && flMode d k == flRun then
      match pickPhase d k true (sw.filter fun n => leadOf d k != some n) with
      | some n => phSet d n phShed
      | none => d
    else d
  let d :=
    if on && decide ((d.f RL_COP_TH_ADD_I k : Int) ≤ ip) then
      match pickPhase d k false (phasesIn d k phShed) with
      | some n => phReadd d n
      | none => d
    else d
  let d := if (on || inSoftStart d k) && d.on RL_CFG_HOT_ADMIT k then
      d.eachIn (phasesIn d k phArmed) fun d n => phSet d n phSwitching
    else d
  settleCap (leadCheck d k) k

/-! ### The commands -/

/-- Whether a rail's time in PENDING is up (R185). -/
def seqTmoDue (d : Dev) (k : Nat) : Bool :=
  d.on RL_SEQ_TMO_TMO k && decide (d.hn .stAt k + d.f RL_SEQ_TMO_TMO k * 2000000 ≤ d.now)

/-- PENDING times out (R185). -/
def seqTimeout (d : Dev) (k : Nat) : Dev := toOff ((d.setF RL_CTL_EN k 0).set1 RL_CAUSE_SEQ_TMO k) k

/-- SEQ_TIMEOUT (R185). -/
def execSeqTimeout (k : Rail) (s : State) : Host.Outcome State Fault Refusal :=
  s.svc fun d => d.when (rlState d k == rlPending && d.on RL_SEQ_TMO_TMO k) fun d =>
    seqTimeout d k

/-- SEQ_ON_QUALIFY (R185, R187): every predecessor has shown PG for the delay. Where the time in PENDING is up in this cycle,
that earlier row is taken (R17). -/
def execSeqOnQualify (k : Rail) (s : State) : Host.Outcome State Fault Refusal :=
  s.svc fun d => d.when (rlState d k == rlPending && d.on RL_CTL_EN k
      && (depRails (d.f RL_SEQ_ON_DEP k)).all fun j => d.on RL_STATUS_PG j) fun d =>
    if seqTmoDue d k then seqTimeout d k else ((d.setF RL_STATUS_STATE k rlArming).setH .shutPend k 0).eachIn (eligible d k) phStart

/-- OFF_SEQ_QUALIFY (R185, R187): every predecessor of the sequenced stop has been OFF for the delay. -/
def execOffSeqQualify (k : Rail) (s : State) : Host.Outcome State Fault Refusal :=
  s.svc fun d => d.when (d.on RL_STATUS_OFF_WAIT k && offQualifies d k) fun d =>
    match abortDue d k with
    | some m => startAbort d k m
    | none => stopRail 17 (d.setF RL_STATUS_OFF_WAIT k 0) k 0 (d.f RL_CFG_OFF_MODE k)

/-- ARMING_DONE (R185): no phase is still ARMING and at least MIN_PH are ARMED. -/
def execArmingDone (k : Rail) (s : State) : Host.Outcome State Fault Refusal :=
  s.svc fun d => d.when (rlState d k == rlArming && (phasesIn d k phArming).isEmpty
      && decide (d.f RL_CFG_MIN_PH k ≤ narmed d k)) fun d => toPrebias d k

/-- ARM_TIMEOUT (R185): 1 ms has passed in ARMING. -/
def execArmTimeout (k : Rail) (s : State) : Host.Outcome State Fault Refusal :=
  s.svc fun d => d.when (rlState d k == rlArming) fun d =>
    if d.f RL_CFG_MIN_PH k ≤ narmed d k then toPrebias d k
    else toOff (((shutdown d k).setF RL_CTL_EN k 0).set1 RL_CAUSE_ARM_FAIL k) k

/-- PREBIAS_DONE (R185, R193 to R195): the binary search ends; the steps of it that no LOOP_SAMPLE has made are made on
samples of the output voltage `v`, in F. -/
def execPrebiasDone (k : Rail) (v : Int) (s : State) : Host.Outcome State Fault Refusal :=
  s.svc fun d => d.when (rlState d k == rlPrebias) fun d =>
    let d := d.each 14 fun d _ => pbStep d k v
    let sensed := d.f FL_WIN_CENTRE k
    let d := (d.setF RL_PB_SENSED k sensed).setF RL_STATUS_PREBIAS k (b2i (d.f RL_PB_MIN k * 2048 ≤ sensed * 100))
    if d.a FL_REF_TGT k * 100 + d.f RL_PB_HIGH k * 2048 < sensed * 100 then
      toOff (((shutdown d k).setF RL_CTL_EN k 0).set1 RL_CAUSE_PB_HIGH k) k
    else if d.f RL_PB_MIN k * 2048 ≤ sensed * 100 then enterSoftStart d k sensed true
    else enterSoftStart d k 0 false

/-- START_ABORT (R197, R198): one of the monitor's runs is complete. -/
def execStartAbort (k : Rail) (s : State) : Host.Outcome State Fault Refusal :=
  s.svc fun d => d.when (inSoftStart d k
      && (decide (d.f RL_TRK_TIME k ≤ d.hn .trkRun k) || decide (d.f RL_TRK_CBC_N k ≤ d.hn .trkCbc k))) fun d =>
    startAbort d k true

/-- SS_TIMEOUT (R197): the rail has spent RL_SS.TMO in SOFT_START. -/
def execSsTimeout (k : Rail) (s : State) : Host.Outcome State Fault Refusal :=
  s.svc fun d => d.when (inSoftStart d k) fun d => startAbort d k false

/-- HICCUP_EXPIRE (R185, R198): 20 ms after the abort the start is retried, which releases START_SHORT. -/
def execHiccupExpire (k : Rail) (s : State) : Host.Outcome State Fault Refusal :=
  s.svc fun d => d.when (rlState d k == rlHiccup) fun d => toPrebias (d.setF FB_RLAT_START_SHORT k 0) k

/-- PG_RISE (R185, R188, R189): the qualification time has passed within the bound; in SOFT_START the rail goes ON, unless a
start abort is due in the same cycle, which is the earlier row (R17). -/
def execPgRise (k : Rail) (s : State) : Host.Outcome State Fault Refusal :=
  s.svc fun d => d.when ((rlState d k == rlSoftStart || rlState d k == rlOn) && !d.on RL_STATUS_PG k && d.hon .rampDone k
      && decide ((d.fi FL_ERR_X k).natAbs ≤ d.f RL_PG_WIN k * 256)) fun d =>
    if let some m := abortDue d k then startAbort d k m else
    let d := (d.setF RL_STATUS_PG k 1).raiseRail k 4
    if rlState d k = rlSoftStart then
      let d := (d.setF RL_STATUS_STATE k rlOn).setF RL_STATUS_NS_FORCE k 0
      d.setH .ssBlank k (b2i (d.on RL_SS_BLANK_EXT k))
    else d

/-- PG_FALL (R188, R189). -/
def execPgFall (k : Rail) (s : State) : Host.Outcome State Fault Refusal :=
  s.svc fun d => d.when (d.on RL_STATUS_PG k && decide (d.f RL_PG_FILT k * 4 ≤ d.hn .pgBad k)) fun d =>
    pgFall (if rlState d k = rlOn then d.set1 RL_CAUSE_PG_LOST k else d) k

/-- BLANK_END (R196). -/
def execBlankEnd (k : Rail) (s : State) : Host.Outcome State Fault Refusal :=
  s.svc fun d => d.when (rlState d k == rlOn) fun d => d.setH .ssBlank k 0

/-- SHUTDOWN_COMPLETE (R185, R214). -/
def execShutdownComplete (k : Rail) (s : State) : Host.Outcome State Fault Refusal :=
  s.svc fun d => d.when (shutdownReady d k) fun d => shutdownDone d k

/-- STOP_TIMEOUT (R214): RL_OFF.TMO ms have passed in STOPPING. -/
def execStopTimeout (k : Rail) (s : State) : Host.Outcome State Fault Refusal :=
  s.svc fun d => d.when (rlState d k == rlStopping && d.hon .shutPend k) fun d =>
    shutdownDone (allTri (d.set1 RL_CAUSE_OFF_TMO k) k) k

end Sys2Proof.Machine
end

