-- ==== Sys2Proof/Machine/Firebreak.lean ====
section
/-! DEFINITION. The firebreak's decisions, clears, tests and margins (spec/06). -/

namespace Sys2Proof.Machine

/-- The hard over-current decision of phase n (R219). -/
def hocTrip (d : Dev) (n : Nat) : Dev :=
  let d := ((d.set1 FB_PLAT_HOC n).set1 FB_PCAUSE_HOC n).raisePhase n 2
  phHold (d.setH .hocDone n 1) n

/-- A high-side short is declared on phase n (R237): its rail is tri-stated, the phase fails, EFUSE_EN drops and FAULT_N
is asserted. -/
def hssDeclare (d : Dev) (n : Nat) : Dev :=
  let k := phDom d n
  let d := (((d.set1 FB_PLAT_HSS n).set1 FB_PCAUSE_HSS n).raisePhase n 3).setF FB_PSTAT_HSS_CNT n 0
  let d := if k < 16 then railOff (d.set1 FB_RLAT_HSS k) k 1 false else d
  fbPins (phaseFail d n 4)

/-- The filtered output of a device source is now `o`. Where it falls, the shortest drop of EFUSE_EN begins anew if the source
selects EFUSE and does not latch (R228); what else follows is DEVICE_SOURCE_OUTPUT_FALL's. -/
def devOut (d : Dev) (s : Nat) (o : Bool) : Dev :=
  let fell := (d.f FB_DSTAT_SRC).testBit s && !o
  let d := d.setBit FB_DSTAT_SRC 0 s o
  let d := if fell && !d.on FB_DACT_LATCH s && d.on FB_DACT_EFUSE s then d.setH .efuseMin 0 1 else d
  if !o && d.hn .devDone s = 1 then d.setH .devDone s 2 else d

/-- A filter of 8 of the last 15 outputs, as the store's comparators have (R219). -/
def storeComp (d : Dev) (i s : Nat) (raw : Bool) : Dev :=
  let hi := histNext (d.hn .stHist i) 15 raw
  let o := majority hi 15 8
  devOut (d.setH .stHist i hi) s o

/-- One LCLK cycle of the device comparators: the input current (its shunt voltage in 31.25 µV units), and the store's
sense voltage, current and temperature (R219, R256). -/
def devComps (d : Dev) (iin : Nat) : Dev :=
  let hi := histNext (d.hn .iinHist) (d.f FB_IIN_M) (decide (d.f FB_IIN_TH * 16 < iin))
  let o := majority hi (d.f FB_IIN_M) (d.f FB_IIN_N)
  let d := devOut (d.setH .iinHist 0 hi) 0 o
  let d := storeComp d 0 4 (d.on ST_CTL_EN && d.on FB_STORE_OV
    && decide ((d.f FB_STORE_OV * 1600 : Nat) < d.h .vPin (d.f ST_CFG_SNS_RAIL)))
  let isum := (domPhases d 16).foldl (fun a n => a + d.fi PH_IMEAS_I n) 0
  let d := storeComp d 1 5 (d.on FB_STORE_OC && decide ((d.f FB_STORE_OC : Int) < isum))
  storeComp d 2 6 (d.on FB_STH_TH && decide (d.f ST_DSTAT_TH < d.f FB_STH_TH))

/-- A filtered device source decides (R219). -/
def devDecide (d : Dev) (s : Nat) : Dev :=
  if (d.f FB_DSTAT_SRC).testBit s && d.hn .devDone s != 1 then devAction (d.setH .devDone s 1) s else d

/-- One scan of the 32 die sensors (R238). -/
def dieScan (d : Dev) (temps : List Nat) : Dev :=
  let t (i : Nat) : Nat := (temps[i]?).getD 0
  let d := d.each 32 fun d i => d.setH .dieRun i (if d.f FB_OT_TH ≤ t i then min 4 (d.h .dieRun i + 1) else 0)
  let hot := (List.range 32).foldl (fun b i => if t b < t i then i else b) 0
  let d := (d.setF FB_TEMP_MAX 0 (t hot)).setF FB_TEMP_IDX 0 hot
  let d := (d.setH .dieMax 0 (max (d.h .dieMax) (t hot))).setH .dieMax 1 (max (d.h .dieMax 1) (t hot))
  let ended := (List.range 32).all fun i => t i + d.f FB_OT_HYST < d.f FB_OT_TH
  let decided := (List.range 32).any fun i => d.h .dieRun i == 4
  if decided && !(d.f FB_DSTAT_SRC).testBit 1 then devAction ((d.setBit FB_DSTAT_SRC 0 1 true).setH .devDone 1 1) 1
  else if ended then fbPins (devOut d 1 false)
  else d

/-- A HELD phase with neither HOC nor SOT latched is released where its rail runs (R250). -/
def releaseHeld (d : Dev) (n : Nat) : Dev :=
  let k := phDom d n
  let runs := if k < 16 then rlState d k == rlSoftStart || rlState d k == rlOn
    else k == 16 && (d.f ST_STATUS_STATE == 4 || d.f ST_STATUS_STATE == 5)
  if phState d n = phHeld && !d.on FB_PLAT_HOC n && !d.on FB_PLAT_SOT n && runs then
    leadCheck (phSet d n phSwitching) k
  else d

/-- A write of FB_PCLR (R249, R250): bit 0 HOC, 1 HSS, 2 SOT; `own`: the writer has the rights of the phase's owner,
`p0`: those of partition 0. -/
def pclr (d : Dev) (n bits : Nat) (own p0 : Bool) : Dev :=
  let warn : Int := ((descByte d n 0x34 : Int) - 40) * 16
  let ok (b : Nat) : Bool :=
    if b = 0 then own && !d.on FB_PSTAT_HOC n
    else if b = 1 then p0 && (phState d n == phFailed || phState d n == phIdle)
    else own && decide (d.fi PH_STAGE_TEMP n < warn)
  let d := d.each 3 fun d' b =>
    if bits.testBit b && bitsOf (d'.r FB_PLAT n) b 1 != 0 then
      (if ok b then d'.setR FB_PLAT n (putBits (d'.r FB_PLAT n) b 1 0) else d'.set1 FB_PCAUSE_CLR_REF n)
    else d'
  fbPins (if bits.testBit 0 || bits.testBit 2 then releaseHeld d n else d)

/-- A write of FB_RCLR (R249): bits 0 to 5 as in FB_RLAT. -/
def rclr (d : Dev) (k bits : Nat) (own p0 : Bool) : Dev :=
  let offL := rlState d k == rlOff || rlState d k == rlLatched
  let ok (b : Nat) : Bool :=
    if b = 2 then own && !d.on FB_RSTAT_ABS k
    else if b = 4 || b = 5 then p0 && offL
    else own && offL
  fbPins (d.each 6 fun d' b =>
    if bits.testBit b && bitsOf (d'.r FB_RLAT k) b 1 != 0 then
      (if ok b then d'.setR FB_RLAT k (putBits (d'.r FB_RLAT k) b 1 0) else d'.set1 FB_RCAUSE_CLR_REF k)
    else d')

/-- A write of FB_DCLR (R249). -/
def dclr (d : Dev) (bits : Nat) : Dev :=
  fbPins (d.each 8 fun d' s =>
    if bits.testBit s && (d'.f FB_DLAT_SRC).testBit s then
      (if s = 2 || s = 7 || !(d'.f FB_DSTAT_SRC).testBit s then d'.setBit FB_DLAT_SRC 0 s false
       else d'.set1 FB_DCAUSE_CLR_REF)
    else d')

/-- A write `x` of FB_RTEST (R234, R235): with GO it opens the test window and starts the test, on a rail that is OFF; on
another it has no effect. -/
def compTest (d : Dev) (k : Nat) (go : Bool) (x : Word) : Dev :=
  if !go then d.setR FB_RTEST k x
  else if rlState d k = rlOff then
    let d := (((d.setR FB_RTEST k x).set1 FB_RTEST_BUSY k).setH .testBlank k (d.now + 1)).setH .testCnt k 0
    d.setH .testSeen k 0
  else d.set1 FB_RCAUSE_ACC_ERR k

/-- The end of a margin interval for one comparator (R242, R243): g is cleared whether or not the fraction may change. -/
def marginStep (d : Dev) (k : Nat) (near : Hid) (fe base ceil : Fld) : Dev :=
  let g := d.hn near k
  let x := d.f fe k
  let d := d.setH near k 0
  if !d.on FB_RADAPT_EN k || rlState d k != rlOn || d.on FL_STEER_GLADE k then d
  else if d.f FB_RADAPT_GTH k ≤ g && x < d.f ceil k then
    let d := d.setF fe k (x + 1)
    if x + 1 = d.f ceil k then d.set1 FB_RCAUSE_MARGIN k else d
  else if g = 0 && d.f base k < x then d.setF fe k ((x : Int) - 1)
  else d

/-! ### The commands -/

/-- OV_TRIP (R219, R220): the filtered output is 1 and has not been decided. -/
def execOvTrip (k : Rail) (s : State) : Host.Outcome State Fault Refusal :=
  s.svc fun d => d.when (d.on FB_RSTAT_OV k && !d.hon .ovDone k) fun d => railAction (d.setH .ovDone k 1) k 0

/-- UV_TRIP (R219, R220). -/
def execUvTrip (k : Rail) (s : State) : Host.Outcome State Fault Refusal :=
  s.svc fun d => d.when (d.on FB_RSTAT_UV k && !d.hon .uvDone k) fun d => railAction (d.setH .uvDone k 1) k 1

/-- ABS_TRIP (R219, R220). -/
def execAbsTrip (k : Rail) (s : State) : Host.Outcome State Fault Refusal :=
  s.svc fun d => d.when (d.on FB_RSTAT_ABS k && !d.hon .absDone k) fun d => railAction (d.setH .absDone k 1) k 2

/-- DISCHARGE_END (R222): the output has fallen below VEND, or (`tmo`) RL_OFF.TMO ms have passed. -/
def execDischargeEnd (k : Rail) (tmo : Bool) (s : State) : Host.Outcome State Fault Refusal :=
  s.svc fun d => d.when (d.f FB_RSTAT_OFF_ACT k == 2 && (tmo || belowVend d k)) fun d =>
    fbTri ((d.setF FB_RSTAT_OFF_ACT k 1).setH .forceHold k 0) k

/-- HOC_TRIP (R219, R221). -/
def execHocTrip (n : Phase) (s : State) : Host.Outcome State Fault Refusal :=
  s.svc fun d => d.when (d.on FB_PSTAT_HOC n && !d.hon .hocDone n && d.f PH_STATUS_PWM n != pwmTri) fun d => hocTrip d n

/-- HSS_DECLARE (R236, R237): HSS_N samples in a row. -/
def execHssDeclare (n : Phase) (s : State) : Host.Outcome State Fault Refusal :=
  s.svc fun d => d.when (decide (d.f FB_PHOC_HSS_N n ≤ d.f FB_PSTAT_HSS_CNT n)) fun d => hssDeclare d n

/-- INPUT_OC (R219). -/
def execInputOc (s : State) : Host.Outcome State Fault Refusal := s.svc fun d => devDecide d 0

/-- DIE_OT_SCAN (R238): the readings of the 32 sensors, in °C + 40. -/
def execDieOtScan (temps : List Byte) (s : State) : Host.Outcome State Fault Refusal :=
  s.svc fun d => dieScan d (temps.map BitVec.toNat)

/-- STORE_OV (R219). -/
def execStoreOv (s : State) : Host.Outcome State Fault Refusal := s.svc fun d => devDecide d 4

/-- STORE_OC (R219). -/
def execStoreOc (s : State) : Host.Outcome State Fault Refusal := s.svc fun d => devDecide d 5

/-- STORE_OT (R219). -/
def execStoreOt (s : State) : Host.Outcome State Fault Refusal := s.svc fun d => devDecide d 6

/-- CROW_MIN_EXPIRE (R227): the shortest assertion of CROWBAR_N[j] has run. -/
def execCrowMinExpire (j : Fin 4) (s : State) : Host.Outcome State Fault Refusal :=
  s.svc fun d => fbPins (d.setH .crowMin j 0)

/-- EFUSE_MIN_EXPIRE (R228). -/
def execEfuseMinExpire (s : State) : Host.Outcome State Fault Refusal := s.svc fun d => fbPins (d.setH .efuseMin 0 0)

/-- COMP_TEST_DONE (R235): each raw output changed as forced, by the samples of the test's 128 cycles; where the test ends
with fewer samples taken by LOOP_SAMPLE, `pass` says so. -/
def execCompTestDone (k : Rail) (pass : Bool) (s : State) : Host.Outcome State Fault Refusal :=
  s.svc fun d => d.when (d.on FB_RTEST_BUSY k) fun d =>
    let pass := if d.hn .testCnt k = 128 then d.hn .testSeen k == 15 else pass
    let d := (d.setF FB_RTEST_BUSY k 0).setF FB_RTEST_RES k (if pass then 1 else 2)
    if pass then d.set1 FB_RCAUSE_TEST_DONE k else d.set1 FB_RCAUSE_TEST_FAIL k

/-- MARGIN_INTERVAL (R242, R243): the effective fractions hold while EN is 0, while the rail is not ON and in Glade. -/
def execMarginInterval (k : Rail) (s : State) : Host.Outcome State Fault Refusal :=
  s.svc fun d => marginStep (marginStep d k .ovNear FB_RADAPT_OV_FE FB_RCFG_OV_F FB_RCFG_OV_CEIL) k .uvNear
      FB_RADAPT_UV_FE FB_RCFG_UV_F FB_RCFG_UV_CEIL

end Sys2Proof.Machine
end

