-- ==== Sys2Proof/Machine/StoreCtl.lean ====
section
/-! DEFINITION. The input ceiling and the energy store (spec/07). -/

namespace Sys2Proof.Machine

/-- Store states (ST_STATUS.STATE). -/
abbrev stOff : Nat := 0
abbrev stAbsent : Nat := 1
abbrev stQualify : Nat := 2
abbrev stConnect : Nat := 3
abbrev stRun : Nat := 4
abbrev stHoldup : Nat := 5
abbrev stFault : Nat := 6

/-- The store phases. -/
def storePhases (d : Dev) : List Nat := domPhases d 16

/-- The store current, positive when charging (R257). -/
def storeCurrent (d : Dev) : Int :=
  let s := (storePhases d).foldl (fun a n => a + d.fi PH_IMEAS_I n) 0
  if d.on ST_CFG_SIDE then -s else s

/-- The store voltage on the borrowed sense pair, in mV (R256). -/
def storeVolts (d : Dev) : Nat := (d.h .vSense (d.f ST_CFG_SNS_RAIL) * d.f ST_SNS_STORE_DIV / 262144).toNat

/-- The droop priority of a rail (R276). -/
def prioOf (d : Dev) (k : Nat) : Nat := if k < 8 then d.f (ST_PRIO0_P k) else d.f (ST_PRIO1_P (k - 8))

/-- dis_max_eff and the charge limit under the connection ramp, in 0.25 A (R269, R283). -/
def disMaxEff (d : Dev) : Int :=
  if d.hon .sRamping then min (d.f ST_ILIM_DIS_MAX : Int) (d.h .sRamp) else d.f ST_ILIM_DIS_MAX
def chgLimEff (d : Dev) : Int := if d.hon .sRamping then min (d.h .sChgLim) (d.h .sRamp) else d.h .sChgLim


/-- The store voltage is sane (R281). -/
def saneVolts (d : Dev) (vst : Nat) : Bool :=
  vst ≤ d.f ST_VLIM2_V_MAX && (d.f ST_CFG_KIND != 2 || d.f ST_VLIM_V_EMPTY ≤ vst)

/-- The store is shut down: its phases go IDLE (R115, R280). -/
def storeShutdown (d : Dev) : Dev := shutdown d 16

/-- Removal of the store (R280 to R282). In QUALIFY it is the loss of presence of R280; in FAULT the state stays. -/
def storeRemoved (d : Dev) : Dev :=
  let st := d.f ST_STATUS_STATE
  if st = stQualify then d.setF ST_STATUS_STATE 0 stAbsent
  else if st = stOff || st = stAbsent then d
  else
    let d := if st = stFault then d else storeShutdown (allTri (d.setF ST_STATUS_STATE 0 stAbsent) 16)
    let d := closeSession d 1
    let d := floorShow ((((d.setF ST_ENERGY_E 0 0).setH .sEnergyN 0 0).setF ST_RESV_E 0 0).setH .sResvN 0 0)
    let d := ((d.setF ST_IST_TGT 0 0).setH .sBus 0 0).setF ST_STATUS_DIR 0 0
    grantStoreLost ((d.set1 ST_CAUSE_REMOVED).raise 0x213)

/-- dff, the duty matched to the voltages, in duty codes (R261). -/
def storeDff (d : Dev) (vst : Nat) : Int × Dev :=
  let vbus := d.f ST_VMEAS_VBUS
  if d.on ST_CFG_SIDE then d.divFree (vbus * 65536 : Nat) vst else d.divFree (vst * 65536 : Nat) vbus

/-- The transitions of R280 that follow from the state of other blocks: FAULT ends, presence qualifies, every store
phase is ARMED, whereupon the converter starts at the duty dff and the limits at 0 (R283). -/
def storeSettle (d : Dev) : Dev :=
  let d :=
    if d.f ST_STATUS_STATE = stFault && !((List.range 8).any fun s =>
        (d.on FB_DACT_STORE s && (d.f FB_DLAT_SRC).testBit s) || (4 ≤ s && s ≤ 6 && (d.f FB_DSTAT_SRC).testBit s)) then
      storeShutdown (d.setF ST_STATUS_STATE 0 stAbsent)
    else d
  let d := if d.f ST_STATUS_STATE = stAbsent && d.on ST_STATUS_PRES then d.setF ST_STATUS_STATE 0 stQualify else d
  if d.f ST_STATUS_STATE = stConnect && (storePhases d).all fun n => phState d n == phArmed then
    let d := d.eachIn (storePhases d) fun d n => phSet d n phSwitching
    let d := (((d.setF ST_STATUS_STATE 0 stRun).setH .sAcc 0 0).setH .sRamp 0 0).setH .sRamping 0 1
    let (dff, d) := storeDff d (storeVolts d)
    (((d.setH .sDuty 0 (clampI dff 2048 63488)).setH .sRampTick 0 0).set1 ST_CAUSE_INSERTED).raise 0x214
  else d

/-- A write of ST_CTL.EN (R259, R280). -/
def storeEn (d : Dev) (v : Bool) : Dev :=
  if v && d.hon .tapTest then d.set1 ST_CAUSE_CFG_ERR
  else if v then
    if d.on ST_CTL_EN then d
    else
      let idx := (storePhases d).map fun n => d.f PH_ROLE_STIDX n
      let sns := d.f ST_CFG_SNS_RAIL
      if d.f ST_CFG_KIND = 0 || !idx.contains 0 || !idx.Nodup || rlState d sns != rlOff || domPhases d sns != [] then
        d.set1 ST_CAUSE_CFG_ERR
      else
        let d := (d.setF ST_CTL_EN 0 1).setF ST_STATUS_STATE 0 stAbsent
        storeSettle (d.setH .sChgLim 0 (d.f ST_ILIM_CHG_MAX))
  else if d.on ST_CTL_EN then
    let d := storeShutdown ((d.setF ST_CTL_EN 0 0).setF ST_STATUS_STATE 0 stOff)
    closeSession ((d.setF ST_IST_TGT 0 0).setF ST_STATUS_DIR 0 0) 3
  else d

/-- Whether a write of ST_CEIL is refused (R279). -/
def ceilRefused (d : Dev) (lim pm : Nat) : Bool :=
  d.f FB_IIN_TH * 16 ≤ (lim + lim * pm / 1000) * 65536 / d.f ST_SHUNT_K

/-- A write of ST_ALLOW has been stored: the bucket is full (R274). -/
def allowWrite (d : Dev) : Dev := d.setR ST_BUCKET 0 (BitVec.ofNat 32 (d.f ST_ALLOW_T * 65536))

/-! ### The ceiling tick -/

/-- Energy, floor and reservation (R266, R267, R272), in every state of the store; with KIND 0 there is no store and E
stays. -/
def energyStep (d : Dev) (vst : Nat) (ist : Int) : Dev :=
  let ve := d.f ST_VLIM_V_EMPTY
  let nj : Int := vst * ist / 4
  let d :=
    if d.f ST_CFG_KIND = 1 then
      d.setF ST_ENERGY_E 0 (if vst ≤ ve then (0 : Int) else (d.f ST_CAPY_CAP * (vst * vst - ve * ve) / 200000 : Nat))
    else if d.f ST_CFG_KIND = 2 then
      let e := if vst ≤ ve then 0 else clampI (d.h .sEnergyN + nj) 0 (d.f ST_ECAP_E * 1000000 : Nat)
      (d.setH .sEnergyN 0 e).setF ST_ENERGY_E 0 (e / 1000000)
    else d
  let d := if ist < 0 then
      grantDrain d (-nj).toNat
    else if d.hon .sSession then d.setH .sSessE 0 (d.h .sSessE + nj) else d
  floorShow d

/-- FULL and the charge limit (R269); where FULL is set the counter of a pack stands at ECAP (R266). -/
def chargeLimits (d : Dev) (vst : Nat) : Dev :=
  let vf := d.f ST_VLIM_V_FULL
  let mx : Int := d.f ST_ILIM_CHG_MAX
  let lim := d.h .sChgLim
  let step := asr lim 6
  let d :=
    if d.f ST_CFG_KIND = 1 then d.setH .sChgLim 0 mx
    else if vf ≤ vst then d.setH .sChgLim 0 (lim - step)
    else if vst + 8 < vf then d.setH .sChgLim 0 (min mx (lim + max 1 step))
    else d
  let full := if d.f ST_CFG_KIND = 1 then decide (vf ≤ vst)
    else decide (vf ≤ vst) && decide (d.h .sChgLim < d.f ST_TERM_TERM)
  if full && !d.on ST_STATUS_FULL then
    let d := (d.set1 ST_STATUS_FULL).set1 ST_CAUSE_FULL
    let d := if d.f ST_CFG_KIND = 2 then
        floorShow ((d.setH .sEnergyN 0 (d.f ST_ECAP_E * 1000000 : Nat)).setF ST_ENERGY_E 0 (d.f ST_ECAP_E)) else d
    closeSession d 0
  else if d.on ST_STATUS_FULL && vst + d.f ST_VLIM2_RECHG < vf then (d.setF ST_STATUS_FULL 0 0).setH .sChgLim 0 mx
  else d

/-- The store target of a tick (R258, R263, R264, R267, R284). In HOLDUP the bound of the discharge is E itself. While EN is
0 no pair senses the store, and there is no ratio to judge. -/
def targetStep (d : Dev) (iin : Nat) (vbus vst th : Nat) (ist : Int) : Dev :=
  let (istBus, d) := d.divFree (ist * 4 * vst) vbus
  let load : Int := iin - istBus
  let lim : Int := d.f ST_CEIL_LIM
  let spare := lim - d.f ST_CMARG_MARGIN - load
  let (disBus, d) := d.divFree (disMaxEff d * 4 * vst) vbus
  let (chgBus, d) := d.divFree (chgLimEff d * 4 * vst) vbus
  let st := d.f ST_STATUS_STATE
  let ok := chargeOk d vbus vst th
  let e : Int := d.f ST_ENERGY_E
  let fl : Int := d.f ST_FLOOR_E
  let tb0 : Int :=
    if st = stHoldup then -(clampI (((d.f ST_HOLD_V_HOLD : Int) - vbus) * 4) 0 disBus)
    else if lim = 0 then (if ok then chgBus else 0)
    else if spare < 0 then max spare (-disBus)
    else if ok then clampI (spare - d.f ST_CMARG_GAP) 0 chgBus
    else 0
  let (floorB, d) := d.divFree (-((e - if st = stHoldup then 0 else fl) * 16000000)) vbus
  let tb := if tb0 < 0 then max tb0 floorB else tb0
  let bad := st != stOff && !ratioOk d vbus vst
  let d := if bad then d.set1 ST_CAUSE_RATIO else d
  let d := setTarget d (if bad then 0 else tb) vbus vst
  let tgt := d.fi ST_IST_TGT
  let d := (d.setF ST_IIN_IIN 0 iin).setF ST_IIN_LOAD 0 (sat load 16)
  let d := d.setF ST_STATUS_CHG_INH 0 (b2i (decide (th < d.f ST_TERM_TH_LO) || decide (d.f ST_TERM_TH_HI < th)))
  let d := d.setF ST_BUDGET_SPARE 0 (if lim = 0 then 0 else usat spare 16)
  let d := d.setF ST_BUDGET_PST 0 (if st = stRun && fl < e then usat (disMaxEff d * vst / 4000) 16 else 0)
  if 0 < tgt then
    let d := d.setH .sSessIdle 0 0
    if d.hon .sSession then d
    else (((d.setH .sSession 0 1).setH .sSessOpen 0 d.now).setH .sSessV 0 vst).setH .sSessE 0 0
  else if d.hon .sSession then d.setH .sSessIdle 0 1 else d

/-- The bucket and the run counts (R274); answers the overdraw and the allowance in effect. -/
def bucketStep (d : Dev) (iin : Nat) : Dev × Int × Int :=
  let lim : Int := d.f ST_CEIL_LIM
  let b : Int := d.f ST_BUCKET_LEVEL
  let ovr := iin - lim
  let aEff : Int := if 0 < b then lim * d.f ST_CEIL_ALLOW_PM / 1000 else 0
  let cap : Int := d.f ST_ALLOW_T * 65536
  let refill : Int := cap / (d.f ST_ALLOW_WIN * 1000)
  let b1 := if 0 < ovr then max 0 (b - 65536) else min (b + refill) cap
  let d := d.setR ST_BUCKET 0 (BitVec.ofInt 32 b1)
  let d := if b1 = 0 && 0 < b then d.set1 ST_CAUSE_ALLOW_OUT else d
  let d := d.setH .sRunD 0 (if aEff < ovr then d.h .sRunD + 1 else 0)
  (d.setH .sRunR 0 (if ovr ≤ 0 then d.h .sRunR + 1 else 0), ovr, aEff)

/-- THROTTLE_N is asserted and the partners are asked to cap (R275). -/
def throttleAssert (d : Dev) : Dev :=
  let beyond := (List.range 16).filter fun k => d.hon .igOver k
  let rails := if beyond.isEmpty then (List.range 16).filter fun k => prioOf d k != 0 else beyond
  let d := d.eachIn rails fun d k =>
    let g := d.f (ST_TMAP_G k)
    if d.hon .throttle g then d else (d.setH .throttle g 1).raise 0x211
  (d.eachIn rails throttleFrames).set1 ST_CAUSE_THROTTLE

/-- The duty caps of engaged rails (R277, R278). -/
def dcapStep (d : Dev) : Dev :=
  d.each 16 fun d k =>
    if d.hon .dOn k then
      let mx : Int := d.a FL_DLIM_DMAX k
      if d.hon .dRel k then
        let c := min mx (d.h .dCap k + 64)
        let d := d.setH .dCap k c
        if mx ≤ c then ((d.setH .dOn k 0).setH .dRel k 0).setBit ST_DSTAT_DROOP 0 k false else d
      else d.setH .dCap k (clampI (d.h .dCap k + (d.h .dLim k - d.h .tkAvg k)) 0 mx)
    else d

/-- FL_ISUM of every rail averaged over the tick that ends (R276); with no sample in it, its present value. -/
def tickAverages (d : Dev) : Dev :=
  d.each 16 fun d k =>
    let avg := if d.h .tkCnt k = 0 then d.fi FL_ISUM_ISUM k else d.h .tkSum k / d.h .tkCnt k
    ((d.setH .tkAvg k avg).setH .tkSum k 0).setH .tkCnt k 0

/-- One tick towards the release of each engaged level: the input stands at or below LIM − MARGIN − D of that level
(R278). -/
def releaseRuns (d : Dev) (iin : Nat) : Dev :=
  d.each 16 fun d l =>
    if 1 ≤ l && d.hon .dLevel l then
      let low := decide ((iin : Int) ≤ d.f ST_CEIL_LIM - (d.f ST_CMARG_MARGIN : Int) - d.h .dEffect l)
      d.setH .dRelRun l (if low then d.h .dRelRun l + 1 else 0)
    else d

/-- The highest engaged droop level, 0 for none (R278). -/
def droopLevel (d : Dev) : Nat := (List.range 16).foldl (fun b l => if 1 ≤ l && d.hon .dLevel l then l else b) 0

/-- Show THR and DLVL. -/
def escShow (d : Dev) (allowUsed : Bool) : Dev :=
  let thr := (List.range 4).any fun g => d.hon .throttle g
  let lv := droopLevel d
  (d.setF ST_STATUS_THR 0 (if thr then 2 else if lv != 0 then 3 else if allowUsed then 1 else 0)).setF ST_STATUS_DLVL 0 lv

/-- Removal that a tick detects by a jump of the store voltage with no current (R281). -/
def jumpRemoval (d : Dev) (vst : Nat) (ist : Int) : Bool :=
  let pv := d.h .sPrevVst
  let tgt := (d.fi ST_IST_TGT).natAbs
  (d.f ST_STATUS_STATE == stConnect || d.f ST_STATUS_STATE == stRun || d.f ST_STATUS_STATE == stHoldup)
  && decide (pv.natAbs < 10 * ((vst : Int) - pv).natAbs) && 4 ≤ tgt && 8 * ist.natAbs < tgt

/-- A ceiling tick (R254, R255, R263 to R280) on the mean input current in 1/16 A, the VBUS code and the STORE_TH code.
While no store phase switches there is no store commit point, and the tick takes the sensed voltage and no current. -/
def ceilTick (d : Dev) (iin vcode th : Nat) : Dev :=
  let d := tickAverages d
  let vbus := vcode * 25 * d.f ST_SNS_VBUS_DIV / 16384
  let sw := phasesIn d 16 phSwitching != []
  let vst := if sw then d.hn .sVst else storeVolts d
  let ist := if sw then d.h .sIst else 0
  let d := ((d.setF ST_VMEAS_VBUS 0 vbus).setF ST_VMEAS_VSTORE 0 vst).setF ST_DSTAT_TH 0 th
  let d := (d.setF ST_IST_IST 0 (sat ist 12)).raise 0x210
  if jumpRemoval d vst ist then storeRemoved (d.setH .sPrevVst 0 vst)
  else
    let d := storeSettle (chargeLimits (energyStep (d.setH .sPrevVst 0 vst) vst ist) vst)
    let d := if d.f ST_STATUS_STATE = stQualify && !saneVolts d vst then d.set1 ST_CAUSE_QUAL_FAIL else d
    let lo := d.f ST_HOLD_VBUS_LO
    let d := if d.f ST_STATUS_STATE = stRun && lo != 0 && vbus < lo then
        ((d.setF ST_STATUS_STATE 0 stHoldup).set1 ST_CAUSE_HOLDUP).setH .sHoldOk 0 0 else d
    let d := if d.f ST_STATUS_STATE = stHoldup then
        d.setH .sHoldOk 0 (if lo + lo / 16 ≤ vbus then d.h .sHoldOk + 1 else 0) else d
    let d := if d.hon .sRamping then d.setH .sRampTick 0 (d.h .sRampTick + 1) else d
    let d := targetStep d iin vbus vst th ist
    if d.on ST_CEIL_LIM then
      let (d, ovr, aEff) := bucketStep d iin
      let d := if aEff < ovr then throttleAssert d else d
      escShow (dcapStep (releaseRuns d iin)) (decide (0 < ovr))
    else escShow (dcapStep d) false

/-- One droop step (R276). -/
def droopStep (d : Dev) : Dev :=
  let f := 256 - (d.f ST_ESC_DSTEP : Int)
  let lvl := (List.range 16).find? fun l => 1 ≤ l && !d.hon .dLevel l && (List.range 16).any fun k => prioOf d k == l
  let d := ((d.setH .sRunD 0 0).set1 ST_CAUSE_DROOP).raise 0x212
  match lvl with
  | some l =>
    let d := (((d.setH .dLevel l 1).setH .dIin l (d.f ST_IIN_IIN)).setH .dEffect l 0).setH .dEffPend l 1
    let d := d.setH .dRelRun l 0
    let d := d.each 16 fun d k =>
      if prioOf d k = l then
        let d := (d.setH .dLim k (d.h .tkAvg k * f / 256)).setH .dCap k (d.f FL_DUTY_D k)
        ((d.setH .dOn k 1).setH .dRel k 0).setBit ST_DSTAT_DROOP 0 k true
      else d
    escShow d false
  | none => d.each 16 fun d k => if d.hon .dOn k && !d.hon .dRel k then d.setH .dLim k (d.h .dLim k * f / 256) else d


/-- A store commit point (R114, R255, R260, R261). -/
def storeCommit (d : Dev) : Dev :=
  let d := applyPending d 16 d.now
  let vst := storeVolts d
  let ist := storeCurrent d
  let d := ((d.setH .sVst 0 vst).setH .sIst 0 ist).setF ST_VMEAS_VSTORE 0 vst
  let d := d.setF ST_IST_IST 0 (sat ist 12)
  let sgn : Int := if d.on ST_CFG_SIDE then -1 else 1
  let (dff, d) := storeDff d vst
  let e := d.fi ST_IST_TGT - ist
  let acc := sat (d.h .sAcc + sgn * d.f ST_LOOP_KI * e) 24
  let d := (d.setH .sAcc 0 acc).setH .sDuty 0 (clampI (dff + asr (sgn * d.f ST_LOOP_KP * e + acc) 6) 2048 63488)
  let d := match leadOf d 16 with
    | some n => d.setH .ghostEnd n (d.now * 32 + 65 : Nat)
    | none => d
  d.setH .commitAt 16 (d.now + 1)

/-- THROTTLE_N[g] is released, and the partners of its rails are told (R275, R340). -/
def throttleEnd (d : Dev) (g : Nat) : Dev :=
  if d.hon .throttle g then
    (d.setH .throttle g 0).each 16 fun d k => if d.f (ST_TMAP_G k) = g then releaseFrames d k else d
  else d

/-! ### The commands -/

/-- CEIL_TICK (R263): the ten input-current codes of the window, the VBUS_SN code and the STORE_TH code. -/
def ceilTickOf (codes : List Nat) (d : Dev) : Nat :=
  (codes.map fun c => c * d.f ST_SHUNT_K / 65536).sum / 10

/-- STORE_COMMIT (R261): the phase with STIDX 0 reaches its valley in this LCLK cycle. -/
def execStoreCommit (s : State) : Host.Outcome State Fault Refusal :=
  s.svc fun d => match leadOf d 16 with
    | some n => d.when ((valleyDue d n).isSome && d.h .commitAt 16 != d.now + 1) storeCommit
    | none => d

/-- PRESENCE_DEBOUNCED (R281). -/
def execPresenceDebounced (s : State) : Host.Outcome State Fault Refusal :=
  s.svc fun d => storeSettle (d.set1 ST_STATUS_PRES)

/-- STORE_REMOVAL (R281): STORE_PRES_N has been high for 800 PCLK cycles. -/
def execStoreRemoval (s : State) : Host.Outcome State Fault Refusal :=
  s.svc fun d => storeRemoved (d.setF ST_STATUS_PRES 0 0)

/-- QUALIFY_DONE (R280): the voltage has been sane for ST_REINS.QUAL ms. -/
def execQualifyDone (s : State) : Host.Outcome State Fault Refusal :=
  s.svc fun d => d.when (d.f ST_STATUS_STATE == stQualify && saneVolts d (d.f ST_VMEAS_VSTORE)) fun d =>
    storeSettle ((d.setF ST_STATUS_STATE 0 stConnect).eachIn (storePhases d) phStart)

/-- HOLDUP_EXIT (R280). -/
def execHoldupExit (s : State) : Host.Outcome State Fault Refusal :=
  s.svc fun d => d.when (d.f ST_STATUS_STATE == stHoldup && decide (1000 ≤ d.h .sHoldOk)) fun d =>
    d.setF ST_STATUS_STATE 0 stRun

/-- THROTTLE_RELEASE (R275). -/
def execThrottleRelease (s : State) : Host.Outcome State Fault Refusal :=
  s.svc fun d => d.when (decide (d.f ST_ESC_TREL ≤ d.hn .sRunR)) fun d =>
    escShow (d.each 4 fun d g => throttleEnd d g) false

/-- DROOP_STEP (R276). -/
def execDroopStep (s : State) : Host.Outcome State Fault Refusal :=
  s.svc fun d => d.when (d.on ST_CEIL_LIM && decide (d.f ST_ESC_DDLY ≤ d.hn .sRunD)) droopStep

/-- DROOP_EFFECT (R276): the tick 32 µs after the step of level `l`. -/
def execDroopEffect (l : Fin 16) (s : State) : Host.Outcome State Fault Refusal :=
  s.svc fun d => d.when (d.hon .dEffPend l) fun d =>
    (d.setH .dEffPend l 0).setH .dEffect l (max 0 (d.h .dIin l - d.f ST_IIN_IIN))

/-- DROOP_RELEASE (R278): the highest engaged level is released. -/
def execDroopRelease (s : State) : Host.Outcome State Fault Refusal :=
  s.svc fun d =>
    let l := droopLevel d
    d.when (l != 0 && decide (d.f ST_ESC_DREL * 10 ≤ d.hn .dRelRun l)) fun d =>
      escShow ((d.setH .dLevel l 0).each 16 fun d k => if d.hon .dOn k && prioOf d k == l then d.setH .dRel k 1 else d) false

/-- CHARGE_SESSION_STOPPED (R270): charging has not resumed within 100 ms. -/
def execChargeSessionStopped (s : State) : Host.Outcome State Fault Refusal :=
  s.svc fun d => d.when (d.hon .sSession && d.hon .sSessIdle) fun d => closeSession d 3

/-- LIMIT_RAMP_STEP (R283): ten ticks after the last step. -/
def execLimitRampStep (s : State) : Host.Outcome State Fault Refusal :=
  s.svc fun d => d.when (d.hon .sRamping && decide (10 ≤ d.h .sRampTick)) fun d =>
    let v := d.h .sRamp + d.f ST_REINS_RAMP
    let d := (d.setH .sRamp 0 v).setH .sRampTick 0 0
    if (d.f ST_ILIM_DIS_MAX : Int) ≤ v && (d.f ST_ILIM_CHG_MAX : Int) ≤ v then d.setH .sRamping 0 0 else d

end Sys2Proof.Machine
end

