-- ==== Sys2Proof/Machine/Charter.lean ====
section
/-! DEFINITION. The governing charter: who owns what, initiator tags and attributes, memory windows, refusals and their
log (spec/11, R392 to R408, R411 to R413, R716 to R718). -/

namespace Sys2Proof.Machine

/-- Byte b of the governing charter (CH_CHARTER, R411). -/
def chByte (d : Dev) (b : Nat) : Nat := bitsOf (d.r CH_CHARTER (b / 4)) (8 * (b % 4)) 8

/-- Two bytes of it. -/
def chHalf (d : Dev) (b : Nat) : Nat := chByte d b + 256 * chByte d (b + 1)

/-- Entry j of a packed owner field (R411): owner and whether sealed. -/
def chOwner (d : Dev) (base j : Nat) : Nat × Bool :=
  let b := chByte d (base + j / 2)
  let x := if j % 2 = 0 then b % 16 else b / 16
  (x % 8, x / 8 = 1)

/-- Partitions in use (R394). -/
def npart (d : Dev) : Nat := chByte d 5

/-- Owners of the charter's resources (R393, R411). -/
def railOwner (d : Dev) (k : Nat) : Nat × Bool := chOwner d 0x10 k
def phaseOwner (d : Dev) (n : Nat) : Nat × Bool := chOwner d 0x18 n
def laneOwner (d : Dev) (l : Nat) : Nat × Bool := chOwner d 0x38 l
def storeOwner (d : Dev) : Nat × Bool := chOwner d 0x3E 0

/-- Byte and halfword at offset o of partition p's block (R412). -/
def partByte (d : Dev) (p o : Nat) : Nat := chByte d (0x40 + p * 0x14 + o)
def partHalf (d : Dev) (p o : Nat) : Nat := chHalf d (0x40 + p * 0x14 + o)

/-- The partition whose trail range holds trail t; outside every range, partition 0 and sealed (R395). The attribute of
a trail in a range is TR_SRC.SEALED. -/
def trailOwner (d : Dev) (t : Nat) : Nat × Bool :=
  match (List.range (npart d)).find? fun p => partHalf d p 0 ≤ t && t < partHalf d p 0 + partHalf d p 2 with
  | some p => (p, d.on TR_SRC_SEALED t)
  | none => (0, true)

/-- The partition whose ring range holds ring r, in units of 512 (R395, R412). -/
def ringOwner (d : Dev) (r : Nat) : Nat × Bool :=
  match (List.range (npart d)).find? fun p => partByte d p 4 ≤ r / 512 && r / 512 < partByte d p 4 + partByte d p 5 with
  | some p => (p, false)
  | none => (0, true)

/-- PORTS, OPMASK and METERS of a partition; one that does not exist has none (R394, R412). -/
def portsOf (d : Dev) (p : Nat) : Nat := if p < npart d then partByte d p 6 else 0
def opmaskOf (d : Dev) (p : Nat) : Nat := if p < npart d then partHalf d p 8 else 0
def metersOf (d : Dev) (p : Nat) : Nat := if p < npart d then partHalf d p 0xA else 0
def dbgOf (d : Dev) (p : Nat) : Bool := p < npart d && (partByte d p 7).testBit 0

/-- Whether [a, a + n) lies in a window of `base` and `len` units of `u` from `org`. -/
def inWindow (a n org u base len : Nat) : Bool := len != 0 && org + base * u ≤ a && a + n ≤ org + (base + len) * u

/-- Whether partition p reaches the n bytes at address a: its SRAM windows, its AON window, its flash window (R402). -/
def inPartMem (d : Dev) (p a n : Nat) : Bool :=
  p < npart d &&
    (inWindow a n 0x10000000 0x10000 (partByte d p 0xC) (partByte d p 0xD)
    || inWindow a n 0x10000000 0x10000 (partByte d p 0xE) (partByte d p 0xF)
    || inWindow a n 0x50010000 0x400 (partByte d p 0x10) (partByte d p 0x11)
    || inWindow a n 0 0x10000 (partByte d p 0x12) (partByte d p 0x13))

/-- The partition that owns the memory at address a: the one with a window there, else partition 0. -/
def memOwner (d : Dev) (a : Nat) : Nat :=
  ((List.range (npart d)).find? fun p => inPartMem d p a 1).getD 0

/-- Owner registers of other blocks (R371, R393). -/
def convOwner (d : Dev) (c : Nat) : Nat := d.f (TC_OWN_PART c)
def chanOwner (d : Dev) (ch : Nat) : Nat := d.f (DM_OWN_PART (ch % 8)) (ch / 8)

/-- The partition tag and warden attribute an initiator carries (R396, R397). -/
def tagOf (d : Dev) : Initiator → Nat × Bool
  | .core c => (d.f CH_CORETAG_PART c, false)
  | .warden => (0, true)
  | .root => (0, true)
  | .dma ch => (chanOwner d ch, false)
  | .debug p => (p, false)
  | .packet p _ => (p, false)

/-- Whether an initiator is the debug port (CH_WHOAMI). -/
def isDebug : Initiator → Bool
  | .debug _ => true
  | _ => false

/-- SRC of a refusal record for a bus initiator (R408). The spec gives no number for the warden, the root sequencer or
the debug port: the warden's is 4 and the others' 5 (notes/assumptions/42.md); they are never refused but the last. -/
def srcOf : Initiator → Nat
  | .core c => c
  | .dma ch => ch
  | .warden => 4
  | .packet _ port => port
  | _ => 5

/-- Record a refusal (R405, R406, R408). The log takes one refusal in each PCLK cycle, of 10 ticks of the time base. -/
def refuse (d : Dev) (part : Nat) (warden : Bool) (kind : Nat) (owner : Nat × Bool) (write : Bool) (src target : Nat) : Dev :=
  let d := ((d.incSat CH_PREF_COUNT part).incSat CH_REFCNT_TOTAL).set1 CH_CAUSE_REFUSED
  let h := d.f CH_REF_HEAD_HEAD
  if d.hn .refAt = d.now / 10 + 1 || 16 ≤ (h + 32 - d.f CH_REF_TAIL_TAIL) % 32 then (d.incSat CH_REFCNT_LOST).set1 CH_CAUSE_REF_OVR
  else
    let w0 := part + 8 * b2n warden + 16 * kind + 256 * owner.1 + 2048 * b2n owner.2 + 4096 * b2n write + 65536 * src
    let r := h % 16 * 4
    let put (d : Dev) (j x : Nat) : Dev := d.setR CH_REFLOG (r + j) (BitVec.ofNat 32 x)
    let d := put (put (put (put d 0 w0) 1 target) 2 d.now) 3 (d.now / 2 ^ 32)
    (d.setF CH_REF_HEAD_HEAD 0 (h + 1 : Nat)).setH .refAt 0 (d.now / 10 + 1 : Nat)

/-- Whether an access with a tag and an attribute passes the check of R399: the warden attribute, or the owner of an
open resource. -/
def passes (tag : Nat × Bool) (owner : Nat × Bool) : Bool := tag.2 || (tag.1 == owner.1 && !owner.2)

/-! ### Charter slots (R410, R413 to R415, R716, R717) -/

/-- A flag of eight fuses (R410). -/
def flag8 (b : Nat) : Bool := decide (5 ≤ popcount 8 b)

/-- Whether ranges (base, count) of two partitions meet; an empty one meets nothing. -/
def meets (a b : Nat × Nat) : Bool := a.2 != 0 && b.2 != 0 && a.1 < b.1 + b.2 && b.1 < a.1 + a.2

/-- Whether slot bytes `b` (256 of them) are valid but for SEAL (R413). -/
def slotContent (b : List Nat) : Bool :=
  let g (i : Nat) : Nat := (b[i]?).getD 0
  let hh (i : Nat) : Nat := g i + 256 * g (i + 1)
  let np := g 5
  let pb (p o : Nat) : Nat := 0x40 + p * 0x14 + o
  let ps := List.range np
  let nibs := ((List.range 0x2E).flatMap fun i => [g (0x10 + i) % 8, g (0x10 + i) / 16 % 8]) ++ [g 0x3E % 8]
  let trail (p : Nat) := (hh (pb p 0), hh (pb p 2))
  let ring (p : Nat) := (g (pb p 4), g (pb p 5))
  let wins (p : Nat) := [(g (pb p 0xC), g (pb p 0xD)), (g (pb p 0xE), g (pb p 0xF))]
  let aon (p : Nat) := (g (pb p 0x10), g (pb p 0x11))
  let fl (p : Nat) := (g (pb p 0x12), g (pb p 0x13))
  let fits (r : Nat × Nat) (n : Nat) : Bool := r.2 == 0 || r.1 + r.2 ≤ n
  let pairs := ps.flatMap fun p => (ps.filter fun q => p < q).map fun q => (p, q)
  g 0 == 0x43 && g 1 == 0x48 && g 2 == 0x52 && g 3 == 0x54 && g 4 == 1
    && crc16 (b.take 0xFC) == hh 0xFC && 1 ≤ np && np ≤ 8
    && nibs.all (fun x => x < np)
    && ps.all (fun p => fits (trail p) 4096 && fits (ring p) 128 && (wins p).all (fun w => fits w 240)
        && fits (aon p) 64 && fits (fl p) 128 && (p == 0 || !meets (fl p) (64, 56)))
    && pairs.all (fun x => !meets (trail x.1) (trail x.2) && !meets (ring x.1) (ring x.2) && !meets (aon x.1) (aon x.2)
        && !meets (fl x.1) (fl x.2) && (wins x.1).all fun w => (wins x.2).all fun v => !meets w v)
    && (hh (pb 0 8)).testBit 0 && (hh (pb 0 8)).testBit 1 && (hh (pb 0 8)).testBit 10 && (hh (pb 0 8)).testBit 15

/-- Whether a slot is valid (R413), blank or retired (R414, R415). -/
def slotValid (b : List Nat) : Bool := slotContent b && flag8 ((b[0xFE]?).getD 0)
def slotBlank (b : List Nat) : Bool := b.all fun x => x == 0
def slotRetired (b : List Nat) : Bool := flag8 ((b[0xFF]?).getD 0)

/-- The default charter as a slot image (R415, R717). -/
def defaultCharter : List Nat :=
  let body := [0x43, 0x48, 0x52, 0x54, 1, 1, 0, 0] ++ List.replicate 0x36 0 ++ [0, 1]
    ++ [0x00, 0x00, 0x00, 0x0F, 0, 120, 0x0F, 0x01, 0xFF, 0xFF, 0xFF, 0xFF, 0x00, 0xF0, 0, 0, 0, 64, 0, 128]
    ++ List.replicate (0xFC - 0x54) 0
  body ++ leBytes 2 (crc16 body) ++ [0xFF, 0x00]

/-- A write of CH_REF_TAIL (R407); a value that leaves more than 16 records is reserved (R14). -/
def refTail (d : Dev) (v : Nat) : Dev :=
  if 16 < (d.f CH_REF_HEAD_HEAD + 32 - v) % 32 then d.set1 CH_CAUSE_ACC_ERR else d.setF CH_REF_TAIL_TAIL 0 v

end Sys2Proof.Machine
end

