-- ==== Sys2Proof/Machine/Canopy.lean ====
section
/-! DEFINITION. The alert tree: bough bits, the canopy and its views, ALERT_N, the canopy interrupts and software causes
(spec/14, R504 to R511, R532). -/

namespace Sys2Proof.Machine

/-- Whether a leaf has an enabled cause. -/
def leaf (d : Dev) (C E : Reg) (i : Nat) : Bool := (d.r C i &&& d.r E i) != 0

/-- A summary of `n` leaves, bit i for leaf i. -/
def boughBits (n : Nat) (g : Nat → Bool) : Nat := (List.range n).foldl (fun a i => a + (if g i then 2 ^ i else 0)) 0

/-- The owner of GPIO pad i; partition 0 where VALID is 0 (R689, R692). -/
def padOwner (d : Dev) (i : Nat) : Nat :=
  if d.on (PX_GOWN_VALID (i % 8)) (i / 8) then d.f (PX_GOWN_PART (i % 8)) (i / 8) else 0

/-- The owner of timer t (R562). -/
def timerOwner (d : Dev) (t : Nat) : Nat := d.f (TM_OWN_PART (t % 8)) (t / 8)

/-- The bough bits of the canopy table: for canopy bit b, each bough bit with the partition it belongs to (R504). The
owner fields of converters, channels, timers, trails and pads are those of their own blocks. -/
def boughs (d : Dev) (b : Nat) : List (Bool × Nat) :=
  let rails (C E : Reg) := (List.range 16).map fun k => (leaf d C E k, (railOwner d k).1)
  let phases (C E : Reg) := (List.range 64).map fun n => (leaf d C E n, (phaseOwner d n).1)
  let dev (C E : Reg) := [(leaf d C E 0, 0)]
  match b with
  | 0 => rails FL_CAUSE FL_CAUSE_EN
  | 1 => phases PH_CAUSE PH_CAUSE_EN ++ (List.range 4).map fun m => (leaf d PH_SB_CAUSE PH_SB_CAUSE_EN m, 0)
  | 2 => (List.range 16).map fun g => (leaf d GV_CAUSE GV_CAUSE_EN g, 0)
  | 3 => rails RL_CAUSE RL_CAUSE_EN
  | 4 => rails FB_RCAUSE FB_RCAUSE_EN ++ phases FB_PCAUSE FB_PCAUSE_EN ++ dev FB_DCAUSE FB_DCAUSE_EN
      ++ dev FB_SC_CAUSE FB_SC_CAUSE_EN
  | 5 => dev ST_CAUSE ST_CAUSE_EN
  | 6 => (List.range 12).map fun l => (leaf d LN_CAUSE LN_CAUSE_EN l, (laneOwner d l).1)
  | 7 => rails IG_RCAUSE IG_RCAUSE_EN ++ dev IG_DCAUSE IG_DCAUSE_EN
  | 8 => (List.range 8).map fun c => (leaf d TC_CAUSE TC_CAUSE_EN c, convOwner d c)
  | 9 => dev CH_CAUSE CH_CAUSE_EN
  | 10 => ((List.range 8).map fun p => (leaf d CP_MBX_CAUSE CP_MBX_CAUSE_EN p, p)) ++ dev CP_CAUSE CP_CAUSE_EN
  | 11 => dev TR_CAUSE TR_CAUSE_EN
  | 12 => (List.range 32).map fun c => (leaf d DM_CAUSE DM_CAUSE_EN c, chanOwner d c)
  | 13 => dev QM_CAUSE QM_CAUSE_EN
  | 14 => (List.range 8).map fun p => (leaf d CN_SWCAUSE CN_SWEN p, p)
  | 15 => dev PD_CAUSE PD_CAUSE_EN
  | 16 => ((List.range 16).map fun t => (leaf d TM_TCAUSE TM_TCAUSE_EN t, timerOwner d t))
      ++ dev TM_ACAUSE TM_ACAUSE_EN
  | 17 => dev FC_CAUSE FC_CAUSE_EN
  | 18 => ((List.range 17).map fun k => (leaf d ME_BCAUSE ME_BCAUSE_EN k, 0)) ++ dev ME_CAUSE ME_CAUSE_EN
  | 19 => ((List.range 32).map fun i =>
        ((d.r PX_GCAUSE &&& d.r PX_GCAUSE_EN).getLsbD i, padOwner d i))
      ++ dev PX_CAUSE PX_CAUSE_EN
  | 20 => dev LF_CAUSE LF_CAUSE_EN
  | 21 => dev EM_CAUSE EM_CAUSE_EN
  | _ => []

/-- The canopy view of partition p (R505). -/
def canopyView (d : Dev) (p : Nat) : Nat := boughBits 22 fun b => (boughs d b).any fun x => x.1 && x.2 == p

/-- The whole canopy (R505). -/
def canopyAll (d : Dev) : Nat := boughBits 22 fun b => (boughs d b).any fun x => x.1

/-- What a reader sees in CN_VIEW (R506). -/
def viewOf (d : Dev) (tag : Nat × Bool) : Nat := if tag.2 then canopyAll d else canopyView d tag.1

/-- Partitions that contribute to ALERT_N (R507). -/
def alertParts (d : Dev) : Nat :=
  boughBits 8 fun p => (chByte d 0x3F).testBit p && canopyView d p &&& d.f CN_ALERT_EN_EN p != 0

/-- Whether ALERT_N is asserted: by the tree, and in Clearing, until SVC is on again, by the sampled comparators alone (R507,
R532). -/
def alertN (d : Dev) : Bool :=
  if d.hn .pdAllow 0 = 3 || !(d.f PD_ONA_DOM).testBit 0 then d.f FB_SC_CAUSE_TRIP &&& d.f PD_CLR_ALERT_SC != 0 else alertParts d != 0

/-- The canopy interrupt of core c, 4 the warden (R510). -/
def canopyIrq (d : Dev) (c : Nat) : Bool :=
  if c < 4 then canopyView d (d.f CH_CORETAG_PART c) &&& d.f CN_IRQEN_EN c != 0
  else canopyAll d &&& d.f CN_WIRQEN_EN != 0

/-- The registers of the tree that are read from the causes: the value of CN_ and bough registers for a reader. -/
def treeRead (d : Dev) (R : Reg) (i : Nat) (tag : Nat × Bool) : Option Nat :=
  let sum (n : Nat) (C E : Reg) := some (boughBits n fun j => leaf d C E j)
  if R = CN_VIEW then some (viewOf d tag)
  else if R = CN_CANOPY then some (canopyAll d)
  else if R = CN_PIN then some (b2n (alertN d) + 256 * alertParts d)
  else if R = CN_BOUGHGV then sum 16 GV_CAUSE GV_CAUSE_EN
  else if R = CN_BOUGHX then
    some (boughBits 16 fun j =>
      match j with
      | 0 => leaf d ST_CAUSE ST_CAUSE_EN 0
      | 1 => leaf d CH_CAUSE CH_CAUSE_EN 0
      | 2 => leaf d TR_CAUSE TR_CAUSE_EN 0
      | 3 => leaf d QM_CAUSE QM_CAUSE_EN 0
      | 4 => leaf d PD_CAUSE PD_CAUSE_EN 0
      | 5 => leaf d FC_CAUSE FC_CAUSE_EN 0
      | 6 => leaf d LF_CAUSE LF_CAUSE_EN 0
      | 7 => false
      | _ => leaf d CN_SWCAUSE CN_SWEN (j - 8))
  else if R = FL_BOUGH then sum 16 FL_CAUSE FL_CAUSE_EN
  else if R = PH_BOUGH0 then sum 32 PH_CAUSE PH_CAUSE_EN
  else if R = PH_BOUGH1 then some (boughBits 32 fun n => leaf d PH_CAUSE PH_CAUSE_EN (n + 32))
  else if R = PH_BOUGH2 then sum 4 PH_SB_CAUSE PH_SB_CAUSE_EN
  else if R = RL_BOUGH then sum 16 RL_CAUSE RL_CAUSE_EN
  else if R = FB_BOUGH then
    if i = 0 then sum 16 FB_RCAUSE FB_RCAUSE_EN
    else if i = 1 then sum 32 FB_PCAUSE FB_PCAUSE_EN
    else if i = 2 then some (boughBits 32 fun n => leaf d FB_PCAUSE FB_PCAUSE_EN (n + 32))
    else some (b2n (leaf d FB_DCAUSE FB_DCAUSE_EN 0) + 2 * b2n (leaf d FB_SC_CAUSE FB_SC_CAUSE_EN 0))
  else if R = LN_BOUGH then sum 12 LN_CAUSE LN_CAUSE_EN
  else if R = IG_BOUGH then
    some ((boughBits 16 fun k => leaf d IG_RCAUSE IG_RCAUSE_EN k) + 65536 * b2n (leaf d IG_DCAUSE IG_DCAUSE_EN 0))
  else if R = TC_BOUGH then sum 8 TC_CAUSE TC_CAUSE_EN
  else if R = CP_BOUGH then
    some ((boughBits 8 fun p => leaf d CP_MBX_CAUSE CP_MBX_CAUSE_EN p) + 256 * b2n (leaf d CP_CAUSE CP_CAUSE_EN 0))
  else if R = DM_BOUGH then sum 32 DM_CAUSE DM_CAUSE_EN
  else if R = TM_BOUGH then
    some ((boughBits 16 fun t => leaf d TM_TCAUSE TM_TCAUSE_EN t) + 65536 * b2n (leaf d TM_ACAUSE TM_ACAUSE_EN 0))
  else if R = ME_BOUGH then
    some ((boughBits 17 fun b => leaf d ME_BCAUSE ME_BCAUSE_EN b) + 131072 * b2n (leaf d ME_CAUSE ME_CAUSE_EN 0))
  else if R = EM_BOUGH then some (b2n (leaf d EM_CAUSE EM_CAUSE_EN 0))
  else if R = PX_BOUGH0 then some (d.r PX_GCAUSE &&& d.r PX_GCAUSE_EN).toNat
  else if R = PX_BOUGH1 then some (b2n (leaf d PX_CAUSE PX_CAUSE_EN 0))
  else none

/-- The effect of a write to CN_SWSETp (R511): each bit set wins over a clear of the same cycle (R12). -/
def swSet (d : Dev) (p : Nat) (w : Word) : Dev := d.each 16 fun d b => d.when (w.getLsbD b) fun d => d.setBit CN_SWCAUSE_SW p b true

end Sys2Proof.Machine
end

