-- ==== Sys2Proof/Machine/Mem.lean ====
section
/-! DEFINITION. The memories: their keys in State.mem, SRAM words with their check bits, valid copies and remapped words
(spec/19, R636 to R649), flash lines (R650 to R655), the bank arbiters (spec/13, R496 to R498), and which domain is on
(R512). -/

namespace Sys2Proof.Machine

/-! Keys below 2^32 are physical addresses (R33); the flash twins, the swap cell and the fuse array, which have none, and
the parts of an SRAM word beside its data lie above. -/

/-- Fuse byte b, byte o of twin t, and byte o of half j of the swap cell. -/
def fuseKey (b : Nat) : Nat := 0x100000000 + b
def twinKey (t o : Nat) : Nat := 0x100100000 + t * 0x40000 + o
def swapKey (j o : Nat) : Nat := 0x100200000 + j * 0x1000 + o

/-- Of an SRAM byte at key k: the difference of its stored check bits from those of R637; of a word at key k: its two
valid copies; the key of spare word i of bank b; and whether a flash line was left half programmed or erased. -/
def chkKey (k : Nat) : Nat := 0x200000000 + k
def validKey (k : Nat) : Nat := 0x400000000 + k
def spareKey (b i : Nat) : Nat := 0x110000000 + (b * 16 + i) * 4
def tornKey (k : Nat) : Nat := 0x800000000 + k / 16

/-- Of a token's word at address a: whether it still holds what was last stored (R33, R489). -/
def tokKey (a : Nat) : Nat := 0xB00000000 + a

/-- What a byte nothing has written reads as: erased flash all ones (R651); SRAM words are not valid and read 0 (R640,
R641); fuses unblown but for the product code (R409); every other memory 0, which the spec does not state
(notes/assumptions/3.md). -/
def Mem.blank (k : Nat) : Byte :=
  if k < 0x800000 || (0x100100000 ≤ k && k < 0x100202000) then 0xFF
  else if k = 0x100000008 then 0x16 else if k = 0x100000009 then 0x64 else 0

/-- The canonical form of the memory. -/
def Memory.wf (m : List Host.Cell) : Bool := Store.wf Mem.blank m

/-- The byte at key k. -/
def State.mb (s : State) (k : Nat) : Nat := (Store.get s.mem k (Mem.blank k)).toNat

/-- Write the byte at key k. -/
def State.setMb (s : State) (k v : Nat) : State :=
  { s with mem := Store.put s.mem k (BitVec.ofNat 8 v) (Mem.blank k) }

/-- The n bytes from key k, lowest first, and writing them. -/
def State.mbs (s : State) (k n : Nat) : List Nat := (List.range n).map fun j => s.mb (k + j)
def State.setMbs (s : State) (k : Nat) : List Nat → State
  | [] => s
  | b :: t => (s.setMb k b).setMbs (k + 1) t

/-- A result of an access: a value, a bus error, a bus error for a refusal, or an uncorrectable byte with its bank and
lane. -/
inductive Res where
  | ok (v : Nat)
  | err
  | refused
  | ue (bank lane : Nat)
  deriving DecidableEq, Repr

/-! ### Check codes (R637, R638) -/

/-- Check bits c0 to c3 of a byte. -/
def chk4 (b : Nat) : Nat :=
  let x (l : List Nat) : Nat := l.foldl (fun a i => a ^^^ bit b i) 0
  x [0, 1, 3, 4, 6] + 2 * x [0, 2, 3, 5, 6] + 4 * x [1, 2, 3, 7] + 8 * x [4, 5, 6, 7]

/-- Parity of the low n bits. -/
def parity (n x : Nat) : Nat := popcount n x % 2

/-- The five check bits of a byte. -/
def chk5 (b : Nat) : Nat :=
  let c := chk4 b
  c + 16 * ((parity 8 b + parity 4 c) % 2)

/-- The data bit at a position of the code word; 8 for a check bit. -/
def codeBit (s : Nat) : Nat :=
  match s with
  | 3 => 0 | 5 => 1 | 6 => 2 | 7 => 3 | 9 => 4 | 10 => 5 | 11 => 6 | 12 => 7 | _ => 8

/-- What a byte and its stored check bits read as: the data, and 0 clean, 1 corrected, 2 uncorrectable (R638). -/
def eccByte (b c : Nat) : Nat × Nat :=
  let s := chk4 b ^^^ (c % 16)
  let p := (parity 8 b + parity 5 c) % 2
  if p = 0 then (b, if s = 0 then 0 else 2)
  else if 12 < s then (b, 2)
  else if s = 0 || codeBit s = 8 then (b, 1)
  else (b ^^^ 2 ^ codeBit s, 1)

/-! ### SRAM -/

/-- The bank of an SRAM address: 0 to 15 main SRAM, 16 AON SRAM. -/
def sramBank (a : Nat) : Option Nat :=
  if 0x10000000 ≤ a && a < 0x11000000 then some ((a - 0x10000000) / 0x100000)
  else if 0x50010000 ≤ a && a < 0x50020000 then some 16 else none

/-- Byte offset of an address in its bank. -/
def bankOff (b a : Nat) : Nat := if b = 16 then a - 0x50010000 else (a - 0x10000000) % 0x100000

/-- The remap entry that holds word offset w of bank b (R648). -/
def remapOf (d : Dev) (b w : Nat) : Option Nat :=
  if b < 16 && d.on ME_BCFG_REPAIR b then
    (List.range 16).find? fun i => d.on ME_REMAP_V (b * 16 + i) && d.f ME_REMAP_WADDR (b * 16 + i) == w
  else none

/-- The key at which the word holding address a lies (R648). -/
def wordKey (d : Dev) (b a : Nat) : Nat :=
  match remapOf d b (bankOff b a / 4) with
  | some i => spareKey b i
  | none => a / 4 * 4

/-- One bank access of a slot (R497): commands are taken one at a time, so a round has one requester. -/
def arb (d : Dev) (b slot : Nat) : Dev :=
  if 16 ≤ b || (d.on ME_ARB_STAT_PARKED b && d.f ME_ARB_STAT_PARK b == slot) then d
  else
    let rank (d : Dev) (r : Nat) : Int := 15 - r + d.h .arbRank (b * 16 + r)
    let w := rank d slot
    let d := d.each 16 fun d r =>
      if r ≠ slot && decide (rank d r < w) then d.setH .arbRank (b * 16 + r) (d.h .arbRank (b * 16 + r) + 1) else d
    let d := (d.setH .arbRank (b * 16 + slot) (slot - 15)).setH .arbWait (b * 16 + slot) 0
    ((d.setF ME_ARB_STAT_PARK b slot).setF ME_ARB_STAT_PARKED b 1).setF ME_ARB_STAT_LAST b slot

/-- A slot that is masked, its initiator unpowered or in reset, has no wait and is not parked at any bank (R497). -/
def arbRelease (d : Dev) (slot : Nat) : Dev :=
  d.each 16 fun d b =>
    let d := d.setH .arbWait (b * 16 + slot) 0
    if d.on ME_ARB_STAT_PARKED b && d.f ME_ARB_STAT_PARK b == slot then
      (d.setF ME_ARB_STAT_PARKED b 0).setF ME_ARB_STAT_PARK b 15
    else d

/-- Sideband masks or unmasks a slot (R497, R503). -/
def maskSlot (d : Dev) (b : Bool) (slot : Nat) : Dev :=
  let d := d.setBit ME_ARB_MASK_MASK 0 slot b
  if b then arbRelease d slot else d

/-- What an error does at the target (R642): kind 1 corrected, 2 uncorrectable. -/
def eccNote (d : Dev) (b off slot kind : Nat) : Dev :=
  if kind = 0 then d
  else
    let d := if kind = 1 then (d.incSat ME_BCNT_CE b).set1 ME_BCAUSE_CE b else (d.incSat ME_BCNT_UE b).set1 ME_BCAUSE_UE b
    let d := (d.setF ME_BERR_ADDR b off).setF ME_BERR_LANE b (off % 4)
    (d.setF ME_BERR_UE b (b2i (kind = 2))).setF ME_BERR_SRC b slot

/-- Queue a corrected word for the scrubber (R642). -/
def wbPush (d : Dev) (w : Nat) : Dev :=
  if d.wbq.length < 4 then { d with wbq := d.wbq ++ [w] } else d.set1 ME_CAUSE_WBQ_OVR

/-- The bytes of lanes [o, o + n) of the word at key k as read: data and kind (R638 to R640). -/
def sramLanes (s : State) (k o n : Nat) : List (Nat × Nat) :=
  let v := s.mb (validKey k)
  (List.range n).map fun j =>
    if v = 0 then (0, 0)
    else
      let x := s.mb (k + o + j)
      if v = 3 then eccByte x (chk5 x ^^^ s.mb (chkKey (k + o + j))) else (x, 2)

/-- A read of n bytes within one word of SRAM, by a slot (R638 to R642). -/
def sramRead (s : State) (b a n slot : Nat) : Res × State :=
  let s := s.onDev fun d => arb d b slot
  let l := sramLanes s (wordKey s.dev b a) (a % 4) n
  let off := bankOff b a
  let s := s.onDev fun d => (List.range n).foldl (fun d j => eccNote d b (off + j) slot ((l[j]?).getD (0, 0)).2) d
  let s := if l.any fun x => x.2 == 1 then s.onDev fun d => wbPush d (a / 4 * 4) else s
  match (List.range n).find? fun j => ((l[j]?).getD (0, 0)).2 == 2 with
  | some j => (.ue (b % 16) (a % 4 + j), s)
  | none => (.ok (leNat (l.map fun x => x.1)), s)

/-- Lines of the instruction caches that hold an address are invalidated (R595). -/
def icacheDrop (d : Dev) (a n : Nat) : Dev :=
  { d with icache := d.icache.filter fun e => !(a / 32 ≤ e.line && e.line ≤ (a + n - 1) / 32) }

/-- Flash is programmed or erased in [k, k + n): the cached lines and the read buffers that hold any of it are dropped (R595,
R652). -/
def flashDrop (d : Dev) (k n : Nat) : Dev :=
  (icacheDrop d k n).each 4 fun d a =>
    let p := d.hn .fcPair a
    if 0 < p && k / 32 < p && p ≤ (k + n - 1) / 32 + 1 then d.setH .fcPair a 0 else d

/-- Bytes written with fresh check bits; a word that was not valid becomes valid with its other bytes 0 (R639, R640). -/
def sramPut (s : State) (k o : Nat) (bs : List Nat) : State :=
  let s := if s.mb (validKey k) = 0 then (s.setMbs k [0, 0, 0, 0]).setMbs (chkKey k) [0, 0, 0, 0] else s
  let s := (s.setMbs (k + o) bs).setMbs (chkKey (k + o)) (bs.map fun _ => 0)
  s.setMb (validKey k) 3

/-- A store of n bytes within one word of SRAM. -/
def sramWrite (s : State) (b a n v slot : Nat) : State :=
  let s := s.onDev fun d => arb d b slot
  let s := sramPut s (wordKey s.dev b a) (a % 4) (leBytes n v)
  if b < 16 then s.onDev fun d => icacheDrop d a n else s

/-- Whether the check-bit test mode governs a warden access to bank b (R649). -/
def testMode (d : Dev) (b : Nat) : Bool := d.on ME_TEST_EN && d.f ME_TEST_BANK == b

/-- A warden word load in test mode: the stored data, with ME_TCHKR loaded. -/
def testLoad (s : State) (b a : Nat) : Nat × State :=
  let s := s.onDev fun d => arb d b 4
  let k := wordKey s.dev b a
  let l := s.mbs k 4
  let c := (List.range 4).foldl (fun x j => x + (chk5 (s.mb (k + j)) ^^^ s.mb (chkKey (k + j))) * 32 ^ j) 0
  (leNat l, s.onDev fun d => (d.setF ME_TCHKR_CHK 0 c).setF ME_TCHKR_VALID 0 (s.mb (validKey k)))

/-- A warden word store in test mode. -/
def testStore (s : State) (b a v : Nat) : State :=
  let s := s.onDev fun d => arb d b 4
  let k := wordKey s.dev b a
  let bs := leBytes 4 v
  let c := s.dev.f ME_TCHKW_CHK
  let s := (s.setMbs k bs).setMbs (chkKey k) ((List.range 4).map fun j => chk5 ((bs[j]?).getD 0) ^^^ (c / 32 ^ j % 32))
  (s.setMb (validKey k) (s.dev.f ME_TCHKW_VALID)).onDev fun d => icacheDrop d a 4

/-- A bank's valid bits are cleared (R641): no array access, data and check bits as they were. -/
def clearValid (s : State) (p : Nat → Bool) : State :=
  { s with mem := s.mem.filter fun c => !(validKey 0 ≤ c.1 && c.1 < 0x800000000 && p (c.1 - validKey 0)) }

/-- The words of bank b, their spare words included. -/
def inBank (b k : Nat) : Bool :=
  sramBank k == some b || (b < 16 && spareKey b 0 ≤ k && k < spareKey (b + 1) 0)

/-! ### Flash -/

/-- The array and the key of a readable flash address: 0 bank A, 1 bank B, 2 and 3 the twins (R650). -/
def flashKey (d : Dev) (a : Nat) : Option (Nat × Nat) :=
  if a < 0x400000 then some (0, a)
  else if a < 0x800000 then some (1, a)
  else if a < 0x840000 then
    let t := d.f FC_SWAP_ACTIVE
    some (2 + t, twinKey t (a - 0x800000))
  else none

/-- Whether an array is busy, or the address lies in a suspended sector (R655). -/
def flashBusy (d : Dev) (arr a : Nat) : Bool :=
  (arr == 0 && d.on FC_STATUS_BUSY_A) || (arr == 1 && d.on FC_STATUS_BUSY_B)
  || (2 ≤ arr && arr - 2 != d.f FC_SWAP_ACTIVE && d.on FC_STATUS_BUSY_T)
  || (arr < 2 && 4 ≤ d.f FC_STATUS_STATE && d.hn .fcSpace 0 == 0 && d.f FC_SUSP_ADDR / 0x10000 == a / 0x10000)

/-- A read of n bytes of flash by the array (R651, R652, R655). A line left half programmed or half erased reads a free
value, or is uncorrectable, which the spec leaves open (notes/assumptions/43.md). -/
def flashRead (s : State) (a n : Nat) : Res × State :=
  match flashKey s.dev a with
  | none => (.err, s)
  | some (arr, k) =>
    if flashBusy s.dev arr a then (.err, s.onDev fun d => d.set1 FC_CAUSE_BUSY_RD)
    else
      let s := s.onDev fun d => d.setH .fcPair arr (k / 32 + 1 : Nat)
      if s.mb (tornKey k) = 0 && s.mb (0x900000000 + k / 0x10000) = 0 then (.ok (leNat (s.mbs k n)), s)
      else
        let (u, d) := s.dev.free
        let (v, d) := d.free
        let mark (d : Dev) (ue : Nat) : Dev :=
          ((d.setF FC_ECCADDR_ADDR 0 (a % 0x400000 / 16 : Nat)).setF FC_ECCADDR_ARR 0 arr).setF FC_ECCADDR_UE 0 ue
        if u % 3 = 1 then (.err, { s with dev := mark ((d.set1 FC_CAUSE_UE).incSat FC_ECCCNT_UE) 1 })
        else
          let d := if u % 3 = 2 then mark ((d.set1 FC_CAUSE_CE).incSat FC_ECCCNT_CE) 0 else d
          (.ok (v % 2 ^ (8 * n)), { s with dev := d })

/-! ### Plain memories -/

/-- Whether an address lies in instruction memory, in data memory of a grove, in the ring contexts, or in the tokens. -/
def isGvInst (a : Nat) : Bool := 0x20000000 ≤ a && a < 0x20400000 && a % 0x40000 < 0x10000
def isGvData (a : Nat) : Bool := 0x20000000 ≤ a && a < 0x20400000 && 0x10000 ≤ a % 0x40000 && a % 0x40000 < 0x30000
def isRingCtx (a : Nat) : Bool := 0x30000000 ≤ a && a < 0x30200000
def isToken (a : Nat) : Bool := 0x30200000 ≤ a && a < 0x30400000

/-- The grove of a grove memory address. -/
def gvOfAddr (a : Nat) : Nat := (a - 0x20000000) / 0x40000

/-- The little-endian number of n bytes at key k, and writing it. -/
def State.mget (s : State) (k n : Nat) : Nat := leNat (s.mbs k n)
def State.mput (s : State) (k n v : Nat) : State := s.setMbs k (leBytes n v)

end Sys2Proof.Machine
end

