-- ==== Sys2Proof/Machine/Tele.lean ====
section
/-! DEFINITION. The precision converters: sequences, settling, filtering, triggers and results (spec/10). -/

namespace Sys2Proof.Machine

/-- CH, GAIN and FLT of a step word. -/
def tcCh (w : Nat) : Nat := w % 128
def tcGain (w : Nat) : Nat := w / 256 % 8
def tcFlt (w : Nat) : Nat := w / 4096 % 8

/-- Whether a channel may be sampled by partition p (R369, R370); a code not listed may not. -/
def chanAllowed (d : Dev) (p ch : Nat) : Bool :=
  if ch < 16 then (railOwner d ch).1 == p
  else if ch < 23 then p == 0 || (storeOwner d).1 == p
  else if ch < 32 then false
  else if ch < 64 then true
  else (phaseOwner d (ch - 64)).1 == p

/-- The steps of converter c as they stand. -/
def tcSteps (d : Dev) (c : Nat) : List Nat :=
  (List.range (d.f TC_CFG_NSTEP c + 1)).map fun s => (d.r TC_STEP (c * 16 + s)).toNat

/-- The sequence of converter c, if one runs. -/
def tcSeqOf (d : Dev) (c : Nat) : Option TcSeq := d.tcSeqs.find? fun x => x.conv == c

/-- Put, or take away, the sequence of a converter. -/
def setSeq (d : Dev) (c : Nat) (x : Option TcSeq) : Dev :=
  { d with tcSeqs := (d.tcSeqs.filter fun y => y.conv != c) ++ x.toList }

/-- The history of a step. -/
def histOf (d : Dev) (c s : Nat) : TcHist :=
  (d.tcHists.find? fun x => x.conv == c && x.step == s).getD { conv := c, step := s, codes := [], cfg := 0, fcount := 0 }

/-- Put a step's history in place. -/
def setHist (d : Dev) (x : TcHist) : Dev :=
  { d with tcHists := (d.tcHists.filter fun y => !(y.conv == x.conv && y.step == x.step)) ++ [x] }

/-- Clear the history of a step whose word is w (R374). -/
def clearHist (d : Dev) (c s w : Nat) : Dev :=
  setHist d { conv := c, step := s, codes := [], cfg := w + 1, fcount := 2 ^ tcFlt w }

/-- Begin a sequence whose first conversion samples at `start` (R372 to R374, R378). -/
def seqStart (d : Dev) (c start : Nat) : Dev :=
  let ws := tcSteps d c
  let d := d.eachIn ((List.range ws.length).zip ws) fun d x =>
    if (histOf d c x.1).cfg = x.2 + 1 then d else clearHist d c x.1 x.2
  let disc := decide (d.hn .tcPrevCh c ≠ tcCh (ws.headD 0) + 1)
  let d := setSeq d c (some { conv := c, steps := ws, cur := 0, disc := disc, start := start, stop := 0, num := d.f TC_STATUS_SEQ c })
  let d := d.setF TC_STATUS_SEQ c ((d.f TC_STATUS_SEQ c : Int) + 1)
  (d.setF TC_STATUS_STATE c 1).setF TC_STATUS_STEP c 0

/-- The PCLK edge at or after the present instant (R26). -/
def pclkUp (d : Dev) : Nat := (d.now + 9) / 10 * 10

/-- A trigger (R377 to R381). One that finds a sequence being abandoned is dropped (notes/assumptions/36.md). -/
def tcTrigger (d : Dev) (c : Nat) : Dev :=
  let drop (d : Dev) : Dev := (d.set1 TC_CAUSE_OVR c).incSat TC_CNT_TDROP c
  if !d.on TC_CTL_EN c || !domOn d 12 then d
  else
    let st := d.f TC_STATUS_STATE c
    if st = 0 then seqStart d c (pclkUp d + 20)
    else if st = 1 && !d.on TC_CFG_MODE c then d.setF TC_STATUS_STATE c 2
    else if st = 1 then
      match tcSeqOf d c with
      | some x => setSeq (d.setF TC_STATUS_STATE c 3) c (some { x with stop := 1 })
      | none => d
    else drop d

/-- Abandon a running sequence, empty the slot and start nothing (R382). -/
def tcAbort (d : Dev) (c : Nat) : Dev :=
  match tcSeqOf d c with
  | some x => setSeq (d.setF TC_STATUS_STATE c 3) c (some { x with stop := 2 })
  | none => d

/-- A sequence whose last conversion ends at `fin` ends, completed or abandoned (R378, R381 to R383): its records, the last
carrying LAST, may go to the crossing from the next PCLK edge on, and the next sequence begins where one is due. -/
def seqEnd (d : Dev) (c fin : Nat) (aband restart : Bool) : Dev :=
  let mine := d.tcRecs.filter fun r => r.conv == c && !r.handed
  let mark (r : TcRec) (last : Bool) : TcRec :=
    { r with handed := true, w0 := r.w0 + (if aband then 2 ^ 20 else 0) + (if last then 2 ^ 23 else 0) }
  let out := mine.dropLast.map (mark · false) ++ (mine.getLast?.map (mark · true)).toList
  let d := { d with tcRecs := (d.tcRecs.filter fun (r : TcRec) => !(r.conv == c && !r.handed)) ++ out }
  let d := d.setH .tcHand c (max (d.hn .tcHand c) (fin + 10) : Nat)
  let pend := d.f TC_STATUS_STATE c = 2
  let d := (if aband then d.set1 TC_CAUSE_ABANDON c else d.set1 TC_CAUSE_DONE c).raise (0x240 + c)
  let d := setSeq ((d.setF TC_STATUS_STATE c 0).setF TC_STATUS_STEP c 0) c none
  if restart || (!aband && (pend || (d.on TC_CTL_EN c && d.f TC_CFG_TSRC c = 4))) then seqStart d c fin else d

/-- A conversion ends, 40 PCLK cycles after it sampled its input, with the voltage the input then had, in 3.125 µV (R367,
R368, R372 to R376, R384, R386). The first conversion ever differs in channel and gain from none before it, and is taken as a
change (notes/assumptions/36.md). -/
def convDone (d : Dev) (c : Nat) (v : Int) : Dev :=
  match tcSeqOf d c with
  | none => d
  | some x =>
    if d.now < x.start + 400 then d
    else
      let fin := x.start + 400
      let w := (x.steps[x.cur]?).getD 0
      let ch := tcCh w
      let code := clampI (v * 2 ^ tcGain w / 16) (-32768) 32767
      let ovr := code == -32768 || code == 32767
      let w1 := ch + 256 * c + 4096 * tcFlt w + 65536 * x.num
      let pf := 64 ≤ ch && decide (x.start < d.hn .failAt (ch - 64)) && decide (d.hn .failAt (ch - 64) ≤ fin)
      let base := 2 ^ 24 * tcGain w + 2 ^ 28 * x.cur
      let d := d.setH .tcPrevCh c (ch + 1)
      let push (d : Dev) (w0 : Nat) : Dev :=
        { d with tcRecs := d.tcRecs ++ [{ conv := c, w0 := w0, w1 := w1, stamp := x.start, handed := false }] }
      if x.disc then
        if x.stop ≠ 0 then seqEnd d c fin true (x.stop = 1)
        else
          let d := if d.on TC_CFG_RAW c then push d ((code % 65536).toNat + 2 ^ 17 + 2 ^ 21 * b2n ovr + 2 ^ 22 * b2n pf + base + 2 ^ 27) else d
          setSeq d c (some { x with disc := false, start := fin })
      else
        let d := if d.hn .tcPrevGain c = tcGain w + 1 then d else d.setF TC_STATUS_GCNT c 3
        let d := d.setH .tcPrevGain c (tcGain w + 1)
        let h := histOf d c x.cur
        let settle := min 7 (max (d.f TC_STATUS_GCNT c) h.fcount)
        let codes := ((code, ovr, pf) :: h.codes).take (2 ^ tcFlt w)
        let total : Int := codes.foldl (fun a y => a + y.1) 0
        let filt := total / codes.length
        let ovrs := codes.any fun y => y.2.1
        let pfs := codes.any fun y => y.2.2
        let d := setHist d { h with codes := codes, cfg := w + 1, fcount := h.fcount - 1 }
        let d := d.setF TC_STATUS_GCNT c ((d.f TC_STATUS_GCNT c - 1 : Nat))
        let d := push d ((filt % 65536).toNat + 2 ^ 16 + 2 ^ 17 * settle + 2 ^ 21 * b2n ovrs + 2 ^ 22 * b2n pfs + base)
        if x.stop ≠ 0 then seqEnd d c fin true (x.stop = 1)
        else if x.cur + 1 < x.steps.length then
          let nx := (x.steps[x.cur + 1]?).getD 0
          setSeq (d.setF TC_STATUS_STEP c (x.cur + 1 : Nat)) c
            (some { x with cur := x.cur + 1, disc := decide (tcCh nx ≠ ch), start := fin })
        else seqEnd d c fin false false

/-- EN written 1 (R370): refused where a step breaks the channel rule or the owner does not own the ring. Every step's
history is cleared, sequences count from 0, and the period runs from here (R374, R377, R384). -/
def tcEnable (d : Dev) (c : Nat) : Dev :=
  if d.on TC_CTL_EN c then d
  else
    let p := convOwner d c
    if (tcSteps d c).all (fun w => chanAllowed d p (tcCh w)) && (ringOwner d (d.f TC_RING_RING c)) == (p, false) then
      let d := (d.setF TC_CTL_EN c 1).setF TC_STATUS_SEQ c 0
      let d := d.setH .tcPerAt c (pclkUp d + 10 * d.f TC_PER_PER c : Nat)
      let ws := tcSteps d c
      ({ d with tcHists := d.tcHists.filter fun h => h.conv != c } : Dev).eachIn ((List.range ws.length).zip ws) fun d x =>
        clearHist d c x.1 x.2
    else d.set1 TC_CAUSE_CFG_ERR c

/-- EN written 0 (R382). -/
def tcDisable (d : Dev) (c : Nat) : Dev := tcAbort (d.setF TC_CTL_EN c 0) c

/-! ### The commands -/

/-- TC_PERIOD_EXPIRE (R377): PER PCLK cycles since EN rose or since the last such trigger. -/
def execTcPeriodExpire (c : Fin 8) (s : State) : Host.Outcome State Fault Refusal :=
  s.ok fun d => d.when (d.on TC_CTL_EN c && d.f TC_CFG_TSRC c == 1 && decide (d.hn .tcPerAt c ≤ d.now)) fun d =>
    tcTrigger (d.setH .tcPerAt c (d.hn .tcPerAt c + 10 * d.f TC_PER_PER c : Nat)) c

/-- TC_TRIGGER (R377, R379): an event on the converter's trail port (TSRC 2). The ceiling tick and the end of a sequence are
triggers by themselves (ceilConverters, seqEnd). -/
def execTcTrigger (c : Fin 8) (s : State) : Host.Outcome State Fault Refusal :=
  s.ok fun d => d.when (d.f TC_CFG_TSRC c == 2) fun d => tcTrigger d c

/-- A ceiling tick triggers the converters of TSRC 3 while they run (R377, R390). -/
def ceilConverters (d : Dev) : Dev :=
  d.each 8 fun d c => d.when (d.f TC_CFG_TSRC c == 3) fun d => tcTrigger d c

/-- CONVERSION_DONE (R367). -/
def execConversionDone (c : Fin 8) (v : Int) (s : State) : Host.Outcome State Fault Refusal :=
  s.ok fun d => convDone d c v

end Sys2Proof.Machine
end

