-- ==== Sys2Proof/Machine/Intent.lean ====
section
/-! DEFINITION. The intent commands: INTENT, CANCEL, the forwarded frames of a coupled rail, STATUS, and the ends of
pulses, grants and windows (spec/09, R324 to R350, R362). -/

namespace Sys2Proof.Machine

/-- A new entry of rail k from its fields. -/
def newIntent (d : Dev) (k slot lane orig id : Nat) (delta stamp arr : Int) (dur conf rise te : Nat) : Intent :=
  { rail := k, slot := slot, lane := lane, orig := orig, id := id, delta := delta, stamp := stamp, arr := arr,
    dur := dur, conf := conf, rise := rise, te := te, live := true, valid := false, gd := 0, cap := 0, watts := 0,
    part := 0, resv := 0, base := baselineOf d k stamp, cross := 0, mSum := 0, mCnt := 0, pt := 0 }

/-- The SWITCHING phases of the rail, of the whole group on a coupled one (R342, R362). -/
def groupNsw (d : Dev) (k : Nat) : Nat := nsw d k + (if d.on IG_CPL_EN k then d.hn .cNsw k else 0)

/-- A late acceptance (R331, R346): class 2 at once, with arrival error -lead. -/
def resolveLate (d : Dev) (i : Intent) : Dev :=
  resolve (d.set1 IG_RCAUSE_LATE i.rail) i 2 none (some ((i.stamp - i.arr) / 2))

/-- Steps 3 to 5 of R331 on an intent whose rail is ON and whose lead is within 8 µs: what became of it (the entry, GRES
and NOTE), at the device that decides. -/
def admitIntent (d : Dev) (i : Intent) : Dev × Intent × Nat × Nat :=
  let k := i.rail
  if 8 ≤ (liveOn d k).length then (d.set1 IG_RCAUSE_FULL k, i, 3, 2)
  else
    let old := (liveOn d k).filter fun j => j.slot == i.slot && j.orig == i.orig && j.id == i.id
    let d := d.eachIn old cancelIntent
    let late := decide (i.arr - i.stamp < 200)
    let (i, gres, d) := decideGrant d i
    let d := { d with intents := d.intents ++ [i] }
    let d :=
      if late then
        resolveLate d i
      else schedule d i (groupNsw d k) true
    let d := if 0 < i.delta && d.on RL_COP_ADD_INTENT k then readdAll d k else d
    (showOut d k, i, gres, b2n late)

/-- Forward an intent to every linked member (R362); TTR of an instant that has passed saturates to 0 (R4). -/
def sendIfwd (d : Dev) (i : Intent) (delta : Int) : Dev :=
  cplSendAll d i.rail 0x24 [(88, 8, i.id), (86, 2, d.f IG_CPL_MYIDX i.rail), (84, 2, i.slot), (68, 16, delta),
    (52, 16, usat ((i.arr - d.now) / 2) 16), (36, 16, i.dur), (32, 4, i.conf), (24, 8, i.rise), (16, 8, i.te)]

/-- An INTENT frame from lane l (R324, R329, R331, R332, R362). -/
def intentFrame (d : Dev) (l pay : Nat) (stamp : Int) : Dev :=
  let L := leadLane d l
  let k := payBits pay 103 100
  match slotOf d k l L with
  | none => d.set1 IG_RCAUSE_DROP k
  | some s =>
    if !(d.on IG_RCFG_EN k && (d.f LN_RAILS_RAILS L).testBit k && linkUp d L && partnerCap d L 0)
        || cplRole d k = cplDown then d.set1 IG_RCAUSE_DROP k
    else
      let delta := sext (payBits pay 91 76) 16
      let arr := stamp + 2 * payBits pay 75 60 - d.f LN_LAT_RTT L / 2
      let i := newIntent d k s L 0 (payBits pay 99 92) delta stamp arr (payBits pay 59 44) (payBits pay 43 40)
        (payBits pay 39 32) (trustOf d k s)
      if delta = 0 || i.dur = 0 then sendGrant d i 3 3
      else if rlState d k ≠ rlOn then sendGrant d i 3 0
      else if 16000 < arr - stamp then sendGrant (d.set1 IG_RCAUSE_EARLY k) i 3 1
      else if cplRole d k = cplMember then
        sendIfwd { d with fwdWait := d.fwdWait ++ [i] } i delta
      else
        let (d, i, gres, note) := admitIntent d i
        let d := if d.on IG_CPL_EN k && gres < 3 then sendIfwd d i delta else d
        sendGrant d i gres note

/-- A CANCEL frame (R329, R334, R362). -/
def cancelFrame (d : Dev) (l pay : Nat) : Dev :=
  let L := leadLane d l
  let k := payBits pay 103 100
  match slotOf d k l L with
  | none => d.set1 IG_RCAUSE_DROP k
  | some s =>
    if !(d.on IG_RCFG_EN k && (d.f LN_RAILS_RAILS L).testBit k && linkUp d L && partnerCap d L 0) then
      d.set1 IG_RCAUSE_DROP k
    else
      let id := payBits pay 99 92
      match (liveOn d k).find? fun i => i.slot == s && i.orig == 0 && i.id == id with
      | none =>
        match d.fwdWait.find? fun i => i.rail == k && i.slot == s && i.id == id with
        | some i => sendIfwd { d with fwdWait := d.fwdWait.filter fun j => !sameIntent i j } i 0
        | none => d
      | some i =>
        let d := cancelIntent d i
        if d.on IG_CPL_EN k then sendIfwd d i 0 else d

/-- A forwarded intent (R362): the master decides and answers the origin by GFWD; every member schedules the pulse for its
own phases. DELTA 0 withdraws. Here the origin keeps the slot, the class and the count. DEDUCED
(notes/assumptions/62.md): a member keeps no entry; an intent that comes with an ID it holds a pulse of replaces that pulse
(R333). -/
def ifwdReceive (d : Dev) (L pay : Nat) (stamp : Int) : Dev :=
  takeCpl d L (payBits pay 103 96) fun d k p =>
    let o := payBits pay 87 86 + 1
    let id := payBits pay 95 88
    let slot := payBits pay 85 84
    let delta := sext (payBits pay 83 68) 16
    let arr := stamp + 2 * payBits pay 67 52 - d.f LN_LAT_RTT L / 2
    let i := newIntent d k slot L o id delta stamp arr (payBits pay 51 36) (payBits pay 35 32) (payBits pay 31 24)
      (payBits pay 23 16)
    if delta = 0 then
      match d.intents.find? fun j => j.rail == k && j.slot == slot && j.orig == o && j.id == id && j.live with
      | some j => cancelIntent d j
      | none => withdrawLast d i
    else if cplRole d k = cplMaster then
      let (d, i, gres, note) := admitIntent d i
      let (g, c, v) : Int × Int × Int := if gres < 3 then (i.gd, i.cap, i.dur) else (0, 0, 0)
      cplSendTo d k p 0x25 [(88, 8, id), (86, 2, payBits pay 87 86), (84, 2, slot), (68, 16, g), (52, 16, c), (36, 16, v),
        (34, 2, gres), (32, 2, note)]
    else if cplRole d k = cplMember && 200 ≤ arr - stamp then schedule (withdrawLast d i) i (groupNsw d k) false
    else d

/-- A forwarded grant returns to the origin, which sends the GRANT (R362); its input power counts in committed_w (R335).
DEDUCED (notes/assumptions/62.md): an intent the master refused, or whose rail here has left ON meanwhile (step 2 of R331),
is withdrawn at the members by IFWD with DELTA 0: only an accepted intent has a pulse (R342). -/
def gfwdReceive (d : Dev) (L pay : Nat) : Dev :=
  takeCpl d L (payBits pay 103 96) fun d k _ =>
    let id := payBits pay 95 88
    let slot := payBits pay 85 84
    let mine (i : Intent) : Bool := i.rail == k && i.slot == slot && i.id == id
    if payBits pay 87 86 ≠ d.f IG_CPL_MYIDX k then d
    else
      match d.fwdWait.find? mine with
      | none => d
      | some i =>
        let d := { d with fwdWait := d.fwdWait.filter fun j => !mine j }
        let gres := payBits pay 35 34
        let note := payBits pay 33 32
        if gres = 3 then sendIfwd (sendGrant (if note = 2 then d.set1 IG_RCAUSE_FULL k else d) i 3 note) i 0
        else if rlState d k ≠ rlOn then sendIfwd (sendGrant d i 3 0) i 0
        else
          let old := (liveOn d k).filter fun j => j.slot == slot && j.orig == 0 && j.id == id
          let d := d.eachIn old cancelIntent
          let g := sext (payBits pay 83 68) 16
          let i := { i with gd := g, cap := payBits pay 67 52, valid := true, watts := (inputPower d k g).toNat }
          let d := { d with intents := d.intents ++ [i] }
          let d :=
            if note = 1 then resolveLate d i
            else schedule d i (groupNsw d k) true
          let d := if 0 < i.delta && d.on RL_COP_ADD_INTENT k then readdAll d k else d
          sendGrant (showOut d k) i gres note

/-- STATUS for every rail in the lane's LN_RAILS (R341). -/
def statusSend (d : Dev) (L : Nat) : Dev :=
  d.each 16 fun d k =>
    if (d.f LN_RAILS_RAILS L).testBit k then
      let il := d.fi IG_LOAD_IL k
      let head := clampI ((d.f RL_ILIM_EFF k : Int) * 2 - il / 2 - gsumOf d k) 0 65535
      let bud := if d.on ST_CEIL_LIM then clampI (stBudget d 1000 false).1 0 65535 else 65535
      let te := match slotOf d k L L with | some s => trustOf d k s | none => 0
      sendFrame d L 0x14 [(100, 4, k), (96, 4, rlState d k), (80, 14, d.a FL_REF_TGT k), (64, 16, il), (48, 16, head),
        (32, 16, bud), (24, 8, te)]
    else d


/-! ### The commands -/

/-- A flit of lane l crosses to the intent logic (R28, R29): a full crossing drops it, with DROP of the rail it names. -/
def intentCross (d : Dev) (l pay : Nat) (g : Dev → Dev) : Dev :=
  d.heard l fun d => if 16 ≤ d.laneFill l then d.set1 IG_RCAUSE_DROP (payBits pay 103 100) else g (d.laneIn l)

/-- INTENT (R331). -/
def execIntent (l : Lane) (pay : BitVec 104) (stamp : BitVec 64) (s : State) : Host.Outcome State Fault Refusal :=
  s.svc fun d => intentCross d l pay.toNat fun d => intentFrame d l pay.toNat stamp.toNat

/-- CANCEL (R334). -/
def execCancel (l : Lane) (pay : BitVec 104) (s : State) : Host.Outcome State Fault Refusal :=
  s.svc fun d => intentCross d l pay.toNat fun d => cancelFrame d l pay.toNat

/-- FF_PULSE_START (R343): the terms presented in this LCLK cycle. -/
def execFfPulseStart (k : Rail) (s : State) : Host.Outcome State Fault Refusal :=
  s.svc fun d => ffShow (ffPresent d k) k

/-- FF_PULSE_END (R343): the terms presented in this LCLK cycle; pulses that are over leave. -/
def execFfPulseEnd (k : Rail) (s : State) : Host.Outcome State Fault Refusal :=
  s.svc fun d => dropPulses (ffShow (ffPresent d k) k)

/-- GRANT_VALIDITY_END (R338): VLEN after the arrival. -/
def execGrantValidityEnd (k : Rail) (slot : Fin 4) (id : Byte) (s : State) : Host.Outcome State Fault Refusal :=
  s.svc fun d => d.eachIn (d.intents.filter fun i => i.rail == k.val && i.slot == slot.val && i.id == id.toNat && i.valid
    && decide (i.arr + i.dur * 2000 ≤ (d.now : Int))) endGrant

/-- STATUS_SEND (R341): every STPER µs. -/
def execStatusSend (l : Lane) (s : State) : Host.Outcome State Fault Refusal :=
  s.svc fun d => d.when (d.on IG_DCFG_STPER && !isMember d l && d.hn .igStAt l ≤ d.now + 1 - d.f IG_DCFG_STPER * 2000) fun d =>
    statusSend (d.setH .igStAt l (d.now + 1 : Nat)) l

/-- LOAD_ESTIMATE (R345). -/
def execLoadEstimate (k : Rail) (s : State) : Host.Outcome State Fault Refusal :=
  s.svc fun d => d.when (d.now % 16 == 0) fun d => loadEstimate d k

/-- INTENT_RESOLVE (R346, R348): every entry of the rail whose time has come, in order. -/
def execIntentResolve (k : Rail) (s : State) : Host.Outcome State Fault Refusal :=
  s.svc fun d => d.each 8 fun d _ => resolveHead d k

/-- IFWD_RECEIVE (R362). -/
def execIfwdReceive (l : Lane) (pay : BitVec 104) (stamp : BitVec 64) (s : State) : Host.Outcome State Fault Refusal :=
  s.svc fun d => cplCross d l fun d => ifwdReceive d (leadLane d l) pay.toNat stamp.toNat

/-- GFWD_RECEIVE (R362). -/
def execGfwdReceive (l : Lane) (pay : BitVec 104) (s : State) : Host.Outcome State Fault Refusal :=
  s.svc fun d => cplCross d l fun d => gfwdReceive d (leadLane d l) pay.toNat

/-- STORE_PART_ARRIVAL (R265): the arrival time of a grant with a store part, or the end of its window. -/
def execStorePartArrival (k : Rail) (id : BitVec 16) (ends : Bool) (s : State) : Host.Outcome State Fault Refusal :=
  s.svc fun d =>
    match d.intents.find? fun i => i.rail == k.val && i.slot == id.toNat / 256 % 4 && i.id == id.toNat % 256 && i.valid
        && 0 < i.part && decide ((if ends then i.arr + (i.dur : Int) * 2000 else i.arr) ≤ (d.now : Int)) && i.pt == (if ends then 1 else 0) with
    | some i => partTurn d i ends
    | none => d

/-- CEIL_TICK (R263, R339, R377): the ten input-current codes of the window, the VBUS_SN code and the STORE_TH code. -/
def execCeilTick (codes : List (Fin 4096)) (vbus : Fin 4096) (th : Fin 256) (s : State) :
    Host.Outcome State Fault Refusal :=
  s.svc fun d =>
    let d := overdrawCheck d
    ceilConverters (ceilTick d (ceilTickOf (codes.map fun c => c.val) d) vbus th)

end Sys2Proof.Machine
end

