-- ==== Sys2Proof/Machine/LaneTx.lean ====
section
/-! DEFINITION. The transmitters of the lanes (spec/08, R287, R289 to R296, R319): a flit's CRC, the scrambler, the symbols
on the line, and the arbiter that gives each flit slot its flit. -/

namespace Sys2Proof.Machine

/-! ### A flit on the line -/

/-- One bit of the CRC-16 of a flit (polynomial 0x8BB7) shifted in. -/
def flitCrcBit (c : Nat) (b : Bool) : Nat :=
  let x := c * 2 % 0x10000
  if c.testBit 15 != b then x ^^^ 0x8BB7 else x

/-- The CRC of a flit: over bits [127:16], from bit 127 down, initial value 0xFFFF (R291). -/
def flitCrc (typ pay : Nat) : Nat :=
  let x := typ * 2 ^ 104 + pay
  (List.range 112).foldl (fun c i => flitCrcBit c (x.testBit (111 - i))) 0xFFFF

/-- The 128 bits of a flit (R291). -/
def flitBits (typ pay : Nat) : Nat := (typ * 2 ^ 104 + pay) * 2 ^ 16 + flitCrc typ pay

/-- Whether 128 received bits pass their CRC (R291, R293): the condition of the commands that receive a flit, and the
opposite of FLIT_CRC_FAIL's. -/
def flitPasses (bits : Nat) : Bool := flitCrc (bits / 2 ^ 120 % 256) (bits / 2 ^ 16 % 2 ^ 104) == bits % 2 ^ 16

/-- The scrambler x^58 + x^39 + 1 over n bits, from the highest down: the scrambled bits, and its state, the last 58 bits it
sent with the newest in bit 0 (R290). -/
def scramble (st bits : Nat) : Nat → Nat × Nat
  | 0 => (0, st)
  | n + 1 =>
    let b := bits.testBit n != (st.testBit 38 != st.testBit 57)
    let r := scramble ((st * 2 + b2n b) % 2 ^ 58) bits n
    (b2n b * 2 ^ n + r.1, r.2)

/-- A PAM4 level from a pair of bits, Gray-coded, the earlier bit first (R287). -/
def pam4 (hi lo : Bool) : Int := if hi then (if lo then 1 else 3) else (if lo then -1 else -3)

/-- The symbols of 128 bits in the order of transmission, from bit 127 down: at 56 Gbit/s one PAM4 symbol carries two
consecutive bits (R287, R290); at the other rates one NRZ symbol, 1 or -1, carries one. -/
def lineLevels (rate wire : Nat) : List Int :=
  if rate = 3 then (List.range 64).map fun j => pam4 (wire.testBit (127 - 2 * j)) (wire.testBit (126 - 2 * j))
  else (List.range 128).map fun j => if wire.testBit (127 - j) then 1 else -1

/-! ### The arbiter -/

/-- The order of R295 among what waits: ordered sets, intent and coupling flits, SKIP, ACK, MSG. -/
def txPrio (typ : Nat) : Nat :=
  if 0xF0 ≤ typ then 0 else if 0x10 ≤ typ && typ < 0x30 then 1 else if typ = 2 then 2 else if typ = 1 then 3 else 4

/-- The flit that takes the next slot of member m: the first of the highest class. -/
def txPick (d : Dev) (L m : Nat) : Option Flit :=
  (d.txq.filter fun x => x.lane == L && (x.line == anyLine || x.line == m)).foldl (fun best x =>
    match best with
    | none => some x
    | some b => if txPrio x.typ < txPrio b.typ then some x else best) none

/-- The payload of a training sequence of member m (R296). -/
def tsPay (d : Dev) (L m : Nat) (recov : Bool) : Nat :=
  packFields [(100, 4, d.h .lRates L), (96, 2, d.f LN_STATUS_WIDTH L), (94, 2, (m : Int) - L - d.h .lBase L),
    (93, 1, b2i recov), (88, 4, d.f LN_CFG_PRESET L), (80, 8, d.f LN_VER_LVER), (48, 32, ownDevid d)]

/-- What fills a slot that nothing claims: the training sequence of POLL and CONFIG, else IDLE; none while the transmitter is
electrically idle (R295 to R297). -/
def txFiller (d : Dev) (L m : Nat) : Option (Nat × Nat) :=
  match d.f LN_STATUS_STATE L with
  | 2 => some (0xF0, tsPay d L m false)
  | 3 => some (0xF1, tsPay d L m false)
  | 4 => if d.now < d.hn .lIdle L then none else some (0, 0)
  | 5 | 6 | 7 | 8 => some (0, 0)
  | _ => none

/-- The rate at which a flit leaves: EIOS that a failed attempt left waiting at the rate that was being trained (R296). -/
def txRate (d : Dev) (L typ : Nat) : Nat :=
  if typ = 0xF4 && d.hon .lEios L then d.hn .lEios L - 1 else d.f LN_STATUS_RATE L

/-- TXINV inverts the polarity of what member m sends: a PAM4 level changes its sign by the first bit of its pair, an NRZ
level by its only one (R287, R323). -/
def txInvert (d : Dev) (m rate wire : Nat) : Nat :=
  if !d.on LN_CFG_TXINV m then wire
  else wire ^^^ (if rate = 3 then 0xAAAAAAAAAAAAAAAAAAAAAAAAAAAAAAAA else 2 ^ 128 - 1)

/-- A flit goes on the line of member m: its scrambled bits. -/
def putLine (d : Dev) (m typ pay rate : Nat) : Nat × Dev :=
  let r := scramble (d.hn .lScr m) (flitBits typ pay) 128
  let wire := txInvert d m rate r.1
  let skip : Int := if typ = 2 then 0 else d.h .lSkip m + 1
  (wire, ((d.setH .lScr m (r.2 : Nat)).setH .lWire m (wire : Nat)).setH .lSkip m skip)

/-- Degree and taps of a test pattern: x^31 + x^28 + 1, x^13 + x^12 + x^2 + x + 1, x^7 + x^6 + 1. PRESUMED from the patterns'
names: the spec gives no polynomial (notes/assumptions/59.md). -/
def prbsTaps (pat : Nat) : Nat × List Nat :=
  match pat with
  | 0 => (31, [30, 27])
  | 1 => (13, [12, 11, 1, 0])
  | _ => (7, [6, 5])

/-- n bits of a pattern, and the generator's state after them. -/
def prbs (pat st : Nat) : Nat → Nat × Nat
  | 0 => (0, st)
  | n + 1 =>
    let (deg, taps) := prbsTaps pat
    let b := taps.foldl (fun b i => b != st.testBit i) false
    let r := prbs pat ((st * 2 + b2n b) % 2 ^ deg) n
    (b2n b * 2 ^ n + r.1, r.2)

/-- A generator starts: where in its pattern is free (notes/assumptions/2.md). -/
def prbsSeed (d : Dev) (l : Nat) : Dev :=
  let (v, d) := d.free
  d.setH .lPrbs l (1 + v % (2 ^ (prbsTaps (d.f LN_TEST_PAT l)).1 - 1) : Nat)

/-- 128 bits of the pattern of LN_TEST on the line (R297). -/
def testSlot (d : Dev) (l : Nat) : Dev :=
  let r := prbs (d.f LN_TEST_PAT l) (d.hn .lPrbs l) 128
  (d.setH .lPrbs l (r.2 : Nat)).setH .lWire l (txInvert d l (d.f LN_STATUS_RATE l) r.1 : Nat)

/-- The receiver's count of pattern errors is brought up to now (R323): how many a checking receiver has found since then is
free (notes/assumptions/2.md). -/
def testCount (d : Dev) (l : Nat) : Dev :=
  if d.f LN_STATUS_STATE l = lnTest && d.on LN_TEST_CHK l then
    let (v, d) := d.free
    d.addSat LN_TEST_ERRS l v
  else d

/-- One flit slot of member m. A LAT takes its T0 here (R304). Held pads show nothing (R522). -/
def txOne (d : Dev) (L m : Nat) : Dev :=
  match txPick d L m with
  | some x =>
    let pay := if x.typ = 0xF3 && !x.pay.testBit 103 then packFields [(64, 32, d.now)] else x.pay
    let rate := txRate d L x.typ
    let (wire, d) := putLine { d with txq := d.txq.erase x } m x.typ pay rate
    if d.on PD_DSTAT_HELD (9 + m / 4) then d
    else { d with sent := d.sent ++
        [{ x with line := m, pay := pay, wire := wire, levels := lineLevels rate wire }] }
  | none =>
    match txFiller d L m with
    | some f => (putLine d m f.1 f.2 (d.f LN_STATUS_RATE L)).2
    | none => d

/-- One flit slot of a link: each member sends one; from ACTIVE entry flit k goes on member k mod w (R319). A lane in TEST
sends its pattern. -/
def txSlot (d : Dev) (L : Nat) : Dev :=
  let ms := carriers d L
  if d.f LN_STATUS_STATE L = lnTest then testSlot d L
  else if d.f LN_STATUS_STATE L = lnActive then
    d.each ms.length fun d _ =>
      let k := d.hn .lTxK L
      txOne (d.setH .lTxK L (k + 1 : Nat)) L (ms.getD (k % ms.length) L)
  else d.eachIn ms fun d m => txOne d L m

/-- A flit slot in sevenths of a tick: 2 word cycles at 56 Gbit/s, twice that at each lower rate (R289). -/
def slotLen (d : Dev) (L : Nat) : Nat :=
  32 * 2 ^ (3 - txRate d L (if d.txq.any fun x => x.lane == L && x.typ == 0xF4 then 0xF4 else 0))

/-- The flit slots that begin at this edge of the time base (notes/assumptions/59.md). -/
def laneSlots (d : Dev) : Dev :=
  d.each 12 fun d L =>
    if d.f LN_STATUS_STATE L = lnOff && d.txq.isEmpty then d
    else if isMember d L && d.f LN_STATUS_STATE L != lnTest then d
    else
      let now := 7 * d.now
      let due := d.hn .lSlot L
      if now < due then d
      else txSlot (d.setH .lSlot L ((if due + slotLen d L ≤ now then now else due) + slotLen d L : Nat)) L

/-! ### The receiver's flit lock (R294) -/

/-- A flit of lane l passes its CRC, or fails it: 8 in succession find the flit boundary. -/
def rxGood (d : Dev) (l : Nat) : Dev :=
  if d.on LN_STATUS_FLOCK l then d
  else
    let n := d.hn .lGood l + 1
    if n < 8 then d.setH .lGood l (n : Nat) else (d.setH .lGood l 0).setF LN_STATUS_FLOCK l 1
def rxBad (d : Dev) (l : Nat) : Dev := d.setH .lGood l 0

/-- A lane looks for the flit boundary anew. -/
def unlock (d : Dev) (l : Nat) : Dev := (d.setF LN_STATUS_FLOCK l 0).setH .lGood l 0

/-! ### The decision-feedback equaliser (R302) -/

/-- The taps of a lane are adapted anew: they are not known. -/
def dfeAnew (d : Dev) (l : Nat) : Dev := (d.each 16 fun d t => d.setH .lDfeAt (16 * l + t) 0).setH .lDfeNew l 1

/-- In ACTIVE the taps adapt from here on, by at most 1 LSB in 1,024 word cycles. -/
def dfeHold (d : Dev) (l : Nat) : Dev :=
  d.each 16 fun d t => if d.hon .lDfeAt (16 * l + t) then d.setH .lDfeAt (16 * l + t) (d.now + 1 : Nat) else d

/-- The selected tap as a read finds it: what adaptation makes of it is free (notes/assumptions/2.md), within the bound of
R302 in ACTIVE; elsewhere a tap that has been read stays as it was. A tap that was never adapted is 0, its reset value, and so
is the field while TAP names none. -/
def dfeRead (d : Dev) (l : Nat) : Int × Dev :=
  if !d.hon .lDfeNew l || !d.on LN_DFE_TAP l then (0, d) else
  let i := 16 * l + d.f LN_DFE_TAP l
  let (v, d) := d.free
  let since := d.hn .lDfeAt i
  let st := d.f LN_STATUS_STATE l
  if since = 0 || st = lnEq || st = lnRecover then
    let x := sext (v : Int) 8
    (x, (d.setH .lDfe i x).setH .lDfeAt i (d.now + 1 : Nat))
  else if st = lnActive then
    -- 1,024 word cycles are 16,384 sevenths of a tick
    let n := (d.now + 1 - since) * 7 / 16384
    let x := sat (d.h .lDfe i + (v % (2 * n + 1) : Nat) - n) 8
    (x, (d.setH .lDfe i x).setH .lDfeAt i (since + n * 16384 / 7 : Nat))
  else (d.h .lDfe i, d)

end Sys2Proof.Machine
end

