-- ==== Sys2Proof/Machine/Lanes.lean ====
section
/-! DEFINITION. The lanes: training, equalisation, bonds, link-down and recovery, flits with credit and retry, and the
partner's identity (spec/08). A link's commands act at the lead lane of its bond, and its members show its state. -/

namespace Sys2Proof.Machine

/-- The states of a link and its members. The receivers in use adapt their equalisers in ACTIVE and RECOVER; in EQ the trial
says when they do (R297, R301, R302). -/
def setLn (d : Dev) (L st : Nat) : Dev :=
  let d := d.eachIn (bondLanes d L) fun d m => (d.setF LN_STATUS_STATE m st).setF LN_EQ_ADAPT m 0
  let d := if st = lnActive || st = lnRecover then d.eachIn (carriers d L) fun d m => d.setF LN_EQ_ADAPT m 1 else d
  d.setH .lMemb L 0

/-- Set a field of LN_STATUS at a link and its members. -/
def setAll (d : Dev) (L : Nat) (F : Fld) (v : Int) : Dev := d.eachIn (bondLanes d L) fun d m => d.setF F m v

/-- The link and its members look for the flit boundary anew (R294). -/
def unlockAll (d : Dev) (L : Nat) : Dev := d.eachIn (bondLanes d L) unlock

/-- Set a cause at a link and its members. -/
def causeAll (d : Dev) (L : Nat) (F : Fld) : Dev := d.eachIn (bondLanes d L) fun d m => d.set1 F m

/-- Four EIOS, on every member. -/
def sendEios (d : Dev) (L : Nat) : Dev :=
  (d.each 4 fun d _ => d.eachIn (carriers d L) fun d m => sendOn d L m 0xF4 0).setH .lEios L 0

/-- Every rate up to RMAX (R297). -/
def allRates (d : Dev) (L : Nat) : Dev := d.setH .lRates L (2 ^ (d.f LN_CFG_RMAX L + 1) - 1 : Nat)

/-- Whether the group's PLL is locked with REFCLK present (R288, R297), in a domain that is on (R322). -/
def pllOk (d : Dev) (L : Nat) : Bool := d.on LN_GRP_PLL_LOCK (L / 4) && domOn d (9 + L / 4) && d.on PX_STATUS_REFCLK

/-- Enter DETECT: the whole bond takes part again, and no partner is sensed (R297, R320). -/
def toDetect (d : Dev) (L : Nat) : Dev :=
  let d := setLn ((unlockAll (setAll d L LN_STATUS_PRES 0) L).setH .lBase L 0) L lnDetect
  setAll d L LN_STATUS_WIDTH (d.f LN_CFG_WIDTH L)

/-- OFF to DETECT, with the failure counts cleared (R297). -/
def startTraining (d : Dev) (L : Nat) : Dev :=
  toDetect ((allRates d L).each 4 fun d j => d.setH .lFail (L * 4 + j) 0) L

/-- An OFF link with EN set trains once its PLL is locked with REFCLK. -/
def tryStart (d : Dev) (L : Nat) : Dev :=
  if !isMember d L && d.f LN_STATUS_STATE L = lnOff && d.on LN_CTL_EN L && pllOk d L then startTraining d L else d

/-- Coefficients of the transmitter (LN_TXC), and the preset table of R299 as |c-1|, c0, |c+1|. -/
def setTxc (d : Dev) (L pre main post : Nat) : Dev :=
  ((d.setF LN_TXC_PRE L pre).setF LN_TXC_MAIN L main).setF LN_TXC_POST L post
def presets : List (Nat × Nat × Nat) :=
  [(0, 32, 0), (0, 28, 4), (0, 24, 8), (2, 26, 4), (2, 24, 6), (4, 22, 6), (2, 20, 10), (4, 18, 10)]
def applyPreset (d : Dev) (L p : Nat) : Dev :=
  match presets[p]? with
  | some (a, b, c) => (setTxc d L a b c).setF LN_EQ_PRESET_TX L p
  | none => d

/-- Enter POLL: TS1 at 7 Gbit/s with preset 0 on every member (R297), after the EIOS of a failed attempt at its rate (R296). -/
def toPoll (d : Dev) (L : Nat) : Dev :=
  let d := d.setH .lEios L (d.f LN_STATUS_RATE L + 1 : Nat)
  let d := unlockAll (setAll (setLn d L lnPoll) L LN_STATUS_RATE 0) L
  d.eachIn (carriers d L) fun d m => sendOn (applyPreset d m 0) L m 0xF0 (tsPay d L m false)

/-- Training is abandoned: DETECT with TRAIN_FAIL. -/
def trainFail (d : Dev) (L : Nat) : Dev := toDetect (d.set1 LN_CAUSE_TRAIN_FAIL L) L

/-- A failed attempt (R296). -/
def failedAttempt (d : Dev) (L : Nat) : Dev :=
  let r := d.f LN_STATUS_RATE L
  let n := d.h .lFail (L * 4 + r) + 1
  let d := (sendEios d L).setH .lFail (L * 4 + r) n
  let d := if (d.f LN_CFG_FALLBACK L : Int) + 1 ≤ n then d.setHbit .lRates L r false else d
  if d.h .lRates L = 0 then allRates (trainFail d L) L else toPoll d L

/-- A bond fault at some members (R318, R320): with DEGRADE set the next attempt uses the half without a faulty one, the
lower half on a tie; else it is a failed attempt. -/
def bondFault (d : Dev) (L : Nat) (bad : List Nat) : Dev :=
  let w := d.f LN_STATUS_WIDTH L
  if w = 0 || !d.on LN_CFG_DEGRADE L then failedAttempt d L
  else
    let half := 2 ^ (w - 1)
    let b := d.hn .lBase L
    let low := bad.any fun m => m < L + b + half
    let high := bad.any fun m => L + b + half ≤ m
    let d := (d.setH .lBase L (if low && !high then b + half else b : Nat)).set1 LN_CAUSE_BOND_DEG L
    toPoll (sendEios (setAll d L LN_STATUS_WIDTH ((w : Int) - 1)) L) L

/-- Member l has done what the present training state asks; when all the members in use have, `go` follows (R318). -/
def memberDone (d : Dev) (l : Nat) (go : Dev → Nat → Dev) : Dev :=
  let L := leadLane d l
  if (carriers d L).contains l then
    let d := d.setHbit .lMemb L (l - L) true
    if (carriers d L).all fun m => d.hbit .lMemb L (m - L) then go d L else d
  else d

/-- A training state of the link of lane l times out (R318): where some members have done what it asks and others have not,
it is a bond fault at these; else `alone`. -/
def memberLate (d : Dev) (l : Nat) (alone : Dev → Nat → Dev) : Dev :=
  let L := leadLane d l
  let late := (carriers d L).filter fun m => !d.hbit .lMemb L (m - L)
  if late.length < (carriers d L).length then bondFault d L late else alone d L

/-! ### Flits -/

/-- Send an ACK (R308). -/
def sendAck (d : Dev) (L : Nat) (nak : Bool) : Dev :=
  let c := min (32 * bondWidth d L) (d.hn .lFreed L)
  let d := sendFlit d L 0x01 [(96, 8, d.h .lRxSeq L - 1), (88, 8, c), (87, 1, b2i nak)]
  (d.setH .lFreed L (d.h .lFreed L - c)).setH .lAckDue L 0

/-- The MSG flits of a message (R306): up to ten bytes each. -/
def msgFlits (ch : Nat) (bytes : List Nat) : List (List (Nat × Nat × Int)) :=
  let n := (bytes.length + 9) / 10
  (List.range n).map fun j =>
    let part := (bytes.drop (10 * j)).take 10
    let pos : Int := if n = 1 then 0 else if j = 0 then 1 else if j + 1 = n then 3 else 2
    [(94, 2, pos), (90, 4, (ch : Int)), (86, 4, (part.length : Int))]
      ++ (List.range part.length).map fun i => (72 - 8 * i, 8, (((part[i]?).getD 0 : Nat) : Int))

/-- Send waiting flits of one message while the link holds credit and fewer than 64 await acknowledgement (R310). The
flits not sent stay. -/
def sendSome (L elem : Nat) : Dev → List (List (Nat × Nat × Int)) → Dev × List (List (Nat × Nat × Int))
  | d, [] => (d, [])
  | d, f :: t =>
    if 0 < d.h .lCredit L && (d.unacked.filter fun u => u.lane == L).length < 64 then
      let q := d.hn .lTxSeq L
      let p := (96, 8, (q : Int)) :: f
      let d := sendFlit d L 0x40 p
      let u : Unacked := { lane := L, seq := q, pay := packFields p, elem := if t.isEmpty then elem else 0 }
      let d := { d with unacked := d.unacked ++ [u] }
      sendSome L elem ((d.setH .lTxSeq L ((q + 1) % 256 : Nat)).setH .lCredit L (d.h .lCredit L - 1)) t
    else (d, f :: t)

/-- Send what waits for link L. A message some of whose flits have gone keeps its place at the head. -/
def pump (d : Dev) (L : Nat) : Dev :=
  let mine := d.txMsgs.filter fun m => m.lane == L
  let rest := d.txMsgs.filter fun m => m.lane != L
  if d.f LN_STATUS_STATE L = lnActive then
    let go := mine.foldl (fun (acc : Dev × List TxMsg) m =>
      if acc.2.isEmpty then
        let (d, left) := sendSome L m.elem acc.1 ((msgFlits m.ch m.bytes).drop m.gone)
        if left.isEmpty then (d, [])
        else (d, [({ m with gone := (m.bytes.length + 9) / 10 - left.length } : TxMsg)])
      else (acc.1, acc.2 ++ [m])) ({ d with txMsgs := rest }, [])
    { go.1 with txMsgs := rest ++ go.2 }
  else d

/-- Put a message at the end of a link's queue and send what can go. -/
def sendMsg (d : Dev) (L ch : Nat) (bytes : List Nat) (elem : Nat) : Dev :=
  pump { d with txMsgs := d.txMsgs ++ [{ lane := L, ch := ch, bytes := bytes, elem := elem, gone := 0 }] } L

/-- This device's identity frame (R312, R316). The spec gives no VENDOR, CAPS, FWVER or VENDOR_DATA of the device: they are
free, but that VENDOR is a valid one and CAPS[15:7] are 0. -/
def ownIdentity (d : Dev) (L : Nat) : List Nat × Dev :=
  let (ven, d) := d.free
  let (caps, d) := d.free
  let (fw, d) := d.free
  let (a, d) := d.free
  let (b, d) := d.free
  let (c, d) := d.free
  let body := [1, 2, d.f LN_VER_CUR, d.f LN_VER_PREV] ++ leBytes 2 (1 + ven % 0xFFFE) ++ leBytes 2 (caps % 128) ++ leBytes 8 (ownDevid d)
    ++ leBytes 2 (d.f LN_RAILS_RAILS L) ++ [4, 0, 0, 0, 0, 0] ++ leBytes 4 fw ++ leBytes 8 a ++ leBytes 8 b ++ leBytes 2 c
  (body ++ leBytes 2 (crc16 body), d)

/-! ### Leaving and entering ACTIVE -/

/-- Lane loss (R228, R241): the source's condition holds while a lane of the mask that was declared down is not trained
again. -/
def laneLossShow (d : Dev) : Dev :=
  let lost := (List.range 12).any fun l =>
    (d.f FB_LANE_MASK).testBit l && d.hbit .lLost 0 l && d.f LN_STATUS_STATE l != lnActive
  if lost then d
  else
    let fell := (d.f FB_DSTAT_SRC).testBit 3 && !d.on FB_DACT_LATCH 3 && d.on FB_DACT_EFUSE 3
    let d := (d.setBit FB_DSTAT_SRC 0 3 false).setH .devDone 3 0
    fbPins (if fell then d.setH .efuseMin 0 1 else d)

/-- A masked lane is declared down (R241). -/
def laneLost (d : Dev) (l : Nat) : Dev :=
  let d := d.setHbit .lLost 0 l true
  if (d.f FB_LANE_MASK).testBit l && !(d.f FB_DSTAT_SRC).testBit 3 then
    devAction ((d.setBit FB_DSTAT_SRC 0 3 true).setH .devDone 3 1) 3
  else d

/-- The partner of link L is gone (R310, R349, R361, R362): its intents are cancelled, and a coupled peer behind it is
lost. -/
def partnerGone (d : Dev) (L : Nat) : Dev :=
  let fw := d.intents.filter fun i => i.lane == L && i.orig == 0 && i.live && d.on IG_CPL_EN i.rail
  let waits := d.fwdWait.filter fun i => i.lane == L
  let d := grantLaneDown d L
  let d := d.eachIn (fw ++ waits) fun d i => sendIfwd d i 0
  cplLinkDown { d with fwdWait := d.fwdWait.filter fun i => i.lane != L } L

/-- LINK_DOWN of every lane of a link: the event and the count (R310). -/
def countDown (d : Dev) (L : Nat) : Dev :=
  d.eachIn (bondLanes d L) fun d m => (d.incSat LN_DOWNCNT_DOWN m).raise (0x221 + 2 * m)

/-- Leave ACTIVE (R310), for a recovery or not; the lane port's stream is fresh again and its continuation is abandoned
(R433, R454). -/
def leaveActive (d : Dev) (L : Nat) (recov : Bool) : Dev :=
  let d := countDown (d.setF LN_STATUS_UP L 0) L
  let d := causeAll d L (if recov then LN_CAUSE_RECOVER else LN_CAUSE_DOWN)
  let d := if recov then d.eachIn (bondLanes d L) fun d m => d.incSat LN_DOWNCNT_RECOV m else d
  let d := partnerGone d L
  let elems := (d.unacked.filter fun u => u.lane == L && u.elem != 0).map (fun u => u.elem)
    ++ (d.txMsgs.filter fun m => m.lane == L && m.elem != 0).map fun m => m.elem
  let d := { d with
    txq := d.txq.filter fun (x : Flit) => x.lane != L
    unacked := d.unacked.filter fun (u : Unacked) => u.lane != L
    txMsgs := d.txMsgs.filter fun (m : TxMsg) => m.lane != L
    rxMsgs := (d.rxMsgs.filter fun (m : RxMsg) => m.lane != L || m.full).map fun (m : RxMsg) => if m.lane == L then { m with owed := 0 } else m
    elemsDone := d.elemsDone ++ elems.map fun e => ({ ring := L, elem := e, lost := true } : ElemDone) }
  let d := d.eachIn [Hid.lCredit, .lFreed, .lAckDue, .lReplays] fun d v => d.setH v L 0
  let d := (d.setH .lSess L (d.h .lSess L + 1)).when (d.conts.any fun c => c.stream == 24 + L) fun d => d.set1 CP_CAUSE_REASM
  let d := { d with
    conts := d.conts.filter fun (c : Cont) => c.stream != 24 + L
    streams := d.streams.map fun (x : Stream) => if x.id == 24 + L then { x with used := false } else x }
  d.eachIn (bondLanes d L) laneLost

/-- To DOWN, with four EIOS (R297). -/
def toDown (d : Dev) (L : Nat) : Dev := unlockAll (setLn (sendEios d L) L lnDown) L

/-- To OFF: the transmitter is idle (R297). -/
def toLnOff (d : Dev) (L : Nat) : Dev :=
  setLn (unlockAll (setAll d L LN_STATUS_PRES 0) L) L lnOff

/-- A link-down condition, a retrain or an identity timeout in ACTIVE: DOWN (R297, R309, R310). -/
def linkDown (d : Dev) (L : Nat) : Dev := toDown (leaveActive d L false) L

/-- EN written 0 (R297). -/
def laneDisable (d : Dev) (L : Nat) : Dev :=
  let st := d.f LN_STATUS_STATE L
  let d := d.setF LN_CTL_EN L 0
  if st = lnOff then d
  else
    let d := if st = lnActive then leaveActive d L false else d
    toLnOff (sendEios d L) L

/-- EN written 1 (R297). -/
def laneEnable (d : Dev) (l : Nat) : Dev :=
  tryStart (d.setF LN_CTL_EN l 1) l

/-- Recover, or go DOWN when RECOV_MAX recoveries lie within the last second (R297, R311). The flit boundary is kept: it is
until the lane leaves ACTIVE, RECOVER and CHECK (R294; notes/assumptions/59.md). -/
def replayLimit (d : Dev) (L : Nat) (down : Bool) : Dev :=
  let recent := d.recovs.filter fun x => x.1 == L && decide (d.now < x.2 + 2000000000)
  if recent.length < d.f LN_CFG_RECOV_MAX L then
    let d := leaveActive d L true
    let d := { d with recovs := recent ++ (d.recovs.filter fun x => x.1 != L) ++ [(L, d.now)] }
    let d := (setLn d L lnRecover).eachIn (carriers d L) dfeAnew
    d.each 16 fun d _ => d.eachIn (carriers d L) fun d m => sendOn d L m 0xF1 (tsPay d L m true)
  else if down then linkDown d L
  else d

/-- A replay (R311): every unacknowledged MSG flit again, from the oldest. -/
def replay (d : Dev) (L : Nat) : Dev :=
  let mine := d.unacked.filter fun u => u.lane == L
  if mine.isEmpty then d
  else
    let d := d.eachIn mine fun d u => sendOn d L anyLine 0x40 u.pay
    let d := (d.incSat LN_ERRCNT_REPLAY L).setH .lReplays L (d.h .lReplays L + 1)
    if (d.f LN_RETRY_MAX L : Int) ≤ d.h .lReplays L then replayLimit d L true else d

/-- Enter CHECK: the LAT exchange starts (R297, R304). -/
def toCheck (d : Dev) (L : Nat) : Dev :=
  let d := (((setLn d L lnCheck).setH .lRttSum L 0).setH .lRttCnt L 0)
  sendFlit (setAll d L LN_STATUS_FLOCK 1) L 0xF3 [(64, 32, d.now)]

/-- Enter ACTIVE (R297, R298, R304, R310, R316). -/
def toActive (d : Dev) (L : Nat) : Dev :=
  let d := d.setF LN_LAT_RTT L (ceilDiv (d.h .lRttSum L) 4)
  let d := setLn d L lnActive
  let d := (d.setH .lCredit L (32 * bondWidth d L : Nat)).eachIn [Hid.lTxSeq, .lRxSeq, .lFreed, .lAckDue, .lReplays, .lTxK]
    fun d v => d.setH v L 0
  let d := d.eachIn (carriers d L) fun d m => dfeHold d m
  let r := d.f LN_STATUS_RATE L
  let d := if r < d.f LN_CFG_RMAX L && decide (2 ^ (r + 1) ≤ d.hn .lPRates L) then d.set1 LN_CAUSE_FALLBACK L else d
  let d := laneLossShow (d.eachIn (bondLanes d L) fun d m => d.setHbit .lLost 0 m false)
  let (b, d) := ownIdentity d L
  sendMsg d L 1 b 0

/-! ### Identity -/

/-- Whether the frame passes the checks of R313. -/
def identityOk (d : Dev) (L : Nat) (b : List Nat) : Bool :=
  let at_ (i n : Nat) : Nat := leNat ((b.drop i).take n)
  b.length == 48 && crc16 (b.take 46) == at_ 46 2 && 1 ≤ at_ 0 1 && at_ 1 1 ≤ 3 && at_ 4 2 != 0 && at_ 4 2 != 0xFFFF
    && bondWidth d L ≤ at_ 18 1

/-- Apply an accepted frame (R313, R314, R326). -/
def identityApply (d : Dev) (L : Nat) (b : List Nat) : Dev :=
  let at_ (i n : Nat) : Nat := leNat ((b.drop i).take n)
  let d := d.each 12 fun d w => d.setR LN_PID (L * 12 + w) (BitVec.ofNat 32 (at_ (4 * w) 4))
  let d := ((d.setF LN_STATUS_UP L 1).set1 LN_CAUSE_UP L).raise (0x220 + 2 * L)
  let d := d.eachIn (cplRails d L) fun d x => d.setH .cHelloDue x.1 1
  let dev : Int := at_ 8 8 + 1
  let d := if d.h .lDevid L = dev then d else slotsNew ((d.setH .lDevid L dev).set1 LN_CAUSE_ID_NEW L) L
  let v := min (at_ 2 1) (d.f LN_VER_CUR)
  if max (at_ 3 1) (d.f LN_VER_PREV) ≤ v then (d.setF LN_STATUS_PVER L v).setF LN_STATUS_VERR L 0
  else (d.setF LN_STATUS_VERR L 1).set1 LN_CAUSE_VERSION L

/-- An identity frame (R313, R315): while UP is 1 it takes the partner down and up again. -/
def identityFrame (d : Dev) (L : Nat) (b : List Nat) : Dev :=
  if d.f LN_STATUS_STATE L ≠ lnActive then d
  else if !identityOk d L b then d.set1 LN_CAUSE_ID_BAD L
  else
    let d := if d.on LN_STATUS_UP L then partnerGone (countDown (d.setF LN_STATUS_UP L 0) L) L else d
    identityApply d L b

/-! ### Reassembly (R306, R307) -/

/-- A whole message reaches its channel: 0 the lane port, 1 the identity check, 2 the receive ring. -/
def msgDeliver (d : Dev) (L : Nat) (m : RxMsg) : Dev :=
  if m.ch = 1 then identityFrame (d.setH .lFreed L (d.h .lFreed L + m.owed)) L m.bytes
  else if m.ch = 0 then
    { d.setH .lFreed L (d.h .lFreed L + m.owed) with portMsgs := d.portMsgs ++ [{ m with owed := 0 }] }
  else { d with rxMsgs := d.rxMsgs ++ [{ m with full := true }] }

/-- Take a MSG flit received in order into the message it belongs to. -/
def reassemble (d : Dev) (L pay stamp : Nat) : Dev :=
  let pos := payBits pay 95 94
  let ch := payBits pay 93 90
  let nb := payBits pay 89 86
  let data := (List.range nb).map fun i => payBits pay (79 - 8 * i) (72 - 8 * i)
  let open_ := d.rxMsgs.find? fun m => m.lane == L && !m.full
  let drop (d : Dev) : Dev := { d with rxMsgs := d.rxMsgs.filter fun m => m.lane != L || m.full }
  let bad (d : Dev) (owed : Nat) : Dev := (drop d).setH .lFreed L (d.h .lFreed L + owed) |>.set1 LN_CAUSE_RSVD_TYPE L
  let owed := (match open_ with | some m => m.owed | none => 0) + 1
  if nb = 0 || 10 < nb || 3 ≤ ch then bad d owed
  else
    match open_ with
    | none =>
      let m : RxMsg := { lane := L, ch := ch, bytes := data, stamp := stamp, owed := 1, full := false }
      if pos = 0 then msgDeliver d L { m with full := true }
      else if pos = 1 then { d with rxMsgs := d.rxMsgs ++ [m] }
      else bad d owed
    | some m =>
      let m2 := { m with bytes := m.bytes ++ data, owed := owed }
      if pos < 2 || m.ch ≠ ch || 256 < m2.bytes.length then bad d owed
      else if pos = 2 then { drop d with rxMsgs := (drop d).rxMsgs ++ [m2] }
      else msgDeliver (drop d) L { m2 with full := true }

/-- A MSG flit in ACTIVE (R306 to R308, R311): one out of order, or received before, is discarded. -/
def msgFlit (d : Dev) (L pay stamp : Nat) : Dev :=
  if d.f LN_STATUS_STATE L = lnActive && payBits pay 103 96 = d.hn .lRxSeq L then
    let d := (d.setH .lRxSeq L ((d.h .lRxSeq L + 1) % 256)).setH .lAckDue L (d.h .lAckDue L + 1)
    let d := reassemble d L pay stamp
    if d.f LN_STATUS_STATE L = lnActive && (d.f LN_RETRY_ACK_N L : Int) ≤ d.h .lAckDue L then sendAck d L false else d
  else d

/-- An ACK flit (R308, R310, R311). -/
def ackFlit (d : Dev) (L pay : Nat) : Dev :=
  if d.f LN_STATUS_STATE L = lnActive then
    let mine := d.unacked.filter fun u => u.lane == L
    let n := match mine.findIdx? fun u => u.seq == payBits pay 103 96 with | some j => j + 1 | none => 0
    let done := mine.take n
    let d := { d with
      unacked := (d.unacked.filter fun (u : Unacked) => u.lane != L) ++ mine.drop n
      elemsDone := d.elemsDone ++ (done.filter fun (u : Unacked) => u.elem != 0).map fun (u : Unacked) => ({ ring := L, elem := u.elem, lost := false } : ElemDone) }
    let d := if n = 0 then d else d.setH .lReplays L 0
    let d := d.setH .lCredit L (min (32 * bondWidth d L : Nat) (d.h .lCredit L + payBits pay 95 88))
    let d := if payBits pay 87 87 = 1 then replay d L else d
    pump d L
  else d

/-! ### Equalisation (R299 to R301): of lane l, be it a single lane or a member of a bond -/

/-- An EQ ordered set of lane l. -/
def sendEq (d : Dev) (l : Nat) (pay : List (Nat × Nat × Int)) : Dev := sendOn d (leadLane d l) l 0xF2 (packFields pay)

/-- A request of the partner: a preset, or a step of a cursor (R300). -/
def eqRequest (d : Dev) (l : Nat) (coef : Bool) (preset : Nat) (post up : Bool) : Dev :=
  let pre := d.f LN_TXC_PRE l
  let pst := d.f LN_TXC_POST l
  let p1 := if post then pre else if up then pre + 1 else pre - 1
  let q1 := if post then (if up then pst + 1 else pst - 1) else pst
  let stuck := !up && (if post then pst else pre) == 0
  let ok := if coef then !stuck && p1 ≤ 8 && q1 ≤ 12 && p1 + q1 ≤ 20 else decide (preset < 8)
  let d := if !ok then d
    else if coef then (setTxc d l p1 (32 - p1 - q1) q1).setF LN_EQ_PRESET_TX l 15
    else applyPreset d l preset
  sendEq d l [((if ok then 95 else 94), 1, 1), (93, 1, b2i (d.hon .lEqSent l)), (88, 4, d.f LN_EQ_PRESET_TX l),
    (80, 8, d.f LN_EQ_EYE l)]

/-- Ask the partner for a preset, or for a step. -/
def askPreset (d : Dev) (l p : Nat) : Dev :=
  sendEq d l [(100, 4, p), (88, 4, d.f LN_EQ_PRESET_TX l), (80, 8, d.f LN_EQ_EYE l)]
def askStep (d : Dev) (l : Nat) (post up : Bool) : Dev :=
  sendEq d l [(99, 1, 1), (98, 1, b2i post), (97, 1, b2i up), (88, 4, d.f LN_EQ_PRESET_TX l), (80, 8, d.f LN_EQ_EYE l)]

/-- The receiver has finished: DONE. -/
def eqFinish (d : Dev) (l : Nat) : Dev :=
  sendEq ((d.setH .lEqPhase l 4).setH .lEqSent l 1) l [(93, 1, 1), (88, 4, d.f LN_EQ_PRESET_TX l), (80, 8, d.f LN_EQ_EYE l)]

/-- Ask for the next step of the cursor on trial, of at most eight in all (R301). -/
def nextStep (d : Dev) (l : Nat) : Dev :=
  if 8 ≤ d.h .lEqSteps l then eqFinish d l
  else askStep (d.setH .lEqSteps l (d.h .lEqSteps l + 1)) l (d.h .lEqPhase l == 2) true

/-- Note the EYE of the code or preset on trial: the highest, the lower number on a tie. -/
def eqNote (d : Dev) (l eye : Nat) : Dev :=
  if d.h .lEqIdx l = 0 || d.h .lEqBest l < eye then (d.setH .lEqBest l eye).setH .lEqCode l (d.h .lEqIdx l) else d

/-- A trial period ends with an EYE (R301). -/
def eqTrial (d : Dev) (l eye : Nat) : Dev :=
  let d := d.setF LN_EQ_EYE l eye
  let i := d.h .lEqIdx l
  match d.hn .lEqPhase l with
  | 0 =>
    if i < 15 then
      let d := (eqNote d l eye).setH .lEqIdx l (i + 1)
      d.setF LN_EQ_CTLE l (i + 1)
    else if i = 15 then
      let d := (eqNote d l eye).setH .lEqIdx l 16
      (d.setF LN_EQ_CTLE l (d.h .lEqCode l)).setF LN_EQ_ADAPT l 1
    else askPreset ((d.setH .lEqPhase l 1).setH .lEqIdx l 0) l 0
  | 1 =>
    if i < 7 then askPreset ((eqNote d l eye).setH .lEqIdx l (i + 1)) l (i.toNat + 1)
    else if i = 7 then
      let d := ((eqNote d l eye).setH .lEqIdx l 8).setF LN_EQ_ADAPT l 0
      askPreset (d.setF LN_EQ_PRESET_RX l (d.h .lEqCode l)) l (d.hn .lEqCode l)
    else nextStep ((d.setH .lEqPhase l 2).setH .lEqPrev l eye) l
  | 2 =>
    if d.h .lEqPrev l + 2 ≤ eye then nextStep (d.setH .lEqPrev l eye) l
    else nextStep ((askStep d l true false).setH .lEqPhase l 3) l
  | 3 =>
    if d.h .lEqPrev l + 2 ≤ eye then nextStep (d.setH .lEqPrev l eye) l
    else eqFinish (askStep d l false false) l
  | _ => d

/-- Enter EQ: each member's receiver starts from CTLE code 0, and its transmitter from the preset its partner asked for. -/
def toEq (d : Dev) (L : Nat) : Dev :=
  let d := setAll (setLn d L lnEq) L LN_STATUS_FLOCK 1
  d.eachIn (carriers d L) fun d m =>
    let d := d.eachIn [Hid.lEqPhase, .lEqIdx, .lEqBest, .lEqCode, .lEqPrev, .lEqSteps, .lEqSent] fun d v => d.setH v m 0
    applyPreset ((dfeAnew d m).setF LN_EQ_CTLE m 0) m (d.hn .lPPreset m)

/-! ### The commands -/

/-- Do `g` with the lead lane of l's bond while the link is in state `st`. -/
def onLink (s : State) (l : Lane) (st : Nat) (g : Dev → Nat → Dev) : Host.Outcome State Fault Refusal :=
  s.ok fun d => d.when (lnState d l == st) fun d => g d (leadLane d l)

/-- The same with what lane l receives. -/
def rxLink (s : State) (l : Lane) (st : Nat) (g : Dev → Nat → Dev) : Host.Outcome State Fault Refusal :=
  onLink s l st fun d L => d.heard l fun d => g d L

/-- DETECT_PULSE (R297). -/
def execDetectPulse (l : Lane) (sensed : Bool) (s : State) : Host.Outcome State Fault Refusal :=
  rxLink s l lnDetect fun d L => if sensed then toPoll (setAll d L LN_STATUS_PRES 1) L else d

/-- Do `g` with lane l while it is one of the members in use of a link in state `st`. -/
def onMember (s : State) (l : Lane) (st : Nat) (g : Dev → Dev) : Host.Outcome State Fault Refusal :=
  s.ok fun d => d.when (lnState d l == st && (carriers d (leadLane d l)).contains l.val) g

/-- The same with what lane l receives. -/
def rxMember (s : State) (l : Lane) (st : Nat) (g : Dev → Dev) : Host.Outcome State Fault Refusal :=
  onMember s l st fun d => d.heard l g

/-- POLL_DONE (R294, R297, R318): lane l has flit lock and 8 TS1. -/
def execPollDone (l : Lane) (s : State) : Host.Outcome State Fault Refusal :=
  rxMember s l lnPoll fun d => memberDone (d.setF LN_STATUS_FLOCK l 1) l fun d L => (setLn d L lnConfig).setH .lPWidth L 0

/-- POLL_TIMEOUT (R297, R318). -/
def execPollTimeout (l : Lane) (s : State) : Host.Outcome State Fault Refusal :=
  onLink s l lnPoll fun d _ => memberLate d l trainFail

/-- The rate is chosen (R298): the highest both sides offer. The transmitter is idle for 1 µs (R297). -/
def toRate (d : Dev) (L : Nat) : Dev :=
  let common := d.hn .lRates L &&& d.hn .lPRates L
  let r : Nat := if common.testBit 3 then 3 else if common.testBit 2 then 2 else if common.testBit 1 then 1 else 0
  let d := (setLn d L lnRate).setH .lIdle L (d.now + 2000 : Nat)
  unlockAll (setAll d L LN_STATUS_RATE r) L

/-- CONFIG_DONE (R297, R298, R318): the TS2 of lane l, with equal WIDTH and matching LVER; `ordered`: with the DEVID of its
fellow members, its own BIDX and at most 8 word cycles of skew. A member out of order, or with another WIDTH than a fellow
member's TS2, is a bond fault, and any other mismatch waits for the timeout. -/
def execConfigDone (l : Lane) (rates : BitVec 4) (width : Fin 4) (preset : Fin 16) (lver : Byte) (ordered : Bool)
    (s : State) : Host.Outcome State Fault Refusal :=
  rxMember s l lnConfig fun d =>
    let L := leadLane d l
    let offered := if d.hon .lMemb L then d.hn .lPRates L &&& rates.toNat else rates.toNat
    let fellow := d.hn .lPWidth L
    let d := if fellow = 0 then d.setH .lPWidth L (width.val + 1 : Nat) else d
    if (!ordered || (fellow != 0 && fellow != width.val + 1)) && d.on LN_STATUS_WIDTH L then bondFault d L [l]
    else if ordered && width.val = d.f LN_STATUS_WIDTH L && lver.toNat = d.f LN_VER_LVER && d.hn .lRates L &&& offered ≠ 0 then
      memberDone ((d.setH .lPRates L offered).setH .lPPreset l preset.val) l toRate
    else d

/-- CONFIG_TIMEOUT (R297). -/
def execConfigTimeout (l : Lane) (s : State) : Host.Outcome State Fault Refusal := onLink s l lnConfig trainFail

/-- RATE_LOCK (R297, R318): lane l has flit lock at the chosen rate. -/
def execRateLock (l : Lane) (s : State) : Host.Outcome State Fault Refusal :=
  rxMember s l lnRate fun d => memberDone (d.setF LN_STATUS_FLOCK l 1) l toEq

/-- RATE_TIMEOUT (R296, R297, R320). -/
def execRateTimeout (l : Lane) (s : State) : Host.Outcome State Fault Refusal := 
  onLink s l lnRate fun d _ => memberLate d l failedAttempt

/-- EQ_REQUEST (R300). -/
def execEqRequest (l : Lane) (coef : Bool) (preset : Fin 16) (post up : Bool) (s : State) :
    Host.Outcome State Fault Refusal :=
  rxMember s l lnEq fun d => eqRequest d l coef preset post up

/-- EQ_PHASE_STEP (R301). -/
def execEqPhaseStep (l : Lane) (eye : Byte) (s : State) : Host.Outcome State Fault Refusal :=
  onMember s l lnEq fun d => eqTrial d l eye.toNat

/-- EQ_DONE (R297, R318): lane l has sent its DONE and received the partner's. -/
def execEqDone (l : Lane) (s : State) : Host.Outcome State Fault Refusal :=
  rxMember s l lnEq fun d => if d.hon .lEqSent l then memberDone d l toCheck else d

/-- EQ_TIMEOUT (R296, R297, R320). -/
def execEqTimeout (l : Lane) (s : State) : Host.Outcome State Fault Refusal := 
  onLink s l lnEq fun d _ => memberLate d l failedAttempt

/-- EIOS_RECEIVED (R294, R296, R297): in RATE, EQ or CHECK a failed attempt. -/
def execEiosReceived (l : Lane) (s : State) : Host.Outcome State Fault Refusal :=
  s.ok fun d => d.heard l fun d => (rxGood d l).when (lnRate ≤ lnState d l && lnState d l ≤ lnCheck) fun d => failedAttempt d (leadLane d l)

/-- LAT_RECEIVED (R305): echoed with this side's turnaround. -/
def execLatReceived (l : Lane) (t0 : Word) (turn : BitVec 16) (s : State) : Host.Outcome State Fault Refusal :=
  rxLink s l lnCheck fun d L => sendFlit d L 0xF3 [(103, 1, 1), (64, 32, t0.toNat), (48, 16, turn.toNat)]

/-- LAT_ECHO_RECEIVED (R304): one round trip, T1 - T0 - TURN; the next LAT follows until four are in. -/
def execLatEchoReceived (l : Lane) (t0 : Word) (turn : BitVec 16) (s : State) : Host.Outcome State Fault Refusal :=
  rxLink s l lnCheck fun d L =>
    if 4 ≤ d.h .lRttCnt L then d
    else
      let rt := (((d.now : Int) - t0.toNat) % 2 ^ 32 - turn.toNat)
      let d := (d.setH .lRttSum L (d.h .lRttSum L + rt)).setH .lRttCnt L (d.h .lRttCnt L + 1)
      if d.h .lRttCnt L < 4 then sendFlit d L 0xF3 [(64, 32, d.now)] else d

/-- CHECK_DONE (R297, R304): 4,096 good flits and four echoes. -/
def execCheckDone (l : Lane) (s : State) : Host.Outcome State Fault Refusal :=
  rxLink s l lnCheck fun d L => if 4 ≤ d.h .lRttCnt L then toActive d L else d

/-- CHECK_TIMEOUT (R296, R297). -/
def execCheckTimeout (l : Lane) (s : State) : Host.Outcome State Fault Refusal := onLink s l lnCheck failedAttempt

/-- RECOVER_DONE (R297). -/
def execRecoverDone (l : Lane) (s : State) : Host.Outcome State Fault Refusal := rxLink s l lnRecover toCheck

/-- RECOVER_TIMEOUT (R297). -/
def execRecoverTimeout (l : Lane) (s : State) : Host.Outcome State Fault Refusal := onLink s l lnRecover toDown

/-- DOWN_DONE (R297, R298). -/
def execDownDone (l : Lane) (s : State) : Host.Outcome State Fault Refusal :=
  onLink s l lnDown fun d L =>
    if d.on LN_CTL_AUTO L then toDetect (allRates d L) L else toLnOff (d.setF LN_CTL_EN L 0) L

/-- ACK_TIMER (R308): 64 word cycles after the first flit not acknowledged, or credit not returned. -/
def execAckTimer (l : Lane) (s : State) : Host.Outcome State Fault Refusal :=
  onLink s l lnActive fun d L => if d.hon .lAckDue L || d.hon .lFreed L then sendAck d L false else d

/-- SKIP_SEND (R295): after 1,024 flits of lane l a SKIP is due. In POLL and CONFIG every slot is a training sequence's. -/
def execSkipSend (l : Lane) (s : State) : Host.Outcome State Fault Refusal :=
  s.ok fun d => d.when (lnRate ≤ lnState d l && lnState d l ≤ lnRecover && (carriers d (leadLane d l)).contains l.val) fun d =>
    if 1024 ≤ d.h .lSkip l then sendOn (d.setH .lSkip l (d.h .lSkip l - 1024)) (leadLane d l) l 0x02 0 else d

/-- FLIT_CRC_FAIL (R293, R308): counted, and in ACTIVE answered with a NAK. -/
def execFlitCrcFail (l : Lane) (s : State) : Host.Outcome State Fault Refusal :=
  s.ok fun d => d.heard l fun d =>
    let L := leadLane d l
    let d := rxBad (d.incSat LN_ERRCNT_CRC L) l
    if d.f LN_STATUS_STATE L = lnActive then sendAck d L true else d

/-- RESERVED_TYPE_FLIT (R292, R293, R329): a reserved TYPE, or EQ or LAT in ACTIVE, sets RSVD_TYPE; a controller-to-partner
frame sets DROP of the rail it names. -/
def execReservedTypeFlit (l : Lane) (typ : Byte) (pay : BitVec 104) (s : State) : Host.Outcome State Fault Refusal :=
  s.ok fun d => d.heard l fun d =>
    let t := typ.toNat
    let d := rxGood d l
    if 0x12 ≤ t && t ≤ 0x14 then d.set1 IG_RCAUSE_DROP (payBits pay.toNat 103 100)
    else
      let known := t ≤ 2 || t = 0x10 || t = 0x11 || (0x20 ≤ t && t ≤ 0x25) || t = 0x40 || (0xF0 ≤ t && t ≤ 0xF4)
      let oset := (t = 0xF2 || t = 0xF3) && lnState d l = lnActive
      if !known || oset then d.set1 LN_CAUSE_RSVD_TYPE (leadLane d l) else d

/-- Every lane of the device that waits in OFF with EN set trains again (R297, R322). -/
def lanesStart (d : Dev) : Dev := d.each 12 tryStart

/-- LN_PLL_LOCK (R27, R288, R297, R321): the PLL of group g has locked, and with REFCLK as its reference its waiting lanes
train; without it they stay OFF. -/
def execLnPllLock (g : Fin 3) (s : State) : Host.Outcome State Fault Refusal :=
  s.ok fun d => d.when (d.on LN_GRP_PWR g) fun d =>
    lanesStart (d.setF LN_GRP_PLL_LOCK g 1)

end Sys2Proof.Machine
end

