-- ==== Sys2Proof/Machine/CoreBase.lean ====
section
/-! DEFINITION. The CPUs: numbering, general and control registers, what a core reset and a retag do, and the slots, tags
and levels of their accesses (spec/16, R565 to R569; spec/17, R596, R612; spec/18, R629, R635). -/

namespace Sys2Proof.Machine

/-- The number of a CPU: 0 to 3 the application cores, 4 the warden, then the engines of the groves. -/
def cpuId : Cpu → Nat
  | .core c => c
  | .warden => 4
  | .engine g e => 5 + 34 * g.val + e.val

/-- Control-register numbers (R568, R635); 0x60 holds the pc. -/
abbrev crCS : Nat := 0x000
abbrev crTSP : Nat := 0x001
abbrev crVTB : Nat := 0x002
abbrev crLSE : Nat := 0x003
abbrev crMB0 : Nat := 0x008
abbrev crML0 : Nat := 0x009
abbrev crMB1 : Nat := 0x00A
abbrev crML1 : Nat := 0x00B
abbrev crCYCHI : Nat := 0x011
abbrev crTBHI : Nat := 0x013
abbrev crTCTL : Nat := 0x040
abbrev crTCNT : Nat := 0x041
abbrev crS2ROOT : Nat := 0x048
abbrev crTINVP : Nat := 0x050
abbrev crPC : Nat := 0x060

/-- The reset word of a control register: CS holds IM 1 and the level of the CPU, no field on an engine (R567). -/
def crReset (c n : Nat) : Word :=
  if n = crCS then (if c < 4 then 3 else if c = 4 then 5 else 0) else 0

/-- Control register n of CPU c. -/
def Dev.cr (d : Dev) (c n : Nat) : Word := Store.get d.creg (c * 128 + n) (crReset c n)
def Dev.setCr (d : Dev) (c n : Nat) (w : Word) : Dev :=
  { d with creg := Store.put d.creg (c * 128 + n) w (crReset c n) }

/-- General register n of CPU c; g0 reads 0 and discards writes (R565). -/
def Dev.g (d : Dev) (c n : Nat) : Word := if n = 0 then 0 else Store.get d.gpr (c * 32 + n) 0
def Dev.setG (d : Dev) (c n : Nat) (w : Word) : Dev :=
  if n = 0 then d else { d with gpr := Store.put d.gpr (c * 32 + n) w 0 }

/-- The pc of CPU c. -/
def Dev.pc (d : Dev) (c : Nat) : Word := d.cr c crPC
def Dev.setPc (d : Dev) (c : Nat) (w : Word) : Dev := d.setCr c crPC w

/-- The level of CPU c and its mask (R567); an engine has level 0. -/
def Dev.level (d : Dev) (c : Nat) : Nat := if c < 5 then bitsOf (d.cr c crCS) 1 2 else 0
def Dev.im (d : Dev) (c : Nat) : Bool := (d.cr c crCS).getLsbD 0

/-- Every general register of CPU c reads 0. -/
def clearG (d : Dev) (c : Nat) : Dev := { d with gpr := d.gpr.filter fun e => e.1 / 32 != c }

/-- Every control register of CPU c takes its reset word. -/
def clearCr (d : Dev) (c : Nat) : Dev := { d with creg := d.creg.filter fun e => e.1 / 128 != c }

/-- The TLB of core c is emptied, and TCNT with it (R629, R635). -/
def tlbEmpty (d : Dev) (c : Nat) : Dev :=
  ({ d with tlb := d.tlb.filter fun e => e.core != c } : Dev).setCr c crTCNT 0

/-- The line buffer of CPU c is discarded (R595). -/
def bufDrop (d : Dev) (c : Nat) : Dev := { d with lineBuf := d.lineBuf.filter fun e => e.key / 2 != c }

/-- The instruction cache and line buffer of core c are invalidated (R596). -/
def cacheEmpty (d : Dev) (c : Nat) : Dev :=
  bufDrop { d with icache := d.icache.filter fun e => e.key / 1024 != c } c

/-- Core c (4: the warden) is reset (R497, R566, R596, R612, R629): an application core stays halted, the warden starts when
it is released. -/
def coreReset (d : Dev) (c : Nat) : Dev :=
  let d := cacheEmpty (tlbEmpty (clearCr (clearG d c) c) c) c
  let d : Dev := { d with sbuf := d.sbuf.filter fun e => e.cpu != c }
  let d := d.eachIn [Hid.cWait, .cLate, .cMulti, .cLines, .cLineOvr, .cTlbPtr, .cTinv] fun d v => d.setH v c 0
  let d := arbRelease (d.setH .cCycBase c d.now) c
  if c < 4 then d.setF CH_CORETAG_HALTED c 1 else (d.setPc 4 0x008000C0).setH .cHalt 0 0

/-- A core is halted: an application core shows it; the warden's halt has no register (R609). -/
def haltCore (d : Dev) (c : Nat) : Dev :=
  if c < 4 then d.setF CH_CORETAG_HALTED c 1 else d.setH .cHalt 0 1

/-- What a write of CH_CORETAG[c] does beside the tag: cache, TLB and canopy enables (R510, R596, R629). -/
def retag (d : Dev) (c p : Nat) : Dev :=
  (tlbEmpty (cacheEmpty (d.setF CH_CORETAG_PART c p) c) c).setF CN_IRQEN_EN c 0

/-- The warden releases core c at an entry address (R612, R613). -/
def coreRelease (d : Dev) (c : Nat) (entry : Word) : Dev :=
  ((d.setPc c entry).setF CH_CORETAG_HALTED c 0).setH .cWait c 0

/-- Whether core c (4: the warden) issues instructions: released, powered, clocked (R523, R525, R612). -/
def coreRuns (d : Dev) (c : Nat) : Bool :=
  (if c < 4 then !d.on CH_CORETAG_HALTED c && domOn d (1 + c) else d.hon .svcOn && domOn d 0 && d.on CP_STATUS_WARDEN && !d.hon .cHalt)
  && d.f PD_STATE_STATE != 1

/-- The initiator a core is. -/
def coreInit (c : Nat) : Initiator := if h : c < 4 then .core ⟨c, h⟩ else .warden

/-- SCLK cycles since the reset of CPU c (R568): 2 for every 5 ticks of the time base. -/
def cycles (d : Dev) (c : Nat) : Nat := (d.now - d.hn .cCycBase c) * 2 / 5

end Sys2Proof.Machine
end

