-- ==== Sys2Proof/Machine/Groves.lean ====
section
/-! DEFINITION. Groves and loop engines (spec/04): the engine pool, tasks and triggers, passes, steering, the capture
unit, shadow runs and retirement, and the state window. -/

namespace Sys2Proof.Machine

/-- Task t of grove g in the per-task registers. -/
def tk (g t : Nat) : Nat := g * 64 + t

/-- Engine e of grove g among the internal variables, and its CPU number. -/
def eg (g e : Nat) : Nat := g * 64 + e
def engCpu (g e : Nat) : Nat := 5 + 34 * g + e

/-- Whether grove g has power (R178). -/
def gvOn (d : Dev) (g : Nat) : Bool := domOn d (16 + g)

/-- Engines of a grove in a state. -/
def engsIn (d : Dev) (g st : Nat) : List Nat := (List.range 34).filter fun e => d.h .gEng (eg g e) == st

/-- The passes of a grove. -/
def passesOf (d : Dev) (g : Nat) : List Pass := d.passes.filter fun p => p.grove == g

/-- Whether passes of task t are shadowed (R172). -/
def shadowed (d : Dev) (g t : Nat) : Bool := d.on GV_TCFG_SHADOW (tk g t) || d.on GV_CFG_SHADOW g

/-- LOAD of a task, twice for a shadowed one (R162). -/
def taskLoad (d : Dev) (g t : Nat) : Nat := d.f GV_TCFG_LOAD (tk g t) * (if shadowed d g t then 2 else 1)

/-- The sum of LOAD over enabled tasks (R162). -/
def loadSum (d : Dev) (g : Nat) : Nat :=
  (List.range 64).foldl (fun a t => a + (if d.on GV_TCFG_EN (tk g t) then taskLoad d g t else 0)) 0

/-- Engines of the pool, those under self-test included (R135). -/
def poolSize (d : Dev) (g : Nat) : Nat := (engsIn d g 1).length + (engsIn d g 4).length

/-- Bring GV_STATUS up to date. -/
def gvShow (d : Dev) (g : Nat) : Dev :=
  let d := (d.setF GV_STATUS_POOL g (poolSize d g)).setF GV_STATUS_SPARES g (engsIn d g 2).length
  let d := d.setF GV_STATUS_SELFTEST g (b2i (engsIn d g 4 != [] || engsIn d g 5 != []))
  let d := d.setF GV_STATUS_SHED g (b2i ((List.range 64).any fun t => d.f GV_TSTAT_STATE (tk g t) == 5))
  d.setF GV_STATUS_LOAD g (loadSum d g)

/-- Data banks of a task, as a set (R144). -/
def inRegion (d : Dev) (g t b : Nat) : Bool :=
  d.f GV_TDATA_DBASE (tk g t) ≤ b && b ≤ d.f GV_TDATA_DBASE (tk g t) + d.f GV_TDATA_DBANKS (tk g t)
def regionsMeet (d : Dev) (g t u : Nat) : Bool := (List.range 32).any fun b => inRegion d g t b && inRegion d g u b

/-- The owner GV_BANKOWN gives bank b of grove g, if any. -/
def bankOwner (d : Dev) (g b : Nat) : Option Nat :=
  let i := g * 4 + b / 8
  if d.on (GV_BANKOWN_VALID (b % 8)) i then some (d.f (GV_BANKOWN_PART (b % 8)) i) else none

/-- Whether the enabling of task t is refused (R162). -/
def admitRefused (d : Dev) (g t : Nat) : Bool :=
  let o := d.f GV_TCFG_OWNER (tk g t)
  decide (64 * poolSize d g < loadSum d g + (if d.on GV_TCFG_EN (tk g t) then 0 else taskLoad d g t))
  || ((List.range 64).any fun u => u != t && d.on GV_TCFG_EN (tk g u) && d.f GV_TCFG_OWNER (tk g u) != o
        && regionsMeet d g t u)
  || ((List.range 32).any fun b => inRegion d g t b && bankOwner d g b != some o)

/-- A grove event (R158). -/
def gvEvent (d : Dev) (g ev : Nat) : Dev := d.gvTrig g 3 ev

/-- Tasks are shed until the sum of LOAD fits the pool (R177); each round sheds one, with its repeat that waits. -/
def shed : Nat → Dev → Nat → Dev
  | 0, d, _ => d
  | fuel + 1, d, g =>
    if loadSum d g ≤ 64 * poolSize d g then d
    else
      let en := (List.range 64).filter fun t => d.on GV_TCFG_EN (tk g t)
      let lo := en.foldl (fun m t => min m (d.f GV_TCFG_PRI (tk g t))) 7
      match (en.filter fun t => d.f GV_TCFG_PRI (tk g t) == lo).getLast? with
      | none => d
      | some t =>
        let d := { d with passes := d.passes.filter fun p => !(p.grove == g && p.task == t && p.test == 3) }
        shed fuel (((d.setF GV_TCFG_EN (tk g t) 0).setF GV_TSTAT_STATE (tk g t) 5).set1 GV_CAUSE_SHED g) g

/-- An engine is retired (R175, R177): source 0 mismatch, 1 watchdog self-test, 2 power-up self-test; whether a power-up
leaves no spare is known when the pool is filled. -/
def retire (d : Dev) (g e src : Nat) : Dev :=
  let d := d.setH .gEng (eg g e) 3
  let d := if e < 32 then d.setBit GV_RETIRED_ENG g e true else d.setBit GV_STATUS_RET_HI g (e - 32) true
  let d := match engsIn d g 2 with
    | s :: _ => d.setH .gEng (eg g s) 1
    | [] => if src = 2 then d else d.set1 GV_CAUSE_SPARE_OUT g
  let d := gvEvent (d.set1 GV_CAUSE_RETIRE g) g 3
  d.logDeadfall [(24, 1, 1), (25, 1, 0xFF), (26, 1, g), (27, 1, src), (43, 1, e)]

/-- Grove power-up: every engine runs the self-test (R136). -/
def grovePowerUp (d : Dev) (g : Nat) : Dev :=
  let d := (d.setF GV_RETIRED_ENG g 0).setF GV_STATUS_RET_HI g 0
  gvShow (d.each 34 fun d e => d.setH .gEng (eg g e) 5) g

/-- The power-up self-tests have ended: the lowest-numbered 32 engines that passed form the pool, the rest that passed are
spares (R136). An engine that passed waits in state 6. -/
def fillPool (d : Dev) (g : Nat) : Dev :=
  if (engsIn d g 5).isEmpty then
    let l := engsIn d g 6
    let d := d.eachIn (l.take 32) fun d e => d.setH .gEng (eg g e) 1
    let d := if l.length < 32 then d.set1 GV_CAUSE_SPARE_OUT g else d
    let d := d.eachIn (l.drop 32) fun d e => d.setH .gEng (eg g e) 2
    gvShow (if (engsIn d g 3).isEmpty then d else shed 64 d g) g
  else d

/-! ### Passes -/

/-- Replace the record of a pass; remove it. -/
def setPass (d : Dev) (p : Pass) : Dev :=
  { d with passes := d.passes.map fun q => if q.grove == p.grove && q.tag == p.tag then p else q }
def dropPass (d : Dev) (p : Pass) : Dev :=
  { d with passes := d.passes.filter fun q => !(q.grove == p.grove && q.tag == p.tag) }

/-- The pass that runs on engine e. -/
def passOn (d : Dev) (g e : Nat) : Option Pass :=
  d.passes.find? fun p => p.grove == g && p.test == 0 && (p.e1 == e || p.e2 == e)

/-- Engines of the pool that run no pass (R160). -/
def freeEngs (d : Dev) (g : Nat) : List Nat :=
  (engsIn d g 1).filter fun e => (passOn d g e).isNone

/-- The task of a pass leaves running: idle, or pending with the trigger that came meanwhile (R159). -/
def taskEnd (d : Dev) (g t : Nat) : Dev :=
  let i := tk g t
  if d.f GV_TSTAT_STATE i = 3 then d.setF GV_TSTAT_STATE i 1
  else if d.f GV_TSTAT_STATE i = 4 then (d.setF GV_TSTAT_STATE i 2).setH .gStamp i (d.h .gStamp2 i)
  else d

/-- A closing or cancel marker follows the pass's writes into the steering queue (R152). -/
def pushMarker (d : Dev) (p : Pass) (kind : Nat) : Dev :=
  { d with steerq := d.steerq ++ [{ grove := p.grove, kind := kind, off := 0, tag := p.tag, val := 0 }] }

/-- A program fault (R164); in a repeated pass PASS_LOST as well (R176). -/
def passFault (d : Dev) (p : Pass) (err : Nat) : Dev :=
  let i := tk p.grove p.task
  let d := pushMarker (dropPass d p) p 2
  let d := ((d.setF GV_TCFG_EN i 0).setF GV_TSTAT_STATE i 6).setF GV_TSTAT_LASTERR i err
  let d := if p.rep then d.set1 GV_CAUSE_PASS_LOST p.grove else d
  gvShow (d.set1 GV_CAUSE_TASK_FAULT p.grove) p.grove

/-- The engines of a pass. -/
def engsOf (p : Pass) : List Nat := if p.e2 < 64 then [p.e1, p.e2] else [p.e1]

/-- A pass is cancelled and its engines run the self-test (R163, R173): why 1 watchdog, 2 mismatch. -/
def passTest (d : Dev) (p : Pass) (why : Nat) : Dev :=
  let d := pushMarker d p 2
  let d := d.eachIn (engsOf p) fun d e => d.setH .gEng (eg p.grove e) 4
  gvShow (setPass d { p with test := why, tests := (engsOf p).length, failed := 0 }) p.grove

/-- The engines differ (R173). -/
def mismatch (d : Dev) (p : Pass) : Dev :=
  passTest ((d.incSat GV_SHCNT_MISMATCH p.grove).set1 GV_CAUSE_MISMATCH p.grove) p 2

/-- A pass is cancelled from outside (R162, R179). One whose engines are under self-test keeps its record until their
verdict (R174, R175), and is not repeated. -/
def cancelPass (d : Dev) (p : Pass) : Dev :=
  if p.test = 1 || p.test = 2 then setPass d { p with gone := true } else pushMarker (dropPass d p) p 2

/-- The pass waits to be repeated, with its original stamp (R176); a repeat that failed is lost. -/
def passRepeat (d : Dev) (p : Pass) : Dev :=
  if p.rep then
    taskEnd ((dropPass d p).set1 GV_CAUSE_PASS_LOST p.grove |>.setF GV_TSTAT_LASTERR (tk p.grove p.task) 5) p.grove p.task
  else if p.gone then dropPass d p
  else setPass d { p with test := 3, e1 := 64, e2 := 64 }

/-- Every self-test of a pass has ended (R173, R175, R176); a retirement may leave tasks to shed (R177). DEDUCED
(notes/assumptions/61.md): the first pass of a trigger whose watchdog self-test retires its engine is repeated, as after a
mismatch: R176 names that end of a repeat alone. -/
def passVerdict (d : Dev) (p : Pass) : Dev :=
  let d := if p.test = 2 && p.failed = 0 then
      let d := (d.incSat GV_SHCNT_TRANSIENT p.grove).set1 GV_CAUSE_TRANSIENT p.grove
      if p.rep then d.eachIn (engsOf p) fun d e => retire d p.grove e 0 else d
    else d
  let d := if p.test = 1 && p.failed = 0 then passFault d p 4 else passRepeat d p
  gvShow (if p.failed != 0 || (p.test == 2 && p.rep) then shed 64 d p.grove else d) p.grove

/-- The self-test of engine e ends (R174). -/
def selfTestDone (d : Dev) (g e : Nat) (pass : Bool) : Dev :=
  let st := d.h .gEng (eg g e)
  if st = 5 then
    fillPool (if pass then d.setH .gEng (eg g e) 6 else retire d g e 2) g
  else if st = 4 then
    match d.passes.find? fun p => p.grove == g && (p.test == 1 || p.test == 2) && (p.e1 == e || p.e2 == e) with
    | none => d
    | some p =>
      let d := if pass then d.setH .gEng (eg g e) 1 else retire d g e (if p.test = 1 then 1 else 0)
      let p := { p with tests := p.tests - 1, failed := p.failed + (if pass then 0 else 1) }
      let d := setPass d p
      if p.tests = 0 then passVerdict d p else gvShow d g
  else d

/-- SELF_TEST_DONE (R174): the self-test of engine e of grove g has ended. -/
def execSelfTestDone (g : Grove) (e : Engine) (pass : Bool) (s : State) : Host.Outcome State Fault Refusal :=
  s.ok fun d => d.when (gvOn d g) fun d => selfTestDone d g e pass

/-- A trigger reaches task t (R158, R159). -/
def trigTask (d : Dev) (g t stamp : Nat) : Dev :=
  let i := tk g t
  let n := d.hn .gDiv i + 1
  if n ≤ d.f GV_TCFG_DIV i then d.setH .gDiv i n
  else
    let d := d.setH .gDiv i 0
    match d.f GV_TSTAT_STATE i with
    | 1 => (d.setF GV_TSTAT_STATE i 2).setH .gStamp i stamp
    | 3 => (d.setF GV_TSTAT_STATE i 4).setH .gStamp2 i stamp
    | 2 => (d.set1 GV_TSTAT_OVR i).set1 GV_CAUSE_TOVR g
    | 4 => (d.set1 GV_TSTAT_OVR i).set1 GV_CAUSE_TOVR g
    | _ => d

/-- TASK_TRIGGER (R158, R159): the oldest trigger on its way to grove g reaches its tasks; a trail port's event only those
of the trail's owner, kept in bits [11:8] of its selector (R466). -/
def execTaskTrigger (g : Grove) (s : State) : Host.Outcome State Fault Refusal :=
  s.ok fun d =>
    match d.gvTrigs.find? fun x => x.grove == g.val with
    | none => d
    | some x =>
      let d := { d with gvTrigs := d.gvTrigs.erase x }
      if gvOn d g then
        d.each 64 fun d t =>
          let i := tk g t
          if d.on GV_TCFG_EN i && d.f GV_TCFG_TRIG i == x.kind && d.f GV_TCFG_TSEL i == x.sel % 256
              && (x.kind != 2 || d.f GV_TCFG_OWNER i == x.sel / 256)
          then trigTask d g t x.stamp else d
      else d

/-- Whether task t can start now: its banks unused, and engines enough (R160, R161, R172). DESIGN CHOICE
(notes/assumptions/57.md): the data region of a cancelled pass stays in use while its engines are under self-test. -/
def canStart (d : Dev) (g t : Nat) : Bool :=
  let fr := (freeEngs d g).length
  !((passesOf d g).any fun p => p.test != 3 && regionsMeet d g t p.task)
  && (if shadowed d g t then 2 else 1) ≤ fr
  && (d.f GV_CFG_RPRI g ≤ d.f GV_TCFG_PRI (tk g t) || d.f GV_CFG_RESV g < fr)

/-- A pass of task t starts (R160, R566). `old`: the pass it repeats. -/
def startPass (d : Dev) (g t : Nat) (old : Option Pass) : Dev :=
  let i := tk g t
  let fr := freeEngs d g
  let e1 := (fr[0]?).getD 64
  let e2 := if shadowed d g t then (fr[1]?).getD 64 else 64
  let tag := d.hn .gTag g + 1
  let stamp := match old with | some p => p.stamp | none => d.hn .gStamp i
  let d := match old with | some p => dropPass d p | none => d.setF GV_TSTAT_STATE i 3
  let d := (d.setH .gTag g tag).eachIn (if e2 < 64 then [e1, e2] else [e1]) fun d e =>
    (clearCr (clearG d (engCpu g e)) (engCpu g e)).setPc (engCpu g e) (BitVec.ofNat 32 (d.f GV_TCODE_ENTRY i * 4))
  let d := if e2 < 64 then d.setF GV_SHCNT_PASSES g (d.f GV_SHCNT_PASSES g + 1) else d
  let p : Pass := { grove := g, task := t, e1 := e1, e2 := e2, tag := tag, stamp := stamp, start := d.now,
                    rep := old.isSome, cmp := [], test := 0, failed := 0, tests := 0, gone := false }
  { d with passes := d.passes ++ [p] }

/-- The task the dispatcher starts next, with the pass it repeats (R160): the highest priority, the lowest number among
equals. -/
def nextTask (d : Dev) (g : Nat) : Option (Nat × Option Pass) :=
  let reps := (passesOf d g).filter fun p => p.test == 3 && d.on GV_TCFG_EN (tk g p.task)
  let rep (t : Nat) : Option Pass := reps.find? fun p => p.task == t
  let l := (List.range 64).filter fun t => (d.f GV_TSTAT_STATE (tk g t) == 2 || (rep t).isSome) && canStart d g t
  let hi := l.foldl (fun m t => max m (d.f GV_TCFG_PRI (tk g t))) 0
  (l.find? fun t => d.f GV_TCFG_PRI (tk g t) == hi).map fun t => (t, rep t)

/-- PASS_START (R160, R161): the dispatcher of grove g starts a pass, if one can start. -/
def execPassStart (g : Grove) (s : State) : Host.Outcome State Fault Refusal :=
  s.ok fun d => d.when (d.on GV_CFG_EN g && gvOn d g) fun d =>
    match nextTask d g with
    | some (t, old) => startPass d g t old
    | none => d

/-- PASS_WATCHDOG (R163): the pass on engine e of grove g has run for its budget. -/
def execPassWatchdog (g : Grove) (e : Engine) (s : State) : Host.Outcome State Fault Refusal :=
  s.ok fun d =>
    match passOn d g e with
    | some p => passTest (d.set1 GV_CAUSE_WDOG g) p 1
    | none => d

/-- The length of a pass in units of 256 GCLK cycles, rounded up (GV_TSTAT.MAXLEN); a GCLK cycle is 2 ticks. -/
def passLen (d : Dev) (p : Pass) : Nat := min 255 (((d.now - p.start) / 2 + 255) / 256)

/-- A pass ends at DONE (`kind` 1) or DROP (2) (R152). -/
def passEnd (d : Dev) (p : Pass) (kind : Nat) : Dev :=
  let i := tk p.grove p.task
  let d := pushMarker (dropPass d p) p kind
  let d := d.setF GV_TSTAT_PASSES i (d.f GV_TSTAT_PASSES i + 1)
  let d := d.setF GV_TSTAT_MAXLEN i (max (d.f GV_TSTAT_MAXLEN i) (passLen d p))
  taskEnd d p.grove p.task

/-- Every running pass of the grove is cancelled and every pending slot emptied (R178, R179). -/
def cancelAll (d : Dev) (g : Nat) : Dev :=
  let d := d.eachIn (passesOf d g) cancelPass
  d.each 64 fun d t =>
    let st := d.f GV_TSTAT_STATE (tk g t)
    if 2 ≤ st && st ≤ 4 then d.setF GV_TSTAT_STATE (tk g t) 1 else d

/-- GRVn loses power (R178): passes are cancelled with their provisional values, triggers and engine state lost. -/
def grovePowerLoss (d : Dev) (g : Nat) : Dev :=
  let d := cancelAll d g
  let d := { d with prov := d.prov.filter (fun v => v.grove != g), steerq := d.steerq.filter (fun v => v.grove != g),
                    gvTrigs := d.gvTrigs.filter (fun v => v.grove != g), passes := d.passes.filter (fun v => v.grove != g) }
  let d := d.each 34 fun d e => clearCr (clearG (d.setH .gEng (eg g e) 0) (engCpu g e)) (engCpu g e)
  gvShow ((d.setH .capSt g 0).setGw g 0x2800 (d.gw g 0x2800 &&& 1).toNat) g

/-! ### Steering (R149 to R153, R76) -/

/-- The register at an offset of the steering window (R149): its row, its copy, and whether that is a rail or a phase. -/
def steerRow (off : Nat) : Option (RegRow × Nat × Bool) :=
  if off < 0x400 then
    let R := match off % 0x40 with
      | 0x00 => some row_FL_G_KI | 0x04 => some row_FL_G_B0 | 0x08 => some row_FL_G_B1 | 0x0C => some row_FL_G_B2
      | 0x10 => some row_FL_G_A1 | 0x14 => some row_FL_G_A2 | 0x18 => some row_FL_G_GSH | 0x1C => some row_FL_G_LL
      | 0x20 => some row_FL_G_OFS | 0x24 => some row_PH_G_RPER | 0x28 => some row_IG_G_TRUST | _ => none
    R.map fun R => (R, off / 0x40, true)
  else if off < 0x800 then
    let R := match off % 0x10 with | 0 => some row_PH_G_ANG | 4 => some row_PH_G_SHARE | _ => none
    R.map fun R => (R, (off - 0x400) / 0x10, false)
  else none
def steerReg (off : Nat) : Option (Reg × Nat × Bool) := (steerRow off).map fun r => (r.1.reg, r.2)

/-- A word without the bits its register has no field for: they read 0 (R13). -/
def fieldBits (row : RegRow) (w : Word) : Word := row.fields.foldl (fun x F => putBits x F.lo F.n (valOf w F)) 0

/-- Whether a word gives a field a reserved encoding (R14). -/
def fieldBad (row : RegRow) (w : Word) : Bool :=
  row.fields.any fun F => F.acc != .ro && F.bad.any fun b => b.1 ≤ valOf w F && valOf w F ≤ b.2

/-- Whether a steering write of a task's owner to a rail or phase is let through (R150). -/
def steerOk (d : Dev) (g owner i : Nat) (isRail : Bool) : Bool :=
  let k := if isRail then i else phDom d i
  (if isRail then (railOwner d i).1 == owner else (phaseOwner d i).1 == owner)
  && k < 16 && (d.f GV_LEAD_RAILS g).testBit k

/-- A steering write drains to its provisional value (R141, R151): a field holds one, whichever grove wrote it; the grove
that writes shows the overlap. A reserved encoding changes nothing and sets the leaf's
ACC_ERR (R14); the only steering field that has one is the period, whose leaf is its rail's FL_CAUSE (R705, R706). -/
def provWrite (d : Dev) (x : SteerItem) : Dev :=
  match steerRow x.off with
  | none => d
  | some (row, i, _) =>
    if fieldBad row x.val then d.set1 FL_CAUSE_ACC_ERR i
    else
      let d := if d.prov.any fun v => v.off == x.off && (v.grove != x.grove || v.tag != x.tag)
        then d.set1 GV_CAUSE_STEER_OVERLAP x.grove else d
      let l := d.prov.filter fun v => v.off != x.off
      let v : Prov := { grove := x.grove, off := x.off, tag := x.tag, val := fieldBits row x.val }
      { d with prov := l ++ [v] }

/-- Grove writes to rail k become pending: a frozen rail discards them (R76, R79, R80). DESIGN CHOICE
(notes/assumptions/10.md): the spec does not say whether a discarded pass counts for AGE; it leaves AGE as it is. -/
def gvPend (d : Dev) (k : Nat) (ws : List (Reg × Nat × Word)) : Dev :=
  if ws.isEmpty then d
  else if k < 16 && frozen d k then d.set1 FL_CAUSE_DISCARD k
  else
    let d := ws.foldl (fun d w => d.setR w.1 w.2.1 w.2.2) d
    let es : List DbWrite := ws.map fun w =>
      { dom := k, addr := w.1.addr w.2.1, rst := w.1.reset w.2.1, val := w.2.2, stamp := d.now }
    let d := { d with pendGv := d.pendGv ++ es }
    if k < 16 then d.setF FL_STEER_AGE k 0 else d

/-- A marker reaches the shadows (R76, R152): a closing one makes the pass's values pending, a cancel one removes them. -/
def marker (d : Dev) (x : SteerItem) : Dev :=
  let vs := d.prov.filter fun v => v.grove == x.grove && v.tag == x.tag
  let d := { d with prov := d.prov.filter fun v => !(v.grove == x.grove && v.tag == x.tag) }
  if x.kind = 2 then d
  else
    let ws : List (Nat × Reg × Nat × Word) := vs.filterMap fun v =>
      (steerReg v.off).map fun r => (if r.2.2 then r.2.1 else phDom d r.2.1, r.1, r.2.1, v.val)
    d.each 18 fun d k => gvPend d k ((ws.filter fun w => w.1 == k).map fun w => w.2)

/-- The item at the head of a grove's steering queue goes on its way. -/
def steerHead (d : Dev) (g : Nat) : Dev :=
  match d.steerq.find? fun x => x.grove == g with
  | none => d
  | some x =>
    let d := { d with steerq := d.steerq.erase x }
    if x.kind = 0 then provWrite d x else marker d x

/-- STEER_WRITE_DRAIN (R141): the steering queue of grove g drains one write. -/
def execSteerWriteDrain (g : Grove) (s : State) : Host.Outcome State Fault Refusal :=
  s.ok fun d => d.when ((d.steerq.find? fun x => x.grove == g.val).any fun x => x.kind == 0) fun d => steerHead d g

/-- STEER_MARKER_ARRIVE (R76, R152): the marker at the head of the queue of grove g reaches the shadows. -/
def execSteerMarkerArrive (g : Grove) (s : State) : Host.Outcome State Fault Refusal :=
  s.ok fun d => d.when ((d.steerq.find? fun x => x.grove == g.val).any fun x => x.kind != 0) fun d => steerHead d g

/-! ### Capture unit (R154 to R156) -/

/-- Fields of the capture unit's control word. -/
def capF (d : Dev) (g lo n : Nat) : Nat := bitsOf (BitVec.ofInt 32 (d.h .capCfg g)) lo n

/-- CAPT_STATUS: DONE, BUSY, ABORT. -/
def setCapStatus (d : Dev) (g : Nat) (done busy abort : Bool) : Dev :=
  d.setGw g 0x2800 (b2n done + 2 * b2n busy + 4 * b2n abort : Nat)

/-- The capture of grove g aborts (R156). -/
def capAbort (d : Dev) (g : Nat) : Dev :=
  gvEvent (setCapStatus (d.setH .capSt g 0) g false false true) g 0

/-- A capture whose rail does not switch or is frozen aborts (R156). DESIGN CHOICE (notes/assumptions/61.md): one that is
armed on a rail already not switching or frozen aborts at once; the rule speaks of a rail that stops or freezes. -/
def capCheck (d : Dev) (g : Nat) : Dev :=
  let k := capF d g 0 4
  if d.hon .capSt g && (frozen d k || nsw d k == 0) then capAbort d g else d

/-- A write of grove g's capture unit to FL_G_OFS: a pass of its own, of one write and its closing marker (R151, R155). -/
def capOfs (d : Dev) (g k : Nat) (v : Int) : Dev :=
  let tag := d.hn .gTag g + 1
  let x : SteerItem := { grove := g, kind := 0, off := 0x40 * k + 0x20, tag := tag, val := putBits 0 0 12 (sat v 12) }
  marker (provWrite (d.setH .gTag g tag) x) { x with kind := 1 }

/-- The capture record passes to partition `owner`: the samples of another partition's record are not read under its name
(R148); they are cleared. -/
def capOwn (d : Dev) (g owner : Nat) : Dev :=
  if d.hn .capPart g = owner then d
  else ((List.range 512).foldl (fun d j => d.setGw g (0x2000 + 4 * j) 0) d).setH .capPart g owner

/-- Control word CAPT_CTL is written with ARM (R154, R156) for a task of partition `owner`. -/
def capArm (d : Dev) (g owner : Nat) (w : Word) : Dev :=
  let k := bitsOf w 0 4
  if d.hon .capSt g then d.set1 GV_CAUSE_CAPT_OVR g
  else if 5 < bitsOf w 7 3 || 5 < bitsOf w 24 4 then d.set1 GV_CAUSE_ACC_ERR g
  else
    let d := ((capOwn d g owner).setH .capCfg g w.toNat).setH .capSt g 1
    let d := (d.setH .capBase g (d.ai FL_G_OFS_OFS k)).setH .capCnt g 0
    capCheck (setCapStatus d g false true false) g

/-- The part of a commit point of rail k that belongs to the capture units: an armed capture starts, and a running one
writes its tone (R154, R155). -/
def capCommit (d : Dev) (k : Nat) : Dev :=
  d.each 16 fun d g =>
    if d.hon .capSt g && capF d g 0 4 == k then
      let d := if d.hn .capSt g = 1 then (d.setH .capSt g 2).setH .capTone g 0 else d
      let c := d.hn .capTone g
      let p := 2 ^ capF d g 24 4
      let amp : Int := capF d g 16 8
      let d := if amp ≠ 0 && c % p = 0 then
          capOfs d g k (d.h .capBase g + (if c / p % 2 = 0 then amp else -amp)) else d
      d.setH .capTone g (c + 1 : Nat)
    else d

/-- One LCLK cycle of the capture units: the sample points of the rail's period that fall into it (R154). DESIGN CHOICE
(notes/assumptions/57.md): sample point j lies at rail time j x period / 2^SPP; the spec gives the points no other origin. -/
def capCycle (d : Dev) : Dev :=
  d.each 16 fun d g =>
    let d := capCheck d g
    if d.hn .capSt g = 2 then
      let k := capF d g 0 4
      let per := 2 * domH d k
      let n := 2 ^ capF d g 7 3
      d.each n fun d j =>
        let i := d.hn .capCnt g
        if i < 1024 && (j * per / n + per - d.hn .railTime k % max per 1) % max per 1 < 32 then
          let x : Int := if capF d g 4 1 = 1 then d.fi PH_IMEAS_I (4 * g + capF d g 5 2) else sat (asr (d.fi FL_ERR_X k) 2) 16
          let o := 0x2000 + i / 2 * 4
          (d.setGw g o (putBits (d.gw g o) (16 * (i % 2)) 16 x).toNat).setH .capCnt g (i + 1 : Nat)
        else d
    else d

/-- CAPTURE_DONE (R154, R155): the last sample of the capture of grove g has been recorded. -/
def execCaptureDone (g : Grove) (s : State) : Host.Outcome State Fault Refusal :=
  s.ok fun d => d.when (d.hn .capSt g == 2 && d.hn .capCnt g == 1024) fun d =>
    let d := if capF d g 16 8 ≠ 0 then capOfs d g (capF d g 0 4) (d.h .capBase g) else d
    gvEvent (setCapStatus (d.setH .capSt g 0) g true false false) g 0

/-- A change in the set of SWITCHING phases of a rail the grove leads raises grove event 2 (R158). -/
def setWatch (d : Dev) : Dev :=
  d.each 16 fun d k =>
    match d.leadGrove k with
    | none => d
    | some g =>
      let m : Int := (switching d k).foldl (fun a n => a + 2 ^ n) 0
      if d.h .gSet k = m then d else gvEvent (d.setH .gSet k m) g 2

/-- The tasks whose code region holds a word at instruction address a are no standard tasks any more: their words have
changed. -/
def codeTouched (d : Dev) (g a : Nat) : Dev :=
  d.each 64 fun d t =>
    let b := d.f GV_TCODE_CBASE (tk g t)
    if b ≤ a / 1024 && a / 1024 ≤ b + d.f GV_TCODE_CLEN (tk g t) then d.setH .gStd (tk g t) 0 else d

/-! ### Register writes of the block -/

/-- A write of GV_TCFG by the warden (R162). Clearing EN disables the task; a task that keeps EN keeps its state. -/
def tcfgWrite (d : Dev) (g t : Nat) (w : Word) : Dev :=
  let i := tk g t
  let was := d.on GV_TCFG_EN i
  let d := d.setR GV_TCFG i w
  let d :=
    if w.getLsbD 0 then
      if was then d
      else
        let d := d.setF GV_TCFG_EN i 0
        if admitRefused d g t then d.set1 GV_CAUSE_ADMIT g
        else ((d.setF GV_TCFG_EN i 1).setF GV_TSTAT_STATE i 1).setH .gDiv i 0
    else if was then
      (d.eachIn ((passesOf d g).filter fun p => p.task == t) cancelPass).setF GV_TSTAT_STATE i 0
    else d
  gvShow d g

/-- A write of GV_LEAD (R139). DESIGN CHOICE (notes/assumptions/61.md): a write that takes another grove's rail and would
also change a locked bit sets ACC_ERR alone. -/
def gvLeadWrite (d : Dev) (g : Nat) (w : Word) : Dev :=
  let old := d.f GV_LEAD_RAILS g
  let new := bitsOf w 0 16
  if (List.range 16).any fun k => new.testBit k && (List.range 16).any fun h => h != g && (d.f GV_LEAD_RAILS h).testBit k
  then d.set1 GV_CAUSE_ACC_ERR g
  else
    let bad (k : Nat) : Bool := new.testBit k != old.testBit k && rlState d k != rlOff
    let d' := d.setF GV_LEAD_RAILS g (boughBits 16 fun k => if bad k then old.testBit k else new.testBit k)
    if (List.range 16).any bad then d'.set1 GV_CAUSE_LOCK_ERR g else d'

/-- A write of GV_CFG: clearing EN cancels passes and empties slots (R179). -/
def gvCfgWrite (d : Dev) (g : Nat) (w : Word) : Dev :=
  let was := d.on GV_CFG_EN g
  let d := d.setR GV_CFG g w
  gvShow (if was && !w.getLsbD 0 then cancelAll d g else d) g

/-! ### The state window (R147, R148) -/

/-- A word with fields set. -/
def withF (w : Word) (l : List (Fld × Int)) : Word := l.foldl (fun w x => putBits w x.1.lo x.1.n x.2) w

/-- The status fields of FL registers that follow from the state. -/
def flFields (d : Dev) (R : Reg) (k : Nat) : List (Fld × Int) :=
  if R = FL_STATUS then
    [(FL_STATUS_RAMPING, b2i (d.h .refFrac k != refTarget d k)), (FL_STATUS_NS_ACT, b2i (nsAct d k)),
     (FL_STATUS_BANK_ACT, d.a FL_CFG_BANK k), (FL_STATUS_LEAD_ACT, ((leadOf d k).getD 0 : Nat)),
     (FL_STATUS_NPH, nsw d k)]
  else if R = FL_CMT then
    [(FL_CMT_PEND_SW, b2i (d.pendSw.any fun e => e.dom == k)), (FL_CMT_PEND_GV, b2i (d.pendGv.any fun e => e.dom == k))]
  else []

/-- Those of PH registers. DESIGN CHOICE (notes/assumptions/11.md): EQ_HOLD follows R109 from reset on, so it reads 1
while the phase is not SWITCHING, where the register table gives it the reset value 0. -/
def phFields (d : Dev) (R : Reg) (n : Nat) : List (Fld × Int) :=
  if R = PH_STATUS then
    let k := phDom d n
    [(PH_STATUS_EQ_HOLD, b2i (phState d n != phSwitching || (k < 16 && frozen d k) || !d.aon PH_CFG_EQ_EN n)),
     (PH_STATUS_ANG_SLEW, b2i (d.f PH_ANGNOW_ANG n != angTarget d n)),
     (PH_STATUS_EN, if phState d n = phTone then b2i (toneLevel d n) else d.f PH_STATUS_EN n)]
  else if R = PH_ANGNOW then [(PH_ANGNOW_TGT, angTarget d n)]
  else []

/-- A word of the state window for an engine of a pass: `none` where the map has none. -/
def stateWindow (d : Dev) (p : Pass) (e off : Nat) : Option (Nat × Dev) :=
  let owner := d.f GV_TCFG_OWNER (tk p.grove p.task)
  let ofs (R : Reg) (i : Nat) : Nat := (withF (d.r R i) (flFields d R i ++ phFields d R i)).toNat
  if off < 0x400 then
    let k := off / 0x40
    let o := off % 0x40
    let v : Nat := match o with
      | 0x00 => ofs FL_STATUS k | 0x04 => ofs FL_REFNOW k | 0x08 => ofs FL_ERR k | 0x0C => ofs FL_DUTY k
      | 0x10 => ofs FL_ISUM k | 0x14 => ofs FL_DROOP k
      | 0x18 => ofs FL_CMT k | 0x1C => ofs PH_RPERNOW k | 0x20 => ofs FL_STEER k
      | 0x24 => d.a FL_S_GSH_GSH k + 16 * d.a FL_G_GSH_GSH k
      | 0x28 => (d.ar FL_S_KI k).toNat | 0x2C => (d.ar FL_S_B0 k).toNat | 0x30 => (d.ar FL_S_B1 k).toNat
      | 0x34 => (d.ar FL_S_B2 k).toNat | 0x38 => (d.ar FL_S_A1 k).toNat | _ => (d.ar FL_S_A2 k).toNat
    some (if (railOwner d k).1 = owner then v else 0, d)
  else if off < 0xC00 then
    let n := (off - 0x400) / 0x20
    let v : Nat := match (off - 0x400) % 0x20 with
      | 0x00 => ofs PH_STATUS n | 0x04 => ofs PH_IMEAS n | 0x08 => ofs PH_EQNOW n | 0x0C => ofs PH_ANGNOW n
      | 0x10 => ofs PH_STAGE n | 0x14 => ofs PH_ROLE n
      | 0x18 => if d.on PH_STAGE_MAPPED n then d.hn .lWear n % 65536 else 0
      | _ => ofs PH_COUNT n
    some (if (phaseOwner d n).1 = owner then v else 0, d)
  else if off = 0xC00 then some (d.now % 2 ^ 32, d.setH .gTimeHi (eg p.grove e) (d.now / 2 ^ 32 : Nat))
  else if off = 0xC04 then some (d.hn .gTimeHi (eg p.grove e), d)
  else if off = 0xC08 then some (p.grove + 256 * e + 65536 * p.task + 2 ^ 24 * b2n p.rep, d)
  else if off = 0xC0C then some (p.stamp % 2 ^ 32, d)
  else if 0x1000 ≤ off && off < 0x1400 then
    let v := (d.gw p.grove off).toNat
    some (if (railOwner d (bitsOf (d.gw p.grove (off / 16 * 16)) 0 4)).1 = owner then v else 0, d)
  else if off = 0x1400 then some ((d.gw p.grove off).toNat, d)
  else if 0x2000 ≤ off && off < 0x2800 then
    some (if d.hn .capPart p.grove = owner then (d.gw p.grove off).toNat else 0, d)
  else if off = 0x2800 then some ((d.gw p.grove off).toNat, d)
  else none

end Sys2Proof.Machine
end

