-- ==== Sys2Proof/Machine/TimeLife.lean ====
section
/-! DEFINITION. Timers, the real-time clock, life records and energy meters (spec/15), but for the writing of records to
flash. Counts between their events follow the time base; an ACLK edge is METER_HANDOFF (notes/assumptions/44.md). -/

namespace Sys2Proof.Machine

/-- A 64-bit value held in two registers. -/
def Dev.w64 (d : Dev) (L H : Reg) (i : Nat) : Nat := (d.r L i).toNat + 2 ^ 32 * (d.r H i).toNat
def Dev.setW64 (d : Dev) (L H : Reg) (i x : Nat) : Dev :=
  (d.setR L i (BitVec.ofNat 32 x)).setR H i (BitVec.ofNat 32 (x / 2 ^ 32))

/-! ### General timers (R539 to R542) -/

/-- TOP in effect; the reset value is all ones. -/
def tmTopOf (d : Dev) (t : Nat) : Nat := (d.h .tmTop t + (2 ^ 64 - 1)).toNat % 2 ^ 64

/-- The path a timer runs through: its position in the period, and the positions of match and overflow. -/
def tmPeriod (d : Dev) (t : Nat) : Nat := if d.f TM_TCTL_MODE t = 1 then 2 * tmTopOf d t else tmTopOf d t + 1

/-- Positions at which the count equals MATCH. -/
def tmMatches (d : Dev) (t : Nat) : List Nat :=
  let m := d.hn .tmMat t
  let top := tmTopOf d t
  if top < m then []
  else if d.f TM_TCTL_MODE t = 1 && m ≠ 0 && m ≠ top then [m, 2 * top - m] else [m]

/-- The position at the last event, and the position now: PCLK is 10 ticks, and no event is passed over. -/
def tmPos0 (d : Dev) (t : Nat) : Nat :=
  if d.hon .tmDown t then 2 * tmTopOf d t - d.hn .tmBase t else d.hn .tmBase t
def tmPos (d : Dev) (t : Nat) : Nat :=
  let p0 := tmPos0 d t
  if d.on TM_TCTL_RUN t then
    let p := p0 + (d.now - d.hn .tmAt t) / (10 * (d.f TM_TCTL_PRE t + 1))
    ((tmPeriod d t) :: (tmMatches d t)).foldl (fun p e => if p0 < e && e ≤ p then e - 1 else p) p
  else p0

/-- The count of a timer, and whether it counts down. -/
def tmDownNow (d : Dev) (t : Nat) : Bool := d.f TM_TCTL_MODE t == 1 && tmTopOf d t < tmPos d t
def tmCount (d : Dev) (t : Nat) : Nat := if tmDownNow d t then 2 * tmTopOf d t - tmPos d t else tmPos d t

/-- The output of a timer (R540). -/
def tmOut (d : Dev) (t : Nat) : Bool := decide (d.hn .tmMat t ≤ tmCount d t) != d.on TM_TCTL_OUTINV t

/-- Put the count of a timer at a position of its period. -/
def tmSeat (d : Dev) (t pos : Nat) : Dev :=
  let down := d.f TM_TCTL_MODE t == 1 && tmTopOf d t < pos
  let d := (d.setH .tmAt t d.now).setH .tmDown t (b2i down)
  d.setH .tmBase t (if down then 2 * tmTopOf d t - pos else pos : Nat)

/-- TIMER_MATCH (R539): the count of timer t becomes equal to MATCH, for the next time from where it stands. -/
def execTimerMatch (t : Fin 16) (s : State) : Host.Outcome State Fault Refusal :=
  s.svc fun d => d.when (d.on TM_TCTL_RUN t) fun d =>
    match (tmMatches d t).find? fun m => tmPos0 d t < m || (m == 0 && tmPos0 d t == 0) with
    | none => d
    | some m => ((tmSeat d t m).set1 TM_TCAUSE_MATCH t).raise (0x280 + 2 * t.val)

/-- Writes of TOP and MATCH that waited take effect (R541). -/
def tmLoad (d : Dev) (t : Nat) : Dev :=
  (d.setH .tmTop t (d.w64 TM_TOP_LO TM_TOP_HI t - (2 ^ 64 - 1 : Nat) : Int)).setH .tmMat t (d.w64 TM_MAT_LO TM_MAT_HI t)

/-- TIMER_OVERFLOW (R539, R541): the count of timer t returns to 0. -/
def execTimerOverflow (t : Fin 16) (s : State) : Host.Outcome State Fault Refusal :=
  s.svc fun d => d.when (d.on TM_TCTL_RUN t) fun d =>
    ((tmLoad (tmSeat d t 0) t).set1 TM_TCAUSE_OVF t).raise (0x281 + 2 * t.val)

/-- RUN changes: the count stands still while it is 0. -/
def tmRun (d : Dev) (t : Nat) (run : Bool) : Dev :=
  let p := tmPos d t
  let d := tmSeat (d.setF TM_TCTL_RUN t (b2i run)) t p
  if run then d else tmLoad d t

/-- What a start event does (R540). -/
def tmStart (d : Dev) (t : Nat) : Dev :=
  if d.on TM_TCTL_XSTART t && !d.on TM_TCTL_RUN t then tmRun d t true else d

/-- TIMER_START_EVENT (R540). -/
def execTimerStartEvent (t : Fin 16) (s : State) : Host.Outcome State Fault Refusal := s.svc fun d => tmStart d t

/-- What a capture event does (R542). -/
def tmCapture (d : Dev) (t stamp : Nat) : Dev :=
  let d := if d.on TM_TCAUSE_CAP t then d.set1 TM_TCAUSE_CAP_OVR t else d
  (d.setW64 TM_CAP_LO TM_CAP_HI t stamp).set1 TM_TCAUSE_CAP t

/-- TIMER_CAPTURE (R542): a capture event with its stamp. -/
def execTimerCapture (t : Fin 16) (stamp : BitVec 64) (s : State) : Host.Outcome State Fault Refusal :=
  s.svc fun d => tmCapture d t stamp.toNat

/-- A write of TM_TCTL. A new prescaler or RUN keeps the count and its direction, a new mode the count, which then goes up
(DESIGN CHOICE, notes/assumptions/44.md); with these three as they were the count runs on untouched. -/
def tctlWrite (d : Dev) (t : Nat) (w : Word) : Dev :=
  let same (F : Fld) : Bool := valOf w F == d.f F t
  let pos := if same TM_TCTL_MODE then tmPos d t else tmCount d t
  let go := same TM_TCTL_MODE && same TM_TCTL_PRE && same TM_TCTL_RUN
  let d := d.setR TM_TCTL t w
  let d := if go then d else tmSeat d t pos
  if d.on TM_TCTL_RUN t then d else tmLoad d t

/-- A write of the high word of CNT (0), TOP (1) or MATCH (2) loads both words (R541). A TOP of 0 is reserved (R539). -/
def tmHiWrite (d : Dev) (t j : Nat) (w : Word) : Dev :=
  let x := d.hn .tmHold (3 * t + j) % 2 ^ 32 + 2 ^ 32 * w.toNat
  if j = 0 then
    let d := d.setW64 TM_CNT_LO TM_CNT_HI t x
    ((d.setH .tmAt t d.now).setH .tmDown t 0).setH .tmBase t x
  else if j = 1 then
    if x = 0 then d.set1 TM_TCAUSE_ACC_ERR t
    else
      let d := d.setW64 TM_TOP_LO TM_TOP_HI t x
      if d.on TM_TCTL_RUN t then d else tmLoad d t
  else
    let d := d.setW64 TM_MAT_LO TM_MAT_HI t x
    if d.on TM_TCTL_RUN t then d else tmLoad d t

/-! ### Energy meters (R556, R557) -/

/-- The accumulators of rail k are handed to its meter. -/
def meterHand (d : Dev) (k : Nat) : Dev :=
  let u : Nat := 8192000000
  let fd := d.hn .emFracD k + d.hn .emD k
  let fr := d.hn .emFracR k + d.hn .emR k
  let d := (d.setW64 EM_E_LO EM_E_HI k (d.w64 EM_E_LO EM_E_HI k + fd / u)).setH .emFracD k (fd % u : Nat)
  let d := (d.setW64 EM_R_LO EM_R_HI k (d.w64 EM_R_LO EM_R_HI k + fr / u)).setH .emFracR k (fr % u : Nat)
  (d.setH .emD k 0).setH .emR k 0
def meterAll (d : Dev) : Dev := d.each 16 meterHand

/-! ### The calendar (R543) -/

/-- RTC seconds, and setting the RTC. -/
def rtcSec (d : Dev) : Nat := d.rtc / 65536
def setRtc (d : Dev) (x : Nat) : Dev :=
  ((d.setF TM_RTC_HI_SEC 0 (x / 2 ^ 32 : Nat)).setF TM_RTC_LO_SEC 0 (x / 65536 % 65536 : Nat)).setF TM_RTC_LO_SUB 0 (x % 65536 : Nat)

/-- The calendar limit: 2255-12-31 23:59:59 plus 65,534 subseconds. -/
def rtcLimit : Nat := 8078572800 * 65536 - 2

/-- Days of a year, and of a month of it. -/
def leap (y : Nat) : Bool := (y % 4 == 0 && y % 100 != 0) || y % 400 == 0
def yearDays (y : Nat) : Nat := if leap y then 366 else 365
def monthDays (y m : Nat) : Nat :=
  if m = 2 then (if leap y then 29 else 28) else if m = 4 || m = 6 || m = 9 || m = 11 then 30 else 31

/-- Years from 2000 and day of the year, of a day number; month and day of the month, of a day of a year. -/
def yearOf : Nat → Nat → Nat → Nat × Nat
  | 0, y, n => (y, n)
  | fuel + 1, y, n => if n < yearDays y then (y, n) else yearOf fuel (y + 1) (n - yearDays y)
def monthOf : Nat → Nat → Nat → Nat → Nat × Nat
  | 0, _, m, n => (m, n)
  | fuel + 1, y, m, n => if n < monthDays y m then (m, n) else monthOf fuel y (m + 1) (n - monthDays y m)

/-- The day number of the RTC, its year, and the day number of 1 January of a year. -/
def dayOf (d : Dev) : Nat := rtcSec d / 86400
def yearNow (d : Dev) : Nat := (yearOf 256 2000 (dayOf d)).1
def newYear (y : Nat) : Nat := (List.range (y - 2000)).foldl (fun a j => a + yearDays (2000 + j)) 0

/-- TM_CAL0 and TM_CAL1. -/
def cal0 (d : Dev) : Nat :=
  let (y, n) := yearOf 256 2000 (dayOf d)
  let (m, n) := monthOf 12 y 1 n
  (y - 2000) + 256 * m + 65536 * (n + 1)
def cal1 (d : Dev) : Nat :=
  let x := rtcSec d % 86400
  x % 60 + 256 * (x / 60 % 60) + 65536 * (x / 3600)

/-! ### Records (R553 to R555, R558 to R560) -/

/-- EPOCH and SEQ of the open interval. -/
def emEpoch (d : Dev) : Nat := d.f EM_STATUS_EPOCH

/-- Delivered meters of the sixteen rails from an offset of a record. -/
def meterBody (d : Dev) (o : Nat) (L H : Reg) : List (Nat × Nat × Nat) :=
  (List.range 16).map fun k => (o + 8 * k, 8, d.w64 L H k)

/-- A growth ring of the day (j = 0) or year (1) being left (R554, R555); the period's figures start again. -/
def ring (d : Dev) (j period : Nat) (cut : Bool) : Dev :=
  let d := d.logPush j 192 ([(24, 2, period), (26, 2, emEpoch d), (28, 1, b2n cut), (29, 1, d.hn .dieMax j),
    (30, 2, d.hn .deadCnt j), (32, 4, d.f LF_POH_VALUE), (36, 4, (d.r LF_FB0).toNat), (40, 4, (d.r LF_FB1).toNat)]
    ++ meterBody d 44 EM_E_LO EM_E_HI)
  (d.setH .dieMax j 0).setH .deadCnt j 0

/-- Billing records in the queue (R560). -/
def qfill (d : Dev) : Nat := (d.logq.filter fun r => r.kind == 5).length

/-- Every rail's interval closes, and the next opens with EPOCH and SEQ (R558 to R560); `flags`: CUT 1, BACK 2, PLOSS 4.
`stamp` and `rtc` are those of the close. -/
def closeIntervals (d : Dev) (flags epoch seq stamp rtc : Nat) : Dev :=
  let d := d.each 16 fun d k =>
    if 64 ≤ qfill d then (d.set1 EM_CAUSE_QOVR).setH .emGap 0 1
    else
      let e := d.w64 EM_E_LO EM_E_HI k - d.hn .emStart k
      let r : LogRec := { kind := 5, len := 64, stamp := stamp, rtc := rtc, body :=
        [(24, 1, k), (25, 1, flags + 8 * d.hn .emGap), (26, 2, emEpoch d), (28, 4, d.f EM_SEQ_SEQ),
         (32, 8, d.hn .emStamp), (40, 8, d.hn .emRtc), (48, 8, e)] }
      ({ d with logq := d.logq ++ [r] } : Dev).setH .emGap 0 0
  let d := d.each 16 fun d k => d.setH .emStart k (d.w64 EM_E_LO EM_E_HI k)
  let d := ((d.setF EM_STATUS_EPOCH 0 epoch).setF EM_SEQ_SEQ 0 seq).setH .emLast 0 (rtcSec d)
  let d := d.setH .emLen 0 (d.f EM_CFG_LEN)
  (d.setH .emStamp 0 d.now).setH .emRtc 0 d.rtc

/-- The interval length in effect (R558). -/
def emLenNow (d : Dev) : Nat := if d.hon .emLen then d.hn .emLen else d.f EM_CFG_LEN

/-- INTERVAL_CLOSE (R558): the RTC reaches the next multiple of LEN. -/
def execIntervalClose (s : State) : Host.Outcome State Fault Refusal :=
  s.ok fun d => d.when (d.on EM_CFG_EN && emLenNow d != 0 && !d.hon .rtcStop) fun d =>
    let l := emLenNow d
    let d := setRtc d (max d.rtc ((d.hn .emLast / l + 1) * l * 65536))
    (closeIntervals (meterAll d) 0 (emEpoch d) (d.f EM_SEQ_SEQ + 1) d.now d.rtc).set1 EM_CAUSE_CLOSE

/-- DAY_BOUNDARY (R555): the RTC reaches the next day. -/
def execDayBoundary (s : State) : Host.Outcome State Fault Refusal :=
  s.ok fun d => d.when (!d.hon .rtcStop) fun d =>
    let d := setRtc d (max d.rtc ((d.hn .rtcDay + 1) * 86400 * 65536))
    (ring d 0 (d.hn .rtcDay) false).setH .rtcDay 0 (dayOf d)

/-- YEAR_BOUNDARY (R555): the RTC reaches the next 1 January. -/
def execYearBoundary (s : State) : Host.Outcome State Fault Refusal :=
  s.ok fun d => d.when (!d.hon .rtcStop) fun d =>
    let y := 2000 + d.hn .rtcYear
    let d := setRtc d (max d.rtc (newYear (y + 1) * 86400 * 65536))
    (ring d 1 (y - 2000) false).setH .rtcYear 0 (yearNow d - 2000 : Nat)

/-! ### The RTC (R543 to R545) -/

/-- Alarm seconds. -/
def almSec (d : Dev) : Nat := d.f TM_ALM_HI_SEC * 65536 + d.f TM_ALM_LO_SEC

/-- Whether the RTC may reach TM_ALM from below by counting (R545). -/
def almDue (d : Dev) : Bool := d.on TM_RTC_CTL_ALM_EN && d.hon .almBelow && !d.hon .rtcStop

/-- The RTC reaches TM_ALM from below (R545). -/
def rtcAlarm (d : Dev) : Dev := ((setRtc d (max d.rtc (almSec d * 65536))).setH .almBelow 0 0).set1 TM_ACAUSE_ALARM

/-- RTC_END (R543): the RTC reaches the calendar limit and stops. -/
def execRtcEnd (s : State) : Host.Outcome State Fault Refusal :=
  s.ok fun d => ((setRtc d rtcLimit).setH .rtcStop 0 1).set1 TM_ACAUSE_END

/-- A write of an alarm register reached AON: whether the RTC stands below it. -/
def almSettle (d : Dev) : Dev := d.setH .almBelow 0 (b2i (rtcSec d < almSec d))

/-- A write of TM_RTC_CTL took `d0` to `d`: an alarm newly enabled fires from where the RTC stands now (R545). -/
def almEnable (d0 d : Dev) : Dev := if d0.on TM_RTC_CTL_ALM_EN then d else almSettle d

/-- The set value: subsecond bit 0 is ignored (R544). -/
def setValue (d : Dev) : Nat := (d.f TM_SET_HI_SEC * 2 ^ 32 + d.f TM_SET_LO_SEC * 65536 + d.f TM_SET_LO_SUB) / 2 * 2

/-- Whether a write of TM_RTC_CTL with SET is a reserved encoding (R544). -/
def setRefused (d : Dev) : Bool := d.on TM_RTC_CTL_SETBUSY || decide (rtcLimit < setValue d)

/-- Whether the set that crossed into AON reaches TM_ALM from below (R545). -/
def almBySet (d : Dev) : Bool :=
  decide (rtcSec d < almSec d) && d.on TM_RTC_CTL_ALM_EN && decide (almSec d ≤ setValue d / 65536)

/-- The set that crossed into AON applies at the next ACLK edge (R544, R545, R555, R559). -/
def rtcSet (d : Dev) : Dev :=
  let alarm := almBySet d
  let old := d.rtc
  let new := setValue d
  let back := decide (new < old)
  let d := meterAll (d.setH .setReady 0 0)
  let e0 := emEpoch d
  let day := new / 65536 / 86400
  let year := (yearOf 256 2000 day).1 - 2000
  let d := if day ≠ d.hn .rtcDay then ring d 0 (d.hn .rtcDay) true else d
  let d := if year ≠ d.hn .rtcYear then ring d 1 (d.hn .rtcYear) true else d
  let d := setRtc d new
  let d := (d.setH .rtcDay 0 day).setH .rtcYear 0 year
  let e1 := if back then (e0 + 1) % 65536 else e0
  let d := closeIntervals d (if back then 3 else 1) e1 (if back then 0 else d.f EM_SEQ_SEQ + 1) d.now old
  let d := (d.set1 EM_CAUSE_CUT).logPush 2 64 [(24, 8, old), (32, 8, new), (40, 1, 0), (41, 1, b2n back), (42, 2, e0), (44, 2, e1)]
  let d := ((d.set1 TM_ACAUSE_SET).setF TM_RTC_CTL_VALID 0 1).setF TM_RTC_CTL_SETBUSY 0 0
  let d := if back then d.set1 TM_ACAUSE_SETBACK else d
  let d := if alarm then d.set1 TM_ACAUSE_ALARM else d
  almSettle (d.setH .rtcStop 0 0)

/-! ### An ACLK edge -/

/-- Life counters at an ACLK edge (R547, R550): seconds with ENnn high and with SVC on, and the charge of the valleys. -/
def lifeEdge (d : Dev) : Dev :=
  let d := if d.hon .svcOn && domOn d 0 then
      if d.hn .pohFrac + 1 = 32768 then (d.setH .pohFrac 0 0).incSat LF_POH_VALUE else d.setH .pohFrac 0 (d.h .pohFrac + 1)
    else d
  d.each 64 fun d n =>
    if d.on PH_STAGE_MAPPED n then
      let d := if d.on PH_STATUS_EN n then
          if d.hn .lOnFrac n + 1 = 32768 then (d.setH .lOnFrac n 0).setH .lOn n (min (2 ^ 32 - 1) (d.h .lOn n + 1))
          else d.setH .lOnFrac n (d.h .lOnFrac n + 1)
        else d
      let u : Nat := 4096000000
      let c := d.hn .lChgAcc n
      if c < u then d
      else (d.setH .lChg n (min (2 ^ 64 - 1) (d.h .lChg n + (c / u : Nat)))).setH .lChgAcc n (c % u : Nat)
    else d

/-- Whether LCLK runs: SVC has been released and is on. -/
def lclkOn (d : Dev) : Bool := d.hon .svcOn && domOn d 0

/-- The time base at an ACLK edge (R536): while LCLK is stopped AON adds 61,035 + 5/32 ticks to the count of the last ACLK
edge; at the first edge after LCLK runs again the TM block loads the integer part and the fraction is discarded. -/
def aclkTb (d : Dev) : Dev :=
  if lclkOn d && !d.hon .tbWait then d.setH .tbAclk 0 d.now
  else
    let x := d.hn .tbFrac + 5
    let t := max d.now (d.hn .tbAclk + 61035 + x / 32)
    let d := ({ d with tb := BitVec.ofNat 64 t } : Dev).setH .tbAclk 0 t
    if lclkOn d then (d.setH .tbFrac 0 0).setH .tbWait 0 0 else d.setH .tbFrac 0 (x % 32 : Nat)

/-- METER_HANDOFF (R536, R543, R547, R550, R556): an ACLK edge. The meters take what the rails accumulated, the RTC adds 2
subseconds, the life counters count, and the time base is noted or held. -/
def execMeterHandoff (s : State) : Host.Outcome State Fault Refusal :=
  s.ok fun d =>
    let d := lifeEdge (meterAll d)
    aclkTb (if d.hon .rtcStop then d else setRtc d (d.rtc + 2))

/-! ### Flushes (R551, R552) -/

/-- A device snapshot (KIND 6). -/
def deviceSnapshot (d : Dev) : Dev :=
  d.logPush 6 512 (meterBody d 24 EM_E_LO EM_E_HI ++ meterBody d 152 EM_R_LO EM_R_HI
    ++ ((List.range 16).map fun k => (280 + 8 * k, 8, d.hn .emStart k))
    ++ [(408, 2, emEpoch d), (410, 4, d.f EM_SEQ_SEQ), (414, 8, d.hn .emStamp), (422, 8, d.hn .emRtc), (430, 4, d.f LF_POH_VALUE)]
    ++ ((List.range 3).map fun j => (434 + 4 * j, 4, d.f LF_ERASE_VALUE j))
    ++ [(446, 4, (d.r LF_FB0).toNat), (450, 4, (d.r LF_FB1).toNat)])

/-- The phases with a mapped stage. -/
def mappedPhases (d : Dev) : List Nat := (List.range 64).filter fun n => d.on PH_STAGE_MAPPED n

/-- A flush begins, unless one runs (R551): wear is recomputed (R549), the queued billing records go first, then the
device snapshot and the stage snapshots. -/
def flushStart (d : Dev) : Dev :=
  if d.on LF_STATUS_BUSY then d
  else
    let d := d.eachIn (mappedPhases d) lifeWear
    let d := d.setH .lfWait 0 0
    let d := { d with logq := (d.logq.filter fun r => r.kind == 3) ++ (d.logq.filter fun r => r.kind == 5)
                        ++ (d.logq.filter fun r => r.kind != 3 && r.kind != 5) }
    let d := (deviceSnapshot d).eachIn (mappedPhases d) fun d n => lifeSnapshot d n false
    (d.setF LF_STATUS_BUSY 0 1).setH .lfErr 0 0

/-- FLUSH_PERIODIC (R551): 19,660,800 ACLK edges have passed. -/
def execFlushPeriodic (s : State) : Host.Outcome State Fault Refusal :=
  s.ok fun d => d.when (d.on LF_CFG_EN) flushStart

/-- FLUSH_DONE (R551): every record of the flush has been written; the life mirrors follow (R131). -/
def execFlushDone (s : State) : Host.Outcome State Fault Refusal :=
  s.ok fun d => d.when (d.on LF_STATUS_BUSY && !d.logq.any fun r => r.kind == 5 || r.kind == 6 || r.kind == 7) fun d =>
    let d := d.eachIn (mappedPhases d) fun d n =>
      if (descByte d n 0x36).testBit 2 then lifeMirror d n else d
    let d := d.setF LF_STATUS_BUSY 0 0
    if d.hon .lfErr then (d.set1 LF_CAUSE_FLUSH_ERR).setF LF_STATUS_LAST 0 1
    else (d.set1 LF_CAUSE_FLUSH_DONE).setF LF_STATUS_LAST 0 0

/-- Whether a record is the snapshot of a stage that has been unmapped (R547, R554). -/
def isFinal (r : LogRec) : Bool := r.kind == 7 && r.body.contains (25, 1, 1)

/-- A brown-out warning reaches LF (R552): the device snapshot and the queued billing records are written next; a running
flush is cut short. Stage snapshots and mirrors wait for the next flush, which makes those of mapped stages anew; those of
unmapped stages stay queued for it. -/
def lfBrownOut (d : Dev) : Dev :=
  let d := if d.on LF_STATUS_BUSY then (d.setF LF_STATUS_BUSY 0 0).setF LF_STATUS_LAST 0 2 else d
  let q := d.logq.filter fun r => (r.kind != 6 && r.kind != 7) || isFinal r
  let d := deviceSnapshot (({ d with logq := [] } : Dev).setH .lfWait 0 1)
  ({ d with logq := d.logq ++ (q.filter fun r => r.kind == 5) ++ (q.filter fun r => r.kind != 5) } : Dev).set1 LF_CAUSE_BROWNOUT

/-- What an initiator captures in TM_CAL1 by reading TM_CAL0 (R562). -/
def cal0Read (d : Dev) (reader : Nat) : Nat × Dev := (cal0 d, d.setH .cal1 reader (cal1 d))

end Sys2Proof.Machine
end

