-- ==== Sys2Proof/Machine/Pins.lean ====
section
/-! DEFINITION. The pads: the GPIO mux and its handover, edges, pulses, the I/O banks, the core setpoint, the crystal and
the TAP (spec/20, R678 to R692, R699, R700). -/

namespace Sys2Proof.Machine

/-- Whether the bank of pad i is present; one that was lost drives nothing (R679). -/
def padBank (d : Dev) (i : Nat) : Bool := if i < 16 then d.on PX_STATUS_VIOA else d.on PX_STATUS_VIOB

/-- What the function of pad i drives: 0 low, 1 high, 2 nothing (R684). The AVSBus port drives what its frames say. -/
def padFunc (d : Dev) (i : Nat) : Nat :=
  let od (b : Bool) : Nat := if b && d.on PX_GCFG_OD i then 2 else b2n b
  match d.f PX_GCFG_FUNC i with
  | 2 => od ((d.f PX_GOUT_OUT).testBit i)
  | 3 => od (d.hon .padPulse i)
  | 4 => od (tmOut d (d.f PX_GCFG_SEL i))
  | _ => 2

/-- The output of pad i: 0 low, 1 high, 2 nothing, 3 and 4 a weak pull to low and high (R521, R688). -/
def padOut (d : Dev) (i : Nat) : Nat :=
  if !padBank d i then 2
  else if d.on PD_DSTAT_HELD 0 then d.hn .padHeld i
  else if d.on PX_GCFG_HB i then
    match d.f PX_GCFG_HAND i with
    | 0 => d.hn .padOld i - 1
    | 1 => 2
    | _ => 3 + d.f PX_GCFG_SAFE i
  else padFunc d i

/-- Pad i goes over to the configuration `w`; `out` is what the outgoing function last drove (R688, R689). -/
def padSwitch (d : Dev) (i out : Nat) (w : Word) : Dev :=
  let d := (d.setR PX_GCFG i w).setF PX_GCFG_HB i 1
  (d.setH .padOld i (out + 1 : Nat)).setH .padPulse i 0

/-- A write of PX_GCFG[i] that its owner may make reaches the pad block (R688, R690). -/
def padWrite (d : Dev) (i : Nat) (w : Word) : Dev :=
  let old := d.r PX_GCFG i
  let w := putBits w 19 1 (d.f PX_GCFG_HB i)
  let change := bitsOf w 0 3 != bitsOf old 0 3 || bitsOf w 4 4 != bitsOf old 4 4 || bitsOf w 8 2 != bitsOf old 8 2
    || bitsOf w 13 1 != bitsOf old 13 1
  if d.on PD_DSTAT_HELD 0 then (d.setR PX_GCFG i w).setH .padNext i 0
  else if d.on PX_GCFG_HB i then d.setH .padNext i (w.toNat + 1 : Nat)
  else if !change then d.setR PX_GCFG i w
  else padSwitch d i (padOut d i) w

/-- PAD_FUNC_WRITE is a register write (Bus). HANDOVER_END (R688, R690): the new function drives pad i, and its edge
detector takes the pad's level as its reference. -/
def execHandoverEnd (i : Fin 32) (s : State) : Host.Outcome State Fault Refusal :=
  s.ok fun d => d.when (d.on PX_GCFG_HB i && !d.on PD_DSTAT_HELD 0) fun d =>
    let d := d.setF PX_GCFG_HB i 0
    let d := d.setBit PX_GIN_IN 0 i (d.on PX_GCFG_FUNC i && d.hon .padLvl i)
    let d := d.setH .padOld i 0
    if d.hon .padNext i then
      padSwitch (d.setH .padNext i 0) i 2 (BitVec.ofNat 32 (d.hn .padNext i - 1))
    else d

/-- GPIO pads are held: each keeps the level it had (R521), in a handover too. -/
def padsHold (d : Dev) : Dev := d.each 32 fun d i => d.setH .padHeld i (padOut d i : Nat)

/-- GPIO pads are released: each goes over to its stored function (R522, R690). A weak pull is no level that a function drove. -/
def padsRelease (d : Dev) : Dev :=
  d.each 32 fun d i =>
    let w := if d.hon .padNext i then BitVec.ofNat 32 (d.hn .padNext i - 1) else d.r PX_GCFG i
    padSwitch (d.setH .padNext i 0) i (min 2 (d.hn .padHeld i)) w

/-- GPIO_EDGE (R686): pad i comes to a level and keeps it for 2 PCLK cycles. -/
def execGpioEdge (i : Fin 32) (level : Bool) (s : State) : Host.Outcome State Fault Refusal :=
  s.ok fun d =>
    let d := d.setH .padLvl i (b2i level)
    d.when (domOn d 0 && padBank d i && d.on PX_GCFG_FUNC i && !d.on PX_GCFG_HB i && !d.on PD_DSTAT_HELD 0
        && (d.f PX_GIN_IN).testBit i != level) fun d =>
      let d := d.setBit PX_GIN_IN 0 i level
      let d := if (d.f PX_GCFG_EDGE i).testBit (if level then 0 else 1) then d.setBit PX_GCAUSE_EDGE 0 i true else d
      d.raise (0x400 + 2 * i.val + (if level then 0 else 1))

/-- A trail event reaches pad i (R684, R687). -/
def padEvent (d : Dev) (i : Nat) : Dev :=
  if d.f PX_GCFG_FUNC i = 3 && !d.on PX_GCFG_HB i && !d.on PD_DSTAT_HELD 0 then
    if d.hon .padPulse i then d.set1 PX_CAUSE_PULSE_OVR else d.setH .padPulse i 1
  else d

/-- PULSE_END (R684): 2^PW PCLK cycles have passed. -/
def execPulseEnd (i : Fin 32) (s : State) : Host.Outcome State Fault Refusal :=
  s.ok fun d => d.setH .padPulse i 0

/-- Whether every bit of `m` belongs to partition p (R692). -/
def padsOwned (d : Dev) (p : Nat) (m : Word) : Bool := (List.range 32).all fun i => !m.getLsbD i || padOwner d i == p

/-- The bits of `w` that belong to partition p. -/
def padBits (d : Dev) (p : Nat) (w : Word) : Word :=
  BitVec.ofNat 32 (boughBits 32 fun i => w.getLsbD i && padOwner d i == p)

/-- VIO_LOST (R679): bank b (0 VIO_A to 3 VIO_D) falls below 1.5 V. -/
def execVioLost (b : Fin 4) (s : State) : Host.Outcome State Fault Refusal :=
  let F := match b with
    | 0 => PX_STATUS_VIOA
    | 1 => PX_STATUS_VIOB
    | 2 => PX_STATUS_VIOC
    | _ => PX_STATUS_VIOD
  s.ok fun d => d.when (d.on F) fun d => (d.setF F 0 0).set1 PX_CAUSE_VIO_LOST

/-- XTAL_OK (R682): 1,024 crystal periods measured within bounds. -/
def execXtalOk (s : State) : Host.Outcome State Fault Refusal := s.ok fun d => d.setF PX_STATUS_XTAL_OK 0 1

/-- XTAL_FAIL (R682): the crystal stops. -/
def execXtalFail (s : State) : Host.Outcome State Fault Refusal :=
  s.ok fun d => d.when (d.on PX_STATUS_XTAL_OK) fun d => (d.setF PX_STATUS_XTAL_OK 0 0).set1 PX_CAUSE_XTAL_FAIL

/-- The core setpoint in force and the one asked for, in mV above 0.75 V. -/
def vcoreWant (d : Dev) : Int := 5 * (d.f PX_VCORE_SET : Int) - 100

/-- BUCK_RAMP follows a write of PX_VCORE.SET (R678). -/
def vcoreWrite (d : Dev) : Dev := d.setF PX_STATUS_BUCK_RAMP 0 (b2i (d.h .vcoreOff != vcoreWant d))

/-- VCORE_STEP (R678): the setpoint moves by 1 mV, in 1 µs. -/
def execVcoreStep (s : State) : Host.Outcome State Fault Refusal :=
  s.ok fun d => d.when (d.h .vcoreOff != vcoreWant d) fun d =>
    let x := if d.h .vcoreOff < vcoreWant d then d.h .vcoreOff + 1 else d.h .vcoreOff - 1
    vcoreWrite ((d.setH .vcoreOff 0 x).setF PX_VCORE_NOW 0 ((x + 100) / 5))

/-! ### The other pads and the boundary register (R674, R676, R699 to R701) -/

/-- The cells of the boundary register (R701). -/
inductive Cell where
  | pwm (n : Nat) | en (n : Nat)
  | sbusScl (m : Nat) | sbusSda (m : Nat)
  | pmbScl | pmbSda | alertN
  | spiSck | spiCsN | spiMosi | spiMiso
  | throttleN (g : Nat) | crowbarN (j : Nat) | faultN | efuseEn | storePresN
  | gpio (i : Nat)
  | resetN | addr (b : Nat) | boot (b : Nat)
  deriving DecidableEq, Repr

/-- Every cell, in the order in which the model numbers them; the spec leaves the order to a BSDL file (DESIGN CHOICE,
notes/assumptions/33.md). -/
def cells : List Cell :=
  List.flatten [(List.range 64).map Cell.pwm, (List.range 64).map Cell.en, (List.range 4).map Cell.sbusScl,
    (List.range 4).map Cell.sbusSda, [Cell.pmbScl, Cell.pmbSda, Cell.alertN, Cell.spiSck, Cell.spiCsN, Cell.spiMosi, Cell.spiMiso],
    (List.range 4).map Cell.throttleN, (List.range 4).map Cell.crowbarN, [Cell.faultN, Cell.efuseEn, Cell.storePresN],
    (List.range 32).map Cell.gpio, [Cell.resetN], (List.range 3).map Cell.addr, (List.range 2).map Cell.boot]

/-- The number of a cell. -/
def cellNo (c : Cell) : Nat := cells.idxOf c

/-- The code of a cell's level: 0 nothing driven, 1 low, 2 high. -/
def lvl (b : Bool) : Nat := if b then 2 else 1
/-- The code of an open-drain output. -/
def lvlOd (pull : Bool) : Nat := if pull then 1 else 0

/-- Cells that only observe their pads (R701). -/
def observeOnly (c : Cell) : Bool :=
  match c with
  | .resetN => true
  | .addr _ => true
  | .boot _ => true
  | _ => false

/-- Whether the bank of a pad is present (R674, R679): 0 VIO_A to 3 VIO_D. -/
def bankOf (c : Cell) : Nat :=
  match c with
  | .pwm n => 2 + n / 32
  | .en n => 2 + n / 32
  | .sbusScl m => 2 + m / 2
  | .sbusSda m => 2 + m / 2
  | .gpio i => i / 16
  | .throttleN _ => 1
  | .crowbarN _ => 1
  | .faultN => 1
  | .efuseEn => 1
  | .storePresN => 1
  | _ => 0
def vioOn (d : Dev) (b : Nat) : Bool :=
  match b with
  | 0 => d.on PX_STATUS_VIOA
  | 1 => d.on PX_STATUS_VIOB
  | 2 => d.on PX_STATUS_VIOC
  | _ => d.on PX_STATUS_VIOD

/-- What the function of a pad drives (R84, R90, R122, R227, R228, R230, R275, R507); the ports' bus lines and the inputs are
driven from outside. -/
def pinFunc (d : Dev) (c : Cell) : Nat :=
  match c with
  | .pwm n => d.f PH_STATUS_PWM n
  | .en n => lvl (if phState d n = phTone then toneLevel d n else d.on PH_STATUS_EN n)
  | .alertN => lvlOd (alertN d)
  | .throttleN g => lvlOd (d.hon .throttle g)
  | .crowbarN j => lvl ((d.f FB_PINS_CROWBAR_N).testBit j)
  | .faultN => lvlOd (!d.on FB_PINS_FAULT_N)
  | .efuseEn => lvl (!d.on FB_PINS_EFUSE_EN)
  | .gpio i => (padOut d i + 1) % 3
  | _ => 0

/-- The domain whose hold keeps a pad's level (R521). GPIO pads keep theirs in `padOut`; CROWBAR_N, EFUSE_EN and FAULT_N are cells
of AON (R230), which are never held, and ALERT_N follows R532. The lines of the ports, of the stage buses and of the lanes have
no level here (notes/assumptions/33.md). -/
def pinDomain (c : Cell) : Option Nat :=
  match c with
  | .pwm n => some (5 + n / 16)
  | .en n => some (5 + n / 16)
  | .throttleN _ => some 0
  | _ => none

/-- Whether a pad is held (R521, R522). -/
def pinIsHeld (d : Dev) (c : Cell) : Bool := match pinDomain c with | some n => d.on PD_DSTAT_HELD n | none => false

/-- The boundary register drives the pads under EXTEST and CLAMP, and nothing drives them under HIGHZ (R699, R701). -/
def pinTest (d : Dev) (c : Cell) : Option Nat :=
  if observeOnly c || !d.hon .tapTest then none
  else if d.h .tapIr = 4 then some 0
  else some (d.hn .cell (cellNo c))

/-- The output of a pad: nothing without its bank; the boundary register's under test; the level kept by a hold; else its
function's (R521, R522, R676, R679, R701). -/
def pinOut (d : Dev) (c : Cell) : Nat :=
  if !vioOn d (bankOf c) then 0
  else match pinTest d c with
    | some x => x
    | none => if pinIsHeld d c then d.hn .pinHeld (cellNo c) else pinFunc d c

/-- At AP2 each pad of domain n keeps the level it had (R521). -/
def pinsHold (d : Dev) (n : Nat) : Dev :=
  d.eachIn (cells.filter fun c => pinDomain c == some n) fun d c => d.setH .pinHeld (cellNo c) (pinFunc d c)

/-- What a cell captures from its pad: the output where something drives it, an input's level where the device knows it,
and a free value at the other pads that the board drives (R701). -/
def cellSample (d : Dev) (c : Cell) : Nat × Dev :=
  match c with
  | .storePresN => (lvl (!d.on ST_STATUS_PRES), d)
  | .gpio i => (lvl (d.hon .padLvl i), d)
  | .resetN => (lvl (d.hn .start != 1), d)
  | .addr b => (lvl ((d.f PX_STRAP_ADDR).testBit b), d)
  | .boot b => (lvl ((d.f PX_STRAP_BOOT).testBit b), d)
  | .pwm _ => (pinOut d c, d)
  | .en _ => (pinOut d c, d)
  | .throttleN _ => (pinOut d c, d)
  | .crowbarN _ => (pinOut d c, d)
  | .efuseEn => (pinOut d c, d)
  | .faultN => (pinOut d c, d)
  | .alertN => (pinOut d c, d)
  | _ => let (v, d) := d.free; (1 + v % 2, d)

/-- SAMPLE/PRELOAD: every cell takes its pad's level (R699, R701). -/
def boundarySample (d : Dev) : Dev :=
  d.eachIn cells fun d c => let (v, d) := cellSample d c; d.setH .cell (cellNo c) (v : Nat)

/-- Whether a test instruction may be loaded (R700). -/
def tapMay (d : Dev) : Bool :=
  ((List.range 16).all fun k => rlState d k == rlOff) && !d.on ST_CTL_EN && (List.range 64).all fun n => phState d n == phIdle

/-- TAP_RESET (R693, R699): IDCODE is loaded. -/
def execTapReset (s : State) : Host.Outcome State Fault Refusal :=
  s.ok fun d => (d.setH .tapIr 0 0).setH .tapTest 0 0

/-- JTAG_IR_UPDATE (R699 to R701): a code other than those of R699 acts as BYPASS. SAMPLE/PRELOAD captures the pads when it is
loaded; no command shifts the register (DESIGN CHOICE, notes/assumptions/33.md). -/
def execJtagIrUpdate (ir : BitVec 8) (s : State) : Host.Outcome State Fault Refusal :=
  s.ok fun d =>
    let c := ir.toNat
    let load (d : Dev) (c : Nat) (t : Bool) : Dev := (d.setH .tapIr 0 ((c : Int) - 1)).setH .tapTest 0 (b2i t)
    if c = 0 || c = 4 || c = 5 then
      if tapMay d then load d c true else (load d 0xFF false).set1 PX_CAUSE_JTAG_REF
    else if c = 2 then boundarySample (load d c false)
    else if c = 1 || c = 0x10 then load d c false
    else load d 0xFF false

end Sys2Proof.Machine
end

