-- ==== Sys2Proof/Machine/Power.lean ====
section
/-! DEFINITION. Power domains and device states (spec/14, R512 to R532; spec/01, R40 to R42): votes, entry and return,
pad hold, Quiet, Glade and Clearing. -/

namespace Sys2Proof.Machine

/-- Domain numbers that exist: 14 and 15 are reserved (R512). -/
def isDomain (n : Nat) : Bool := n < 48 && n != 14 && n != 15

/-- The state of a domain (PD_DSTAT.STATE): 0 off, 1 on, 2 entering, 3 retained, 4 returning. -/
def domState (d : Dev) (n : Nat) : Nat := d.f PD_DSTAT_STATE n

/-- Whether the device state allows a domain (R513): in Clearing entry SVC stays until every other domain is off (R529). -/
def allowed (d : Dev) (n : Nat) : Bool :=
  match d.hn .pdAllow with
  | 0 => true
  | 1 => !(9 ≤ n && n ≤ 11) && !(16 ≤ n && n < 32)
  | 2 => n == 0
  | _ => false

/-- Whether a rail holds its votes (R41): enabled, or not yet off. -/
def railVotes (d : Dev) (k : Nat) : Bool := d.on RL_CTL_EN k || rlState d k != rlOff

/-- Hardware votes (R41, R515). DESIGN CHOICE (notes/assumptions/61.md): a lane counts as trained, for the vote on SVC,
while LN_STATUS.UP is 1 (its identity accepted), not from ACTIVE on. -/
def hwVote (d : Dev) (n : Nat) : Bool :=
  let root := d.hon .wVote
  let store := d.on ST_CTL_EN
  if n = 0 then root || store || ((List.range 16).any (railVotes d)) || ((List.range 12).any fun l => d.on LN_STATUS_UP l)
  else if 5 ≤ n && n ≤ 8 then
    let j := n - 5
    ((List.range 16).any fun k => k / 4 == j && railVotes d k)
    || ((List.range 64).any fun m => m / 16 == j &&
          ((phDom d m < 16 && railVotes d (phDom d m)) || (phDom d m == 16 && store)))
    || (store && d.f ST_CFG_SNS_RAIL / 4 == j)
  else if 9 ≤ n && n ≤ 11 then (List.range 4).any fun j => d.on LN_CTL_EN (4 * (n - 9) + j) || d.on LN_TEST_EN (4 * (n - 9) + j)
  else if n = 12 then (List.range 8).any fun c => d.on TC_CTL_EN c
  else if n = 13 then root || d.on FC_STATUS_STATE
  else if 16 ≤ n && n < 32 then d.on GV_CFG_EN (n - 16)
  else n == 47 && root

/-- Software votes of any partition. -/
def swVote (d : Dev) (n : Nat) : Bool :=
  (List.range 8).any fun p => if n < 32 then (d.f PD_VOTEA_VOTE p).testBit n else (d.f PD_VOTEB_VOTE p).testBit (n - 32)

/-- Whether a domain is to be on (R513). -/
def wanted (d : Dev) (n : Nat) : Bool := isDomain n && allowed d n && (hwVote d n || swVote d n)

/-- Which domains partition p may vote (R516). -/
def mayVote (d : Dev) (p n : Nat) : Bool :=
  isDomain n &&
  if p = 0 then n != 47
  else if n = 0 then false
  else if n ≤ 4 then d.f CH_CORETAG_PART (n - 1) == p
  else if n ≤ 8 then
    ((List.range 16).any fun k => k / 4 == n - 5 && (railOwner d k).1 == p)
    || (List.range 64).any fun m => m / 16 == n - 5 && (phaseOwner d m).1 == p
  else if n ≤ 11 then (List.range 12).any fun l => l / 4 == n - 9 && (laneOwner d l).1 == p
  else if n = 12 then (List.range 8).any fun c => convOwner d c == p
  else if n = 13 then p < npart d && partByte d p 0x13 != 0
  else if 32 ≤ n then
    let b := 0x10000000 + (n - 32) * 0x100000
    p < npart d && (List.range 2).any fun j =>
      let base := 0x10000000 + partByte d p (0xC + 2 * j) * 0x10000
      let len := partByte d p (0xD + 2 * j) * 0x10000
      len != 0 && base < b + 0x100000 && b < base + len
  else false

/-- Show whether a domain is on. -/
def setOn (d : Dev) (n : Nat) (b : Bool) : Dev :=
  if n < 32 then d.setBit PD_ONA_DOM 0 n b else d.setBit PD_ONB_DOM 0 (n - 32) b

/-- Hold or release a domain's pads (R521). -/
def setHeld (d : Dev) (n : Nat) (b : Bool) : Dev :=
  if n < 14 then
    let was := d.on PD_DSTAT_HELD n
    let d := if b && !was then pinsHold (if n = 0 then padsHold d else d) n else d
    let d := (d.setBit PD_HOLD_HELD 0 n b).setF PD_DSTAT_HELD n (b2i b)
    if n = 0 && was && !b then padsRelease d else d
  else d

/-- An entry abandoned after AP2 gives back the pads that it held, as if it had never begun (R519): no handover follows. -/
def holdUndo (d : Dev) (n : Nat) : Dev :=
  if d.hon .pdHeldNow n then ((d.setBit PD_HOLD_HELD 0 n false).setF PD_DSTAT_HELD n 0).setH .pdHeldNow n 0 else d

/-- The requesters of a domain (R496). -/
def slotsOf (n : Nat) : List Nat :=
  if n = 0 then [4, 5, 6, 8, 10] else if n ≤ 4 then [n - 1] else if n = 13 then [9] else []

/-- The arbiters' mask follows the power of the requesters (R496, R497, R518); the warden's slot stays masked while the warden
is held in reset. -/
def maskCore (d : Dev) (n : Nat) (b : Bool) : Dev :=
  d.eachIn ((slotsOf n).filter fun slot => b || slot != 4 || d.on CP_STATUS_WARDEN) fun d slot => maskSlot d b slot

/-- A domain begins to enter off (R518): it refuses accesses from here. The vote of the warden and root sequencer ends when SVC
does (R515). -/
def domEnter (d : Dev) (n : Nat) : Dev :=
  let d := if n = 0 then d.setH .wVote 0 0 else d
  maskCore (setOn ((d.setF PD_DSTAT_STATE n 2).setF PD_DSTAT_STEP n 0) n false) n true

/-- The status and counter fields of a list of registers return to their reset values. -/
def clearRo (d : Dev) (rows : List RegRow) (i : Nat) : Dev :=
  rows.foldl (fun d r => r.fields.foldl (fun d f =>
    if f.acc == .ro then d.setF f i (bitsOf (f.reg.reset i) f.lo f.n) else d) d) d

/-- Rows of the fast loop and of the phase channels kept per rail or per phase; what the mapping and auto-zero found are
register fields that hold no status (notes/assumptions/45.md). -/
def railRows : List RegRow := regsLoop.filter fun r => r.reg.n1 == 16 && r.reg.n2 == 1 && r.reg.own == .rail
def phaseRows : List RegRow :=
  regsLoop.filter fun r => r.reg.n1 == 64 && r.reg.n2 == 1 && r.reg != PH_STAGE && r.reg != PH_DESC

/-- Rail registers of the fast loop and the phase channels; the RL registers lie in SVC. -/
def loopRows : List RegRow := railRows.filter fun r => r.reg.base < 0x40030000

/-- LOOPj goes off (R520): register fields are kept, loop state, counters and status are lost, the firebreak's comparators fall
silent (R720), and H takes its target again (R98, R100). -/
def loopLost (d : Dev) (j : Nat) : Dev :=
  let d := d.each 4 fun d i =>
    let k := 4 * j + i
    let d := (clearRo d loopRows k).setR FB_RSTAT k 0
    let d := d.each 8 fun d t => (d.setH .dLine (8 * k + t) 0).setH .dForm (4 * k + t % 4) 0
    d.eachIn [Hid.railTime, .refFrac, .isumF, .posRef, .integ, .errX1, .errX2, .errValid, .outY1, .outY2, .settleLeft,
      .ovrRun, .vSense, .forceMask, .forceCbc, .forceHold, .strikeHoldoff, .releaseHoldoff, .modeTime, .restoreCnt,
      .satHiAll, .satLoAll, .satValid, .lastLead, .ffdIn, .ffvIn, .ovHist, .uvHist, .absHist, .ovRaw, .uvRaw, .emD, .emR,
      .dEdge, .ovDone, .uvDone, .absDone, .trkRun, .pgBad] fun d v => d.setH v k 0
  let d := d.each 16 fun d i =>
    let n := 16 * j + i
    let d := (clearRo d phaseRows n).setR FB_PSTAT n 0
    d.eachIn [Hid.eqAcc, .eqSatRun, .iSum, .iCnt, .pulseMade, .riseAt, .fallAt, .everFell, .valleyAt, .ghostEnd, .waitValley,
      .shedDone, .negTri, .cbcHist, .nocHist, .hocHist, .cbcEvent, .nocEvent, .openRun, .azSum, .azCnt, .lowAt,
      .avgPend, .avgAt, .iLast, .iLastAt, .hocDone]
      fun d v => d.setH v n 0
  fbPins (d.each 16 fun d k => idlePer d k)

/-- SVC goes off (R520): register fields are kept, PX_GCFG as last written (R690), and the warden's state is lost; what it had not
answered yet waits at the ports, which answer it when the warden starts again, as after a warden reset (R442; DESIGN CHOICE,
notes/assumptions/45.md). -/
def svcLost (d : Dev) : Dev :=
  let late := d.held.toList.map LongOp.pkt ++ d.longs.map LongOp.pkt
  let d : Dev := { d with rings := late ++ d.rings, held := none, longs := [] }
  let d := d.each 32 fun d i =>
    let d := if d.hon .padNext i then d.setR PX_GCFG i (BitVec.ofNat 32 (d.hn .padNext i - 1)) else d
    (((d.setF PX_GCFG_HB i 0).setH .padNext i 0).setH .padOld i 0).setH .padPulse i 0
  let d := ((coreReset d 4).setF CP_STATUS_WARDEN 0 0).setH .fwSess 0 0
  ((d.setH .bootOk 0 3).setH .wrst 0 1).setH .tbWait 0 1

/-- A domain's power switch opens (R518, R520): what the domain does not keep is lost. -/
def domOff (d : Dev) (n : Nat) : Dev :=
  let kept := 32 ≤ n && (d.r PD_SRBRET).getLsbD (n - 32)
  let d := (d.setF PD_DSTAT_STATE n (if kept then 3 else 0)).setF PD_DSTAT_STEP n 0
  let d := d.setH .pdKept n (b2i kept)
  if n = 0 then svcLost d
  else if n ≤ 4 then coreReset d (n - 1)
  else if n ≤ 8 then loopLost d (n - 5)
  else if n ≤ 11 then
    let d := { d with txq := d.txq.filter fun (x : Flit) => x.lane / 4 != n - 9 }
    (d.setF LN_GRP_PWR (n - 9) 0).setF LN_GRP_PLL_LOCK (n - 9) 0
  else if n = 12 then
    { d with tcRecs := [] }.each 8 fun d c => ((setSeq d c none).setF TC_STATUS_STATE c 0).setF TC_STATUS_STEP c 0
  else if 16 ≤ n && n < 32 then grovePowerLoss d (n - 16)
  else d

/-- A domain whose return begins (R519). -/
def domReturn (d : Dev) (n : Nat) : Dev := (d.setF PD_DSTAT_STATE n 4).setH .pdLate n 0

/-- Whether a domain is on, entering or returning: not yet off. -/
def domBusy (d : Dev) (n : Nat) : Bool := domState d n == 2 || domState d n == 4 || domOn d n

/-- Domains that a device state takes away and that are not yet off. -/
def gladeBusy (d : Dev) : Bool :=
  (List.range 48).any fun n => ((9 ≤ n && n ≤ 11) || (16 ≤ n && n < 32)) && domBusy d n
def othersBusy (d : Dev) : Bool := (List.range 47).any fun n => isDomain (n + 1) && domBusy d (n + 1)

/-- In Quiet the watchdogs of the warden and the cores hold their counts, and their SCLK cycles are not counted; both go on
after it (R525, R568). -/
def wdgHold (d : Dev) (st : Nat) : Dev :=
  if st = 1 then d.setH .quietAt 0 d.now
  else if d.f PD_STATE_STATE = 1 then
    let t := d.now - d.h .quietAt 0
    d.each 5 fun d j =>
      let d := d.setH .cCycBase j (d.h .cCycBase j + t)
      if d.hon .wdgAt j then d.setH .wdgAt j (d.h .wdgAt j + t) else d
  else d

/-- The device reaches a state (R523). -/
def pdArrive (d : Dev) (st : Nat) : Dev :=
  ((((wdgHold d st).setF PD_STATE_STATE 0 st).setF PD_STATE_BUSY 0 0).setH .pdTrans 0 0).set1 PD_CAUSE_DONE

/-- After a domain went off: Glade is reached at the last Off edge (R526); in Clearing SVC follows the others (R529). -/
def afterOff (d : Dev) : Dev :=
  if d.hn .pdTrans = 1 && d.hn .pdAllow = 1 && !gladeBusy d then pdArrive d 2
  else if d.hn .pdAllow = 2 && !othersBusy d then d.setH .pdAllow 0 3
  else d

/-- A wake reaches domain n (R519): it abandons an entry before AP3, waits for the Off edge after it, and begins the
return of a domain that is off. -/
def domWake (d : Dev) (n : Nat) : Dev :=
  match domState d n with
  | 2 =>
    if d.f PD_DSTAT_STEP n < 3 then
      let d := (d.setF PD_DSTAT_STATE n 1).setF PD_DSTAT_STEP n 0
      let d := maskCore (setOn (holdUndo d n) n true) n false
      (d.incSat PD_DSTAT_ABORTS n).set1 PD_CAUSE_ABANDON
    else (d.setH .pdLate n 1).set1 PD_CAUSE_WAKE_LATE
  | 0 => domReturn d n
  | 3 => domReturn d n
  | _ => d

/-- Every domain that is wanted and not on is woken. -/
def wakeAll (d : Dev) : Dev := d.each 48 fun d n => if wanted d n && !domOn d n then domWake d n else d

/-- A domain is on and accessible again (R520, R521): its pads are released under AUTO, a grove runs its self-tests, a lane
group locks its PLL. After Clearing every other voted domain returns once SVC is on (R531). -/
def domReturned (d : Dev) (n : Nat) : Dev :=
  let d := maskCore (setOn (d.setF PD_DSTAT_STATE n 1) n true) n false
  let d := if n < 14 && (d.f PD_HOLDAUTO_AUTO).testBit n then setHeld d n false else d
  if n = 0 then
    let d := if d.hn .pdTrans = 4 then pdArrive (wakeAll d) 0 else d
    d.each 4 fun d m => if d.on PH_SB_CFG_EN m then rollStart d m true else d
  else if 9 ≤ n && n ≤ 11 then d.setF LN_GRP_PWR (n - 9) 1
  else if 16 ≤ n && n < 32 then grovePowerUp d (n - 16)
  else d

/-- A write to PD_HOLDREL (R521). -/
def holdRelease (d : Dev) (w : Word) : Dev :=
  d.each 14 fun d n =>
    if w.getLsbD n then (if domOn d n then setHeld d n false else d.set1 PD_CAUSE_ACC_ERR) else d

/-! ### Requests (R524 to R529) -/

/-- Glade entry, its first cycle (R71, R81, R42, R322, R526): every intent is cancelled, every grant ends (R285), and every
feedforward term is withdrawn. -/
def gladeEnter (d : Dev) : Dev :=
  let d := (d.each 16 gladeFreeze).eachIn d.intents cancelIntent
  let d := { d with pulses := d.pulses.map fun (p : Pulse) => if p.cut = 0 then { p with cut := d.now + 1 } else p }
  let d := d.each 12 fun d L =>
    if d.f LN_STATUS_STATE L = lnActive && leadLane d L == L then toLnOff (sendEios (leaveActive d L false) L) L else d
  (d.setH .pdTrans 0 1).setF PD_STATE_BUSY 0 1

/-- Conditions that refuse Glade and Clearing (R527, R529). -/
def gladeRefused (d : Dev) : Bool := (List.range 16).any fun k => d.on IG_CPL_EN k && rlState d k != rlOff
def clearingRefused (d : Dev) : Bool :=
  ((List.range 16).any fun k => d.on RL_CTL_EN k) || d.on ST_CTL_EN || !d.on PX_STATUS_XTAL_OK || (List.range 12).any fun l => d.f LN_STATUS_STATE l != lnOff

/-- A request for state `q` (R524): whether it is accepted, and what follows at once. -/
def pdRequest (d : Dev) (q : Nat) : Bool × Dev :=
  let st := d.f PD_STATE_STATE
  let no : Bool × Dev := (false, d.set1 PD_CAUSE_REFUSE)
  if d.on PD_STATE_BUSY then
    if q = 0 && d.hn .pdTrans = 1 then (true, lanesStart (wakeAll ((d.setH .pdAllow 0 0).setH .pdTrans 0 2))) else no
  else if q = st then (true, d)
  else if st = 0 && q = 1 then (true, pdArrive d 1)
  else if st = 0 && q = 2 then (if gladeRefused d then no else (true, gladeEnter d))
  else if st = 0 && q = 3 then
    if clearingRefused d then no else (true, (d.setH .pdTrans 0 3).setF PD_STATE_BUSY 0 1)
  else if st = 2 && q = 0 then (true, wakeAll (((d.setH .pdAllow 0 0).setH .pdTrans 0 2).setF PD_STATE_BUSY 0 1))
  else no

/-- QUIET_WAKE (R523, R525): a core wake, or a packet accepted on a command ring. -/
def quietWake (d : Dev) : Dev := if d.f PD_STATE_STATE = 1 then pdArrive d 0 else d

/-- Whether a core is to wake the device (R525): its canopy interrupt is asserted or a trail line routed to it is. -/
def coreWakes (d : Dev) : Bool := (List.range 5).any fun c => canopyIrq d c || d.hon .cLines c

/-- QUIET_WAKE (R523, R525). -/
def execQuietWake (s : State) : Host.Outcome State Fault Refusal :=
  s.ok fun d => d.when (coreWakes d || d.rings != []) quietWake

/-- GLADE_DOMAINS_ENTER (R526): no feedforward acts and every lane is OFF; the groves and lane groups enter. -/
def execGladeDomainsEnter (s : State) : Host.Outcome State Fault Refusal :=
  s.ok fun d => d.when (d.hn .pdTrans == 1 && d.hn .pdAllow == 0
      && (List.range 16).all (fun k => !d.on FL_STATUS_FF_ACT k) && (List.range 12).all (fun l => d.f LN_STATUS_STATE l == lnOff))
    fun d =>
      let d := d.setH .pdAllow 0 1
      afterOff (d.each 32 fun d n => if (domOn d n || domState d n == 1) && !allowed d n then domEnter d n else d)

/-- GLADE_RETURN_DONE (R528, R82): every voted grove has finished its self-test. -/
def execGladeReturnDone (s : State) : Host.Outcome State Fault Refusal :=
  s.ok fun d => d.when (d.hn .pdTrans == 2
      && (List.range 16).all fun g => !wanted d (16 + g) || (domOn d (16 + g) && !d.on GV_STATUS_SELFTEST g))
    fun d =>
      let d := d.each 16 fun d k =>
        let d := d.setF FL_STEER_GLADE k 0
        if (switching d k).isEmpty then unfreeze d k true else d
      pdArrive d 0

/-- CLEARING_DOMAINS_ENTER (R529): the flash controller's vote has ended; every domain but SVC enters. -/
def execClearingDomainsEnter (s : State) : Host.Outcome State Fault Refusal :=
  s.ok fun d => d.when (d.hn .pdTrans == 3 && d.hn .pdAllow == 0 && !d.on FC_STATUS_STATE) fun d =>
    let d := d.setH .pdAllow 0 2
    afterOff (d.each 48 fun d n => if isDomain n && n != 0 && domOn d n then domEnter d n else d)

/-- An AON wake from a source, where PD_WAKE_EN enables it (R519, R530, R531): SVC is woken first. -/
def aonWake (d : Dev) (src : Nat) : Dev :=
  d.when ((d.hn .pdTrans == 3 || d.hn .pdAllow == 3) && (d.r PD_WAKE_EN).getLsbD src) fun d =>
    let d := (d.setBit PD_WAKE_SRC_SRC 0 src true).setH .pdAllow 0 0
    let d := ((d.setH .wVote 0 1).setH .pdTrans 0 4).setF PD_STATE_BUSY 0 1
    let d := if domOn d 0 then d else domWake d 0
    if domOn d 0 then pdArrive (wakeAll d) 0 else d

/-- RTC_ALARM (R545): the RTC reaches TM_ALM from below, which wakes the device where PD_WAKE_EN lets it (R530). -/
def execRtcAlarm (s : State) : Host.Outcome State Fault Refusal :=
  s.ok fun d => d.when (almDue d) fun d => aonWake (rtcAlarm d) 1

/-- RTC_SET_APPLY (R544, R545): a set that reaches TM_ALM from below fires the alarm. -/
def execRtcSetApply (s : State) : Host.Outcome State Fault Refusal :=
  s.ok fun d => d.when (d.hon .setReady) fun d => if almBySet d then aonWake (rtcSet d) 1 else rtcSet d

/-- Whether the condition of a wake source holds (R530): a decided comparator with WAKE, the alarm, a selected pad of G00 to
G07 at its selected level; a START and a falling SPI_CS_N are events of their own. -/
def wakeCond (d : Dev) (src : Nat) : Bool :=
  match src with
  | 0 => (List.range 8).any fun j => (d.f FB_SC_CAUSE_TRIP).testBit j && d.on FB_SC_CFG_WAKE j
  | 1 => d.on TM_ACAUSE_ALARM
  | 2 => (List.range 8).any fun i =>
      (d.f PD_WAKE_GPIO_SEL).testBit i && d.hon .padLvl i == (d.f PD_WAKE_GPIO_POL).testBit i
  | _ => true

/-- AON_WAKE (R519, R530, R531): a wake source enabled in PD_WAKE_EN: 0 sampled comparator, 1 RTC alarm, 2 GPIO, 3 PMBus
START, 4 SPI select. -/
def execAonWake (src : Fin 5) (s : State) : Host.Outcome State Fault Refusal :=
  s.ok fun d => d.when (wakeCond d src) fun d => aonWake d src

/-- DOMAIN_ENTER (R518): domain n has lost its last vote or its allowance. -/
def execDomainEnter (n : Fin 48) (s : State) : Host.Outcome State Fault Refusal :=
  s.ok fun d => d.when (isDomain n.val && domOn d n && !wanted d n) fun d => domEnter d n

/-- DOMAIN_ENTRY_STEP (R518, R521, R556): a domain passes the next point of its entry: AP1, AP2 with its pads held, AP3,
Off. At AP1 of a LOOP domain its rails hand their energy to the meters. -/
def execDomainEntryStep (n : Fin 48) (s : State) : Host.Outcome State Fault Refusal :=
  s.ok fun d => d.when (domState d n == 2) fun d =>
    match d.f PD_DSTAT_STEP n with
    | 0 =>
      let d := d.setF PD_DSTAT_STEP n 1
      if 5 ≤ n.val && n.val ≤ 8 then d.each 4 fun d i => meterHand d (4 * (n.val - 5) + i) else d
    | 1 =>
      let d := d.setH .pdHeldNow n (b2i (n.val < 14 && !d.on PD_DSTAT_HELD n))
      setHeld (d.setF PD_DSTAT_STEP n 2) n true
    | 2 => d.setF PD_DSTAT_STEP n 3
    | _ =>
      let d := afterOff (domOff (d.setH .pdHeldNow n 0) n)
      if d.hon .pdLate n then domReturn d n else d

/-- DOMAIN_WAKE (R519): a new vote and allowance together. -/
def execDomainWake (n : Fin 48) (s : State) : Host.Outcome State Fault Refusal :=
  s.ok fun d => d.when (wanted d n && !domOn d n) fun d => domWake d n

/-- DOMAIN_RETURN_DONE (R520, R641): the return delay of domain n has passed. A bank that was not retained has its valid
bits cleared. -/
def execDomainReturnDone (n : Fin 48) (s : State) : Host.Outcome State Fault Refusal :=
  if domState s.dev n = 4 then
    let s := if 32 ≤ n.val && !s.dev.hon .pdKept n.val then clearValid s (inBank (n.val - 32)) else s
    .next (s.onDev fun d => domReturned d n)
  else .next s

end Sys2Proof.Machine
end

