-- ==== Sys2Proof/Machine/Flash.lean ====
section
/-! DEFINITION. The flash controller, the life log, the swap cell, the scrubber and the remap table (spec/19, R644 to
R648, R651 to R671; spec/15, R546, R553, R561). -/

namespace Sys2Proof.Machine

/-- A sector whose erase ended without a pass: its content is open (notes/assumptions/43.md). -/
def tornSect (k : Nat) : Nat := 0x900000000 + k / 0x10000

/-- Whether the line at key k reads erased; a line of a torn sector is open. -/
def lineErased (s : State) (k : Nat) : Bool × State :=
  if s.mb (tornSect k) ≠ 0 then
    let (u, d) := s.dev.free
    (u % 2 = 1, { s with dev := d })
  else (s.mb (tornKey k) == 0 && (s.mbs (k / 16 * 16) 16).all fun b => b == 0xFF, s)

/-- Lines from key k: mark them half programmed, or whole. -/
def tear (s : State) (k n v : Nat) : State := (List.range n).foldl (fun s i => s.setMb (tornKey (k + 16 * i)) v) s

/-- A key range reads erased again. -/
def eraseKeys (s : State) (k n : Nat) : State :=
  let t := tornKey k
  let s := { s with mem := s.mem.filter fun c =>
    !((k ≤ c.1 && c.1 < k + n) || (t ≤ c.1 && c.1 < t + n / 16)) }
  s.setMb (tornSect k) 0

/-- The array of a key: 0 bank A, 1 bank B, 2 a twin, 3 the swap cell. -/
def arrOf (k : Nat) : Nat := if k < 0x400000 then 0 else if k < 0x800000 then 1 else if k < 0x100200000 then 2 else 3

/-- The array at key k becomes busy or free (R655). -/
def setBusy (d : Dev) (k : Nat) (b : Bool) : Dev :=
  match arrOf k with
  | 0 => d.setF FC_STATUS_BUSY_A 0 (b2i b)
  | 1 => d.setF FC_STATUS_BUSY_B 0 (b2i b)
  | 2 => d.setF FC_STATUS_BUSY_T 0 (b2i b)
  | _ => d.setF FC_STATUS_BUSY_S 0 (b2i b)

/-- A command is refused (R658, R662). -/
def fcRefuse (d : Dev) (res why : Nat) : Dev :=
  let d := ((d.setF FC_CMD_RES 0 res).setF FC_CMD_WHY 0 why).set1 FC_CAUSE_REFUSED
  if why = 6 then d.set1 FC_CAUSE_ACC_ERR else d

/-- A command is accepted and in progress in state `st`; cached lines and read buffers of what it programs are
dropped (R595, R652). -/
def fcAccept (d : Dev) (op base lines st : Nat) : Dev :=
  let d := ((d.setF FC_CMD_RES 0 0).setF FC_CMD_WHY 0 0).setF FC_CMD_BUSY 0 1
  let d := ((d.setH .fcOp 0 op).setH .fcBase 0 base).setH .fcLines 0 lines
  (if op = 5 then d else flashDrop d base (16 * lines)).setF FC_STATUS_STATE 0 st

/-- An erase of the sector at key k begins its first segment (R657). -/
def fcEraseStart (d : Dev) (k : Nat) (lf : Bool) : Dev :=
  let d := (((flashDrop d k 0x10000).setF FC_CMD_RES 0 0).setF FC_CMD_WHY 0 0).setF FC_CMD_BUSY 0 1
  let d := ((d.setF FC_STATUS_STATE 0 2).setF FC_STATUS_SEG 0 1).setF FC_STATUS_LF 0 (b2i lf)
  setBusy ((d.setH .fcErase 0 k).setH .fcVerify 0 0) k true

/-- The controller is free: an erase the life-record block waits for begins, but not after a brown-out warning (R662). -/
def fcIdle (d : Dev) : Dev :=
  let d := ((d.setF FC_STATUS_STATE 0 0).setF FC_CMD_BUSY 0 0).setF FC_STATUS_LF 0 0
  if d.hon .lfErase && !d.on FC_STATUS_BROWN then fcEraseStart d (0x400000 + (d.hn .lfErase - 1) * 0x10000) true else d

/-- A program, copy or swap has ended: the controller returns to the state it came from (R659). -/
def fcReturn (d : Dev) : Dev :=
  let d := (d.setF FC_CMD_BUSY 0 0).setH .fcOp 0 0
  if d.f FC_STATUS_STATE = 5 then d.setF FC_STATUS_STATE 0 4 else fcIdle d

/-- The erase in progress or suspended stops for good and its sector is left partly erased (R657, R661, R662). -/
def fcEraseFail (s : State) : State :=
  let k := s.dev.hn .fcErase
  let s := s.setMb (tornSect k) 1
  s.onDev fun d =>
    let d := ((setBusy d k false).setF FC_STATUS_SEG 0 0).setR FC_SUSP 0 0
    let d := if d.on FC_STATUS_LF then d.setH .lfErase 0 0 else d
    ((d.setF FC_STATUS_STATE 0 0).setF FC_CMD_BUSY 0 0).setF FC_STATUS_LF 0 0

/-- The erase segment stops and its sector is suspended (R659, R660). -/
def fcSuspend (d : Dev) (lf : Bool) : Dev :=
  let k := d.hn .fcErase
  let d := (setBusy d k false).setF FC_CMD_BUSY 0 0
  let twin := arrOf k = 2
  let a := if twin then k - twinKey (1 - d.f FC_SWAP_ACTIVE) 0 else k
  let d := ((d.setF FC_SUSP_ADDR 0 a).setF FC_SUSP_LF 0 (b2i lf)).setH .fcSpace 0 (b2i twin)
  (d.setF FC_STATUS_STATE 0 4).setH .fcVerify 0 0

/-- The stopped segment runs again from its start. -/
def fcResume (d : Dev) : Dev :=
  let d := (setBusy d (d.hn .fcErase) true).setR FC_SUSP 0 0
  ((d.setF FC_STATUS_STATE 0 2).setF FC_CMD_BUSY 0 1).setH .fcVerify 0 0

/-- Whether [k, k + n) meets the suspended sector. -/
def inSuspended (d : Dev) (k n : Nat) : Bool :=
  4 ≤ d.f FC_STATUS_STATE && d.hn .fcErase < k + n && k < d.hn .fcErase + 0x10000

/-! ### The swap cell (R669 to R671) -/

/-- Line i of half j: the twin and the SEQ it names, if it is valid. -/
def swapLine (s : State) (j i : Nat) : Option (Nat × Nat) :=
  let k := swapKey j (16 * i)
  let b := s.mbs k 16
  if s.mb (tornKey k) = 0 && b.take 2 == [0x53, 0x57] && crc16 (b.take 14) == leNat (b.drop 14) then
    some ((b[2]?).getD 0 % 2, leNat ((b.drop 4).take 4))
  else none

/-- The newest valid line of both halves: its half, twin and SEQ. -/
def swapNewest (s : State) : Option (Nat × Nat × Nat) :=
  (List.range 512).foldl (fun b i =>
    match swapLine s (i / 256) (i % 256), b with
    | some (t, q), some (j, u, p) => if p < q then some (i / 256, t, q) else some (j, u, p)
    | some (t, q), none => some (i / 256, t, q)
    | none, b => b) none

/-- Lines of half j in use: up to the last one that does not read erased. -/
def swapUsed (s : State) (j : Nat) : Nat :=
  (List.range 256).foldl (fun n i =>
    let k := swapKey j (16 * i)
    if s.mb (tornKey k) != 0 || (s.mbs k 16).any fun b => b != 0xFF then i + 1 else n) 0

/-- FC_SWAP follows the cell. -/
def swapShow (s : State) : State :=
  let (j, t, q) := (swapNewest s).getD (0, 0, 0)
  let u := swapUsed s j
  s.onDev fun d =>
    let d := ((d.setF FC_SWAP_NAMED 0 t).setF FC_SWAP_HALF 0 j).setF FC_SWAP_USED 0 u
    (d.setF FC_SWAP_SEQ 0 q).setF FC_SWAP_ARMED 0 (b2i (t != d.f FC_SWAP_ACTIVE))

/-- Program a swap-cell line naming twin t, erasing the other half where the newest line's half is full. -/
def swapProgram (s : State) (t st : Nat) : State :=
  let n := swapNewest s
  let j := (n.map fun x => x.1).getD 0
  let q := match n with
    | some (_, _, q) => (q + 1) % 2 ^ 32
    | none => 1
  let u := swapUsed s j
  let (s, j, u) := if u < 256 then (s, j, u) else
    ((eraseKeys s (swapKey (1 - j) 0) 0x1000).onDev fun d => d.incSat LF_ERASE_VALUE 2, 1 - j, 0)
  let body := [0x53, 0x57, t, 0] ++ leBytes 4 q ++ List.replicate 6 0
  let k := swapKey j (16 * u)
  let s := tear (s.setMbs k (body ++ leBytes 2 (crc16 body))) k 1 1
  s.onDev fun d => setBusy (fcAccept d 6 k 1 st) k true

/-! ### Commands (R656 to R660) -/

/-- The state a program leads to from the present one, if it is accepted there. -/
def fcProgState (d : Dev) : Option Nat :=
  match d.f FC_STATUS_STATE with
  | 0 => some 1
  | 4 => some 5
  | _ => none

/-- The key of FC_ADDR for a PROGRAM or ERASE by the warden, where it is allowed (R658). -/
def fcTarget (d : Dev) : Option Nat :=
  let a := d.f FC_ADDR_ADDR
  if d.on FC_ADDR_SPACE then (if a < 0x40000 then some (twinKey (1 - d.f FC_SWAP_ACTIVE) a) else none)
  else if 0x400000 ≤ a && a < 0x780000 then none
  else some a

/-- The command of FC_CMD is issued (GO); a PROGRAM past the end of its page is refused as it is written (R14, R656). -/
def fcGo (s : State) : State :=
  let d := s.dev
  let op := d.f FC_CMD_OP
  let st := d.f FC_STATUS_STATE
  let no (res why : Nat) : State := s.onDev fun d => fcRefuse d res why
  if op = 0 then s
  else if d.on FC_STATUS_BROWN then no 3 5
  else match op with
  | 1 =>
    match fcProgState d, fcTarget d with
    | none, _ => no 1 1
    | _, none => no 1 3
    | some st', some k =>
      let n := d.f FC_CMD_NLINES + 1
      let l := k / 16 % 16
      let k0 := k / 16 * 16
      if inSuspended d k0 (16 * n) then no 1 4
      else
        let (ok, s) := (List.range n).foldl (fun (x : Bool × State) i =>
          let (b, s) := lineErased x.2 (k0 + 16 * i)
          (x.1 && b, s)) (true, s)
        if ok then
          let bs := (List.range (4 * n)).flatMap fun w => leBytes 4 (d.r FC_BUF (4 * l + w)).toNat
          let s := tear (s.setMbs k0 bs) k0 n 1
          s.onDev fun d => setBusy (fcAccept d 1 k0 n st') k0 true
        else s.onDev fun d => fcRefuse d 1 2
  | 2 =>
    if st ≠ 0 then no 1 1
    else match fcTarget d with
      | none => no 1 3
      | some k => s.onDev fun d => fcEraseStart d (k / 0x10000 * 0x10000) false
  | 3 =>
    if st = 2 && !d.on FC_STATUS_LF then s.onDev fun d => (fcSuspend d false).setF FC_CMD_RES 0 0
    else s.onDev fun d => (fcRefuse d 1 1).set1 FC_CAUSE_SUSP_REF
  | 4 => if st = 4 then s.onDev fun d => fcResume ((d.setF FC_CMD_RES 0 0).setF FC_CMD_WHY 0 0) else no 1 1
  | 5 =>
    match fcProgState d with
    | none => no 1 1
    | some st' =>
      let a := d.f FC_ADDR_ADDR
      let k := twinKey (1 - d.f FC_SWAP_ACTIVE) a
      if !d.on FC_ADDR_SPACE || 0x40000 < a + 256 then no 1 3
      else if inSuspended d k 256 then no 1 4
      else s.onDev fun d => fcAccept d 5 k 16 st'
  | 6 =>
    match fcProgState d with
    | none => no 1 1
    | some st' => swapProgram s (d.f FC_ADDR_ADDR % 2) st'
  | _ => no 1 6

/-- PROGRAM_PULSE_DONE (R656, R659, R671): the pulse and its verify end; `ok`: the verify passes. -/
def execProgramPulseDone (ok : Bool) (s : State) : Host.Outcome State Fault Refusal :=
  let op := s.dev.hn .fcOp
  let st := s.dev.f FC_STATUS_STATE
  if (st = 1 || st = 5) && (op = 1 || op = 6) then
    let k := s.dev.hn .fcBase
    let s := if ok then tear s k (s.dev.hn .fcLines) 0 else s
    let s := if op = 6 then swapShow s else s
    .next (s.onDev fun d =>
      let d := if ok then d.set1 FC_CAUSE_DONE else (d.setF FC_CMD_RES 0 2).set1 FC_CAUSE_VERIFY_FAIL
      fcReturn (setBusy d k false))
  else .next s

/-- RDTWIN_DONE (R659): 256 bytes of the idle twin are in FC_BUF; a copy makes no array busy (R655). A line left half programmed gives a free value
(notes/assumptions/43.md). -/
def execRdtwinDone (s : State) : Host.Outcome State Fault Refusal :=
  let st := s.dev.f FC_STATUS_STATE
  if (st = 1 || st = 5) && s.dev.hn .fcOp = 5 then
    let k := s.dev.hn .fcBase
    .next ((List.range 64).foldl (fun (s : State) w =>
        let a := k + 4 * w
        if s.mb (tornKey a) = 0 && s.mb (tornSect a) = 0 then
          s.onDev fun d => d.setF FC_BUF_BYTES w (s.mget a 4)
        else s.onDev fun d => let (v, d) := d.free; d.setF FC_BUF_BYTES w v) s |>.onDev fun d =>
      fcReturn (d.set1 FC_CAUSE_DONE))
  else .next s

/-- ERASE_SEGMENT_DONE (R657): the segment ends and its blank verify begins. -/
def execEraseSegmentDone (s : State) : Host.Outcome State Fault Refusal :=
  s.ok fun d => d.when (d.f FC_STATUS_STATE == 2 && !d.hon .fcVerify) fun d => d.setH .fcVerify 0 1

/-- The counter of erases of a key's bank (R657): the twins count as the boot bank. -/
def eraseCounter (k : Nat) : Nat := min 2 (arrOf k)

/-- ERASE_VERIFY_DONE (R657, R659): the blank verify passes, or another segment runs, or the eighth has failed. -/
def execEraseVerifyDone (ok : Bool) (s : State) : Host.Outcome State Fault Refusal :=
  if s.dev.f FC_STATUS_STATE = 2 && s.dev.hon .fcVerify then
    let k := s.dev.hn .fcErase
    if ok then
      let s := eraseKeys s k 0x10000
      .next (s.onDev fun d =>
        let d := ((setBusy d k false).setF FC_STATUS_SEG 0 0).incSat LF_ERASE_VALUE (eraseCounter k)
        let d := if d.on FC_STATUS_LF then (d.setH .lfErase 0 0).setF FC_LOGSTAT_SPARE_OK 0 1 else d
        fcIdle ((d.set1 FC_CAUSE_DONE).setH .fcVerify 0 0))
    else if s.dev.f FC_STATUS_SEG = 8 then
      let s := fcEraseFail s
      .next (s.onDev fun d => ((d.setF FC_CMD_RES 0 2).set1 FC_CAUSE_VERIFY_FAIL).setH .fcVerify 0 0)
    else .next (s.onDev fun d => (d.setF FC_STATUS_SEG 0 (d.f FC_STATUS_SEG + 1 : Nat)).setH .fcVerify 0 0)
  else .next s

/-- What a Clearing request does (R661). -/
def fcClearing (s : State) : State :=
  if s.dev.f FC_STATUS_STATE = 2 || s.dev.f FC_STATUS_STATE = 4 then fcEraseFail s
  else if s.dev.f FC_STATUS_STATE = 5 then (s.setMb (tornSect (s.dev.hn .fcErase)) 1).onDev fun d =>
    (d.setF FC_STATUS_STATE 0 1).setR FC_SUSP 0 0
  else s

/-- What the brown-out warning does (R662). -/
def fcBrown (s : State) : State :=
  let was := s.dev.f FC_STATUS_STATE
  let s := s.onDev fun d => (d.setF FC_STATUS_BROWN 0 1).set1 FC_CAUSE_BROWN
  let s := fcClearing s
  if was = 2 || was = 4 then s.onDev fun d => d.setF FC_CMD_RES 0 3 else s

/-- LF_PROGRAM_CUTOFF (R662): 1 ms after the warning. -/
def execLfProgramCutoff (s : State) : Host.Outcome State Fault Refusal :=
  s.ok fun d => d.when (d.on FC_STATUS_BROWN) fun d => d.setH .lfCut 0 1

/-! ### The life log (R553, R664 to R668) -/

/-- The key of line i of log sector j. -/
def logKey (j i : Nat) : Nat := 0x400000 + j * 0x10000 + 16 * i

/-- SSEQ of log sector j, where its header is valid. -/
def logHead (s : State) (j : Nat) : Option Nat :=
  let k := logKey j 0
  let b := s.mbs k 16
  if s.mb (tornKey k) = 0 && s.mb (tornSect k) = 0 && b.take 4 == [0x49, 0x5A, 0x4C, 0x47]
      && crc16 (b.take 14) == leNat (b.drop 14) then some (leNat ((b.drop 4).take 4)) else none

/-- LEN of a kind (R554). -/
def kindLen (k : Nat) : Option Nat :=
  match k with
  | 0 => some 192 | 1 => some 192 | 2 => some 64 | 3 => some 64 | 4 => some 64 | 5 => some 64 | 6 => some 512
  | 7 => some 96 | _ => none

/-- The bytes of the record at line i of log sector j, if it is valid (R668). -/
def logRec (s : State) (j i : Nat) : Option (List Nat) :=
  let k := logKey j i
  let hd := s.mbs k 4
  match kindLen ((hd[0]?).getD 0) with
  | none => none
  | some n =>
    let b := s.mbs k n
    let torn := (List.range ((n + 15) / 16)).any fun x => s.mb (tornKey (k + 16 * x)) != 0
    if i + (n + 15) / 16 ≤ 4096 && (hd[1]?).getD 0 = 1 && leNat (hd.drop 2) = n && !torn
        && crc16 (b.take (n - 2)) = leNat (b.drop (n - 2)) then some b else none

/-- The valid records of log sector j from line i on, in order. -/
def logWalk (s : State) (j : Nat) : Nat → Nat → List (List Nat)
  | 0, _ => []
  | fuel + 1, i =>
    if 4096 ≤ i then []
    else match logRec s j i with
      | some b => b :: logWalk s j fuel (i + (b.length + 15) / 16)
      | none => logWalk s j fuel (i + 1)

/-- The sectors of the window with their SSEQ, newest first (R665). -/
def logSectors (s : State) : List (Nat × Nat) :=
  let all := (List.range 56).filterMap fun j => (logHead s j).map fun q => (q, j)
  (sortBy (fun a b => b.1 ≤ a.1) all).take 16

/-- Fields of a record's bytes. -/
def recAt (b : List Nat) (o n : Nat) : Nat := leNat ((b.drop o).take n)

/-- Every valid record of the window. -/
def logAll (s : State) : List (List Nat) := (logSectors s).flatMap fun x => logWalk s x.2 4096 1

/-- The newest record that meets p: the highest LSEQ (R668). -/
def newest (l : List (List Nat)) (p : List Nat → Bool) : Option (List Nat) :=
  (l.filter p).foldl (fun x b => match x with
    | some y => if recAt y 4 4 < recAt b 4 4 then some b else some y
    | none => some b) none

/-- Whether a record is carried forward (R667), `all` being those of the window. -/
def kept (d : Dev) (all : List (List Nat)) (b : List Nat) : Bool :=
  let days (n : Nat) : Bool := decide ((d.rtc : Int) - recAt b 16 8 < n * 86400 * 65536)
  match recAt b 0 1 with
  | 0 => days (d.f FC_LOG_KEEP)
  | 4 => days (d.f FC_LOG_KEEP)
  | 5 => days (d.f FC_LOG_BKEEP)
  | 6 => newest all (fun x => recAt x 0 1 == 6) == some b
  | 7 => newest all (fun x => recAt x 0 1 == 7 && recAt x 26 10 == recAt b 26 10) == some b
  | _ => true

/-- The bytes of a record with its LSEQ and CRC (R553). -/
def recBytes (r : LogRec) (lseq : Nat) : List Nat :=
  let hd := [r.kind, 1] ++ leBytes 2 r.len ++ leBytes 4 lseq ++ leBytes 8 r.stamp ++ leBytes 8 r.rtc
  let b := r.body.foldl (fun (b : List Nat) f =>
    b.take f.1 ++ leBytes f.2.1 f.2.2 ++ b.drop (f.1 + f.2.1)) (hd ++ List.replicate (r.len - 26) 0)
  b ++ leBytes 2 (crc16 b)

/-- Lines left in the head. -/
def logRoom (d : Dev) : Nat := if d.f FC_LOGSTAT_LINES = 0 then 0 else 4096 - d.f FC_LOGSTAT_LINES

/-- Program a record at the end of the head; cached lines that it changes are invalidated (R595). -/
def logPut (s : State) (b : List Nat) : State :=
  let l := s.dev.f FC_LOGSTAT_LINES
  let k := logKey (s.dev.f FC_LOGSTAT_HEAD) l
  (s.setMbs k b).onDev fun d => flashDrop (d.setF FC_LOGSTAT_LINES 0 (l + (b.length + 15) / 16 : Nat)) k b.length

/-- The erase of the sector after the head is due; it begins when the controller is free (R666). -/
def logWantErase (d : Dev) : Dev :=
  let d := d.setH .lfErase 0 (d.f FC_LOGSTAT_SPARE + 1 : Nat)
  if d.f FC_STATUS_STATE = 0 then fcIdle d else d

/-- Whether log sector j reads blank. -/
def logBlank (s : State) (j : Nat) : Bool :=
  let k := logKey j 0
  s.mb (tornSect k) == 0 && s.mem.all fun c => !((k ≤ c.1 && c.1 < k + 0x10000) || (tornKey k ≤ c.1 && c.1 < tornKey k + 4096))

/-- The spare becomes the head, and the records that the departing sector keeps go to it (R666, R667). -/
def logRoll (s : State) : State :=
  let win := logSectors s
  let all := logAll s
  let d0 := s.dev
  let seq := match win.head? with
    | some x => x.1 + 1
    | none => 0
  let j := s.dev.f FC_LOGSTAT_SPARE
  let out := if win.length = 16 then win.getLast? else none
  let hd := [0x49, 0x5A, 0x4C, 0x47] ++ leBytes 4 seq ++ List.replicate 6 0
  let s := s.setMbs (logKey j 0) (hd ++ leBytes 2 (crc16 hd))
  let s := s.onDev fun d => flashDrop d (logKey j 0) 16
  let s := s.onDev fun d =>
    (((d.setF FC_LOGSTAT_HEAD 0 j).setF FC_LOGSTAT_LINES 0 1).setF FC_LOGSTAT_SPARE 0 ((j + 1) % 56 : Nat)).setF FC_LOGSTAT_SPARE_OK 0 0
  let size (l : List (List Nat)) : Nat := (l.map fun b => (b.length + 15) / 16).sum
  let full := decide (12 * 4095 < size (all.filter (kept d0 all)))
  let s := if full then s.onDev fun d => d.set1 FC_CAUSE_LOG_FULL else s
  let s := match out with
    | none => s
    | some x =>
      ((logWalk s x.2 4096 1).filter fun b => kept d0 all b && !(full && [0, 4, 5].contains (recAt b 0 1))).foldl logPut s
  if logBlank s ((j + 1) % 56) then s.onDev fun d => d.setF FC_LOGSTAT_SPARE_OK 0 1 else s.onDev logWantErase

/-- Whether the controller takes a program of the life-record block now (R659, R660, R662). -/
def lfMay (d : Dev) : Bool :=
  domOn d 13 && !d.hon .lfCut &&
    (d.f FC_STATUS_STATE == 0 || d.f FC_STATUS_STATE == 4 || (d.f FC_STATUS_STATE == 2 && !d.on FC_STATUS_LF))

/-- A record waits (R552, R554, R560): billing records until 32 are queued, or a flush or a brown-out takes them; stage
snapshots, after a brown-out, for the next flush. -/
def lfDue (d : Dev) (r : LogRec) : Bool :=
  if r.kind = 7 then !d.hon .lfWait
  else r.kind != 5 || d.on LF_STATUS_BUSY || 32 ≤ qfill d || d.on FC_STATUS_BROWN

/-- The record of a flush whose program failed its verify leaves half-programmed lines. -/
def logWrite (s : State) (r : LogRec) (ok : Bool) : State :=
  let n := (s.dev.f LF_LSEQ_VALUE + 1) % 2 ^ 32
  let b := recBytes r n
  let k := logKey (s.dev.f FC_LOGSTAT_HEAD) (s.dev.f FC_LOGSTAT_LINES)
  let s := logPut s b
  let s := s.onDev fun d => { d with logq := d.logq.erase r }
  if ok then s.onDev fun d => (d.setF LF_LSEQ_VALUE 0 n).set1 FC_CAUSE_DONE
  else (tear s k ((b.length + 15) / 16) 1).onDev fun d => (d.set1 FC_CAUSE_VERIFY_FAIL).setH .lfErr 0 1

/-- LOG_APPEND (R553, R660, R664 to R667): the first record that is due is programmed into the log, the head rolling when
it does not fit; an erase of the warden is suspended for it and runs again from the start of its segment. A record that
must wait for the erase of the spare stays queued. `ok`: the program verifies. -/
def execLogAppend (ok : Bool) (s : State) : Host.Outcome State Fault Refusal :=
  match s.dev.logq.find? (lfDue s.dev) with
  | none => .next s
  | some r =>
    if lfMay s.dev then
      let hold := s.dev.f FC_STATUS_STATE = 2
      let s := if hold then s.onDev fun d => fcSuspend d true else s
      let n := (r.len + 15) / 16
      let s := if n ≤ logRoom s.dev then s
        else if s.dev.on FC_LOGSTAT_SPARE_OK then logRoll s
        else if s.dev.on LF_STATUS_RESTORED then s.onDev logWantErase else s
      let s := if n ≤ logRoom s.dev then logWrite s r ok else s
      .next (if hold then s.onDev fcResume else s)
    else .next s

/-- The position of the log is found in flash (R664, R665). -/
def logScan (s : State) : State :=
  match logSectors s with
  | [] => s.onDev fun d =>
      (((d.setF FC_LOGSTAT_HEAD 0 55).setF FC_LOGSTAT_LINES 0 0).setF FC_LOGSTAT_SPARE 0 0).setF FC_LOGSTAT_SPARE_OK 0 (b2i (logBlank s 0))
  | x :: _ =>
    let used := (List.range 4096).foldl (fun n i =>
      let k := logKey x.2 i
      if s.mb (tornKey k) != 0 || (s.mbs k 16).any fun b => b != 0xFF then i + 1 else n) 0
    let sp := (x.2 + 1) % 56
    s.onDev fun d =>
      let d := ((d.setF FC_LOGSTAT_HEAD 0 x.2).setF FC_LOGSTAT_LINES 0 used).setF FC_LOGSTAT_SPARE 0 sp
      if logBlank s sp then d.setF FC_LOGSTAT_SPARE_OK 0 1 else logWantErase (d.setF FC_LOGSTAT_SPARE_OK 0 0)

/-- What the scan restores at the first boot after AON powers up (R546, R550, R561, R668). -/
def logRestore (s : State) : State :=
  let all := logAll s
  let last := newest all fun _ => true
  let snap := newest all fun b => recAt b 0 1 == 6
  (logScan s).onDev fun d =>
    let d := match last with
      | some b => (setRtc d (recAt b 16 8)).setF LF_LSEQ_VALUE 0 (recAt b 4 4)
      | none => d
    let d := (d.setF TM_RTC_CTL_VALID 0 0).set1 TM_ACAUSE_INVALID
    let d := (d.setH .rtcDay 0 (dayOf d)).setH .rtcYear 0 (yearNow d - 2000 : Nat)
    match snap with
    | none => (d.setF EM_STATUS_RESTORED 0 1).setF LF_STATUS_RESTORED 0 1
    | some b =>
      let d := d.each 16 fun d k =>
        let d := (d.setW64 EM_E_LO EM_E_HI k (recAt b (24 + 8 * k) 8)).setW64 EM_R_LO EM_R_HI k (recAt b (152 + 8 * k) 8)
        d.setH .emStart k (recAt b (280 + 8 * k) 8)
      let d := (d.setF EM_STATUS_EPOCH 0 (recAt b 408 2)).setF EM_SEQ_SEQ 0 (recAt b 410 4)
      let d := (d.setH .emStamp 0 (recAt b 414 8)).setH .emRtc 0 (recAt b 422 8)
      let d := d.setF LF_POH_VALUE 0 (recAt b 430 4)
      let d := d.each 3 fun d j => d.setF LF_ERASE_VALUE j (recAt b (434 + 4 * j) 4)
      let d := (d.setR LF_FB0 0 (BitVec.ofNat 32 (recAt b 446 4))).setR LF_FB1 0 (BitVec.ofNat 32 (recAt b 450 4))
      let d := closeIntervals d 5 ((recAt b 408 2 + 1) % 65536) 0 (recAt b 8 8) (recAt b 16 8)
      let d := (d.set1 EM_CAUSE_PLOSS).setF EM_STATUS_RESTORED 0 1
      (d.setF LF_STATUS_RESTORED 0 1).set1 LF_CAUSE_RESTORE

/-! ### The scrubber and the remap table (R644 to R648) -/

/-- One visit to the word at address a of bank b (R645). -/
def scrubWord (s : State) (b a : Nat) : State :=
  let k := wordKey s.dev b a
  if s.mb (validKey k) = 0 then s
  else
    let s := s.onDev fun d => arb d b 10
    let l := sramLanes s k 0 4
    let off := bankOff b a
    let s := s.onDev fun d => (List.range 4).foldl (fun d j => eccNote d b (off + j) 10 ((l[j]?).getD (0, 0)).2) d
    if l.any fun x => x.2 == 2 then s.onDev fun d => d.set1 ME_BCAUSE_SCRUB_UE b
    else if l.any fun x => x.2 == 1 then
      let s := sramPut s k 0 (l.map fun x => x.1)
      if b < 16 then s.onDev fun d => icacheDrop d a 4 else s
    else s

/-- Whether the scrubber visits bank b. -/
def scrubbed (d : Dev) (b : Nat) : Bool := d.on ME_BCFG_SCRUB b && (b == 16 || domOn d (32 + b))

/-- The next bank from b on that is visited; 17 at the end of the pass. -/
def scrubBank (d : Dev) (b : Nat) : Nat := ((List.range 17).find? fun i => b ≤ i && scrubbed d i).getD 17

/-- SCRUB_VISIT (R644, R645): the scrubber serves its write-back queue, else visits the next word. -/
def execScrubVisit (s : State) : Host.Outcome State Fault Refusal :=
  if !s.dev.on ME_SCRUB_EN || !domOn s.dev 0 then .next s
  else match s.dev.wbq with
  | a :: t =>
    let s := s.onDev fun d => { d with wbq := t }
    .next (match sramBank a with
      | some b => if scrubbed s.dev b then scrubWord s b a else s
      | none => s)
  | [] =>
    let b0 := s.dev.f ME_SCRUBPOS_BANK
    let b := scrubBank s.dev b0
    let w := if b = b0 then s.dev.f ME_SCRUBPOS_ADDR else 0
    if b = 17 then
      let b := scrubBank s.dev 0
      .next (s.onDev fun d => ((d.incSat ME_SCRUBCNT_PASSES).setF ME_SCRUBPOS_BANK 0 (b % 17 : Nat)).setF ME_SCRUBPOS_ADDR 0 0)
    else
      let s := scrubWord s b ((if b = 16 then 0x50010000 else 0x10000000 + b * 0x100000) + 4 * w)
      let last := w + 1 = (if b = 16 then 0x4000 else 0x40000)
      .next (s.onDev fun d =>
        if !last then (d.setF ME_SCRUBPOS_BANK 0 b).setF ME_SCRUBPOS_ADDR 0 (w + 1 : Nat)
        else if b = 16 then ((d.incSat ME_SCRUBCNT_PASSES).setF ME_SCRUBPOS_BANK 0 0).setF ME_SCRUBPOS_ADDR 0 0
        else (d.setF ME_SCRUBPOS_BANK 0 (b + 1 : Nat)).setF ME_SCRUBPOS_ADDR 0 0)

/-- The word at key k is copied to key k', as it stands. -/
def copyWord (s : State) (k k' : Nat) : State :=
  ((s.setMbs k' (s.mbs k 4)).setMbs (chkKey k') (s.mbs (chkKey k) 4)).setMb (validKey k') (s.mb (validKey k))

/-- The word of bank b at word offset w is copied to spare i, corrected where it can be (R648). -/
def spareFill (s : State) (b i w : Nat) : State :=
  let k := 0x10000000 + b * 0x100000 + 4 * w
  if s.mb (validKey k) = 0 then copyWord s k (spareKey b i)
  else
    let l := sramLanes s k 0 4
    let s := sramPut s (spareKey b i) 0 (l.map fun x => if x.2 = 2 then 0 else x.1)
    if l.any fun x => x.2 == 2 then s.onDev fun d => d.set1 ME_BCAUSE_UE b else s

/-- A write of entry i of ME_REMAP of bank b (R648). -/
def remapWrite (s : State) (b i : Nat) (w : Word) : State :=
  let e := b * 16 + i
  let wa := bitsOf w 2 18
  let v := w.getLsbD 31
  let d := s.dev
  let old := d.on ME_REMAP_V e
  let key := 0x10000000 + b * 0x100000 + 4 * d.f ME_REMAP_WADDR e
  if v && (!d.on ME_BCFG_REPAIR b
      || (List.range 16).any fun j => j != i && d.on ME_REMAP_V (b * 16 + j) && d.f ME_REMAP_WADDR (b * 16 + j) == wa) then
    s.onDev fun d => d.set1 ME_BCAUSE_ACC_ERR b
  else if v && old && d.f ME_REMAP_WADDR e = wa then s
  else
    let s := if old then copyWord s (spareKey b i) key else s
    let s := if v then spareFill s b i wa else s
    s.onDev fun d => (d.setF ME_REMAP_WADDR e wa).setF ME_REMAP_V e (b2i v)

/-- A write of REPAIR of bank b (R647): refused with ACC_ERR, or in effect from the next access. -/
def repairWrite (d : Dev) (b v : Nat) : Dev :=
  if v = d.f ME_BCFG_REPAIR b then d
  else if v = 1 && d.on ME_BROWS_USED b then d.set1 ME_BCAUSE_ACC_ERR b
  else if v = 0 && (List.range 16).any fun i => d.on ME_REMAP_V (b * 16 + i) then d.set1 ME_BCAUSE_ACC_ERR b
  else d.setF ME_BCFG_REPAIR b v

end Sys2Proof.Machine
end

