-- ==== Sys2Proof/Machine/Queue.lean ====
section
/-! DEFINITION. The queue manager: ring contexts, doorbells, tokens, ring events, and the rings of telemetry, lane
messages and event logs (spec/13, R484 to R494; spec/10, R383, R387, R388). -/

namespace Sys2Proof.Machine

/-- Word w of the context of ring r, and writing it. -/
def ctxKey (r w : Nat) : Nat := 0x30000000 + r * 0x20 + 4 * w
def ctx (s : State) (r w : Nat) : Nat := s.mget (ctxKey r w) 4
def setCtx (s : State) (r w v : Nat) : State := s.mput (ctxKey r w) 4 (v % 2 ^ 32)

/-- Fields of a context (R484). -/
def rSize (s : State) (r : Nat) : Nat := 2 ^ (ctx s r 1 % 32)
def rEsz (s : State) (r : Nat) : Nat :=
  match ctx s r 1 / 256 % 4 with
  | 0 => 16 | 1 => 64 | 2 => 256 | _ => 512
def rOn (s : State) (r : Nat) : Bool := (ctx s r 1).testBit 12
def rHead (s : State) (r : Nat) : Nat := ctx s r 2
def rTail (s : State) (r : Nat) : Nat := ctx s r 3
def rNext (s : State) (r : Nat) : Nat := ctx s r 4
def rFill (s : State) (r : Nat) : Nat := (rHead s r + 2 ^ 32 - rTail s r) % 2 ^ 32
def rTokens (s : State) (r : Nat) : Nat := ctx s r 7 % 65536

/-- The address of element i of ring r. -/
def rElem (s : State) (r i : Nat) : Nat := ctx s r 0 + i % rSize s r * rEsz s r

/-- Count in the low (DROPS) or high (LOST) half of word 6, saturating. -/
def ctxCount (s : State) (r : Nat) (high : Bool) (n : Nat) : State :=
  let w := ctx s r 6
  let lo := if high then w % 65536 else min 65535 (w % 65536 + n)
  let hi := if high then min 65535 (w / 65536 + n) else w / 65536
  setCtx s r 6 (lo + 65536 * hi)

/-- Raise the ring's event if it is armed (R488). -/
def ringFire (s : State) (r : Nat) : State :=
  let w := ctx s r 1
  if w.testBit 24 then (setCtx s r 1 (w - 2 ^ 24)).onDev fun d => d.raise (0x300 + w / 65536 % 256) else s
def ringEvent (s : State) (r : Nat) : State := if ctx s r 5 % 65536 ≤ rFill s r then ringFire s r else s

/-- Whether the bank that holds an SRAM address is on. -/
def sramOn (s : State) (a : Nat) : Bool :=
  match sramBank a with
  | some b => b == 16 || domOn s.dev (32 + b)
  | none => false

/-- Bytes written to SRAM by the queue manager, whole words from a word boundary. -/
def qmWrite (s : State) (a : Nat) (bytes : List Nat) : State :=
  (List.range (bytes.length / 4)).foldl (fun s i =>
    let x := a + 4 * i
    match sramBank x with
    | some b => sramWrite s b x 4 (leNat ((bytes.drop (4 * i)).take 4)) 6
    | none => s) s

/-- Words read from SRAM by the queue manager; none at an uncorrectable byte. -/
def qmRead (s : State) (a : Nat) : Nat → Option (List Nat) × State
  | 0 => (some [], s)
  | n + 1 =>
    match sramBank a with
    | none => (none, s)
    | some b =>
      match sramRead s b a 4 6 with
      | (.ok v, s) =>
        let (l, s) := qmRead s (a + 4) n
        (l.map fun l => v :: l, s)
      | (_, s) => (none, s)

/-- A hardware producer writes one element (R487, R488); an element that finds the ring full, not in service, or its
bank off is not written. -/
def ringPut (s : State) (r : Nat) (bytes : List Nat) : Bool × State :=
  let a := rElem s r (rHead s r)
  if rOn s r && rFill s r < rSize s r && sramOn s a then
    let s := qmWrite s a bytes
    (true, ringEvent (setCtx s r 2 (rHead s r + 1)) r)
  else (false, s)

/-- Whether partition p owns ring r and its elements have size code `esz`: a hardware producer or consumer of p finds any
other ring out of service (R38, R395, R481, R491). -/
def ringMine (s : State) (r p esz : Nat) : Bool := ringOwner s.dev r == (p, false) && ctx s r 1 / 256 % 4 == esz

/-- A refused element is counted. -/
def ringDrop (s : State) (r : Nat) : State := ctxCount s r false 1

/-- The queue manager writes the token it takes or frees, in a layout that is internal: no word of the pool is known to
hold what was stored there (R489; notes/assumptions/2.md). -/
def tokensWritten (s : State) : State := { s with mem := s.mem.filter fun c => c.1 < tokKey 0 }

/-- A word of the token pool (R33): what was last stored there, free where the queue manager may have written since. -/
def tokenLoad (s : State) (a : Nat) : Nat × State :=
  if s.mb (tokKey a) = 1 then (s.mget a 4, s)
  else let (v, d) := s.dev.free; (v % 2 ^ 32, { s with dev := d })

/-- A store to a word of the pool. -/
def tokenStore (s : State) (a v : Nat) : State := (s.mput a 4 v).setMb (tokKey a) 1

/-- A token is taken or given back (R489). -/
def tokenAdd (s : State) (r : Nat) (n : Int) : State :=
  let s := tokensWritten s
  let w := ctx s r 7
  let s := setCtx s r 7 (w / 65536 * 65536 + ((w % 65536 : Nat) + n).toNat % 65536)
  let p := (ringOwner s.dev r).1
  s.onDev fun d => d.setF QM_TUSE_USED p (d.f QM_TUSE_USED p + n)

/-- A hardware consumer claims the element at NEXT: its number, or none where it waits (R489). -/
def claim (s : State) (r : Nat) : Option Nat × State :=
  let i := rNext s r
  let p := (ringOwner s.dev r).1
  if !rOn s r || i = rHead s r then (none, s)
  else if rTokens s r < ctx s r 5 / 65536 && s.dev.f QM_TUSE_USED p < s.dev.f QM_TQUOTA_QUOTA p then
    (some i, tokenAdd (setCtx s r 4 (i + 1)) r 1)
  else (none, s.onDev fun d => d.set1 QM_CAUSE_TOK_WAIT)

/-- TAIL advances over every completed element from the oldest onward. -/
def tailAdvance (r : Nat) : Nat → State → State
  | 0, s => s
  | n + 1, s =>
    let t := rTail s r
    if s.dev.ringDone.contains (r, t) then
      tailAdvance r n ((setCtx s r 3 (t + 1)).onDev fun d => { d with ringDone := d.ringDone.erase (r, t) })
    else s

/-- The token of element i of ring r is completed (R489). -/
def complete (s : State) (r i : Nat) : State :=
  let s := (tokenAdd s r (-1)).onDev fun d => { d with ringDone := d.ringDone ++ [(r, i)] }
  tailAdvance r s.dev.ringDone.length s

/-- A transmit element is completed unsent (R493, R643). -/
def completeLost (s : State) (r i : Nat) : State :=
  (ctxCount (complete s r i) r true 1).onDev fun d => d.set1 QM_CAUSE_LOST

/-- Tokens whose elements the lanes are done with are completed (R493). -/
def takeDone (s : State) : State :=
  let l := s.dev.elemsDone
  let s := s.onDev fun d => { d with elemsDone := [] }
  let ring (s : State) (e : ElemDone) : Nat := s.dev.f QM_LTX_RING e.ring
  let s := l.foldl (fun s e => if e.lost then completeLost s (ring s e) (e.elem - 1) else complete s (ring s e) (e.elem - 1)) s
  ((l.filter fun e => e.lost).map fun e => ring s e).eraseDups.foldl ringFire s

/-- One whole message of channel 2 goes to its lane's receive ring (R491, R492): with the ring full it stays, its credit
withheld. -/
def takeRx (s : State) (m : RxMsg) : State :=
  let drop (s : State) : State := s.onDev fun d =>
    ({ d with rxMsgs := d.rxMsgs.erase m } : Dev).setH .lFreed m.lane (d.h .lFreed m.lane + m.owed)
  if !s.dev.on QM_LRX_EN m.lane then drop (s.onDev fun d => d.set1 LN_CAUSE_RSVD_TYPE m.lane)
  else
    let b := leBytes 2 m.bytes.length ++ [2, 0, 0, 0, 0, 0] ++ leBytes 8 m.stamp ++ m.bytes
    let b := b ++ List.replicate ((4 - b.length % 4) % 4) 0
    let r := s.dev.f QM_LRX_RING m.lane
    if ringMine s r (laneOwner s.dev m.lane).1 3 then
      let (ok, s) := ringPut s r b
      if ok then drop s else s
    else s

/-- What the queue manager takes from the lanes. -/
def qSettle (s : State) : State :=
  let s := takeDone s
  (s.dev.rxMsgs.filter fun m => m.full).foldl takeRx s

/-! ### Doorbells and contexts (R485 to R488) -/

/-- A doorbell on ring r, by an initiator that may ring it (R487): false where it is refused. -/
def doorbell (s : State) (r op n : Nat) : State :=
  match op with
  | 0 => if rFill s r + n ≤ rSize s r then ringEvent (setCtx s r 2 (rHead s r + n)) r else ctxCount s r false n
  | 1 =>
    if n ≤ rFill s r then qSettle (setCtx (setCtx s r 3 (rTail s r + n)) r 4 (rNext s r + n)) else ctxCount s r false n
  | _ => setCtx s r 1 (ctx s r 1 ||| 2 ^ 24)

/-- Whether ring r's storage lies within its owner's memory windows; rings of root firmware take all of SRAM (R486). -/
def storageOk (s : State) (r base n : Nat) : Bool :=
  let o := ringOwner s.dev r
  if o.2 then (0x10000000 ≤ base && base + n ≤ 0x11000000) || (0x50010000 ≤ base && base + n ≤ 0x50020000)
  else inPartMem s.dev o.1 base n && (sramBank base).isSome

/-- Whether an enabled ring of another partition uses event e (R486). -/
def evtTaken (s : State) (r e : Nat) : Bool :=
  s.mem.any fun c =>
    isRingCtx c.1 && c.1 % 0x20 == 5 && c.2.getLsbD 4 &&
      (let q := (c.1 - 0x30000000) / 0x20
       q != r && (ringOwner s.dev q).1 != (ringOwner s.dev r).1 && ctx s q 1 / 65536 % 256 == e)

/-- A write of word w of the context of ring r by an initiator that may write it (R484 to R486). -/
def ctxWrite (s : State) (r w v : Nat) : State :=
  let old := ctx s r w
  let on := rOn s r
  if w = 1 then
    let v := v &&& 0x01FF131F
    let rest (x : Nat) : Nat := x &&& 0x00FF031F
    if on && rest v ≠ rest old then s
    else if v.testBit 12 && !on then
      let log2 := v % 32
      let esz := [16, 64, 256, 512].getD (v / 256 % 4) 16
      let n := 2 ^ log2 * esz
      let base := ctx s r 0
      let ok := 1 ≤ log2 && log2 ≤ 16 && base % n = 0 && storageOk s r base n
        && !(v.testBit 24 && evtTaken s r (v / 65536 % 256))
      setCtx s r 1 (if ok then v else v - 2 ^ 12 + 2 ^ 13)
    else setCtx s r 1 (v ||| (old &&& 2 ^ 13))
  else if on && v ≠ old then s
  else if w = 7 then s
  else setCtx s r w v

/-- What a read of word w of ring r's context gives (R484): OWNER comes from the charter. -/
def ctxRead (s : State) (r w : Nat) : Nat :=
  if w = 1 then ctx s r 1 % 2 ^ 28 + (ringOwner s.dev r).1 * 2 ^ 28 else ctx s r w

/-! ### Producers and consumers -/

/-- RECORD_HANDOVER (R383, R387, R388): converter c hands the first record of its ended sequences to the crossing, one in
each PCLK cycle. The crossing, 8 deep, empties a record in each SCLK cycle and is never full (R28, R387). -/
def execRecordHandover (c : Fin 8) (s : State) : Host.Outcome State Fault Refusal :=
  match s.dev.tcRecs.find? fun r => r.conv == c.val && r.handed && decide (s.dev.hn .tcHand c ≤ s.dev.now) && domOn s.dev 0 with
  | none => .next s
  | some r =>
    let s := s.onDev fun d => { d with tcRecs := d.tcRecs.erase r }.setH .tcHand c (d.now / 10 * 10 + 10 : Nat)
    let step := r.w0 / 2 ^ 28
    let s := s.onDev fun d =>
      let d := if r.w0.testBit 16 then
          (d.setF TC_LAST_W0 (16 * c.val + step) r.w0).setF TC_LASTT_STAMP (16 * c.val + step) r.stamp else d
      let d := if r.w0.testBit 21 then d.set1 TC_CAUSE_RANGE c else d
      if r.w0.testBit 22 then d.set1 TC_CAUSE_PFAIL c else d
    let ring := s.dev.f TC_RING_RING c
    let (ok, s) := if ringOwner s.dev ring ≠ (convOwner s.dev c, false) then (false, s) else ringPut s ring (leBytes 4 r.w0 ++ leBytes 4 r.w1 ++ leBytes 8 r.stamp)
    .next (if ok then s else (ringDrop s ring).onDev fun d => (d.set1 TC_CAUSE_RING_OVR c).incSat TC_CNT_RDROP c)

/-- An element is written to event-log slot i, whose ring has ESZ 0 (R494). -/
def elogPut (s : State) (i trail src stamp : Nat) : State :=
  if s.dev.on QM_ELOG_EN i then
    let r := s.dev.f QM_ELOG_RING i
    if ctx s r 1 / 256 % 4 ≠ 0 then ringDrop s r
    else
      let (ok, s) := ringPut s r (leBytes 4 (src + 65536 * trail) ++ leBytes 4 0 ++ leBytes 8 stamp)
      if ok then s else ringDrop s r
  else s

/-- The flits of claimed elements that wait in the crossing to lane L's transmitter (R28, R306). -/
def txWaiting (d : Dev) (L : Nat) : Nat :=
  (d.txMsgs.filter fun m => m.lane == L && m.elem != 0).foldl (fun n m => n + ((m.bytes.length + 9) / 10 - m.gone)) 0

/-- A lane claims a transmit element (R491, R493), unless the 32 flits of its crossing are full, which holds the queue manager
(R28, R29; notes/assumptions/8.md). An element whose LEN or CH the layout does not allow is completed unsent. -/
def laneClaim (s : State) (L : Nat) : State :=
  let d := s.dev
  if d.on QM_LTX_EN L && d.f LN_STATUS_STATE L = lnActive && d.on LN_STATUS_UP L && txWaiting d L < 32 then
    let r := d.f QM_LTX_RING L
    let (i, s) := if ringMine s r (laneOwner d L).1 3 then claim s r else (none, s)
    match i with
    | none => s
    | some i =>
      let (ws, s) := qmRead s (rElem s r i) 68
      match ws with
      | none => completeLost s r i
      | some ws =>
        let b := ws.flatMap fun w => leBytes 4 w
        let n := leNat (b.take 2)
        if 1 ≤ n && n ≤ 256 && (b[2]?).getD 0 = 2 then
          qSettle (s.onDev fun d => sendMsg d L 2 ((b.drop 16).take n) (i + 1))
        else completeLost s r i
  else s

/-- A DMA channel in ring mode claims its next descriptor (R479, R481). -/
def dmaClaim (s : State) (ch : Nat) : State :=
  if s.dev.f DM_STATUS_STATE ch = 4 then
    let r := s.dev.f DM_RING_RING ch
    let (i, s) := if ringMine s r (chanOwner s.dev ch) 0 then claim s r else (none, s)
    match i with
    | none => s
    | some i => s.onDev fun d =>
        ((d.setF DM_CUR_ADDR ch (rElem s r i)).setH .dmaElem ch (i + 1 : Nat)).setF DM_STATUS_STATE ch 1
  else s

/-- TOKEN_CLAIM (R489): lane l, or DMA channel c, claims an element once the token limits allow. -/
def execTokenClaim (c : Claimer) (s : State) : Host.Outcome State Fault Refusal :=
  if !domOn s.dev 0 then .next s
  else match c with
  | .lane l => .next (laneClaim s l)
  | .dma ch => .next (dmaClaim s ch)

/-! ### Lane rows that reach the rings -/

/-- Do `g` with the lead lane of l's bond, and let the queue manager take what results. -/
def onLead (s : State) (l : Lane) (g : Dev → Nat → Dev) : Host.Outcome State Fault Refusal :=
  .next (qSettle (s.onDev fun d => g d (leadLane d l)))

/-- The same with what lane l receives. -/
def rxLead (s : State) (l : Lane) (g : Dev → Nat → Dev) : Host.Outcome State Fault Refusal :=
  onLead s l fun d L => d.heard l fun d => g d L

/-- ACK_FLIT (R308, R310, R493). -/
def execAckFlit (l : Lane) (pay : BitVec 104) (s : State) : Host.Outcome State Fault Refusal :=
  rxLead s l fun d L => ackFlit d L pay.toNat

/-- LINK_DOWN (R309, R310). -/
def execLinkDown (l : Lane) (s : State) : Host.Outcome State Fault Refusal :=
  onLead s l fun d L => if d.f LN_STATUS_STATE L = lnActive then linkDown d L else d

/-- REPLAY_TIMEOUT (R311). -/
def execReplayTimeout (l : Lane) (s : State) : Host.Outcome State Fault Refusal :=
  onLead s l fun d L => if d.f LN_STATUS_STATE L = lnActive then replay d L else d

/-- TS2_RECOV_RECEIVED (R297). -/
def execTs2RecovReceived (l : Lane) (s : State) : Host.Outcome State Fault Refusal :=
  rxLead s l fun d L => if d.f LN_STATUS_STATE L = lnActive then replayLimit d L false else d

/-- IDENTITY_FRAME (R313): the frame arrived on channel 1. -/
def execIdentityFrame (l : Lane) (frame : List Byte) (s : State) : Host.Outcome State Fault Refusal :=
  rxLead s l fun d L => identityFrame d L (frame.map fun b => b.toNat)

/-- IDENTITY_TIMEOUT (R313): 1 ms after ACTIVE without an identity. -/
def execIdentityTimeout (l : Lane) (s : State) : Host.Outcome State Fault Refusal :=
  onLead s l fun d L =>
    if d.f LN_STATUS_STATE L = lnActive && !d.on LN_STATUS_UP L then linkDown (d.set1 LN_CAUSE_TRAIN_FAIL L) L else d

end Sys2Proof.Machine
end

