-- ==== Sys2Proof/Machine/Trail.lean ====
section
/-! DEFINITION. The trail fabric (spec/13, R462 to R473). -/

namespace Sys2Proof.Machine

/-- The owner of something an identifier names: reserved, open to every partition, or a partition's. -/
inductive IdOwner where
  | reserved
  | free
  | part (p : Nat)
  deriving DecidableEq, Repr

/-- The enabled ring that raises ring event e, if one does. -/
def evtRing (s : State) (e : Nat) : Option Nat :=
  (s.mem.find? fun c =>
    isRingCtx c.1 && c.1 % 0x20 == 5 && c.2.getLsbD 4 && ctx s ((c.1 - 0x30000000) / 0x20) 1 / 65536 % 256 == e).map
    fun c => (c.1 - 0x30000000) / 0x20

/-- Owner of a source (R462). A ring event that no enabled ring raises is nobody's. -/
def srcOwner (s : State) (id : Nat) : IdOwner :=
  let d := s.dev
  let i := id % 256
  if id = 0xFFF then .free
  else match id / 256 with
  | 0 => if i % 16 ≤ 9 then .part (railOwner d (i / 16)).1 else .reserved
  | 1 => .part (phaseOwner d (i / 4)).1
  | 2 =>
    if i < 16 then .free
    else if i ≤ 20 then .part (storeOwner d).1
    else if 32 ≤ i && i < 56 then .part (laneOwner d ((i - 32) / 2)).1
    else if 64 ≤ i && i < 72 then .part (convOwner d (i - 64))
    else if 96 ≤ i && i < 128 then .part (chanOwner d (i - 96))
    else if 128 ≤ i && i < 160 then .part (timerOwner d ((i - 128) / 2))
    else .reserved
  | 3 => match evtRing s i with
    | some r => .part (ringOwner d r).1
    | none => .part 8
  | 4 => if i < 64 then .part (padOwner d (i / 2)) else .reserved
  | _ => .reserved

/-- Owner of a gate (R463). -/
def gateOwner (d : Dev) (id : Nat) : IdOwner :=
  let i := id % 256
  if id = 0xFFF then .free
  else match id / 256 with
  | 0 => if i % 16 ≤ 3 then .part (railOwner d (i / 16)).1 else .reserved
  | 1 => if i < 64 then .part (phaseOwner d i).1 else .reserved
  | 2 =>
    if i < 12 then .part (laneOwner d i).1
    else if i = 16 then .part (storeOwner d).1
    else if 32 ≤ i && i < 48 then .part (timerOwner d (i - 32))
    else .reserved
  | 4 => if i < 32 then .part (padOwner d i) else .reserved
  | 5 => if i < 128 then .part (i / 16) else .reserved
  | _ => .reserved

/-- Level of a gate (R463, R468). Every level a class 0 to 5 gate names is read as it stands. -/
def gateLevel (d : Dev) (id : Nat) : Bool :=
  let i := id % 256
  match id / 256 with
  | 0 =>
    let k := i / 16
    match i % 16 with
    | 0 => rlState d k == rlOn
    | 1 => d.on RL_STATUS_PG k
    | 2 => d.f FL_STATUS_MODE k == flRun
    | _ => d.on FL_STATUS_FROZEN k
  | 1 => phState d i == phSwitching
  | 2 => if i < 12 then d.on LN_STATUS_UP i else if i = 16 then d.f ST_STATUS_STATE == stRun else tmOut d (i - 32)
  | 4 => (d.f PX_GIN_IN).testBit i
  | _ => (d.f TR_GATESW_GATE (i / 16)).testBit (i % 16)

/-- Owner of a consumer (R464); warden lines are partition 0's, sealed. -/
def consOwner (d : Dev) (id : Nat) : IdOwner :=
  let i := id % 256
  if id = 0xFFF then .free
  else match id / 256 with
  | 0 => .free
  | 1 =>
    if i < 8 then .part (convOwner d i)
    else if 32 ≤ i && i < 64 then .part (chanOwner d (i - 32))
    else if 64 ≤ i && i < 96 then .part (timerOwner d ((i - 64) / 2))
    else .reserved
  | 2 => if i < 128 then .part (d.f CH_CORETAG_PART (i / 32)) else if i < 160 then .part 0 else .reserved
  | 3 => .part (ringOwner d (d.f QM_ELOG_RING i)).1
  | 4 => if i < 32 then .part (padOwner d i) else .reserved
  | _ => .reserved

/-- Whether trail owner p may name it. -/
def IdOwner.ok (o : IdOwner) (p : Nat) : Bool :=
  match o with
  | .reserved => false
  | .free => true
  | .part q => q == p

/-- Whether a consumer is a line of the warden. -/
def isWardenLine (c : Nat) : Bool := 0x280 ≤ c && c < 0x2A0

/-- What a word written to TR_SRC (0), TR_DSTA (1) or TR_DSTB (2) names. The gate counts when GEN applies it. -/
def trailNames (s : State) (reg : Nat) (w : Word) : List IdOwner :=
  if reg = 0 then
    let g := gateOwner s.dev (bitsOf w 12 12)
    [srcOwner s (bitsOf w 0 12), if w.getLsbD 24 || g = .reserved then g else .free]
  else [consOwner s.dev (bitsOf w 0 12), consOwner s.dev (bitsOf w 16 12)]

/-- What becomes of a write of a trail register. -/
inductive TrailWrite where
  | stored
  | refused
  | badCode
  deriving DecidableEq, Repr

/-- The checks of R465 on a write to register `reg` of trail t by an initiator with the tag. -/
def trailCheck (s : State) (tag : Nat × Bool) (t reg : Nat) (w : Word) : TrailWrite :=
  let o := trailOwner s.dev t
  let l := trailNames s reg w
  let warden := reg ≠ 0 && (isWardenLine (bitsOf w 0 12) || isWardenLine (bitsOf w 16 12))
  if !passes tag o then .refused
  else if l.contains .reserved then .badCode
  else if (l.any fun x => !x.ok o.1) || (warden && !o.2) then .refused
  else .stored

/-- The word the fabric goes by for register reg of trail t: in the GCLK cycle of a write, the one from before it (R471). -/
def trWord (d : Dev) (t reg : Nat) : Word :=
  let old := d.hn .trOld (3 * t + reg)
  if old ≠ 0 && d.hn .trCyc = d.now / 2 + 1 then BitVec.ofNat 32 (old - 1)
  else d.r (if reg = 0 then TR_SRC else if reg = 1 then TR_DSTA else TR_DSTB) t

/-- Whether the source register of trail t has been written in the present GCLK cycle. -/
def srcFresh (d : Dev) (t : Nat) : Bool := d.hon .trOld (3 * t) && d.hn .trCyc == d.now / 2 + 1

/-- Keep what register reg of trail t holds for the rest of this GCLK cycle; what earlier cycles kept is done with. -/
def trKeep (d : Dev) (t reg : Nat) : Dev :=
  let d := if d.hn .trCyc = d.now / 2 + 1 then d
    else { d with hid := d.hid.filter fun c =>
      !(c.1 % 1024 == Hid.trOld.ctorIdx || c.1 % 1024 == Hid.trOldDiv.ctorIdx) }.setH .trCyc 0 (d.now / 2 + 1 : Nat)
  if d.hon .trOld (3 * t + reg) then d
  else
    let d := d.setH .trOld (3 * t + reg) ((trWord d t reg).toNat + 1 : Nat)
    if reg = 0 then d.setH .trOldDiv t (d.h .trDiv t) else d

/-- A trail register takes the word (R465, R467, R471). -/
def trailStore (d : Dev) (tag : Nat × Bool) (t reg : Nat) (w : Word) : Dev :=
  let d := trKeep d t reg
  match reg with
  | 0 =>
    let w := w &&& 0x7FFFFFFF
    let w := if tag.2 then w else putBits w 30 1 (d.f TR_SRC_SEALED t)
    (d.setR TR_SRC t w).setH .trDiv t 0
  | 1 => d.setR TR_DSTA t (w &&& 0x0FFF0FFF)
  | _ => d.setR TR_DSTB t (w &&& 0x0FFF0FFF)

/-! ### Routing (R467 to R470) -/

/-- The block that raises a source and its instance there (R462): a rail, phase, comparator, lane, converter, channel,
timer, ring event or pad. A source of none (TR_FIRE) is of no block. -/
def srcUnit (id : Nat) : Option (Nat × Nat) :=
  let i := id % 256
  if id = 0xFFF then none
  else match id / 256 with
  | 0 =>
    let j := i % 16
    some (if j < 4 then 0 else if 6 ≤ j && j ≤ 8 then 4 else 3, i / 16)
  | 1 => some (4, i / 4)
  | 2 =>
    if i < 8 then some (4, i) else if i < 16 then some (4, i - 8) else if i < 32 then some (5, 0)
    else if i < 64 then some (6, (i - 32) / 2) else if i < 96 then some (8, i - 64)
    else if i < 128 then some (12, i - 96) else some (16, (i - 128) / 2)
  | 3 => some (13, i)
  | _ => some (19, i / 2)

/-- Whether event e counts as earlier than x: by stamp, of one source block by instance, else by trail (R31). -/
def portBefore (e x : PortEv) : Bool :=
  if e.stamp ≠ x.stamp then e.stamp < x.stamp
  else match srcUnit e.src, srcUnit x.src with
    | some (b, m), some (c, n) => if b = c && m ≠ n then m < n else e.trail < x.trail
    | _, _ => e.trail < x.trail

/-- Put an event at its place in its consumer's port: before the first waiting one there that is later (R31, R470). -/
def portIns (e : PortEv) : List PortEv → List PortEv
  | [] => [e]
  | x :: t => if x.cons = e.cons && portBefore e x then e :: x :: t else x :: portIns e t

/-- An event reaches the port of a consumer; a port with four entries drops it. -/
def portPush (d : Dev) (e : PortEv) : Dev :=
  if (d.ports.filter fun x => x.cons == e.cons).length < 4 then { d with ports := portIns e d.ports }
  else (d.set1 TR_CAUSE_PORT_OVR).incSat TR_DROPCNT_PORT

/-- A passing event goes to every consumer of trail t (R467). -/
def trailPass (d : Dev) (t src stamp : Nat) : Dev :=
  let a := trWord d t 1
  let b := trWord d t 2
  let cs := [valOf a TR_DSTA_C0, valOf a TR_DSTA_C1, valOf b TR_DSTB_C2, valOf b TR_DSTB_C3]
  d.eachIn (cs.filter fun c => c != 0xFFF) fun d c => portPush d { cons := c, trail := t, src := src, stamp := stamp }

/-- The level of gate id that event e meets: the one at the end of the cycle of its capture, which comes by the same path with
the same delay (R468). -/
def gateFor (d : Dev) (e : Ev) (id : Nat) : Bool :=
  match e.gates.bind fun l => l.find? fun x => x.1 == id with
  | some x => x.2
  | none => gateLevel d id

/-- The divider count that an event on trail t meets, and the count it leaves (R467, R471). -/
def divOf (d : Dev) (t : Nat) : Int := if srcFresh d t then d.h .trOldDiv t else d.h .trDiv t
def setDiv (d : Dev) (t : Nat) (n : Int) : Dev := d.setH (if srcFresh d t then .trOldDiv else .trDiv) t n

/-- An event of trail t's source (R467). -/
def trailRoute (d : Dev) (t : Nat) (e : Ev) : Dev :=
  let w := trWord d t 0
  if valOf w TR_SRC_GEN ≠ 0 && gateFor d e (valOf w TR_SRC_GATE) == (valOf w TR_SRC_GINV != 0) then d
  else if (valOf w TR_SRC_DIV : Int) < divOf d t + 1 then trailPass (setDiv d t 0) t e.src e.stamp
  else setDiv d t (divOf d t + 1)

/-- The trails in service whose source is `src`, as the fabric has them: every other trail holds EN 0. -/
def trailsOf (d : Dev) (src : Nat) : List Nat :=
  let now := d.regs.filterMap fun c => TR_SRC.find? c.1
  let old := d.hid.filterMap fun c =>
    let i := c.1 / 1024
    if c.1 % 1024 == Hid.trOld.ctorIdx && i % 3 == 0 && !now.contains (i / 3) then some (i / 3) else none
  (now ++ old).filter fun t => valOf (trWord d t 0) TR_SRC_EN != 0 && valOf (trWord d t 0) TR_SRC_SRC == src

/-- At the end of the cycle of its capture, an event takes the levels of its trails' gates along (R468). -/
def gatesTaken (d : Dev) : Dev :=
  if d.evq.all fun e => e.gates.isSome then d
  else { d with evq := d.evq.map fun e =>
    if e.gates.isSome then e
    else { e with gates := some ((trailsOf d e.src).map fun t =>
      let id := valOf (trWord d t 0) TR_SRC_GATE
      (id, gateLevel d id)) } }

/-- TRAIL_EVENT (R467, R472): the oldest event that waits enters the fabric and is routed. -/
def execTrailEvent (s : State) : Host.Outcome State Fault Refusal :=
  s.ok fun d => d.when (domOn d 0) fun d =>
    match d.evq with
    | [] => d
    | e :: t => ({ d with evq := t } : Dev).eachIn (trailsOf d e.src) fun d t => trailRoute d t e

/-! ### Delivery (R466, R473, R480, R604) -/

/-- A trigger of DMA channel ch (R480). -/
def dmaTrig (d : Dev) (ch : Nat) : Dev :=
  if d.f DM_STATUS_STATE ch = 2 then d.setF DM_STATUS_STATE ch 3
  else if d.on DM_STATUS_TPEND ch then d.set1 DM_CAUSE_TOVR ch
  else d.setF DM_STATUS_TPEND ch 1

/-- Trail line i of core c, 4 the warden, becomes pending (R604). -/
def lineSet (d : Dev) (c i : Nat) : Dev :=
  if d.hbit .cLines c i then d.setHbit .cLineOvr c i true else d.setHbit .cLines c i true

/-- An event on its way to a core or warden line passes the crossing of 16 events, which drops when full; the line shows
the loss (R28, R29, R473; notes/assumptions/56.md). -/
def lineCross (d : Dev) (c i : Nat) : Dev :=
  if 16 ≤ d.lineFill then d.setHbit .cLineOvr c i true else lineSet d.lineIn c i

/-- An event delivered to its consumer. Those of an event log wait in its crossing of 16 events (R473). -/
def deliver (s : State) (e : PortEv) : State :=
  let i := e.cons % 256
  match e.cons / 256 with
  | 0 =>
    let o := (trailOwner s.dev e.trail).1
    s.onDev fun d => { d with gvTrigs := d.gvTrigs ++ [{ grove := i / 16, kind := 2, sel := i % 16 + 256 * o, stamp := e.stamp }] }
  | 1 =>
    s.onDev fun d =>
      if i < 8 then (if d.f TC_CFG_TSRC i = 2 then tcTrigger d i else d)
      else if i < 64 then dmaTrig d (i - 32)
      else if i % 2 = 0 then tmCapture d ((i - 64) / 2) e.stamp
      else tmStart d ((i - 65) / 2)
  | 2 => s.onDev fun d => lineCross d (i / 32) (i % 32)
  | 3 =>
    if (s.dev.ports.filter fun x => x.cons == 0x1000 + i).length < 16 then
      s.onDev fun d => { d with ports := d.ports ++ [{ e with cons := 0x1000 + i }] }
    else if s.dev.on QM_ELOG_EN i then ringDrop s (s.dev.f QM_ELOG_RING i) else s
  | _ => s.onDev fun d => padEvent d i

/-- Whether the trail's owner still owns its consumer and its source (R399, R466). -/
def deliverOk (s : State) (e : PortEv) : Bool :=
  let o := trailOwner s.dev e.trail
  (consOwner s.dev e.cons).ok o.1 && (!isWardenLine e.cons || o.2) && (srcOwner s e.src).ok o.1

/-- CONSUMER_DELIVERY (R466, R470, R473): the port of a consumer hands on its first event. -/
def execConsumerDelivery (cons : BitVec 12) (s : State) : Host.Outcome State Fault Refusal :=
  match s.dev.ports.find? fun e => e.cons == cons.toNat && domOn s.dev 0 with
  | none => .next s
  | some e =>
    let s := s.onDev fun d => { d with ports := d.ports.erase e }
    if deliverOk s e then .next (deliver s e)
    else
      let o := trailOwner s.dev e.trail
      let p := match consOwner s.dev e.cons with
        | .part p => p
        | _ => 0
      .next (s.onDev fun d => refuse d o.1 o.2 3 (p, isWardenLine e.cons) true e.trail e.trail)

/-- ELOG_WRITE (R494): an event-log slot takes the first event out of its crossing. -/
def execElogWrite (i : Fin 256) (s : State) : Host.Outcome State Fault Refusal :=
  match s.dev.ports.find? fun e => e.cons == 0x1000 + i.val && domOn s.dev 0 with
  | none => .next s
  | some e =>
    let s := s.onDev fun d => { d with ports := d.ports.erase e }
    .next (elogPut s i e.trail e.src e.stamp)

end Sys2Proof.Machine
end

