-- ==== Sys2Proof/Machine/Engines.lean ====
section
/-! DEFINITION. What the writes that start an engine do: the fuse engine (spec/11, R416 to R420), the verification engine
(R422) and the DMA channels (spec/13, R478 to R481), with the steps the fuse engine takes. -/

namespace Sys2Proof.Machine

/-! ### The fuse engine -/

/-- Byte b of the fuse array. -/
def fuseByte (s : State) (b : Nat) : Nat := s.mb (fuseKey b)

/-- The 256 bytes of charter slot j in the array. -/
def slotBytes (s : State) (j : Nat) : List Nat := s.mbs (fuseKey (0x400 + 0x100 * j)) 256

/-- The fuses to blow for `bytes` at array offset o, in ascending address order: every 1 bit of every byte. -/
def fusesOf (o : Nat) (bytes : List Nat) : List (Nat × Nat) :=
  (List.range bytes.length).flatMap fun i =>
    ((List.range 8).filter fun b => ((bytes[i]?).getD 0).testBit b).map fun b => (o + i, b)

/-- The engine stops with a result: FUSE_DONE for 0, FUSE_FAIL otherwise (R416, R417). -/
def fuseStop (s : State) (res : Nat) : State :=
  s.onDev fun d =>
    let d := ((({ d with fuseOp := none } : Dev).setF CH_FPROG_BUSY 0 0).setF CH_FPROG_RES 0 res)
    if res = 0 then d.set1 CH_CAUSE_FUSE_DONE else d.set1 CH_CAUSE_FUSE_FAIL

/-- Bytes the engine reads from SRAM at CH_FPROG_SRC, by requester slot 8 (R496); none where the access fails. -/
def engineRead (s : State) (a : Nat) : Nat → Option (List Nat) × State
  | 0 => (some [], s)
  | n + 1 =>
    match sramBank a with
    | none => (none, s)
    | some b =>
      if sramOn s a then
        match sramRead s b a 4 8 with
        | (.ok v, s) =>
          let (l, s) := engineRead s (a + 4) n
          (l.map fun l => leBytes 4 v ++ l, s)
        | (_, s) => (none, s)
      else (none, s)

/-- A fuse pulse begins: it lasts 2,000 PCLK cycles (R417). -/
def pulseStart (d : Dev) : Dev := d.setH .fuseAt 0 (d.now + 20000 : Nat)

/-- The fuse engine is started (R416 to R420): the target is judged, and the fuses to blow are taken from the source. A slot or key that is not blank, an image whose content is not valid, and a retirement of a slot that is not valid are
refused; a brown-out warning blocks the first pulse (R417). -/
def fuseStart (s : State) (src : State → Nat → Option (List Nat) × State) : State :=
  let d := s.dev
  if d.fuseOp.isSome then s.onDev fun d => d.set1 CH_CAUSE_ACC_ERR
  else
    let op := d.f CH_FPROG_OP
    let begin_ (s : State) (idx : Nat) (todo : List (Nat × Nat)) (image : List Nat) : State :=
      if d.on PX_STATUS_BOR && todo != [] then fuseStop s 3 else s.onDev fun d => pulseStart (({ d with fuseOp := some { op := op, idx := idx, todo := todo, sealing := false, image := image } } : Dev).set1 CH_FPROG_BUSY)
    match op with
    | 1 =>
      let j := d.f CH_FPROG_SLOT
      if !slotBlank (slotBytes s j) then fuseStop s 1
      else match src s 64 with
        | (none, s) => fuseStop s 1
        | (some b, s) =>
          if slotContent b then begin_ s j (fusesOf (0x400 + 0x100 * j) (b.take 0xFE)) (b.take 0xFE)
          else fuseStop s 1
    | 2 =>
      let j := d.f CH_FPROG_SLOT
      if slotValid (slotBytes s j) then begin_ s j (fusesOf (0x4FF + 0x100 * j) [0xFF]) [] else fuseStop s 1
    | 3 =>
      let i := d.f CH_FPROG_KEY
      let blank := (s.mbs (fuseKey (0x40 + 0x20 * i)) 32 ++ s.mbs (fuseKey (0x140 + 4 * i)) 4).all fun x => x == 0
      if !blank then fuseStop s 1
      else match src s 9 with
        | (none, s) => fuseStop s 1
        | (some b, s) =>
          begin_ s i (fusesOf (0x40 + 0x20 * i) (b.take 32) ++ fusesOf (0x140 + 4 * i) (b.drop 32)) b
    | 4 =>
      let i := d.f CH_FPROG_KEY
      if fuseByte s (0x140 + 4 * i) % 4 = 0 then fuseStop s 1 else begin_ s i (fusesOf (0x142 + 4 * i) [0xFF]) []
    | _ => s

/-- A write of 1 to CH_FPROG.GO: the source is SRAM at CH_FPROG_SRC. -/
def fuseGo (s : State) : State := fuseStart s fun s n => engineRead s (s.dev.f CH_FPROG_SRC_ADDR / 4 * 4) n

/-- Whether the slot that would govern after a reset differs from the one that governs (R415, R418). -/
def fusePending (s : State) : Bool :=
  let next := (List.range 4).foldl (fun a j =>
    if slotValid (slotBytes s j) && !slotRetired (slotBytes s j) then some j else a) none
  let now := if s.dev.on CH_STATUS_DEFAULT then none else some (s.dev.f CH_STATUS_SLOT)
  next != now

/-- The engine stops after pulses; PENDING follows what the slots then hold, whatever the result (R410, R418). -/
def fuseEnd (s : State) (op res : Nat) : State :=
  let s := fuseStop s res
  if op ≤ 2 then s.onDev fun d => d.setF CH_STATUS_PENDING 0 (b2i (fusePending s)) else s

/-- One fuse pulse ends: its fuse reads 1 (R417). A brown-out warning lets no further pulse start. -/
def fusePulse (s : State) : State :=
  match s.dev.fuseOp with
  | none => s
  | some x =>
    match x.todo with
    | [] => s
    | (b, i) :: t =>
      if s.dev.now < s.dev.hn .fuseAt then s else
      let s := s.setMb (fuseKey b) (fuseByte s b ||| 2 ^ i)
      let s := s.onDev fun d => pulseStart { d with fuseOp := some { x with todo := t } }
      if s.dev.on PX_STATUS_BOR && t != [] then fuseEnd s x.op 3 else s

/-- The pulses are done: the read-back, then SEAL for a slot (R416), or the end of the operation. -/
def fuseOpDone (s : State) : State :=
  match s.dev.fuseOp with
  | none => s
  | some x =>
    if x.todo != [] then s
    else if x.op = 1 && !x.sealing then
      let b := slotBytes s x.idx
      if b.take 0xFE == x.image && slotContent b then
        if s.dev.on PX_STATUS_BOR then fuseStop s 3
        else s.onDev fun d => pulseStart { d with fuseOp := some { x with todo := fusesOf (0x4FE + 0x100 * x.idx) [0xFF], sealing := true } }
      else fuseStop s 2
    else if x.op = 3
        && s.mbs (fuseKey (0x40 + 0x20 * x.idx)) 32 ++ s.mbs (fuseKey (0x140 + 4 * x.idx)) 4 != x.image then fuseStop s 2
    else fuseEnd s x.op 0

/-- FUSE_PULSE_DONE (R417). -/
def execFusePulseDone (s : State) : Host.Outcome State Fault Refusal := .next (if domOn s.dev 0 then fusePulse s else s)

/-- FUSE_OP_DONE (R416). -/
def execFuseOpDone (s : State) : Host.Outcome State Fault Refusal := .next (if domOn s.dev 0 then fuseOpDone s else s)

/-! ### The verification engine and the DMA channels -/

/-- A write of 1 to CH_VCTL.GO (R422). One that comes while a verification runs does not start another; the spec states
nothing more for it. -/
def verifyGo (d : Dev) : Dev := d.set1 CH_VCTL_BUSY

/-- START written (R479, R481). -/
def dmaStart (s : State) (ch : Nat) : State :=
  let d := s.dev
  if d.f DM_STATUS_STATE ch ≠ 0 then s
  else if d.on DM_RING_EN ch then
    if ctx s (d.f DM_RING_RING ch) 1 / 256 % 4 ≠ 0 then s.onDev fun d => d.set1 DM_CAUSE_ACC_ERR ch
    else s.onDev fun d => d.setF DM_STATUS_STATE ch 4
  else s.onDev fun d => (d.setF DM_STATUS_STATE ch 1).setF DM_CUR_ADDR ch (d.f DM_FIRST_ADDR ch * 16 : Nat)

/-- The channel enters STOPPED. -/
def dmaStopped (d : Dev) (ch : Nat) : Dev :=
  ((d.setF DM_STATUS_STATE ch 5).setF DM_STATUS_STOP_PEND ch 0).set1 DM_CAUSE_STOPPED ch

/-- The address of the element that a channel in ring mode takes next (R478). -/
def dmaNextElem (s : State) (ch : Nat) : Nat :=
  let r := s.dev.f DM_RING_RING ch
  rElem s r (rNext s r)

/-- STOP written (R478, R479): at once in RING_EMPTY and WAIT, at the boundary in FETCH and RUN. -/
def dmaStop (s : State) (ch : Nat) : State :=
  match s.dev.f DM_STATUS_STATE ch with
  | 1 | 3 => s.onDev fun d => d.set1 DM_STATUS_STOP_PEND ch
  | 2 => s.onDev fun d => dmaStopped d ch
  | 4 => s.onDev fun d => dmaStopped (d.setF DM_CUR_ADDR ch (dmaNextElem s ch)) ch
  | _ => s

/-- The element that channel ch holds under a token is done (R489). -/
def dmaElemDone (s : State) (ch : Nat) : State :=
  if s.dev.hon .dmaElem ch then
    (complete s (s.dev.f DM_RING_RING ch) (s.dev.hn .dmaElem ch - 1)).onDev fun d => d.setH .dmaElem ch 0
  else s

/-- CLR written (R479, R480). The channel is then done with an element it still held (R486; notes/assumptions/60.md). -/
def dmaClr (s : State) (ch : Nat) : State :=
  let s := s.onDev fun d => d.setF DM_STATUS_TPEND ch 0
  if 5 ≤ s.dev.f DM_STATUS_STATE ch then (dmaElemDone s ch).onDev fun d => d.setF DM_STATUS_STATE ch 0 else s

end Sys2Proof.Machine
end

