-- ==== Sys2Proof/Machine/CmdPort.lean ====
section
/-! DEFINITION. The command-port block: framing and checks of packets, streams, continuations, the command rings and the
root slots, and replies (spec/12, R427 to R438, R442 to R447, R452 to R455; spec/11, R400, R401). The rings and slots
are kept as lists of packets: the spec gives the rings of root firmware no contents a reader could see. -/

namespace Sys2Proof.Machine

/-- The opcodes the chapter assigns below 0xC0 (R460), by group of 16. -/
def assignedBits : List Nat :=
  [0x070F, 0, 0xFFFF, 0x0001, 0x0F3F, 0, 0x007F, 0x03FF, 0x001F, 0x00FF, 0x003F, 0x0FFF]

/-- The opcodes marked L (R453). -/
def laneBits : List Nat :=
  [0x0007, 0, 0x0001, 0x0001, 0x0001, 0, 0x0001, 0x0249, 0x0011, 0x0005, 0, 0x0001]

/-- Whether a list of group masks holds an opcode. -/
def opIn (l : List Nat) (op : Nat) : Bool := ((l[op / 16]?).getD 0).testBit (op % 16)

/-- Whether an opcode is assigned (R430, R455), is allowed on the lane port, or takes continuation (R435). -/
def opAssigned (op : Nat) : Bool := opIn assignedBits op || (0xF0 ≤ op && op ≤ 0xF6)
def opLane (op : Nat) : Bool := opIn laneBits op
def opCont (op : Nat) : Bool := op == 0xA2 || op == 0xBB

/-- Status codes (R432). -/
abbrev stOk : Nat := 0
abbrev stBusy : Nat := 1
abbrev stDenied : Nat := 2
abbrev stBadOp : Nat := 3
abbrev stBadParam : Nat := 4
abbrev stCrc : Nat := 5
abbrev stStale : Nat := 6
abbrev stAbsent_ : Nat := 7
abbrev stLocked : Nat := 8
abbrev stPartial : Nat := 9
abbrev stTimeout : Nat := 10
abbrev stVersion : Nat := 11

/-- The bytes of a reply (R431): its CRC covers bytes 0 to 5 and the data. -/
def replyBytes (status op rflags seq : Nat) (data : List Nat) : List Nat :=
  let h := [status, op, rflags, seq] ++ leBytes 2 data.length
  h ++ leBytes 2 (crc16 (h ++ data)) ++ data

/-- A stored reply resent with DUP set (R433). -/
def replyDup (b : List Nat) : List Nat :=
  replyBytes ((b[0]?).getD 0) ((b[1]?).getD 0) ((b[2]?).getD 0 ||| 4) ((b[3]?).getD 0) (b.drop 8)

/-- BUSY with PENDING (R433, R445). -/
def replyPending (op seq : Nat) : List Nat := replyBytes stBusy op 1 seq []

/-- What is kept of a stream. -/
def streamOf (d : Dev) (id : Nat) : Stream :=
  (d.streams.find? fun x => x.id == id).getD
    { id := id, used := false, seq := 0, crc := 0, busy := false, reply := [], unread := false }
def setStream (d : Dev) (x : Stream) : Dev := { d with streams := x :: d.streams.filter fun y => y.id != x.id }

/-- Whether the command ports run: SVC is released and on. -/
def portsRun (d : Dev) : Bool := d.hon .svcOn && domOn d 0

/-- The causes and counts of a reply for a partition; 8 where the packet named none (R446, R461). -/
def replyCount (d : Dev) (part status : Nat) : Dev :=
  let d := if status = stDenied then d.set1 CP_CAUSE_DENIED else d
  let d := if status = stStale then d.set1 CP_CAUSE_STALE else d
  let d := if status = stCrc then d.set1 CP_CAUSE_CRC else d
  if 8 ≤ part then d
  else if status = stOk || status = stPartial then d.incSat CP_PCNT_OK part
  else d.incSat CP_PCNT_ERR part

/-- A reply leaves by the port of its stream (R444, R445, R450, R452, R453): a mailbox takes it always, a lane where it was
asked for, PMBus in the process call whose packet it answers; else PMBus and SPI readers fetch it. -/
def replySend (d : Dev) (stream : Nat) (asked : Bool) (b : List Nat) : Dev :=
  if stream < 16 then
    if d.hn .pmbCall = stream + 1 + 16 * (b[3]?).getD 0 then ({ d with portOut := b } : Dev).setH .pmbCall 0 0 else d
  else if stream < 24 then
    let p := stream - 16
    let b4 := b ++ List.replicate ((4 - b.length % 4) % 4) 0
    let d := d.each (b4.length / 4) fun d j =>
      d.setR CP_MBX_RPL (p * 64 + j) (BitVec.ofNat 32 (leNat ((b4.drop (4 * j)).take 4)))
    (((d.setF CP_MBX_STAT_BUSY p 0).set1 CP_MBX_STAT_DONE p).setF CP_MBX_STAT_LEN p b.length).set1 CP_MBX_CAUSE_DONE p
  else if asked && d.f LN_STATUS_STATE (stream - 24) = lnActive then sendMsg d (stream - 24) 0 b 0
  else d

/-- The reply to a new packet: stored for its stream (R434), counted and sent. -/
def replyStore (d : Dev) (stream seq crc part : Nat) (asked : Bool) (b : List Nat) : Dev :=
  let x := streamOf d stream
  let d := setStream d { x with used := true, seq := seq, crc := crc, busy := false, reply := b, unread := 8 ≤ stream && stream < 16 }
  replySend (replyCount d part ((b[0]?).getD 0)) stream asked b

/-- The reply to an accepted packet (R431, R434, R454): that of a lane which has left ACTIVE since is discarded,
and only the reply to the last packet accepted on a stream is kept. -/
def finish (d : Dev) (k : Packet) (status : Nat) (data : List Nat) : Dev :=
  let b := replyBytes status k.op (if 0xF0 ≤ k.op then 2 else 0) k.seq data
  let x := streamOf d k.stream
  if 24 ≤ k.stream && d.hn .lSess (k.stream - 24) ≠ k.sess then replyCount d k.part status
  else if x.seq = k.seq then replyStore d k.stream k.seq x.crc k.part (k.flags.testBit 0) b
  else replySend (replyCount d k.part status) k.stream (k.flags.testBit 0) b

/-- A BUSY without PENDING to a packet that leaves its ring (R434, R439): its stream is as it was before the packet, where
no later one was accepted on it. -/
def finishBusy (d : Dev) (k : Packet) : Dev :=
  let x := streamOf d k.stream
  let d := if x.seq = k.seq && x.busy then
      match k.was with
      | some (q, c, u) => setStream d { x with seq := q, crc := c, unread := u, busy := false }
      | none => setStream d { x with used := false, busy := false }
    else d
  replySend (replyCount d k.part stBusy) k.stream (k.flags.testBit 0) (replyBytes stBusy k.op 0 k.seq [])

/-- Whether a tag is allowed on a port (R396, R400, R453); `unit` is the mailbox or lane. -/
def portAllows (d : Dev) (port unit part : Nat) : Bool :=
  match port with
  | 0 => (portsOf d part).testBit 0
  | 1 => (portsOf d part).testBit 1
  | 2 => part == (laneOwner d unit).1 && (portsOf d part).testBit 2
  | _ => part == unit && (portsOf d part).testBit 3

/-- The stream of a packet. -/
def streamFor (port unit part : Nat) : Nat :=
  match port with
  | 0 => part
  | 1 => 8 + part
  | 2 => 24 + unit
  | _ => 16 + unit

/-- Whether the root parameters are those of R456 and R458. -/
def rootParamsOk (op : Nat) (ps : List Nat) : Bool :=
  match op with
  | 0xF3 => ps == [0x3C, 0x5A]
  | 0xF4 => ps.length == 1 && (ps[0]?).getD 16 < 16
  | 0xF6 => ps.length ≤ 16
  | _ => ps.isEmpty

/-- The check of R401 on a root opcode's tag, made after the parameter check for RAIL_OFF. -/
def rootAllowed (d : Dev) (op part : Nat) (ps : List Nat) : Bool :=
  match op with
  | 0xF0 | 0xF3 => part == 0
  | 0xF4 => (railOwner d ((ps[0]?).getD 0)).1 == part
  | _ => true

/-- What a submission comes to: a reply at once, or the packet is accepted and executes. -/
abbrev Submitted := Option (List Nat) × Dev

/-- A reply to a new packet at once. -/
def answer (d : Dev) (k : Packet) (crc status : Nat) (root : Bool) (data : List Nat) : Submitted :=
  let b := replyBytes status k.op (if root then 2 else 0) k.seq data
  (some b, replyStore d k.stream k.seq crc k.part (k.flags.testBit 0) b)

/-- A BUSY without PENDING, which leaves the stream as it was (R434). -/
def answerBusy (d : Dev) (k : Packet) : Submitted :=
  let b := replyBytes stBusy k.op 0 k.seq []
  (some b, replySend (replyCount d k.part stBusy) k.stream (k.flags.testBit 0) b)

/-- The partition a packet comes from: the port's own of a mailbox or a lane, else the tag (R396). -/
def sender (d : Dev) (k : Packet) : Nat :=
  if k.port = 2 then (laneOwner d (k.stream - 24)).1 else if k.port = 3 then k.stream - 16 else k.part

/-- A refused packet is recorded (R405, R408, R430): kind 6, 7 for a root opcode. -/
def answerDenied (d : Dev) (k : Packet) (crc : Nat) (owner : Nat × Bool) : Submitted :=
  let root := decide (0xF0 ≤ k.op)
  let k := { k with part := sender d k }
  answer (refuse d k.part false (if root then 7 else 6) owner true k.port (k.op + 256 * k.seq)) k crc stDenied root []

/-- The packet is accepted: its stream is busy until the reply, and it joins a ring or a root slot (R437, R455). A
packet accepted on a ring wakes the device from Quiet (R525). -/
def accept (d : Dev) (k : Packet) (crc : Nat) : Submitted :=
  let x := streamOf d k.stream
  let k := { k with was := if x.used then some (x.seq, x.crc, x.unread) else none }
  let d := setStream d { x with used := true, seq := k.seq, crc := crc, busy := true, unread := false }
  if 0xF0 ≤ k.op then (none, (({ d with rootq := d.rootq ++ [k] } : Dev).set1 CP_STATUS_ROOT_BUSY))
  else
    let d := { d with rings := d.rings ++ [k] }
    (none, quietWake (d.setBit CP_STATUS_RINGS 0 k.part true))

/-- Execution is asked of a packet with its parameters complete (R401, R437, R455, R458). -/
def enqueue (d : Dev) (k : Packet) (crc : Nat) : Submitted :=
  if 0xF0 ≤ k.op then
    if d.rootq.any fun q => q.port == k.port && (k.port != 3 || q.stream == k.stream) then answerBusy d k
    else if k.op ≠ 0xF4 && !rootAllowed d k.op k.part k.params then answerDenied d k crc (0, false)
    else if !rootParamsOk k.op k.params then answer d k crc stBadParam true []
    else if !rootAllowed d k.op k.part k.params then answerDenied d k crc (railOwner d ((k.params[0]?).getD 0))
    else accept d k crc
  else if 16 ≤ (d.rings.filter fun q => q.part == k.part).length then answerBusy (d.set1 CP_CAUSE_RING_FULL) k
  else accept d k crc

/-- The rules of continuation (R435, R436) on a new packet that may execute. -/
def continuation (d : Dev) (k : Packet) (crc : Nat) : Submitted :=
  let more := k.flags.testBit 1
  let drop (d : Dev) : Dev := { d with conts := d.conts.filter fun (c : Cont) => c.stream != k.stream }
  let abandon (d : Dev) : Dev := (drop d).set1 CP_CAUSE_REASM
  match d.conts.find? fun c => c.stream == k.stream with
  | some c =>
    if c.op ≠ k.op || k.seq ≠ (c.seq + 1) % 256 then answer (abandon d) k crc stStale false []
    else
      let ps := c.params ++ k.params
      if 4096 < ps.length then answer (abandon d) k crc stBadParam false []
      else if more then
        let d := drop d
        answer { d with conts := d.conts ++ [{ c with seq := k.seq, params := ps }] } k crc stPartial false (leBytes 4 ps.length)
      else
        match enqueue d { k with params := ps } crc with
        | (none, d) => (none, drop d)
        | (some b, d) => (some b, if (b[0]?).getD 0 = stBusy then d else drop d)
  | none =>
    if !more then enqueue d k crc
    else if !opCont k.op then answer d k crc stBadParam (0xF0 ≤ k.op) []
    else
      answer { d with conts := d.conts ++ [{ stream := k.stream, op := k.op, seq := k.seq, params := k.params }] }
        k crc stPartial false (leBytes 4 k.params.length)

/-- A packet of bytes `b` arrives at a port (R429, R430, R433); `unit` is the mailbox or lane. -/
def submit (d : Dev) (port unit : Nat) (b : List Nat) : Submitted :=
  let at_ (i : Nat) : Nat := (b[i]?).getD 0
  let op := at_ 0
  let flags := at_ 1
  let part := at_ 2 % 16
  let seq := at_ 3
  let crc := at_ 6 + 256 * at_ 7
  let len := at_ 4 + 256 * at_ 5
  let asked := flags.testBit 0
  let ps := b.drop 8
  let plain (d : Dev) (stream part status : Nat) : Submitted :=
    let r := replyBytes status op 0 seq []
    (some r, replySend (replyCount d part status) stream asked r)
  let here := streamFor port unit (part % 8)
  if b.length < 8 || 248 < len || b.length ≠ 8 + len || crc16 (b.take 6 ++ ps) ≠ crc then plain d here 8 stCrc
  else if at_ 2 / 16 ≠ port || 4 ≤ flags || 8 ≤ part then plain d here 8 stBadParam
  else
    let x := streamOf d here
    let dist := (seq + 256 - x.seq) % 256
    let k : Packet :=
      { stream := here, op := op, flags := flags, part := part, port := port, seq := seq, params := ps, stamp := d.now,
        sess := if port = 2 then d.hn .lSess unit else 0 }
    if x.used && dist = 0 && crc = x.crc then
      let r := if x.busy then replyPending op seq else replyDup x.reply
      (some r, replySend d here asked r)
    else if x.used && (dist = 0 || 128 ≤ dist) then plain d here part stStale
    else
      let group := if 0xF0 ≤ op then 15 else op / 16
      if !portAllows d port unit part || !(opmaskOf d part).testBit group then answerDenied d k crc (0, false)
      else if port = 2 && (0xF0 ≤ op || !opLane op || !partnerCap d unit 6) then answerDenied d k crc (0, false)
      else if !opAssigned op then answer d k crc stBadOp (0xF0 ≤ op) []
      else continuation d k crc

/-- The messages the lanes have received on channel 0 go to the lane port (R307, R453), which runs while LANE_EN is 1. -/
def takePortMsgs (d : Dev) : Dev :=
  let l := d.portMsgs
  let d : Dev := { d with portMsgs := [] }
  if d.on CP_CFG_LANE_EN && portsRun d then d.eachIn l fun d m => (submit d 2 m.lane m.bytes).2 else d

/-- MSG_FLIT (R306 to R308, R453, R492): `pay` is the flit's payload and `stamp` its stamp. -/
def execMsgFlit (l : Lane) (pay : BitVec 104) (stamp : BitVec 64) (s : State) : Host.Outcome State Fault Refusal :=
  .next ((qSettle (s.onDev fun d => d.heard l fun d => msgFlit d (leadLane d l) pay.toNat stamp.toNat)).onDev takePortMsgs)

/-- CONT_TIMEOUT (R436): no part of the continuation of a stream has arrived for 100 ms. -/
def execContTimeout (stream : Fin 36) (s : State) : Host.Outcome State Fault Refusal :=
  s.svc fun d =>
    if d.conts.any fun c => c.stream == stream.val then
      ({ d with conts := d.conts.filter fun (c : Cont) => c.stream != stream.val } : Dev).set1 CP_CAUSE_REASM
    else d

/-- GO of mailbox p (R452): the packet in CP_MBX_REQ[p] is taken; GO while BUSY leaves the mailbox unchanged. -/
def mailboxGo (d : Dev) (p : Nat) : Dev :=
  if d.on CP_MBX_STAT_BUSY p then d.set1 CP_MBX_CAUSE_ACC_ERR p
  else
    let bytes := (List.range 64).flatMap fun j => leBytes 4 (d.r CP_MBX_REQ (p * 64 + j)).toNat
    let len := leNat ((bytes.drop 4).take 2)
    let d := (d.set1 CP_MBX_STAT_BUSY p).setF CP_MBX_STAT_DONE p 0
    (submit d 3 p (bytes.take (8 + len))).2

/-! ### Serving -/

/-- The partition whose packet the warden takes next (R438). -/
def nextRing (d : Dev) : Option Nat :=
  let ps := (List.range 8).map fun j => (d.hn .cpServed 0 + j) % 8
  ps.find? fun p => d.rings.any fun k => k.part == p

/-- The packet at the head of partition p's ring. -/
def ringHead (d : Dev) (p : Nat) : Option Packet := d.rings.find? fun k => k.part == p

/-- The warden takes the packet: it leaves its ring. -/
def ringPop (d : Dev) (k : Packet) : Dev :=
  let d := ({ d with rings := d.rings.erase k } : Dev).setH .cpServed 0 (k.part + 1)
  d.setBit CP_STATUS_RINGS 0 k.part (d.rings.any fun x => x.part == k.part)

/-- Whether the warden's command interpreter runs. -/
def wardenRuns (d : Dev) : Bool := portsRun d && d.on CP_STATUS_WARDEN && coreRuns d 4

/-- A warden reset at the command-port block (R433, R442): every accepted packet not yet answered, and every
continuation, is answered TIMEOUT; the rings are emptied and every stream is fresh. -/
def portsWardenReset (d : Dev) : Dev :=
  let ks := (d.rings ++ d.held.toList.map LongOp.pkt ++ d.longs.map LongOp.pkt).filter fun k => k.stream != 36
  let cs := d.conts
  let d : Dev := { d with rings := [], longs := [], conts := [], held := none }
  let d := d.setH .fwSess 0 0
  let d := d.set1 CP_CAUSE_WRESET
  let d := d.eachIn ks fun d k => finish d k stTimeout []
  let d := d.eachIn cs fun d c =>
    let part := if c.stream < 8 then c.stream else if c.stream < 24 then c.stream % 8 else (laneOwner d (c.stream - 24)).1
    replyStore d c.stream c.seq (streamOf d c.stream).crc part true (replyBytes stTimeout c.op 0 c.seq [])
  let d : Dev := { d with streams := d.streams.map fun (x : Stream) => { x with used := false, busy := x.busy && d.rootq.any fun k => k.stream == x.id } }
  (d.setF CP_STATUS_RINGS 0 0).setH .cpServed 0 0

end Sys2Proof.Machine
end

