-- ==== Sys2Proof/Machine/RegMap.lean ====
section
/-! DEFINITION. The register map as the bus sees it: which register an address is, its power domain, its owner, and the
check of R38 and R399 (spec/01, R33 to R39; spec/11, R396 to R402; the chapters' own additions). -/

namespace Sys2Proof.Machine

/-- The rows of the register map. -/
def regRows : List RegRow := regsLoop ++ regsPower ++ regsLink ++ regsFabric

/-- The register at an address, and which copy. -/
def regAt (a : Nat) : Option (RegRow × Nat) :=
  regRows.findSome? fun row => (row.reg.find? a).map fun i => (row, i)

/-- The instance a copy belongs to: the rail, phase, grove, lane, partition, channel or other unit; a register whose
copies are only indexed within one block keeps its index. -/
def unitOf (R : Reg) (i : Nat) : Nat := if R.n1 = 1 then i else i / R.n2

/-- Whether the power domain that holds a register is on (R19, R512). -/
def regPowered (d : Dev) (R : Reg) (i : Nat) : Bool :=
  let o := unitOf R i
  let a := R.base
  if 0x50000000 ≤ a then true
  else if a < 0x40010000 then (if a < 0x40004000 then domOn d (5 + o / 4) else domOn d 0)
  else if a < 0x40014000 || a / 0x1000 = 0x4001A then domOn d (5 + o / 16)
  else if a < 0x40018000 then domOn d (5 + o / 4)
  else if a < 0x40020000 then domOn d 0
  else if a < 0x40030000 then domOn d (16 + o)
  else if 0x40060000 ≤ a && a < 0x40066000 then domOn d (9 + o / 4)
  else if 0x40080000 ≤ a && a < 0x40090000 then domOn d 12
  else if 0x40110000 ≤ a && a < 0x40120000 then domOn d 13
  else domOn d 0

/-- Whether the power domain that holds the block at a register address is on (R19, R512): what decides at an offset with no
register (R517). -/
def offsetPowered (d : Dev) (a : Nat) : Bool :=
  let o := a % 0x10000
  if 0x50000000 ≤ a then true
  else match a / 0x10000 with
    | 0x4000 => if o < 0x4000 then domOn d (5 + o / 0x1000) else domOn d 0
    | 0x4001 =>
      if o < 0x4000 then domOn d (5 + o / 0x1000)
      else if o < 0x8000 then domOn d (5 + (o - 0x4000) / 0x1000)
      else if 0xA000 ≤ o && o < 0xE000 then domOn d (5 + (o - 0xA000) / 0x1000)
      else domOn d 0
    | 0x4002 => domOn d (16 + o / 0x1000)
    | 0x4006 => if o < 0x6000 then domOn d (9 + o / 0x2000) else domOn d 0
    | 0x4008 => domOn d 12
    | 0x4011 => domOn d 13
    | _ => domOn d 0

/-- The owner of a register copy: its partition and whether sealed (R38, R393 and the blocks' chapters). -/
def regOwner (d : Dev) (R : Reg) (i : Nat) : Nat × Bool :=
  let o := unitOf R i
  match R.own with
  | .p0 | .any | .gvTask | .padBits => (0, false)
  | .sealed => (0, true)
  | .rail => railOwner d o
  | .phase => phaseOwner d o
  | .lane => laneOwner d o
  | .conv => (convOwner d o, false)
  | .chan => (chanOwner d o, false)
  | .timer => (timerOwner d o, false)
  | .trail => trailOwner d o
  | .pad => (padOwner d o, false)
  | .part => (o, false)
  | .store => storeOwner d
  | .coretag => (d.f CH_CORETAG_PART o, false)
  | .coreOnly => (d.f CH_CORETAG_PART o, false)
  | .ringElog => ringOwner d (d.f QM_ELOG_RING o)

/-- The owner of the task whose GV_TSTAT copy i is. -/
def taskOwner (d : Dev) (i : Nat) : Nat := d.f GV_TCFG_OWNER i

/-- Whether an initiator may read a register (R399, R409 and the blocks' chapters). -/
def mayRead (d : Dev) (who : Initiator) (R : Reg) (i : Nat) : Bool :=
  let tag := tagOf d who
  if tag.2 then true
  else
    let o := unitOf R i
    match R.rd with
    | .all => true
    | .meter => (metersOf d tag.1).testBit o || (railOwner d o).1 == tag.1
    | x =>
      (match R.own with
        | .any | .padBits => true
        | .gvTask => tag.1 == 0 || tag.1 == taskOwner d i
        | .coreOnly => false
        | _ => passes tag (regOwner d R i))
      || (x == .p0 && tag.1 == 0) || (x == .part && tag.1 == o)

/-- The bits of a bit-owned register a writer must own: the ones it carries and, in PX_GOUT and PX_GCAUSE_EN, those it
changes (R692, read to the letter: notes/assumptions/47.md). -/
def padMask (d : Dev) (R : Reg) (w : Word) : Word :=
  if R = PX_GOUT || R = PX_GCAUSE_EN then w ||| (w ^^^ d.r R) else w

/-- Whether an initiator may write a word to a register (R39, R112, R180, R240, R249, R316, R325, R399, R465, R516, R685,
R692). Partition 0 may always ask for a clear of FB_PCLR and FB_RCLR; R249 then judges each latch by its own right. A write of
TR_FIRE is judged by the trail it names alone (R469). -/
def mayWrite (s : State) (who : Initiator) (R : Reg) (i : Nat) (w : Word) : Bool :=
  let d := s.dev
  let tag := tagOf d who
  let o := unitOf R i
  if R.own = .coreOnly then
    match who with
    | .core c => c.val == o
    | _ => false
  else if tag.2 then true
  else
    (match R.own with
      | .any => true
      | .padBits => padsOwned d tag.1 (padMask d R w)
      | .ringElog => passes tag (regOwner d R i) && passes tag (ringOwner d (bitsOf w 0 16))
      | .gvTask => tag.1 == taskOwner d i
      | _ => passes tag (regOwner d R i) || ((R = FB_PCLR || R = FB_RCLR) && tag.1 == 0) || R = TR_FIRE)
    && (if R = PH_ROLE then
          (bitsOf w 0 2 != 1 || (railOwner d (bitsOf w 4 4)).1 == (phaseOwner d o).1)
          && (bitsOf w 0 2 != 2 || passes tag (storeOwner d))
        else if R = LN_RAILS then
          (List.range 16).all fun k => !w.getLsbD k || (railOwner d k).1 == (laneOwner d o).1
        else if R = IG_SLOTS then
          (List.range 4).all fun j => !w.getLsbD (8 * j + 4) || (laneOwner d (bitsOf w (8 * j) 4)).1 == (railOwner d o).1
        else if R = PX_GCFG then
          (bitsOf w 0 3 != 4 || timerOwner d (bitsOf w 4 4) == tag.1) && (bitsOf w 0 3 != 5 || padOwner d o == 0)
        else if R = PD_VOTEA then
          (List.range 32).all fun n => !w.getLsbD n || mayVote d o n
        else if R = PD_VOTEB then
          (List.range 16).all fun n => !w.getLsbD n || mayVote d o (32 + n)
        else true)

/-- KIND of the refusal of a register access (R408, R718). -/
def refKind (who : Initiator) (R : Reg) (write : Bool) : Nat :=
  match who with
  | .debug _ => 10
  | .dma _ => 4
  | _ => if R.rd = .meter && !write then 9 else if R.own = .trail && write then 2 else 0

end Sys2Proof.Machine
end

