-- ==== Sys2Proof/Machine/RegRead.lean ====
section
/-! DEFINITION. What a register reads as: the stored word with the fields that are formed from the state when they are
read, the view of double-buffered registers, and the reads with a side effect (R10, R15, R83, R134, R461, R506, R537,
R562, R692, R709). -/

namespace Sys2Proof.Machine

/-- A number for each initiator that reads TM_CAL1. -/
def readerOf : Initiator → Nat
  | .core c => c
  | .warden => 4
  | .packet _ _ => 4
  | .root => 5
  | .debug _ => 6
  | .dma ch => 8 + ch

/-- The word stored for a register, or its active copy where FL_CMT.VIEW of its rail asks for it (R83, R134). -/
def storedWord (d : Dev) (R : Reg) (i : Nat) : Word :=
  let o := unitOf R i
  let view :=
    match R.db, R.own with
    | .none, _ => false
    | _, .phase => d.f PH_ROLE_ROLE o == 1 && d.on FL_CMT_VIEW (d.f PH_ROLE_RAIL o)
    | _, _ => d.on FL_CMT_VIEW o
  if view then d.ar R i else d.r R i

/-- How many writes wait in crossing q into AON (R28). -/
def aonFill (d : Dev) (q : Nat) : Nat := (d.aonQ.filter fun x => x.q == q).length

/-- Ticks of 10 µs left to the warden's watchdog (R239), which stands in Quiet (R525); 0 before its first start. -/
def wdgLeft (d : Dev) : Nat :=
  if d.hon .wdgAt then d.f FB_WDG_TMO - ((if d.f PD_STATE_STATE = 1 then d.hn .quietAt else d.now) + 1 - d.hn .wdgAt) / 20000 else 0

/-- Those of RL registers. -/
def rlFields (d : Dev) (R : Reg) (n : Nat) : List (Fld × Int) :=
  if R = RL_STATUS then [(RL_STATUS_NSW, nsw d n), (RL_STATUS_NSHED, (phasesIn d n phShed).length)]
  else if R = RL_PB then [(RL_PB_SENSED, if d.on RL_CFG_PB_EN n then d.f RL_PB_SENSED n else 0)]
  else if R = RL_PMASK_LO then [(RL_PMASK_LO_PH, boughBits 32 fun m => phDom d m == n)]
  else if R = RL_PMASK_HI then [(RL_PMASK_HI_PH, boughBits 32 fun m => phDom d (m + 32) == n)]
  else []

/-- Those of TM, LF, EM and the AON crossings. -/
def tmFields (d : Dev) (who : Initiator) (R : Reg) (i : Nat) : List (Fld × Int) :=
  let n := d.f LF_SSEL_PHASE
  if R = TM_TB_LO then [(TM_TB_LO_VALUE, d.now - 20)]
  else if R = TM_TB_HI then [(TM_TB_HI_VALUE, (d.now - 20) / 2 ^ 32)]
  else if R = TM_TSTAT then [(TM_TSTAT_DOWN, b2i (tmDownNow d i)), (TM_TSTAT_OUT, b2i (tmOut d i))]
  else if R = TM_CNT_LO then [(TM_CNT_LO_VALUE, tmCount d i)]
  else if R = TM_CNT_HI then [(TM_CNT_HI_VALUE, tmCount d i / 2 ^ 32)]
  else if R = TM_CAL0 then [({ reg := TM_CAL0, lo := 0, n := 32 }, cal0 d)]
  else if R = TM_CAL1 then [({ reg := TM_CAL1, lo := 0, n := 32 }, d.h .cal1 (readerOf who))]
  else if R = TM_WQ then [(TM_WQ_FILL, aonFill d 2)]
  else if R = LF_WQ then [(LF_WQ_FILL, aonFill d 0)]
  else if R = EM_WQ then [(EM_WQ_FILL, aonFill d 1)]
  else if R = PD_WQ then [(PD_WQ_FILL, aonFill d 3)]
  else if R = FB_SC_WQ then [(FB_SC_WQ_FILL, aonFill d 4)]
  else if R = EM_STATUS then [(EM_STATUS_QFILL, qfill d)]
  else if R = LF_SON then [(LF_SON_VALUE, d.h .lOn n)]
  else if R = LF_SCHG_LO then [(LF_SCHG_LO_VALUE, d.h .lChg n)]
  else if R = LF_SCHG_HI then [(LF_SCHG_HI_VALUE, d.h .lChg n / 2 ^ 32)]
  else if R = LF_STHM then
    [(LF_STHM_HALF, d.h .lTherm (n * 8 + d.f LF_SSEL_BIN)), (LF_STHM_FAULTS, d.h .lFaults n)]
  else if R = LF_SWEAR then
    [(LF_SWEAR_WEAR, d.h .lWear n), (LF_SWEAR_MIRROR, d.h .lMirror n), (LF_SWEAR_MAPPED, d.h .lMap n)]
  else []

/-- The link fields of a bond member read 0 (R322, R323). -/
def lnFields (d : Dev) (R : Reg) (i : Nat) : List (Fld × Int) :=
  if isMember d (unitOf R i) then
    if R = LN_STATUS then [(LN_STATUS_UP, 0), (LN_STATUS_PVER, 0), (LN_STATUS_VERR, 0)]
    else if R = LN_LAT || R = LN_PID || R = LN_RAILS then [({ reg := R, lo := 0, n := 32 }, 0)]
    else []
  else []

/-- Those of the other blocks. -/
def devFields (d : Dev) (who : Initiator) (R : Reg) (i : Nat) : List (Fld × Int) :=
  if R = FB_WDG_CNT then [(FB_WDG_CNT_LEFT, wdgLeft d)]
  else if R = FB_SC_STAT then [(FB_SC_STAT_CNT, d.h .scRun i)]
  else if R = FB_PSTAT then (if domOn d (5 + i / 16) then [] else [({ reg := R, lo := 0, n := 32 }, 0)])
  else if R = FB_RSTAT then (if domOn d (5 + i / 4) then [] else [({ reg := R, lo := 0, n := 32 }, 0)])
  else if R = PD_HWVOTEA then [(PD_HWVOTEA_DOM, boughBits 32 fun n => isDomain n && hwVote d n)]
  else if R = PD_HWVOTEB then [(PD_HWVOTEB_DOM, boughBits 16 fun n => hwVote d (32 + n))]
  else if R = IG_TNOW then (List.range 4).map fun j => (IG_TNOW_TE j, (trustOf d i j : Int))
  else if R = CH_WHOAMI then
    let t := tagOf d who
    [(CH_WHOAMI_PART, t.1), (CH_WHOAMI_WARDEN, b2i t.2), (CH_WHOAMI_DEBUG, b2i (isDebug who))]
  else if R = LN_GRP then [(LN_GRP_REF, d.f PX_STATUS_REFCLK)]
  else if R = QM_STATUS then
    [(QM_STATUS_FREE, if d.hon .svcOn then 131072 - ((List.range 8).foldl (fun a p => a + d.f QM_TUSE_USED p) 0 : Nat) else 0)]
  else if R.own = .lane then lnFields d R i
  else []

/-- What a register reads as, for an initiator that may read it. -/
def regValue (d : Dev) (who : Initiator) (R : Reg) (i : Nat) : Word :=
  let tag := tagOf d who
  match treeRead d R i tag with
  | some v => padV tag (BitVec.ofNat 32 v)
  | none =>
    padV tag (withF (storedWord d R i)
      (flFields d R i ++ phFields d R i ++ rlFields d R i ++ tmFields d who R i ++ devFields d who R i))
where
  padV (tag : Nat × Bool) (w : Word) : Word := if R.own = .padBits && !tag.2 then padBits d tag.1 w else w

/-- A read by an initiator that may read: the value, and the side effects of FL_INT_LO, CP_ROOTSTAMP_LO and TM_CAL0. A
value the spec leaves open (LN_DFE.VAL, dfeRead) is free. -/
def regRead (d : Dev) (who : Initiator) (R : Reg) (i : Nat) : Word × Dev :=
  if R = FL_INT_LO then
    let d := intLoRead d i
    (d.r FL_INT_LO i, d)
  else if R = CP_ROOTSTAMP_LO then
    (d.r R i, d.setF CP_ROOTSTAMP_HI_STAMP 0 (d.h .rootStamp 0 / 2 ^ 32))
  else if R = TM_CAL0 then
    (regValue d who R i, (cal0Read d (readerOf who)).2)
  else if R = LN_TEST then
    let d := testCount d i
    (regValue d who R i, d)
  else if R = LN_DFE then
    let (v, d) := dfeRead d i
    (putBits (d.r R i) LN_DFE_VAL.lo LN_DFE_VAL.n v, d)
  else (regValue d who R i, d)

end Sys2Proof.Machine
end

