-- ==== Sys2Proof/Machine/RegWrite.lean ====
section
/-! DEFINITION. What a register write that may be made does: reserved encodings, locks, access types, the cause it sets
when it is refused, and the actions of each block's registers (spec/00, R10 to R14, R705, R706; spec/01, R22, R23; the
blocks' chapters). -/

namespace Sys2Proof.Machine

/-! ### Refused writes -/

/-- The leaf that a refused write of a register sets its causes in (R705). -/
def leafOf (R : Reg) (i : Nat) : Reg × Nat :=
  let o := unitOf R i
  let a := R.base
  if 0x50000000 ≤ a then
    if a < 0x50004000 then (LF_CAUSE, 0) else if a < 0x50008000 then (EM_CAUSE, 0)
    else if a < 0x5000C000 then (TM_ACAUSE, 0) else if a < 0x5000E000 then (PD_CAUSE, 0) else (FB_SC_CAUSE, 0)
  else match a / 0x10000 - 0x4000 with
  | 0 => (FL_CAUSE, o)
  | 1 => if a < 0x40014000 then (PH_CAUSE, o) else if a < 0x40018000 then (FL_CAUSE, o)
         else if a < 0x40018100 then (PH_SB_CAUSE, o) else (PH_SB_CAUSE, 0)
  | 2 => (GV_CAUSE, o)
  | 3 => (RL_CAUSE, o)
  | 4 => if a < 0x40044000 then (FB_PCAUSE, o) else if a < 0x40048000 then (FB_RCAUSE, o) else (FB_DCAUSE, 0)
  | 5 => (ST_CAUSE, 0)
  | 6 => (LN_CAUSE, o)
  | 7 => if a < 0x40078000 then (IG_RCAUSE, o) else (IG_DCAUSE, 0)
  | 8 => (TC_CAUSE, o)
  | 9 => (CH_CAUSE, 0)
  | 10 => if a < 0x400A8000 then (CP_CAUSE, 0) else (CP_MBX_CAUSE, o)
  | 11 => (TR_CAUSE, 0)
  | 12 => (DM_CAUSE, if R = DM_OWN then 0 else o)
  | 13 => (QM_CAUSE, 0)
  | 15 => (PD_CAUSE, 0)
  | 16 => (TM_TCAUSE, if R = TM_OWN then 0 else o)
  | 17 => (FC_CAUSE, 0)
  | 18 => if a < 0x40122000 then (ME_BCAUSE, o) else (ME_CAUSE, 0)
  | _ => (PX_CAUSE, 0)

/-- Set bit b of a leaf. -/
def setLeaf (d : Dev) (x : Reg × Nat) (b : Nat) : Dev := d.set1 { reg := x.1, lo := b, n := 1, acc := .w1c } x.2

/-- ACC_ERR of the register's leaf. -/
def accErr (d : Dev) (R : Reg) (i : Nat) : Dev := setLeaf d (leafOf R i) 15

/-- Whether rail k, phase n or lane l is locked for changes: not OFF, not IDLE, not OFF. -/
def railBusy (d : Dev) (k : Nat) : Bool := rlState d k != rlOff
def phaseBusy (d : Dev) (n : Nat) : Bool := phState d n != phIdle
def laneBusy (d : Dev) (l : Nat) : Bool := d.f LN_STATUS_STATE l != lnOff

/-- Whether field F of copy i is locked (R11; R83, R111, R179, R192, R248, R256, R323, R349, R370, R483, R562, R685). -/
def lockedF (d : Dev) (R : Reg) (i : Nat) (F : Fld) : Bool :=
  let o := unitOf R i
  let a := R.base
  if F.acc = .rwo then d.hon .rwoDone
  else if R = FL_IPRE || a / 0x10000 = 0x4003 || R = IG_CPL || R = IG_CPL_LNK || (0x40044000 ≤ a && a < 0x40048000) then
    railBusy d o
  else if R = PH_ROLE || R = PX_PHCFG || (0x40040000 ≤ a && a < 0x40044000) then phaseBusy d o
  else if R = GV_TCODE || R = GV_TDATA then d.on GV_TCFG_EN i
  else if 0x40048000 ≤ a && a < 0x40049000 then d.on FB_DLOCK_LOCK
  else if R = ST_SNS || R = ST_SHUNT then d.on ST_CTL_EN || d.on ST_CEIL_LIM
  else if a / 0x10000 = 0x4005 then d.on ST_CTL_EN
  else if R = LN_TEST then laneBusy d o && d.f LN_STATUS_STATE o != lnTest
  else if R.own = .lane then laneBusy d o
  else if R = TC_OWN then d.on TC_CTL_EN (F.lo / 3)
  else if a / 0x10000 = 0x4008 then d.on TC_CTL_EN o
  else if R = DM_OWN then let st := d.f DM_STATUS_STATE (i * 8 + F.lo / 4); 1 ≤ st && st ≤ 4
  else if a / 0x10000 = 0x400C then let st := d.f DM_STATUS_STATE o; 1 ≤ st && st ≤ 4
  else if R = TM_OWN then d.on TM_TCTL_RUN (i * 8 + F.lo / 4)
  else if R = PX_FBCFG then
    (List.range 16).any (fun k => d.on RL_CTL_EN k) || d.on ST_CTL_EN || d.on FB_DLOCK_LOCK
  else if R = PX_GCFG then d.f PX_GCFG_FUNC o == 5 && d.on IG_AVS_CFG_EN
  else if R = PX_GOWN then d.f PX_GCFG_FUNC (i * 8 + F.lo / 4) != 0
  else false

/-- The leaf of a lock error: chapter 10 names that of the converter whose field of TC_OWN is locked (R391, R705). -/
def lockLeaf (R : Reg) (i : Nat) (F : Fld) : Reg × Nat :=
  if R = TC_OWN then (TC_CAUSE, F.lo / 3) else leafOf R i

/-- The first locked field of a register that a write of w would change (R11). -/
def lockHit (d : Dev) (row : RegRow) (i : Nat) (w : Word) : Option Fld :=
  row.fields.find? fun F =>
    (F.acc == .rwl || F.acc == .rwo) && valOf w F != d.f F i && lockedF d row.reg i F

/-- An N-of-M filter pair that R233 reserves. -/
def badFilter (w : Word) (lo : Nat) : Bool :=
  let n := bitsOf w lo 4
  let m := bitsOf w (lo + 4) 4
  n == 0 || m == 0 || m < n

/-- Reserved encodings that span several fields or the state (R14, R191, R233, R243, R317, R355, R369, R490, R558, R706,
R714, R719). A span whose ends are other fields is judged on their present values (R706); N-of-M pairs and the like, which
are encodings of several fields together, on the values the write gives (notes/assumptions/46.md). -/
def badWord (d : Dev) (R : Reg) (i : Nat) (w : Word) : Bool :=
  let v (F : Fld) : Nat := valOf w F
  let o := unitOf R i
  if R = PH_MAP_CTL then v PH_MAP_CTL_GO != 0 && v PH_MAP_CTL_ALL != 0
  else if R = RL_SEQ_ON || R = RL_SEQ_OFF then w.getLsbD o
  else if R = FB_PFILT || R = FB_RFILT then badFilter w 0 || badFilter w 8 || badFilter w 16
  else if R = FB_IIN then badFilter w 8
  else if R = FB_RCFG then v FB_RCFG_OV_CEIL < d.f FB_RCFG_OV_F o || v FB_RCFG_UV_CEIL < d.f FB_RCFG_UV_F o
  else if R = FB_PTH then d.f FB_PHOC_HOC o < v FB_PTH_OC_POS
  else if R = FB_PHOC then v FB_PHOC_HOC < d.f FB_PTH_OC_POS o
  else if R = FB_SC_CFG then v FB_SC_CFG_EN != 0 && v FB_SC_CFG_N == 0
  else if R = IG_TLIM then v IG_TLIM_MAX < d.f IG_TLIM_MIN i
  else if R = IG_CPL then v IG_CPL_EN != 0 && (v IG_CPL_NCFG == 0 || v IG_CPL_MINPH == 0)
  else if R = GV_TCFG then v GV_TCFG_TRIG == 3 && 4 ≤ v GV_TCFG_TSEL
  else if R = GV_TDATA then 31 < v GV_TDATA_DBASE + v GV_TDATA_DBANKS
  else if R = LN_CFG then (v LN_CFG_WIDTH == 1 && o % 2 != 0) || (v LN_CFG_WIDTH == 2 && o % 4 != 0)
  else if R = TC_STEP then 23 ≤ v TC_STEP_CH && v TC_STEP_CH < 32
  else if R = QM_TQUOTA then
    131072 < (List.range 8).foldl (fun a p => a + if p = o then v QM_TQUOTA_QUOTA else d.f QM_TQUOTA_QUOTA p) 0
  else if R = QM_DB then v QM_DB_OP < 2 && v QM_DB_COUNT == 0
  else if R = PX_GCFG then v PX_GCFG_FUNC == 5 && (o < 8 || 10 < o)
  else if R = EM_CFG then v EM_CFG_LEN < 60 || 86400 % v EM_CFG_LEN != 0
  else false

/-- Whether a write of w places a reserved encoding (R14, R706). -/
def reservedWord (d : Dev) (row : RegRow) (i : Nat) (w : Word) : Bool :=
  fieldBad row w || badWord d row.reg i w

/-- The word a register takes from a write, by the access types of its fields; a W1C bit that an event sets in this cycle
stays set (R10 to R12). -/
def newWord (d : Dev) (row : RegRow) (i : Nat) (w : Word) : Word :=
  row.fields.foldl (fun x F =>
    let v := valOf w F
    match F.acc with
    | .rw => putBits x F.lo F.n v
    | .w1c => x &&& (~~~(putBits 0 F.lo F.n v) ||| d.setNow (row.reg.addr i))
    | .w1s => x ||| putBits 0 F.lo F.n v
    | .rwl | .rwo => if lockedF d row.reg i F then x else putBits x F.lo F.n v
    | .ro | .wo => x) (d.r row.reg i)

/-- Store a register's word: a double-buffered one goes on the software path (R75). -/
def putReg (d : Dev) (R : Reg) (i : Nat) (x : Word) : Dev :=
  if R.db = .sw then pushSw d (match R.own with | .phase => phDom d (unitOf R i) | _ => unitOf R i) R i x
  else d.setR R i x

/-! ### The blocks' actions. `w` is the word written, `x` the word the register takes. -/

/-- Whether a write changes field F from 0, to 0, or at all. -/
def rises (d : Dev) (F : Fld) (i : Nat) (x : Word) : Bool := !d.on F i && valOf x F != 0
def falls (d : Dev) (F : Fld) (i : Nat) (x : Word) : Bool := d.on F i && valOf x F == 0

/-- FL registers (R75, R82, R83). -/
def flWrite (d : Dev) (R : Reg) (i : Nat) (w x : Word) : Dev :=
  let e := putReg d R i x
  if R = FL_CMT then
    let e := if falls d FL_CMT_HOLD i x then releaseHold e i else e
    if valOf w FL_CMT_CLRCNT != 0 then e.setR FL_COUNT i 0 else e
  else e

/-- PH registers (R99, R105, R115, R120, R133, R134, R210, R213, R714). -/
def phWrite (d : Dev) (R : Reg) (i : Nat) (w x : Word) : Dev :=
  let v (F : Fld) : Bool := valOf w F != 0
  if R = PH_CTL then
    let d := if v PH_CTL_AZ then azStart d i else d
    let d := if v PH_CTL_CLR_FAIL then clrFail d i else d
    if v PH_CTL_CLRCNT then d.setR PH_COUNT i 0 else d
  else if R = PH_ROLE then
    let k0 := phDom d i
    let e := d.setR R i x
    let k1 := phDom e i
    if k0 = k1 then e
    else
      let e := boundMoved d (settleCap e k0) k0
      hotAttach (boundMoved d (settleCap e k1) k1) k1
  else if R = PH_CFG then
    let e := putReg d R i x
    idlePer e (phDom e i)
  else if R = PH_SB_CFG then
    let e := d.setR R i x
    if rises d PH_SB_CFG_EN i x then rollStart e i true else e
  else if R = PH_SB_ROLL then (if v PH_SB_ROLL_START then rollStart d i false else d)
  else if R = PH_MAP_CTL then
    if (v PH_MAP_CTL_GO || v PH_MAP_CTL_ALL) && d.on PH_MAP_CTL_BUSY then d.set1 PH_SB_CAUSE_ACC_ERR 0
    else
      let e := d.setR R i x
      if v PH_MAP_CTL_GO then toneGo e else if v PH_MAP_CTL_ALL then toneAll e else e
  else if R = PH_SACC_CMD then
    if v PH_SACC_CMD_GO && d.on PH_SACC_CMD_BUSY then d.set1 PH_SB_CAUSE_ACC_ERR 0
    else
      let e := d.setR R i x
      if v PH_SACC_CMD_GO then saccGo e else e
  else putReg d R i x

/-- GV registers (R139, R162, R179). -/
def gvWrite (d : Dev) (R : Reg) (i : Nat) (x : Word) : Dev :=
  if R = GV_CFG then gvCfgWrite d i x
  else if R = GV_LEAD then gvLeadWrite d i x
  else if R = GV_TCFG then tcfgWrite d (i / 64) (i % 64) x
  else if R = GV_TCODE then (d.setR R i x).setH .gStd i 0
  else d.setR R i x

/-- RL registers (R183, R185, R206, R210). -/
def rlWrite (d : Dev) (R : Reg) (i : Nat) (w x : Word) : Dev :=
  if R = RL_CTL then enWrite d i (valOf w RL_CTL_EN != 0)
  else
    let e := d.setR R i x
    if R = RL_ILIM then settleCap e i
    else if R = RL_PF then settleCap (idlePer e i) i
    else e

/-- A kick of watchdog j (0 the warden's, 1 + c core c's); any other key is an invalid kick (R239, R240). -/
def wdgKick (d : Dev) (j : Nat) (w : Word) : Dev :=
  if bitsOf w 0 16 = 0x5A3C then d.setH .wdgAt j (d.now + 1 : Nat) else d.set1 FB_DCAUSE_ACC_ERR

/-- FB registers (R227 to R230, R235, R239, R240, R245, R249); `who` clears with the rights of its tag. -/
def fbWrite (d : Dev) (who : Initiator) (R : Reg) (i : Nat) (w x : Word) : Dev :=
  let tag := tagOf d who
  if R = FB_PCLR then pclr d i (valOf w FB_PCLR_CLR) (passes tag (phaseOwner d i)) (tag.2 || tag.1 == 0)
  else if R = FB_RCLR then rclr d i (valOf w FB_RCLR_CLR) (passes tag (railOwner d i)) (tag.2 || tag.1 == 0)
  else if R = FB_DCLR then storeSettle (dclr d (valOf w FB_DCLR_CLR))
  else if R = FB_RTEST then compTest d i (valOf w FB_RTEST_GO != 0) x
  else if R = FB_LANE then laneLossShow (d.setR R i x)
  else if R = FB_WDG_KICK then wdgKick d 0 w
  else if R = FB_CWDG_KICK then wdgKick d (1 + i) w
  else if R = FB_DLOCK then (d.setR R i x).setH .rwoDone 0 1
  else
    let e := d.setR R i x
    if R = FB_RACT || R = FB_DACT || R = FB_CROWMAP || R = FB_PINCFG || R = FB_SC_CAUSE || R = FB_SC_CFG then fbPins e
    else e

/-- ST registers (R259, R267, R274, R279, R280). -/
def stWrite (d : Dev) (R : Reg) (i : Nat) (w x : Word) : Dev :=
  if R = ST_CTL then
    let e := d.setR R i (putBits x 0 1 (d.f ST_CTL_EN))
    storeEn e (valOf w ST_CTL_EN != 0)
  else if R = ST_CEIL then
    if ceilRefused d (valOf w ST_CEIL_LIM) (valOf w ST_CEIL_ALLOW_PM) then d.set1 ST_CAUSE_CFG_ERR else d.setR R i x
  else
    let e := d.setR R i x
    if R = ST_ALLOW then allowWrite e else if R = ST_FLOOR then floorShow e else if R = ST_PER then boundMoved d e 16 else e

/-- The TEST state of a lane (R297); without REFCLK the lane stays OFF (R27, R288), and from TEST it returns to OFF, where it
trains if its EN is set. -/
def laneTest (d : Dev) (l : Nat) (on : Bool) : Dev :=
  let st := d.f LN_STATUS_STATE l
  if on && st = lnOff && d.on PX_STATUS_REFCLK then
    let d := applyPreset (d.setF LN_STATUS_STATE l lnTest) l (d.f LN_CFG_PRESET l)
    prbsSeed ((d.setF LN_STATUS_RATE l (d.f LN_CFG_RMAX l)).setF LN_TEST_ERRS l 0) l
  else if !on && st = lnTest then tryStart (d.setF LN_STATUS_STATE l lnOff) l
  else d

/-- LN registers (R297, R317, R323). A write of LN_CTL writes EN: at a bond member that has no effect and sets ACC_ERR. -/
def lnWrite (d : Dev) (R : Reg) (i : Nat) (w x : Word) : Dev :=
  if R = LN_CTL then
    let en := valOf w LN_CTL_EN != 0
    let e := d.setR R i (putBits x 0 1 (d.f LN_CTL_EN i))
    let e := if isMember d i then e.set1 LN_CAUSE_ACC_ERR i
      else if en then (if d.on LN_CTL_EN i then e else laneEnable e i) else laneDisable e i
    let L := leadLane e i
    let e := if valOf w LN_CTL_RETRAIN != 0 && e.f LN_STATUS_STATE L = lnActive then linkDown e L else e
    if valOf w LN_CTL_CLRCNT != 0 then (e.setR LN_ERRCNT i 0).setR LN_DOWNCNT i 0 else e
  else
    let d := if R = LN_TEST then testCount d i else d
    let e := d.setR R i (if R = LN_TEST then putBits x LN_TEST_ERRS.lo LN_TEST_ERRS.n (d.f LN_TEST_ERRS i) else x)
    let e := if R = LN_TEST && d.f LN_STATUS_STATE i = lnTest && valOf x LN_TEST_PAT != d.f LN_TEST_PAT i then prbsSeed e i else e
    if R = LN_TEST && valOf x LN_TEST_EN ≠ d.f LN_TEST_EN i then laneTest e i (valOf x LN_TEST_EN != 0) else e

/-- IG registers (R349, R351, R363). -/
def igWrite (d : Dev) (R : Reg) (i : Nat) (w x : Word) : Dev :=
  if R = IG_CPLCMD then
    let d := if valOf w IG_CPLCMD_CARRY != 0 then carryRequest d i else d
    if valOf w IG_CPLCMD_REJOIN != 0 then rejoinRequest d i else d
  else
    let e := putReg d R i x
    if R = IG_CPL && falls d IG_CPL_EN i x then setRole e i cplNone else e

/-- TC registers (R370, R377, R382, R391). While a converter runs, a step is not made to name a channel that its owner may not
sample: as at EN, the write is refused with CFG_ERR (DESIGN CHOICE: notes/assumptions/36.md). -/
def tcWrite (d : Dev) (R : Reg) (i : Nat) (w x : Word) : Dev :=
  if R = TC_CTL then
    let en := valOf w TC_CTL_EN != 0
    let d := if en && !d.on TC_CTL_EN i then tcEnable d i else if !en && d.on TC_CTL_EN i then tcDisable d i else d
    let d := if valOf w TC_CTL_ABORT != 0 then tcAbort d i else d
    let d := if valOf w TC_CTL_GO != 0 then tcTrigger d i else d
    if valOf w TC_CTL_CLRCNT != 0 then d.setR TC_CNT i 0 else d
  else if R = TC_STEP && d.on TC_CTL_EN (i / 16) && i % 16 ≤ d.f TC_CFG_NSTEP (i / 16)
      && !chanAllowed d (convOwner d (i / 16)) (tcCh x.toNat) then d.set1 TC_CAUSE_CFG_ERR (i / 16)
  else d.setR R i x

/-- CH registers (R398, R407, R416, R422). -/
def chWrite (s : State) (R : Reg) (i : Nat) (w x : Word) : State :=
  if R = CH_REF_TAIL then s.onDev fun d => refTail d (valOf w CH_REF_TAIL_TAIL)
  else if R = CH_CORETAG then
    s.onDev fun d => if d.on CH_CORETAG_HALTED i then retag d i (valOf w CH_CORETAG_PART) else d.set1 CH_CAUSE_ACC_ERR
  else if R = CH_FPROG then
    if valOf w CH_FPROG_GO = 0 then s.onDev fun d => d.setR R i x
    else if s.dev.on CH_FPROG_BUSY then s.onDev fun d => d.set1 CH_CAUSE_ACC_ERR
    else fuseGo (s.onDev fun d => d.setR R i x)
  else if R = CH_VCTL then
    s.onDev fun d =>
      if valOf w CH_VCTL_GO != 0 && !d.on CH_VCTL_BUSY then verifyGo (d.setR R i x) else d.setR R i x
  else s.onDev fun d => d.setR R i x

/-- CP registers (R452). -/
def cpWrite (d : Dev) (R : Reg) (i : Nat) (w x : Word) : Dev :=
  let p := unitOf R i
  if R = CP_MBX_REQ && d.on CP_MBX_STAT_BUSY p then d.set1 CP_MBX_CAUSE_ACC_ERR p
  else if R = CP_MBX_CTL then (if valOf w CP_MBX_CTL_GO != 0 then mailboxGo d p else d)
  else d.setR R i x

/-- DM registers (R478 to R480). The bits of one write of DM_CTL meet the state as it was, and one transition is taken, that
of the earliest row (R17): a trigger that meets WAIT beside a STOP is not held. -/
def dmWrite (s : State) (R : Reg) (i : Nat) (w x : Word) : State :=
  if R = DM_CTL then
    let st := s.dev.f DM_STATUS_STATE i
    let v (F : Fld) : Bool := valOf w F != 0
    let s := if v DM_CTL_STOP then dmaStop s i else s
    let s := if !v DM_CTL_CLR then s
      else if 5 ≤ st then dmaClr s i
      else s.onDev fun d => d.setF DM_STATUS_TPEND i 0
    let s := if v DM_CTL_START && st = 0 then dmaStart s i else s
    if v DM_CTL_TRIG && !(st = 2 && v DM_CTL_STOP) then s.onDev fun d => dmaTrig d i else s
  else s.onDev fun d => d.setR R i x

/-- PD registers (R516, R521, R524). A Clearing entry stops the flash array's commands (R529). -/
def pdWrite (s : State) (R : Reg) (i : Nat) (w x : Word) : State :=
  if R = PD_STATE then
    let s := s.onDev fun d => d.setR R i x
    if valOf w PD_STATE_GO != 0 then qSettle (s.onDev fun d => (pdRequest d (valOf w PD_STATE_REQ)).2) else s
  else if R = PD_HOLDREL then s.onDev fun d => holdRelease d w
  else if R = PD_VOTEA then s.onDev fun d => d.setR R i (x &&& 0xFFFF3FFF)
  else if R = PD_VOTEB then s.onDev fun d => d.setR R i (x &&& 0x7FFF)
  else s.onDev fun d => d.setR R i x

/-- TM, LF and EM registers (R539, R541, R544, R545, R551, R558). -/
def tmWrite (d : Dev) (R : Reg) (i : Nat) (w x : Word) : Dev :=
  if R = TM_TCTL then tctlWrite d i x
  else if R = TM_CNT_LO then d.setH .tmHold (3 * i) w.toNat
  else if R = TM_TOP_LO then d.setH .tmHold (3 * i + 1) w.toNat
  else if R = TM_MAT_LO then d.setH .tmHold (3 * i + 2) w.toNat
  else if R = TM_CNT_HI then tmHiWrite d i 0 w
  else if R = TM_TOP_HI then tmHiWrite d i 1 w
  else if R = TM_MAT_HI then tmHiWrite d i 2 w
  else if R = TM_RTC_CTL then
    if valOf w TM_RTC_CTL_SET != 0 then
      if rtcLimit < setValue d then (d.set1 TM_ACAUSE_ACC_ERR).setF TM_RTC_CTL_SETBUSY 0 0
      else almEnable d ((d.setR R i x).setH .setReady 0 1)
    else almEnable d (d.setR R i x)
  else if R = TM_ALM_LO || R = TM_ALM_HI then almSettle (d.setR R i x)
  else if R = LF_CTL then (if valOf w LF_CTL_FLUSH != 0 then flushStart d else d)
  else if R = EM_CFG then
    let d := if valOf x EM_CFG_LEN ≠ d.f EM_CFG_LEN && !d.hon .emLen then d.setH .emLen 0 (d.f EM_CFG_LEN) else d
    d.setR R i x
  else d.setR R i x

/-- FC and ME registers (R503, R647, R648, R656). -/
def fcWrite (s : State) (R : Reg) (i : Nat) (w x : Word) : State :=
  if R = FC_CMD then
    if valOf w FC_CMD_GO = 0 then s.onDev fun d => d.setR R i x
    else if valOf w FC_CMD_OP = 1 && 16 < s.dev.f FC_ADDR_ADDR / 16 % 16 + valOf w FC_CMD_NLINES + 1 then
      s.onDev fun d => fcRefuse d 1 6
    else if s.dev.on FC_CMD_BUSY && valOf w FC_CMD_OP ≠ 3 then s.onDev fun d => fcRefuse d 1 1
    else fcGo (s.onDev fun d => d.setR R i x)
  else if R = ME_BCFG then
    s.onDev fun d =>
      let d := d.setF ME_BCFG_SCRUB i (valOf w ME_BCFG_SCRUB)
      if i < 16 then repairWrite d i (valOf w ME_BCFG_REPAIR) else d
  else if R = ME_REMAP then remapWrite s (i / 16) (i % 16) w
  else if R = ME_ARB_CTL then
    s.onDev fun d => if valOf w ME_ARB_CTL_CLRMAX != 0 then d.each 16 fun d r => d.setR ME_ARB_WMAX r 0 else d
  else s.onDev fun d => d.setR R i x

/-- PX registers (R678, R685, R690, R692); the bit-owned ones act on the bits the writer owns, the warden on all. -/
def pxWrite (d : Dev) (R : Reg) (i : Nat) (w x : Word) : Dev :=
  if R = PX_GCFG then padWrite d i x
  else if R = PX_GSET then d.setR PX_GOUT 0 (d.r PX_GOUT ||| w)
  else if R = PX_GCLR then d.setR PX_GOUT 0 (d.r PX_GOUT &&& ~~~w)
  else if R = PX_VCORE then vcoreWrite (d.setR R i x)
  else d.setR R i x

/-- QM, TR and CN registers that the generic rules do not cover (R469, R487, R511). A doorbell of a ring that is not the
initiator's, or not in service, is refused before this. -/
def qmTrWrite (s : State) (R : Reg) (i : Nat) (w x : Word) : State :=
  if R = QM_DB then doorbell s (valOf w QM_DB_RING) (valOf w QM_DB_OP) (valOf w QM_DB_COUNT)
  else if R = TR_FIRE then
    let t := valOf w TR_FIRE_TRAIL
    s.onDev fun d => trailPass d t 0xFFF d.now
  else if R = CN_SWSET then s.onDev fun d => swSet d i w
  else s.onDev fun d => d.setR R i x

/-- The registers that lie in AON (R19). -/
def aonWrite (d : Dev) (who : Initiator) (R : Reg) (i : Nat) (w x : Word) : Dev :=
  if R.base < 0x5000C000 then tmWrite d R i w x else if R.base < 0x5000E000 then d.setR R i x else fbWrite d who R i w x

/-- The action of a write that is neither reserved nor refused. -/
def blockWrite (s : State) (who : Initiator) (R : Reg) (i : Nat) (w x : Word) : State :=
  if 0x50000000 ≤ R.base then s.onDev fun d => aonWrite d who R i w x
  else match R.base / 0x10000 - 0x4000 with
  | 0 => s.onDev fun d => flWrite d R i w x
  | 1 => s.onDev fun d => phWrite d R i w x
  | 2 => s.onDev fun d => gvWrite d R i x
  | 3 => s.onDev fun d => rlWrite d R i w x
  | 4 => s.onDev fun d => fbWrite d who R i w x
  | 5 => s.onDev fun d => stWrite d R i w x
  | 6 => qSettle (s.onDev fun d => lnWrite d R i w x)
  | 7 => s.onDev fun d => igWrite d R i w x
  | 8 => s.onDev fun d => tcWrite d R i w x
  | 9 => chWrite s R i w x
  | 10 => s.onDev fun d => cpWrite d R i w x
  | 12 => dmWrite s R i w x
  | 11 | 13 | 14 => qmTrWrite s R i w x
  | 15 => pdWrite s R i w x
  | 16 => s.onDev fun d => tmWrite d R i w x
  | 17 | 18 => fcWrite s R i w x
  | _ => s.onDev fun d => pxWrite d R i w x

/-- The device when word w comes to copy i of a register, and whether the write acts: a register of the grove path, a locked
field and a reserved encoding are reported, and the first and the last change no bit (R11, R12, R22). -/
def writeChecks (d : Dev) (row : RegRow) (i : Nat) (w : Word) : Dev × Bool :=
  let R := row.reg
  if R.db = .grove then (accErr d R i, false)
  else
    let e := match lockHit d row i w with
      | some F => setLeaf d (lockLeaf R i F) 14
      | none => d
    if reservedWord d row i w then (accErr e R i, false) else (e, true)

/-- A write of word w to copy i of a register, by an initiator that may write it (R10 to R14, R22). -/
def regWrite (s : State) (who : Initiator) (row : RegRow) (i : Nat) (w : Word) : State :=
  let (d, acts) := writeChecks s.dev row i w
  let t := s.onDev fun _ => d
  if acts then blockWrite t who row.reg i w (newWord s.dev row i w) else t

/-- The same of a register in AON, whose write has crossed. -/
def aonRegWrite (d : Dev) (row : RegRow) (i : Nat) (w : Word) : Dev :=
  let (e, acts) := writeChecks d row i w
  if acts then aonWrite e .warden row.reg i w (newWord d row i w) else e

end Sys2Proof.Machine
end

