-- ==== Sys2Proof/Machine/Bus.lean ====
section
/-! DEFINITION. The global bus: what a load or a store of an initiator does at each range of the address space (spec/01,
R33, R34, R38, R39; spec/11, R399, R402, R403, R405, R408, R409, R718; spec/14, R517; spec/13, R465, R485, R487; spec/20,
R698), and the crossings into AON (R28). -/

namespace Sys2Proof.Machine

/-- The arbiter slot of an initiator (R496). -/
def arbSlot : Initiator → Nat
  | .core c => c
  | .warden => 4
  | .root => 4
  | .packet _ _ => 4
  | .dma _ => 5
  | .debug _ => 7

/-- KIND of a refused memory access, and of one to a ring context or a register (R408, R718). -/
def kindFor (who : Initiator) (k : Nat) : Nat :=
  match who with
  | .debug _ => 10
  | .dma _ => 4
  | _ => k

/-- A refused access (R39, R405): a bus error to the initiator and a record. -/
def denied (s : State) (who : Initiator) (kind : Nat) (owner : Nat × Bool) (write : Bool) (a : Nat) : Res × State :=
  (.refused, s.onDev fun d =>
    let t := tagOf d who
    refuse d t.1 t.2 kind owner write (srcOf who) a)

/-- An access to a domain that is not on (R517). -/
def offErr (s : State) : Res × State := (.err, s.onDev fun d => d.set1 PD_CAUSE_OFF_ACC)

/-- The owner of the memory at an address: outside every window, and in bank 15, partition 0, sealed (R402, R403). -/
def memOwnerOf (d : Dev) (a : Nat) : Nat × Bool :=
  if 0x10F00000 ≤ a && a < 0x11000000 then (0, true)
  else if (List.range (npart d)).any fun p => inPartMem d p a 1 then (memOwner d a, false) else (0, true)

/-- Whether an initiator reaches n bytes of memory at an address. -/
def memReach (d : Dev) (who : Initiator) (a n : Nat) : Bool :=
  let t := tagOf d who
  t.2 || inPartMem d t.1 a n

/-- Whether an address lies in a register range (R33). -/
def isRegAddr (a : Nat) : Bool := (0x40000000 ≤ a && a < 0x40140000) || (0x50000000 ≤ a && a < 0x50010000)

/-- The crossing into AON that carries the writes of a register (R28): 0 life records, 1 meters, 2 RTC, 3 wake, 4 sampled
comparators. -/
def aonQueueOf (a : Nat) : Option Nat :=
  if a < 0x50000000 || 0x50010000 ≤ a then none
  else if a < 0x50004000 then some 0
  else if a < 0x50008000 then some 1
  else if a < 0x5000C000 then some 2
  else if a < 0x5000E000 then some 3
  else some 4

/-- Whether an initiator may use the bus: the debug port once it is opened (R698), in a session, which a partition without
the DBG flag cannot have (R396). -/
def busOpen (d : Dev) (who : Initiator) : Bool :=
  match who with
  | .debug p => d.on CP_STATUS_WARDEN && dbgOf d p
  | _ => true

/-- The owner of a word of grove memory: the one GV_BANKOWN gives its bank; instruction memory and a bank without one are
sealed (R145, R146). -/
def gvMemOwner (d : Dev) (a : Nat) : Nat × Bool :=
  if isGvInst a then (0, true)
  else match bankOwner d (gvOfAddr a) ((a % 0x40000 - 0x10000) / 0x1000) with
  | some p => (p, false)
  | none => (0, true)

/-- Whether a store at offset o of the instruction memory of grove g would touch an enabled task's code (R145). -/
def codeBusy (d : Dev) (g o : Nat) : Bool :=
  (List.range 64).any fun t =>
    d.on GV_TCFG_EN (g * 64 + t) &&
      (let b := d.f GV_TCODE_CBASE (g * 64 + t)
       b ≤ o / 1024 && o / 1024 ≤ b + d.f GV_TCODE_CLEN (g * 64 + t))

/-! ### Loads -/

/-- A load of flash: the boot alias is the warden's alone (R402, R650). -/
def flashLoad (s : State) (who : Initiator) (a n : Nat) : Res × State :=
  if !domOn s.dev 13 then offErr s
  else if memReach s.dev who a n then flashRead s a n
  else denied s who (kindFor who 1) (memOwnerOf s.dev a) false a

/-- A load of SRAM. -/
def sramLoad (s : State) (who : Initiator) (b a n : Nat) : Res × State :=
  if !sramOn s a then offErr s
  else if !memReach s.dev who a n then denied s who (kindFor who 1) (memOwnerOf s.dev a) false a
  else if who = .warden && n = 4 && testMode s.dev b then let (v, s) := testLoad s b a; (.ok v, s)
  else sramRead s b a n (arbSlot who)

/-- A load of grove memory (R145, R146). -/
def gvLoad (s : State) (who : Initiator) (a : Nat) : Res × State :=
  let t := tagOf s.dev who
  if !domOn s.dev (16 + gvOfAddr a) then offErr s
  else
    let o := gvMemOwner s.dev a
    if passes t o then (.ok (s.mget a 4), s) else denied s who (kindFor who 1) o false a

/-- A load of a register; an unlisted offset reads 0 (R13). -/
def regLoad (s : State) (who : Initiator) (a : Nat) : Res × State :=
  match regAt a with
  | none => if offsetPowered s.dev a then (.ok 0, s) else offErr s
  | some (row, i) =>
    if !regPowered s.dev row.reg i then offErr s
    else if mayRead s.dev who row.reg i then
      let (v, d) := regRead s.dev who row.reg i
      (.ok v.toNat, { s with dev := d })
    else denied s who (refKind who row.reg false) (regOwner s.dev row.reg i) false a

/-- A load of n bytes, aligned to n, by an initiator (R33, R34). -/
def busLoad (s : State) (who : Initiator) (a n : Nat) : Res × State :=
  let d := s.dev
  let t := tagOf d who
  if !busOpen d who || a % n ≠ 0 then (.err, s)
  else if a < 0x840000 then flashLoad s who a n
  else match sramBank a with
  | some b => sramLoad s who b a n
  | none =>
    if n ≠ 4 then (.err, s)
    else if isGvInst a || isGvData a then gvLoad s who a
    else if isRingCtx a then
      let r := (a - 0x30000000) / 32
      let o := ringOwner d r
      if passes t o then (.ok (ctxRead s r (a % 32 / 4)), s) else denied s who (kindFor who 5) o false a
    else if isToken a then
      if t.2 then let (v, s) := tokenLoad s a; (.ok v, s)
      else denied s who (kindFor who 5) (0, true) false a
    else if isRegAddr a then regLoad s who a
    else if 0x60000000 ≤ a && a < 0x60000800 then
      if t.2 || t.1 = 0 || a < 0x60000010 then
        (.ok (leNat ((List.range 4).map fun j => (Store.get d.shadow (a - 0x60000000 + j) 0).toNat)), s)
      else denied s who (kindFor who 0) (0, false) false a
    else (.err, s)

/-! ### Stores -/

/-- A store to SRAM. In check-bit test mode a narrow store of the warden sets ACC_ERR (R649). -/
def sramStore (s : State) (who : Initiator) (b a n v : Nat) : Res × State :=
  if !sramOn s a then offErr s
  else if !memReach s.dev who a n then denied s who (kindFor who 1) (memOwnerOf s.dev a) true a
  else if who = .warden && testMode s.dev b then
    if n = 4 then (.ok 0, testStore s b a v) else (.err, s.onDev fun d => d.set1 ME_CAUSE_ACC_ERR)
  else (.ok 0, sramWrite s b a n v (arbSlot who))

/-- A store to grove memory (R145, R146). -/
def gvStore (s : State) (who : Initiator) (a v : Nat) : Res × State :=
  let t := tagOf s.dev who
  let g := gvOfAddr a
  if !domOn s.dev (16 + g) then offErr s
  else
    let o := gvMemOwner s.dev a
    if !passes t o then denied s who (kindFor who 1) o true a
    else if isGvInst a && codeBusy s.dev g (a % 0x40000) then (.err, s.onDev fun d => d.set1 GV_CAUSE_CODE_BUSY g)
    else
      let s := s.mput a 4 v
      (.ok 0, if isGvInst a then s.onDev fun d => codeTouched d g (a % 0x40000) else s)

/-- The writes that wait in crossing q reach their registers, oldest first (R28). -/
def aonTake (d : Dev) (q : Nat) : Dev :=
  match d.aonQ.find? fun x => x.q == q with
  | none => d
  | some x =>
    let d : Dev := { d with aonQ := d.aonQ.erase x }
    match regAt x.addr with
    | some (row, i) => aonRegWrite d row i x.val
    | none => d

/-- The same of a state. -/
def aonArrive (s : State) (q : Nat) : State := s.onDev fun d => aonTake d q

/-- A write enters crossing q; a full one holds the initiator until its oldest write has arrived. A second SET while
one waits is refused (R544). -/
def aonEnter (s : State) (q a : Nat) (R : Reg) (w : Word) : State :=
  let set := R = TM_RTC_CTL && valOf w TM_RTC_CTL_SET != 0
  if set && s.dev.on TM_RTC_CTL_SETBUSY then s.onDev fun d => d.set1 TM_ACAUSE_ACC_ERR
  else
    let s := if 4 ≤ aonFill s.dev q then aonArrive s q else s
    s.onDev fun d =>
      let d := if set then d.setF TM_RTC_CTL_SETBUSY 0 1 else d
      { d with aonQ := d.aonQ ++ [{ q := q, addr := a, val := w }] }

/-- A write of a trail's own registers: 0 TR_SRC, 1 TR_DSTA, 2 TR_DSTB (R465). -/
def trailRegWrite (s : State) (who : Initiator) (t reg : Nat) (w : Word) : Res × State :=
  let tag := tagOf s.dev who
  match trailCheck s tag t reg w with
  | .stored => (.ok 0, s.onDev fun d => trailStore d tag t reg w)
  | .badCode => (.ok 0, s.onDev fun d => d.set1 TR_CAUSE_ACC_ERR)
  | .refused => (.refused, s.onDev fun d => refuse d tag.1 tag.2 (kindFor who 2) (trailOwner d t) true (srcOf who) t)

/-- Whether a doorbell or a fire names a ring or trail that its writer may use (R465, R487). -/
def namedOk (s : State) (who : Initiator) (R : Reg) (w : Word) : Bool :=
  let tag := tagOf s.dev who
  if R = QM_DB then
    let r := valOf w QM_DB_RING
    passes tag (ringOwner s.dev r) && rOn s r
  else if R = TR_FIRE then passes tag (trailOwner s.dev (valOf w TR_FIRE_TRAIL))
  else true

/-- The refusal of a doorbell or a fire that it may not. -/
def namedDenied (s : State) (who : Initiator) (R : Reg) (w : Word) (a : Nat) : Res × State :=
  if R = QM_DB then denied s who (kindFor who 5) (ringOwner s.dev (valOf w QM_DB_RING)) true a
  else
    let t := valOf w TR_FIRE_TRAIL
    denied s who (kindFor who 2) (trailOwner s.dev t) true t

/-- A store to copy i of a register. -/
def regStoreAt (s : State) (who : Initiator) (row : RegRow) (i a : Nat) (w : Word) : Res × State :=
  let R := row.reg
  if !regPowered s.dev R i then offErr s
  else if R = TR_SRC then trailRegWrite s who i 0 w
  else if R = TR_DSTA then trailRegWrite s who i 1 w
  else if R = TR_DSTB then trailRegWrite s who i 2 w
  else if !namedOk s who R w then namedDenied s who R w a
  else if !mayWrite s who R i w then denied s who (refKind who R true) (regOwner s.dev R i) true a
  else match aonQueueOf a with
  | some q => (.ok 0, aonEnter s q a R w)
  | none => (.ok 0, regWrite s who row i w)

/-- A store to a register; at an unlisted offset it is ignored (R13). -/
def regStore (s : State) (who : Initiator) (a : Nat) (w : Word) : Res × State :=
  match regAt a with
  | none => if offsetPowered s.dev a then (.ok 0, s) else offErr s
  | some (row, i) => regStoreAt s who row i a w

/-- A store of n bytes, aligned to n, by an initiator (R33, R34). -/
def busStore (s : State) (who : Initiator) (a n v : Nat) : Res × State :=
  let d := s.dev
  let t := tagOf d who
  if !busOpen d who || a % n ≠ 0 then (.err, s)
  else match sramBank a with
  | some b => sramStore s who b a n v
  | none =>
    if n ≠ 4 then (.err, s)
    else if isGvInst a || isGvData a then gvStore s who a v
    else if isRingCtx a then
      let r := (a - 0x30000000) / 32
      let o := ringOwner d r
      if passes t o then (.ok 0, ctxWrite s r (a % 32 / 4) v) else denied s who (kindFor who 5) o true a
    else if isToken a then
      if t.2 then (.ok 0, tokenStore s a v) else denied s who (kindFor who 5) (0, true) true a
    else if isRegAddr a then regStore s who a (BitVec.ofNat 32 v)
    else (.err, s)

/-! ### Commands that are one access -/

/-- What an access command leaves in the state: the value read and whether the bus reported an error. -/
def keepRes (x : Res × State) : State :=
  let (v, e) : Nat × Int := match x.1 with
    | .ok v => (v, 0)
    | _ => (0, 1)
  x.2.onDev fun d => (d.setH .rdOut 0 v).setH .rdOut 1 e

/-- A store of a word to copy i of register R. -/
def storeReg (s : State) (who : Initiator) (R : Reg) (i : Nat) (w : Word) : Host.Outcome State Fault Refusal :=
  .next (keepRes (busStore s who (R.addr i) 4 w.toNat))

/-- A word with only field F set, to v: how the write-only and write-1 bits of a register are written. -/
def onlyF (F : Fld) (v : Int) : Word := putBits 0 F.lo F.n v

/-- The register's present word without its write-1 and write-only bits, and fields set: how a read-modify-write changes
one field. -/
def present (d : Dev) (R : Reg) (i : Nat) : Word :=
  match regAt (R.addr i) with
  | some (row, _) =>
    row.fields.foldl (fun w F => if F.acc == .wo || F.acc == .w1c || F.acc == .w1s then putBits w F.lo F.n 0 else w) (d.r R i)
  | none => d.r R i

/-- A store that changes field F of a register to v and leaves its other fields as they are. -/
def storeF (s : State) (who : Initiator) (F : Fld) (i : Nat) (v : Int) : Host.Outcome State Fault Refusal :=
  storeReg s who F.reg i (putBits (present s.dev F.reg i) F.lo F.n v)

end Sys2Proof.Machine
end

