-- ==== Sys2Proof/Machine/Crypto.lean ====
section
/-! DEFINITION. Image verification (spec/11, R419 to R423): SHA-256 and ECDSA over P-256, which R419 to R422 name without
restating them (FIPS 180-4 and FIPS 186-4; notes/assumptions/48.md), and the checks of an image. -/

namespace Sys2Proof.Machine

/-! ### SHA-256 -/

/-- The round constants. -/
def shaK : List Word :=
  [0x428A2F98, 0x71374491, 0xB5C0FBCF, 0xE9B5DBA5, 0x3956C25B, 0x59F111F1, 0x923F82A4, 0xAB1C5ED5]
  ++ [0xD807AA98, 0x12835B01, 0x243185BE, 0x550C7DC3, 0x72BE5D74, 0x80DEB1FE, 0x9BDC06A7, 0xC19BF174]
  ++ [0xE49B69C1, 0xEFBE4786, 0x0FC19DC6, 0x240CA1CC, 0x2DE92C6F, 0x4A7484AA, 0x5CB0A9DC, 0x76F988DA]
  ++ [0x983E5152, 0xA831C66D, 0xB00327C8, 0xBF597FC7, 0xC6E00BF3, 0xD5A79147, 0x06CA6351, 0x14292967]
  ++ [0x27B70A85, 0x2E1B2138, 0x4D2C6DFC, 0x53380D13, 0x650A7354, 0x766A0ABB, 0x81C2C92E, 0x92722C85]
  ++ [0xA2BFE8A1, 0xA81A664B, 0xC24B8B70, 0xC76C51A3, 0xD192E819, 0xD6990624, 0xF40E3585, 0x106AA070]
  ++ [0x19A4C116, 0x1E376C08, 0x2748774C, 0x34B0BCB5, 0x391C0CB3, 0x4ED8AA4A, 0x5B9CCA4F, 0x682E6FF3]
  ++ [0x748F82EE, 0x78A5636F, 0x84C87814, 0x8CC70208, 0x90BEFFFA, 0xA4506CEB, 0xBEF9A3F7, 0xC67178F2]

/-- The initial hash value. -/
def shaH0 : List Word := [0x6A09E667, 0xBB67AE85, 0x3C6EF372, 0xA54FF53A, 0x510E527F, 0x9B05688C, 0x1F83D9AB, 0x5BE0CD19]

/-- Rotate right. -/
def rotr (x : Word) (n : Nat) : Word := (x >>> n) ||| (x <<< (32 - n))

/-- n further words of the message schedule; `l` holds the words so far, newest first. -/
def shaSched : Nat → List Word → List Word
  | 0, l => l
  | n + 1, l =>
    let w (i : Nat) : Word := (l[i]?).getD 0
    let s0 := rotr (w 14) 7 ^^^ rotr (w 14) 18 ^^^ (w 14 >>> 3)
    let s1 := rotr (w 1) 17 ^^^ rotr (w 1) 19 ^^^ (w 1 >>> 10)
    shaSched n ((w 15 + s0 + w 6 + s1) :: l)

/-- One round on the eight working variables, given K + W. -/
def shaRound (v : List Word) (kw : Word) : List Word :=
  match v with
  | [a, b, c, d, e, f, g, h] =>
    let s1 := rotr e 6 ^^^ rotr e 11 ^^^ rotr e 25
    let t1 := h + s1 + ((e &&& f) ^^^ (~~~e &&& g)) + kw
    let s0 := rotr a 2 ^^^ rotr a 13 ^^^ rotr a 22
    let t2 := s0 + ((a &&& b) ^^^ (a &&& c) ^^^ (b &&& c))
    [t1 + t2, a, b, c, d + t1, e, f, g]
  | v => v

/-- A big-endian number of bytes, and its n bytes. -/
def beNat (l : List Nat) : Nat := l.foldl (fun a b => a * 256 + b) 0
def beBytes (n x : Nat) : List Nat := (leBytes n x).reverse

/-- One block of 64 bytes. -/
def shaBlock (h : List Word) (b : List Nat) : List Word :=
  let w0 := (List.range 16).map fun i => BitVec.ofNat 32 (beNat ((b.drop (4 * i)).take 4))
  let w := (shaSched 48 w0.reverse).reverse
  let v := (List.zipWith (fun k w => k + w) shaK w).foldl shaRound h
  List.zipWith (fun a b => a + b) h v

/-- n blocks of a padded message. -/
def shaBlocks : Nat → List Word → List Nat → List Word
  | 0, h, _ => h
  | n + 1, h, b => shaBlocks n (shaBlock h (b.take 64)) (b.drop 64)

/-- The SHA-256 of a list of bytes. -/
def sha256 (m : List Nat) : List Nat :=
  let z := (64 - (m.length + 9) % 64) % 64
  let b := m ++ [0x80] ++ List.replicate z 0 ++ beBytes 8 (8 * m.length)
  (shaBlocks (b.length / 64) shaH0 b).flatMap fun w => beBytes 4 w.toNat

/-! ### ECDSA over P-256 -/

/-- The prime of the field, the curve's b, the order of its base point and that point. -/
def pP : Nat := 2 ^ 256 - 2 ^ 224 + 2 ^ 192 + 2 ^ 96 - 1
def pB : Nat := 0x5AC635D8AA3A93E7B3EBBD55769886BC651D06B0CC53B0F63BCE3C3E27D2604B
def pN : Nat := 0xFFFFFFFF00000000FFFFFFFFFFFFFFFFBCE6FAADA7179E84F3B9CAC2FC632551
def pG : Nat × Nat :=
  (0x6B17D1F2E12C4247F8BCE6E563A440F277037D812DEB33A0F4A13945D898C296,
   0x4FE342E2FE1A7F9B8EE7EB4A7C0F9E162BCE33576B315ECECBB6406837BF51F5)

/-- x to the power e, modulo m, with at most `fuel` bits of e. -/
def powMod (m : Nat) : Nat → Nat → Nat → Nat
  | 0, _, _ => 1
  | fuel + 1, x, e =>
    let h := powMod m fuel (x * x % m) (e / 2)
    if e % 2 = 1 then x * h % m else h

/-- The inverse modulo a prime. -/
def invMod (m x : Nat) : Nat := powMod m 256 (x % m) (m - 2)

/-- Difference modulo the field prime. -/
def subP (a b : Nat) : Nat := (a + (pP - b % pP)) % pP

/-- The sum of two points; none is the point at infinity. -/
def ecAdd (a b : Option (Nat × Nat)) : Option (Nat × Nat) :=
  match a, b with
  | none, b => b
  | a, none => a
  | some (x, y), some (u, v) =>
    if x = u && (y + v) % pP = 0 then none
    else
      let l := if x = u then 3 * subP (x * x) 1 * invMod pP (2 * y) % pP else subP v y * invMod pP (subP u x) % pP
      let t := subP (subP (l * l) x) u
      some (t, subP (l * subP x t) y)

/-- k times a point, with at most `fuel` bits of k. -/
def ecMul : Nat → Nat → Option (Nat × Nat) → Option (Nat × Nat)
  | 0, _, _ => none
  | fuel + 1, k, a =>
    let h := ecMul fuel (k / 2) (ecAdd a a)
    if k % 2 = 1 then ecAdd a h else h

/-- Whether signature (r, s) of public key (x, y) verifies over a 32-byte hash. -/
def ecdsaOk (x y r s : Nat) (hash : List Nat) : Bool :=
  let on := x < pP && y < pP && (y * y) % pP = (x * x * x + (pP - 3) * x + pB) % pP
  let w := invMod pN s
  let u1 := beNat hash * w % pN
  let u2 := r * w % pN
  on && 1 ≤ r && r < pN && 1 ≤ s && s < pN &&
    match ecAdd (ecMul 256 u1 (some pG)) (ecMul 256 u2 (some (x, y))) with
    | some (t, _) => t % pN = r
    | none => false

/-! ### Keys and images -/

/-- Bytes of the fuse shadow. -/
def shByte (d : Dev) (o : Nat) : Nat := (Store.get d.shadow o 0).toNat
def shBytes (d : Dev) (o n : Nat) : List Nat := (List.range n).map fun j => shByte d (o + j)

/-- USE of key i, and whether it is revoked or blank (R410, R419). -/
def keyUse (d : Dev) (i : Nat) : Nat := shByte d (0x140 + 4 * i) % 4
def keyRevoked (d : Dev) (i : Nat) : Bool := flag8 (shByte d (0x142 + 4 * i))
def keyHash (d : Dev) (i : Nat) : List Nat := shBytes d (0x40 + 0x20 * i) 32

/-- Whether a signature r, s by public key bytes x, y verifies over the SHA-256 of a message. -/
def sigOk (pub sig msg : List Nat) : Bool :=
  ecdsaOk (beNat (pub.take 32)) (beNat (pub.drop 32)) (beNat (sig.take 32)) (beNat (sig.drop 32)) (sha256 msg)

/-- Header fields of an image (R421). -/
def hdKey (h : List Nat) : Nat := (h[7]?).getD 0
def hdVersion (h : List Nat) : Nat := leNat ((h.drop 8).take 4)
def hdLength (h : List Nat) : Nat := leNat ((h.drop 12).take 4)

/-- Whether a header is valid and of the KIND and PART expected (R421, R422). -/
def headerOk (h : List Nat) (kind part : Nat) : Bool :=
  h.length == 192 && h.take 5 == [0x49, 0x5A, 0x49, 0x4D, 1] && (h[5]?).getD 0 == kind && kind < 3
    && (kind == 0 || (h[6]?).getD 0 == part) && hdKey h < 8 && hdLength h % 4 == 0 && hdLength h ≤ 0x400000
    && ((h.drop 0x70).take 16).all fun b => b == 0

/-- Whether the key a header names is accepted (R419, R422). -/
def keyOk (d : Dev) (h : List Nat) (kind part : Nat) : Bool :=
  let i := hdKey h
  !keyRevoked d i && sha256 ((h.drop 0x30).take 64) == keyHash d i
    && (if kind = 0 then keyUse d i == 1 else keyUse d i == 3 && (shByte d (0x141 + 4 * i)).testBit part)

/-- RES of an image (R422): `body` is what its body reads as, none where it cannot be read. -/
def imageRes (d : Dev) (h : List Nat) (body : Option (List Nat)) (kind part : Nat) : Nat :=
  if !headerOk h kind part then 1
  else if !keyOk d h kind part then 2
  else match body with
  | none => 3
  | some b =>
    if sha256 b != (h.drop 0x10).take 32 then 3
    else if !sigOk ((h.drop 0x30).take 64) ((h.drop 0x80).take 64) (h.take 0x80) then 4
    else 0

/-- n words that the verification engine reads from flash or SRAM, by requester slot 8 (R496); none where one cannot be
read. -/
def verifyRead (s : State) (a : Nat) : Nat → Option (List Nat) × State
  | 0 => (some [], s)
  | n + 1 =>
    let x : Res × State :=
      if a < 0x840000 then (if domOn s.dev 13 then flashRead s a 4 else (.err, s))
      else match sramBank a with
      | some b => if sramOn s a then sramRead s b a 4 8 else (.err, s)
      | none => (.err, s)
    match x with
    | (.ok v, s) =>
      let (l, s) := verifyRead s (a + 4) n
      (l.map fun l => leBytes 4 v ++ l, s)
    | (_, s) => (none, s)

/-- VERIFY_DONE (R422): the engine ends. An image that cannot be read fails its header or body check
(notes/assumptions/48.md). -/
def execVerifyDone (s : State) : Host.Outcome State Fault Refusal :=
  if domOn s.dev 0 && s.dev.on CH_VCTL_BUSY then
    let a := s.dev.f CH_VSRC_ADDR
    let kind := s.dev.f CH_VCTL_KIND
    let part := s.dev.f CH_VCTL_PART
    let (h, s) := if a % 4 = 0 then verifyRead s a 48 else (none, s)
    let h := h.getD []
    let (b, s) := if headerOk h kind part then verifyRead s (a + 0xC0) (hdLength h / 4) else (none, s)
    let res := imageRes s.dev h b kind part
    .next (s.onDev fun d =>
      let d := (d.setF CH_VCTL_BUSY 0 0).setF CH_VCTL_RES 0 res
      if res = 0 then d.setF CH_VINFO_VERSION 0 (hdVersion h) else d.set1 CH_CAUSE_VERIFY_FAIL)
  else .next s

/-! ### The boot twins (R423) -/

/-- n bytes of twin t from offset o; none where a line was left half programmed. -/
def twinBytes (s : State) (t o n : Nat) : Option (List Nat) :=
  if 0x40000 < o + n || (List.range ((o + n + 15) / 16 - o / 16)).any fun i => s.mb (tornKey (twinKey t (o + 16 * i))) != 0
  then none else some (s.mbs (twinKey t o) n)

/-- RES of the root firmware in twin t, and its header. -/
def twinRes (s : State) (t : Nat) : Nat × List Nat :=
  let h := (twinBytes s t 0 192).getD []
  (imageRes s.dev h (twinBytes s t 0xC0 (hdLength h)) 0 0, h)

end Sys2Proof.Machine
end

