-- ==== Sys2Proof/Machine/Reset.lean ====
section
/-! DEFINITION. Resets and start-up (spec/20, R693 to R698; spec/11, R415, R423; spec/06, R239, R240), the brown-out
warning (R680), and the sampled comparators (R244, R245). -/

namespace Sys2Proof.Machine

/-! ### Device and power-on reset -/

/-- Internal variables of the flash controller, kept until a device reset is released (R694). -/
def flashHids : List Hid := [.fcPair, .fcSpace, .fcOp, .fcBase, .fcLines, .fcErase, .fcVerify]

/-- The internal variables a device reset keeps (R695): those of the life counters, the meters, the RTC and the held time
base, the pads' levels, the TAP, the core buck's setpoint, and, until the reset is released, the flash controller. -/
def keptHids : List Hid :=
  .lOn :: .lOnFrac :: .lChg :: .lTherm :: .lFaults :: .lExt :: .lPrevExt :: .lDir :: .lSeen :: .lWear :: .lMirror :: .lSeq ::
  .mirror :: .dieMax :: .tbFrac :: .tbAclk :: .cal1 :: .setReady :: .rtcDay :: .rtcYear :: .almBelow :: .rtcStop :: .deadCnt ::
  .emFracD :: .emFracR :: .emStart :: .emStamp :: .emRtc :: .emLen :: .emLast :: .emGap :: .pohFrac :: .lfErr :: .lfErase ::
  .lfCut :: .padLvl :: .vcoreOff :: .tapTest :: .tapIr :: .cell :: .scanDone :: .lMap :: .lfWait ::
  .logKeep :: flashHids

/-- Whether the key of an internal variable is one of a list's. -/
def hidIn (l : List Hid) (key : Nat) : Bool := l.any fun v => v.ctorIdx == key % 1024

/-- AON registers whose table gives them a reset value, not P: a device reset restores it (R16, R253, R534, R562, R563;
notes/assumptions/56.md). From 0x5000_C000 on, the wake path and the sampled comparators, that is every register. -/
def aonReset (a : Nat) : Bool :=
  a == LF_STATUS.base || a == LF_SSEL.base || a == TM_SET_LO.base || a == TM_SET_HI.base || 0x5000C000 ≤ a

/-- Registers a device reset keeps: those in AON, PX_RSTSRC and, until it is released, the flash controller's. -/
def keptReg (a : Nat) : Bool :=
  (0x50000000 ≤ a && !aonReset a) || a == PX_RSTSRC.base || (0x40110000 ≤ a && a < 0x40120000)

/-- The device under a device reset (R694, R695): every output released, everything outside AON reset. -/
def devUnderReset (d : Dev) : Dev :=
  let st := d.r PX_STATUS
  let e : Dev :=
    { Dev.blank with
      regs := d.regs.filter fun c => keptReg c.1
      hid := d.hid.filter fun c => hidIn keptHids c.1
      tb := d.tb
      logq := d.logq
      fresh := d.fresh }
  let e := e.setR PX_STATUS 0 (withF 0 [(PX_STATUS_XTAL_OK, bitsOf st 9 1), (PX_STATUS_BUCK_PG, bitsOf st 10 1),
    (PX_STATUS_BOR, bitsOf st 12 1)])
  let e := vcoreWrite (e.setF PX_VCORE_NOW 0 ((e.h .vcoreOff + 100) / 5))
  let e := (e.setH .start 0 1).setH .tbWait 0 1
  e.each 5 fun e c => e.setH .cCycBase c e.now

/-- Main SRAM's valid bits are cleared, and the ring contexts and tokens of the queue manager reset (R641, R695). -/
def memUnderReset (s : State) : State :=
  let s := clearValid s fun k => (match sramBank k with | some b => b < 16 | none => spareKey 0 0 ≤ k && k < spareKey 16 0)
  { s with mem := s.mem.filter fun c => !(0x30000000 ≤ c.1 && c.1 < 0x30400000) && c.1 < tokKey 0 }

/-- What waits in the five crossings into AON, at most four writes each, arrives: AON is not reset, and the queues are empty after
it (R16, R28; notes/assumptions/33.md). -/
def aonDrain (d : Dev) : Dev :=
  (List.range 5).foldl (fun d q => (List.range 4).foldl (fun d _ => aonTake d q) d) d

/-- A device reset from a source, which sets its bit of PX_RSTSRC (R693, R696). One that comes during start-up from an AON
power-up, while the buck ramps, is absorbed by it. -/
def devReset (s : State) (src : Fld) : State :=
  let s := s.onDev fun d => d.set1 src
  if s.dev.hn .start = 0 then s else memUnderReset (s.onDev fun d => devUnderReset (aonDrain d))

/-- What a power-on reset leaves of the memory: flash, swap cell and fuses (R681, R695). -/
def keptAtPor (k : Nat) : Bool :=
  k < 0x840000 || (0x100000000 ≤ k && k < 0x100202000) || (tornKey 0 ≤ k && k < 0xA00000000)

/-- POWER_ON_RESET (R681, R693, R695). The number of the next free value goes on. -/
def execPowerOnReset (s : State) : Host.Outcome State Fault Refusal :=
  .next { dev := { State.reset.dev with fresh := s.dev.fresh }, mem := s.mem.filter (fun c => keptAtPor c.1), pending := s.pending }

/-- RESET_PIN (R693). -/
def execResetPin (s : State) : Host.Outcome State Fault Refusal := .next (devReset s PX_RSTSRC_PIN)

/-- VIN_UNDERVOLTAGE (R681, R693). -/
def execVinUndervoltage (s : State) : Host.Outcome State Fault Refusal := .next (devReset s PX_RSTSRC_UVLO)

/-- BUCK_FAULT (R678, R693). -/
def execBuckFault (s : State) : Host.Outcome State Fault Refusal := .next (devReset s PX_RSTSRC_BUCK)

/-- RESET_RELEASE (R252, R694): with no program pulse under way. An erase in progress has stopped, its sector left partly
erased; a copy to FC_BUF is dropped. FC_LOGSTAT reads 0 (R16) until SVC is released; the log itself goes on where it stood. -/
def execResetRelease (s : State) : Host.Outcome State Fault Refusal :=
  let st := s.dev.f FC_STATUS_STATE
  let pulse := (st = 1 || st = 5) && s.dev.hn .fcOp != 5
  if s.dev.hn .start = 1 && !pulse then
    let s := if 2 ≤ st then fcEraseFail s else s
    .next (swapShow (s.onDev fun d =>
      let d := if d.hon .logKeep then d else d.setH .logKeep 0 ((d.r FC_LOGSTAT).toNat + 1 : Nat)
      let d : Dev := { d with regs := d.regs.filter (fun c => !(0x40110000 ≤ c.1 && c.1 < 0x40120000))
                              hid := d.hid.filter (fun c => !hidIn flashHids c.1) }
      let d := d.setF FC_STATUS_BROWN 0 (d.f PX_STATUS_BOR)
      d.setH .start 0 2))
  else .next s

/-- BUCK_PG (R697): VCORE is at its setpoint; after an AON power-up the fuse load follows. -/
def execBuckPg (s : State) : Host.Outcome State Fault Refusal :=
  s.ok fun d =>
    if d.hn .start = 0 then ((d.setF PX_STATUS_BUCK_PG 0 1).setF PX_STATUS_BUCK_RAMP 0 0).setH .start 0 2
    else d.when (d.h .vcoreOff == vcoreWant d) fun d => d.setF PX_STATUS_BUCK_PG 0 1

/-! ### The fuse load -/

/-- The fuse shadow: the fuses that are blown (R409). -/
def shadowLoad (s : State) : List (Nat × Byte) :=
  ((List.range 0x800).filter fun o => fuseByte s o != 0).map fun o => (o, BitVec.ofNat 8 (fuseByte s o))

/-- The governing charter follows from the slots (R414, R415, R717). -/
def charterLoad (s : State) : State :=
  let slots := (List.range 4).map fun j => slotBytes s j
  let sb (j : Nat) : List Nat := (slots[j]?).getD []
  let set (p : List Nat → Bool) : Nat := boughBits 4 fun j => p (sb j)
  let gov := (List.range 4).foldl (fun a j => if slotValid (sb j) && !slotRetired (sb j) then some j else a) none
  let img := match gov with
    | some j => sb j
    | none => defaultCharter
  s.onDev fun d =>
    let d := d.each 64 fun d w => d.setR CH_CHARTER w (BitVec.ofNat 32 (leNat ((img.drop (4 * w)).take 4)))
    let d := (d.setF CH_STATUS_SLOT 0 (gov.getD 0)).setF CH_STATUS_DEFAULT 0 (b2i gov.isNone)
    let d := (d.setF CH_STATUS_VALID 0 (set slotValid)).setF CH_STATUS_RETIRED 0 (set slotRetired)
    let d := (d.setF CH_STATUS_BLANK 0 (set slotBlank)).setF CH_STATUS_NPART 0 ((img[5]?).getD 0 : Nat)
    let d := (d.setF CH_SERIAL_SERIAL 0 (leNat ((img.drop 6).take 2))).setF CH_SERIAL_CVER 0 ((img[4]?).getD 0 : Nat)
    if (List.range 4).any fun j => !slotBlank (sb j) && !slotValid (sb j) then d.set1 CH_CAUSE_SLOT_BAD else d

/-- What the blocks load from the fuses: the keys' state, the SRAM repair map, and the trims and versions whose place in
the fuses the spec does not give (R419, R646; notes/assumptions/49.md). -/
def trimsLoad (d : Dev) : Dev :=
  let d := d.each 8 fun d i =>
    (d.setF (CH_KEYSTAT_USE i) 0 (keyUse d i)).setF (CH_KEYSTAT_REVOKED i) 0 (b2i (keyRevoked d i))
  let d := d.each 16 fun d b => d.setF ME_BROWS_USED b
    (boughBits 8 fun i => (shByte d (0x200 + b * 0x10 + 2 * i + 1)).testBit 7)
  let d := (d.setF LN_VER_CUR 0 (Config.fuseTrim 0).toNat).setF LN_VER_PREV 0 (Config.fuseTrim 1).toNat
  let d := d.setR IG_FEAT 0 (Config.fuseTrim 2)
  d.setR TC_TTRIM 0 (Config.fuseTrim 3)

/-- FUSE_LOAD_DONE (R404, R415, R683, R697): the shadows are loaded and the straps sampled. -/
def execFuseLoadDone (straps : BitVec 5) (s : State) : Host.Outcome State Fault Refusal :=
  if s.dev.hn .start = 2 then
    let s := charterLoad (s.onDev fun d => { d with shadow := shadowLoad s })
    .next (s.onDev fun d =>
      let boot := straps.toNat / 8
      let d := trimsLoad d
      let d := (d.setF PX_STRAP_ADDR 0 (straps.toNat % 8)).setF PX_STRAP_BOOT 0 boot
      let d := if 2 ≤ boot then d.set1 PX_CAUSE_STRAP_BAD else d
      d.setH .start 0 3)
  else .next s

/-- SVC_RELEASE (R27, R230, R443, R679, R697): the PLLs have locked, on REFCLK or on ROSC; the I/O banks are detected; the
stage buses that are enabled hold their roll call (R118). -/
def execSvcRelease (refclk : Bool) (vio : BitVec 6) (s : State) : Host.Outcome State Fault Refusal :=
  s.ok fun d => d.when (d.hn .start == 3) fun d =>
    let d := ((((d.setH .start 0 4).setH .svcOn 0 1).setH .wVote 0 1).setH .wdgAt 0 (d.now + 1 : Nat)).setH .tbWait 0 1
    let d := d.setR PX_STATUS 0 (withF (d.r PX_STATUS) [(PX_STATUS_REFCLK, b2i refclk), (PX_STATUS_VIOA, bitsOf (vio.setWidth 32) 0 1),
      (PX_STATUS_VIOA_33, bitsOf (vio.setWidth 32) 1 1), (PX_STATUS_VIOB, bitsOf (vio.setWidth 32) 2 1),
      (PX_STATUS_VIOB_33, bitsOf (vio.setWidth 32) 3 1), (PX_STATUS_VIOC, bitsOf (vio.setWidth 32) 4 1),
      (PX_STATUS_VIOD, bitsOf (vio.setWidth 32) 5 1)])
    let d := if d.hon .logKeep then (d.setR FC_LOGSTAT 0 (BitVec.ofNat 32 (d.hn .logKeep - 1))).setH .logKeep 0 0 else d
    let d := d.eachIn [0, 13, 47] fun d n => d.setF PD_DSTAT_STATE n 1
    let d := d.setF CP_STATUS_ADDR 0 (0x58 + d.f PX_STRAP_ADDR : Nat)
    let d := d.setF PX_GIN_IN 0 (boughBits 32 fun i => padBank d i && d.hon .padLvl i)
    let d := d.each 4 fun d m => if d.on PH_SB_CFG_EN m then rollStart d m true else d
    fbPins (wakeAll d)

/-! ### The boot -/

/-- The warden leaves reset at 0x0080_00C0 once a twin has passed and, after an AON power-up, the log is scanned (R698). -/
def wardenRelease (d : Dev) : Dev :=
  if d.hn .bootOk = 1 && d.hon .scanDone && !d.on CP_STATUS_WARDEN then
    maskSlot ((coreReset d 4).set1 CP_STATUS_WARDEN) false 4
  else d

/-- A twin is booted (R423, R669): the alias shows it. -/
def twinBoot (s : State) (t : Nat) (h : List Nat) : State :=
  (s.onDev fun d =>
    let d := (d.setF CH_BOOT_TWIN 0 t).setF FC_SWAP_ACTIVE 0 t
    let d := (d.setF CH_BOOT_KEYIDX 0 (hdKey h)).setF CH_BOOT_VERSION 0 (hdVersion h)
    d.setH .bootOk 0 1) |> swapShow

/-- No root firmware passed: the warden stays in reset (R423). -/
def rootOnly (d : Dev) : Dev := (d.set1 CH_BOOT_ROOTONLY).setH .bootOk 0 2

/-- Verification of the boot twins (R423, R669, R683): after a device reset the one the cell names first, the other first
in recovery; later the active one alone (notes/assumptions/50.md). -/
def bootVerify (s : State) : State :=
  let fail (s : State) : State := s.onDev fun d => d.set1 CH_CAUSE_VERIFY_FAIL
  if s.dev.hn .bootOk = 3 then
    let (res, h) := twinRes s (s.dev.f FC_SWAP_ACTIVE)
    if res = 0 then twinBoot s (s.dev.f FC_SWAP_ACTIVE) h else (fail s).onDev rootOnly
  else
    let named := ((swapNewest s).map fun x => x.2.1).getD 0
    let first := if s.dev.f PX_STRAP_BOOT = 1 then 1 - named else named
    let boot (s : State) (t : Nat) (h : List Nat) : State :=
      let s := if t ≠ named then s.onDev fun d => (d.set1 CH_BOOT_FALLBACK).set1 CH_CAUSE_FALLBACK else s
      twinBoot s t h
    let (r1, h1) := twinRes s first
    if r1 = 0 then boot s first h1
    else
      let s := fail s
      let (r2, h2) := twinRes s (1 - first)
      if r2 = 0 then boot s (1 - first) h2 else (fail s).onDev rootOnly

/-- BOOT_VERIFY_DONE (R423, R698). What a warden reset left to answer is answered before the warden runs (R442). -/
def execBootVerifyDone (s : State) : Host.Outcome State Fault Refusal :=
  let d := s.dev
  if d.hn .start = 4 && domOn d 0 && !d.on CP_STATUS_WARDEN && (d.hn .bootOk = 0 || d.hn .bootOk = 3) then
    .next ((bootVerify s).onDev fun d =>
      wardenRelease (if d.hon .wrst then (portsWardenReset d).setH .wrst 0 0 else d))
  else .next s

/-- LOG_SCAN_DONE (R546, R561, R668, R698): once after an AON power-up. -/
def execLogScanDone (s : State) : Host.Outcome State Fault Refusal :=
  if s.dev.hn .start = 4 && !s.dev.hon .scanDone then
    .next ((logRestore s).onDev fun d => wardenRelease (d.setH .scanDone 0 1))
  else .next s

/-! ### Warden and core resets, and their watchdogs -/

/-- A warden reset (R442, R497, R695): the rest of the device goes on; the active twin is verified again before the release,
and until then the warden's arbiter slot is masked. -/
def wardenReset (d : Dev) : Dev :=
  let d := maskSlot ((coreReset d 4).setF CP_STATUS_WARDEN 0 0) true 4
  ((d.set1 PX_RSTSRC_WARDEN).setH .bootOk 0 3).setH .wrst 0 1

/-- WARDEN_WDOG_EXPIRE (R239): the actions of FB_DACT2, then those of FB_WDG.ACT. It expires once per kick, and not in Quiet
(R525). -/
def execWardenWdogExpire (s : State) : Host.Outcome State Fault Refusal :=
  let d := s.dev
  if d.on FB_WDG_EN && d.hon .wdgAt && d.hn .start = 4 && domOn d 0 && d.f PD_STATE_STATE ≠ 1 then
    let s := s.onDev fun d => devAction (d.setH .wdgAt 0 0) 2
    match d.f FB_WDG_ACT with
    | 1 => .next (s.onDev wardenReset)
    | 2 => .next (devReset s PX_RSTSRC_WDOG)
    | _ => .next s
  else .next s

/-- CORE_WDOG_EXPIRE (R240). -/
def execCoreWdogExpire (c : Fin 4) (s : State) : Host.Outcome State Fault Refusal :=
  s.ok fun d => d.when (d.on FB_CWDG_EN c && d.hn .start == 4 && domOn d 0 && d.f PD_STATE_STATE != 1) fun d =>
    let d := devAction (d.setH .wdgAt (1 + c.val) 0) 7
    if d.on FB_CWDG_ACT c then (coreReset d c).setBit PX_RSTSRC_CORE 0 c true else d

/-- WARDEN_RESET (R442): the command-port block answers what a warden reset left pending. -/
def execWardenReset (s : State) : Host.Outcome State Fault Refusal :=
  s.ok fun d => d.when (d.hon .wrst && domOn d 0) fun d => (portsWardenReset d).setH .wrst 0 0

/-! ### The brown-out warning -/

/-- BROWN_OUT (R552, R662, R680). -/
def execBrownOut (s : State) : Host.Outcome State Fault Refusal :=
  if s.dev.on PX_STATUS_BOR then .next s
  else
    let s := s.onDev fun d => (d.setF PX_STATUS_BOR 0 1).set1 PX_CAUSE_BOR
    .next ((fcBrown s).onDev lfBrownOut)

/-- BROWN_OUT_END (R662, R680). -/
def execBrownOutEnd (s : State) : Host.Outcome State Fault Refusal :=
  s.ok fun d => d.when (d.on PX_STATUS_BOR) fun d =>
    let d := (d.setF PX_STATUS_BOR 0 0).set1 PX_CAUSE_BOR_END
    let d := (d.setF FC_STATUS_BROWN 0 0).setH .lfCut 0 0
    if d.f FC_STATUS_STATE = 0 then fcIdle d else d

/-! ### Sampled comparators and device sources -/

/-- The actions a decision of sampled comparator j takes, beside those it still holds (R245). -/
def scActs (d : Dev) (j : Nat) : Dev :=
  let old := if (d.f FB_SC_CAUSE_TRIP).testBit j then d.hn .scAct j else 0
  d.setH .scAct j (old ||| (d.f FB_SC_CFG_CROW j + 16 * d.f FB_SC_CFG_EFUSE j + 32 * d.f FB_SC_CFG_FAULT j) : Nat)

/-- SC_SAMPLE (R244, R245, R462): comparator j samples its input, in 1/1,024 mV. A decision begins a new count of samples. -/
def execScSample (j : Fin 8) (v : Int) (s : State) : Host.Outcome State Fault Refusal :=
  s.ok fun d => d.when (d.on FB_SC_CFG_EN j) fun d =>
    let th : Int := d.f FB_SC_TH_TH j * 1600
    let trip : Bool := if d.on FB_SC_CFG_DIR j then v < th else th < v
    let d := d.setF FB_SC_STAT_OUT j (b2i trip)
    if !trip then d.setH .scRun j 0
    else if d.hn .scRun j + 1 < d.f FB_SC_CFG_N j then d.setH .scRun j (d.h .scRun j + 1)
    else
      let d := fbPins (((scActs (d.setH .scRun j 0) j).setBit FB_SC_CAUSE_TRIP 0 j true).raise (0x208 + j.val))
      if d.on FB_SC_CFG_WAKE j then aonWake d 0 else d

/-- DEVICE_SOURCE_OUTPUT_FALL (R227 to R229, R280): the output of a device source that had decided is 0 again. -/
def execDeviceSourceOutputFall (src : Fin 8) (s : State) : Host.Outcome State Fault Refusal :=
  s.svc fun d => d.when (d.hn .devDone src == 2) fun d =>
    storeSettle (fbPins (d.setH .devDone src 0))

end Sys2Proof.Machine
end

