-- ==== Sys2Proof/Machine/Dma.lean ====
section
/-! DEFINITION. The DMA channels at work: fetching a descriptor, serving a burst, completing and failing (spec/13, R474 to
R482, R489). -/

namespace Sys2Proof.Machine

/-- The initiator a channel is. -/
def dmaInit (ch : Nat) : Initiator := .dma (Fin.ofNat 32 ch)

/-- The channel halts in ERROR (R477): kind 0 a bus error or refusal, 1 an uncorrectable error, 3 an invalid descriptor. -/
def dmaError (d : Dev) (ch kind : Nat) (write : Bool) : Dev :=
  let d := ((d.setF DM_STATUS_STATE ch 6).setF DM_STATUS_ERR_KIND ch kind).setF DM_STATUS_ERR_DIR ch (b2i write)
  ((d.setF DM_STATUS_STOP_PEND ch 0).setH .dmaHeld ch 0).set1 DM_CAUSE_ERR ch

/-- An access at address a failed with result x. -/
def dmaFail (d : Dev) (ch a : Nat) (x : Res) (write : Bool) : Dev :=
  let kind := match x with
    | .ue _ _ => 1
    | _ => 0
  dmaError (d.setF DM_ERRADDR_ADDR ch a) ch kind write

/-- n words from address a for channel ch, or the address and result of the first that fails. -/
def dmaWords (s : State) (ch a : Nat) : Nat → Except (Nat × Res) (List Nat) × State
  | 0 => (.ok [], s)
  | n + 1 =>
    match busLoad s (dmaInit ch) a 4 with
    | (.ok v, s) =>
      let (l, s) := dmaWords s ch (a + 4) n
      (l.map fun l => v :: l, s)
    | (x, s) => (.error (a, x), s)

/-- Bytes of a width code (R474). -/
def dmaWidth (c : Nat) : Nat := 2 ^ c

/-- Whether the words of a descriptor are valid (R475). -/
def dmaValid (src dst w2 w3 : Nat) : Bool :=
  let sw := w2 / 2 ^ 24 % 4
  let dw := w2 / 2 ^ 26 % 4
  let n := w2 % 2 ^ 24
  sw < 3 && dw < 3 && n != 0 && n % dmaWidth (max sw dw) == 0 && src % dmaWidth sw == 0 && dst % dmaWidth dw == 0
    && w3 / 2 % 8 == 0

/-- The channel that the engine serves next: in RUN or FETCH, in ascending order after the one served last (R482). -/
def dmaTurn (d : Dev) : Option Nat :=
  ((List.range 32).map fun i => (d.hn .dmaLast + i) % 32).find? fun ch =>
    d.f DM_STATUS_STATE ch == 3 || d.f DM_STATUS_STATE ch == 1

/-- DESCRIPTOR_FETCH (R475, R479, R480, R482): the fetch of the channel whose turn it is. A descriptor outside SRAM and flash
ends as a bus error. -/
def execDescriptorFetch (ch : Fin 32) (s : State) : Host.Outcome State Fault Refusal :=
  if domOn s.dev 0 && dmaTurn s.dev = some ch.val && s.dev.f DM_STATUS_STATE ch = 1 then
    let a := s.dev.f DM_CUR_ADDR ch
    let s := s.onDev fun d => (d.setH .dmaLast 0 (ch.val + 1 : Nat)).setF DM_LEFT_BYTES ch 0
    if (sramBank a).isNone && 0x840000 ≤ a then .next (s.onDev fun d => dmaFail d ch a .err false)
    else match dmaWords s ch a 4 with
    | (.error (b, x), s) => .next (s.onDev fun d => dmaFail d ch b x false)
    | (.ok ws, s) =>
      let w (i : Nat) : Nat := (ws[i]?).getD 0
      .next (s.onDev fun d =>
        let d := d.setF DM_LEFT_BYTES ch (w 2 % 2 ^ 24 : Nat)
        if !dmaValid (w 0) (w 1) (w 2) (w 3) then dmaError d ch 3 false
        else
          let d := (((d.setH .dmaSrc ch (w 0)).setH .dmaDst ch (w 1)).setH .dmaCtl ch (w 2)).setH .dmaNext ch (w 3)
          let d := (d.setH .dmaHold ch 0).setH .dmaHeld ch 0
          if !(w 2).testBit 30 then d.setF DM_STATUS_STATE ch 3
          else if d.on DM_STATUS_TPEND ch then (d.setF DM_STATUS_TPEND ch 0).setF DM_STATUS_STATE ch 3
          else if d.on DM_STATUS_STOP_PEND ch then dmaStopped d ch
          else d.setF DM_STATUS_STATE ch 2)
  else .next s

/-- COUNT bytes are written (R478, R479). A pending STOP ends the chain in STOPPED, its last descriptor too. -/
def dmaDone (s : State) (ch : Nat) : State :=
  let w2 := s.dev.hn .dmaCtl ch
  let w3 := s.dev.hn .dmaNext ch
  let s := if w2.testBit 31 then s.onDev fun d => (d.set1 DM_CAUSE_DONE ch).raise (0x260 + ch) else s
  let ring := s.dev.on DM_RING_EN ch
  let s := if ring then dmaElemDone s ch else s
  let s := if !ring && w3.testBit 0 then s.onDev fun d => d.set1 DM_CAUSE_END ch
    else if !ring then s.onDev fun d => d.setF DM_CUR_ADDR ch (w3 / 16 * 16 : Nat)
    else s
  let stop := s.dev.on DM_STATUS_STOP_PEND ch
  let s := if ring && stop then s.onDev fun d => d.setF DM_CUR_ADDR ch (dmaNextElem s ch) else s
  s.onDev fun d =>
    if stop then dmaStopped d ch
    else d.setF DM_STATUS_STATE ch (if ring then 4 else if w3.testBit 0 then 0 else 1)

/-- The channel reads one beat into its holding register (R476): false where the access failed. -/
def dmaReadBeat (s : State) (ch : Nat) : Bool × State :=
  let w2 := s.dev.hn .dmaCtl ch
  let n := dmaWidth (w2 / 2 ^ 24 % 4)
  let a := s.dev.hn .dmaSrc ch
  match busLoad s (dmaInit ch) a n with
  | (.ok v, s) => (true, s.onDev fun d =>
      let h := d.hn .dmaHeld ch
      let d := (d.setH .dmaHold ch (d.hn .dmaHold ch + v * 2 ^ (8 * h) : Nat)).setH .dmaHeld ch (h + n : Nat)
      if w2.testBit 28 then d else d.setH .dmaSrc ch ((a + n) % 2 ^ 32 : Nat))
  | (x, s) => (false, s.onDev fun d => dmaFail d ch a x false)

/-- The channel writes one beat from it. -/
def dmaWriteBeat (s : State) (ch : Nat) : Bool × State :=
  let w2 := s.dev.hn .dmaCtl ch
  let n := dmaWidth (w2 / 2 ^ 26 % 4)
  let a := s.dev.hn .dmaDst ch
  let h := s.dev.hn .dmaHold ch
  match busStore s (dmaInit ch) a n (h % 2 ^ (8 * n)) with
  | (.ok _, s) => (true, s.onDev fun d =>
      let d := (d.setH .dmaHold ch (h / 2 ^ (8 * n) : Nat)).setH .dmaHeld ch (d.hn .dmaHeld ch - n : Nat)
      let d := d.setF DM_LEFT_BYTES ch (d.f DM_LEFT_BYTES ch - n : Nat)
      if w2.testBit 29 then d else d.setH .dmaDst ch ((a + n) % 2 ^ 32 : Nat))
  | (x, s) => (false, s.onDev fun d => dmaFail d ch a x true)

/-- Beats of one burst: `room` bytes may still be written. -/
def dmaBeats (ch : Nat) : Nat → Nat → State → State
  | 0, _, s => s
  | fuel + 1, room, s =>
    let n := dmaWidth (s.dev.hn .dmaCtl ch / 2 ^ 26 % 4)
    if s.dev.f DM_LEFT_BYTES ch = 0 then dmaDone s ch
    else if room < n then s
    else if s.dev.hn .dmaHeld ch < n then
      match dmaReadBeat s ch with
      | (true, s) => dmaBeats ch fuel room s
      | (false, s) => s
    else match dmaWriteBeat s ch with
    | (true, s) => dmaBeats ch fuel (room - n) s
    | (false, s) => s

/-- DMA_BURST (R476, R477, R479, R482): the channel whose turn it is, if it is in RUN, writes up to 64 bytes. -/
def execDmaBurst (s : State) : Host.Outcome State Fault Refusal :=
  match dmaTurn s.dev with
  | some ch =>
    .next (if domOn s.dev 0 && s.dev.f DM_STATUS_STATE ch = 3 then dmaBeats ch 200 64 (s.onDev fun d => d.setH .dmaLast 0 (ch + 1 : Nat)) else s)
  | none => .next s

end Sys2Proof.Machine
end

