-- ==== Sys2Proof/Machine/Flags.lean ====
section
/-! DEFINITION. The flags of CS, the results of R573 and the conditions of R584 (spec/16). -/

namespace Sys2Proof.Machine

/-- N, Z, C and V. -/
structure Flags where
  n : Bool
  z : Bool
  c : Bool
  v : Bool
  deriving DecidableEq, Repr

/-- The flags CS holds, and CS with them replaced (R567). -/
def flagsOf (cs : Word) : Flags :=
  { n := cs.getLsbD 31, z := cs.getLsbD 30, c := cs.getLsbD 29, v := cs.getLsbD 28 }
def withFlags (cs : Word) (x : Flags) : Word :=
  putBits cs 28 4 (b2n x.v + 2 * b2n x.c + 4 * b2n x.z + 8 * b2n x.n : Nat)

/-- add33 of R573: the sum and its flags. -/
def add33 (a b : Word) (cin : Bool) : Word × Flags :=
  let r := a.toNat + b.toNat + b2n cin
  let w := BitVec.ofNat 32 r
  (w, { n := w.msb, z := w == 0, c := decide (2 ^ 32 ≤ r), v := a.msb == b.msb && w.msb != a.msb })

/-- A difference: add33(a, ~b, cin). -/
def sub33 (a b : Word) (cin : Bool) : Word × Flags := add33 a (~~~b) cin

/-- A result that sets N and Z and leaves C and V (R573). -/
def nz (old : Flags) (w : Word) : Word × Flags := (w, { old with n := w.msb, z := w == 0 })

/-- A result that also sets V (R573, R575). -/
def nzv (old : Flags) (w : Word) (v : Bool) : Word × Flags := (w, { old with n := w.msb, z := w == 0, v := v })

/-- A saturating result of the exact value y (R573, R574). -/
def satNzv (old : Flags) (y : Int) : Word × Flags :=
  let r := sat y 32
  nzv old (BitVec.ofInt 32 r) (r != y)

/-- Whether condition `cond` of R584 holds. -/
def condHolds (cond : Nat) (x : Flags) : Bool :=
  match cond with
  | 0 => x.z
  | 1 => !x.z
  | 2 => x.c
  | 3 => !x.c
  | 4 => x.n
  | 5 => !x.n
  | 6 => x.v
  | 7 => !x.v
  | 8 => x.c && !x.z
  | 9 => !x.c || x.z
  | 10 => x.n == x.v
  | 11 => x.n != x.v
  | 12 => !x.z && x.n == x.v
  | 13 => x.z || x.n != x.v
  | _ => true

end Sys2Proof.Machine
end

