-- ==== Sys2Proof/Machine/Operands.lean ====
section
/-! DEFINITION. What the operands of an instruction mean: shifts, bit counts, divides, the fixed-point multiply, bit
fields, byte permute, the addressing modes, and which words are instructions (spec/16, R570 to R589). -/

namespace Sys2Proof.Machine

/-! ### Arithmetic (R574 to R577) -/

/-- Leading zero bits, 0 to 32. -/
def clz32 (w : Word) : Nat := 32 - ((List.range 32).foldl (fun m i => if w.getLsbD i then i + 1 else m) 0)

/-- Bits after bit 31 equal to bit 31 (R574). -/
def cls32 (w : Word) : Nat := clz32 (w ^^^ w.sshiftRight 31) - 1

/-- The bytes in reverse order. -/
def rev32 (w : Word) : Word :=
  BitVec.ofNat 32 (leNat (leBytes 4 w.toNat).reverse)

/-- The divides of R576: quotient, remainder and overflow. -/
def divide (signed : Bool) (a b : Word) : Word × Word × Bool :=
  if b = 0 then (0xFFFFFFFF, a, true)
  else if signed && a == 0x80000000 && b == 0xFFFFFFFF then (0x80000000, 0, true)
  else if signed then (BitVec.ofInt 32 (a.toInt.tdiv b.toInt), BitVec.ofInt 32 (a.toInt.tmod b.toInt), false)
  else (BitVec.ofNat 32 (a.toNat / b.toNat), BitVec.ofNat 32 (a.toNat % b.toNat), false)

/-- A register as a number, unsigned or signed. -/
def numOf (u : Bool) (w : Word) : Int := if u then (w.toNat : Int) else w.toInt

/-- The exact value of the fixed-point instructions before saturation (R577). -/
def fixedVal (u acc neg rnd : Bool) (sh : Nat) (ra rb rt : Word) : Int :=
  let p := numOf u ra * numOf u rb
  let p := if rnd && 0 < sh then p + 2 ^ (sh - 1) else p
  let q := asr p sh
  let x := numOf u rt
  if acc then (if neg then x - q else x + q) else if neg then -q else q

/-- Their result and flags (R577). -/
def fixedPoint (old : Flags) (u acc neg rnd : Bool) (sh : Nat) (ra rb rt : Word) : Word × Flags :=
  let y := fixedVal u acc neg rnd sh ra rb rt
  let r := if u then usat y 32 else sat y 32
  nzv old (BitVec.ofInt 32 r) (r != y)

/-! ### Bit fields and byte permute (R578, R579) -/

/-- The operations of R578, for w = wm1 + 1. -/
def bfx (ra : Word) (pos wm1 : Nat) : Nat := bitsOf ra pos (wm1 + 1)
def bfxs (ra : Word) (pos wm1 : Nat) : Word := BitVec.ofInt 32 (sext (bfx ra pos wm1) (wm1 + 1))
def bfi (rt ra : Word) (pos wm1 : Nat) : Word := putBits rt pos (wm1 + 1) (bitsOf ra 0 (wm1 + 1) : Nat)

/-- The byte a nibble code of PERM and PERMR places (R579); 14 and 15 place 0x00. -/
def permByte (ra rt : Word) (code : Nat) : Nat :=
  if code < 4 then bitsOf ra (8 * code) 8
  else if code < 8 then bitsOf rt (8 * (code - 4)) 8
  else if code = 9 then 0xFF
  else if 10 ≤ code && code < 14 then (if ra.getLsbD (8 * (code - 10) + 7) then 0xFF else 0)
  else 0

/-- perm(ra, rt, sel) of R579. -/
def perm (ra rt : Word) (sel : Nat) : Word :=
  BitVec.ofNat 32 (leNat ((List.range 4).map fun j => permByte ra rt (sel / 2 ^ (4 * j) % 16)))

/-- Whether a nibble of PERM's selector is reserved. -/
def permBad (sel : Nat) : Bool := (List.range 4).any fun j => 14 ≤ sel / 2 ^ (4 * j) % 16

/-! ### Addressing (R581, R582) -/

/-- Fields of format M: am, d and k. -/
def mAm (m : BitVec 16) : Nat := m.toNat / 2 ^ 14
def mD (m : BitVec 16) : Int := if mAm m ≤ 1 then sext m.toNat 14 else sext m.toNat 13
def mK (m : BitVec 16) : Bool := m.getLsbD 13

/-- modnext of R581. -/
def modnext (a : Word) (d : Int) (mb ml : Word) : Word :=
  if ml = 0 then a + BitVec.ofInt 32 d
  else mb + BitVec.ofInt 32 (((a - mb).toInt + d) % (ml.toNat : Int))

/-- The low n bits reversed. -/
def revBits (x n : Nat) : Nat := (List.range n).foldl (fun y i => y * 2 + bit x i) 0

/-- revnext of R581: reverse-carry addition on the element index. -/
def revnext (a : Word) (d : Int) (mb ml : Word) (e : Nat) : Word :=
  let wd := Nat.log2 ml.toNat - e
  let i := bitsOf (a - mb) e wd
  let s := bitsOf (BitVec.ofInt 32 d) e wd
  mb + BitVec.ofNat 32 (revBits ((revBits i wd + revBits s wd) % 2 ^ wd) wd * 2 ^ e)

/-- Whether a bit-reversed access is illegal at execution (R582). -/
def revBad (d : Int) (ml : Word) (e : Nat) : Bool :=
  let l := ml.toNat
  l == 0 || 2 ^ Nat.log2 l != l || Nat.log2 l < e + 1 || d % (2 ^ e : Int) != 0

/-! ### Which words are instructions (R570 to R572, R586, R588) -/

/-- The kind of CPU a word is for: an application core, the warden, or an engine. -/
inductive CpuKind where
  | app
  | warden
  | engine
  deriving DecidableEq, Repr

/-- Whether a control-register number is listed for a CPU, for a read or for a write (R568, R588, R635). -/
def crListed (kind : CpuKind) (write : Bool) (n : Nat) : Bool :=
  let common := n == 0 || (8 ≤ n && n ≤ 0xB)
  match kind with
  | .engine => common
  | _ =>
    common || n == 1 || n == 2 || (0x20 ≤ n && n ≤ 0x3F)
    || (!write && (n == 3 || n == 4 || n == 5 || (0x10 ≤ n && n ≤ 0x13)))
    || (if kind = .app then n == 0x40 || n == 0x41 else (0x48 ≤ n && n ≤ 0x4F) || n == 0x50)

/-- Whether the operands of format M fit the addressing mode (R582). -/
def mLegal (load : Bool) (rt ra : Nat) (m : Nat) : Bool :=
  m / 2 ^ 14 == 0 || (ra != 0 && !(load && rt == ra))

/-- Whether a word names an instruction of the CPU (R571, R572, R588). Fields that no rule says are 0 are not looked
at. -/
def legalWord (kind : CpuKind) (w : Word) : Bool :=
  let fd (lo n : Nat) : Nat := bitsOf w lo n
  let fn := fd 0 6
  let eng := kind = .engine
  match fd 26 6 with
  | 0x01 =>
    fd 6 4 == 0 && fn < 0x1C
      && !((fn == 0x14 || fn == 0x15 || fn == 0x16 || fn == 0x17 || fn == 0x19) && fd 11 5 != 0)
  | 0x02 => fd 6 4 == 0 && (fn < 3 || (!eng && 4 ≤ fn && fn < 8))
  | 0x03 => fd 5 1 == 0
  | 0x04 => fn < 3 && fd 11 5 + fd 6 5 ≤ 31
  | 0x05 => !permBad (fd 0 16)
  | 0x06 | 0x07 | 0x08 | 0x09 | 0x0A => true
  | 0x0B => fd 16 5 == 0
  | 0x0C => fd 21 5 == 0
  | 0x10 | 0x11 | 0x12 | 0x13 | 0x14 => mLegal true (fd 21 5) (fd 16 5) (fd 0 16)
  | 0x15 | 0x16 | 0x17 => mLegal false (fd 21 5) (fd 16 5) (fd 0 16)
  | 0x18 => !eng && fd 6 4 == 0 && fn == 0
  | 0x20 => fd 22 4 != 15
  | 0x21 | 0x22 => true
  | 0x23 => fd 6 4 == 0 && fd 11 5 == 0 && ((fn == 0 && fd 21 5 == 0) || fn == 1)
  | 0x30 =>
    fd 6 5 == 0 &&
    (match fn with
     | 0x00 | 0x01 => !eng && fd 21 5 == 0
     | 0x02 => !eng && fd 11 15 == 0
     | 0x03 | 0x04 | 0x07 | 0x08 | 0x0B => !eng
     | 0x05 => crListed kind false (fd 11 10)
     | 0x06 => crListed kind true (fd 11 10)
     | 0x09 | 0x0A => !eng && fd 11 5 == 0
     | 0x10 | 0x11 => eng
     | _ => false)
  | _ => false

end Sys2Proof.Machine
end

