-- ==== Sys2Proof/Machine/Translate.lean ====
section
/-! DEFINITION. The two stages of address translation of the application cores, the table walk and the TLB (spec/18,
R614 to R635). -/

namespace Sys2Proof.Machine

/-- What an access is. -/
inductive AccKind where
  | load
  | store
  | fetch
  | cas
  deriving DecidableEq, Repr

/-- The outcome of a translation: a physical address, or a fault report (R634); with the state it leaves. -/
inductive Tr where
  | ok (pa : Nat) (s : State)
  | fault (info : Nat) (s : State)

/-- Whether an access is allowed by R, W and X in bits 0 to 2. -/
def accAllowed (acc : AccKind) (rwx : Nat) : Bool :=
  match acc with
  | .load => rwx.testBit 0
  | .store => rwx.testBit 1
  | .fetch => rwx.testBit 2
  | .cas => rwx.testBit 0 && rwx.testBit 1

/-- Whether an access writes. -/
def accWrites (acc : AccKind) : Bool := acc = .store || acc = .cas

/-- A fault report (R634); `ipa` 0 for stage 1. -/
def report (stage level cause blk ipa : Nat) : Nat :=
  stage + 4 * level + 16 * cause + 256 * blk + ipa / 4096 * 4096

/-- Whether an intermediate address is a register address (R615). -/
def regIpa (a : Nat) : Bool :=
  (0x40000000 ≤ a && a < 0x40140000) || (0x50000000 ≤ a && a < 0x50010000) || (0x60000000 ≤ a && a < 0x60000800)

/-- Stage 1 of core c: its V, R, W, X and U, the governing block, the IPA, and log2 of the block's size; `none`:
NOBLOCK (R616, R618). -/
def stage1 (d : Dev) (c va : Nat) : Option (Nat × Nat × Nat × Nat) :=
  if !(d.cr c crTCTL).getLsbD 0 then some (0, 0, va, 32)
  else
    let blkA (n : Nat) : Word := d.cr c (0x20 + 2 * n)
    let lg (n : Nat) : Nat := bitsOf (blkA n) 7 5 + 12
    let found := (List.range 16).find? fun n =>
      (blkA n).getLsbD 0 && bitsOf (blkA n) 12 20 * 4096 / 2 ^ lg n == va / 2 ^ lg n
    found.map fun n =>
      let sz := 2 ^ lg n
      (bitsOf (blkA n) 0 5, n, bitsOf (d.cr c (0x21 + 2 * n)) 12 20 * 4096 / sz * sz + va % sz, lg n)

/-- The checks of R618 on the stage-1 bits: the cause of the fault, if any. With V clear stage 1 grants every access. -/
def stage1Fault (perm1 level : Nat) (acc : AccKind) : Option Nat :=
  if !perm1.testBit 0 then none
  else if level = 0 && !perm1.testBit 4 then some 2
  else if !accAllowed acc (perm1 / 2) then some 3
  else none

/-- A read of a table word on the core's slot, with the warden attribute (R621); a bank that is off reads as an
uncorrectable word (notes/assumptions/51.md). -/
def tableRead (s : State) (c a : Nat) : Option Nat × State :=
  if !sramOn s a then (none, s.onDev fun d => d.set1 PD_CAUSE_OFF_ACC)
  else match sramRead s 15 a 4 c with
    | (.ok v, s) => (some v, s)
    | (_, s) => (none, s)

/-- Whether an address lies in bank 15. -/
def inBank15 (a : Nat) : Bool := 0x10F00000 ≤ a && a < 0x11000000

/-- The window check of R622. -/
def windowOk (d : Dev) (p base size : Nat) : Bool :=
  inPartMem d p base size
  || (p < npart d && 0x50010000 ≤ base && base + size ≤ 0x50020000 &&
      meets (base, size) (0x50010000 + 0x400 * partByte d p 0x10, 0x400 * partByte d p 0x11))

/-- A slot a walk has found: its word and where it lies, its level, its base and log2 of its size. -/
structure Slot where
  word : Nat
  loc : Nat
  level : Nat
  base : Nat
  lg : Nat
  deriving DecidableEq, Repr

/-- The outcome of a walk. -/
inductive Walk where
  | found (x : Slot) (s : State)
  | fault (info : Nat) (s : State)

/-- The window check ends a walk. -/
def walkEnd (s : State) (p a : Nat) (x : Slot) : Walk :=
  if windowOk s.dev p x.base (2 ^ x.lg) then .found x s else .fault (report 2 x.level 9 0 a) s

/-- The level-2 part of a walk, in the table at t2. -/
def walk2 (s : State) (c p a t2 : Nat) : Walk :=
  if !inBank15 t2 then .fault (report 2 1 6 0 a) s
  else
    let loc := t2 + a / 4096 % 1024 * 4
    match tableRead s c loc with
    | (none, s) => .fault (report 2 2 7 0 a) s
    | (some e, s) =>
      if !e.testBit 0 then .fault (report 2 2 5 0 a) s
      else if e / 128 % 32 ≠ 0 then .fault (report 2 2 8 0 a) s
      else
        let lg := if e.testBit 1 then 16 else 12
        walkEnd s p a { word := e, loc := loc, level := 2, base := e / 2 ^ lg * 2 ^ lg, lg := lg }

/-- The walk of core c for IPA a of partition p (R620, R621, R623). -/
def walk (s : State) (c p a : Nat) : Walk :=
  let root := s.dev.cr 4 (crS2ROOT + p)
  let t1 := root.toNat / 4096 * 4096
  if !root.getLsbD 0 then .fault (report 2 1 4 0 a) s
  else if !inBank15 t1 then .fault (report 2 1 6 0 a) s
  else
    let loc := t1 + a / 0x400000 % 1024 * 4
    match tableRead s c loc with
    | (none, s) => .fault (report 2 1 7 0 a) s
    | (some e, s) =>
      if !e.testBit 0 then .fault (report 2 1 5 0 a) s
      else if e.testBit 1 then
        if e / 4 % 1024 ≠ 0 then .fault (report 2 1 8 0 a) s else walk2 s c p a (e / 4096 * 4096)
      else if e / 128 % 0x8000 ≠ 0 then .fault (report 2 1 8 0 a) s
      else walkEnd s p a { word := e, loc := loc, level := 1, base := e / 0x400000 * 0x400000, lg := 22 }

/-- Partition tag and task tag of core c (R625). -/
def partOf (d : Dev) (c : Nat) : Nat := d.f CH_CORETAG_PART c
def ttagOf (d : Dev) (c : Nat) : Nat := bitsOf (d.cr c crTCTL) 8 8

/-- The slot size of an entry: the largest of 4 KB, 64 KB and 4 MB that fits both stages (R625). -/
def slotLg (a b : Nat) : Nat := if 22 ≤ min a b then 22 else if 16 ≤ min a b then 16 else 12

/-- One more of a 16-bit count of TCNT at bit `lo`, saturating (R635). -/
def tcntInc (d : Dev) (c lo : Nat) : Dev :=
  let w := d.cr c crTCNT
  d.setCr c crTCNT (putBits w lo 16 (min (bitsOf w lo 16 + 1) 0xFFFF : Nat))

/-- An entry is put into the TLB under the pointer (R625). -/
def tlbFill (d : Dev) (c : Nat) (e : TlbEntry) : Dev :=
  let i := d.hn .cTlbPtr c
  let l := d.tlb.filter fun x => !(x.core == c && x.idx == i)
  ({ d with tlb := l ++ [{ e with core := c, idx := i }] } : Dev).setH .cTlbPtr c ((i + 1) % 256 : Nat)

/-- A walk that completes fills the TLB and sets A in its word, and D as well for a store or CAS it allows (R624, R626,
R628); the access is then checked against the slot. -/
def missFill (s : State) (c va : Nat) (acc : AccKind) (perm1 blk ipa lg1 : Nat) (x : Slot) : Tr :=
  let may := accAllowed acc (x.word / 4)
  let new := x.word ||| (if accWrites acc && may then 0x60 else 0x20)
  let s := if new = x.word then s else sramWrite s 15 x.loc 4 new c
  let lg := slotLg lg1 x.lg
  let pa := x.base + ipa % 2 ^ x.lg
  let cut (a : Nat) : Nat := a / 2 ^ lg * 2 ^ lg
  let e : TlbEntry := { core := c, idx := 0, part := partOf s.dev c, ttag := ttagOf s.dev c, va := cut va, ipa := cut ipa,
                        lg := lg, pa := cut pa, perm1 := perm1, blk := blk, word := x.word, level := x.level,
                        loc := x.loc, dirty := new.testBit 6 }
  let s := s.onDev fun d => tlbFill d c e
  if may then .ok pa s else .fault (report 2 x.level 3 0 ipa) s

/-- A miss: stage 1, then the walk (R615, R618, R628). -/
def trMiss (s : State) (c va level : Nat) (acc : AccKind) : Tr :=
  match stage1 s.dev c va with
  | none => .fault (report 1 0 1 0 0) s
  | some (perm1, blk, ipa, lg1) =>
    match stage1Fault perm1 level acc with
    | some cause => .fault (report 1 0 cause blk 0) s
    | none =>
      if regIpa ipa then .ok ipa s
      else match walk (s.onDev fun d => tcntInc d c 0) c (partOf s.dev c) ipa with
        | .fault info s => .fault info s
        | .found x s => missFill s c va acc perm1 blk ipa lg1 x

/-- The entry an access hits (R626). -/
def tlbHit (d : Dev) (c va : Nat) : Option TlbEntry :=
  d.tlb.find? fun e => e.core == c && e.part == partOf d c && e.ttag == ttagOf d c && va / 2 ^ e.lg == e.va / 2 ^ e.lg

/-- The first store or CAS on a clean entry: the walker reads its word again (R626). -/
def dirtyUpdate (s : State) (c : Nat) (e : TlbEntry) (va level : Nat) (acc : AccKind) : Tr :=
  match tableRead s c e.loc with
  | (none, s) => .fault (report 2 e.level 7 0 (e.ipa + va % 2 ^ e.lg)) s
  | (some w, s) =>
    if w ||| 0x60 ≠ e.word ||| 0x60 then
      trMiss (s.onDev fun d => { d with tlb := d.tlb.erase e }) c va level acc
    else
      let s := sramWrite s 15 e.loc 4 (w ||| 0x60) c
      .ok (e.pa + va % 2 ^ e.lg)
        (s.onDev fun d => { d with tlb := d.tlb.map fun x => if x = e then { x with dirty := true } else x })

/-- A hit is checked against its entry (R615, R626). -/
def trHit (s : State) (c : Nat) (e : TlbEntry) (va level : Nat) (acc : AccKind) : Tr :=
  let ipa := e.ipa + va % 2 ^ e.lg
  match stage1Fault e.perm1 level acc with
  | some cause => .fault (report 1 0 cause e.blk 0) s
  | none =>
    if regIpa ipa then .ok ipa s
    else if !accAllowed acc (e.word / 4) then .fault (report 2 e.level 3 0 ipa) s
    else if accWrites acc && !e.dirty then dirtyUpdate s c e va level acc
    else .ok (e.pa + va % 2 ^ e.lg) s

/-- The translation of an access of core c at a level (R615, R626). -/
def translate (s : State) (c va level : Nat) (acc : AccKind) : Tr :=
  match tlbHit s.dev c va with
  | some e => trHit s c e va level acc
  | none => trMiss s c va level acc

end Sys2Proof.Machine
end

