-- ==== Sys2Proof/Machine/Cpu.lean ====
section
/-! DEFINITION. What every instruction does beside its own effect: when it issues, the store buffer, data accesses of a
core and of an engine, exceptions, interrupts and their entry, and program faults (spec/16, R587, R589; spec/17, R594,
R597 to R600, R604 to R609; spec/04, R142 to R151, R172, R173). -/

namespace Sys2Proof.Machine

/-! ### The store buffer (R597 to R600) -/

/-- The stores core c has buffered, oldest first. -/
def sbOf (d : Dev) (c : Nat) : List SbEntry := d.sbuf.filter fun e => e.cpu == c

/-- A store refused at its target (R600). -/
def lateError (d : Dev) (c a : Nat) : Dev :=
  let d := d.setCr c crLSE (BitVec.ofNat 32 a)
  if d.hon .cLate c then d.setH .cMulti c 1 else d.setH .cLate c 1

/-- The oldest store of core c leaves the buffer (R597). -/
def drainOne (s : State) (c : Nat) : State :=
  match (sbOf s.dev c).head? with
  | none => s
  | some e =>
    let s := s.onDev fun d => { d with sbuf := d.sbuf.erase e }
    match busStore s (coreInit c) e.addr e.n e.data with
    | (.ok _, s) => s
    | (_, s) => s.onDev fun d => lateError d c e.addr

/-- The first n stores of core c leave the buffer; all of them. -/
def drainN (s : State) (c n : Nat) : State := (List.range n).foldl (fun s _ => drainOne s c) s
def drainAll (s : State) (c : Nat) : State := drainN s c (sbOf s.dev c).length

/-- A store enters the buffer; a full one holds it until an entry leaves. -/
def sbPush (s : State) (c a n v : Nat) : State :=
  let s := if 8 ≤ (sbOf s.dev c).length then drainOne s c else s
  s.onDev fun d => { d with sbuf := d.sbuf ++ [{ cpu := c, addr := a, n := n, data := v % 2 ^ (8 * n) }] }

/-- The fixed checks of a store (R33, R34, R597): the address may be written with that width. -/
def storeMapOk (a n : Nat) : Bool :=
  (sramBank a).isSome || (n == 4 && (isGvInst a || isGvData a || isRingCtx a || isToken a || isRegAddr a))

/-- Whether a buffered store overlaps n bytes at a, and whether it covers them. -/
def sbMeets (e : SbEntry) (a n : Nat) : Bool := e.addr < a + n && a < e.addr + e.n
def sbCovers (e : SbEntry) (a n : Nat) : Bool := e.addr ≤ a && a + n ≤ e.addr + e.n

/-- How many stores must leave before none of the list overlaps n bytes at a. -/
def sbDepth (l : List SbEntry) (a n : Nat) : Nat :=
  (List.range l.length).foldl (fun m i => if (l[i]?).any fun e => sbMeets e a n then i + 1 else m) 0

/-- A load of core c from a physical address (R598, R599). -/
def coreLoad (s : State) (c a n : Nat) : Res × State :=
  if (sramBank a).isSome then
    let l := sbOf s.dev c
    match l.reverse.find? fun e => sbMeets e a n with
    | none => busLoad s (coreInit c) a n
    | some e =>
      if sbCovers e a n then (.ok (e.data / 2 ^ (8 * (a - e.addr)) % 2 ^ (8 * n)), s)
      else busLoad (drainN s c (sbDepth l a n)) (coreInit c) a n
  else busLoad (drainAll s c) (coreInit c) a n

/-! ### Exceptions and interrupts (R604 to R609) -/

/-- An exception: its vector, FADDR, FINFO and the WRITE bit (R607, R608). -/
structure Trap where
  vec : Nat
  faddr : Nat := 0
  finfo : Nat := 0
  write : Bool := false
  deriving DecidableEq, Repr

/-- What an instruction comes to: it completes and goes on at an address; it raises an exception; or it has left the
state whole, with its pc. -/
inductive Ins where
  | done (s : State) (pc : Word)
  | trap (s : State) (t : Trap)
  | final (s : State)

/-- The translation of a CPU's access at a level: the warden presents physical addresses (R614). -/
def cpuTranslate (s : State) (c va level : Nat) (acc : AccKind) : Tr :=
  if c < 4 then translate s c va level acc else .ok va s

/-- The WRITE bit of a translation fault of CAS: the write was refused where a load would have passed. -/
def casWrite (s : State) (c va : Nat) : Bool :=
  match cpuTranslate s c va (s.dev.level c) .load with
  | .ok _ _ => true
  | .fault _ _ => false

/-- The level of the accesses that entry makes: 1, on the warden 2 (notes/assumptions/52.md). -/
def entryLevel (c : Nat) : Nat := if c < 4 then 1 else 2

/-- A word read at entry or return, and one written there straight to its target: `none` and `false` where it fails. -/
def wordLoad (s : State) (c va : Nat) : Option Nat × State :=
  match cpuTranslate s c va (entryLevel c) .load with
  | .fault _ s => (none, s)
  | .ok pa s =>
    match coreLoad s c pa 4 with
    | (.ok v, s) => (some v, s)
    | (_, s) => (none, s)
def wordStore (s : State) (c va v : Nat) : Bool × State :=
  match cpuTranslate s c va (entryLevel c) .store with
  | .fault _ s => (false, s)
  | .ok pa s =>
    if !storeMapOk pa 4 then (false, s)
    else match busStore s (coreInit c) pa 4 v with
      | (.ok _, s) => (true, s)
      | (_, s) => (false, s)

/-- Words written in order until one fails. -/
def wordStores (s : State) (c : Nat) : List (Nat × Nat) → Bool × State
  | [] => (true, s)
  | (a, v) :: t =>
    match wordStore s c a v with
    | (true, s) => wordStores s c t
    | (false, s) => (false, s)

/-- A core halts for want of a vector or of its task-state block (R609). Its registers and flags are lost, to free values
(notes/assumptions/53.md). -/
def vectorHalt (s : State) (c : Nat) : State :=
  s.onDev fun d =>
    let d := d.each 32 fun d r => let (v, d) := d.free; d.setG c r (BitVec.ofNat 32 v)
    let d := d.eachIn [crMB0, crML0, crMB1, crML1] fun d r =>
      let (v, d) := d.free
      d.setCr c r (BitVec.ofNat 32 (if r = crML0 || r = crML1 then v % 2 ^ 20 else v))
    let (v, d) := d.free
    let cs : Word := BitVec.ofNat 32 v &&& 0xF0000003
    haltCore (d.setCr c crCS (if c < 4 then cs else putBits cs 1 2 2)) c

/-- The words of the task-state block that entry writes, as offset and content (R608). -/
def tsbWords (d : Dev) (c pc cause faddr finfo : Nat) : List (Nat × Nat) :=
  [(0x00, pc), (0x04, (d.cr c crCS).toNat), (0x08, cause), (0x0C, faddr), (0x10, finfo),
   (0x14, (d.cr c crMB0).toNat), (0x18, (d.cr c crML0).toNat), (0x1C, (d.cr c crMB1).toNat),
   (0x20, (d.cr c crML1).toNat), (0x24, d.now % 2 ^ 32), (0x28, d.now / 2 ^ 32)]
  ++ (List.range 31).map fun i => (0x40 + 4 * i, (d.g c (i + 1)).toNat)

/-- CS in a handler: IM 1 and PL 1, 2 on the warden (R608). -/
def handlerCs (c : Nat) (cs : Word) : Word := putBits cs 0 3 (1 + 2 * entryLevel c : Nat)

/-- TAKING AN EXCEPTION OR AN INTERRUPT (R608): core c takes vector `vec` with resume address `pc`; `bits` are the bits of
the cause word above the vector. -/
def enter (s : State) (c vec pc bits faddr finfo : Nat) : State :=
  let s := drainAll s c
  let (w, s) := wordLoad s c ((s.dev.cr c crVTB).toNat + 4 * vec)
  match w with
  | none => vectorHalt s c
  | some w =>
    if w = 0 || w % 4 ≠ 0 then vectorHalt s c
    else
      let tsp := (s.dev.cr c crTSP).toNat
      let l := (tsbWords s.dev c pc (vec + bits) faddr finfo).map fun x => (tsp + x.1, x.2)
      match wordStores s c l with
      | (false, s) => vectorHalt s c
      | (true, s) =>
        s.onDev fun d =>
          ((d.setCr c crCS (handlerCs c (d.cr c crCS))).setPc c (BitVec.ofNat 32 w)).setH .cWait c 0

/-- The cause bits WRITE, MULTI, DIVREST and LINE_OVR (R608). -/
def causeBits (write multi divrest lineOvr : Bool) : Nat :=
  256 * b2n write + 512 * b2n multi + 1024 * b2n divrest + 2048 * b2n lineOvr

/-- A pending late store error is taken (R600, R608). -/
def enterLate (s : State) (c pc : Nat) (divrest : Bool) : State :=
  let bits := causeBits false (s.dev.hon .cMulti c) divrest false
  let a := (s.dev.cr c crLSE).toNat
  enter (s.onDev fun d => (d.setH .cLate c 0).setH .cMulti c 0) c 11 pc bits a 0

/-- Trail line i is taken (R604). -/
def enterLine (s : State) (c i pc : Nat) (divrest : Bool) : State :=
  let bits := causeBits false false divrest (s.dev.hbit .cLineOvr c i)
  enter (s.onDev fun d => (d.setHbit .cLines c i false).setHbit .cLineOvr c i false) c (64 + i) pc bits 0 0

/-- Whether an interrupt is pending on core c (R604, R606). -/
def intPending (d : Dev) (c : Nat) : Bool := d.hon .cLate c || d.hon .cLines c || canopyIrq d c

/-- The first pending interrupt by the order of R606 is taken. -/
def takeInt (s : State) (c : Nat) (divrest : Bool) : State :=
  let pc := (s.dev.pc c).toNat
  if s.dev.hon .cLate c then enterLate s c pc divrest
  else if canopyIrq s.dev c then enter s c 32 pc (causeBits false false divrest false) 0 0
  else match (List.range 32).find? fun i => s.dev.hbit .cLines c i with
    | some i => enterLine s c i pc divrest
    | none => s

/-! ### Instruction fetch (R592 to R594) -/

/-- Whether an address is fetched through the cache: flash, the boot alias and main SRAM. -/
def lineCached (pa : Nat) : Bool := pa < 0x840000 || (0x10000000 ≤ pa && pa < 0x11000000)

/-- The line of the cache of CPU c with a number, if it holds it. -/
def cacheLine (d : Dev) (c line : Nat) : Option ILine := d.icache.find? fun e => e.key / 1024 == c && e.line == line

/-- The way that a set's pseudo-LRU tree points at, and the tree after an access to a way: bit 0 chooses the pair, bits 1
and 2 the way in each (R593; notes/assumptions/54.md). -/
def plruWay (t : Nat) : Nat := if t.testBit 0 then 2 + b2n (t.testBit 2) else b2n (t.testBit 1)
def plruUse (t w : Nat) : Nat :=
  if w < 2 then (t / 4 % 2) * 4 + (1 - w % 2) * 2 + 1 else (1 - w % 2) * 4 + (t / 2 % 2) * 2

/-- An access to the cache line held at a key turns its set's tree. -/
def lineUse (d : Dev) (key : Nat) : Dev := d.setH .cPlru (key / 4) (plruUse (d.hn .cPlru (key / 4)) (key % 4) : Nat)

/-- A line enters the cache of a CPU, in a way that holds none, else in the one the tree points at (R593). -/
def lineInstall (d : Dev) (c line : Nat) (bytes : List Byte) : Dev :=
  let i := c * 256 + line % 256
  let free := (List.range 4).find? fun w => !d.icache.any fun e => e.key == 4 * i + w
  let key := 4 * i + free.getD (plruWay (d.hn .cPlru i))
  let l := d.icache.filter fun e => e.key != key
  lineUse { d with icache := l ++ [{ key := key, line := line, bytes := bytes }] } key

/-- The eight words of a line are read, word `first` before the others. -/
def lineRead (s : State) (c line first : Nat) : List (Nat × Res) × State :=
  (List.range 8).foldl (fun x j =>
    let w := (first + j) % 8
    let (r, s) := busLoad x.2 (coreInit c) (line * 32 + 4 * w) 4
    (x.1 ++ [(w, r)], s)) ([], s)

/-- The bytes of word w among the words read; none where its read failed. -/
def readBytes (l : List (Nat × Res)) (w : Nat) : Option (List Byte) :=
  match l.find? fun x => x.1 == w with
  | some (_, .ok v) => some ((leBytes 4 v).map (BitVec.ofNat 8))
  | _ => none

/-- A line from the cache of CPU c, or filled (R593, R594): how the read of word `first` ends, and the line, which is none, and is
not installed, where one of its words cannot be read. -/
def lineGet (s : State) (c line first : Nat) : (Res × Option ILine) × State :=
  match cacheLine s.dev c line with
  | some e => ((.ok 0, some e), s.onDev fun d => lineUse d e.key)
  | none =>
    let (l, s) := lineRead s c line first
    let ws := (List.range 8).filterMap (readBytes l)
    let r := match l.head? with | some x => x.2 | none => .err
    if ws.length = 8 then
      let b := ws.flatten
      ((r, some { key := 0, line := line, bytes := b }), s.onDev fun d => lineInstall d c line b)
    else ((r, none), s)

/-- The next sequential line is read ahead (R592): past the end of its 4 KB it has a translation of its own, and a fault there
raises nothing (R594). -/
def lineAhead (s : State) (c va pa : Nat) : Option ILine × State :=
  let next := (va / 32 + 1) * 32 % 2 ^ 32
  let (at_, s) : Option Nat × State :=
    if next / 4096 = va / 4096 then (some (pa / 32 * 32 + 32), s)
    else match cpuTranslate s c next (s.dev.level c) .fetch with
      | .ok pa s => (some pa, s)
      | .fault _ s => (none, s)
  match at_ with
  | some a => if lineCached a then let (x, s) := lineGet s c (a / 32) 0; (x.2, s) else (none, s)
  | none => (none, s)

/-- The line buffer of CPU c: the line it executes from, and the next (R592). -/
def bufSet (d : Dev) (c : Nat) (cur next : Option ILine) : Dev :=
  let put (k : Nat) (x : Option ILine) : List ILine := x.toList.map fun e => { e with key := 2 * c + k }
  { bufDrop d c with lineBuf := (bufDrop d c).lineBuf ++ put 0 cur ++ put 1 next }

/-- Execution enters a line (R592). -/
def bufEnter (s : State) (c va pa : Nat) (cur : Option ILine) : State :=
  let (next, s) := lineAhead s c va pa
  s.onDev fun d => bufSet d c cur next

/-- The exception that the read of an instruction ends in, if it fails (R594, R607, R608). -/
def fetchTrap (va : Nat) : Res → Option Trap
  | .ok _ => none
  | .ue b l => some { vec := 9, faddr := va, finfo := b % 16 + 16 * (l % 4) }
  | _ => some { vec := 7, faddr := va }

/-- The fetch of a core at its pc (R592 to R594): the exception it raises, if any. -/
def coreFetch (s : State) (c : Nat) : Option Trap × State :=
  let va := (s.dev.pc c).toNat
  match cpuTranslate s c va (s.dev.level c) .fetch with
  | .fault info s => (some { vec := 5, faddr := va, finfo := info }, s)
  | .ok pa s =>
    if lineCached pa then
      match s.dev.lineBuf.find? fun e => e.key / 2 == c && e.line == pa / 32 with
      | some e => (none, if e.key % 2 = 0 then s else bufEnter s c va pa (some e))
      | none =>
        let ((r, e), s) := lineGet s c (pa / 32) (pa / 4 % 8)
        match fetchTrap va r with
        | some t => (some t, s)
        | none => (none, bufEnter s c va pa e)
    else if (sramBank pa).isSome then
      let (r, s) := busLoad s (coreInit c) pa 4
      (fetchTrap va r, s)
    else (some { vec := 7, faddr := va }, s)

/-! ### Passes on engines -/

/-- The key of a pass's end among the stores that a shadowed pair compares (R172): DONE 1, DROP 2. -/
def endKey (kind : Nat) : Nat := 2 ^ 40 + kind

/-- Whether an engine of a shadowed pass has ended and waits for the other. -/
def engEnded (p : Pass) (e : Nat) : Bool := p.cmp.any fun x => x.1 == e && 2 ^ 40 ≤ x.2.1

/-- A store or the end of a pass on engine e is compared with the other engine's (R172); `none`: they differ. -/
def cmpWith (p : Pass) (e key v : Nat) : Option Pass :=
  if 64 ≤ p.e2 then some p
  else match p.cmp with
    | x :: t =>
      if x.1 = e then some { p with cmp := p.cmp ++ [(e, key, v)] }
      else if x.2 = (key, v) then some { p with cmp := t } else none
    | [] => some { p with cmp := [(e, key, v)] }

/-- Where a fetch of a pass lies outside its task's code region (R142, R145). -/
def codeOut (d : Dev) (g t a : Nat) : Bool :=
  let b := d.f GV_TCODE_CBASE (tk g t)
  a / 1024 < b || b + d.f GV_TCODE_CLEN (tk g t) < a / 1024 || 63 < a / 1024

/-- LASTERR of a program fault by the vector a core would take (R589). DESIGN CHOICE (notes/assumptions/61.md): GV_TSTAT
lists code 6, ownership refusal, and no rule says when it is set: nothing sets it. -/
def faultErr (vec : Nat) : Nat := if vec = 1 then 1 else if vec = 3 || vec = 7 then 3 else 2

/-! ### Issue -/

/-- Whether core c issues its next instruction: not at a WAIT with nothing pending, and no unmasked interrupt before it
(R586, R606). -/
def coreIssues (d : Dev) (c : Nat) : Bool :=
  coreRuns d c && (if d.im c then !d.hon .cWait c || intPending d c else !d.hon .cWait c && !intPending d c)

/-- Whether a CPU issues its next instruction. -/
def mayIssue (d : Dev) : Cpu → Bool
  | .core c => coreIssues d c
  | .warden => coreIssues d 4
  | .engine g e => (passOn d g e).any fun p => !engEnded p e

/-- An exception of the instruction at a CPU's pc (R587, R589, R608). -/
def raiseTrap (s : State) (cpu : Cpu) (t : Trap) : State :=
  match cpu with
  | .engine g e =>
    match passOn s.dev g e with
    | some p => s.onDev fun d => passFault d p (faultErr t.vec)
    | none => s
  | _ =>
    let c := cpuId cpu
    let s := if c < 4 && (t.vec = 5 || t.vec = 6) then s.onDev fun d => tcntInc d c 16 else s
    let pc := s.dev.pc c + (if t.vec = 12 || t.vec = 13 then 4 else 0)
    enter s c t.vec pc.toNat (causeBits t.write false false false) t.faddr t.finfo

/-- What an instruction comes to is carried out. -/
def insFinish (cpu : Cpu) : Ins → State
  | .done s pc => s.onDev fun d => d.setPc (cpuId cpu) pc
  | .trap s t => raiseTrap s cpu t
  | .final s => s

/-- Whether the pc of an engine lies outside its task's code region: the fetch is a program fault (R589). -/
def fetchOut (d : Dev) : Cpu → Bool
  | .engine g e => (passOn d g e).any fun p => codeOut d g p.task (d.pc (engCpu g e)).toNat
  | _ => false

/-- The fetch at the pc of a CPU: the exception it raises, if any, and the state it leaves. A core that waited at WAIT goes on. -/
def cpuFetch (s : State) (cpu : Cpu) : Option Trap × State :=
  match cpu with
  | .engine _ _ => (if fetchOut s.dev cpu then some { vec := 7 } else none, s)
  | _ => coreFetch (s.onDev fun d => d.setH .cWait (cpuId cpu) 0) (cpuId cpu)

/-- An instruction at the pc of a CPU: nothing where the CPU issues none; the exception of its fetch, or an engine's program fault,
where that fails; else what it comes to. -/
def runIns (cpu : Cpu) (s : State) (f : State → Ins) : Host.Outcome State Fault Refusal :=
  .next (if !mayIssue s.dev cpu then s
    else match cpuFetch s cpu with
      | (some t, s) => raiseTrap s cpu t
      | (none, s) => insFinish cpu (f s))

/-- The kind of a CPU for the encoding. -/
def cpuKind : Cpu → CpuKind
  | .core _ => .app
  | .warden => .warden
  | .engine _ _ => .engine

/-- General register r of a CPU, and its flags. -/
def gOf (d : Dev) (cpu : Cpu) (r : GReg) : Word := d.g (cpuId cpu) r.val
def cpuFlags (d : Dev) (cpu : Cpu) : Flags := flagsOf (d.cr (cpuId cpu) crCS)

/-- The address after the instruction at a CPU's pc. -/
def pcNext (d : Dev) (cpu : Cpu) : Word := d.pc (cpuId cpu) + 4

/-- An instruction whose operands break a rule, or of a group its CPU does not have (R571, R588). -/
def illegal (s : State) : Ins := .trap s { vec := 1 }

/-- An instruction below its level (R586). -/
def privileged (s : State) (cpu : Cpu) (f : Ins) : Ins :=
  if cpuKind cpu = .engine then illegal s
  else if s.dev.level (cpuId cpu) = 0 then .trap s { vec := 2 } else f

/-- An instruction that writes rt and, with S set, the flags (R570, R573). -/
def regIns (cpu : Cpu) (rt : GReg) (sf : Bool) (s : State) (f : Dev → Word × Flags) : Host.Outcome State Fault Refusal :=
  runIns cpu s fun s =>
    let x := f s.dev
    .done (s.onDev fun d =>
      let d := d.setG (cpuId cpu) rt.val x.1
      if sf then d.setCr (cpuId cpu) crCS (withFlags (d.cr (cpuId cpu) crCS) x.2) else d) (pcNext s.dev cpu)

/-! ### Data accesses -/

/-- The outcome of a data access. -/
inductive MemRes where
  | ok (v : Nat) (s : State)
  | trap (s : State) (t : Trap)
  | final (s : State)

/-- An access outside an engine's map, its regions or its widths (R142, R143, R589). -/
def engBad (s : State) (a : Nat) : MemRes := .trap s { vec := 8, faddr := a }

/-- The address of grove g's own memory on the global map (R143). -/
def gvAddr (g a : Nat) : Nat := 0x20000000 + g * 0x40000 + a

/-- A load of an engine (R143, R144, R147, R148). -/
def engLoad (s : State) (p : Pass) (e a n : Nat) : MemRes :=
  if a < 0x10000 then
    if n = 4 && !codeOut s.dev p.grove p.task a then .ok (s.mget (gvAddr p.grove a) 4) s else engBad s a
  else if a < 0x30000 then
    if inRegion s.dev p.grove p.task ((a - 0x10000) / 0x1000) then .ok (s.mget (gvAddr p.grove a) n) s else engBad s a
  else if 0x40000 ≤ a && n = 4 then
    match stateWindow s.dev p e (a - 0x40000) with
    | some (v, d) => .ok v { s with dev := d }
    | none => engBad s a
  else engBad s a

/-- A steering write is refused (R150): discarded, with a refusal record. -/
def steerRefuse (s : State) (p : Pass) (e a : Nat) (owner : Nat × Bool) : State :=
  s.onDev fun d =>
    refuse (d.set1 GV_CAUSE_OWN_ERR p.grove) (d.f GV_TCFG_OWNER (tk p.grove p.task)) false 8 owner true
      (256 * p.grove + e) a

/-- The steering queue drains until it takes a write (R141). -/
def steerRoom : Nat → Dev → Nat → Dev
  | 0, d, _ => d
  | fuel + 1, d, g =>
    if (d.steerq.filter fun x => x.grove == g && x.kind == 0).length < 8 then d else steerRoom fuel (steerHead d g) g

/-- A store to the steering window (R149 to R151); an offset without a field is ignored (R13). -/
def steerStore (s : State) (p : Pass) (e a : Nat) (v : Word) : State :=
  let off := a - 0x50000
  match steerReg off with
  | none => s
  | some (_, i, isRail) =>
    let owner := if isRail then railOwner s.dev i else phaseOwner s.dev i
    if !steerOk s.dev p.grove (s.dev.f GV_TCFG_OWNER (tk p.grove p.task)) i isRail then steerRefuse s p e a owner
    else
      s.onDev fun d =>
        let d := steerRoom 64 d p.grove
        { d with steerq := d.steerq ++ [{ grove := p.grove, kind := 0, off := off, tag := p.tag, val := v }] }

/-- A store to a control word: CAPT_CTL, or OUTQ_TAIL (R154, R156, R157). -/
def ctlStore (s : State) (p : Pass) (e a : Nat) (v : Word) : State :=
  if a = 0x60004 then s.onDev fun d => d.setH .gOutTail p.grove v.toNat
  else if !v.getLsbD 31 then s
  else
    let k := bitsOf v 0 4
    let o := s.dev.f GV_TCFG_OWNER (tk p.grove p.task)
    if steerOk s.dev p.grove o k true then s.onDev fun d => capArm d p.grove o v
    else steerRefuse s p e a (railOwner s.dev k)

/-- The effect of a store of the engine that performs them. -/
def engPut (s : State) (p : Pass) (e a n v : Nat) : State :=
  if a < 0x30000 then s.mput (gvAddr p.grove a) n v
  else if a < 0x60000 then steerStore s p e a (BitVec.ofNat 32 v)
  else ctlStore s p e a (BitVec.ofNat 32 v)

/-- Whether an engine's map takes a store (R143, R144). -/
def engStoreOk (d : Dev) (p : Pass) (a n : Nat) : Bool :=
  if a < 0x30000 then 0x10000 ≤ a && inRegion d p.grove p.task ((a - 0x10000) / 0x1000)
  else n == 4 && ((0x50000 ≤ a && a < 0x50800) || (0x60000 ≤ a && a < 0x60008))

/-- A store of an engine: of a shadowed pair only the first performs it, and the two are compared (R172, R173). -/
def engStore (s : State) (p : Pass) (e a n v : Nat) : MemRes :=
  if !engStoreOk s.dev p a n then engBad s a
  else match cmpWith p e (8 * a + n) (v % 2 ^ (8 * n)) with
    | none => .final (s.onDev fun d => mismatch d p)
    | some q =>
      let s := s.onDev fun d => setPass d q
      .ok 0 (if e = p.e1 then engPut s q e a n v else s)

/-- The exception an access to a physical address ends in, if it fails (R643, R651). -/
def resTrap (r : Res) (va : Nat) (write : Bool) : Option Trap :=
  match r with
  | .ok _ => none
  | .err | .refused => some { vec := 8, faddr := va, write := write }
  | .ue bank lane => some { vec := 10, faddr := va, finfo := bank % 16 + 16 * (lane % 4), write := write }

/-- A load of n bytes at effective address a, aligned (R581, R587). -/
def dataLoad (s : State) (cpu : Cpu) (a n : Nat) : MemRes :=
  match cpu with
  | .engine g e =>
    match passOn s.dev g e with
    | some p => engLoad s p e a n
    | none => .final s
  | _ =>
    let c := cpuId cpu
    match cpuTranslate s c a (s.dev.level c) .load with
    | .fault info s => .trap s { vec := 6, faddr := a, finfo := info }
    | .ok pa s =>
      match coreLoad s c pa n with
      | (.ok v, s) => .ok v s
      | (r, s) => .trap s ((resTrap r a false).getD { vec := 8 })

/-- A store of n bytes at effective address a, aligned (R581, R587, R597). -/
def dataStore (s : State) (cpu : Cpu) (a n v : Nat) : MemRes :=
  match cpu with
  | .engine g e =>
    match passOn s.dev g e with
    | some p => engStore s p e a n v
    | none => .final s
  | _ =>
    let c := cpuId cpu
    match cpuTranslate s c a (s.dev.level c) .store with
    | .fault info s => .trap s { vec := 6, faddr := a, finfo := info, write := true }
    | .ok pa s =>
      if storeMapOk pa n then .ok 0 (sbPush s c pa n v) else .trap s { vec := 8, faddr := a, write := true }

end Sys2Proof.Machine
end

