-- ==== Sys2Proof/Machine/Library.lean ====
section
/-! DEFINITION. The standard grove library (spec/04, R166 to R171): the parameters of the standard tasks, and the law each
pass of one carries out. The words of the library are root firmware's and free (notes/assumptions/2.md); what a pass of it
does the spec states, and it does it at its DONE (notes/assumptions/58.md). -/

namespace Sys2Proof.Machine

/-! ### Parameters (R166) -/

/-- The default parameters of the standard task of a kind, as offsets and words: 0 PLACE, 1 FREQ, 2 SHARE, 3 RETUNE,
4 TRUST. -/
def stdDefaults (kind : Nat) : List (Nat × Nat) :=
  match kind with
  | 1 => [(0x04, 64000), (0x08, 16000), (0x0C, 640), (0x10, 3200), (0x14, 320), (0x18, 1680)]
  | 2 => [(0x04, 16384), (0x08, 4)]
  | 3 => [(0x04, 2), (0x08, 3), (0x0C, 2048), (0x10, 64), (0x14, 8192)]
  | _ => []

/-- Where RETUNE keeps its gain, and TRUST the trust of rail 0, in the task's data region (notes/assumptions/58.md). -/
def stdGainAt : Nat := 0x18
def stdTrustAt : Nat := 0x20

/-- The address of a byte of the data region of task t of grove g on the global map (R143, R144). -/
def stdAddr (d : Dev) (g t o : Nat) : Nat := gvAddr g (0x10000 + d.f GV_TDATA_DBASE (tk g t) * 0x1000 + o)

/-- A standard task is installed: its kind, its rail, the default parameters, and no gain and no trust yet. -/
def stdInstall (s : State) (g t kind rail : Nat) : State :=
  let own : List (Nat × Nat) :=
    if kind = 3 then [(stdGainAt, 0)] else if kind = 4 then (List.range 16).map fun k => (stdTrustAt + 4 * k, 0) else []
  let s := s.onDev fun d => d.setH .gStd (tk g t) (kind + 1 : Nat)
  ((0, rail) :: stdDefaults kind ++ own).foldl (fun s x => s.mput (stdAddr s.dev g t x.1) 4 x.2) s

/-- A word of the data region of a pass, and its replacement. -/
def stdGet (s : State) (p : Pass) (o : Nat) : Nat := s.mget (stdAddr s.dev p.grove p.task o) 4
def stdPut (s : State) (p : Pass) (o v : Nat) : State := s.mput (stdAddr s.dev p.grove p.task o) 4 v

/-! ### What a pass reads and writes -/

/-- A word of the state window as a pass reads it (R147, R148); of a rail block; of a phase block. -/
def winWord (d : Dev) (p : Pass) (off : Nat) : Word :=
  match stateWindow d p p.e1 off with
  | some x => BitVec.ofNat 32 x.1
  | none => 0
def winRail (d : Dev) (p : Pass) (k o : Nat) : Word := winWord d p (0x40 * k + o)
def winPhase (d : Dev) (p : Pass) (n o : Nat) : Word := winWord d p (0x400 + 0x20 * n + o)

/-- The phases of rail k in a state, as the window shows them. -/
def winPhases (d : Dev) (p : Pass) (k st : Nat) : List Nat :=
  (List.range 64).filter fun n =>
    let r := winPhase d p n 0x14
    valOf r PH_ROLE_ROLE == 1 && valOf r PH_ROLE_RAIL == k && valOf (winPhase d p n 0) PH_STATUS_STATE == st

/-- A steering write of a pass (R149, R150). -/
def stdSteer (s : State) (p : Pass) (off : Nat) (v : Int) : State :=
  steerStore s p p.e1 (0x50000 + off) (BitVec.ofInt 32 v)

/-- A quotient that the law does not round, at the state (notes/assumptions/58.md). -/
def State.quot (s : State) (a b : Int) : Int × State :=
  let (v, d) := s.dev.quotFree a b
  (v, { s with dev := d })

/-! ### Placement (R167) -/

/-- The targets of the SWITCHING phases, relative to the lead's angle, from the ascending r. -/
def placeBase (rs : List Nat) : Int :=
  let mp : Int := rs.length
  let ds : List Int := rs.zipIdx.map fun x => x.1 * mp - x.2 * 65536
  match ds with
  | [] => 0
  | a :: t => (t.foldl min a + t.foldl max a + mp) / (2 * mp)
def placeStep (mp j : Nat) : Nat := (j * 65536 + mp / 2) / mp

/-- The midpoint of the largest gap between adjacent positions on the circle, the first among equals. -/
def gapMid (l : List Nat) : Nat :=
  let ends := l.drop 1 ++ [(l.headD 0) + 65536]
  let gaps := (l.zip ends).map fun x => (x.2 - x.1, x.1)
  let big := gaps.foldl (fun (m : Nat × Nat) x => if m.1 < x.1 then x else m) (0, 0)
  big.2 + big.1 / 2

/-- PLACE: the SWITCHING phases evenly spaced in their cyclic order, then each SHED phase in a gap of its own. -/
def lawPlace (s : State) (p : Pass) (k : Nat) : State :=
  let d := s.dev
  let lead := valOf (winRail d p k 0) FL_STATUS_LEAD_ACT
  let ang (n : Nat) : Nat := valOf (winPhase d p n 0x0C) PH_ANGNOW_ANG
  let r (n : Nat) : Nat := (ang n + 65536 - ang lead) % 65536
  let order := sortBy (fun a b => r a < r b || (r a == r b && (a == lead || (b != lead && a ≤ b)))) (winPhases d p k phSwitching)
  let mp := order.length
  if mp = 0 then s
  else
    let zero : Int := ang lead + placeBase (order.map r)
    let put (s : State) (n pos : Nat) : State := stdSteer s p (0x400 + 0x10 * n) ((zero + pos) % 65536)
    let s := order.zipIdx.foldl (fun s x => put s x.1 (placeStep mp x.2)) s
    ((winPhases d p k phShed).foldl (fun (x : State × List Nat) n =>
      let m := gapMid x.2
      (put x.1 n m, insBy (fun a b => decide (a ≤ b)) (m % 65536) x.2)) (s, (List.range mp).map (placeStep mp))).1

/-! ### Frequency (R168) -/

/-- The hottest stage of the rail's phases, 1/16 degree. -/
def maxStageTemp (d : Dev) (p : Pass) (k : Nat) : Option Int :=
  let l := (List.range 64).filter fun n =>
    let r := winPhase d p n 0x14
    valOf r PH_ROLE_ROLE == 1 && valOf r PH_ROLE_RAIL == k && valOf (winPhase d p n 0x10) PH_STAGE_MAPPED == 1
  (l.map fun n => sext (valOf (winPhase d p n 0x10) PH_STAGE_TEMP) 13).foldl (fun m t => some (max (m.getD t) t)) none

/-- FREQ: a half-period from the rail's mean phase current, with hysteresis. -/
def lawFreq (s : State) (p : Pass) (k : Nat) : State :=
  let d := s.dev
  let par (o : Nat) : Int := stdGet s p o
  let mp : Int := valOf (winRail d p k 0) FL_STATUS_NPH
  let isum := sext (valOf (winRail d p k 0x10) FL_ISUM_ISUM) 16
  let now : Int := valOf (winRail d p k 0x1C) PH_RPERNOW_PER
  let (light, heavy, lo, hi, hyst, thot) := (par 0x04, par 0x08, par 0x0C, par 0x10, par 0x14, par 0x18)
  -- frac = num / den
  let n0 := (16 * isum - lo * mp) * 4096
  let d0 := mp * (hi - lo)
  let (num, den, s) : Int × Int × State :=
    if d0 = 0 then let (v, s) := s.quot n0 0; (v, 1, s) else (if d0 < 0 then (-n0, -d0, s) else (n0, d0, s))
  let num := clampI num 0 (4096 * den)
  -- h = hn / hd
  let hn := light * 4096 * den + (heavy - light) * num
  let hd := 4096 * den
  let (hn, hd) := if (maxStageTemp d p k).any fun t => thot ≤ t then (11 * hn, 10 * hd) else (hn, hd)
  if hyst * hd < (hn - now * hd).natAbs then
    let (h, s) := s.quot hn hd
    stdSteer s p (0x40 * k + 0x24) h
  else s

/-! ### Wear-weighted sharing (R169) -/

/-- SHARE: each SWITCHING phase's weight from its stage's wear, by at most WSTEP a pass. -/
def lawShare (s : State) (p : Pass) (k : Nat) : State :=
  let d := s.dev
  let span : Int := stdGet s p 0x04
  let step : Int := stdGet s p 0x08
  let l := winPhases d p k phSwitching
  let wear (n : Nat) : Nat := bitsOf (winPhase d p n 0x18) 0 16
  let wmin := l.foldl (fun m n => min m (wear n)) 65535
  l.foldl (fun s n =>
    let (v, s) := s.quot (256 * span - 51 * min ((wear n : Int) - wmin) span) span
    let now : Int := valOf (winPhase d p n 0x08) PH_EQNOW_WEFF
    stdSteer s p (0x400 + 0x10 * n + 4) (clampI v (now - step) (now + step))) s

/-! ### Compensator retuning (R170) -/

/-- cos(2 pi k / 64) in units of 2^-30, of the first quarter and of every k. -/
def cosQuarter : List Int :=
  [1073741824, 1068571464, 1053110176, 1027506862, 992008094, 946955747, 892783698, 830013654, 759250125, 681174602,
   596538995, 506158392, 410903207, 311690799, 209476638, 105245103, 0]
def cos64 (k : Nat) : Int :=
  let j := k % 64
  let q (i : Nat) : Int := (cosQuarter[i]?).getD 0
  if j ≤ 16 then q j else if j ≤ 32 then -q (32 - j) else if j ≤ 48 then -q (j - 32) else q (64 - j)

/-- The integer square root of a number below 2^120. -/
def isqrt (n : Nat) : Nat :=
  (List.range 60).foldl (fun r i => let c := r + 2 ^ (59 - i); if c * c ≤ n then c else r) 0

/-- pi in units of 2^-28. -/
def piQ28 : Int := 843314857

/-- The record folded into one period of 64 samples. -/
def foldRecord (cap : Nat → Int) : List Int :=
  (List.range 64).map fun j => (List.range 16).foldl (fun a i => a + cap (64 * i + j)) 0

/-- |a[1]| of the transform of 64 samples, in units of 2^-30. DESIGN CHOICE (notes/assumptions/61.md): the spec gives
RETUNE's arithmetic no precision; the model takes cosines to 2^-30, pi to 2^-28 and the magnitude's root rounded down. -/
def binOne (a : List Int) : Nat :=
  let re := a.zipIdx.foldl (fun x y => x + y.1 * cos64 y.2) 0
  let im := a.zipIdx.foldl (fun x y => x + y.1 * cos64 (y.2 + 48)) 0
  isqrt (re * re + im * im).natAbs

/-- Sample i of the capture record, as the window shows it. -/
def capSample (d : Dev) (p : Pass) (i : Nat) : Int := sext (bitsOf (winWord d p (0x2000 + i / 2 * 4)) (16 * (i % 2)) 16) 16

/-- The gain g after a capture, in units of 2^-28: from the sensitivity s against its target. -/
def retuneGain (s : State) (p : Pass) : Int × State :=
  let par (o : Nat) : Int := stdGet s p o
  let one : Int := 2 ^ 28
  let (amp, tgt, kr, span) := (par 0x04, par 0x0C * 2 ^ 16, par 0x10, par 0x14)
  let g0 := par stdGainAt
  let g0 := if g0 = 0 then one else g0
  let mag : Int := binOne (foldRecord (capSample s.dev p))
  let (sens, s) := s.quot (mag * piQ28) (51200 * amp * 2 ^ 30)
  let (m, s) := s.quot (one * (256 * tgt + kr * (sens - tgt))) (256 * tgt)
  let (g, s) := s.quot (g0 * clampI m (one / 8 * 7) (one / 8 * 9)) one
  let (lo, s) := s.quot (one * 4096) span
  (clampI g lo (span * 2 ^ 16), s)

/-- RETUNE arms the next capture: the error, with the tone of AMP and TK, 64 samples to its period. -/
def retuneArm (s : State) (p : Pass) (k : Nat) : State :=
  let t := stdGet s p 0x08
  let w : Nat := k + 2 ^ 7 * (5 - t) + 2 ^ 16 * (stdGet s p 0x04 % 256) + 2 ^ 24 * (t % 16) + 2 ^ 31
  ctlStore s p p.e1 0x60000 (BitVec.ofNat 32 w)

/-- RETUNE on a finished capture: the grove bank from the active software bank by the gain g, one gain shift lower where the
coefficients pass their range. -/
def lawRetune (s : State) (p : Pass) (k : Nat) : State :=
  let one : Int := 2 ^ 28
  let coef (o : Nat) : Int := sext (bitsOf (winRail s.dev p k o) 0 24) 24
  let sgsh := bitsOf (winRail s.dev p k 0x24) 0 4
  let (g, s) := retuneGain s p
  let cs := [coef 0x28, coef 0x2C, coef 0x30, coef 0x34].map fun c => c * g
  let top : Int := cs.foldl (fun m c => max m c.natAbs) 0
  let (a1, a2) := (coef 0x38, coef 0x3C)
  let range : Int := 2 ^ 23
  let (den, mul, gsh) : Int × Int × Nat :=
    if top < range * one then (one, 1, sgsh)
    else if 0 < sgsh then (2 * one, 1, sgsh - 1)
    else (top, range - 1, 0)
  let (g, s) := if range * one ≤ top && sgsh == 0 then s.quot (g * ((range - 1) * one)) top else (g, s)
  let s := stdPut s p stdGainAt (g.toNat)
  let ws := (cs.map fun c => sat (roundDiv (c * mul) den) 24) ++ [a1, a2, gsh]
  retuneArm (ws.zipIdx.foldl (fun s x => stdSteer s p (0x40 * k + 4 * x.2) x.1) s) p k

/-! ### Trust scoring (R171) -/

/-- The trust after an outcome of a class. -/
def trustStep (cls t : Nat) : Nat :=
  let t : Int := t
  (clampI (match cls with
    | 0 => t + asr (256 - t) 4
    | 1 => t - asr t 2
    | 2 | 3 => t - asr t 3
    | _ => t) 0 255).toNat

/-- The outcomes a pass finds: the indexes from OUTQ_TAIL to OUT_HEAD. -/
def outcomes (d : Dev) (g : Nat) : List Nat :=
  let tail := d.hn .gOutTail g
  (List.range (min 64 (((d.gw g 0x1400).toNat + 2 ^ 32 - tail % 2 ^ 32) % 2 ^ 32))).map fun j => tail + j

/-- The rails TRUST serves: those the grove leads that the task's owner owns. -/
def trustRail (d : Dev) (p : Pass) (k : Nat) : Bool := steerOk d p.grove (d.f GV_TCFG_OWNER (tk p.grove p.task)) k true

/-- TRUST: each outcome applied to the trust of its rail and slot, each affected rail written once, then the tail. -/
def lawTrust (s : State) (p : Pass) : State :=
  let g := p.grove
  let w0 (h : Nat) : Word := s.dev.gw g (0x1000 + h % 64 * 0x10)
  let hs := (outcomes s.dev g).filter fun h => trustRail s.dev p (bitsOf (w0 h) 0 4)
  let ks := (List.range 16).filter fun k => hs.any fun h => bitsOf (w0 h) 0 4 == k
  let s := hs.foldl (fun s h =>
    let w := w0 h
    let o := stdTrustAt + 4 * bitsOf w 0 4
    let x : Word := BitVec.ofNat 32 (stdGet s p o)
    let lo := 8 * bitsOf w 4 2
    stdPut s p o (putBits x lo 8 (trustStep (bitsOf w 8 3) (bitsOf x lo 8) : Nat)).toNat) s
  let s := ks.foldl (fun s k => stdSteer s p (0x40 * k + 0x28) (stdGet s p (stdTrustAt + 4 * k) : Nat)) s
  ctlStore s p p.e1 0x60004 (s.dev.gw g 0x1400)

/-! ### A pass of a standard task -/

/-- Whether rail k reads frozen in the window: the pass then ends with DROP. -/
def winFrozen (d : Dev) (p : Pass) (k : Nat) : Bool := valOf (winRail d p k 0) FL_STATUS_FROZEN == 1

/-- The law of a standard task of a kind, and how its pass ends: 1 DONE, 2 DROP. -/
def stdLaw (s : State) (p : Pass) (kind : Nat) : State × Nat :=
  let k := stdGet s p 0
  if kind = 4 then
    let frozenOut := (outcomes s.dev p.grove).any fun h =>
      let k := bitsOf (s.dev.gw p.grove (0x1000 + h % 64 * 0x10)) 0 4
      trustRail s.dev p k && winFrozen s.dev p k
    if frozenOut then (s, 2) else (lawTrust s p, 1)
  else if 16 ≤ k || winFrozen s.dev p k then (s, 2)
  else match kind with
    | 0 => (lawPlace s p k, 1)
    | 1 => (lawFreq s p k, 1)
    | 2 => (lawShare s p k, 1)
    | _ =>
      let st := winWord s.dev p 0x2800
      if st.getLsbD 0 then (lawRetune s p k, 1)
      else if st.getLsbD 1 || st.getLsbD 2 then (s, 2)
      else (retuneArm s p k, 2)

/-- A pass ends (R152); that of a standard task carries out its law first. -/
def passOver (s : State) (p : Pass) (kind : Nat) : State :=
  let std := s.dev.hn .gStd (tk p.grove p.task)
  if kind = 1 && std != 0 then
    let (s, kind) := stdLaw s p (std - 1)
    s.onDev fun d => passEnd d p kind
  else s.onDev fun d => passEnd d p kind

end Sys2Proof.Machine
end

