-- ==== Sys2Proof/Machine/BusRows.lean ====
section
/-! DEFINITION. The commands that are one register access of an initiator: each is the load or store of its register on
the global bus, with the word its row names (the registers' chapters). -/

namespace Sys2Proof.Machine

/-- REGISTER_WRITE (R10): a word store in a register range. -/
def execRegisterWrite (who : Initiator) (addr data : Word) (s : State) : Host.Outcome State Fault Refusal :=
  if isRegAddr addr.toNat then .next (keepRes (busStore s who addr.toNat 4 data.toNat)) else .next s

/-- STALE_CLEAR (R82). -/
def execStaleClear (who : Initiator) (k : Rail) (s : State) : Host.Outcome State Fault Refusal :=
  storeF s who FL_STEER_STALE k 1

/-- FL_CMT_HOLD_RELEASE (R75): HOLD is written 0. -/
def execFlCmtHoldRelease (who : Initiator) (k : Rail) (s : State) : Host.Outcome State Fault Refusal :=
  storeF s who FL_CMT_HOLD k 0

/-- FL_CMT_CLRCNT (R83). -/
def execFlCmtClrcnt (who : Initiator) (k : Rail) (s : State) : Host.Outcome State Fault Refusal :=
  storeF s who FL_CMT_CLRCNT k 1

/-- FL_INT_LO_READ (R83): FL_INT_LO is read, which loads FL_INT_HI. -/
def execFlIntLoRead (who : Initiator) (k : Rail) (s : State) : Host.Outcome State Fault Refusal :=
  .next (keepRes (busLoad s who (FL_INT_LO.addr k) 4))

/-- AZ_START (R105). -/
def execAzStart (who : Initiator) (n : Phase) (s : State) : Host.Outcome State Fault Refusal :=
  storeF s who PH_CTL_AZ n 1

/-- CLR_FAIL (R210). -/
def execClrFail (who : Initiator) (n : Phase) (s : State) : Host.Outcome State Fault Refusal :=
  storeF s who PH_CTL_CLR_FAIL n 1

/-- PH_CLRCNT (R134). -/
def execPhClrcnt (who : Initiator) (n : Phase) (s : State) : Host.Outcome State Fault Refusal :=
  storeF s who PH_CTL_CLRCNT n 1

/-- TONE_MAP_GO (R714). -/
def execToneMapGo (who : Initiator) (n : Phase) (s : State) : Host.Outcome State Fault Refusal :=
  storeReg s who PH_MAP_CTL 0 (withF 0 [(PH_MAP_CTL_PHASE, n.val), (PH_MAP_CTL_GO, 1)])

/-- TONE_MAP_ALL (R714). -/
def execToneMapAll (who : Initiator) (s : State) : Host.Outcome State Fault Refusal :=
  storeReg s who PH_MAP_CTL 0 (withF (s.dev.r PH_MAP_CTL) [(PH_MAP_CTL_ALL, 1)])

/-- ROLL_CALL_START (R118). -/
def execRollCallStart (who : Initiator) (m : Fin 4) (s : State) : Host.Outcome State Fault Refusal :=
  storeF s who PH_SB_ROLL_START m 1

/-- BUS_ENABLE (R118). -/
def execBusEnable (who : Initiator) (m : Fin 4) (s : State) : Host.Outcome State Fault Refusal :=
  storeF s who PH_SB_CFG_EN m 1

/-- STAGE_ACCESS_GO (R133). -/
def execStageAccessGo (who : Initiator) (n : Phase) (wr : Bool) (addr : BitVec 16) (len : Fin 8) (s : State) : Host.Outcome State Fault Refusal :=
  storeReg s who PH_SACC_CMD 0 (withF 0
    [(PH_SACC_CMD_PHASE, n.val), (PH_SACC_CMD_WR, b2i wr), (PH_SACC_CMD_ADDR, addr.toNat), (PH_SACC_CMD_LEN, len.val),
     (PH_SACC_CMD_GO, 1)])

/-- GROVE_ENABLE (R179). -/
def execGroveEnable (who : Initiator) (g : Grove) (data : Word) (s : State) : Host.Outcome State Fault Refusal :=
  storeReg s who GV_CFG g (putBits data GV_CFG_EN.lo GV_CFG_EN.n 1)

/-- GROVE_DISABLE (R179). -/
def execGroveDisable (who : Initiator) (g : Grove) (data : Word) (s : State) : Host.Outcome State Fault Refusal :=
  storeReg s who GV_CFG g (putBits data GV_CFG_EN.lo GV_CFG_EN.n 0)

/-- TASK_ENABLE (R162). -/
def execTaskEnable (who : Initiator) (g : Grove) (t : Fin 64) (data : Word) (s : State) : Host.Outcome State Fault Refusal :=
  storeReg s who GV_TCFG (g.val * 64 + t.val) (putBits data GV_TCFG_EN.lo GV_TCFG_EN.n 1)

/-- GV_LEAD_WRITE (R139). -/
def execGvLeadWrite (who : Initiator) (g : Grove) (data : Word) (s : State) : Host.Outcome State Fault Refusal :=
  storeReg s who GV_LEAD g data

/-- RAIL_EN_WRITE (R183, R186): EN is written 1. -/
def execRailEnWrite (who : Initiator) (k : Rail) (s : State) : Host.Outcome State Fault Refusal :=
  storeF s who RL_CTL_EN k 1

/-- SEQUENCED_STOP (R185, R214): EN is written 0. -/
def execSequencedStop (who : Initiator) (k : Rail) (s : State) : Host.Outcome State Fault Refusal :=
  storeF s who RL_CTL_EN k 0

/-- WDG_KICK (R239). -/
def execWdgKick (who : Initiator) (key : BitVec 16) (s : State) : Host.Outcome State Fault Refusal :=
  storeReg s who FB_WDG_KICK 0 (key.setWidth 32)

/-- CWDG_KICK (R240). -/
def execCwdgKick (who : Initiator) (c : Fin 4) (key : BitVec 16) (s : State) : Host.Outcome State Fault Refusal :=
  storeReg s who FB_CWDG_KICK c (key.setWidth 32)

/-- FB_PCLR (R249). -/
def execFbPclr (who : Initiator) (n : Phase) (bits : BitVec 3) (s : State) : Host.Outcome State Fault Refusal :=
  storeReg s who FB_PCLR n (bits.setWidth 32)

/-- FB_RCLR (R249). -/
def execFbRclr (who : Initiator) (k : Rail) (bits : BitVec 6) (s : State) : Host.Outcome State Fault Refusal :=
  storeReg s who FB_RCLR k (bits.setWidth 32)

/-- FB_DCLR (R249). -/
def execFbDclr (who : Initiator) (bits : BitVec 8) (s : State) : Host.Outcome State Fault Refusal :=
  storeReg s who FB_DCLR 0 (bits.setWidth 32)

/-- SC_CAUSE_CLEAR (R245). -/
def execScCauseClear (who : Initiator) (bits : BitVec 8) (s : State) : Host.Outcome State Fault Refusal :=
  storeReg s who FB_SC_CAUSE 0 (bits.setWidth 32)

/-- COMP_TEST_GO (R235). -/
def execCompTestGo (who : Initiator) (k : Rail) (s : State) : Host.Outcome State Fault Refusal :=
  storeF s who FB_RTEST_GO k 1

/-- ST_EN_WRITE (R259). -/
def execStEnWrite (who : Initiator) (s : State) : Host.Outcome State Fault Refusal :=
  storeF s who ST_CTL_EN 0 1

/-- STORE_DISABLE (R259, R280). -/
def execStoreDisable (who : Initiator) (s : State) : Host.Outcome State Fault Refusal :=
  storeF s who ST_CTL_EN 0 0

/-- CEIL_WRITE (R274). -/
def execCeilWrite (who : Initiator) (data : Word) (s : State) : Host.Outcome State Fault Refusal :=
  storeReg s who ST_CEIL 0 data

/-- ALLOW_WRITE (R274). -/
def execAllowWrite (who : Initiator) (data : Word) (s : State) : Host.Outcome State Fault Refusal :=
  storeReg s who ST_ALLOW 0 data

/-- LN_EN_WRITE (R297). -/
def execLnEnWrite (who : Initiator) (l : Lane) (s : State) : Host.Outcome State Fault Refusal :=
  storeF s who LN_CTL_EN l 1

/-- LANE_DISABLE (R297). -/
def execLaneDisable (who : Initiator) (l : Lane) (s : State) : Host.Outcome State Fault Refusal :=
  storeF s who LN_CTL_EN l 0

/-- LANE_TEST_START (R297). -/
def execLaneTestStart (who : Initiator) (l : Lane) (s : State) : Host.Outcome State Fault Refusal :=
  storeF s who LN_TEST_EN l 1

/-- LANE_TEST_STOP (R297). -/
def execLaneTestStop (who : Initiator) (l : Lane) (s : State) : Host.Outcome State Fault Refusal :=
  storeF s who LN_TEST_EN l 0

/-- RETRAIN (R297). -/
def execRetrain (who : Initiator) (l : Lane) (s : State) : Host.Outcome State Fault Refusal :=
  storeF s who LN_CTL_RETRAIN l 1

/-- LANE_CLRCNT (R323). -/
def execLaneClrcnt (who : Initiator) (l : Lane) (s : State) : Host.Outcome State Fault Refusal :=
  storeF s who LN_CTL_CLRCNT l 1

/-- CARRY_REQUEST (R363). -/
def execCarryRequest (who : Initiator) (k : Rail) (s : State) : Host.Outcome State Fault Refusal :=
  storeF s who IG_CPLCMD_CARRY k 1

/-- REJOIN_REQUEST (R363). -/
def execRejoinRequest (who : Initiator) (k : Rail) (s : State) : Host.Outcome State Fault Refusal :=
  storeF s who IG_CPLCMD_REJOIN k 1

/-- TC_ENABLE (R370). -/
def execTcEnable (who : Initiator) (c : Fin 8) (s : State) : Host.Outcome State Fault Refusal :=
  storeF s who TC_CTL_EN c 1

/-- TC_DISABLE (R382). -/
def execTcDisable (who : Initiator) (c : Fin 8) (s : State) : Host.Outcome State Fault Refusal :=
  storeF s who TC_CTL_EN c 0

/-- TC_GO (R377). -/
def execTcGo (who : Initiator) (c : Fin 8) (s : State) : Host.Outcome State Fault Refusal :=
  storeF s who TC_CTL_GO c 1

/-- TC_ABORT (R382). -/
def execTcAbort (who : Initiator) (c : Fin 8) (s : State) : Host.Outcome State Fault Refusal :=
  storeF s who TC_CTL_ABORT c 1

/-- TC_CLRCNT (R391). -/
def execTcClrcnt (who : Initiator) (c : Fin 8) (s : State) : Host.Outcome State Fault Refusal :=
  storeF s who TC_CTL_CLRCNT c 1

/-- FUSE_PROGRAM_SLOT (R416): the source address stands in CH_FPROG_SRC. -/
def execFuseProgramSlot (who : Initiator) (slot : Fin 4) (s : State) : Host.Outcome State Fault Refusal :=
  storeReg s who CH_FPROG 0 (withF 0 [(CH_FPROG_OP, 1), (CH_FPROG_SLOT, slot.val), (CH_FPROG_GO, 1)])

/-- FUSE_RETIRE_SLOT (R416): the source address stands in CH_FPROG_SRC. -/
def execFuseRetireSlot (who : Initiator) (slot : Fin 4) (s : State) : Host.Outcome State Fault Refusal :=
  storeReg s who CH_FPROG 0 (withF 0 [(CH_FPROG_OP, 2), (CH_FPROG_SLOT, slot.val), (CH_FPROG_GO, 1)])

/-- FUSE_PROGRAM_KEY (R416): the source address stands in CH_FPROG_SRC. -/
def execFuseProgramKey (who : Initiator) (key : Fin 8) (s : State) : Host.Outcome State Fault Refusal :=
  storeReg s who CH_FPROG 0 (withF 0 [(CH_FPROG_OP, 3), (CH_FPROG_KEY, key.val), (CH_FPROG_GO, 1)])

/-- FUSE_REVOKE_KEY (R416): the source address stands in CH_FPROG_SRC. -/
def execFuseRevokeKey (who : Initiator) (key : Fin 8) (s : State) : Host.Outcome State Fault Refusal :=
  storeReg s who CH_FPROG 0 (withF 0 [(CH_FPROG_OP, 4), (CH_FPROG_KEY, key.val), (CH_FPROG_GO, 1)])

/-- VERIFY_GO (R422). -/
def execVerifyGo (who : Initiator) (part : Part) (kind : Fin 16) (s : State) : Host.Outcome State Fault Refusal :=
  storeReg s who CH_VCTL 0 (withF 0 [(CH_VCTL_PART, part.val), (CH_VCTL_KIND, kind.val), (CH_VCTL_GO, 1)])

/-- REF_TAIL_WRITE (R407). -/
def execRefTailWrite (who : Initiator) (tail : Fin 32) (s : State) : Host.Outcome State Fault Refusal :=
  storeReg s who CH_REF_TAIL 0 (onlyF CH_REF_TAIL_TAIL tail.val)

/-- CORETAG_WRITE (R398). -/
def execCoretagWrite (who : Initiator) (c : Fin 4) (part : Part) (s : State) : Host.Outcome State Fault Refusal :=
  storeReg s who CH_CORETAG c (onlyF CH_CORETAG_PART part.val)

/-- TR_FIRE (R469). -/
def execTrFire (who : Initiator) (t : Fin 4096) (s : State) : Host.Outcome State Fault Refusal :=
  storeReg s who TR_FIRE 0 (onlyF TR_FIRE_TRAIL t.val)

/-- TR_SRC_WRITE (R465). -/
def execTrSrcWrite (who : Initiator) (t : Fin 4096) (reg : Fin 3) (data : Word) (s : State) : Host.Outcome State Fault Refusal :=
  storeReg s who (match reg with | 0 => TR_SRC | 1 => TR_DSTA | 2 => TR_DSTB) t data

/-- DMA_START (R478). -/
def execDmaStart (who : Initiator) (ch : Fin 32) (s : State) : Host.Outcome State Fault Refusal :=
  storeF s who DM_CTL_START ch 1

/-- DMA_STOP (R478). -/
def execDmaStop (who : Initiator) (ch : Fin 32) (s : State) : Host.Outcome State Fault Refusal :=
  storeF s who DM_CTL_STOP ch 1

/-- DMA_CLR (R478). -/
def execDmaClr (who : Initiator) (ch : Fin 32) (s : State) : Host.Outcome State Fault Refusal :=
  storeF s who DM_CTL_CLR ch 1

/-- DMA_TRIG (R480). -/
def execDmaTrig (who : Option Initiator) (ch : Fin 32) (s : State) : Host.Outcome State Fault Refusal :=
  match who with
  | some who => storeF s who DM_CTL_TRIG ch 1
  | none => s.svc fun d => dmaTrig d ch

/-- PRODUCE (R487). -/
def execProduce (who : Initiator) (ring : BitVec 16) (count : BitVec 12) (s : State) : Host.Outcome State Fault Refusal :=
  storeReg s who QM_DB 0 (withF 0 [(QM_DB_RING, ring.toNat), (QM_DB_OP, 0), (QM_DB_COUNT, count.toNat)])

/-- CONSUME (R487). -/
def execConsume (who : Initiator) (ring : BitVec 16) (count : BitVec 12) (s : State) : Host.Outcome State Fault Refusal :=
  storeReg s who QM_DB 0 (withF 0 [(QM_DB_RING, ring.toNat), (QM_DB_OP, 1), (QM_DB_COUNT, count.toNat)])

/-- ARM (R487). -/
def execArm (who : Initiator) (ring : BitVec 16) (s : State) : Host.Outcome State Fault Refusal :=
  storeReg s who QM_DB 0 (withF 0 [(QM_DB_RING, ring.toNat), (QM_DB_OP, 2), (QM_DB_COUNT, 0)])

/-- RING_CONTEXT_WRITE (R485, R486). -/
def execRingContextWrite (who : Initiator) (ring : BitVec 16) (word : Fin 8) (data : Word) (s : State) : Host.Outcome State Fault Refusal :=
  .next (keepRes (busStore s who (ctxKey ring.toNat word) 4 data.toNat))

/-- ARB_CLRMAX (R503). -/
def execArbClrmax (who : Initiator) (s : State) : Host.Outcome State Fault Refusal :=
  storeF s who ME_ARB_CTL_CLRMAX 0 1

/-- SW_CAUSE_SET (R511). -/
def execSwCauseSet (who : Initiator) (p : Part) (data : Word) (s : State) : Host.Outcome State Fault Refusal :=
  storeReg s who CN_SWSET p data

/-- CN_VIEW_READ (R506). -/
def execCnViewRead (who : Initiator) (s : State) : Host.Outcome State Fault Refusal :=
  .next (keepRes (busLoad s who (CN_VIEW.addr 0) 4))

/-- REQ_ACTIVE (R524). -/
def execReqActive (who : Initiator) (s : State) : Host.Outcome State Fault Refusal :=
  storeReg s who PD_STATE 0 (withF 0 [(PD_STATE_REQ, 0), (PD_STATE_GO, 1)])

/-- REQ_QUIET (R524). -/
def execReqQuiet (who : Initiator) (s : State) : Host.Outcome State Fault Refusal :=
  storeReg s who PD_STATE 0 (withF 0 [(PD_STATE_REQ, 1), (PD_STATE_GO, 1)])

/-- REQ_GLADE (R524). -/
def execReqGlade (who : Initiator) (s : State) : Host.Outcome State Fault Refusal :=
  storeReg s who PD_STATE 0 (withF 0 [(PD_STATE_REQ, 2), (PD_STATE_GO, 1)])

/-- REQ_CLEARING (R524). -/
def execReqClearing (who : Initiator) (s : State) : Host.Outcome State Fault Refusal :=
  storeReg s who PD_STATE 0 (withF 0 [(PD_STATE_REQ, 3), (PD_STATE_GO, 1)])

/-- HOLD_RELEASE (R521). -/
def execHoldRelease (who : Initiator) (data : Word) (s : State) : Host.Outcome State Fault Refusal :=
  storeReg s who PD_HOLDREL 0 data

/-- VOTE_WRITE (R516). -/
def execVoteWrite (who : Initiator) (p : Part) (high : Bool) (data : Word) (s : State) : Host.Outcome State Fault Refusal :=
  storeReg s who (if high then PD_VOTEB else PD_VOTEA) p data

/-- TIMER_HI_WRITE (R539). -/
def execTimerHiWrite (who : Initiator) (t : Fin 16) (reg : Fin 3) (data : Word) (s : State) : Host.Outcome State Fault Refusal :=
  storeReg s who (match reg with | 0 => TM_CNT_HI | 1 => TM_TOP_HI | 2 => TM_MAT_HI) t data

/-- CAL0_READ (R562). -/
def execCal0Read (who : Initiator) (s : State) : Host.Outcome State Fault Refusal :=
  .next (keepRes (busLoad s who (TM_CAL0.addr 0) 4))

/-- RTC_SET_WRITE (R544). -/
def execRtcSetWrite (who : Initiator) (data : Word) (s : State) : Host.Outcome State Fault Refusal :=
  storeReg s who TM_RTC_CTL 0 (putBits data TM_RTC_CTL_SET.lo TM_RTC_CTL_SET.n 1)

/-- LF_FLUSH_WRITE (R551). -/
def execLfFlushWrite (who : Initiator) (data : Word) (s : State) : Host.Outcome State Fault Refusal :=
  storeReg s who LF_CTL 0 (putBits data LF_CTL_FLUSH.lo LF_CTL_FLUSH.n 1)

/-- REMAP_SET (R648). -/
def execRemapSet (who : Initiator) (b : Fin 16) (i : Fin 16) (waddr : BitVec 18) (s : State) : Host.Outcome State Fault Refusal :=
  storeReg s who ME_REMAP (b.val * 16 + i.val) (withF 0 [(ME_REMAP_WADDR, waddr.toNat), (ME_REMAP_V, 1)])

/-- REMAP_CLEAR (R648). -/
def execRemapClear (who : Initiator) (b : Fin 16) (i : Fin 16) (waddr : BitVec 18) (s : State) : Host.Outcome State Fault Refusal :=
  storeReg s who ME_REMAP (b.val * 16 + i.val) (onlyF ME_REMAP_WADDR waddr.toNat)

/-- REPAIR_MODE_WRITE (R647). -/
def execRepairModeWrite (who : Initiator) (b : Fin 16) (data : Word) (s : State) : Host.Outcome State Fault Refusal :=
  storeReg s who ME_BCFG b data

/-- FLASH_PROGRAM (R656). -/
def execFlashProgram (who : Initiator) (nlines : Fin 16) (s : State) : Host.Outcome State Fault Refusal :=
  storeReg s who FC_CMD 0 (withF 0 [(FC_CMD_OP, 1), (FC_CMD_NLINES, nlines.val), (FC_CMD_GO, 1)])

/-- FLASH_ERASE (R656). -/
def execFlashErase (who : Initiator) (s : State) : Host.Outcome State Fault Refusal :=
  storeReg s who FC_CMD 0 (withF 0 [(FC_CMD_OP, 2), (FC_CMD_GO, 1)])

/-- FLASH_SUSPEND (R656). -/
def execFlashSuspend (who : Initiator) (s : State) : Host.Outcome State Fault Refusal :=
  storeReg s who FC_CMD 0 (withF 0 [(FC_CMD_OP, 3), (FC_CMD_GO, 1)])

/-- FLASH_RESUME (R656). -/
def execFlashResume (who : Initiator) (s : State) : Host.Outcome State Fault Refusal :=
  storeReg s who FC_CMD 0 (withF 0 [(FC_CMD_OP, 4), (FC_CMD_GO, 1)])

/-- FLASH_RDTWIN (R656). -/
def execFlashRdtwin (who : Initiator) (s : State) : Host.Outcome State Fault Refusal :=
  storeReg s who FC_CMD 0 (withF 0 [(FC_CMD_OP, 5), (FC_CMD_GO, 1)])

/-- FLASH_SWAP (R656). -/
def execFlashSwap (who : Initiator) (s : State) : Host.Outcome State Fault Refusal :=
  storeReg s who FC_CMD 0 (withF 0 [(FC_CMD_OP, 6), (FC_CMD_GO, 1)])

/-- PAD_FUNC_WRITE (R685). -/
def execPadFuncWrite (who : Initiator) (i : Fin 32) (data : Word) (s : State) : Host.Outcome State Fault Refusal :=
  storeReg s who PX_GCFG i data

/-- GSET_WRITE (R692). -/
def execGsetWrite (who : Initiator) (data : Word) (s : State) : Host.Outcome State Fault Refusal :=
  storeReg s who PX_GSET 0 data

/-- GCLR_WRITE (R692). -/
def execGclrWrite (who : Initiator) (data : Word) (s : State) : Host.Outcome State Fault Refusal :=
  storeReg s who PX_GCLR 0 data

/-- AON_REGISTER_WRITE_ARRIVAL (R28): the oldest write in a crossing into AON arrives. -/
def execAonRegisterWriteArrival (q : Fin 5) (s : State) : Host.Outcome State Fault Refusal :=
  .next (aonArrive s q)

end Sys2Proof.Machine
end

