-- ==== Sys2Proof/Machine/Warden.lean ====
section
/-! DEFINITION. The warden's command interpreter: how a packet is taken, what an opcode may answer, and the register
accesses opcodes are made of (spec/12, R438 to R441, R459, R460; spec/11, R424). -/

namespace Sys2Proof.Machine

/-- What carrying out a packet comes to: a reply, or the packet goes on from step `idx` with what it has gathered. -/
inductive OpOut where
  | done (status : Nat) (data : List Nat)
  | wait (idx : Nat) (acc : List Nat)
  deriving DecidableEq, Repr

/-- What an opcode does with a packet, and what it does next with one that waited. -/
abbrev OpFn := Packet → State → OpOut × State
abbrev LongFn := LongOp → State → OpOut × State

/-- The parameter of n bytes from byte i, little-endian, and a register parameter. -/
def par (k : Packet) (i n : Nat) : Nat := leNat ((k.params.drop i).take n)
def parW (k : Packet) (i : Nat) : Word := BitVec.ofNat 32 (par k i 4)

/-- The usual answers. A refusal of rights is recorded (R405, R408). -/
def opOk (s : State) (data : List Nat := []) : OpOut × State := (.done stOk data, s)
def opErr (s : State) (status : Nat) (data : List Nat := []) : OpOut × State := (.done status data, s)
def opBad (s : State) : OpOut × State := (.done stBadParam [], s)
def opDenied (k : Packet) (s : State) (owner : Nat × Bool) : OpOut × State :=
  (.done stDenied [], s.onDev fun d => refuse d k.part false 6 owner true k.port (k.op + 256 * k.seq))

/-- A parameter count other than the table's is BAD_PARAM. -/
def needLen (k : Packet) (s : State) (n : Nat) (g : OpOut × State) : OpOut × State := if k.params.length = n then g else opBad s

/-- Rights: the partition named, or the owner of a resource in range; `p0` where partition 0 may as well. -/
def needPart (k : Packet) (s : State) (p : Nat) (g : OpOut × State) : OpOut × State :=
  if k.part = p then g else opDenied k s (p, false)
def needOwner (k : Packet) (s : State) (i n : Nat) (owner : Dev → Nat → Nat × Bool) (p0 : Bool) (g : OpOut × State) : OpOut × State :=
  if n ≤ i then opBad s
  else if (owner s.dev i).1 = k.part || (p0 && k.part = 0) then g
  else opDenied k s (owner s.dev i)

/-- An opcode of n parameter bytes whose first names a rail, phase, lane or converter that the tag owns. -/
def onRail (k : Packet) (s : State) (n : Nat) (g : Nat → OpOut × State) : OpOut × State :=
  needLen k s n (needOwner k s (par k 0 1) 16 railOwner false (g (par k 0 1)))
def onPhase (k : Packet) (s : State) (n : Nat) (p0 : Bool) (g : Nat → OpOut × State) : OpOut × State :=
  needLen k s n (needOwner k s (par k 0 1) 64 phaseOwner p0 (g (par k 0 1)))
def onLane (k : Packet) (s : State) (n : Nat) (g : Nat → OpOut × State) : OpOut × State :=
  needLen k s n (needOwner k s (par k 0 1) 12 laneOwner false (g (par k 0 1)))
def onConv (k : Packet) (s : State) (n : Nat) (g : Nat → OpOut × State) : OpOut × State :=
  needLen k s n (needOwner k s (par k 0 1) 8 (fun d c => (convOwner d c, false)) false (g (par k 0 1)))

/-! ### Register accesses of an opcode -/

/-- The warden reads a register; none where its domain is off. -/
def wRead (s : State) (R : Reg) (i : Nat) : Option Nat × State :=
  match busLoad s .warden (R.addr i) 4 with
  | (.ok v, s) => (some v, s)
  | (_, s) => (none, s)

/-- Registers read in order, 4 bytes each. -/
def wReads : List (Reg × Nat) → State → Option (List Nat) × State
  | [], s => (some [], s)
  | (R, i) :: t, s =>
    match wRead s R i with
    | (some v, s) => let (l, s) := wReads t s; (l.map fun l => leBytes 4 v ++ l, s)
    | (none, s) => (none, s)

/-- An opcode whose reply is a list of registers; one in a domain that is off refuses (R517). -/
def opReads (s : State) (l : List (Reg × Nat)) : OpOut × State :=
  match wReads l s with
  | (some b, s) => opOk s b
  | (none, s) => opBad s

/-- Bits outside every field of a register: reserved in a register parameter. -/
def strayBits (row : RegRow) (w : Word) : Bool := (row.fields.foldl (fun x F => putBits x F.lo F.n 0) w) != 0

/-- The bits of a leaf that say the target refused a write (R11, R14, R162, R186, R259, R274, R370). -/
def refBits (x : Reg) : Word :=
  if x = RL_CAUSE || x = ST_CAUSE || x = TC_CAUSE then 0xC800 else if x = GV_CAUSE then 0xC100 else 0xC000

/-- One checked write of the warden (R441): the state after it, or the status and what the refusal sets. -/
def wWrite (s : State) (R : Reg) (i : Nat) (w : Word) : Except (Nat × (Dev → Dev)) State :=
  match regAt (R.addr i) with
  | none => .error (stBadParam, id)
  | some (row, i) =>
    if !regPowered s.dev R i then .error (stBadParam, fun d => d.set1 PD_CAUSE_OFF_ACC)
    else match lockHit s.dev row i w with
    | some F => .error (stLocked, fun d => setLeaf d (lockLeaf R i F) 14)
    | none =>
      if strayBits row w then .error (stBadParam, id)
      else if reservedWord s.dev row i w then .error (stBadParam, fun d => accErr d R i)
      else
        let x := leafOf R i
        let old := s.dev.r x.1 x.2
        let m := refBits x.1
        let t := (busStore (s.onDev fun d => d.setR x.1 x.2 (old &&& ~~~m)) .warden (R.addr i) 4 w.toNat).2
        let new := t.dev.r x.1 x.2 &&& m
        if new = 0 then .ok (t.onDev fun d => d.setR x.1 x.2 (d.r x.1 x.2 ||| (old &&& m)))
        else .error (if new.getLsbD 14 then stLocked else stBadParam, fun d => d.setR x.1 x.2 (d.r x.1 x.2 ||| new))

/-- Checked writes in order. -/
def wWrites : List (Reg × Nat × Word) → State → Except (Nat × (Dev → Dev)) State
  | [], s => .ok s
  | (R, i, w) :: t, s =>
    match wWrite s R i w with
    | .ok s => wWrites t s
    | .error e => .error e

/-- The first word that meets a lock or a reserved encoding as the registers stand before the first write (R441): the status
and what the refusal sets. -/
def wCheck (d : Dev) (l : List (RegRow × Nat × Word)) : Option (Nat × (Dev → Dev)) :=
  l.findSome? fun x =>
    match lockHit d x.1 x.2.1 x.2.2 with
    | some F => some (stLocked, fun d => setLeaf d (lockLeaf x.1.reg x.2.1 F) 14)
    | none => if reservedWord d x.1 x.2.1 x.2.2 then some (stBadParam, fun d => accErr d x.1.reg x.2.1) else none

/-- An opcode that writes registers checks them all, then writes all or none; a refusal sets the block's cause (R441). -/
def opWrites (s : State) (l : List (Reg × Nat × Word)) : OpOut × State :=
  match wCheck s.dev (l.filterMap fun x => (regAt (x.1.addr x.2.1)).map fun r => (r.1, r.2, x.2.2)), wWrites l s with
  | none, .ok s => opOk s
  | some (st, c), .ok _ => (.done st [], s.onDev c)
  | _, .error (st, c) => (.done st [], s.onDev c)

/-- Registers of copy i, with the words of the parameters from byte `o` on. -/
def parRegs (k : Packet) (o i : Nat) (l : List Reg) : List (Reg × Nat × Word) :=
  l.zipIdx.map fun x => (x.1, i, parW k (o + 4 * x.2))

/-- The opcode of a rail, phase or lane that writes the registers of a list. -/
def opRailRegs (l : List Reg) : OpFn := fun k s => onRail k s (1 + 4 * l.length) fun r => opWrites s (parRegs k 1 r l)
def opPhaseRegs (l : List Reg) : OpFn := fun k s => onPhase k s (1 + 4 * l.length) false fun n => opWrites s (parRegs k 1 n l)
def opLaneRegs (l : List Reg) : OpFn := fun k s => onLane k s (1 + 4 * l.length) fun n => opWrites s (parRegs k 1 n l)

/-- The opcode of a rail, phase or lane that reads the registers of a list. -/
def opRailReads (l : List Reg) : OpFn := fun k s => onRail k s 1 fun r => opReads s (l.map fun R => (R, r))
def opLaneReads (l : List Reg) : OpFn := fun k s => onLane k s 1 fun n => opReads s (l.map fun R => (R, n))

/-- Whether a root opcode has turned rail r off since the packet was accepted (R459). -/
def staleFor (k : Packet) (r : Nat) : Bool := k.offs.testBit r

/-! ### Taking packets -/

/-- The packet at the head of the ring the warden serves next, while it holds none (R438). -/
def nextPacket (d : Dev) : Option Packet :=
  if !wardenRuns d || d.held.isSome then none else (nextRing d).bind (ringHead d)

/-- Whether an opcode is marked Long (R439). -/
def opLong (op : Nat) : Bool :=
  op == 0x4A || op == 0x4B || op == 0x97 || (0xA1 ≤ op && op ≤ 0xA4) || op == 0xB4 || op == 0xB7 || op == 0xBB

/-- The reply to packet k; a BUSY leaves its stream as it was (R434). -/
def opFinish (d : Dev) (k : Packet) (st : Nat) (data : List Nat) : Dev := if st = stBusy then finishBusy d k else finish d k st data

/-- What a packet that was carried out, as far as it goes, leaves (R438, R439). -/
def settleOp (k : Packet) (x : OpOut × State) : State :=
  match x.1 with
  | .done st data => x.2.onDev fun d => opFinish d k st data
  | .wait idx acc =>
    let y : LongOp := { pkt := k, idx := idx, acc := acc }
    x.2.onDev fun d => if opLong k.op then { d with longs := d.longs ++ [y] } else { d with held := some y }

/-- The warden carries out packet k, which leaves its ring: a second Long packet of a group is answered BUSY (R439). -/
def runPacket (k : Packet) (f : OpFn) (s : State) : State :=
  let s := s.onDev fun d => ringPop d k
  if opLong k.op && s.dev.longs.any fun y => y.pkt.op / 16 == k.op / 16 then s.onDev fun d => finishBusy d k
  else settleOp k (f k s)

/-- The warden goes on with the packet that holds it. -/
def runHeld (y : LongOp) (f : LongFn) (s : State) : State :=
  settleOp y.pkt (f y (s.onDev fun d => { d with held := none }))

/-- LONG_PACKET_COMPLETE (R439): the Long packet of a group goes on, and is answered once it is complete. -/
def runLong (y : LongOp) (f : LongFn) (s : State) : State :=
  match f y s with
  | (.done st data, s) =>
    s.onDev fun d => opFinish ({ d with longs := d.longs.filter fun z => z != y } : Dev) y.pkt st data
  | (.wait idx acc, s) =>
    s.onDev fun d => { d with longs := d.longs.map fun z => if z = y then { y with idx := idx, acc := acc } else z }

end Sys2Proof.Machine
end

