-- ==== Sys2Proof/Machine/OpRail.lean ====
section
/-! DEFINITION. The opcodes of groups 0, 2, 3 and 4: the device, register access, rails and phases (spec/12, R440, R441,
R459, R460). -/

namespace Sys2Proof.Machine

/-! ### Group 0 -/

/-- 0x00 DEV_INFO. -/
def opDevInfo : OpFn := fun k s =>
  let d := s.dev
  needLen k s 0 (opOk s (shBytes d 0 13 ++ leBytes 2 (d.f CH_BOOT_VERSION) ++ leBytes 3 (d.r LN_VER).toNat
    ++ leBytes 2 (d.f CH_SERIAL_SERIAL) ++ [npart d]))

/-- 0x01 DEV_STATUS: the canopy view is the tag's. -/
def opDevStatus : OpFn := fun k s =>
  let d := s.dev
  needLen k s 0 (opOk s ([d.f PD_STATE_STATE] ++ leBytes 4 (d.r CH_BOOT).toNat ++ leBytes 4 (canopyView d k.part)))

/-- 0x02 ECHO. -/
def opEcho : OpFn := fun k s => if 240 < k.params.length then opBad s else opOk s k.params

/-- What SET_STATE waits for: the transition ends. -/
def longState : LongFn := fun _ s => if s.dev.on PD_STATE_BUSY then (.wait 0 [], s) else opOk s

/-- 0x03 SET_STATE (R524): a refused request is LOCKED. -/
def opSetState : OpFn := fun k s =>
  needLen k s 1 (needPart k s 0 (
    let q := par k 0 1
    if 2 < q then opBad s
    else
      let (ok, d) := pdRequest s.dev q
      let s := qSettle { s with dev := d }
      if !ok then opErr s stLocked else if s.dev.on PD_STATE_BUSY then (.wait 0 [], s) else opOk s))

/-- Words read with the packet's tag (R440). -/
def tagReads (who : Initiator) (a : Nat) : Nat → State → Except Nat (List Nat) × State
  | 0, s => (.ok [], s)
  | n + 1, s =>
    match busLoad s who a 4 with
    | (.ok v, s) =>
      match tagReads who (a + 4) n s with
      | (.ok l, s) => (.ok (leBytes 4 v ++ l), s)
      | (.error e, s) => (.error e, s)
    | (.refused, s) => (.error stDenied, s)
    | (_, s) => (.error stBadParam, s)

/-- The initiator whose rights a packet has. -/
def tagInit (k : Packet) : Initiator := .packet (Fin.ofNat 8 k.part) (Fin.ofNat 4 k.port)

/-- Whether n words from an address lie in the register ranges of the map (R33). -/
def inRegs (a n : Nat) : Bool := a % 4 == 0 && isRegAddr a && isRegAddr (a + 4 * n - 4) && (a < 0x50000000) == (a + 4 * n ≤ 0x50000000)

/-- 0x08 REG_READ (R440). -/
def opRegRead : OpFn := fun k s =>
  needLen k s 5 (
    let a := par k 0 4
    let n := par k 4 1
    if n = 0 || 60 < n || !inRegs a n then opBad s
    else match tagReads (tagInit k) a n s with
      | (.ok l, s) => opOk s l
      | (.error e, s) => opErr s e)

/-- The record of a write that its target refused to a tag (R405). -/
def tagRefusal (s : State) (who : Initiator) (a : Nat) (w : Word) (d : Dev) : Dev :=
  match regAt a with
  | none => d
  | some (row, i) =>
    let R := row.reg
    let (kind, owner, target) : Nat × (Nat × Bool) × Nat :=
      if R.own = .trail then (2, trailOwner s.dev i, i)
      else if R = TR_FIRE then (2, trailOwner s.dev (valOf w TR_FIRE_TRAIL), valOf w TR_FIRE_TRAIL)
      else if R = QM_DB then (5, ringOwner s.dev (valOf w QM_DB_RING), a)
      else (0, regOwner s.dev R i, a)
    refuse d (tagOf d who).1 false kind owner true (srcOf who) target

/-- One checked write with the packet's tag (R440, R441). A write to a leaf itself clears what it names. -/
def tagWrite (s : State) (who : Initiator) (a : Nat) (w : Word) : Except (Nat × (Dev → Dev)) State :=
  match regAt a with
  | none => .ok s
  | some (row, i) =>
    match busStore s who a 4 w.toNat with
    | (.refused, _) => .error (stDenied, tagRefusal s who a w)
    | (.ok _, t) =>
      let x := leafOf row.reg i
      if x.1 = row.reg then .ok t
      else match lockHit s.dev row i w with
        | some F => .error (stLocked, fun d => setLeaf d (lockLeaf row.reg i F) 14)
        | none =>
          if reservedWord s.dev row i w then .error (stBadParam, fun d => accErr d row.reg i)
          else
            let old := s.dev.r x.1 x.2
            let m := refBits x.1
            let t := (busStore (s.onDev fun d => d.setR x.1 x.2 (old &&& ~~~m)) who a 4 w.toNat).2
            let new := t.dev.r x.1 x.2 &&& m
            if new = 0 then .ok (t.onDev fun d => d.setR x.1 x.2 (d.r x.1 x.2 ||| (old &&& m)))
            else .error (if new.getLsbD 14 then stLocked else stBadParam, fun d => d.setR x.1 x.2 (d.r x.1 x.2 ||| new))
    | _ => .error (stBadParam, if regPowered s.dev row.reg i then id else fun d => d.set1 PD_CAUSE_OFF_ACC)

/-- Words written in order with the packet's tag. -/
def tagWrites (who : Initiator) (a : Nat) : List Word → State → Except (Nat × (Dev → Dev)) State
  | [], s => .ok s
  | w :: t, s =>
    match tagWrite s who a w with
    | .ok s => tagWrites who (a + 4) t s
    | .error e => .error e

/-- Whether a word written at an address asks for a rail that a root opcode has turned off since (R459). -/
def staleWord (k : Packet) (a : Nat) (w : Word) : Bool :=
  match RL_CTL.find? a with
  | some r => w.getLsbD 0 && staleFor k r
  | none => false

/-- 0x09 REG_WRITE (R440, R441). -/
def opRegWrite : OpFn := fun k s =>
  let len := k.params.length
  let n := (len - 4) / 4
  if len < 8 || len % 4 ≠ 0 || 60 < n then opBad s
  else
    let a := par k 0 4
    let ws := (List.range n).map fun j => parW k (4 + 4 * j)
    if !inRegs a n then opBad s
    else if ws.zipIdx.any fun x => staleWord k (a + 4 * x.2) x.1 then opErr s stStale
    else
      let words := ws.zipIdx.filterMap fun x => (regAt (a + 4 * x.2)).map fun r => (r.1, r.2, x.1)
      match tagWrites (tagInit k) a ws s, wCheck s.dev words with
      | .ok s, none => opOk s
      | .ok _, some (st, c) => (.done st [], s.onDev c)
      | .error (st, c), _ => (.done st [], s.onDev c)

/-- 0x0A REG_MODIFY (R440). -/
def opRegModify : OpFn := fun k s =>
  needLen k s 12 (
    let a := par k 0 4
    let m := parW k 4
    let v := parW k 8
    if !inRegs a 1 then opBad s
    else if staleWord k a (m &&& v) then opErr s stStale
    else match tagReads (tagInit k) a 1 s with
      | (.error e, s) => opErr s e
      | (.ok l, s) =>
        let w := (BitVec.ofNat 32 (leNat l) &&& ~~~m) ||| (v &&& m)
        match tagWrite s (tagInit k) a w with
        | .ok s => opOk s l
        | .error (st, c) => (.done st [], s.onDev c))

/-! ### Group 2 and 3 -/

/-- 0x20 RAIL_STATUS. -/
def opRailStatus : OpFn := opRailReads [RL_STATUS, FL_STATUS, FL_REFNOW, FL_ISUM, RL_CAP, FB_RLAT]

/-- 0x21 RAIL_ENABLE (R459): BAD_PARAM returns RL_CAUSE of the rail named. -/
def opRailEnable : OpFn := fun k s =>
  if k.params = [] then opBad s
  else onRail k s k.params.length fun r =>
    let en := par k 1 1
    let why (s : State) : OpOut × State := opErr s stBadParam (leBytes 2 (s.dev.r RL_CAUSE r).toNat)
    if 1 < en || k.params.length ≠ 2 then why s
    else if en = 1 && staleFor k r then opErr s stStale
    else match opWrites s [(RL_CTL, r, BitVec.ofNat 32 en)] with
      | (.done st data, s) => if st = stBadParam then why s else (.done st data, s)
      | x => x

/-- 0x22 to 0x2A: registers of the rail's loop and life cycle. -/
def opRailVout : OpFn := opRailRegs [FL_REF]
def opRailRamp : OpFn := opRailRegs [FL_RAMP]
def opRailLoadline : OpFn := opRailRegs [FL_LL, FL_LL_LIM, FL_OFS_LIM]
def opRailComp : OpFn := opRailRegs [FL_S_KI, FL_S_B0, FL_S_B1, FL_S_B2, FL_S_A1, FL_S_A2, FL_S_GSH]
def opRailLimits : OpFn := opRailRegs [FL_DLIM, FL_ILIM, FL_IPRE]
def opRailStrike : OpFn := opRailRegs [FL_STRIKE, FL_RELEASE, FL_RESTORE, FL_CFG]
def opRailConfig : OpFn := opRailRegs [RL_CFG, RL_SS, RL_PG, RL_TRK, RL_PB, RL_OFF]
def opRailIlim : OpFn := opRailRegs [RL_ILIM]
def opRailCoppice : OpFn := opRailRegs [RL_COP, RL_COP_TH, RL_PF]

/-- 0x2B RAIL_SEQ: partition 0's, on any rail. -/
def opRailSeq : OpFn := fun k s =>
  needLen k s 13 (
    let r := par k 0 1
    if 16 ≤ r then opBad s
    else needPart k s 0 (opWrites s (parRegs k 1 r [RL_SEQ_ON, RL_SEQ_OFF, RL_SEQ_TMO])))

/-- 0x2C RAIL_PROTECT. -/
def opRailProtect : OpFn := opRailRegs [FB_RCFG, FB_RABS, FB_RFILT, FB_RACT, FB_RADAPT]

/-- Bits of a clear that took effect and that did not: what was latched, what is still. -/
def cleared (bits was now : Nat) : List Nat := [bits &&& was &&& (255 ^^^ now), bits &&& was &&& now]

/-- 0x2D RAIL_CLEAR: with the rights of the tag (R249). -/
def opRailClear : OpFn := fun k s =>
  needLen k s 2 (needOwner k s (par k 0 1) 16 railOwner true (
    let r := par k 0 1
    let bits := par k 1 1
    if 64 ≤ bits then opBad s
    else
      let was := (s.dev.r FB_RLAT r).toNat
      let s := s.onDev fun d => rclr d r bits ((railOwner d r).1 == k.part) (k.part == 0)
      opOk s (cleared bits was (s.dev.r FB_RLAT r).toNat)))

/-- 0x2E RAIL_PERIOD and 0x2F RAIL_STEER. -/
def opRailPeriod : OpFn := opRailRegs [PH_RPER, PH_RPER_MIN, PH_RPER_MAX, PH_RLOCK]
def opRailSteer : OpFn := opRailRegs [FL_STEER]

/-- 0x30 RAIL_CAUSE: what is read may be cleared. -/
def opRailCause : OpFn := fun k s =>
  onRail k s 2 fun r =>
    let c := par k 1 1
    if 1 < c then opBad s
    else
      let rs := [RL_CAUSE, FL_CAUSE, IG_RCAUSE]
      match wReads (rs.map fun R => (R, r)) s with
      | (none, s) => opBad s
      | (some b, s) =>
        opOk (if c = 0 then s else
          rs.foldl (fun s R => (busStore s .warden (R.addr r) 4 (s.dev.r R r).toNat).2) s) b

/-! ### Group 4 -/

/-- 0x40 PHASE_STATUS. -/
def opPhaseStatus : OpFn := fun k s =>
  onPhase k s 1 false fun n =>
    opReads s ([PH_STATUS, PH_IMEAS, PH_EQNOW, PH_ANGNOW, PH_STAGE, FB_PLAT, PH_COUNT].map fun R => (R, n))

/-- 0x41 PHASE_ROLE: R112 binds the tag as it binds a writer. -/
def opPhaseRole : OpFn := fun k s =>
  onPhase k s 5 false fun n =>
    let w := parW k 1
    let o := railOwner s.dev (valOf w PH_ROLE_RAIL)
    if valOf w PH_ROLE_ROLE = 1 && o.1 ≠ (phaseOwner s.dev n).1 then opDenied k s o
    else if valOf w PH_ROLE_ROLE = 2 && (storeOwner s.dev).1 ≠ k.part then opDenied k s (storeOwner s.dev)
    else opWrites s [(PH_ROLE, n, w)]

/-- 0x42 PHASE_CONFIG. -/
def opPhaseConfig : OpFn := opPhaseRegs [PH_CFG, PH_ANG, PH_ISCAL, PH_SHARE, PH_EQ]

/-- 0x43 PHASE_PROTECT: FB_PTH and FB_PHOC bound each other, so that the order in which both may change is the one that
keeps the bound at each write. -/
def opPhaseProtect : OpFn := fun k s =>
  onPhase k s 13 false fun n =>
    let a := (FB_PTH, n, parW k 1)
    let b := (FB_PHOC, n, parW k 5)
    let c := (FB_PFILT, n, parW k 9)
    match wWrites [a, b, c] s with
    | .ok s => opOk s
    | .error _ => opWrites s [b, a, c]

/-- 0x44 PHASE_CLEAR: latches with the rights of the tag (R249), then CLR_FAIL for the owner. -/
def opPhaseClear : OpFn := fun k s =>
  onPhase k s 2 true fun n =>
    let bits := par k 1 1
    if 16 ≤ bits then opBad s
    else
      let own := (phaseOwner s.dev n).1 == k.part
      let was (d : Dev) : Nat := b2n (phState d n == phFailed) + 2 * (d.r FB_PLAT n).toNat
      let w := was s.dev
      let s := s.onDev fun d =>
        let d := pclr d n (bits / 2) own (k.part == 0)
        if bits % 2 = 1 && own then clrFail d n else d
      opOk s (cleared bits w (was s.dev))

/-- 0x45 PHASE_AZ (R105): only an ARMED phase. -/
def opPhaseAz : OpFn := fun k s =>
  onPhase k s 1 false fun n =>
    if phState s.dev n ≠ phArmed then opErr (s.onDev fun d => d.set1 PH_CAUSE_ACC_ERR n) stBadParam
    else opOk (s.onDev fun d => azStart d n)

/-- 0x48 STAGE_DESC. -/
def opStageDesc : OpFn := fun k s =>
  onPhase k s 2 true fun n =>
    let h := par k 1 1
    if 1 < h then opBad s
    else opReads s ((List.range 16).map fun j => (PH_DESC, n * 32 + h * 16 + j))

/-- The stage access goes on (R133): transfers of up to 4 bytes; `idx` is twice the bytes done, plus 1 while one is under
way. -/
def longStage : LongFn := fun y s =>
  let k := y.pkt
  let wr := par k 1 1
  let n := par k 4 1
  if s.dev.on PH_SACC_CMD_BUSY then (.wait y.idx y.acc, s)
  else
    let at_ := y.idx / 2
    let m := min 4 (n - at_)
    let ended := y.idx % 2 = 1
    if ended && s.dev.f PH_SACC_CMD_RES ≠ 0 then opErr s stTimeout
    else
      let acc := if ended && wr = 0 then y.acc ++ leBytes m (s.dev.r PH_SACC_DATA).toNat else y.acc
      let at' := if ended then at_ + m else at_
      if at' = n then opOk s acc
      else
        let m' := min 4 (n - at')
        let s := if wr = 1 then
            (busStore s .warden (PH_SACC_DATA.addr 0) 4 (leNat ((k.params.drop (5 + at')).take m'))).2
          else s
        let cmd := withF 0 [(PH_SACC_CMD_PHASE, par k 0 1), (PH_SACC_CMD_WR, wr), (PH_SACC_CMD_ADDR, (par k 2 2 + at' : Nat)),
          (PH_SACC_CMD_LEN, m'), (PH_SACC_CMD_GO, 1)]
        let s := (busStore s .warden (PH_SACC_CMD.addr 0) 4 cmd.toNat).2
        (.wait (2 * at' + 1) acc, s)

/-- Whether bytes a to a + n - 1 of a stage may be written (R133). -/
def stageWritable (a n : Nat) : Bool := (a == 0x84 && n == 1) || (0x200 ≤ a && a + n ≤ 0x300)

/-- 0x49 STAGE_ACCESS (R133). -/
def opStageAccess : OpFn := fun k s =>
  let len := k.params.length
  let wr := par k 1 1
  let n := par k 4 1
  if len < 5 || 1 < wr || n = 0 || 64 < n || len ≠ 5 + wr * n then opBad s
  else needOwner k s (par k 0 1) 64 phaseOwner false (
    if !s.dev.on PH_STAGE_MAPPED (par k 0 1) then opErr s stAbsent_
    else if wr = 1 && !stageWritable (par k 2 2) n then opDenied k s (phaseOwner s.dev (par k 0 1))
    else longStage { pkt := k, idx := 0, acc := [] } s)

/-- What TONE_MAP waits for: the mapping command ends; `acc` lists the phases it tones. -/
def longTone : LongFn := fun y s =>
  if s.dev.on PH_MAP_CTL_BUSY then (.wait 0 y.acc, s)
  else opOk s [(y.acc.filter fun n => s.dev.on PH_STAGE_MAPPED n).length]

/-- 0x4A TONE_MAP (R714). -/
def opToneMap : OpFn := fun k s =>
  needLen k s 1 (
    let n := par k 0 1
    if 64 ≤ n && n ≠ 255 then opBad s
    else needPart k s 0 (
      if s.dev.on PH_MAP_CTL_BUSY then opErr (s.onDev fun d => d.set1 PH_SB_CAUSE_ACC_ERR 0) stBadParam
      else
        let l := if n = 255 then (List.range 64).filter fun j => (unmappedIdle s.dev).testBit j else [n]
        let w := if n = 255 then onlyF PH_MAP_CTL_ALL 1 else withF 0 [(PH_MAP_CTL_PHASE, n), (PH_MAP_CTL_GO, 1)]
        let s := (busStore s .warden (PH_MAP_CTL.addr 0) 4 w.toNat).2
        if n ≠ 255 && s.dev.f PH_MAP_CTL_RESULT = 4 then opBad s
        else longTone { pkt := k, idx := 0, acc := l } s))

/-- What ROLL_CALL waits for. -/
def longRoll : LongFn := fun y s =>
  let m := par y.pkt 0 1
  if s.dev.on PH_SB_STATUS_ROLL m then (.wait 0 [], s) else opOk s [s.dev.f PH_SB_STATUS_NTGT m]

/-- 0x4B ROLL_CALL (R120). -/
def opRollCall : OpFn := fun k s =>
  needLen k s 1 (
    let m := par k 0 1
    if 4 ≤ m then opBad s
    else needPart k s 0 (
      longRoll { pkt := k, idx := 0, acc := [] } (busStore s .warden (PH_SB_ROLL.addr m) 4 1).2))

end Sys2Proof.Machine
end

