-- ==== Sys2Proof/Machine/OpLink.lean ====
section
/-! DEFINITION. The opcodes of groups 6 to 9: store, lanes, intents, telemetry, time, meters and life records, and the
readings PMBus shares with them (spec/12, R448, R460; spec/10, R384, R388, R389; spec/15, R544, R551, R553, R554). -/

namespace Sys2Proof.Machine

/-! ### Group 6 -/

/-- An opcode without parameters, and one that writes registers without copies, for the partition that may. -/
def opDevRegs (owner : Dev → Nat) (l : List Reg) : OpFn := fun k s =>
  needLen k s (4 * l.length) (needPart k s (owner s.dev) (opWrites s (parRegs k 0 0 l)))

/-- The partition the charter gives the store. -/
def storePartition (d : Dev) : Nat := (storeOwner d).1

/-- 0x60 STORE_STATUS. -/
def opStoreStatus : OpFn := fun k s =>
  needLen k s 0 (
    if k.part = storePartition s.dev || k.part = 0 then
      opReads s ([ST_STATUS, ST_IIN, ST_VMEAS, ST_IST, ST_ENERGY, ST_RESV, ST_BUDGET, ST_DSTAT].map fun R => (R, 0))
    else opDenied k s (storeOwner s.dev))

/-- 0x61 to 0x63: the store owner's, who owns the rail whose sense pair it names (R399, R424). -/
def opStoreConfig : OpFn := fun k s =>
  needLen k s 44 (needPart k s (storePartition s.dev) (
    let o := railOwner s.dev (valOf (parW k 0) ST_CFG_SNS_RAIL)
    if o.1 ≠ k.part then opDenied k s o
    else opWrites s (parRegs k 0 0
      [ST_CFG, ST_VLIM, ST_VLIM2, ST_CAPY, ST_ECAP, ST_ILIM, ST_TERM, ST_LOOP, ST_PER, ST_HOLD, ST_REINS])))
def opStoreEnable : OpFn := opDevRegs storePartition [ST_CTL]
def opStoreFloor : OpFn := opDevRegs storePartition [ST_FLOOR]

/-- 0x64 to 0x66: partition 0's. -/
def opCeiling : OpFn := opDevRegs (fun _ => 0) [ST_CEIL, ST_CMARG, ST_ALLOW]
def opEscalation : OpFn := opDevRegs (fun _ => 0) [ST_ESC, ST_TMAP, ST_PRIO0, ST_PRIO1]
def opCeilSense : OpFn := opDevRegs (fun _ => 0) [ST_SNS, ST_SHUNT]

/-! ### Group 7 -/

/-- 0x70 LANE_STATUS and 0x71 LANE_ENABLE. -/
def opLaneStatus : OpFn := opLaneReads [LN_STATUS, LN_EQ, LN_LAT, LN_ERRCNT, LN_DOWNCNT]
def opLaneEnable : OpFn := opLaneRegs [LN_CTL]

/-- 0x72 LANE_CONFIG: R316 binds the tag as it binds a writer. -/
def opLaneConfig : OpFn := fun k s =>
  onLane k s 13 fun l =>
    match (List.range 16).find? fun r => (parW k 5).getLsbD r && (railOwner s.dev r).1 != (laneOwner s.dev l).1 with
    | some r => opDenied k s (railOwner s.dev r)
    | none => opWrites s (parRegs k 1 l [LN_CFG, LN_RAILS, LN_RETRY])

/-- 0x73 PARTNER_ID. -/
def opPartnerId : OpFn := fun k s =>
  onLane k s 1 fun l =>
    if !s.dev.on LN_STATUS_UP l then opErr s stAbsent_
    else opReads s ((List.range 12).map fun j => (LN_PID, l * 12 + j))

/-- 0x74 INTENT_CONFIG: R325 binds the tag as it binds a writer. -/
def opIntentConfig : OpFn := fun k s =>
  onRail k s 25 fun r =>
    let w := parW k 17
    match (List.range 4).find? fun j => w.getLsbD (8 * j + 4) && (laneOwner s.dev (bitsOf w (8 * j) 4)).1 != (railOwner s.dev r).1 with
    | some j => opDenied k s (laneOwner s.dev (bitsOf w (8 * j) 4))
    | none => opWrites s (parRegs k 1 r [IG_RCFG, IG_FFK, IG_WIN, IG_COUT, IG_SLOTS, IG_TLIM])

/-- 0x75 INTENT_TRUST: bit s of the clears is NEW of slot s (R326). -/
def opIntentTrust : OpFn := fun k s =>
  onRail k s 6 fun r =>
    let c := par k 5 1
    if 16 ≤ c then opBad s
    else
      let w := (List.range 4).foldl (fun w j => if c.testBit j then putBits w (8 * j + 5) 1 1 else w) (present s.dev IG_SLOTS r)
      opWrites s [(IG_TRUST, r, parW k 1), (IG_SLOTS, r, w)]

/-- 0x76 INTENT_STATUS. -/
def opIntentStatus : OpFn := fun k s =>
  onRail k s 1 fun r =>
    opReads s ([(IG_OUT, r), (IG_LOAD, r), (IG_TNOW, r)] ++ (List.range 4).map fun j => (IG_SCNT, r * 4 + j))

/-- 0x77 COUPLE_CONFIG: the lanes of its links are the tag's (R399, R424). -/
def opCoupleConfig : OpFn := fun k s =>
  onRail k s 17 fun r =>
    let w := parW k 5
    match (List.range 3).find? fun p =>
        valOf w (IG_CPL_LNK_VALID p) != 0 && (laneOwner s.dev (valOf w (IG_CPL_LNK_LANE p))).1 != k.part with
    | some p => opDenied k s (laneOwner s.dev (valOf w (IG_CPL_LNK_LANE p)))
    | none => opWrites s (parRegs k 1 r [IG_CPL, IG_CPL_LNK, IG_CPL_GAIN, IG_CPL_KI])

/-- Whether a coupling command is taken: a carry-over by a member, or by a master that may leave; a rejoin by a device outside
the set (R363). -/
def coupleTakes (d : Dev) (r c : Nat) : Bool :=
  let role := cplRole d r
  if c = 1 then role == cplMember || (role == cplMaster && carryOk d r 3)
  else d.on IG_CPL_EN r && role != cplMaster && role != cplMember

/-- 0x78 COUPLE_CMD (R363); a command the rail refuses is BAD_PARAM (R432). -/
def opCoupleCmd : OpFn := fun k s =>
  onRail k s 2 fun r =>
    let c := par k 1 1
    if c ≠ 1 && c ≠ 2 then opBad s
    else if !coupleTakes s.dev r c then opBad (busStore s .warden (IG_CPLCMD.addr r) 4 c).2
    else
      let s := (busStore s .warden (IG_CPLCMD.addr r) 4 c).2
      opReads s [(IG_CPLSTAT, r)]

/-- 0x79 COUPLE_STATUS. -/
def opCoupleStatus : OpFn := opRailReads [IG_CPLSTAT, IG_CPLSTAT2, IG_CPLTOT]

/-! ### Group 8 -/

/-- 0x80 TELE_LAST. -/
def opTeleLast : OpFn := fun k s =>
  onConv k s 3 fun c =>
    let a := par k 1 1
    let n := par k 2 1
    if n = 0 || 16 < a + n then opBad s
    else opReads s ((List.range n).flatMap fun j => [(TC_LAST, c * 16 + a + j), (TC_LASTT, c * 16 + a + j)])

/-- The owner of what a converter channel samples (R369, R370). -/
def chanOwnerOf (d : Dev) (ch : Nat) : Nat × Bool :=
  if ch < 16 then railOwner d ch else if 64 ≤ ch then phaseOwner d (ch - 64) else storeOwner d

/-- 0x81 TELE_CONFIG: as many steps as NSTEP gives. The ring and the channels it names are the tag's (R399, R424). -/
def opTeleConfig : OpFn := fun k s =>
  let n := valOf (parW k 1) TC_CFG_NSTEP + 1
  onConv k s (13 + 4 * n) fun c =>
    let ring := ringOwner s.dev (valOf (parW k 9) TC_RING_RING)
    let chans := (List.range n).map fun j => tcCh (parW k (13 + 4 * j)).toNat
    if ring.1 ≠ k.part then opDenied k s ring
    else match chans.find? fun ch => !chanAllowed s.dev k.part ch && !(23 ≤ ch && ch < 32) with
    | some ch => opDenied k s (chanOwnerOf s.dev ch)
    | none => opWrites s (parRegs k 1 c [TC_CFG, TC_PER, TC_RING]
      ++ (List.range n).map fun j => (TC_STEP, c * 16 + j, parW k (13 + 4 * j)))

/-- 0x82 TELE_CTL and 0x83 TELE_OWN. -/
def opTeleCtl : OpFn := fun k s => onConv k s 5 fun c => opWrites s [(TC_CTL, c, parW k 1)]
def opTeleOwn : OpFn := opDevRegs (fun _ => 0) [TC_OWN]

/-- The output reading of rail r as a numerator over 2^4 µV (R389, R448): the code of the step in CP_VOUTMAP times 50 µV over
its gain, times VDIV; 0 while EN is 0. -/
def voutRead (d : Dev) (r : Nat) : Int × Nat :=
  if d.on CP_VOUTMAP_EN r then
    let w := d.r TC_LAST (d.f CP_VOUTMAP_CONV r * 16 + d.f CP_VOUTMAP_STEP r)
    (sext (bitsOf w 0 16) 16 * 50 * d.f IG_COUT_VDIV r, 16 * 2 ^ bitsOf w 24 3)
  else (0, 1)

/-- The hottest stage of the rail's phases, in 1/16 °C; of no phase at all the spec states none (notes/assumptions/2.md). -/
def hottest (d : Dev) (r : Nat) : Int × Dev :=
  match domPhases d r with
  | [] => let (v, d) := d.free; (sext v 13, d)
  | n :: t => (t.foldl (fun m n => max m (d.fi PH_STAGE_TEMP n)) (d.fi PH_STAGE_TEMP n), d)

/-- The bytes of a signed number. -/
def leInt (n : Nat) (x : Int) : List Nat := leBytes n (x % 2 ^ (8 * n)).toNat

/-- The time base as a register read gives it, 8 bytes. -/
def timeBytes (s : State) : Option (List Nat) × State := wReads [(TM_TB_LO, 0), (TM_TB_HI, 0)] s

/-- 0x84 RAIL_READINGS. -/
def opRailReadings : OpFn := fun k s =>
  onRail k s 1 fun r =>
    let d := s.dev
    let (num, den) := voutRead d r
    let uv := max 0 (num / den)
    let ma := d.fi FL_ISUM_ISUM r * 250
    let mw := max 0 num * ma / (den * 1000000)
    let (t, d) := hottest d r
    match timeBytes { s with dev := d } with
    | (some tb, s) => opOk s (leInt 4 uv ++ leInt 4 ma ++ leInt 4 mw ++ leInt 2 t ++ tb)
    | (none, s) => opBad s

/-! ### Group 9 -/

/-- 0x90 TIME_GET. -/
def opTimeGet : OpFn := fun k s =>
  needLen k s 0 (
    match wReads [(TM_TB_LO, 0), (TM_TB_HI, 0), (TM_RTC_LO, 0), (TM_RTC_HI, 0)] s with
    | (some b, s) => opOk s (b.take 8 ++ (b.drop 10).take 6 ++ (b.drop 8).take 2)
    | (none, s) => opBad s)

/-- What RTC_SET waits for: the set has been applied (R544). -/
def longRtc : LongFn := fun _ s => if s.dev.on TM_RTC_CTL_SETBUSY then (.wait 0 [], s) else opOk s

/-- 0x91 RTC_SET (R544). -/
def opRtcSet : OpFn := fun k s =>
  needLen k s 8 (needPart k s 0 (
    let sec := par k 0 6
    let sub := par k 6 2
    if s.dev.on TM_RTC_CTL_SETBUSY || rtcLimit < (sec * 65536 + sub) / 2 * 2 then
      opErr (s.onDev fun d => d.set1 TM_ACAUSE_ACC_ERR) stBadParam
    else
      let put (s : State) (R : Reg) (v : Nat) : State := (busStore s .warden (R.addr 0) 4 v).2
      let s := put s TM_SET_LO (sub + 65536 * (sec % 65536))
      let s := put s TM_SET_HI (sec / 65536)
      let s := put s TM_RTC_CTL (putBits (present s.dev TM_RTC_CTL 0) TM_RTC_CTL_SET.lo 1 1).toNat
      (.wait 0 [], s)))

/-- Rights to the meters of rail r: a METERS bit or its owner. -/
def onMeter (k : Packet) (s : State) (n : Nat) (g : Nat → OpOut × State) : OpOut × State :=
  needLen k s n (
    let r := par k 0 1
    if 16 ≤ r then opBad s
    else if (metersOf s.dev k.part).testBit r || (railOwner s.dev r).1 = k.part then g r
    else opDenied k s (railOwner s.dev r))

/-- 0x92 METER_READ. -/
def opMeterRead : OpFn := fun k s =>
  onMeter k s 1 fun r =>
    match wReads [(EM_E_LO, r), (EM_E_HI, r), (EM_SEQ, 0), (TM_TB_LO, 0), (TM_TB_HI, 0)] s with
    | (some b, s) => opOk s (b.take 8 ++ leBytes 2 (emEpoch s.dev) ++ (b.drop 8).take 12)
    | (none, s) => opBad s

/-- A record that waits in AON has no LSEQ yet: its bytes with a free one (notes/assumptions/2.md). -/
def queuedRec (s : State) (r : LogRec) : List Nat × State :=
  let (v, d) := s.dev.free
  (recBytes r (v % 2 ^ 32), { s with dev := d })

/-- 0x93 BILLING_READ (R558, R560): from the log, or from the queue that the next flush writes. -/
def opBillingRead : OpFn := fun k s =>
  onMeter k s 7 fun r =>
    let is (b : List Nat) : Bool := recAt b 0 1 == 5 && recAt b 24 1 == r && (b.drop 26).take 6 == k.params.drop 1
    match newest (logAll s) is with
    | some b => opOk s b
    | none =>
      match (s.dev.logq.filter fun x => x.kind == 5).find? fun x => is (recBytes x 0) with
      | some x => let (b, s) := queuedRec s x; opOk s b
      | none => opErr s stAbsent_

/-- 0x94 LIFE_STAGE: the slot of the mapped stage in the layout of R131. -/
def opLifeStage : OpFn := fun k s =>
  onPhase k s 1 true fun n =>
    let d := s.dev
    if !d.on PH_STAGE_MAPPED n then opErr s stAbsent_
    else
      opOk s (lifeBytes d n (d.hn .lSeq n))

/-- 0x95 LIFE_DEVICE: the device counters in the order of R550. -/
def opLifeDevice : OpFn := fun k s =>
  needLen k s 0 (needPart k s 0 (
    opReads s [(LF_POH, 0), (LF_ERASE, 0), (LF_ERASE, 1), (LF_ERASE, 2), (LF_FB0, 0), (LF_FB1, 0)]))

/-- The record kinds of LOG_READ's kinds (R555). -/
def logKinds (c : Nat) : List Nat :=
  match c with
  | 0 => [0, 1] | 1 => [3] | 2 => [4] | _ => [2]

/-- 0x96 LOG_READ: records of a kind counted from the oldest in the log. -/
def opLogRead : OpFn := fun k s =>
  needLen k s 5 (
    let c := par k 0 1
    if 3 < c then opBad s
    else needPart k s 0 (
      let l := sortBy (fun a b => recAt a 4 4 ≤ recAt b 4 4)
        ((logAll s).filter fun b => (logKinds c).contains (recAt b 0 1))
      match l[par k 1 4]? with
      | some b => opOk s b
      | none => opErr s stAbsent_))

/-- What LIFE_FLUSH waits for: the write has crossed into AON, and the flush has ended. -/
def longFlush : LongFn := fun _ s =>
  if s.dev.on LF_STATUS_BUSY || (s.dev.aonQ.any fun x => x.addr == LF_CTL.addr 0) then (.wait 0 [], s)
  else if s.dev.f LF_STATUS_LAST = 0 then opOk s else opErr s stTimeout

/-- 0x97 LIFE_FLUSH (R551). -/
def opLifeFlush : OpFn := fun k s =>
  needLen k s 0 (needPart k s 0 (.wait 0 [], (busStore s .warden (LF_CTL.addr 0) 4 1).2))

end Sys2Proof.Machine
end

