-- ==== Sys2Proof/Machine/OpFirm.lean ====
section
/-! DEFINITION. The opcodes of group A: firmware sessions on the idle twin and on a flash window (spec/12, R460; spec/11,
R421, R422; spec/19, R656 to R671). -/

namespace Sys2Proof.Machine

/-! ### Commands of the flash controller -/

/-- The warden stores a word in a register. -/
def wStore (s : State) (R : Reg) (i v : Nat) : State := (busStore s .warden (R.addr i) 4 v).2

/-- The warden issues a flash command at an address of a space. -/
def fcIssue (s : State) (space a op n : Nat) : State :=
  let s := wStore s FC_ADDR 0 (withF 0 [(FC_ADDR_ADDR, a), (FC_ADDR_SPACE, space)]).toNat
  wStore s FC_CMD 0 (withF 0 [(FC_CMD_OP, op), (FC_CMD_NLINES, n), (FC_CMD_GO, 1)]).toNat

/-- Whether the flash controller is free for the warden. -/
def fcFree (d : Dev) : Bool := !d.on FC_CMD_BUSY

/-- A step of an opcode made of flash commands: `idx` is twice the units done, plus 1 while one is under way; `issue`
starts the unit with a number, `total` is how many there are, and `ending` answers. A command that the controller refuses
or that fails ends the opcode. -/
def fcSteps (y : LongOp) (s : State) (total : Nat) (issue : Nat → State → State) (ending : State → OpOut × State) :
    OpOut × State :=
  if !domOn s.dev 13 then opBad (s.onDev fun d => d.set1 PD_CAUSE_OFF_ACC)
  else if !fcFree s.dev then (.wait y.idx y.acc, s)
  else if y.idx % 2 = 1 && s.dev.f FC_CMD_RES ≠ 0 then opBad s
  else
    let n := y.idx / 2 + y.idx % 2
    if n = total then ending s
    else
      let s := issue n s
      if s.dev.f FC_CMD_RES ≠ 0 then opBad s else (.wait (2 * n + 1) y.acc, s)

/-! ### Sessions -/

/-- The flash window of a partition: its first byte and its length (R412). -/
def flashWin (d : Dev) (p : Nat) : Nat × Nat := (partByte d p 0x12 * 0x10000, partByte d p 0x13 * 0x10000)

/-- The space and the address of offset `o` of a target for a tag: the idle twin, or the tag's flash window. -/
def fwAddr (d : Dev) (tgt part o : Nat) : Nat × Nat := if tgt = 0 then (1, o) else (0, (flashWin d part).1 + o)

/-- How long a target is. -/
def fwSize (d : Dev) (tgt part : Nat) : Nat := if tgt = 0 then 0x40000 else (flashWin d part).2

/-- The opcode of an open session, whose number is parameter byte 0, for the partition that opened it. -/
def inSession (k : Packet) (s : State) (g : OpOut × State) : OpOut × State :=
  if !s.dev.hon .fwSess || s.dev.hn .fwSess ≠ par k 0 1 + 1 then opBad s
  else if s.dev.hn .fwPart ≠ k.part then opDenied k s (s.dev.hn .fwPart, false)
  else g

/-- 0xA0 FW_INFO. How the session state is coded the spec leaves open, and a twin that cannot be read has no version
(notes/assumptions/2.md). -/
def opFwInfo : OpFn := fun k s =>
  needLen k s 0 (needPart k s 0 (
    let (v, d) := s.dev.free
    let (st, d) := d.free
    let ver := match twinBytes s (1 - s.dev.f FC_SWAP_ACTIVE) 0 12 with
      | some h => if h.all (fun b => b == 0xFF) then 0 else hdVersion h
      | none => v
    opOk { s with dev := d } (leBytes 4 (d.r CH_BOOT).toNat ++ leBytes 4 ver ++ [d.f FC_SWAP_ARMED, st % 256])))

/-- FW_BEGIN goes on: the sectors of the span are erased in rising order, then the session is open. Its number is free
(notes/assumptions/2.md). -/
def longBegin : LongFn := fun y s =>
  let k := y.pkt
  let tgt := par k 0 1
  let o := par k 1 4
  let len := par k 5 4
  let sect := (fwAddr s.dev tgt k.part o).2 / 0x10000
  let total := ((fwAddr s.dev tgt k.part (o + len)).2 + 0xFFFF) / 0x10000 - sect
  fcSteps y s total (fun n s => fcIssue s (1 - tgt) ((sect + n) * 0x10000) 2 0) fun s =>
    let (v, d) := s.dev.free
    let d := ((d.setH .fwSess 0 (v % 256 + 1 : Nat)).setH .fwTgt 0 tgt).setH .fwOff 0 o
    let d := ((d.setH .fwLen 0 len).setH .fwPart 0 k.part).setH .fwOk 0 0
    opOk { s with dev := d } [v % 256]

/-- 0xA1 FW_BEGIN. A session of another partition holds the slot; one of the same partition ends. -/
def opFwBegin : OpFn := fun k s =>
  needLen k s 9 (
    let tgt := par k 0 1
    let o := par k 1 4
    let len := par k 5 4
    if 1 < tgt then opBad s
    else if (tgt = 0 && k.part ≠ 0) || (tgt = 1 && fwSize s.dev 1 k.part = 0) then opDenied k s (0, false)
    else if len = 0 || fwSize s.dev tgt k.part < o + len then opBad s
    else if s.dev.hon .fwSess && s.dev.hn .fwPart ≠ k.part then opErr s stBusy
    else longBegin { pkt := k, idx := 0, acc := [] } (s.onDev fun d => d.setH .fwSess 0 0))

/-- The lines of FW_WRITE: whole lines of the data, the last one filled with 0xFF, none across a page (R656): each as its
offset in the data and its count of lines. -/
def writeUnits (a : Nat) : Nat → Nat → List (Nat × Nat)
  | 0, _ => []
  | _, 0 => []
  | fuel + 1, n + 1 =>
    let m := min (n + 1) (16 - a / 16 % 16)
    (a, m) :: writeUnits (a + 16 * m) fuel (n + 1 - m)

/-- FW_WRITE goes on: page by page. -/
def longWrite : LongFn := fun y s =>
  let k := y.pkt
  let data := k.params.drop 5
  let (space, a) := fwAddr s.dev (s.dev.hn .fwTgt) k.part (par k 1 4)
  let units := writeUnits a 300 ((data.length + 15) / 16)
  fcSteps y s units.length (fun n s =>
    match units[n]? with
    | none => s
    | some (b, m) =>
      let bytes := (data.drop (b - a)).take (16 * m)
      let bytes := bytes ++ List.replicate (16 * m - bytes.length) 0xFF
      let s := (List.range (4 * m)).foldl (fun s j => wStore s FC_BUF (b / 16 % 16 * 4 + j) (leNat ((bytes.drop (4 * j)).take 4))) s
      fcIssue s space b 1 (m - 1)) fun s => opOk (s.onDev fun d => d.setH .fwOk 0 0)

/-- 0xA2 FW_WRITE: the offset counts in the target as FW_BEGIN's does, and names a line. -/
def opFwWrite : OpFn := fun k s =>
  let n := k.params.length - 5
  let o := par k 1 4
  if k.params.length < 6 then opBad s
  else inSession k s (
    if o % 16 ≠ 0 || o < s.dev.hn .fwOff || s.dev.hn .fwOff + s.dev.hn .fwLen < o + n then opBad s
    else longWrite { pkt := k, idx := 0, acc := [] } s)

/-- The bytes of an image at a bus address, read by the warden. -/
def wBytes (s : State) (a : Nat) : Nat → Option (List Nat) × State
  | 0 => (some [], s)
  | n + 1 =>
    match busLoad s .warden a 4 with
    | (.ok v, s) => let (l, s) := wBytes s (a + 4) n; (l.map fun l => leBytes 4 v ++ l, s)
    | (_, s) => (none, s)

/-- The status of an image that failed: of another version, or refused. -/
def imageStatus (h : List Nat) : Nat :=
  if h.take 4 = [0x49, 0x5A, 0x49, 0x4D] && (h[4]?).getD 0 ≠ 1 then stVersion else stBadParam

/-- The CH verification engine runs for a packet on the image at a flash address (R422): `idx` 0 while it is busy for
another, 1 while it runs for this one; `ending` takes RES and the header. -/
def engineStep (y : LongOp) (s : State) (a kind part : Nat) (ending : Nat → List Nat → State → OpOut × State) : OpOut × State :=
  if s.dev.on CH_VCTL_BUSY then (.wait y.idx y.acc, s)
  else if y.idx = 0 then
    let s := wStore s CH_VSRC 0 a
    let s := wStore s CH_VCTL 0 (withF 0 [(CH_VCTL_KIND, kind), (CH_VCTL_PART, part), (CH_VCTL_GO, 1)]).toNat
    (.wait 1 y.acc, s)
  else
    let res := s.dev.f CH_VCTL_RES
    let (h, s) := wBytes s a 3
    ending res (h.getD []) s

/-- The reply of FW_VERIFY. -/
def verifyReply (kind res : Nat) (h : List Nat) (s : State) : OpOut × State :=
  if res ≠ 0 && imageStatus h ≠ stBadParam then opErr s (imageStatus h)
  else
    let s := if res = 0 && kind = 0 then s.onDev fun d => d.setH .fwOk 0 1 else s
    opOk s ([res] ++ leBytes 4 (hdVersion h))

/-- FW_VERIFY goes on: the image begins where the session's span does. The idle twin is not on the bus and the warden
reads it through the flash controller. -/
def longVerify : LongFn := fun y s =>
  let k := y.pkt
  let kind := par k 1 1
  let part := par k 2 1
  let o := s.dev.hn .fwOff
  if s.dev.hn .fwTgt = 0 then
    let t := 1 - s.dev.f FC_SWAP_ACTIVE
    let h := (twinBytes s t o 192).getD []
    verifyReply kind (imageRes s.dev h (twinBytes s t (o + 0xC0) (hdLength h)) kind part) h s
  else engineStep y s (fwAddr s.dev 1 k.part o).2 kind part (verifyReply kind)

/-- 0xA3 FW_VERIFY. -/
def opFwVerify : OpFn := fun k s =>
  needLen k s 3 (if 2 < par k 1 1 || 7 < par k 2 1 then opBad s
    else inSession k s (longVerify { pkt := k, idx := 0, acc := [] } s))

/-- FW_SWAP goes on: the swap-cell line that names the idle twin (R669). -/
def longSwap : LongFn := fun y s =>
  fcSteps y s 1 (fun _ s => fcIssue s 0 (1 - s.dev.f FC_SWAP_ACTIVE) 6 0) opOk

/-- 0xA4 FW_SWAP. -/
def opFwSwap : OpFn := fun k s =>
  needLen k s 1 (needPart k s 0 (inSession k s (
    if s.dev.hon .fwOk then longSwap { pkt := k, idx := 0, acc := [] } s else opBad s)))

/-- 0xA5 FW_ABORT. -/
def opFwAbort : OpFn := fun k s =>
  needLen k s 1 (inSession k s (opOk (s.onDev fun d => d.setH .fwSess 0 0)))

end Sys2Proof.Machine
end

