-- ==== Sys2Proof/Machine/OpPart.lean ====
section
/-! DEFINITION. The opcodes of group B: partitions, cores, images, groves and fuses (spec/12, R460; spec/04, R145, R162,
R180; spec/11, R394, R398, R408, R416 to R422; spec/17, R612, R613). -/

namespace Sys2Proof.Machine

/-- The bits below n whose resource the partition owns. -/
def ownedBits (p n : Nat) (owner : Nat → Nat × Bool) : Nat := boughBits n fun i => (owner i).1 == p

/-- 0xB0 PART_INFO. -/
def opPartInfo : OpFn := fun k s =>
  let d := s.dev
  let p := k.part
  needLen k s 0 (opOk s (((List.range 20).map fun j => partByte d p j)
    ++ leBytes 2 (ownedBits p 16 (railOwner d)) ++ leBytes 8 (ownedBits p 64 (phaseOwner d))
    ++ leBytes 2 (ownedBits p 12 (laneOwner d)) ++ [b2n ((storeOwner d).1 == p)]))

/-- 0xB1 REFLOG_READ (R407, R408). -/
def opReflogRead : OpFn := fun k s =>
  needLen k s 1 (
    let n := par k 0 1
    if n = 0 || 14 < n then opBad s
    else needPart k s 0 (
      let d := s.dev
      let t := d.f CH_REF_TAIL_TAIL
      let m := min n ((d.f CH_REF_HEAD_HEAD + 32 - t) % 32)
      let b := (List.range (4 * m)).flatMap fun j => leBytes 4 (d.r CH_REFLOG ((t % 16 * 4 + j) % 64)).toNat
      opOk (s.onDev fun d => refTail d ((t + m) % 32)) b))

/-- 0xB2 CORE_ASSIGN (R394, R398): only a halted core, only a partition that exists. -/
def opCoreAssign : OpFn := fun k s =>
  needLen k s 2 (
    let c := par k 0 1
    let p := par k 1 1
    if 4 ≤ c || npart s.dev ≤ p then opBad s
    else needPart k s 0 (
      if s.dev.on CH_CORETAG_HALTED c then opOk (s.onDev fun d => retag d c p)
      else opErr (s.onDev fun d => d.set1 CH_CAUSE_ACC_ERR) stBadParam))

/-- 0xB3 CORE_CTL (R612, R613). -/
def opCoreCtl : OpFn := fun k s =>
  needLen k s 6 (
    let c := par k 0 1
    let op := par k 1 1
    if 4 ≤ c || 1 < op then opBad s
    else if k.part ≠ 0 && s.dev.f CH_CORETAG_PART c ≠ k.part then opDenied k s (s.dev.f CH_CORETAG_PART c, false)
    else if op = 0 then
      opOk (if s.dev.on CH_CORETAG_HALTED c then s else (drainAll s c).onDev fun d => haltCore d c)
    else if !s.dev.on CH_CORETAG_HALTED c || !domOn s.dev (1 + c) || par k 2 4 % 4 ≠ 0 then opBad s
    else opOk (s.onDev fun d => coreRelease d c (parW k 2)))

/-- Words stored by the warden from an address on; false where one cannot be. -/
def wPuts (a : Nat) : List Nat → State → Bool × State
  | [], s => (true, s)
  | w :: t, s =>
    match busStore s .warden a 4 w with
    | (.ok _, s) => wPuts (a + 4) t s
    | (_, s) => (false, s)

/-- The words of a list of bytes. -/
def wordsOf (b : List Nat) : List Nat := (List.range ((b.length + 3) / 4)).map fun j => leNat ((b.drop (4 * j)).take 4)

/-- Whether n bytes at a lie in a flash window, or in an SRAM or AON window, of a partition. -/
def inFlw (d : Dev) (p a n : Nat) : Bool := inPartMem d p a n && a + n ≤ 0x800000
def inRamWin (d : Dev) (p a n : Nat) : Bool := inPartMem d p a n && 0x800000 ≤ a

/-- A verified image's body is stored at an address, and its version answered. -/
def placeImage (s : State) (src dst : Nat) (h : List Nat) (after : State → State) : OpOut × State :=
  match wBytes s (src + 0xC0) ((leNat ((h.drop 12).take 4) + 3) / 4) with
  | (none, s) => opBad s
  | (some b, s) =>
    match wPuts dst (wordsOf b) s with
    | (true, s) => opOk (after s) (leBytes 4 (hdVersion h))
    | (false, s) => opBad s

/-- IMAGE_LOAD goes on: an image of KIND 1 for the tag, whose body fits the windows. -/
def longImage : LongFn := fun y s =>
  let k := y.pkt
  let src := par k 0 4
  let dst := par k 4 4
  engineStep y s src 1 k.part fun res _ s =>
    let (h, s) := wBytes s src 4
    let h := h.getD []
    let len := hdLength h
    if res ≠ 0 then opErr s (imageStatus h) [res]
    else if !inFlw s.dev k.part src (0xC0 + len) || !inRamWin s.dev k.part dst (max 1 len) then opDenied k s (0, false)
    else placeImage s src dst h id

/-- 0xB4 IMAGE_LOAD. -/
def opImageLoad : OpFn := fun k s =>
  needLen k s 8 (
    let src := par k 0 4
    let dst := par k 4 4
    if src % 4 ≠ 0 || dst % 4 ≠ 0 then opBad s
    else if !inFlw s.dev k.part src 0xC0 then opDenied k s (memOwnerOf s.dev src)
    else if !inRamWin s.dev k.part dst 4 then opDenied k s (memOwnerOf s.dev dst)
    else longImage { pkt := k, idx := 0, acc := [] } s)

/-! ### Groves -/

/-- 0xB5 GROVE_LEAD: the tag owns every rail that changes. -/
def opGroveLead : OpFn := fun k s =>
  needLen k s 3 (
    let g := par k 0 1
    let m := par k 1 2
    if 16 ≤ g then opBad s
    else match (List.range 16).find? fun r => m.testBit r != (s.dev.f GV_LEAD_RAILS g).testBit r && (railOwner s.dev r).1 != k.part with
      | some r => opDenied k s (railOwner s.dev r)
      | none => opWrites s [(GV_LEAD, g, BitVec.ofNat 32 m)])

/-- 0xB6 GROVE_BANKS. -/
def opGroveBanks : OpFn := fun k s =>
  needLen k s 6 (
    let g := par k 0 1
    let j := par k 1 1
    if 16 ≤ g || 4 ≤ j then opBad s
    else needPart k s 0 (opWrites s [(GV_BANKOWN, g * 4 + j, parW k 2)]))

/-- Whether code regions (CBASE, CLEN) of two tasks meet. -/
def codeMeets (a b : Nat × Nat) : Bool := a.1 ≤ b.1 + b.2 && b.1 ≤ a.1 + a.2
def codeOf (d : Dev) (g t : Nat) : Nat × Nat := (d.f GV_TCODE_CBASE (tk g t), d.f GV_TCODE_CLEN (tk g t))

/-- Whether a code region and a data region stand clear of the enabled tasks of other owners, and the code region of
every enabled task (R145, R180). -/
def regionsFree (d : Dev) (g t owner : Nat) (code : Nat × Nat) (data : Word) : Bool :=
  let b := valOf data GV_TDATA_DBASE
  let n := valOf data GV_TDATA_DBANKS
  (List.range 64).all fun u => u == t || !d.on GV_TCFG_EN (tk g u) ||
    (!codeMeets code (codeOf d g u)
      && (d.f GV_TCFG_OWNER (tk g u) == owner
          || (List.range 32).all fun j => !(b ≤ j && j ≤ b + n && inRegion d g u j)))

/-- The instruction memory of a code region: its address and its length in bytes. -/
def codeAddr (g : Nat) (code : Nat × Nat) : Nat := 0x20000000 + g * 0x40000 + code.1 * 1024
def codeBytes (code : Nat × Nat) : Nat := (code.2 + 1) * 1024

/-- The rights to install a task: its owner is the tag, which owns every rail named, and the descriptor is not enabled. -/
def mayInstall (k : Packet) (s : State) (g t mask : Nat) (cfg : Word) (go : OpOut × State) : OpOut × State :=
  if 16 ≤ g || 64 ≤ t || valOf cfg GV_TCFG_EN ≠ 0 then opBad s
  else if valOf cfg GV_TCFG_OWNER ≠ k.part then opDenied k s (valOf cfg GV_TCFG_OWNER, false)
  else match (List.range 16).find? fun r => mask.testBit r && (railOwner s.dev r).1 != k.part with
    | some r => opDenied k s (railOwner s.dev r)
    | none => go

/-- The writes of a descriptor, EN still 0. -/
def descWrites (g t : Nat) (cfg code data : Word) : List (Reg × Nat × Word) :=
  [(GV_TCODE, tk g t, code), (GV_TDATA, tk g t, data), (GV_TCFG, tk g t, cfg)]

/-- GROVE_INSTALL goes on: an image of KIND 2 for the owner, whose body fits the code region. -/
def longInstall : LongFn := fun y s =>
  let k := y.pkt
  let g := par k 0 1
  let t := par k 1 1
  let src := par k 2 4
  let (cfg, code, data) := (parW k 8, parW k 12, parW k 16)
  let reg := (valOf code GV_TCODE_CBASE, valOf code GV_TCODE_CLEN)
  engineStep y s src 2 k.part fun res _ s =>
    let (h, s) := wBytes s src 4
    let h := h.getD []
    let len := hdLength h
    if res ≠ 0 then opErr s (imageStatus h)
    else if codeBytes reg < len || 63 < reg.1 + reg.2 || !regionsFree s.dev g t k.part reg data then opBad s
    else if !inFlw s.dev k.part src (0xC0 + len) then opDenied k s (0, false)
    else match wWrites (descWrites g t cfg code data) s with
      | .error (st, c) => (.done st [], s.onDev c)
      | .ok s =>
        match placeImage s src (codeAddr g reg) h id with
        | (.done st _, s) => (.done st [], s)
        | x => x

/-- 0xB7 GROVE_INSTALL. -/
def opGroveInstall : OpFn := fun k s =>
  needLen k s 20 (mayInstall k s (par k 0 1) (par k 1 1) (par k 6 2) (parW k 8) (
    let src := par k 2 4
    if src % 4 ≠ 0 then opBad s
    else if !inFlw s.dev k.part src 0xC0 then opDenied k s (memOwnerOf s.dev src)
    else match wWrites (descWrites (par k 0 1) (par k 1 1) (parW k 8) (parW k 12) (parW k 16)) s with
      | .error (st, c) => (.done st [], s.onDev c)
      | .ok _ => longInstall { pkt := k, idx := 0, acc := [] } s))

/-- 0xB8 GROVE_STD: the standard task's code is root firmware's, and where it lies the spec leaves open: one of the code
regions clear of every enabled task, its entry and its words are free (notes/assumptions/2.md). Its parameters take their
defaults (R166), and its passes carry out its law (Library.lean). -/
def opGroveStd : OpFn := fun k s =>
  needLen k s 12 (
    let g := par k 0 1
    let t := par k 1 1
    let r := par k 3 1
    let cfg := parW k 4
    let data := parW k 8
    if 4 < par k 2 1 then opBad s
    else needOwner k s r 16 railOwner false (mayInstall k s g t 0 cfg (
      let regs := ((List.range 64).flatMap fun b => (List.range (64 - b)).map fun n => (b, n)).filter fun c =>
        regionsFree s.dev g t k.part c data
      let (v, d) := s.dev.free
      let (e, d) := d.free
      match regs[v % regs.length]? with
      | none => opBad s
      | some c =>
        let code := withF 0 [(GV_TCODE_ENTRY, e), (GV_TCODE_CBASE, c.1), (GV_TCODE_CLEN, c.2)]
        match wWrites (descWrites g t cfg code data) { s with dev := d } with
        | .error (st, f) => (.done st [], s.onDev f)
        | .ok s =>
          opOk (stdInstall ((List.range (codeBytes c / 4)).foldl (fun s j =>
            let (w, d) := s.dev.free
            State.mput { s with dev := d } (codeAddr g c + 4 * j) 4 (w % 2 ^ 32)) s) g t (par k 2 1) r))))

/-- 0xB9 GROVE_TASK: a refused enable is BAD_PARAM with GV_TSTAT (R162). A removed task has its descriptor's reset words. -/
def opGroveTask : OpFn := fun k s =>
  needLen k s 3 (
    let g := par k 0 1
    let t := par k 1 1
    let op := par k 2 1
    let i := tk g t
    if 16 ≤ g || 64 ≤ t || 2 < op then opBad s
    else if s.dev.f GV_TCFG_OWNER i ≠ k.part then opDenied k s (s.dev.f GV_TCFG_OWNER i, false)
    else
      let w := putBits (s.dev.r GV_TCFG i) 0 1 (if op = 1 then 1 else 0)
      match opWrites s [(GV_TCFG, i, w)] with
      | (.done st _, s') =>
        if st ≠ stOk then (.done st (leBytes 4 (s'.dev.r GV_TSTAT i).toNat), s')
        else
          let s := if op = 2 then
              s'.onDev fun d => (((d.setR GV_TCFG i (GV_TCFG.reset i)).setR GV_TCODE i (GV_TCODE.reset i)).setR GV_TDATA i (GV_TDATA.reset i)).setH .gStd i 0
            else s'
          opReads s [(GV_TSTAT, i)]
      | x => x)

/-- 0xBA RES_ASSIGN. -/
def opResAssign : OpFn := fun k s =>
  needLen k s 3 (
    let kind := par k 0 1
    let i := par k 1 1
    let p := par k 2 1
    if 1 < kind || (if kind = 0 then 32 else 16) ≤ i || npart s.dev ≤ p then opBad s
    else needPart k s 0 (
      let R := if kind = 0 then DM_OWN else TM_OWN
      let F := if kind = 0 then DM_OWN_PART (i % 8) else TM_OWN_PART (i % 8)
      opWrites s [(R, i / 8, putBits (s.dev.r R (i / 8)) F.lo F.n p)]))

/-! ### FUSE_OP (R420) -/

/-- The public keys for which a signature verifies over a hash: the points whose x is r, or r + n, give at most four. -/
def recoverKeys (r s : Nat) (hash : List Nat) : List (Nat × Nat) :=
  if r = 0 || s = 0 || pN ≤ r || pN ≤ s then []
  else ([r, r + pN].filter (· < pP)).flatMap fun x =>
    let y2 := (x * x * x + (pP - 3) * x + pB) % pP
    let y := powMod pP 256 y2 ((pP + 1) / 4)
    if y * y % pP ≠ y2 then []
    else
      let ri := invMod pN r
      let u1 := (pN - beNat hash % pN * ri % pN) % pN
      let u2 := s * ri % pN
      [y, pP - y].filterMap fun y => ecAdd (ecMul 256 u1 (some pG)) (ecMul 256 u2 (some (x, y)))

/-- Key slot i in the array: its hash, USE, whether revoked. -/
def slotKeyHash (s : State) (i : Nat) : List Nat := s.mbs (fuseKey (0x40 + 0x20 * i)) 32
def slotKeyUse (s : State) (i : Nat) : Nat := fuseByte s (0x140 + 4 * i) % 4
def slotKeyLive (s : State) (i : Nat) : Bool := !flag8 (fuseByte s (0x142 + 4 * i))

/-- The key slots of USE 2, and of those the ones not revoked. -/
def authKeys (s : State) : List Nat := (List.range 8).filter fun i => slotKeyUse s i == 2
def liveAuth (s : State) : List Nat := (authKeys s).filter (slotKeyLive s)

/-- Whether a signature by a non-revoked USE 2 key covers the data followed by DEVID. The packet carries no public key:
the key is the one whose hash the slot holds. -/
def authOk (s : State) (data sig : List Nat) : Bool :=
  let hash := sha256 (data ++ shBytes s.dev 0 8)
  (recoverKeys (beNat (sig.take 32)) (beNat (sig.drop 32)) hash).any fun q =>
    let pub := beBytes 32 q.1 ++ beBytes 32 q.2
    let kh := sha256 pub
    ((liveAuth s).any fun i => slotKeyHash s i == kh) && sigOk pub sig (data ++ shBytes s.dev 0 8)

/-- Whether the fuse authority forbids an operation. -/
def fuseLocked (s : State) (op i : Nat) (data image sig : List Nat) : Bool :=
  let use := (image[32]?).getD 0 % 4
  (op == 3 && use == 1) || (op == 4 && liveAuth s == [i])
    || !(authOk s data sig || (authKeys s == [] && op == 3 && (use == 2 || use == 3)))

/-- What FUSE_OP waits for. -/
def longFuse : LongFn := fun _ s =>
  if s.dev.on CH_FPROG_BUSY then (.wait 0 [], s)
  else
    let res := s.dev.f CH_FPROG_RES
    (.done (if res = 0 then stOk else stBadParam) [res], s)

/-- How many bytes of data an operation of the fuse engine takes. -/
def fuseData (op : Nat) : Nat := match op with
  | 1 => 256
  | 3 => 36
  | _ => 0

/-- 0xBB FUSE_OP: a slot image of another CVER is answered VERSION. Where the warden keeps the data for the engine the spec leaves open (notes/assumptions/2.md). -/
def opFuseOp : OpFn := fun k s =>
  let op := par k 0 1
  let i := par k 1 1
  let n := fuseData op
  if k.params.length < 2 || op = 0 || 4 < op || k.params.length ≠ 66 + n then opBad s
  else if (if op ≤ 2 then 4 else 8) ≤ i then opBad s
  else needPart k s 0 (
    let image := (k.params.drop 2).take n
    if op = 1 && (image[4]?).getD 0 ≠ 1 then opErr s stVersion
    else if fuseLocked s op i (k.params.take (2 + n)) image (k.params.drop (2 + n)) then opErr s stLocked
    else if s.dev.on CH_FPROG_BUSY then opErr (s.onDev fun d => d.set1 CH_CAUSE_ACC_ERR) stBadParam
    else
      let (v, d) := s.dev.free
      let d := (d.setR CH_FPROG_SRC 0 (BitVec.ofNat 32 (v % 2 ^ 32))).setF CH_FPROG_OP 0 op
      let d := if op ≤ 2 then d.setF CH_FPROG_SLOT 0 i else d.setF CH_FPROG_KEY 0 i
      longFuse { pkt := k, idx := 0, acc := [] } (fuseStart { s with dev := d } fun s _ => (some image, s)))

end Sys2Proof.Machine
end

