-- ==== Sys2Proof/Machine/Ports.lean ====
section
/-! DEFINITION. The warden serves the opcodes, the root sequencer serves the root opcodes, and the PMBus, SPI and mailbox
ports submit packets (spec/12, R438, R439, R443 to R461; spec/05, R215). -/

namespace Sys2Proof.Machine

/-! ### The opcodes by number -/

/-- What each opcode of R460 does. -/
def opOf (op : Nat) : OpFn :=
  match op with
  | 0x00 => opDevInfo | 0x01 => opDevStatus | 0x02 => opEcho | 0x03 => opSetState
  | 0x08 => opRegRead | 0x09 => opRegWrite | 0x0A => opRegModify
  | 0x20 => opRailStatus | 0x21 => opRailEnable | 0x22 => opRailVout | 0x23 => opRailRamp | 0x24 => opRailLoadline
  | 0x25 => opRailComp | 0x26 => opRailLimits | 0x27 => opRailStrike | 0x28 => opRailConfig | 0x29 => opRailIlim
  | 0x2A => opRailCoppice | 0x2B => opRailSeq | 0x2C => opRailProtect | 0x2D => opRailClear | 0x2E => opRailPeriod
  | 0x2F => opRailSteer | 0x30 => opRailCause
  | 0x40 => opPhaseStatus | 0x41 => opPhaseRole | 0x42 => opPhaseConfig | 0x43 => opPhaseProtect | 0x44 => opPhaseClear
  | 0x45 => opPhaseAz | 0x48 => opStageDesc | 0x49 => opStageAccess | 0x4A => opToneMap | 0x4B => opRollCall
  | 0x60 => opStoreStatus | 0x61 => opStoreConfig | 0x62 => opStoreEnable | 0x63 => opStoreFloor | 0x64 => opCeiling
  | 0x65 => opEscalation | 0x66 => opCeilSense
  | 0x70 => opLaneStatus | 0x71 => opLaneEnable | 0x72 => opLaneConfig | 0x73 => opPartnerId | 0x74 => opIntentConfig
  | 0x75 => opIntentTrust | 0x76 => opIntentStatus | 0x77 => opCoupleConfig | 0x78 => opCoupleCmd | 0x79 => opCoupleStatus
  | 0x80 => opTeleLast | 0x81 => opTeleConfig | 0x82 => opTeleCtl | 0x83 => opTeleOwn | 0x84 => opRailReadings
  | 0x90 => opTimeGet | 0x91 => opRtcSet | 0x92 => opMeterRead | 0x93 => opBillingRead | 0x94 => opLifeStage
  | 0x95 => opLifeDevice | 0x96 => opLogRead | 0x97 => opLifeFlush
  | 0xA0 => opFwInfo | 0xA1 => opFwBegin | 0xA2 => opFwWrite | 0xA3 => opFwVerify | 0xA4 => opFwSwap | 0xA5 => opFwAbort
  | 0xB0 => opPartInfo | 0xB1 => opReflogRead | 0xB2 => opCoreAssign | 0xB3 => opCoreCtl | 0xB4 => opImageLoad
  | 0xB5 => opGroveLead | 0xB6 => opGroveBanks | 0xB7 => opGroveInstall | 0xB8 => opGroveStd | 0xB9 => opGroveTask
  | 0xBA => opResAssign | 0xBB => opFuseOp
  | _ => fun _ s => opErr s stBadOp

/-- How each opcode that waits goes on. -/
def longOf (op : Nat) : LongFn :=
  match op with
  | 0x03 => longState | 0x49 => longStage | 0x91 => longRtc
  | 0x4A => longTone | 0x4B => longRoll | 0x97 => longFlush | 0xA1 => longBegin | 0xA2 => longWrite | 0xA3 => longVerify
  | 0xA4 => longSwap | 0xB4 => longImage | 0xB7 => longInstall | 0xBB => longFuse
  | _ => fun _ s => opOk s

/-! ### PMBus standard commands (R448, R449) -/

/-- A standard command at the warden: the bytes written, none for a read; the answer to a read, none where there is none. -/
abbrev StdFn := Packet → Option (List Nat) → State → Option (List Nat) × State

/-- CP_CML bits. -/
def cml (s : State) (F : Fld) : State := s.onDev fun d => d.set1 F

/-- A command that is only read: data written to it are data the table does not allow. -/
def stdRead (g : State → List Nat × State) : StdFn := fun _ w s =>
  match w with
  | none => let (b, s) := g s; (some b, s)
  | some _ => (none, cml s CP_CML_DATA)

/-- A command on the rail selected by PAGE, with the rights of the packet's partition; without them a read finds no
answer. -/
def stdRail (g : Nat → StdFn) : StdFn := fun k w s =>
  let r := s.dev.hn .pmbPage
  let o := railOwner s.dev r
  if o.1 = k.part then g r k w s
  else (none, cml (s.onDev fun d => refuse d k.part false 6 o w.isSome 0 (k.op % 256)) CP_CML_OTHER)

/-- A command of the rail that is only read. -/
def stdRailRead (n : Nat) (g : State → Nat → Nat × State) : StdFn :=
  stdRail fun r => stdRead fun s => let (v, s) := g s r; (leBytes n v, s)

/-- The LINEAR11 word of num / den with exponents from lo to hi: the smallest at which the mantissa, rounded down, fits;
it saturates at the largest. -/
def mantissa (num : Int) (den : Nat) (e : Int) : Int :=
  if e < 0 then num * 2 ^ e.natAbs / den else num / (den * 2 ^ e.natAbs)
def linear11 (num : Int) (den : Nat) (lo hi : Int) : Nat :=
  let es := (List.range (hi - lo + 1).toNat).map fun j => lo + j
  let fits (e : Int) : Bool := -1024 ≤ mantissa num den e && mantissa num den e ≤ 1023
  let e := (es.find? fits).getD hi
  (e % 32).toNat * 2048 + (sat (mantissa num den e) 11 % 2048).toNat

/-- READ_VOUT as ULINEAR16, exponent −12. -/
def voutWord (d : Dev) (r : Nat) : Nat :=
  let (num, den) := voutRead d r
  (usat (num * 4096 / (den * 1000000)) 16).toNat

/-- The STATUS_ bytes of rail r. -/
def statusVout (d : Dev) (r : Nat) : Nat := 128 * b2n (d.on FB_RLAT_OV r || d.on FB_RLAT_ABS r) + 16 * b2n (d.on FB_RLAT_UV r)
def statusIout (d : Dev) (r : Nat) : Nat :=
  128 * b2n (((domPhases d r).any fun n => d.on FB_PLAT_HOC n || d.on FB_PLAT_HSS n) || d.on RL_CAUSE_START_SHORT r)
def statusInput (d : Dev) : Nat := 4 * b2n ((d.f FB_DLAT_SRC).testBit 0) + 2 * b2n (d.on ST_STATUS_THR)
def statusTemp (d : Dev) (r : Nat) : Nat :=
  let warm (n : Nat) : Bool := d.on PH_STAGE_MAPPED n && decide (((descByte d n 0x34 : Int) - 40) * 16 ≤ d.fi PH_STAGE_TEMP n)
  128 * b2n ((d.f FB_DLAT_SRC).testBit 1 || (domPhases d r).any fun n => d.on FB_PLAT_SOT n)
    + 64 * b2n ((domPhases d r).any warm)

/-- STATUS_WORD (R449). Bit 0 stands for a latch that no other bit names: one of the rail, or of a device source other than
the input and the die, which bits 13 and 2 name (notes/assumptions/22.md). -/
def statusWord (d : Dev) (r : Nat) : Nat :=
  let vo := statusVout d r
  let io := statusIout d r
  let t := statusTemp d r
  let bit (i : Nat) (b : Bool) : Nat := if b then 2 ^ i else 0
  let named := bit 6 (rlState d r != rlOn) + bit 5 (vo.testBit 7) + bit 4 (io.testBit 7) + bit 2 (t != 0)
    + bit 1 ((d.r CP_CML) != 0) + bit 15 (vo != 0) + bit 14 (io != 0) + bit 13 (statusInput d != 0)
    + bit 12 ((d.r RL_CAUSE r &&& d.r RL_CAUSE_EN r) != 0) + bit 11 (!d.on RL_STATUS_PG r)
  let srcs := d.f FB_DLAT_SRC
  named + bit 0 ((d.on FB_RLAT_HSS r && io == 0) || (d.on FB_RLAT_DEV r && srcs % 4 == 0)
    || (d.on FB_RLAT_START_SHORT r && io == 0) || srcs / 4 != 0)

/-- Whether rail r's PAGE is one of the partition's. -/
def stdPage : StdFn := fun k w s =>
  match w with
  | none => (some [s.dev.hn .pmbPage], s)
  | some [p] =>
    if p < 16 && (railOwner s.dev p).1 == k.part then (none, s.onDev fun d => d.setH .pmbPage 0 p) else (none, cml s CP_CML_DATA)
  | some _ => (none, cml s CP_CML_DATA)

/-- OPERATION: an enable superseded by a root rail-off is not carried out (R459). -/
def stdOperation : StdFn := stdRail fun r k w s =>
  match w with
  | none => (some [if s.dev.on RL_CTL_EN r then 0x80 else 0], s)
  | some [b] =>
    if b = 0x80 && staleFor k r then (none, s.onDev fun d => d.set1 CP_CAUSE_STALE)
    else if b = 0x80 || b = 0x40 || b = 0 then (none, (opWrites s [(RL_CTL, r, if b = 0x80 then 1 else 0)]).2)
    else (none, cml s CP_CML_DATA)
  | some _ => (none, cml s CP_CML_DATA)

/-- ON_OFF_CONFIG. -/
def stdOnOff : StdFn := fun _ w s =>
  match w with
  | none => (some [0x18], s)
  | some [0x18] => (none, s)
  | some _ => (none, cml s CP_CML_DATA)

/-- CLEAR_FAULTS is a send byte. -/
def stdClear : StdFn := fun _ w s =>
  match w with
  | none => (none, cml s CP_CML_DATA)
  | some [] => (none, s.onDev fun d => d.setR CP_CML 0 0)
  | some _ => (none, cml s CP_CML_DATA)

/-- VOUT_COMMAND. -/
def stdVout : StdFn := stdRail fun r _ w s =>
  let v := s.dev.f IG_COUT_VDIV r
  match w with
  | none => (some (leBytes 2 (roundDiv (s.dev.f FL_REF_TGT r * v : Nat) 40).toNat), s)
  | some [a, b] =>
    let t := (roundDiv ((a + 256 * b) * 40 : Nat) v).toNat
    if 2 ^ 14 ≤ t then (none, cml s CP_CML_DATA)
    else
      match opWrites s [(FL_REF, r, putBits (s.dev.r FL_REF r) FL_REF_TGT.lo FL_REF_TGT.n t)] with
      | (.done st _, s) => (none, if st = stOk then s else cml s CP_CML_OTHER)
      | (_, s) => (none, s)
  | some _ => (none, cml s CP_CML_DATA)

/-- What each standard command does, by its code (R448). -/
def stdOf (code : Nat) : StdFn :=
  let dev (n : Nat) (g : Dev → Nat) : StdFn := stdRead fun s => (leBytes n (g s.dev), s)
  let rail (n : Nat) (g : Dev → Nat → Nat) : StdFn := stdRailRead n fun s r => (g s.dev r, s)
  match code with
  | 0x00 => stdPage | 0x01 => stdOperation | 0x02 => stdOnOff | 0x03 => stdClear
  | 0x19 => dev 1 fun _ => 0xD4
  | 0x20 => dev 1 fun _ => 0x14
  | 0x21 => stdVout
  | 0x78 => rail 1 fun d r => statusWord d r
  | 0x79 => rail 2 statusWord
  | 0x7A => rail 1 statusVout
  | 0x7B => rail 1 statusIout
  | 0x7C => rail 1 fun d _ => statusInput d
  | 0x7D => rail 1 statusTemp
  | 0x7E => dev 1 fun d => (d.r CP_CML).toNat
  | 0x88 => dev 2 fun d => linear11 (d.f ST_VMEAS_VBUS) 1000 (-6) 0
  | 0x89 => dev 2 fun d => linear11 (d.f ST_IIN_IIN) 16 (-4) 0
  | 0x8B => rail 2 voutWord
  | 0x8C => rail 2 fun d r => linear11 (d.fi FL_ISUM_ISUM r) 4 (-2) 1
  | 0x8D => stdRailRead 2 fun s r => let (t, d) := hottest s.dev r; (linear11 t 16 (-4) 2, { s with dev := d })
  | 0x96 => rail 2 fun d r =>
    let (num, den) := voutRead d r
    linear11 (max 0 num * d.fi FL_ISUM_ISUM r) (den * 4000000) (-2) 4
  | 0x98 => dev 1 fun _ => 0x33
  | 0x99 => stdRead fun s => ([0x4D, 0x41, 0x55, 0x4C, 0x41, 0x4E, 0x4F, 0x52], s)
  | 0x9A => stdRead fun s => ([0x49, 0x5A, 0x36, 0x34, 0x31, 0x36], s)
  | _ => fun _ _ s => (none, cml s CP_CML_CMD)

/-- The bytes a read of a standard command returns. -/
def stdLen (code : Nat) : Nat :=
  if code = 0x21 || code = 0x79 || (0x88 ≤ code && code ≤ 0x96) then 2
  else if code = 0x99 then 8 else if code = 0x9A then 6 else 1

/-- The warden carries out a standard command: its parameters are 0 for a read, or 1 and the bytes written. A read it
cannot answer leaves 0xFF bytes and sets CP_CML.OTHER. -/
def stdRun (k : Packet) (s : State) : State :=
  let s := s.onDev fun d => ringPop d k
  let code := k.op % 256
  let w := if par k 0 1 = 0 then none else some (k.params.drop 1)
  match stdOf code k w s, w with
  | (some b, s), none => s.onDev fun d => { d with portOut := b }
  | (none, s), none => (cml s CP_CML_OTHER).onDev fun d => { d with portOut := List.replicate (stdLen code) 0xFF }
  | (_, s), some _ => s

/-! ### Serving -/

/-- The warden carries out the packet it serves next, if it may. -/
def wardenStep (s : State) : Option State :=
  (nextPacket s.dev).map fun k => if 0x100 ≤ k.op then stdRun k s else runPacket k (opOf k.op) s

/-- Standard commands at the front of the service are carried out. -/
def stdFront : Nat → State → State
  | 0, s => s
  | fuel + 1, s =>
    match nextPacket s.dev with
    | some k => if 0x100 ≤ k.op then stdFront fuel (stdRun k s) else s
    | none => s

/-- The warden serves until packet k has left its ring, or it cannot go on. -/
def serveTo (k : Packet) : Nat → State → State
  | 0, s => s
  | fuel + 1, s =>
    if !s.dev.rings.contains k then s
    else match wardenStep s with
      | some s => serveTo k fuel s
      | none => s

/-- An opcode's row: the packet that the warden serves next is carried out if it has this opcode (R438). -/
def serve (op : Nat) (f : OpFn) (s : State) : Host.Outcome State Fault Refusal :=
  let s := stdFront s.dev.rings.length s
  match nextPacket s.dev with
  | some k => .next (if k.op = op then runPacket k f s else s)
  | none => .next s

/-- The row of an opcode that may hold the warden: the packet that holds it goes on. -/
def serveHeld (op : Nat) (f : OpFn) (g : LongFn) (s : State) : Host.Outcome State Fault Refusal :=
  match s.dev.held with
  | some y => .next (if wardenRuns s.dev && y.pkt.op == op then runHeld y g s else s)
  | none => serve op f s

/-- LONG_PACKET_COMPLETE (R439): the Long packet of opcode group g goes on; it is answered once what it waits for is done. -/
def execLongPacketComplete (g : Fin 16) (s : State) : Host.Outcome State Fault Refusal :=
  match s.dev.longs.find? fun y => y.pkt.op / 16 == g.val with
  | some y => .next (if wardenRuns s.dev then runLong y (longOf y.pkt.op) s else s)
  | none => .next s

/-! ### The PMBus port (R443 to R449) -/

/-- Whether the PMBus port serves: its pads are not held (R522), and no process call holds its clock line. -/
def pmbOn (d : Dev) : Bool := d.on CP_CFG_PMB_EN && portsRun d && !d.on PD_DSTAT_HELD 0 && !d.hon .pmbCall

/-- Whether a write is discarded for its PEC (R446). -/
def pecBad (d : Dev) (p : Pec) : Bool := p == .bad || (p == .absent && d.on CP_CFG_PEC_REQ)
def pecFail (s : State) : State := s.onDev fun d => (d.set1 CP_CML_PEC).set1 CP_CAUSE_PEC

/-- A standard command as a packet of partition STDPART (R448). -/
def stdSubmit (code : Nat) (ps : List Nat) (s : State) : State :=
  let d := s.dev
  let p := d.f CP_CFG_STDPART
  let k : Packet := { stream := 36, op := 0x100 + code, flags := 1, part := p, port := 0, seq := 0, params := ps, stamp := d.now, sess := 0 }
  let silent (s : State) : State :=
    if ps = [0] then (cml s CP_CML_OTHER).onDev fun d => { d with portOut := List.replicate (stdLen code) 0xFF } else cml s CP_CML_OTHER
  if !(portsOf d p).testBit 0 then silent (s.onDev fun d => refuse d p false 6 (0, false) true 0 code)
  else if 16 ≤ (d.rings.filter fun q => q.part == p).length then silent (s.onDev fun d => d.set1 CP_CAUSE_RING_FULL)
  else
    let s := s.onDev fun d => quietWake (({ d with rings := d.rings ++ [k] } : Dev).setBit CP_STATUS_RINGS 0 p true)
    let s := serveTo k (s.dev.rings.length + 1) s
    if ps = [0] && s.dev.rings.contains k then silent (s.onDev fun d =>
      let d : Dev := { d with rings := d.rings.erase k }
      d.setBit CP_STATUS_RINGS 0 p (d.rings.any fun x => x.part == p))
    else s

/-- A standard command on the bus. -/
def std (code : Nat) (x : PmbOp) (s : State) : Host.Outcome State Fault Refusal :=
  if !pmbOn s.dev then .next s
  else match x with
    | .read => .next (stdSubmit code [0] s)
    | .write data pec => .next (if pecBad s.dev pec then pecFail s else stdSubmit code (1 :: data.map BitVec.toNat) s)

def execPage (x : PmbOp) (s : State) : Host.Outcome State Fault Refusal := std 0x00 x s
def execOperation (x : PmbOp) (s : State) : Host.Outcome State Fault Refusal := std 0x01 x s
def execOnOffConfig (x : PmbOp) (s : State) : Host.Outcome State Fault Refusal := std 0x02 x s
def execClearFaults (x : PmbOp) (s : State) : Host.Outcome State Fault Refusal := std 0x03 x s
def execCapability (x : PmbOp) (s : State) : Host.Outcome State Fault Refusal := std 0x19 x s
def execVoutMode (x : PmbOp) (s : State) : Host.Outcome State Fault Refusal := std 0x20 x s
def execVoutCommand (x : PmbOp) (s : State) : Host.Outcome State Fault Refusal := std 0x21 x s
def execStatusByte (x : PmbOp) (s : State) : Host.Outcome State Fault Refusal := std 0x78 x s
def execStatusWord (x : PmbOp) (s : State) : Host.Outcome State Fault Refusal := std 0x79 x s
def execStatusVout (x : PmbOp) (s : State) : Host.Outcome State Fault Refusal := std 0x7A x s
def execStatusIout (x : PmbOp) (s : State) : Host.Outcome State Fault Refusal := std 0x7B x s
def execStatusInput (x : PmbOp) (s : State) : Host.Outcome State Fault Refusal := std 0x7C x s
def execStatusTemperature (x : PmbOp) (s : State) : Host.Outcome State Fault Refusal := std 0x7D x s
def execStatusCml (x : PmbOp) (s : State) : Host.Outcome State Fault Refusal := std 0x7E x s
def execReadVin (x : PmbOp) (s : State) : Host.Outcome State Fault Refusal := std 0x88 x s
def execReadIin (x : PmbOp) (s : State) : Host.Outcome State Fault Refusal := std 0x89 x s
def execReadVout (x : PmbOp) (s : State) : Host.Outcome State Fault Refusal := std 0x8B x s
def execReadIout (x : PmbOp) (s : State) : Host.Outcome State Fault Refusal := std 0x8C x s
def execReadTemperature1 (x : PmbOp) (s : State) : Host.Outcome State Fault Refusal := std 0x8D x s
def execReadPout (x : PmbOp) (s : State) : Host.Outcome State Fault Refusal := std 0x96 x s
def execPmbusRevision (x : PmbOp) (s : State) : Host.Outcome State Fault Refusal := std 0x98 x s
def execMfrId (x : PmbOp) (s : State) : Host.Outcome State Fault Refusal := std 0x99 x s
def execMfrModel (x : PmbOp) (s : State) : Host.Outcome State Fault Refusal := std 0x9A x s

/-- A packet of a 0xD0 block, of 255 bytes at most: the port remembers the partition it names where it sets REPLY (R444). -/
def pmbPacket (d : Dev) (b : List Nat) : Dev :=
  let reply := ((b[1]?).getD 0).testBit 0 && 8 ≤ b.length
  (submit (d.setH .pmbLast 0 (if reply then (b[2]?).getD 0 % 8 + 1 else 0 : Nat)) 0 0 b).2

/-- MFR_SPECIFIC_00 (R444, R446): a block write to 0xD0 submits a packet. -/
def execMfrSpecific00 (bytes : List Byte) (pec : Pec) (s : State) : Host.Outcome State Fault Refusal :=
  if !pmbOn s.dev || 255 < bytes.length then .next s
  else if pecBad s.dev pec then .next (pecFail s)
  else s.ok fun d => pmbPacket d (bytes.map BitVec.toNat)

/-- PROCESS_CALL (R444, R445): the reply of the packet is returned once it is there. -/
def execProcessCall (bytes : List Byte) (s : State) : Host.Outcome State Fault Refusal :=
  s.ok fun d => d.when (pmbOn d && bytes.length ≤ 255) fun d =>
    let b := bytes.map BitVec.toNat
    pmbPacket (({ d with portOut := [] } : Dev).setH .pmbCall 0 ((b[2]?).getD 0 % 8 + 1 + 16 * (b[3]?).getD 0 : Nat)) b

/-- The opcode of the packet that a stream executes. -/
def execOp (d : Dev) (stream : Nat) : Nat :=
  let l := d.rings ++ d.rootq ++ d.held.toList.map LongOp.pkt ++ d.longs.map LongOp.pkt
  ((l.find? fun k => k.stream == stream && k.seq == (streamOf d stream).seq).map Packet.op).getD 0

/-- What a stream answers a fetch (R444, R445, R450): its stored reply, or BUSY with PENDING while its packet executes. -/
def fetchReply (d : Dev) (stream : Nat) : List Nat :=
  let x := streamOf d stream
  if x.busy then replyPending (execOp d stream) x.seq else x.reply

/-- PROCESS_CALL_WAIT_EXPIRE (R445): BUSY with PENDING is returned. -/
def execProcessCallWaitExpire (s : State) : Host.Outcome State Fault Refusal :=
  s.svc fun d => d.when (d.hon .pmbCall) fun d =>
    ({ d with portOut := fetchReply d (d.hn .pmbCall 0 % 16 - 1) } : Dev).setH .pmbCall 0 0

/-- MFR_SPECIFIC_01 (R444, R445): a block read returns the latest stored reply. -/
def execMfrSpecific01 (s : State) : Host.Outcome State Fault Refusal :=
  s.ok fun d => d.when (pmbOn d) fun d =>
    { d with portOut := fetchReply d (if d.hon .pmbLast then d.hn .pmbLast 0 - 1 else d.f CP_CFG_STDPART) }

/-- ALERT_RESPONSE (R447): the port answers the Alert Response Address with its own. -/
def execAlertResponse (s : State) : Host.Outcome State Fault Refusal :=
  s.ok fun d => d.when (pmbOn d) fun d =>
    { d with portOut := if d.on CP_CFG_ARA_EN && alertN d then [d.f CP_STATUS_ADDR] else [] }

/-- SMBUS_TIMEOUT (R443): the transaction is abandoned. -/
def execSmbusTimeout (s : State) : Host.Outcome State Fault Refusal := s.svc fun d => d.setH .pmbCall 0 0

/-! ### SPI, the mailboxes (R450 to R452) -/

/-- Whether the SPI port serves: its pads are not held (R522). -/
def spiOn (d : Dev) : Bool := d.on CP_CFG_SPI_EN && portsRun d && !d.on PD_DSTAT_HELD 0

/-- SPI_WRITE (R451): a byte lost at the crossing makes the packet fail its framing. -/
def execSpiWrite (bytes : List Byte) (lost : Bool) (s : State) : Host.Outcome State Fault Refusal :=
  s.ok fun d => d.when (spiOn d) fun d =>
    let b := bytes.map BitVec.toNat
    if lost then
      let b := if b.length = 8 + leNat ((b.drop 4).take 2) then b ++ [0] else b
      (submit (d.set1 CP_CAUSE_SPI_OVR) 1 0 b).2
    else (submit d 1 0 b).2

/-- SPI_READ (R450): the stored reply of the tag's stream; a tag without a stream reads nothing. -/
def execSpiRead (tag : Byte) (s : State) : Host.Outcome State Fault Refusal :=
  s.ok fun d => d.when (spiOn d) fun d =>
    let p := tag.toNat % 16
    if 8 ≤ p then { d with portOut := [] }
    else
      let d : Dev := { d with portOut := fetchReply d (8 + p) }
      if (streamOf d (8 + p)).unread then setStream d { streamOf d (8 + p) with unread := false } else d

/-- SPI_READY (R450). -/
def execSpiReady (s : State) : Host.Outcome State Fault Refusal :=
  s.ok fun d => d.when (spiOn d) fun d => { d with portOut := [boughBits 8 fun p => (streamOf d (8 + p)).unread] }

/-- SPI_UNKNOWN_INSTRUCTION (R450): ignored, with ACC_ERR. -/
def execSpiUnknownInstruction (instr : Byte) (s : State) : Host.Outcome State Fault Refusal :=
  s.ok fun d => d.when (spiOn d && instr != 1 && instr != 2 && instr != 3) fun d =>
    ({ d with portOut := [0] } : Dev).set1 CP_CAUSE_ACC_ERR

/-- MAILBOX_GO (R452). -/
def execMailboxGo (who : Initiator) (p : Part) (s : State) : Host.Outcome State Fault Refusal :=
  storeF s who CP_MBX_CTL_GO p 1

/-- ROOTSTAMP_READ (R461). -/
def execRootstampRead (who : Initiator) (s : State) : Host.Outcome State Fault Refusal :=
  .next (keepRes (busLoad s who (CP_ROOTSTAMP_LO.addr 0) 4))

/-! ### Root opcodes (R455 to R459) -/

/-- The root sequencer executes the packet accepted first, if it has this opcode. -/
def rootServe (op : Nat) (f : Packet → State → List Nat × State) (s : State) : State :=
  match s.dev.rootq with
  | k :: t =>
    if portsRun s.dev && k.op == op then
      let (data, s) := f k (s.onDev fun d => { d with rootq := t })
      s.onDev fun d =>
        let d := ((d.incSat CP_ROOTCNT_COUNT).setF CP_ROOTCNT_LAST 0 op).set1 CP_CAUSE_ROOT
        finish (d.setF CP_STATUS_ROOT_BUSY 0 (b2i (t != []))) k stOk data
    else s
  | [] => s

/-- The decision stamp of a rail-off, and the packets it supersedes (R459, R461). -/
def rootStamp (d : Dev) (rails : Nat) : Dev :=
  let d := (d.setH .rootStamp 0 d.now).setF CP_ROOTSTAMP_LO_STAMP 0 d.now
  { d with rings := d.rings.map fun (k : Packet) => { k with offs := k.offs ||| rails } }

/-- ALL_OFF (R215, R456). -/
def execAllOff (s : State) : Host.Outcome State Fault Refusal :=
  .next (rootServe 0xF0 (fun _ s => ([], s.onDev fun d => rootStamp (rootAllOff d) 0xFFFF)) s)

/-- READ_CANOPY (R456, R457): ALERT_N is low while asserted. -/
def execReadCanopy (s : State) : Host.Outcome State Fault Refusal :=
  .next (rootServe 0xF1 (fun k s => (leBytes 4 (canopyView s.dev k.part) ++ [b2n (!alertN s.dev)], s)) s)

/-- The 91 bytes of READ_LATCHES for a tag (R456, R457). -/
def latchBytes (d : Dev) (p : Nat) : List Nat :=
  let rail (r v : Nat) : Nat := if (railOwner d r).1 = p then v else 0
  let dev (v : Nat) : Nat := if p = 0 then v % 256 else 0
  ((List.range 16).map fun r => rail r ((d.r FB_RLAT r).toNat % 64))
    ++ ((List.range 64).map fun n => if (phaseOwner d n).1 = p then (d.r FB_PLAT n).toNat % 8 else 0)
    ++ [dev (d.r FB_DLAT).toNat, dev (d.r FB_SC_CAUSE).toNat, dev (d.r FB_PINS).toNat]
    ++ (List.range 8).map fun j => rail (2 * j) (rlState d (2 * j)) + 16 * rail (2 * j + 1) (rlState d (2 * j + 1))

/-- READ_LATCHES. -/
def execReadLatches (s : State) : Host.Outcome State Fault Refusal :=
  .next (rootServe 0xF2 (fun k s => (latchBytes s.dev k.part, s)) s)

/-- The action of RESET on its packet (R456): the reset may come 10 µs after acceptance where REPLY is clear, else 1 ms after
the reply, at the earliest. -/
def resetServe (k : Packet) (s : State) : List Nat × State :=
  ([], s.onDev fun d => d.setH .rstAt 0 ((if k.flags.testBit 0 then d.now + 2000000 else k.stamp + 20000) + 1 : Nat))

/-- RESET (R456, R693): first the packet is answered; the row then comes again, for the device reset that follows (the time
from the reply's last byte to it is the sender's: notes/assumptions/6.md). -/
def execRootReset (s : State) : Host.Outcome State Fault Refusal :=
  .next (if s.dev.hon .rstAt then (if s.dev.hn .rstAt ≤ s.dev.now + 1 then devReset s PX_RSTSRC_ROOT else s)
    else rootServe 0xF3 resetServe s)

/-- RAIL_OFF (R215, R456). -/
def execRailOff (s : State) : Host.Outcome State Fault Refusal :=
  .next (rootServe 0xF4 (fun k s => ([], s.onDev fun d => rootStamp (rootRailOff d (par k 0 1)) (2 ^ par k 0 1))) s)

/-- READ_IDENTITY (R456). -/
def execReadIdentity (s : State) : Host.Outcome State Fault Refusal :=
  .next (rootServe 0xF5 (fun _ s => (shBytes s.dev 0 13 ++ leBytes 4 (s.dev.r CH_BOOT).toNat
    ++ leBytes 4 (s.dev.r CH_STATUS).toNat ++ leBytes 4 (s.dev.r CH_SERIAL).toNat, s)) s)

/-- PING (R456). -/
def execPing (s : State) : Host.Outcome State Fault Refusal :=
  .next (rootServe 0xF6 (fun k s =>
    let d := s.dev
    ([d.f PD_STATE_STATE, b2n (d.on CP_STATUS_WARDEN) + 2 * d.f CH_BOOT_ROOTONLY + 4 * d.f CH_STATUS_DEFAULT] ++ k.params, s)) s)

/-! ### The rows of the opcodes -/

/-- DEV_INFO (opcode 0x00, R460). -/
def execDevInfo (s : State) : Host.Outcome State Fault Refusal := serve 0x00 opDevInfo s

/-- DEV_STATUS (opcode 0x01, R460). -/
def execDevStatus (s : State) : Host.Outcome State Fault Refusal := serve 0x01 opDevStatus s

/-- ECHO (opcode 0x02, R460). -/
def execEcho (s : State) : Host.Outcome State Fault Refusal := serve 0x02 opEcho s

/-- SET_STATE (opcode 0x03, R460). -/
def execSetState (s : State) : Host.Outcome State Fault Refusal := serveHeld 0x03 opSetState longState s

/-- REG_READ (opcode 0x08, R460). -/
def execRegRead (s : State) : Host.Outcome State Fault Refusal := serve 0x08 opRegRead s

/-- REG_WRITE (opcode 0x09, R460). -/
def execRegWrite (s : State) : Host.Outcome State Fault Refusal := serve 0x09 opRegWrite s

/-- REG_MODIFY (opcode 0x0A, R460). -/
def execRegModify (s : State) : Host.Outcome State Fault Refusal := serve 0x0A opRegModify s

/-- RAIL_STATUS (opcode 0x20, R460). -/
def execRailStatus (s : State) : Host.Outcome State Fault Refusal := serve 0x20 opRailStatus s

/-- RAIL_ENABLE (opcode 0x21, R460). -/
def execRailEnable (s : State) : Host.Outcome State Fault Refusal := serve 0x21 opRailEnable s

/-- RAIL_VOUT (opcode 0x22, R460). -/
def execRailVout (s : State) : Host.Outcome State Fault Refusal := serve 0x22 opRailVout s

/-- RAIL_RAMP (opcode 0x23, R460). -/
def execRailRamp (s : State) : Host.Outcome State Fault Refusal := serve 0x23 opRailRamp s

/-- RAIL_LOADLINE (opcode 0x24, R460). -/
def execRailLoadline (s : State) : Host.Outcome State Fault Refusal := serve 0x24 opRailLoadline s

/-- RAIL_COMP (opcode 0x25, R460). -/
def execRailComp (s : State) : Host.Outcome State Fault Refusal := serve 0x25 opRailComp s

/-- RAIL_LIMITS (opcode 0x26, R460). -/
def execRailLimits (s : State) : Host.Outcome State Fault Refusal := serve 0x26 opRailLimits s

/-- RAIL_STRIKE (opcode 0x27, R460). -/
def execRailStrike (s : State) : Host.Outcome State Fault Refusal := serve 0x27 opRailStrike s

/-- RAIL_CONFIG (opcode 0x28, R460). -/
def execRailConfig (s : State) : Host.Outcome State Fault Refusal := serve 0x28 opRailConfig s

/-- RAIL_ILIM (opcode 0x29, R460). -/
def execRailIlim (s : State) : Host.Outcome State Fault Refusal := serve 0x29 opRailIlim s

/-- RAIL_COPPICE (opcode 0x2A, R460). -/
def execRailCoppice (s : State) : Host.Outcome State Fault Refusal := serve 0x2A opRailCoppice s

/-- RAIL_SEQ (opcode 0x2B, R460). -/
def execRailSeq (s : State) : Host.Outcome State Fault Refusal := serve 0x2B opRailSeq s

/-- RAIL_PROTECT (opcode 0x2C, R460). -/
def execRailProtect (s : State) : Host.Outcome State Fault Refusal := serve 0x2C opRailProtect s

/-- RAIL_CLEAR (opcode 0x2D, R460). -/
def execRailClear (s : State) : Host.Outcome State Fault Refusal := serve 0x2D opRailClear s

/-- RAIL_PERIOD (opcode 0x2E, R460). -/
def execRailPeriod (s : State) : Host.Outcome State Fault Refusal := serve 0x2E opRailPeriod s

/-- RAIL_STEER (opcode 0x2F, R460). -/
def execRailSteer (s : State) : Host.Outcome State Fault Refusal := serve 0x2F opRailSteer s

/-- RAIL_CAUSE (opcode 0x30, R460). -/
def execRailCause (s : State) : Host.Outcome State Fault Refusal := serve 0x30 opRailCause s

/-- PHASE_STATUS (opcode 0x40, R460). -/
def execPhaseStatus (s : State) : Host.Outcome State Fault Refusal := serve 0x40 opPhaseStatus s

/-- PHASE_ROLE (opcode 0x41, R460). -/
def execPhaseRole (s : State) : Host.Outcome State Fault Refusal := serve 0x41 opPhaseRole s

/-- PHASE_CONFIG (opcode 0x42, R460). -/
def execPhaseConfig (s : State) : Host.Outcome State Fault Refusal := serve 0x42 opPhaseConfig s

/-- PHASE_PROTECT (opcode 0x43, R460). -/
def execPhaseProtect (s : State) : Host.Outcome State Fault Refusal := serve 0x43 opPhaseProtect s

/-- PHASE_CLEAR (opcode 0x44, R460). -/
def execPhaseClear (s : State) : Host.Outcome State Fault Refusal := serve 0x44 opPhaseClear s

/-- PHASE_AZ (opcode 0x45, R460). -/
def execPhaseAz (s : State) : Host.Outcome State Fault Refusal := serve 0x45 opPhaseAz s

/-- STAGE_DESC (opcode 0x48, R460). -/
def execStageDesc (s : State) : Host.Outcome State Fault Refusal := serve 0x48 opStageDesc s

/-- STAGE_ACCESS (opcode 0x49, R460). -/
def execStageAccess (s : State) : Host.Outcome State Fault Refusal := serveHeld 0x49 opStageAccess longStage s

/-- TONE_MAP (opcode 0x4A, R460). -/
def execToneMap (s : State) : Host.Outcome State Fault Refusal := serve 0x4A opToneMap s

/-- ROLL_CALL (opcode 0x4B, R460). -/
def execRollCall (s : State) : Host.Outcome State Fault Refusal := serve 0x4B opRollCall s

/-- STORE_STATUS (opcode 0x60, R460). -/
def execStoreStatus (s : State) : Host.Outcome State Fault Refusal := serve 0x60 opStoreStatus s

/-- STORE_CONFIG (opcode 0x61, R460). -/
def execStoreConfig (s : State) : Host.Outcome State Fault Refusal := serve 0x61 opStoreConfig s

/-- STORE_ENABLE (opcode 0x62, R460). -/
def execStoreEnable (s : State) : Host.Outcome State Fault Refusal := serve 0x62 opStoreEnable s

/-- STORE_FLOOR (opcode 0x63, R460). -/
def execStoreFloor (s : State) : Host.Outcome State Fault Refusal := serve 0x63 opStoreFloor s

/-- CEILING (opcode 0x64, R460). -/
def execCeiling (s : State) : Host.Outcome State Fault Refusal := serve 0x64 opCeiling s

/-- ESCALATION (opcode 0x65, R460). -/
def execEscalation (s : State) : Host.Outcome State Fault Refusal := serve 0x65 opEscalation s

/-- CEIL_SENSE (opcode 0x66, R460). -/
def execCeilSense (s : State) : Host.Outcome State Fault Refusal := serve 0x66 opCeilSense s

/-- LANE_STATUS (opcode 0x70, R460). -/
def execLaneStatus (s : State) : Host.Outcome State Fault Refusal := serve 0x70 opLaneStatus s

/-- LANE_ENABLE (opcode 0x71, R460). -/
def execLaneEnable (s : State) : Host.Outcome State Fault Refusal := serve 0x71 opLaneEnable s

/-- LANE_CONFIG (opcode 0x72, R460). -/
def execLaneConfig (s : State) : Host.Outcome State Fault Refusal := serve 0x72 opLaneConfig s

/-- PARTNER_ID (opcode 0x73, R460). -/
def execPartnerId (s : State) : Host.Outcome State Fault Refusal := serve 0x73 opPartnerId s

/-- INTENT_CONFIG (opcode 0x74, R460). -/
def execIntentConfig (s : State) : Host.Outcome State Fault Refusal := serve 0x74 opIntentConfig s

/-- INTENT_TRUST (opcode 0x75, R460). -/
def execIntentTrust (s : State) : Host.Outcome State Fault Refusal := serve 0x75 opIntentTrust s

/-- INTENT_STATUS (opcode 0x76, R460). -/
def execIntentStatus (s : State) : Host.Outcome State Fault Refusal := serve 0x76 opIntentStatus s

/-- COUPLE_CONFIG (opcode 0x77, R460). -/
def execCoupleConfig (s : State) : Host.Outcome State Fault Refusal := serve 0x77 opCoupleConfig s

/-- COUPLE_CMD (opcode 0x78, R460). -/
def execCoupleCmd (s : State) : Host.Outcome State Fault Refusal := serve 0x78 opCoupleCmd s

/-- COUPLE_STATUS (opcode 0x79, R460). -/
def execCoupleStatus (s : State) : Host.Outcome State Fault Refusal := serve 0x79 opCoupleStatus s

/-- TELE_LAST (opcode 0x80, R460). -/
def execTeleLast (s : State) : Host.Outcome State Fault Refusal := serve 0x80 opTeleLast s

/-- TELE_CONFIG (opcode 0x81, R460). -/
def execTeleConfig (s : State) : Host.Outcome State Fault Refusal := serve 0x81 opTeleConfig s

/-- TELE_CTL (opcode 0x82, R460). -/
def execTeleCtl (s : State) : Host.Outcome State Fault Refusal := serve 0x82 opTeleCtl s

/-- TELE_OWN (opcode 0x83, R460). -/
def execTeleOwn (s : State) : Host.Outcome State Fault Refusal := serve 0x83 opTeleOwn s

/-- RAIL_READINGS (opcode 0x84, R460). -/
def execRailReadings (s : State) : Host.Outcome State Fault Refusal := serve 0x84 opRailReadings s

/-- TIME_GET (opcode 0x90, R460). -/
def execTimeGet (s : State) : Host.Outcome State Fault Refusal := serve 0x90 opTimeGet s

/-- RTC_SET (opcode 0x91, R460). -/
def execRtcSet (s : State) : Host.Outcome State Fault Refusal := serveHeld 0x91 opRtcSet longRtc s

/-- METER_READ (opcode 0x92, R460). -/
def execMeterRead (s : State) : Host.Outcome State Fault Refusal := serve 0x92 opMeterRead s

/-- BILLING_READ (opcode 0x93, R460). -/
def execBillingRead (s : State) : Host.Outcome State Fault Refusal := serve 0x93 opBillingRead s

/-- LIFE_STAGE (opcode 0x94, R460). -/
def execLifeStage (s : State) : Host.Outcome State Fault Refusal := serve 0x94 opLifeStage s

/-- LIFE_DEVICE (opcode 0x95, R460). -/
def execLifeDevice (s : State) : Host.Outcome State Fault Refusal := serve 0x95 opLifeDevice s

/-- LOG_READ (opcode 0x96, R460). -/
def execLogRead (s : State) : Host.Outcome State Fault Refusal := serve 0x96 opLogRead s

/-- LIFE_FLUSH (opcode 0x97, R460). -/
def execLifeFlush (s : State) : Host.Outcome State Fault Refusal := serve 0x97 opLifeFlush s

/-- FW_INFO (opcode 0xA0, R460). -/
def execFwInfo (s : State) : Host.Outcome State Fault Refusal := serve 0xA0 opFwInfo s

/-- FW_BEGIN (opcode 0xA1, R460). -/
def execFwBegin (s : State) : Host.Outcome State Fault Refusal := serve 0xA1 opFwBegin s

/-- FW_WRITE (opcode 0xA2, R460). -/
def execFwWrite (s : State) : Host.Outcome State Fault Refusal := serve 0xA2 opFwWrite s

/-- FW_VERIFY (opcode 0xA3, R460). -/
def execFwVerify (s : State) : Host.Outcome State Fault Refusal := serve 0xA3 opFwVerify s

/-- FW_SWAP (opcode 0xA4, R460). -/
def execFwSwap (s : State) : Host.Outcome State Fault Refusal := serve 0xA4 opFwSwap s

/-- FW_ABORT (opcode 0xA5, R460). -/
def execFwAbort (s : State) : Host.Outcome State Fault Refusal := serve 0xA5 opFwAbort s

/-- PART_INFO (opcode 0xB0, R460). -/
def execPartInfo (s : State) : Host.Outcome State Fault Refusal := serve 0xB0 opPartInfo s

/-- REFLOG_READ (opcode 0xB1, R460). -/
def execReflogRead (s : State) : Host.Outcome State Fault Refusal := serve 0xB1 opReflogRead s

/-- CORE_ASSIGN (opcode 0xB2, R460). -/
def execCoreAssign (s : State) : Host.Outcome State Fault Refusal := serve 0xB2 opCoreAssign s

/-- CORE_CTL (opcode 0xB3, R460). -/
def execCoreCtl (s : State) : Host.Outcome State Fault Refusal := serve 0xB3 opCoreCtl s

/-- IMAGE_LOAD (opcode 0xB4, R460). -/
def execImageLoad (s : State) : Host.Outcome State Fault Refusal := serve 0xB4 opImageLoad s

/-- GROVE_LEAD (opcode 0xB5, R460). -/
def execGroveLead (s : State) : Host.Outcome State Fault Refusal := serve 0xB5 opGroveLead s

/-- GROVE_BANKS (opcode 0xB6, R460). -/
def execGroveBanks (s : State) : Host.Outcome State Fault Refusal := serve 0xB6 opGroveBanks s

/-- GROVE_INSTALL (opcode 0xB7, R460). -/
def execGroveInstall (s : State) : Host.Outcome State Fault Refusal := serve 0xB7 opGroveInstall s

/-- GROVE_STD (opcode 0xB8, R460). -/
def execGroveStd (s : State) : Host.Outcome State Fault Refusal := serve 0xB8 opGroveStd s

/-- GROVE_TASK (opcode 0xB9, R460). -/
def execGroveTask (s : State) : Host.Outcome State Fault Refusal := serve 0xB9 opGroveTask s

/-- RES_ASSIGN (opcode 0xBA, R460). -/
def execResAssign (s : State) : Host.Outcome State Fault Refusal := serve 0xBA opResAssign s

/-- FUSE_OP (opcode 0xBB, R460). -/
def execFuseOp (s : State) : Host.Outcome State Fault Refusal := serve 0xBB opFuseOp s

end Sys2Proof.Machine
end

