-- ==== Sys2Proof/Machine/Avs.lean ====
section
/-! DEFINITION. The AVSBus port (spec/09, R364, R365). Units and the acknowledgement are those of AVSBus
(notes/assumptions/55.md). -/

namespace Sys2Proof.Machine

/-- Whether frames reach the port: it is enabled, and the pads of its clock and MDATA are its own (R684, R689). -/
def avsRuns (d : Dev) : Bool :=
  domOn d 0 && d.on IG_AVS_CFG_EN
    && [8, 9].all fun i => d.f PX_GCFG_FUNC i == 5 && !d.on PX_GCFG_HB i && padBank d i && !d.on PD_DSTAT_HELD 0

/-- The CRC of the 29 bits of a subframe before it: x^3 + x + 1, from 0 (PRESUMED, notes/assumptions/55.md). -/
def avsCrc (w : Nat) : Nat :=
  (List.range 29).foldl (fun r i =>
    let top := (r / 4 + w / 2 ^ (28 - i)) % 2
    (r * 2 % 8) ^^^ (if top = 1 then 3 else 0)) 0

/-- The subframe of an answer, most significant byte first: the acknowledgement (0 action taken, 1 a good frame with no action
taken, 2 a bad CRC), a 0, five status bits, the data, five ones and the CRC (PRESUMED, notes/assumptions/55.md). -/
def avsBytes (ack stat data : Nat) : List Nat :=
  let w := ((ack * 64 + stat) * 65536 + data) * 32 + 31
  (leBytes 4 (w * 8 + avsCrc w)).reverse

/-- The port answers a frame (R364, IG_AVS_STAT.FRAMES). The first status bit says that the output of the select's rail has
reached its target; the others, and the data of an answer to no read, the spec does not state: they are free. -/
def avsAnswer (d : Dev) (ack : Nat) (data : Option Int) (k : Option Nat) : Dev :=
  let (v, d) := d.free
  let stat := match k with
    | some k => v % 16 + (if d.h .refFrac k = refTarget d k then 16 else 0)
    | none => v % 32
  let word := match data with
    | some x => (x % 65536).toNat
    | none => v / 32 % 65536
  { (d.incSat IG_AVS_STAT_FRAMES) with portOut := avsBytes ack stat word }

/-- The rail of a select, where one is mapped (IG_AVS_MAP). -/
def avsRail (d : Dev) (sel : Nat) : Option Nat :=
  if (d.f IG_AVS_CFG_VALID).testBit sel then some (bitsOf (d.r IG_AVS_MAP) (4 * sel) 4) else none

/-- A supported frame: on an unmapped select, or a rail whose registers are off (R517), no action is taken. -/
def avsFrame (s : State) (sel : Nat) (g : Nat → State → State) : State :=
  if !avsRuns s.dev then s
  else match avsRail s.dev sel with
    | none => s.onDev fun d => avsAnswer (d.set1 IG_DCAUSE_AVS_SEL) 1 none none
    | some k =>
      if regPowered s.dev FL_REF k then g k s else s.onDev fun d => avsAnswer (d.set1 PD_CAUSE_OFF_ACC) 1 none none

/-- A write with the rights of PART (R365): refused unless PART owns the rail, unsealed (R392, R399), and `ok` holds. -/
def avsWrite (R : Reg) (F : Fld) (v : Dev → Nat → Int × Dev) (ok : Dev → Nat → Int → Bool) (k : Nat) (s : State) : State :=
  let (x, d) := v s.dev k
  let s : State := { s with dev := d }
  if railOwner s.dev k = (s.dev.f IG_AVS_CFG_PART, false) && ok s.dev k x then
    match regAt (R.addr k) with
    | some (row, i) =>
      let w := putBits (present s.dev R k) F.lo F.n x
      (regWrite s (.packet (Fin.ofNat 8 (s.dev.f IG_AVS_CFG_PART)) 0) row i w).onDev fun d => avsAnswer d 0 none (some k)
    | none => s
  else s.onDev fun d => avsAnswer (d.set1 IG_DCAUSE_AVS_REF) 1 none (some k)

/-- A read of a 16-bit word. -/
def avsRead (v : Dev → Nat → Int × Dev) (k : Nat) (s : State) : State :=
  s.onDev fun d => let (x, d) := v d k; avsAnswer d 0 (some x) (some k)

/-- A voltage in mV as a target in DAC LSB, and back (IG_COUT.VDIV, FL_REF.TGT). -/
def avsTarget (d : Dev) (k mv : Nat) : Int := roundDiv (mv * 16384 : Nat) (100 * d.f IG_COUT_VDIV k : Nat)
def avsMv (d : Dev) (k : Nat) : Int := roundDiv (d.f FL_REF_TGT k * d.f IG_COUT_VDIV k * 100 : Nat) 16384

/-- A rate in mV/µs as FL_RAMP.SLEW, and back. -/
def avsSlew (d : Dev) (k rate : Nat) : Int := roundDiv (rate * 2097152 : Nat) (1000 * d.f IG_COUT_VDIV k : Nat)
def avsRate (d : Dev) (k : Nat) : Int := min 255 (roundDiv (d.f FL_RAMP_SLEW k * d.f IG_COUT_VDIV k * 1000 : Nat) 2097152)

/-- AVS_VOLTAGE_WRITE (R365). -/
def execAvsVoltageWrite (sel : Fin 8) (data : BitVec 16) (s : State) : Host.Outcome State Fault Refusal :=
  .next <| avsFrame s sel <| avsWrite FL_REF FL_REF_TGT (fun d k => (avsTarget d k data.toNat, d))
    fun d k t => decide ((d.f IG_AVSWIN_MIN k : Int) ≤ t) && decide (t ≤ d.f IG_AVSWIN_MAX k)

/-- AVS_VOLTAGE_READ (R364). -/
def execAvsVoltageRead (sel : Fin 8) (s : State) : Host.Outcome State Fault Refusal :=
  .next <| avsFrame s sel <| avsRead fun d k => (usat (avsMv d k) 16, d)

/-- AVS_RATE_WRITE (R365). There is one slew: where the rise and the fall rate differ the spec does not say which one it
takes, and the value is free (notes/assumptions/2.md). A rate that gives the reserved SLEW of 0 takes no action
(notes/assumptions/55.md). -/
def execAvsRateWrite (sel : Fin 8) (data : BitVec 16) (s : State) : Host.Outcome State Fault Refusal :=
  .next <| avsFrame s sel <| avsWrite FL_RAMP FL_RAMP_SLEW
    (fun d k =>
      let up := data.toNat / 256
      if up = data.toNat % 256 then (usat (avsSlew d k up) 16, d) else let (v, d) := d.free; ((v % 65536 : Nat), d))
    fun _ _ x => x != 0

/-- AVS_RATE_READ (R364): the slew as both rates. -/
def execAvsRateRead (sel : Fin 8) (s : State) : Host.Outcome State Fault Refusal :=
  .next <| avsFrame s sel <| avsRead fun d k => (avsRate d k * 257, d)

/-- AVS_CURRENT_READ (R364), in 10 mA. -/
def execAvsCurrentRead (sel : Fin 8) (s : State) : Host.Outcome State Fault Refusal :=
  .next <| avsFrame s sel <| avsRead fun d k => (sat (d.fi FL_ISUM_ISUM k * 25) 16, d)

/-- AVS_TEMPERATURE_READ (R364), of the rail's hottest stage, in 0.1 °C. -/
def execAvsTemperatureRead (sel : Fin 8) (s : State) : Host.Outcome State Fault Refusal :=
  .next <| avsFrame s sel <| avsRead fun d k => let (t, d) := hottest d k; (t * 10 / 16, d)

/-- AVS_STATUS_READ (R364): bit 15 says that the output has reached its target; what the device makes of the other bits
the spec does not say (notes/assumptions/2.md). -/
def execAvsStatusRead (sel : Fin 8) (s : State) : Host.Outcome State Fault Refusal :=
  .next <| avsFrame s sel <| avsRead fun d k =>
    let (v, d) := d.free
    (((v % 32768 + (if d.h .refFrac k = refTarget d k then 32768 else 0) : Nat) : Int), d)

/-- AVS_UNSUPPORTED_FRAME (R364). -/
def execAvsUnsupportedFrame (badCrc : Bool) (s : State) : Host.Outcome State Fault Refusal :=
  s.ok fun d => d.when (avsRuns d) fun d =>
    if badCrc then avsAnswer ((d.set1 IG_DCAUSE_AVS_CRC).incSat IG_AVS_STAT_CRC) 2 none none
    else avsAnswer (d.set1 IG_DCAUSE_AVS_SEL) 1 none none

end Sys2Proof.Machine
end

