-- ==== Sys2Proof/Machine/Cycle.lean ====
section
/-! DEFINITION. One edge of the loop clock, and a commit point: what every block does in it (spec/02, R43 to R73, R77, R78;
spec/03, R86, R101; spec/04, R154 to R158; spec/06, R232; spec/09, R357, R358). -/

namespace Sys2Proof.Machine

/-- Rail time advances by 32 taps and wraps at 2H (R86). -/
def timeStep (d : Dev) (k : Nat) : Dev :=
  let p := 2 * domH d k
  if p = 0 then d else d.setH .railTime k ((d.h .railTime k + 32) % p)

/-- The group integrator of a master whose loop runs, on the error just formed, and what rail k adds to ffd from the next
cycle on (R357, R358). -/
def groupStep (d : Dev) (k : Nat) : Dev :=
  let s := cplShift d k
  let r := cplRole d k
  let d := if r = cplMaster && flMode d k != flOff && !d.on FL_STATUS_INT_HOLD k then
      d.setH .cCi k (clampI (sat (d.h .cCi k + asr (d.fi IG_CPL_KI_KI k * d.fi FL_ERR_X k) 6) 40)
        (d.a FL_ILIM_IMIN k * 2 ^ s) (d.a FL_ILIM_IMAX k * 2 ^ s))
    else d
  let ci := if r = cplMaster then asr (d.h .cCi k) s else d.h .cCi k
  d.setH .cTerm k (if d.on IG_CPL_EN k && (r = cplMaster || r = cplMember) then ci - d.f FL_IPRE_D k + d.h .cDt k else 0)

/-- One LCLK cycle of rail k; its summed current counts towards the tick's average (R276). -/
def railCycle (d : Dev) (k : Nat) (v : Int) : Dev :=
  let d := ffShow (loadAcc (loopCycle d k v) k) k
  groupStep ((d.setH .tkSum k (d.h .tkSum k + d.fi FL_ISUM_ISUM k)).setH .tkCnt k (d.h .tkCnt k + 1)) k

/-- The current converters of a phase sample at every fourth edge (R101), and its comparators at every edge (R232); a mean of
R106 that is available now reaches IAVG first. -/
def phaseCycle (d : Dev) (n : Nat) (cs : List (Nat × Int)) : Dev :=
  if !domOn d (5 + n / 16) then d
  else
    let d := avgArrive d n
    let d := match cs.find? fun c => c.1 == n with
      | some c => if d.now % 4 = 0 then phSample d n c.2 else d
      | none => d
    phComps d n

/-- One edge of LCLK. A rail without a commit point leaves the frozen state and applies a coupling epoch here (R74, R82;
notes/assumptions/62.md). The time base counts it but between LCLK's return and the load of the held count (R535, R536). -/
def lclkEdge (d : Dev) (iin : Nat) (vs cs : List (Nat × Int)) : Dev :=
  let d := gatesTaken d
  let d : Dev := if d.hon .tbWait then d else { d with tb := d.tb + 1 }
  let d := d.each 17 timeStep
  let d := d.each 64 fun d n => phaseCycle d n cs
  let d := d.each 16 fun d k =>
    match vs.find? fun x => x.1 == k with
    | some x => if domOn d (5 + k / 4) then railCycle d k x.2 else d
    | none => d
  let d := intSnapStep (setWatch (capCycle (devComps d iin)))
  let d := d.each 16 fun d k => if (leadOf d k).isNone then epochApply (unfreeze d k true) k else d
  laneSlots (fbPins d)

/-- A commit point of rail k: the fast loop's part, the tick of its lead grove, the sequencer's, the coupling's and the
capture units'. -/
def commitPoint (d : Dev) (k : Nat) : Dev :=
  let d := (commitLoop d k).setH .commitAt k (d.now + 1)
  let d := match d.leadGrove k with
    | some g => d.gvTrig g 1 k
    | none => d
  capCommit (cplCommit (commitRail d k) k) k

/-- LOOP_SAMPLE (R43). The conversions of a domain that is off count for nothing. -/
def execLoopSample (iin : Nat) (vs : List (Rail × Int)) (cs : List (Phase × Int)) (s : State) :
    Host.Outcome State Fault Refusal :=
  s.ok fun d => d.when (domOn d 0) fun d =>
    lclkEdge d iin (vs.map fun x => (x.1.val, x.2)) (cs.map fun c => (c.1.val, c.2))

/-- COMMIT_POINT (R72): the lead phase of rail k reaches its valley in this LCLK cycle. -/
def execCommitPoint (k : Rail) (s : State) : Host.Outcome State Fault Refusal :=
  s.ok fun d => match leadOf d k with
    | some n => d.when ((valleyDue d n).isSome && d.h .commitAt k != d.now + 1) fun d => commitPoint d k
    | none => d

end Sys2Proof.Machine
end

