-- ==== Sys2Proof/Machine/IsaAlu.lean ====
section
/-! DEFINITION. The arithmetic and logic instructions (spec/16, R573, R574, R579). -/

namespace Sys2Proof.Machine

/-- ADD (R574): rt = ra + rb. -/
def execAdd (cpu : Cpu) (rt ra rb : GReg) (sf : Bool) (s : State) : Host.Outcome State Fault Refusal :=
  regIns cpu rt sf s fun d => add33 (gOf d cpu ra) (gOf d cpu rb) false

/-- SUB (R574): rt = ra − rb. -/
def execSub (cpu : Cpu) (rt ra rb : GReg) (sf : Bool) (s : State) : Host.Outcome State Fault Refusal :=
  regIns cpu rt sf s fun d => sub33 (gOf d cpu ra) (gOf d cpu rb) true

/-- ADC (R574): rt = ra + rb + C. -/
def execAdc (cpu : Cpu) (rt ra rb : GReg) (sf : Bool) (s : State) : Host.Outcome State Fault Refusal :=
  regIns cpu rt sf s fun d => add33 (gOf d cpu ra) (gOf d cpu rb) (cpuFlags d cpu).c

/-- SBC (R574): rt = ra − rb − 1 + C. -/
def execSbc (cpu : Cpu) (rt ra rb : GReg) (sf : Bool) (s : State) : Host.Outcome State Fault Refusal :=
  regIns cpu rt sf s fun d => sub33 (gOf d cpu ra) (gOf d cpu rb) (cpuFlags d cpu).c

/-- AND (R574). -/
def execAnd (cpu : Cpu) (rt ra rb : GReg) (sf : Bool) (s : State) : Host.Outcome State Fault Refusal :=
  regIns cpu rt sf s fun d => nz (cpuFlags d cpu) (gOf d cpu ra &&& gOf d cpu rb)

/-- OR (R574). -/
def execOr (cpu : Cpu) (rt ra rb : GReg) (sf : Bool) (s : State) : Host.Outcome State Fault Refusal :=
  regIns cpu rt sf s fun d => nz (cpuFlags d cpu) (gOf d cpu ra ||| gOf d cpu rb)

/-- XOR (R574). -/
def execXor (cpu : Cpu) (rt ra rb : GReg) (sf : Bool) (s : State) : Host.Outcome State Fault Refusal :=
  regIns cpu rt sf s fun d => nz (cpuFlags d cpu) (gOf d cpu ra ^^^ gOf d cpu rb)

/-- ANDN (R574): rt = ra & ~rb. -/
def execAndn (cpu : Cpu) (rt ra rb : GReg) (sf : Bool) (s : State) : Host.Outcome State Fault Refusal :=
  regIns cpu rt sf s fun d => nz (cpuFlags d cpu) (gOf d cpu ra &&& ~~~gOf d cpu rb)

/-- SHL (R574), by bits [4:0] of rb. -/
def execShl (cpu : Cpu) (rt ra rb : GReg) (sf : Bool) (s : State) : Host.Outcome State Fault Refusal :=
  regIns cpu rt sf s fun d => nz (cpuFlags d cpu) (gOf d cpu ra <<< ((gOf d cpu rb).toNat % 32))

/-- SHR (R574), by bits [4:0] of rb. -/
def execShr (cpu : Cpu) (rt ra rb : GReg) (sf : Bool) (s : State) : Host.Outcome State Fault Refusal :=
  regIns cpu rt sf s fun d => nz (cpuFlags d cpu) (gOf d cpu ra >>> ((gOf d cpu rb).toNat % 32))

/-- SAR (R574), by bits [4:0] of rb. -/
def execSar (cpu : Cpu) (rt ra rb : GReg) (sf : Bool) (s : State) : Host.Outcome State Fault Refusal :=
  regIns cpu rt sf s fun d => nz (cpuFlags d cpu) ((gOf d cpu ra).sshiftRight ((gOf d cpu rb).toNat % 32))

/-- ROR (R574), by bits [4:0] of rb. -/
def execRor (cpu : Cpu) (rt ra rb : GReg) (sf : Bool) (s : State) : Host.Outcome State Fault Refusal :=
  regIns cpu rt sf s fun d => nz (cpuFlags d cpu) ((gOf d cpu ra).rotateRight ((gOf d cpu rb).toNat % 32))

/-- SHLI (R574), by the rb field. -/
def execShli (cpu : Cpu) (rt ra sh : GReg) (sf : Bool) (s : State) : Host.Outcome State Fault Refusal :=
  regIns cpu rt sf s fun d => nz (cpuFlags d cpu) (gOf d cpu ra <<< sh.val)

/-- SHRI (R574), by the rb field. -/
def execShri (cpu : Cpu) (rt ra sh : GReg) (sf : Bool) (s : State) : Host.Outcome State Fault Refusal :=
  regIns cpu rt sf s fun d => nz (cpuFlags d cpu) (gOf d cpu ra >>> sh.val)

/-- SARI (R574), by the rb field. -/
def execSari (cpu : Cpu) (rt ra sh : GReg) (sf : Bool) (s : State) : Host.Outcome State Fault Refusal :=
  regIns cpu rt sf s fun d => nz (cpuFlags d cpu) ((gOf d cpu ra).sshiftRight sh.val)

/-- RORI (R574), by the rb field. -/
def execRori (cpu : Cpu) (rt ra sh : GReg) (sf : Bool) (s : State) : Host.Outcome State Fault Refusal :=
  regIns cpu rt sf s fun d => nz (cpuFlags d cpu) ((gOf d cpu ra).rotateRight sh.val)

/-- MIN (R574), signed. -/
def execMin (cpu : Cpu) (rt ra rb : GReg) (sf : Bool) (s : State) : Host.Outcome State Fault Refusal :=
  regIns cpu rt sf s fun d => nz (cpuFlags d cpu) (if (gOf d cpu ra).slt (gOf d cpu rb) then gOf d cpu ra else gOf d cpu rb)

/-- MAX (R574), signed. -/
def execMax (cpu : Cpu) (rt ra rb : GReg) (sf : Bool) (s : State) : Host.Outcome State Fault Refusal :=
  regIns cpu rt sf s fun d => nz (cpuFlags d cpu) (if (gOf d cpu rb).slt (gOf d cpu ra) then gOf d cpu ra else gOf d cpu rb)

/-- MINU (R574). -/
def execMinu (cpu : Cpu) (rt ra rb : GReg) (sf : Bool) (s : State) : Host.Outcome State Fault Refusal :=
  regIns cpu rt sf s fun d => nz (cpuFlags d cpu) (if (gOf d cpu ra) < (gOf d cpu rb) then gOf d cpu ra else gOf d cpu rb)

/-- MAXU (R574). -/
def execMaxu (cpu : Cpu) (rt ra rb : GReg) (sf : Bool) (s : State) : Host.Outcome State Fault Refusal :=
  regIns cpu rt sf s fun d => nz (cpuFlags d cpu) (if (gOf d cpu rb) < (gOf d cpu ra) then gOf d cpu ra else gOf d cpu rb)

/-- CLZ (R574): leading zero bits. -/
def execClz (cpu : Cpu) (rt ra : GReg) (sf : Bool) (s : State) : Host.Outcome State Fault Refusal :=
  regIns cpu rt sf s fun d => nz (cpuFlags d cpu) (BitVec.ofNat 32 (clz32 (gOf d cpu ra)))

/-- CLS (R574): bits after bit 31 equal to it. -/
def execCls (cpu : Cpu) (rt ra : GReg) (sf : Bool) (s : State) : Host.Outcome State Fault Refusal :=
  regIns cpu rt sf s fun d => nz (cpuFlags d cpu) (BitVec.ofNat 32 (cls32 (gOf d cpu ra)))

/-- POPC (R574): number of 1 bits. -/
def execPopc (cpu : Cpu) (rt ra : GReg) (sf : Bool) (s : State) : Host.Outcome State Fault Refusal :=
  regIns cpu rt sf s fun d => nz (cpuFlags d cpu) (BitVec.ofNat 32 (popcount 32 (gOf d cpu ra).toNat))

/-- REV (R574): bytes in reverse order. -/
def execRev (cpu : Cpu) (rt ra : GReg) (sf : Bool) (s : State) : Host.Outcome State Fault Refusal :=
  regIns cpu rt sf s fun d => nz (cpuFlags d cpu) (rev32 (gOf d cpu ra))

/-- PERMR (R574, R579); it writes no flag, whatever S holds. -/
def execPermr (cpu : Cpu) (rt ra rb : GReg) (_sf : Bool) (s : State) : Host.Outcome State Fault Refusal :=
  regIns cpu rt false s fun d => nz (cpuFlags d cpu) (perm (gOf d cpu ra) (gOf d cpu rt) (bitsOf (gOf d cpu rb) 0 16))

/-- ABS (R574), saturating. -/
def execAbs (cpu : Cpu) (rt ra : GReg) (sf : Bool) (s : State) : Host.Outcome State Fault Refusal :=
  regIns cpu rt sf s fun d => satNzv (cpuFlags d cpu) |(gOf d cpu ra).toInt|

/-- ADDS (R574), saturating. -/
def execAdds (cpu : Cpu) (rt ra rb : GReg) (sf : Bool) (s : State) : Host.Outcome State Fault Refusal :=
  regIns cpu rt sf s fun d => satNzv (cpuFlags d cpu) ((gOf d cpu ra).toInt + (gOf d cpu rb).toInt)

/-- SUBS (R574), saturating. -/
def execSubs (cpu : Cpu) (rt ra rb : GReg) (sf : Bool) (s : State) : Host.Outcome State Fault Refusal :=
  regIns cpu rt sf s fun d => satNzv (cpuFlags d cpu) ((gOf d cpu ra).toInt - (gOf d cpu rb).toInt)

end Sys2Proof.Machine
end

