-- ==== Sys2Proof/Machine/IsaImm.lean ====
section
/-! DEFINITION. Multiply, divide, fixed point, bit fields, byte permute and the immediate instructions (spec/16, R575 to R580). -/

namespace Sys2Proof.Machine

/-- MUL (R575). -/
def execMul (cpu : Cpu) (rt ra rb : GReg) (sf : Bool) (s : State) : Host.Outcome State Fault Refusal :=
  regIns cpu rt sf s fun d => nzv (cpuFlags d cpu) ((gOf d cpu ra) * (gOf d cpu rb)) false

/-- MULHS (R575): bits [63:32] of the signed product. -/
def execMulhs (cpu : Cpu) (rt ra rb : GReg) (sf : Bool) (s : State) : Host.Outcome State Fault Refusal :=
  regIns cpu rt sf s fun d => nzv (cpuFlags d cpu) (BitVec.ofInt 32 ((gOf d cpu ra).toInt * (gOf d cpu rb).toInt / 2 ^ 32)) false

/-- MULHU (R575): bits [63:32] of the unsigned product. -/
def execMulhu (cpu : Cpu) (rt ra rb : GReg) (sf : Bool) (s : State) : Host.Outcome State Fault Refusal :=
  regIns cpu rt sf s fun d => nzv (cpuFlags d cpu) (BitVec.ofNat 32 ((gOf d cpu ra).toNat * (gOf d cpu rb).toNat / 2 ^ 32)) false

/-- The divides (R575, R576); an engine has none (R588). -/
def divIns (cpu : Cpu) (rt ra rb : GReg) (sf signed quot : Bool) (s : State) : Host.Outcome State Fault Refusal :=
  if cpuKind cpu = .engine then runIns cpu s illegal
  else regIns cpu rt sf s fun d =>
    let x := divide signed (gOf d cpu ra) (gOf d cpu rb)
    nzv (cpuFlags d cpu) (if quot then x.1 else x.2.1) x.2.2

/-- DIV (R576). -/
def execDiv (cpu : Cpu) (rt ra rb : GReg) (sf : Bool) (s : State) : Host.Outcome State Fault Refusal :=
  divIns cpu rt ra rb sf true true s

/-- DIVU (R576). -/
def execDivu (cpu : Cpu) (rt ra rb : GReg) (sf : Bool) (s : State) : Host.Outcome State Fault Refusal :=
  divIns cpu rt ra rb sf false true s

/-- REM (R576). -/
def execRem (cpu : Cpu) (rt ra rb : GReg) (sf : Bool) (s : State) : Host.Outcome State Fault Refusal :=
  divIns cpu rt ra rb sf true false s

/-- REMU (R576). -/
def execRemu (cpu : Cpu) (rt ra rb : GReg) (sf : Bool) (s : State) : Host.Outcome State Fault Refusal :=
  divIns cpu rt ra rb sf false false s

/-- MULQ (R577). -/
def execMulq (cpu : Cpu) (rt ra rb : GReg) (sf u rnd : Bool) (sh : Fin 32) (s : State) : Host.Outcome State Fault Refusal :=
  regIns cpu rt sf s fun d => fixedPoint (cpuFlags d cpu) u false false rnd sh.val (gOf d cpu ra) (gOf d cpu rb) (gOf d cpu rt)

/-- MULQN (R577). -/
def execMulqn (cpu : Cpu) (rt ra rb : GReg) (sf u rnd : Bool) (sh : Fin 32) (s : State) : Host.Outcome State Fault Refusal :=
  regIns cpu rt sf s fun d => fixedPoint (cpuFlags d cpu) u false true rnd sh.val (gOf d cpu ra) (gOf d cpu rb) (gOf d cpu rt)

/-- MACQ (R577). -/
def execMacq (cpu : Cpu) (rt ra rb : GReg) (sf u rnd : Bool) (sh : Fin 32) (s : State) : Host.Outcome State Fault Refusal :=
  regIns cpu rt sf s fun d => fixedPoint (cpuFlags d cpu) u true false rnd sh.val (gOf d cpu ra) (gOf d cpu rb) (gOf d cpu rt)

/-- MSUQ (R577). -/
def execMsuq (cpu : Cpu) (rt ra rb : GReg) (sf u rnd : Bool) (sh : Fin 32) (s : State) : Host.Outcome State Fault Refusal :=
  regIns cpu rt sf s fun d => fixedPoint (cpuFlags d cpu) u true true rnd sh.val (gOf d cpu ra) (gOf d cpu rb) (gOf d cpu rt)

/-- A bit-field instruction: illegal where its field passes bit 31; it writes no flag (R578). -/
def bitField (cpu : Cpu) (rt : GReg) (pos wm1 : Fin 32) (s : State) (f : Dev → Word) : Host.Outcome State Fault Refusal :=
  if 31 < pos.val + wm1.val then runIns cpu s illegal else regIns cpu rt false s fun d => nz (cpuFlags d cpu) (f d)

/-- BFX (R578). -/
def execBfx (cpu : Cpu) (rt ra : GReg) (pos wm1 : Fin 32) (s : State) : Host.Outcome State Fault Refusal :=
  bitField cpu rt pos wm1 s fun d => BitVec.ofNat 32 (bfx (gOf d cpu ra) pos.val wm1.val)

/-- BFXS (R578). -/
def execBfxs (cpu : Cpu) (rt ra : GReg) (pos wm1 : Fin 32) (s : State) : Host.Outcome State Fault Refusal :=
  bitField cpu rt pos wm1 s fun d => bfxs (gOf d cpu ra) pos.val wm1.val

/-- BFI (R578). -/
def execBfi (cpu : Cpu) (rt ra : GReg) (pos wm1 : Fin 32) (s : State) : Host.Outcome State Fault Refusal :=
  bitField cpu rt pos wm1 s fun d => bfi (gOf d cpu rt) (gOf d cpu ra) pos.val wm1.val

/-- PERM (R579): a reserved code makes it illegal; it writes no flag. -/
def execPerm (cpu : Cpu) (rt ra : GReg) (imm : BitVec 16) (s : State) : Host.Outcome State Fault Refusal :=
  if permBad imm.toNat then runIns cpu s illegal
  else regIns cpu rt false s fun d => nz (cpuFlags d cpu) (perm (gOf d cpu ra) (gOf d cpu rt) imm.toNat)

/-- ADDI (R580); it writes no flag. -/
def execAddi (cpu : Cpu) (rt ra : GReg) (imm : BitVec 16) (s : State) : Host.Outcome State Fault Refusal :=
  regIns cpu rt false s fun d => add33 (gOf d cpu ra) (imm.signExtend 32) false

/-- ADDIS (R580): ADDI with the flags of R573. -/
def execAddis (cpu : Cpu) (rt ra : GReg) (imm : BitVec 16) (s : State) : Host.Outcome State Fault Refusal :=
  regIns cpu rt true s fun d => add33 (gOf d cpu ra) (imm.signExtend 32) false

/-- ANDI (R580), imm16 zero-extended; it writes no flag. -/
def execAndi (cpu : Cpu) (rt ra : GReg) (imm : BitVec 16) (s : State) : Host.Outcome State Fault Refusal :=
  regIns cpu rt false s fun d => nz (cpuFlags d cpu) (gOf d cpu ra &&& imm.zeroExtend 32)

/-- ORI (R580), imm16 zero-extended; it writes no flag. -/
def execOri (cpu : Cpu) (rt ra : GReg) (imm : BitVec 16) (s : State) : Host.Outcome State Fault Refusal :=
  regIns cpu rt false s fun d => nz (cpuFlags d cpu) (gOf d cpu ra ||| imm.zeroExtend 32)

/-- XORI (R580), imm16 zero-extended; it writes no flag. -/
def execXori (cpu : Cpu) (rt ra : GReg) (imm : BitVec 16) (s : State) : Host.Outcome State Fault Refusal :=
  regIns cpu rt false s fun d => nz (cpuFlags d cpu) (gOf d cpu ra ^^^ imm.zeroExtend 32)

/-- LUI (R580); it writes no flag. -/
def execLui (cpu : Cpu) (rt : GReg) (imm : BitVec 16) (s : State) : Host.Outcome State Fault Refusal :=
  regIns cpu rt false s fun d => nz (cpuFlags d cpu) (imm.zeroExtend 32 <<< 16)

/-- CMPI (R580): the flags of ra − imm16; it writes no register. -/
def execCmpi (cpu : Cpu) (ra : GReg) (imm : BitVec 16) (s : State) : Host.Outcome State Fault Refusal :=
  regIns cpu 0 true s fun d => sub33 (gOf d cpu ra) (imm.signExtend 32) true

end Sys2Proof.Machine
end

