-- ==== Sys2Proof/Machine/IsaMem.lean ====
section
/-! DEFINITION. Loads, stores, CAS, branches and jumps (spec/16, R581 to R585). -/

namespace Sys2Proof.Machine

/-- Base and length of modulo descriptor k (R569). -/
def modBase (d : Dev) (c : Nat) (k : Bool) : Word := d.cr c (if k then crMB1 else crMB0)
def modLen (d : Dev) (c : Nat) (k : Bool) : Word := d.cr c (if k then crML1 else crML0)

/-- The effective address of an access, and ra after it (R581). -/
def memEa (m : BitVec 16) (a : Word) : Word := if mAm m = 0 then a + BitVec.ofInt 32 (mD m) else a
def memNext (d : Dev) (c : Nat) (m : BitVec 16) (a : Word) (e : Nat) : Word :=
  let mb := modBase d c (mK m)
  let ml := modLen d c (mK m)
  match mAm m with
  | 1 => a + BitVec.ofInt 32 (mD m)
  | 2 => modnext a (mD m) mb ml
  | 3 => revnext a (mD m) mb ml e
  | _ => a

/-- Whether a load or store is illegal: its operands, or its bit-reversed addressing at execution (R582). -/
def memIllegal (d : Dev) (c : Nat) (load : Bool) (rt ra : GReg) (m : BitVec 16) (e : Nat) : Bool :=
  !mLegal load rt.val ra.val m.toNat || (mAm m == 3 && revBad (mD m) (modLen d c (mK m)) e)

/-- What a load or store does around its access (R581, R582, R587): `access` at the effective address, then ra. -/
def memIns (cpu : Cpu) (load : Bool) (rt ra : GReg) (m : BitVec 16) (e : Nat) (s : State)
    (access : State → Nat → MemRes) (keep : Dev → Nat → Dev) : Host.Outcome State Fault Refusal :=
  runIns cpu s fun s =>
    let c := cpuId cpu
    let a := gOf s.dev cpu ra
    let ea := (memEa m a).toNat
    let pc := pcNext s.dev cpu
    if memIllegal s.dev c load rt ra m e then illegal s
    else if ea % 2 ^ e ≠ 0 then .trap s { vec := 4, faddr := ea, write := !load }
    else match access s ea with
      | .trap s t => .trap s t
      | .final s => .final s
      | .ok v s => .done (s.onDev fun d =>
          let d := keep d v
          if mAm m = 0 then d else d.setG c ra.val (memNext d c m a e)) pc

/-- A load of 2^e bytes, sign-extended or not. -/
def loadIns (cpu : Cpu) (rt ra : GReg) (m : BitVec 16) (e : Nat) (signed : Bool) (s : State) :
    Host.Outcome State Fault Refusal :=
  memIns cpu true rt ra m e s (fun s a => dataLoad s cpu a (2 ^ e)) fun d v =>
    d.setG (cpuId cpu) rt.val (BitVec.ofInt 32 (if signed then sext v (8 * 2 ^ e) else v))

/-- A store of the low 2^e bytes of rt, as rt is before ra is updated. -/
def storeIns (cpu : Cpu) (rt ra : GReg) (m : BitVec 16) (e : Nat) (s : State) : Host.Outcome State Fault Refusal :=
  memIns cpu false rt ra m e s (fun s a => dataStore s cpu a (2 ^ e) (gOf s.dev cpu rt).toNat) fun d _ => d

/-- LDB (R581). -/
def execLdb (cpu : Cpu) (rt ra : GReg) (m : BitVec 16) (s : State) : Host.Outcome State Fault Refusal :=
  loadIns cpu rt ra m 0 true s

/-- LDBU (R581). -/
def execLdbu (cpu : Cpu) (rt ra : GReg) (m : BitVec 16) (s : State) : Host.Outcome State Fault Refusal :=
  loadIns cpu rt ra m 0 false s

/-- LDH (R581). -/
def execLdh (cpu : Cpu) (rt ra : GReg) (m : BitVec 16) (s : State) : Host.Outcome State Fault Refusal :=
  loadIns cpu rt ra m 1 true s

/-- LDHU (R581). -/
def execLdhu (cpu : Cpu) (rt ra : GReg) (m : BitVec 16) (s : State) : Host.Outcome State Fault Refusal :=
  loadIns cpu rt ra m 1 false s

/-- LDW (R581). -/
def execLdw (cpu : Cpu) (rt ra : GReg) (m : BitVec 16) (s : State) : Host.Outcome State Fault Refusal :=
  loadIns cpu rt ra m 2 false s

/-- STB (R581). -/
def execStb (cpu : Cpu) (rt ra : GReg) (m : BitVec 16) (s : State) : Host.Outcome State Fault Refusal :=
  storeIns cpu rt ra m 0 s

/-- STH (R581). -/
def execSth (cpu : Cpu) (rt ra : GReg) (m : BitVec 16) (s : State) : Host.Outcome State Fault Refusal :=
  storeIns cpu rt ra m 1 s

/-- STW (R581). -/
def execStw (cpu : Cpu) (rt ra : GReg) (m : BitVec 16) (s : State) : Host.Outcome State Fault Refusal :=
  storeIns cpu rt ra m 2 s

/-- The read and the write of CAS at a physical address (R583): main SRAM and AON SRAM only. -/
def casAt (s : State) (cpu : Cpu) (rt rb : GReg) (va pa : Nat) : Ins :=
  let c := cpuId cpu
  let pc := pcNext s.dev cpu
  let done (s : State) (old : Nat) (z : Bool) : Ins := .done (s.onDev fun d =>
    let d := d.setG c rt.val (BitVec.ofNat 32 old)
    d.setCr c crCS (withFlags (d.cr c crCS) { cpuFlags d cpu with z := z })) pc
  if (sramBank pa).isNone then .trap s { vec := 8, faddr := va }
  else match busLoad s (coreInit c) pa 4 with
    | (.ok old, s) =>
      if old = (gOf s.dev cpu rt).toNat then
        match busStore s (coreInit c) pa 4 (gOf s.dev cpu rb).toNat with
        | (.ok _, s) => done s old true
        | (_, s) => .trap s { vec := 8, faddr := va, write := true }
      else done s old false
    | (r, s) => .trap s ((resTrap r va false).getD { vec := 8 })

/-- CAS (R583, R599); an engine has none (R588). It writes Z alone, whatever its S bit. -/
def execCas (cpu : Cpu) (rt ra : GReg) (rb : GRegS) (s : State) : Host.Outcome State Fault Refusal :=
  runIns cpu s fun s =>
    let c := cpuId cpu
    let va := (gOf s.dev cpu ra).toNat
    if cpuKind cpu = .engine then illegal s
    else if va % 4 ≠ 0 then .trap s { vec := 4, faddr := va }
    else match cpuTranslate s c va (s.dev.level c) .cas with
      | .fault info s => .trap s { vec := 6, faddr := va, finfo := info, write := casWrite s c va }
      | .ok pa s => casAt (drainAll s c) cpu rt rb.reg va pa

/-! ### Branches and jumps (R584, R585) -/

/-- B (R584); condition 15 is reserved. -/
def execBcond (cpu : Cpu) (cond : Fin 16) (disp : BitVec 22) (s : State) : Host.Outcome State Fault Refusal :=
  runIns cpu s fun s =>
    if cond.val = 15 then illegal s
    else if condHolds cond.val (cpuFlags s.dev cpu) then .done s (s.dev.pc (cpuId cpu) + disp.signExtend 32 * 4)
    else .done s (pcNext s.dev cpu)

/-- JMP (R585). -/
def execJmp (cpu : Cpu) (disp : BitVec 26) (s : State) : Host.Outcome State Fault Refusal :=
  runIns cpu s fun s => .done s (s.dev.pc (cpuId cpu) + disp.signExtend 32 * 4)

/-- CALL (R585): the return address goes to g31. -/
def execCall (cpu : Cpu) (disp : BitVec 26) (s : State) : Host.Outcome State Fault Refusal :=
  runIns cpu s fun s =>
    .done (s.onDev fun d => d.setG (cpuId cpu) 31 (pcNext d cpu)) (s.dev.pc (cpuId cpu) + disp.signExtend 32 * 4)

/-- A jump to a register's value; a target that is not a word address raises its exception at the jump (R585). -/
def jumpTo (s : State) (t : Word) (f : Dev → Dev) : Ins :=
  if t.toNat % 4 ≠ 0 then .trap s { vec := 3, faddr := t.toNat } else .done (s.onDev f) t

/-- JR (R585): it has no result, so its S bit writes no flag. -/
def execJr (cpu : Cpu) (ra : GRegS) (s : State) : Host.Outcome State Fault Refusal :=
  runIns cpu s fun s => jumpTo s (gOf s.dev cpu ra.reg) fun d => d

/-- JALR (R585): ra is read before rt is written. With S set it writes N and Z from its result (R570, R573). -/
def execJalr (cpu : Cpu) (rt : GReg) (ra : GRegS) (s : State) : Host.Outcome State Fault Refusal :=
  runIns cpu s fun s => jumpTo s (gOf s.dev cpu ra.reg) fun d =>
    let x := nz (cpuFlags d cpu) (pcNext d cpu)
    let d := d.setG (cpuId cpu) rt.val x.1
    if ra.sf then d.setCr (cpuId cpu) crCS (withFlags (d.cr (cpuId cpu) crCS) x.2) else d

end Sys2Proof.Machine
end

