-- ==== Sys2Proof/Machine/IsaSys.lean ====
section
/-! DEFINITION. The system instructions, and what happens at a core beside its instructions: interrupts, the drain of the
store buffer, halts, line fills, walks, and words that are no instruction (spec/16, R567, R568, R586, R588; spec/17, R593
to R613; spec/18, R626 to R635). -/

namespace Sys2Proof.Machine

/-! ### Control registers (R567 to R569, R616, R617, R635) -/

/-- The level that a read, or a write, of a control register needs (R568, R635). -/
def crLevel (n : Nat) : Nat :=
  if n = 0 || n = 4 || (8 ≤ n && n ≤ 0xB) || (0x10 ≤ n && n ≤ 0x13) then 0
  else if 0x48 ≤ n then 2 else 1

/-- Bits of a control register that hold what is written; the others read 0. -/
def crMask (n : Nat) : Word :=
  if n = crTSP then 0xFFFFFFC0
  else if n = crVTB then 0xFFFFFC00
  else if n = crML0 || n = crML1 then 0x000FFFFF
  else if 0x20 ≤ n && n < 0x40 then (if n % 2 = 0 then 0xFFFFFF9F else 0xFFFFF000)
  else if n = crTCTL then 0x0000FF01
  else if n = crTCNT then 0
  else if n = crTINVP then 7
  else if 0x48 ≤ n then 0xFFFFF001
  else 0xFFFFFFFF

/-- CS after a write (R567): the flags; IM and PL as the kind and the level allow. -/
def csWrite (cpu : Cpu) (level : Nat) (old w : Word) : Word :=
  let x := putBits old 28 4 (bitsOf w 28 4 : Nat)
  match cpu with
  | .engine _ _ => x
  | .warden => putBits x 0 1 (bitsOf w 0 1 : Nat)
  | .core _ => if level = 0 then x else putBits x 0 3 (bitsOf w 0 3 : Nat)

/-- The value of a control register read, with what the read latches (R568). -/
def crRead (d : Dev) (cpu : Cpu) (n : Nat) : Word × Dev :=
  let c := cpuId cpu
  match n with
  | 0x004 => (BitVec.ofNat 32 c, d)
  | 0x005 => (if c < 4 then BitVec.ofNat 32 (partOf d c) else 8, d)
  | 0x010 => (BitVec.ofNat 32 (cycles d c), d.setCr c crCYCHI (BitVec.ofNat 32 (cycles d c / 2 ^ 32)))
  | 0x012 => (BitVec.ofNat 32 d.now, d.setCr c crTBHI (BitVec.ofNat 32 (d.now / 2 ^ 32)))
  | _ => (d.cr c n, d)

/-- MFCR (R568, R586). -/
def execMfcr (cpu : Cpu) (rt : GReg) (code : BitVec 10) (s : State) : Host.Outcome State Fault Refusal :=
  runIns cpu s fun s =>
    let n := code.toNat
    let pc := pcNext s.dev cpu
    if !crListed (cpuKind cpu) false n then illegal s
    else if s.dev.level (cpuId cpu) < crLevel n then .trap s { vec := 2 }
    else
      let (v, d) := crRead s.dev cpu n
      .done ({ s with dev := d.setG (cpuId cpu) rt.val v } : State) pc

/-- MTCR (R568, R586, R617). -/
def execMtcr (cpu : Cpu) (code : BitVec 10) (rt : GReg) (s : State) : Host.Outcome State Fault Refusal :=
  runIns cpu s fun s =>
    let n := code.toNat
    let c := cpuId cpu
    let w := gOf s.dev cpu rt
    let level := s.dev.level c
    if !crListed (cpuKind cpu) true n then illegal s
    else if 0x20 ≤ n && n < 0x40 && n % 2 = 0 && 20 ≤ bitsOf w 7 5 then illegal s
    else if level < crLevel n then .trap s { vec := 2 }
    else if n = crCS && cpuKind cpu = .app && level ≠ 0 && 2 ≤ bitsOf w 1 2 then .trap s { vec := 2 }
    else
      let v := if n = crCS then csWrite cpu level (s.dev.cr c crCS) w else w &&& crMask n
      .done (s.onDev fun d => d.setCr c n v) (pcNext s.dev cpu)

/-- rt takes IM, and IM its new value (R586). -/
def imIns (cpu : Cpu) (rt : GReg) (im : Bool) (s : State) : Host.Outcome State Fault Refusal :=
  runIns cpu s fun s => privileged s cpu
    (.done (s.onDev fun d =>
      let c := cpuId cpu
      (d.setG c rt.val (BitVec.ofNat 32 (b2n (d.im c)))).setCr c crCS (putBits (d.cr c crCS) 0 1 (b2i im)))
      (pcNext s.dev cpu))

/-- IMSET (R586). -/
def execImset (cpu : Cpu) (rt : GReg) (s : State) : Host.Outcome State Fault Refusal := imIns cpu rt true s

/-- IMCLR (R586). -/
def execImclr (cpu : Cpu) (rt : GReg) (s : State) : Host.Outcome State Fault Refusal := imIns cpu rt false s

/-! ### SYSCALL, BRK, WAIT, SYNC, ERET -/

/-- SYSCALL (R586, R608). -/
def execSyscall (cpu : Cpu) (code : BitVec 10) (s : State) : Host.Outcome State Fault Refusal :=
  runIns cpu s fun s =>
    if cpuKind cpu = .engine then illegal s else .trap s { vec := 12, finfo := code.toNat }

/-- BRK (R586, R608): a core that a debug session holds halts instead. -/
def execBrk (cpu : Cpu) (code : BitVec 10) (s : State) : Host.Outcome State Fault Refusal :=
  runIns cpu s fun s =>
    if cpuKind cpu = .engine then illegal s
    else if s.dev.hon .cDbg (cpuId cpu) then .final ((drainAll s (cpuId cpu)).onDev fun d => haltCore d (cpuId cpu))
    else .trap s { vec := 13, finfo := code.toNat }

/-- WAIT (R586): issue stops unless something is pending already. -/
def execWait (cpu : Cpu) (s : State) : Host.Outcome State Fault Refusal :=
  runIns cpu s fun s => privileged s cpu
    (.done (s.onDev fun d => if intPending d (cpuId cpu) then d else d.setH .cWait (cpuId cpu) 1) (pcNext s.dev cpu))

/-- Every write handed to a crossing into AON arrives (R601). -/
def aonSync (s : State) : State :=
  (List.range 5).foldl (fun s q => (List.range (aonFill s.dev q)).foldl (fun s _ => aonArrive s q) s) s

/-- The stores a SYNC waits for: the CPU's own, and after a TINV of the warden those of every core (R601, R633). -/
def syncDrain (s : State) (c : Nat) : State :=
  if c = 4 && s.dev.hon .cTinv 0 then
    (drainAll ((List.range 4).foldl drainAll s) 4).onDev fun d => d.setH .cTinv 0 0
  else drainAll s c

/-- SYNC (R601): a late store error pending at its end is taken there, whatever IM holds. -/
def execSync (cpu : Cpu) (s : State) : Host.Outcome State Fault Refusal :=
  runIns cpu s fun s =>
    if cpuKind cpu = .engine then illegal s
    else
      let c := cpuId cpu
      let pc := pcNext s.dev cpu
      let s := (aonSync (syncDrain s c)).onDev fun d => bufDrop d c
      if s.dev.hon .cLate c then .final (enterLate s c pc.toNat false) else .done s pc

/-- The words of the task-state block that ERET reads: PC, CS, MB0 to ML1, g1 to g31 (R610, R611). -/
def eretOffs : List Nat := [0x00, 0x04, 0x14, 0x18, 0x1C, 0x20] ++ (List.range 31).map fun i => 0x40 + 4 * i

/-- Words read in order; the exception of the first read that fails. -/
def eretLoads (s : State) (c : Nat) : List Nat → (Trap × State) ⊕ (List Nat × State)
  | [] => .inr ([], s)
  | a :: t =>
    match cpuTranslate s c a (s.dev.level c) .load with
    | .fault info s => .inl ({ vec := 6, faddr := a, finfo := info }, s)
    | .ok pa s =>
      match coreLoad s c pa 4 with
      | (.ok v, s) =>
        match eretLoads s c t with
        | .inr (l, s) => .inr (v :: l, s)
        | .inl x => .inl x
      | (r, s) => .inl ((resTrap r a false).getD { vec := 8 }, s)

/-- The state of core c from the 37 words of its block (R610). -/
def eretRestore (d : Dev) (cpu : Cpu) (l : List Nat) : Dev :=
  let c := cpuId cpu
  let w (i : Nat) : Word := BitVec.ofNat 32 ((l[i]?).getD 0)
  let d := d.each 31 fun d i => d.setG c (i + 1) (w (6 + i))
  let d := ((d.setCr c crMB0 (w 2)).setCr c crML0 (w 3 &&& crMask crML0)).setCr c crMB1 (w 4)
  let d := d.setCr c crML1 (w 5 &&& crMask crML1)
  (d.setCr c crCS (csWrite cpu 1 (d.cr c crCS) (w 1))).setPc c (w 0)

/-- ERET (R610): RETURNING FROM AN EXCEPTION. -/
def execEret (cpu : Cpu) (s : State) : Host.Outcome State Fault Refusal :=
  runIns cpu s fun s => privileged s cpu <|
    let c := cpuId cpu
    let s := drainAll s c
    match eretLoads s c (eretOffs.map fun o => (s.dev.cr c crTSP).toNat + o) with
    | .inl (t, s) => .trap s t
    | .inr (l, s) =>
      if c < 4 && 2 ≤ bitsOf (BitVec.ofNat 32 ((l[1]?).getD 0)) 1 2 then .trap s { vec := 2 }
      else .final (s.onDev fun d => eretRestore d cpu l)

/-! ### TINV (R631 to R633) -/

/-- Entries of the TLBs that `p` names are invalidated; the warden's reach every core, and its next SYNC waits. -/
def tinvIns (cpu : Cpu) (s : State) (p : Dev → TlbEntry → Bool) : Host.Outcome State Fault Refusal :=
  runIns cpu s fun s => privileged s cpu
    (.done (s.onDev fun d =>
      let c := cpuId cpu
      let d : Dev := { d with tlb := d.tlb.filter fun e => !((c == 4 || (e.core == c && e.part == partOf d c)) && p d e) }
      if c = 4 then d.setH .cTinv 0 1 else d) (pcNext s.dev cpu))

/-- TINV.A (R631): by the VA on an application core, by the IPA and TINVP on the warden. -/
def execTinvA (cpu : Cpu) (ra : GReg) (s : State) : Host.Outcome State Fault Refusal :=
  tinvIns cpu s fun d e =>
    let a := (gOf d cpu ra).toNat
    if cpuId cpu = 4 then e.part == (d.cr 4 crTINVP).toNat % 8 && a / 2 ^ e.lg == e.ipa / 2 ^ e.lg
    else a / 2 ^ e.lg == e.va / 2 ^ e.lg

/-- TINV.T (R631). -/
def execTinvT (cpu : Cpu) (ra : GReg) (s : State) : Host.Outcome State Fault Refusal :=
  tinvIns cpu s fun d e =>
    let a := gOf d cpu ra
    (a.getLsbD 15 || e.ttag == bitsOf a 0 8) && (cpuId cpu != 4 || e.part == bitsOf a 8 3)

/-- TINV.ALL (R631). -/
def execTinvAll (cpu : Cpu) (s : State) : Host.Outcome State Fault Refusal := tinvIns cpu s fun _ _ => true

/-! ### The end of a pass (R152, R172) -/

/-- DONE or DROP: an engine's only (R586). -/
def endIns (cpu : Cpu) (kind : Nat) (s : State) : Host.Outcome State Fault Refusal :=
  runIns cpu s fun s =>
    match cpu with
    | .engine g e =>
      match passOn s.dev g e with
      | none => .final s
      | some p =>
        match cmpWith p e (endKey kind) 0 with
        | none => .final (s.onDev fun d => mismatch d p)
        | some q => .final (if 64 ≤ p.e2 || q.cmp.isEmpty then passOver s q kind else s.onDev fun d => setPass d q)
    | _ => illegal s

/-- DONE (R152). -/
def execDone (cpu : Cpu) (s : State) : Host.Outcome State Fault Refusal := endIns cpu 1 s

/-- DROP (R152). -/
def execDrop (cpu : Cpu) (s : State) : Host.Outcome State Fault Refusal := endIns cpu 2 s

/-! ### Words that are no instruction (R571, R587, R594) -/

/-- ILLEGAL_INSTRUCTION (R571, R589, R594): the word w, fetched at the CPU's pc, reaches DE. -/
def execIllegalInstruction (cpu : Cpu) (w : Word) (s : State) : Host.Outcome State Fault Refusal :=
  runIns cpu s fun s =>
    if legalWord (cpuKind cpu) w then .final s else illegal s

/-! ### Beside the instructions -/

/-- INTERRUPT_TAKE (R603, R606): the first pending interrupt is taken at the boundary before the instruction at pc. -/
def execInterruptTake (cpu : Cpu) (divide : Bool) (s : State) : Host.Outcome State Fault Refusal :=
  let c := cpuId cpu
  .next (if c < 5 && coreRuns s.dev c && !s.dev.im c && intPending s.dev c
    then takeInt s c (divide && !s.dev.hon .cWait c) else s)

/-- STORE_DRAIN (R597, R600): the oldest buffered store is accepted or refused by its target. -/
def execStoreDrain (cpu : Cpu) (s : State) : Host.Outcome State Fault Refusal := .next (drainOne s (cpuId cpu))

/-- CORE_HALT_REQUEST (R613): the core halts at the next boundary, once its store buffer is empty. -/
def execCoreHaltRequest (c : Fin 4) (s : State) : Host.Outcome State Fault Refusal :=
  .next (if coreRuns s.dev c then (drainAll s c).onDev fun d => haltCore d c else s)

/-- CACHE_LINE_FILL (R593, R594): a miss fills the whole line; a line with a word that cannot be read is not installed. -/
def execCacheLineFill (c : Fin 5) (addr : Word) (s : State) : Host.Outcome State Fault Refusal :=
  let a := addr.toNat
  .next (if !coreRuns s.dev c || !lineCached a || (cacheLine s.dev c (a / 32)).isSome then s else (lineGet s c (a / 32) (a / 4 % 8)).2)

/-- The access of a walk: 0 load, 1 store, 2 fetch, 3 CAS. -/
def accOf (kind : Fin 4) : AccKind :=
  match kind.val with
  | 0 => .load
  | 1 => .store
  | 2 => .fetch
  | _ => .cas

/-- TLB_WALK (R621, R627, R628): an access that misses walks and fills; a data access whose walk faults raises vector 6 at
the instruction at pc, a fetch raises nothing before its instruction reaches DE. -/
def execTlbWalk (c : Fin 4) (va : Word) (kind : Fin 4) (s : State) : Host.Outcome State Fault Refusal :=
  let a := va.toNat
  let acc := accOf kind
  .next (if !mayIssue s.dev (.core c) || (tlbHit s.dev c a).isSome then s
    else match translate s c a (s.dev.level c) acc with
      | .ok _ s => s
      | .fault info s' =>
        if acc = .fetch then s'
        else
          let wr := acc = .store || (acc = .cas && casWrite s' c a)
          raiseTrap s' (.core c) { vec := 6, faddr := a, finfo := info, write := wr })

end Sys2Proof.Machine
end

