-- ==== Sys2Proof/Machine/Dispatch.lean ====
section
/-! DEFINITION. One arm per command: each calls its meaning. -/

namespace Sys2Proof.Machine

/-- What a command does to everything but the queue. -/
def exec (i : Instr) (s : State) : Host.Outcome State Fault Refusal :=
  match i with
  | .registerWrite who addr data => Sys2Proof.Machine.execRegisterWrite who addr data s
  | .loopSample iin vs cs => Sys2Proof.Machine.execLoopSample iin vs cs s
  | .ovrPersist k => Sys2Proof.Machine.execOvrPersist k s
  | .strikeLimit k => Sys2Proof.Machine.execStrikeLimit k s
  | .releaseLimit k => Sys2Proof.Machine.execReleaseLimit k s
  | .holdoffExpire k strike => Sys2Proof.Machine.execHoldoffExpire k strike s
  | .restoreDone k => Sys2Proof.Machine.execRestoreDone k s
  | .commitPoint k => Sys2Proof.Machine.execCommitPoint k s
  | .shadowApplyIdle c => Sys2Proof.Machine.execShadowApplyIdle c s
  | .staleFreeze k => Sys2Proof.Machine.execStaleFreeze k s
  | .staleClear who k => Sys2Proof.Machine.execStaleClear who k s
  | .flCmtHoldRelease who k => Sys2Proof.Machine.execFlCmtHoldRelease who k s
  | .flCmtClrcnt who k => Sys2Proof.Machine.execFlCmtClrcnt who k s
  | .flIntLoRead who k => Sys2Proof.Machine.execFlIntLoRead who k s
  | .phaseValley n => Sys2Proof.Machine.execPhaseValley n s
  | .pwmRise n => Sys2Proof.Machine.execPwmRise n s
  | .pwmFall n => Sys2Proof.Machine.execPwmFall n s
  | .cbcTrip n => Sys2Proof.Machine.execCbcTrip n s
  | .nocTrip n => Sys2Proof.Machine.execNocTrip n s
  | .nsZeroCurrent n => Sys2Proof.Machine.execNsZeroCurrent n s
  | .azStart who n => Sys2Proof.Machine.execAzStart who n s
  | .azDone n => Sys2Proof.Machine.execAzDone n s
  | .clrFail who n => Sys2Proof.Machine.execClrFail who n s
  | .phClrcnt who n => Sys2Proof.Machine.execPhClrcnt who n s
  | .armDelayExpire n => Sys2Proof.Machine.execArmDelayExpire n s
  | .toneMapGo who n => Sys2Proof.Machine.execToneMapGo who n s
  | .toneMapAll who => Sys2Proof.Machine.execToneMapAll who s
  | .toneAnswer m addr code => Sys2Proof.Machine.execToneAnswer m addr code s
  | .toneWindowClose mirror => Sys2Proof.Machine.execToneWindowClose mirror s
  | .stageFaultReport m addr fault => Sys2Proof.Machine.execStageFaultReport m addr fault s
  | .stageTempReport m addr temp => Sys2Proof.Machine.execStageTempReport m addr temp s
  | .rollCallStart who m => Sys2Proof.Machine.execRollCallStart who m s
  | .busEnable who m => Sys2Proof.Machine.execBusEnable who m s
  | .hotJoin m => Sys2Proof.Machine.execHotJoin m s
  | .descReadDone m t last => Sys2Proof.Machine.execDescReadDone m t last s
  | .presencePoll m ans => Sys2Proof.Machine.execPresencePoll m ans s
  | .stageAccessGo who n wr addr len => Sys2Proof.Machine.execStageAccessGo who n wr addr len s
  | .stageAccessDone ack data => Sys2Proof.Machine.execStageAccessDone ack data s
  | .selfTestDone g e pass => Sys2Proof.Machine.execSelfTestDone g e pass s
  | .taskTrigger g => Sys2Proof.Machine.execTaskTrigger g s
  | .passStart g => Sys2Proof.Machine.execPassStart g s
  | .steerWriteDrain g => Sys2Proof.Machine.execSteerWriteDrain g s
  | .steerMarkerArrive g => Sys2Proof.Machine.execSteerMarkerArrive g s
  | .passWatchdog g e => Sys2Proof.Machine.execPassWatchdog g e s
  | .captureDone g => Sys2Proof.Machine.execCaptureDone g s
  | .groveEnable who g data => Sys2Proof.Machine.execGroveEnable who g data s
  | .groveDisable who g data => Sys2Proof.Machine.execGroveDisable who g data s
  | .taskEnable who g t data => Sys2Proof.Machine.execTaskEnable who g t data s
  | .gvLeadWrite who g data => Sys2Proof.Machine.execGvLeadWrite who g data s
  | .railEnWrite who k => Sys2Proof.Machine.execRailEnWrite who k s
  | .sequencedStop who k => Sys2Proof.Machine.execSequencedStop who k s
  | .seqTimeout k => Sys2Proof.Machine.execSeqTimeout k s
  | .seqOnQualify k => Sys2Proof.Machine.execSeqOnQualify k s
  | .offSeqQualify k => Sys2Proof.Machine.execOffSeqQualify k s
  | .armingDone k => Sys2Proof.Machine.execArmingDone k s
  | .armTimeout k => Sys2Proof.Machine.execArmTimeout k s
  | .prebiasDone k v => Sys2Proof.Machine.execPrebiasDone k v s
  | .startAbort k => Sys2Proof.Machine.execStartAbort k s
  | .ssTimeout k => Sys2Proof.Machine.execSsTimeout k s
  | .hiccupExpire k => Sys2Proof.Machine.execHiccupExpire k s
  | .pgRise k => Sys2Proof.Machine.execPgRise k s
  | .pgFall k => Sys2Proof.Machine.execPgFall k s
  | .blankEnd k => Sys2Proof.Machine.execBlankEnd k s
  | .shutdownComplete k => Sys2Proof.Machine.execShutdownComplete k s
  | .stopTimeout k => Sys2Proof.Machine.execStopTimeout k s
  | .ovTrip k => Sys2Proof.Machine.execOvTrip k s
  | .uvTrip k => Sys2Proof.Machine.execUvTrip k s
  | .absTrip k => Sys2Proof.Machine.execAbsTrip k s
  | .dischargeEnd k tmo => Sys2Proof.Machine.execDischargeEnd k tmo s
  | .hocTrip n => Sys2Proof.Machine.execHocTrip n s
  | .hssDeclare n => Sys2Proof.Machine.execHssDeclare n s
  | .inputOc => Sys2Proof.Machine.execInputOc s
  | .dieOtScan temps => Sys2Proof.Machine.execDieOtScan temps s
  | .wardenWdogExpire => Sys2Proof.Machine.execWardenWdogExpire s
  | .coreWdogExpire c => Sys2Proof.Machine.execCoreWdogExpire c s
  | .storeOv => Sys2Proof.Machine.execStoreOv s
  | .storeOc => Sys2Proof.Machine.execStoreOc s
  | .storeOt => Sys2Proof.Machine.execStoreOt s
  | .crowMinExpire j => Sys2Proof.Machine.execCrowMinExpire j s
  | .efuseMinExpire => Sys2Proof.Machine.execEfuseMinExpire s
  | .wdgKick who key => Sys2Proof.Machine.execWdgKick who key s
  | .cwdgKick who c key => Sys2Proof.Machine.execCwdgKick who c key s
  | .fbPclr who n bits => Sys2Proof.Machine.execFbPclr who n bits s
  | .fbRclr who k bits => Sys2Proof.Machine.execFbRclr who k bits s
  | .fbDclr who bits => Sys2Proof.Machine.execFbDclr who bits s
  | .scCauseClear who bits => Sys2Proof.Machine.execScCauseClear who bits s
  | .compTestGo who k => Sys2Proof.Machine.execCompTestGo who k s
  | .compTestDone k pass => Sys2Proof.Machine.execCompTestDone k pass s
  | .marginInterval k => Sys2Proof.Machine.execMarginInterval k s
  | .scSample j v => Sys2Proof.Machine.execScSample j v s
  | .ceilTick codes vbus th => Sys2Proof.Machine.execCeilTick codes vbus th s
  | .storeCommit => Sys2Proof.Machine.execStoreCommit s
  | .stEnWrite who => Sys2Proof.Machine.execStEnWrite who s
  | .storeDisable who => Sys2Proof.Machine.execStoreDisable who s
  | .ceilWrite who data => Sys2Proof.Machine.execCeilWrite who data s
  | .allowWrite who data => Sys2Proof.Machine.execAllowWrite who data s
  | .storePartArrival k id ends => Sys2Proof.Machine.execStorePartArrival k id ends s
  | .presenceDebounced => Sys2Proof.Machine.execPresenceDebounced s
  | .storeRemoval => Sys2Proof.Machine.execStoreRemoval s
  | .qualifyDone => Sys2Proof.Machine.execQualifyDone s
  | .holdupExit => Sys2Proof.Machine.execHoldupExit s
  | .throttleRelease => Sys2Proof.Machine.execThrottleRelease s
  | .droopStep => Sys2Proof.Machine.execDroopStep s
  | .droopEffect l => Sys2Proof.Machine.execDroopEffect l s
  | .droopRelease => Sys2Proof.Machine.execDroopRelease s
  | .chargeSessionStopped => Sys2Proof.Machine.execChargeSessionStopped s
  | .limitRampStep => Sys2Proof.Machine.execLimitRampStep s
  | .lnEnWrite who l => Sys2Proof.Machine.execLnEnWrite who l s
  | .laneDisable who l => Sys2Proof.Machine.execLaneDisable who l s
  | .laneTestStart who l => Sys2Proof.Machine.execLaneTestStart who l s
  | .laneTestStop who l => Sys2Proof.Machine.execLaneTestStop who l s
  | .detectPulse l sensed => Sys2Proof.Machine.execDetectPulse l sensed s
  | .pollDone l => Sys2Proof.Machine.execPollDone l s
  | .pollTimeout l => Sys2Proof.Machine.execPollTimeout l s
  | .configDone l rates width preset lver ordered => Sys2Proof.Machine.execConfigDone l rates width preset lver ordered s
  | .configTimeout l => Sys2Proof.Machine.execConfigTimeout l s
  | .rateLock l => Sys2Proof.Machine.execRateLock l s
  | .rateTimeout l => Sys2Proof.Machine.execRateTimeout l s
  | .eqRequest l coef preset post up => Sys2Proof.Machine.execEqRequest l coef preset post up s
  | .eqPhaseStep l eye => Sys2Proof.Machine.execEqPhaseStep l eye s
  | .eqDone l => Sys2Proof.Machine.execEqDone l s
  | .eqTimeout l => Sys2Proof.Machine.execEqTimeout l s
  | .eiosReceived l => Sys2Proof.Machine.execEiosReceived l s
  | .latReceived l t0 turn => Sys2Proof.Machine.execLatReceived l t0 turn s
  | .latEchoReceived l t0 turn => Sys2Proof.Machine.execLatEchoReceived l t0 turn s
  | .checkDone l => Sys2Proof.Machine.execCheckDone l s
  | .checkTimeout l => Sys2Proof.Machine.execCheckTimeout l s
  | .retrain who l => Sys2Proof.Machine.execRetrain who l s
  | .ts2RecovReceived l => Sys2Proof.Machine.execTs2RecovReceived l s
  | .recoverDone l => Sys2Proof.Machine.execRecoverDone l s
  | .recoverTimeout l => Sys2Proof.Machine.execRecoverTimeout l s
  | .downDone l => Sys2Proof.Machine.execDownDone l s
  | .linkDown l => Sys2Proof.Machine.execLinkDown l s
  | .flitCrcFail l => Sys2Proof.Machine.execFlitCrcFail l s
  | .msgFlit l pay stamp => Sys2Proof.Machine.execMsgFlit l pay stamp s
  | .ackFlit l pay => Sys2Proof.Machine.execAckFlit l pay s
  | .ackTimer l => Sys2Proof.Machine.execAckTimer l s
  | .replayTimeout l => Sys2Proof.Machine.execReplayTimeout l s
  | .skipSend l => Sys2Proof.Machine.execSkipSend l s
  | .identityFrame l bytes => Sys2Proof.Machine.execIdentityFrame l bytes s
  | .identityTimeout l => Sys2Proof.Machine.execIdentityTimeout l s
  | .lnPllLock g => Sys2Proof.Machine.execLnPllLock g s
  | .intent l pay stamp => Sys2Proof.Machine.execIntent l pay stamp s
  | .cancel l pay => Sys2Proof.Machine.execCancel l pay s
  | .ffPulseStart k => Sys2Proof.Machine.execFfPulseStart k s
  | .ffPulseEnd k => Sys2Proof.Machine.execFfPulseEnd k s
  | .grantValidityEnd k slot id => Sys2Proof.Machine.execGrantValidityEnd k slot id s
  | .statusSend l => Sys2Proof.Machine.execStatusSend l s
  | .loadEstimate k => Sys2Proof.Machine.execLoadEstimate k s
  | .intentResolve k => Sys2Proof.Machine.execIntentResolve k s
  | .cycleReceive l pay stamp => Sys2Proof.Machine.execCycleReceive l pay stamp s
  | .epochReceive l pay => Sys2Proof.Machine.execEpochReceive l pay s
  | .helloSend k => Sys2Proof.Machine.execHelloSend k s
  | .helloReceive l pay => Sys2Proof.Machine.execHelloReceive l pay s
  | .carryReceive l pay => Sys2Proof.Machine.execCarryReceive l pay s
  | .ifwdReceive l pay stamp => Sys2Proof.Machine.execIfwdReceive l pay stamp s
  | .gfwdReceive l pay => Sys2Proof.Machine.execGfwdReceive l pay s
  | .memberLost k p => Sys2Proof.Machine.execMemberLost k p s
  | .carryRequest who k => Sys2Proof.Machine.execCarryRequest who k s
  | .rejoinRequest who k => Sys2Proof.Machine.execRejoinRequest who k s
  | .avsVoltageWrite sel data => Sys2Proof.Machine.execAvsVoltageWrite sel data s
  | .avsVoltageRead sel => Sys2Proof.Machine.execAvsVoltageRead sel s
  | .avsRateWrite sel data => Sys2Proof.Machine.execAvsRateWrite sel data s
  | .avsRateRead sel => Sys2Proof.Machine.execAvsRateRead sel s
  | .avsCurrentRead sel => Sys2Proof.Machine.execAvsCurrentRead sel s
  | .avsTemperatureRead sel => Sys2Proof.Machine.execAvsTemperatureRead sel s
  | .avsStatusRead sel => Sys2Proof.Machine.execAvsStatusRead sel s
  | .tcEnable who c => Sys2Proof.Machine.execTcEnable who c s
  | .tcDisable who c => Sys2Proof.Machine.execTcDisable who c s
  | .tcGo who c => Sys2Proof.Machine.execTcGo who c s
  | .tcAbort who c => Sys2Proof.Machine.execTcAbort who c s
  | .tcClrcnt who c => Sys2Proof.Machine.execTcClrcnt who c s
  | .tcPeriodExpire c => Sys2Proof.Machine.execTcPeriodExpire c s
  | .tcTrigger c => Sys2Proof.Machine.execTcTrigger c s
  | .conversionDone c v => Sys2Proof.Machine.execConversionDone c v s
  | .recordHandover c => Sys2Proof.Machine.execRecordHandover c s
  | .fuseProgramSlot who slot => Sys2Proof.Machine.execFuseProgramSlot who slot s
  | .fuseRetireSlot who slot => Sys2Proof.Machine.execFuseRetireSlot who slot s
  | .fuseProgramKey who key => Sys2Proof.Machine.execFuseProgramKey who key s
  | .fuseRevokeKey who key => Sys2Proof.Machine.execFuseRevokeKey who key s
  | .fusePulseDone => Sys2Proof.Machine.execFusePulseDone s
  | .fuseOpDone => Sys2Proof.Machine.execFuseOpDone s
  | .verifyGo who part kind => Sys2Proof.Machine.execVerifyGo who part kind s
  | .verifyDone => Sys2Proof.Machine.execVerifyDone s
  | .refTailWrite who tail => Sys2Proof.Machine.execRefTailWrite who tail s
  | .coretagWrite who c part => Sys2Proof.Machine.execCoretagWrite who c part s
  | .mfrSpecific00 bytes pec => Sys2Proof.Machine.execMfrSpecific00 bytes pec s
  | .processCall bytes => Sys2Proof.Machine.execProcessCall bytes s
  | .processCallWaitExpire => Sys2Proof.Machine.execProcessCallWaitExpire s
  | .mfrSpecific01 => Sys2Proof.Machine.execMfrSpecific01 s
  | .alertResponse => Sys2Proof.Machine.execAlertResponse s
  | .smbusTimeout => Sys2Proof.Machine.execSmbusTimeout s
  | .page x => Sys2Proof.Machine.execPage x s
  | .operation x => Sys2Proof.Machine.execOperation x s
  | .onOffConfig x => Sys2Proof.Machine.execOnOffConfig x s
  | .clearFaults x => Sys2Proof.Machine.execClearFaults x s
  | .capability x => Sys2Proof.Machine.execCapability x s
  | .voutMode x => Sys2Proof.Machine.execVoutMode x s
  | .voutCommand x => Sys2Proof.Machine.execVoutCommand x s
  | .statusByte x => Sys2Proof.Machine.execStatusByte x s
  | .statusWord x => Sys2Proof.Machine.execStatusWord x s
  | .statusVout x => Sys2Proof.Machine.execStatusVout x s
  | .statusIout x => Sys2Proof.Machine.execStatusIout x s
  | .statusInput x => Sys2Proof.Machine.execStatusInput x s
  | .statusTemperature x => Sys2Proof.Machine.execStatusTemperature x s
  | .statusCml x => Sys2Proof.Machine.execStatusCml x s
  | .readVin x => Sys2Proof.Machine.execReadVin x s
  | .readIin x => Sys2Proof.Machine.execReadIin x s
  | .readVout x => Sys2Proof.Machine.execReadVout x s
  | .readIout x => Sys2Proof.Machine.execReadIout x s
  | .readTemperature1 x => Sys2Proof.Machine.execReadTemperature1 x s
  | .readPout x => Sys2Proof.Machine.execReadPout x s
  | .pmbusRevision x => Sys2Proof.Machine.execPmbusRevision x s
  | .mfrId x => Sys2Proof.Machine.execMfrId x s
  | .mfrModel x => Sys2Proof.Machine.execMfrModel x s
  | .spiWrite bytes lost => Sys2Proof.Machine.execSpiWrite bytes lost s
  | .spiRead tag => Sys2Proof.Machine.execSpiRead tag s
  | .spiReady => Sys2Proof.Machine.execSpiReady s
  | .mailboxGo who p => Sys2Proof.Machine.execMailboxGo who p s
  | .contTimeout stream => Sys2Proof.Machine.execContTimeout stream s
  | .wardenReset => Sys2Proof.Machine.execWardenReset s
  | .longPacketComplete g => Sys2Proof.Machine.execLongPacketComplete g s
  | .rootstampRead who => Sys2Proof.Machine.execRootstampRead who s
  | .allOff => Sys2Proof.Machine.execAllOff s
  | .readCanopy => Sys2Proof.Machine.execReadCanopy s
  | .readLatches => Sys2Proof.Machine.execReadLatches s
  | .rootReset => Sys2Proof.Machine.execRootReset s
  | .railOff => Sys2Proof.Machine.execRailOff s
  | .readIdentity => Sys2Proof.Machine.execReadIdentity s
  | .ping => Sys2Proof.Machine.execPing s
  | .devInfo => Sys2Proof.Machine.execDevInfo s
  | .devStatus => Sys2Proof.Machine.execDevStatus s
  | .echo => Sys2Proof.Machine.execEcho s
  | .setState => Sys2Proof.Machine.execSetState s
  | .regRead => Sys2Proof.Machine.execRegRead s
  | .regWrite => Sys2Proof.Machine.execRegWrite s
  | .regModify => Sys2Proof.Machine.execRegModify s
  | .railStatus => Sys2Proof.Machine.execRailStatus s
  | .railEnable => Sys2Proof.Machine.execRailEnable s
  | .railVout => Sys2Proof.Machine.execRailVout s
  | .railRamp => Sys2Proof.Machine.execRailRamp s
  | .railLoadline => Sys2Proof.Machine.execRailLoadline s
  | .railComp => Sys2Proof.Machine.execRailComp s
  | .railLimits => Sys2Proof.Machine.execRailLimits s
  | .railStrike => Sys2Proof.Machine.execRailStrike s
  | .railConfig => Sys2Proof.Machine.execRailConfig s
  | .railIlim => Sys2Proof.Machine.execRailIlim s
  | .railCoppice => Sys2Proof.Machine.execRailCoppice s
  | .railSeq => Sys2Proof.Machine.execRailSeq s
  | .railProtect => Sys2Proof.Machine.execRailProtect s
  | .railClear => Sys2Proof.Machine.execRailClear s
  | .railPeriod => Sys2Proof.Machine.execRailPeriod s
  | .railSteer => Sys2Proof.Machine.execRailSteer s
  | .railCause => Sys2Proof.Machine.execRailCause s
  | .phaseStatus => Sys2Proof.Machine.execPhaseStatus s
  | .phaseRole => Sys2Proof.Machine.execPhaseRole s
  | .phaseConfig => Sys2Proof.Machine.execPhaseConfig s
  | .phaseProtect => Sys2Proof.Machine.execPhaseProtect s
  | .phaseClear => Sys2Proof.Machine.execPhaseClear s
  | .phaseAz => Sys2Proof.Machine.execPhaseAz s
  | .stageDesc => Sys2Proof.Machine.execStageDesc s
  | .stageAccess => Sys2Proof.Machine.execStageAccess s
  | .toneMap => Sys2Proof.Machine.execToneMap s
  | .rollCall => Sys2Proof.Machine.execRollCall s
  | .storeStatus => Sys2Proof.Machine.execStoreStatus s
  | .storeConfig => Sys2Proof.Machine.execStoreConfig s
  | .storeEnable => Sys2Proof.Machine.execStoreEnable s
  | .storeFloor => Sys2Proof.Machine.execStoreFloor s
  | .ceiling => Sys2Proof.Machine.execCeiling s
  | .escalation => Sys2Proof.Machine.execEscalation s
  | .ceilSense => Sys2Proof.Machine.execCeilSense s
  | .laneStatus => Sys2Proof.Machine.execLaneStatus s
  | .laneEnable => Sys2Proof.Machine.execLaneEnable s
  | .laneConfig => Sys2Proof.Machine.execLaneConfig s
  | .partnerId => Sys2Proof.Machine.execPartnerId s
  | .intentConfig => Sys2Proof.Machine.execIntentConfig s
  | .intentTrust => Sys2Proof.Machine.execIntentTrust s
  | .intentStatus => Sys2Proof.Machine.execIntentStatus s
  | .coupleConfig => Sys2Proof.Machine.execCoupleConfig s
  | .coupleCmd => Sys2Proof.Machine.execCoupleCmd s
  | .coupleStatus => Sys2Proof.Machine.execCoupleStatus s
  | .teleLast => Sys2Proof.Machine.execTeleLast s
  | .teleConfig => Sys2Proof.Machine.execTeleConfig s
  | .teleCtl => Sys2Proof.Machine.execTeleCtl s
  | .teleOwn => Sys2Proof.Machine.execTeleOwn s
  | .railReadings => Sys2Proof.Machine.execRailReadings s
  | .timeGet => Sys2Proof.Machine.execTimeGet s
  | .rtcSet => Sys2Proof.Machine.execRtcSet s
  | .meterRead => Sys2Proof.Machine.execMeterRead s
  | .billingRead => Sys2Proof.Machine.execBillingRead s
  | .lifeStage => Sys2Proof.Machine.execLifeStage s
  | .lifeDevice => Sys2Proof.Machine.execLifeDevice s
  | .logRead => Sys2Proof.Machine.execLogRead s
  | .lifeFlush => Sys2Proof.Machine.execLifeFlush s
  | .fwInfo => Sys2Proof.Machine.execFwInfo s
  | .fwBegin => Sys2Proof.Machine.execFwBegin s
  | .fwWrite => Sys2Proof.Machine.execFwWrite s
  | .fwVerify => Sys2Proof.Machine.execFwVerify s
  | .fwSwap => Sys2Proof.Machine.execFwSwap s
  | .fwAbort => Sys2Proof.Machine.execFwAbort s
  | .partInfo => Sys2Proof.Machine.execPartInfo s
  | .reflogRead => Sys2Proof.Machine.execReflogRead s
  | .coreAssign => Sys2Proof.Machine.execCoreAssign s
  | .coreCtl => Sys2Proof.Machine.execCoreCtl s
  | .imageLoad => Sys2Proof.Machine.execImageLoad s
  | .groveLead => Sys2Proof.Machine.execGroveLead s
  | .groveBanks => Sys2Proof.Machine.execGroveBanks s
  | .groveInstall => Sys2Proof.Machine.execGroveInstall s
  | .groveStd => Sys2Proof.Machine.execGroveStd s
  | .groveTask => Sys2Proof.Machine.execGroveTask s
  | .resAssign => Sys2Proof.Machine.execResAssign s
  | .fuseOp => Sys2Proof.Machine.execFuseOp s
  | .trailEvent => Sys2Proof.Machine.execTrailEvent s
  | .trFire who t => Sys2Proof.Machine.execTrFire who t s
  | .trSrcWrite who t reg data => Sys2Proof.Machine.execTrSrcWrite who t reg data s
  | .consumerDelivery cons => Sys2Proof.Machine.execConsumerDelivery cons s
  | .elogWrite n => Sys2Proof.Machine.execElogWrite n s
  | .dmaStart who ch => Sys2Proof.Machine.execDmaStart who ch s
  | .dmaStop who ch => Sys2Proof.Machine.execDmaStop who ch s
  | .dmaClr who ch => Sys2Proof.Machine.execDmaClr who ch s
  | .dmaTrig who ch => Sys2Proof.Machine.execDmaTrig who ch s
  | .descriptorFetch ch => Sys2Proof.Machine.execDescriptorFetch ch s
  | .dmaBurst => Sys2Proof.Machine.execDmaBurst s
  | .produce who ring count => Sys2Proof.Machine.execProduce who ring count s
  | .consume who ring count => Sys2Proof.Machine.execConsume who ring count s
  | .arm who ring => Sys2Proof.Machine.execArm who ring s
  | .ringContextWrite who ring word data => Sys2Proof.Machine.execRingContextWrite who ring word data s
  | .tokenClaim c => Sys2Proof.Machine.execTokenClaim c s
  | .arbClrmax who => Sys2Proof.Machine.execArbClrmax who s
  | .swCauseSet who p data => Sys2Proof.Machine.execSwCauseSet who p data s
  | .cnViewRead who => Sys2Proof.Machine.execCnViewRead who s
  | .reqActive who => Sys2Proof.Machine.execReqActive who s
  | .reqQuiet who => Sys2Proof.Machine.execReqQuiet who s
  | .reqGlade who => Sys2Proof.Machine.execReqGlade who s
  | .reqClearing who => Sys2Proof.Machine.execReqClearing who s
  | .quietWake => Sys2Proof.Machine.execQuietWake s
  | .gladeDomainsEnter => Sys2Proof.Machine.execGladeDomainsEnter s
  | .gladeReturnDone => Sys2Proof.Machine.execGladeReturnDone s
  | .clearingDomainsEnter => Sys2Proof.Machine.execClearingDomainsEnter s
  | .aonWake src => Sys2Proof.Machine.execAonWake src s
  | .domainEnter n => Sys2Proof.Machine.execDomainEnter n s
  | .domainEntryStep n => Sys2Proof.Machine.execDomainEntryStep n s
  | .domainWake n => Sys2Proof.Machine.execDomainWake n s
  | .domainReturnDone n => Sys2Proof.Machine.execDomainReturnDone n s
  | .holdRelease who data => Sys2Proof.Machine.execHoldRelease who data s
  | .voteWrite who p high data => Sys2Proof.Machine.execVoteWrite who p high data s
  | .timerMatch t => Sys2Proof.Machine.execTimerMatch t s
  | .timerOverflow t => Sys2Proof.Machine.execTimerOverflow t s
  | .timerStartEvent t => Sys2Proof.Machine.execTimerStartEvent t s
  | .timerCapture t stamp => Sys2Proof.Machine.execTimerCapture t stamp s
  | .timerHiWrite who t reg data => Sys2Proof.Machine.execTimerHiWrite who t reg data s
  | .cal0Read who => Sys2Proof.Machine.execCal0Read who s
  | .rtcSetWrite who data => Sys2Proof.Machine.execRtcSetWrite who data s
  | .rtcSetApply => Sys2Proof.Machine.execRtcSetApply s
  | .rtcAlarm => Sys2Proof.Machine.execRtcAlarm s
  | .rtcEnd => Sys2Proof.Machine.execRtcEnd s
  | .dayBoundary => Sys2Proof.Machine.execDayBoundary s
  | .yearBoundary => Sys2Proof.Machine.execYearBoundary s
  | .intervalClose => Sys2Proof.Machine.execIntervalClose s
  | .meterHandoff => Sys2Proof.Machine.execMeterHandoff s
  | .flushPeriodic => Sys2Proof.Machine.execFlushPeriodic s
  | .lfFlushWrite who data => Sys2Proof.Machine.execLfFlushWrite who data s
  | .flushDone => Sys2Proof.Machine.execFlushDone s
  | .logAppend ok => Sys2Proof.Machine.execLogAppend ok s
  | .add cpu rt ra rb sf => Sys2Proof.Machine.execAdd cpu rt ra rb sf s
  | .sub cpu rt ra rb sf => Sys2Proof.Machine.execSub cpu rt ra rb sf s
  | .adc cpu rt ra rb sf => Sys2Proof.Machine.execAdc cpu rt ra rb sf s
  | .sbc cpu rt ra rb sf => Sys2Proof.Machine.execSbc cpu rt ra rb sf s
  | .and cpu rt ra rb sf => Sys2Proof.Machine.execAnd cpu rt ra rb sf s
  | .or cpu rt ra rb sf => Sys2Proof.Machine.execOr cpu rt ra rb sf s
  | .xor cpu rt ra rb sf => Sys2Proof.Machine.execXor cpu rt ra rb sf s
  | .andn cpu rt ra rb sf => Sys2Proof.Machine.execAndn cpu rt ra rb sf s
  | .shl cpu rt ra rb sf => Sys2Proof.Machine.execShl cpu rt ra rb sf s
  | .shr cpu rt ra rb sf => Sys2Proof.Machine.execShr cpu rt ra rb sf s
  | .sar cpu rt ra rb sf => Sys2Proof.Machine.execSar cpu rt ra rb sf s
  | .ror cpu rt ra rb sf => Sys2Proof.Machine.execRor cpu rt ra rb sf s
  | .shli cpu rt ra sh sf => Sys2Proof.Machine.execShli cpu rt ra sh sf s
  | .shri cpu rt ra sh sf => Sys2Proof.Machine.execShri cpu rt ra sh sf s
  | .sari cpu rt ra sh sf => Sys2Proof.Machine.execSari cpu rt ra sh sf s
  | .rori cpu rt ra sh sf => Sys2Proof.Machine.execRori cpu rt ra sh sf s
  | .min cpu rt ra rb sf => Sys2Proof.Machine.execMin cpu rt ra rb sf s
  | .max cpu rt ra rb sf => Sys2Proof.Machine.execMax cpu rt ra rb sf s
  | .minu cpu rt ra rb sf => Sys2Proof.Machine.execMinu cpu rt ra rb sf s
  | .maxu cpu rt ra rb sf => Sys2Proof.Machine.execMaxu cpu rt ra rb sf s
  | .clz cpu rt ra sf => Sys2Proof.Machine.execClz cpu rt ra sf s
  | .cls cpu rt ra sf => Sys2Proof.Machine.execCls cpu rt ra sf s
  | .popc cpu rt ra sf => Sys2Proof.Machine.execPopc cpu rt ra sf s
  | .rev cpu rt ra sf => Sys2Proof.Machine.execRev cpu rt ra sf s
  | .permr cpu rt ra rb sf => Sys2Proof.Machine.execPermr cpu rt ra rb sf s
  | .abs cpu rt ra sf => Sys2Proof.Machine.execAbs cpu rt ra sf s
  | .adds cpu rt ra rb sf => Sys2Proof.Machine.execAdds cpu rt ra rb sf s
  | .subs cpu rt ra rb sf => Sys2Proof.Machine.execSubs cpu rt ra rb sf s
  | .mul cpu rt ra rb sf => Sys2Proof.Machine.execMul cpu rt ra rb sf s
  | .mulhs cpu rt ra rb sf => Sys2Proof.Machine.execMulhs cpu rt ra rb sf s
  | .mulhu cpu rt ra rb sf => Sys2Proof.Machine.execMulhu cpu rt ra rb sf s
  | .div cpu rt ra rb sf => Sys2Proof.Machine.execDiv cpu rt ra rb sf s
  | .divu cpu rt ra rb sf => Sys2Proof.Machine.execDivu cpu rt ra rb sf s
  | .rem cpu rt ra rb sf => Sys2Proof.Machine.execRem cpu rt ra rb sf s
  | .remu cpu rt ra rb sf => Sys2Proof.Machine.execRemu cpu rt ra rb sf s
  | .mulq cpu rt ra rb sf u rnd sh => Sys2Proof.Machine.execMulq cpu rt ra rb sf u rnd sh s
  | .mulqn cpu rt ra rb sf u rnd sh => Sys2Proof.Machine.execMulqn cpu rt ra rb sf u rnd sh s
  | .macq cpu rt ra rb sf u rnd sh => Sys2Proof.Machine.execMacq cpu rt ra rb sf u rnd sh s
  | .msuq cpu rt ra rb sf u rnd sh => Sys2Proof.Machine.execMsuq cpu rt ra rb sf u rnd sh s
  | .bfx cpu rt ra pos wm1 => Sys2Proof.Machine.execBfx cpu rt ra pos wm1 s
  | .bfxs cpu rt ra pos wm1 => Sys2Proof.Machine.execBfxs cpu rt ra pos wm1 s
  | .bfi cpu rt ra pos wm1 => Sys2Proof.Machine.execBfi cpu rt ra pos wm1 s
  | .perm cpu rt ra imm => Sys2Proof.Machine.execPerm cpu rt ra imm s
  | .addi cpu rt ra imm => Sys2Proof.Machine.execAddi cpu rt ra imm s
  | .addis cpu rt ra imm => Sys2Proof.Machine.execAddis cpu rt ra imm s
  | .andi cpu rt ra imm => Sys2Proof.Machine.execAndi cpu rt ra imm s
  | .ori cpu rt ra imm => Sys2Proof.Machine.execOri cpu rt ra imm s
  | .xori cpu rt ra imm => Sys2Proof.Machine.execXori cpu rt ra imm s
  | .lui cpu rt imm => Sys2Proof.Machine.execLui cpu rt imm s
  | .cmpi cpu ra imm => Sys2Proof.Machine.execCmpi cpu ra imm s
  | .ldb cpu rt ra m => Sys2Proof.Machine.execLdb cpu rt ra m s
  | .ldbu cpu rt ra m => Sys2Proof.Machine.execLdbu cpu rt ra m s
  | .ldh cpu rt ra m => Sys2Proof.Machine.execLdh cpu rt ra m s
  | .ldhu cpu rt ra m => Sys2Proof.Machine.execLdhu cpu rt ra m s
  | .ldw cpu rt ra m => Sys2Proof.Machine.execLdw cpu rt ra m s
  | .stb cpu rt ra m => Sys2Proof.Machine.execStb cpu rt ra m s
  | .sth cpu rt ra m => Sys2Proof.Machine.execSth cpu rt ra m s
  | .stw cpu rt ra m => Sys2Proof.Machine.execStw cpu rt ra m s
  | .cas cpu rt ra rb => Sys2Proof.Machine.execCas cpu rt ra rb s
  | .bcond cpu cond disp => Sys2Proof.Machine.execBcond cpu cond disp s
  | .jmp cpu disp => Sys2Proof.Machine.execJmp cpu disp s
  | .call cpu disp => Sys2Proof.Machine.execCall cpu disp s
  | .jr cpu ra => Sys2Proof.Machine.execJr cpu ra s
  | .jalr cpu rt ra => Sys2Proof.Machine.execJalr cpu rt ra s
  | .syscall cpu code => Sys2Proof.Machine.execSyscall cpu code s
  | .brk cpu code => Sys2Proof.Machine.execBrk cpu code s
  | .eret cpu => Sys2Proof.Machine.execEret cpu s
  | .wait cpu => Sys2Proof.Machine.execWait cpu s
  | .sync cpu => Sys2Proof.Machine.execSync cpu s
  | .mfcr cpu rt code => Sys2Proof.Machine.execMfcr cpu rt code s
  | .mtcr cpu code rt => Sys2Proof.Machine.execMtcr cpu code rt s
  | .imset cpu rt => Sys2Proof.Machine.execImset cpu rt s
  | .imclr cpu rt => Sys2Proof.Machine.execImclr cpu rt s
  | .tinvA cpu ra => Sys2Proof.Machine.execTinvA cpu ra s
  | .tinvT cpu ra => Sys2Proof.Machine.execTinvT cpu ra s
  | .tinvAll cpu => Sys2Proof.Machine.execTinvAll cpu s
  | .done cpu => Sys2Proof.Machine.execDone cpu s
  | .drop cpu => Sys2Proof.Machine.execDrop cpu s
  | .interruptTake cpu divide => Sys2Proof.Machine.execInterruptTake cpu divide s
  | .storeDrain cpu => Sys2Proof.Machine.execStoreDrain cpu s
  | .coreHaltRequest c => Sys2Proof.Machine.execCoreHaltRequest c s
  | .cacheLineFill c addr => Sys2Proof.Machine.execCacheLineFill c addr s
  | .tlbWalk c va kind => Sys2Proof.Machine.execTlbWalk c va kind s
  | .scrubVisit => Sys2Proof.Machine.execScrubVisit s
  | .remapSet who b n waddr => Sys2Proof.Machine.execRemapSet who b n waddr s
  | .remapClear who b n waddr => Sys2Proof.Machine.execRemapClear who b n waddr s
  | .repairModeWrite who b data => Sys2Proof.Machine.execRepairModeWrite who b data s
  | .flashProgram who nlines => Sys2Proof.Machine.execFlashProgram who nlines s
  | .flashErase who => Sys2Proof.Machine.execFlashErase who s
  | .flashSuspend who => Sys2Proof.Machine.execFlashSuspend who s
  | .flashResume who => Sys2Proof.Machine.execFlashResume who s
  | .flashRdtwin who => Sys2Proof.Machine.execFlashRdtwin who s
  | .rdtwinDone => Sys2Proof.Machine.execRdtwinDone s
  | .flashSwap who => Sys2Proof.Machine.execFlashSwap who s
  | .programPulseDone ok => Sys2Proof.Machine.execProgramPulseDone ok s
  | .eraseSegmentDone => Sys2Proof.Machine.execEraseSegmentDone s
  | .eraseVerifyDone ok => Sys2Proof.Machine.execEraseVerifyDone ok s
  | .brownOut => Sys2Proof.Machine.execBrownOut s
  | .lfProgramCutoff => Sys2Proof.Machine.execLfProgramCutoff s
  | .brownOutEnd => Sys2Proof.Machine.execBrownOutEnd s
  | .gpioEdge n level => Sys2Proof.Machine.execGpioEdge n level s
  | .padFuncWrite who n data => Sys2Proof.Machine.execPadFuncWrite who n data s
  | .handoverEnd n => Sys2Proof.Machine.execHandoverEnd n s
  | .gsetWrite who data => Sys2Proof.Machine.execGsetWrite who data s
  | .gclrWrite who data => Sys2Proof.Machine.execGclrWrite who data s
  | .pulseEnd n => Sys2Proof.Machine.execPulseEnd n s
  | .vioLost b => Sys2Proof.Machine.execVioLost b s
  | .xtalOk => Sys2Proof.Machine.execXtalOk s
  | .xtalFail => Sys2Proof.Machine.execXtalFail s
  | .vcoreStep => Sys2Proof.Machine.execVcoreStep s
  | .buckFault => Sys2Proof.Machine.execBuckFault s
  | .resetPin => Sys2Proof.Machine.execResetPin s
  | .vinUndervoltage => Sys2Proof.Machine.execVinUndervoltage s
  | .powerOnReset => Sys2Proof.Machine.execPowerOnReset s
  | .resetRelease => Sys2Proof.Machine.execResetRelease s
  | .buckPg => Sys2Proof.Machine.execBuckPg s
  | .fuseLoadDone straps => Sys2Proof.Machine.execFuseLoadDone straps s
  | .svcRelease refclk vio => Sys2Proof.Machine.execSvcRelease refclk vio s
  | .bootVerifyDone => Sys2Proof.Machine.execBootVerifyDone s
  | .logScanDone => Sys2Proof.Machine.execLogScanDone s
  | .tapReset => Sys2Proof.Machine.execTapReset s
  | .jtagIrUpdate ir => Sys2Proof.Machine.execJtagIrUpdate ir s
  | .illegalInstruction cpu w => Sys2Proof.Machine.execIllegalInstruction cpu w s
  | .aonRegisterWriteArrival q => Sys2Proof.Machine.execAonRegisterWriteArrival q s
  | .deviceSourceOutputFall src => Sys2Proof.Machine.execDeviceSourceOutputFall src s
  | .reservedTypeFlit l typ pay => Sys2Proof.Machine.execReservedTypeFlit l typ pay s
  | .avsUnsupportedFrame badCrc => Sys2Proof.Machine.execAvsUnsupportedFrame badCrc s
  | .spiUnknownInstruction instr => Sys2Proof.Machine.execSpiUnknownInstruction instr s
  | .laneClrcnt who l => Sys2Proof.Machine.execLaneClrcnt who l s

end Sys2Proof.Machine
end

