-- ==== Sys2Proof/Safety.lean ====
section
/-! DEFINITION. What counts as a sound state and a safe run, and what the statements say a command does, in the terms they
use. -/

namespace Sys2Proof.Machine

/-- A sound state: the memory is in its canonical form, so that equal memories are equal data. -/
def Sound (s : State) : Prop := Memory.wf s.mem = true

/-- What a command may do to the rest of the machine: it keeps the memory's canonical form and leaves the queue of waiting
commands alone. -/
def Keeps (s t : State) : Prop := (Memory.wf s.mem = true → Memory.wf t.mem = true) ∧ t.pending = s.pending

/-- A command that touches the device alone: memory and queue are as before. -/
def OnlyDev (s t : State) : Prop := t.mem = s.mem ∧ t.pending = s.pending

/-- A step that neither faults nor refuses. -/
def Runs (s : State) : Prop := ∃ t, step s = .next t

/-- Command i answers the next state t. -/
def Leads (i : Sys2Proof.Instr) (s t : State) : Prop := exec i s = .next t

/-- Command i answers a next state, and P holds of it. -/
def Does (i : Sys2Proof.Instr) (s : State) (P : State → Prop) : Prop := ∃ t, exec i s = .next t ∧ P t

/-- Command i answers the state whose device is changed by g, and in which nothing else is changed. -/
def Makes (i : Sys2Proof.Instr) (s : State) (g : Dev → Dev) : Prop := exec i s = .next (s.onDev g)

/-- Command i answers a next state that differs from s in the device alone, and P holds of that device. -/
def Acts (i : Sys2Proof.Instr) (s : State) (P : Dev → Prop) : Prop := ∃ e, exec i s = .next { s with dev := e } ∧ P e

/-! ### Register writes -/

/-- A write of word w to copy j of a register that nothing turns away: the bus is open to the initiator and the register's
block is on, the initiator may make the write, and it changes no locked field and places no reserved encoding. -/
def Accepted (s : State) (who : Initiator) (row : RegRow) (j : Nat) (w : Word) : Prop :=
  busOpen s.dev who = true ∧ regPowered s.dev row.reg j = true ∧ namedOk s who row.reg w = true
  ∧ mayWrite s who row.reg j w = true ∧ lockHit s.dev row j w = none ∧ reservedWord s.dev row j w = false

/-- The state after an access that was carried out: the device changed by g, and no bus error. -/
def acked (s : State) (g : Dev → Dev) : State := keepRes (.ok 0, s.onDev g)

/-- Command i is the write of word w to copy j of a register: where nothing turns it away, the device changes by g. -/
def Writes (i : Sys2Proof.Instr) (s : State) (who : Initiator) (row : RegRow) (j : Nat) (w : Word) (g : Dev → Dev) : Prop :=
  Accepted s who row j w → exec i s = .next (acked s g)

/-- The same for a write whose effect reaches beyond the device: the state changes by g. -/
def Stores (i : Sys2Proof.Instr) (s : State) (who : Initiator) (row : RegRow) (j : Nat) (w : Word) (g : State → State) : Prop :=
  Accepted s who row j w → exec i s = .next (keepRes (.ok 0, g s))

/-- The device in which copy j of a register has taken word w by the access types of its fields. -/
def took (d : Dev) (row : RegRow) (j : Nat) (w : Word) : Dev := d.setR row.reg j (newWord d row j w)

/-- The word that changes field F of a register to v and leaves its other stored fields as they are. -/
def fieldWord (d : Dev) (F : Fld) (j : Nat) (v : Int) : Word := putBits (present d F.reg j) F.lo F.n v

/-! ### Packets -/

/-- Packet k, of opcode op, is the one the warden serves next, and no Long packet of its group is under way. -/
def Serves (s : State) (op : Nat) (k : Packet) : Prop :=
  nextPacket s.dev = some k ∧ k.op = op ∧ (opLong op = true → ∀ y ∈ s.dev.longs, y.pkt.op / 16 ≠ op / 16)

/-- The state in which the warden carries out packet k: the packet has left its ring. -/
def taken (s : State) (k : Packet) : State := s.onDev fun d => ringPop d k

/-- Command i answers packet k with a status and data, and leaves state t beside the answer. -/
def Replies (i : Sys2Proof.Instr) (s : State) (k : Packet) (st : Nat) (data : List Nat) (t : State) : Prop :=
  Leads i s (t.onDev fun d => opFinish d k st data)

/-- Packet k is answered DENIED for a resource of that owner, and the refusal recorded. -/
def Denies (i : Sys2Proof.Instr) (s : State) (k : Packet) (owner : Nat × Bool) : Prop :=
  Replies i s k stDenied [] ((taken s k).onDev fun d => refuse d k.part false 6 owner true k.port (k.op + 256 * k.seq))

/-- Row i is an opcode of m parameter bytes whose first byte names one of n resources that the packet's partition must
own: any other count, or a name out of range, is BAD_PARAM, another partition's resource is DENIED, and what it does with
its own is P. -/
def OwnOpcode (i : Sys2Proof.Instr) (op m n : Nat) (owner : Dev → Nat → Nat × Bool) (P : State → Packet → Nat → Prop) : Prop :=
  ∀ (s : State) (k : Packet), Serves s op k →
    (k.params.length ≠ m ∨ n ≤ par k 0 1 → Replies i s k stBadParam [] (taken s k))
    ∧ (k.params.length = m → par k 0 1 < n →
        ((owner (taken s k).dev (par k 0 1)).1 ≠ k.part → Denies i s k (owner (taken s k).dev (par k 0 1)))
        ∧ ((owner (taken s k).dev (par k 0 1)).1 = k.part → P s k (par k 0 1)))

/-- Row i answers packet k with the outcome of checked register writes: all of them done, or the status of the first that
is refused, its cause set and nothing written. -/
def RepliesWrites (i : Sys2Proof.Instr) (s : State) (k : Packet) (l : List (Reg × Nat × Word)) : Prop :=
  ∃ st t, opWrites (taken s k) l = (.done st [], t) ∧ Replies i s k st [] t

/-- Row i answers packet k with registers, 4 bytes each, or BAD_PARAM where one cannot be read. -/
def RepliesReads (i : Sys2Proof.Instr) (s : State) (k : Packet) (l : List (Reg × Nat)) : Prop :=
  match wReads l (taken s k) with
  | (some b, t) => Replies i s k stOk b t
  | (none, t) => Replies i s k stBadParam [] t

/-! ### Instructions -/

/-- The CPU that a command is an instruction of. -/
def cpuOf : Sys2Proof.Instr → Option Cpu
  | .add c .. | .sub c .. | .adc c .. | .sbc c .. | .and c .. | .or c .. | .xor c .. | .andn c .. | .shl c ..
  | .shr c .. | .sar c .. | .ror c .. | .shli c .. | .shri c .. | .sari c .. | .rori c .. | .min c .. | .max c ..
  | .minu c .. | .maxu c .. | .clz c .. | .cls c .. | .popc c .. | .rev c .. | .abs c .. | .permr c .. | .adds c ..
  | .subs c .. | .mul c .. | .mulhs c .. | .mulhu c .. | .div c .. | .divu c .. | .rem c .. | .remu c ..
  | .mulq c .. | .mulqn c .. | .macq c .. | .msuq c .. | .bfx c .. | .bfxs c .. | .bfi c .. | .perm c ..
  | .addi c .. | .addis c .. | .andi c .. | .ori c .. | .xori c .. | .lui c .. | .cmpi c .. | .ldb c ..
  | .ldbu c .. | .ldh c .. | .ldhu c .. | .ldw c .. | .stb c .. | .sth c .. | .stw c .. | .cas c .. | .bcond c ..
  | .jmp c .. | .call c .. | .jr c .. | .jalr c .. | .syscall c .. | .brk c .. | .eret c .. | .wait c ..
  | .sync c .. | .mfcr c .. | .mtcr c .. | .imset c .. | .imclr c .. | .tinvA c .. | .tinvT c .. | .tinvAll c ..
  | .done c .. | .drop c .. | .illegalInstruction c .. => some c
  | _ => none

/-- A CPU issues the instruction at its pc, and the fetch of it does not fail and leaves state t. -/
def Issues (s : State) (cpu : Cpu) (t : State) : Prop := mayIssue s.dev cpu = true ∧ cpuFetch s cpu = (none, t)

/-- From the state its fetch left, an instruction writes w to rt and, where it has the S bit set, the flags x, and goes on at the
next word. -/
def wroteReg (s : State) (cpu : Cpu) (rt : GReg) (sf : Bool) (w : Word) (x : Flags) : State :=
  s.onDev fun d =>
    let d := d.setG (cpuId cpu) rt.val w
    let d := if sf then d.setCr (cpuId cpu) crCS (withFlags (d.cr (cpuId cpu) crCS) x) else d
    d.setPc (cpuId cpu) (s.dev.pc (cpuId cpu) + 4)

end Sys2Proof.Machine
end

