-- ==== Sys2Proof/Certificates/Slice0/Obligations.lean ====
section
/-! DEFINITION. The statements for the provers: what the spec's rules say the commands do, in the terms of Safety. -/

open Sys2Proof Sys2Proof.Machine

/-! ### The block as a whole -/

/-- A step carries out the command at the front of the queue on the state whose queue is the rest; with none waiting the
block idles (the model's own form of a step, notes/assumptions/1.md). -/
def Obligations.StepRunsFront : Prop := ∀ (c : Instr) (s : State),
  step { s with pending := c :: s.pending } = exec c s
  ∧ step { s with pending := [] } = .next { s with pending := [] }

/-- No command stops the block: every one of them answers a next state from every state. What a command does where the
spec gives it nothing to do is to leave the state as it is (notes/assumptions/1.md). -/
def Obligations.EveryCommandRuns : Prop := ∀ (c : Instr) (s : State), ∃ t, exec c s = .next t

/-- Every step keeps the canonical form of the memory, so that equal memories are equal data, and takes the front of the
queue and nothing else: no command adds to the queue or reorders it (notes/assumptions/1.md). -/
def Obligations.StepKeepsSound : Prop := ∀ s t : State, Sound s → step s = .next t → Sound t ∧ t.pending = s.pending.tail

/-- The state after a power-on reset is sound, nothing waits in its queue, every register but PX_STATUS and PX_RSTSRC reads
its reset word, the core buck ramps, and POR is the reset's cause (R693, R697). -/
def Obligations.ResetState : Prop :=
  let d := State.reset.dev
  Sound State.reset ∧ State.reset.pending = []
  ∧ (∀ (R : Reg) (i : Nat), R.addr i ≠ PX_STATUS.addr 0 → R.addr i ≠ PX_RSTSRC.addr 0 → d.r R i = R.reset i)
  ∧ d.on PX_STATUS_BUCK_RAMP = true ∧ d.on PX_STATUS_BUCK_PG = false ∧ d.on PX_RSTSRC_POR = true
  ∧ d.hn .start = 0 ∧ d.rings = [] ∧ d.rootq = [] ∧ d.intents = []

/-- Instruction words (R570 to R572, R574 to R586): the spec's own worked encodings; cleared and erased memory is never an
instruction; and a word says which instruction it is with all its operands: of two commands that are instructions of one
CPU with the same word, neither of them an unlisted word, the one is the other. -/
def Obligations.InstructionWords : Prop :=
  (∀ cpu : Cpu,
    cpuWord (.mtcr cpu 0x009 2) = some 0xC0404806
    ∧ cpuWord (.ldw cpu 5 4 0xC080) = some 0x50A4C080
    ∧ cpuWord (.addis cpu 7 7 0xFFFF) = some 0x1CE7FFFF
    ∧ cpuWord (.stw cpu 5 6 0x4004) = some 0x5CA64004
    ∧ cpuWord (.bcond cpu 1 0x3FFFFD) = some 0x807FFFFD)
  ∧ (∀ kind : CpuKind, legalWord kind 0x00000000 = false ∧ legalWord kind 0xFFFFFFFF = false)
  ∧ ∀ (i j : Instr) (cpu : Cpu) (w : Word),
      cpuWord i = some w → cpuWord j = some w → cpuOf i = some cpu → cpuOf j = some cpu →
      (∀ v, i ≠ .illegalInstruction cpu v) → (∀ v, j ≠ .illegalInstruction cpu v) → i = j

/-! ### Registers -/

/-- A write that places a reserved encoding leaves the register as it was and sets ACC_ERR in its block's leaf; where it
would also change a locked field it sets the lock error as well (R14). It is the write of an initiator that may make it, to
a register of a powered domain that software writes and that is no leaf itself. -/
def Obligations.ReservedEncodings : Prop := ∀ (s : State) (who : Initiator) (row : RegRow) (j : Nat) (w : Word),
  row.reg.db ≠ .grove → reservedWord s.dev row j w = true → (leafOf row.reg j).1.addr (leafOf row.reg j).2 ≠ row.reg.addr j →
  (∀ F, (lockLeaf row.reg j F).1.addr (lockLeaf row.reg j F).2 ≠ row.reg.addr j) →
  let t := regWrite s who row j w
  t.dev.r row.reg j = s.dev.r row.reg j
  ∧ (t.dev.r (leafOf row.reg j).1 (leafOf row.reg j).2).getLsbD 15 = true
  ∧ (∀ F, lockHit s.dev row j w = some F → (t.dev.r (lockLeaf row.reg j F).1 (lockLeaf row.reg j F).2).getLsbD 14 = true)
  ∧ t.mem = s.mem ∧ t.pending = s.pending

/-- The access types of a register's fields (R10 to R12): what a word leaves in each field of a register whose fields do not
overlap: RW takes the value, W1C keeps the bits the value has at 0 and those an event sets in the same cycle (R12), W1S adds those it has at 1, a locked RWL or RWO field
and an RO or WO one stays, an unlocked RWL one takes the value; and every bit outside the fields stays. -/
def Obligations.AccessTypes : Prop := ∀ (d : Dev) (row : RegRow) (j : Nat) (w : Word) (F : Fld), row ∈ regRows → F ∈ row.fields →
  let old := d.f F j
  let v := bitsOf w F.lo F.n
  let new := bitsOf (newWord d row j w) F.lo F.n
  (F.acc = .rw → new = v) ∧ (F.acc = .w1c → new = old &&& ((2 ^ F.n - 1 - v) ||| bitsOf (d.setNow (row.reg.addr j)) F.lo F.n)) ∧ (F.acc = .w1s → new = old ||| v)
  ∧ (F.acc = .ro ∨ F.acc = .wo → new = old)
  ∧ (F.acc = .rwl ∨ F.acc = .rwo → new = if lockedF d row.reg j F then old else v)
  ∧ (lockHit d row j w = some F → (F.acc = .rwl ∨ F.acc = .rwo) ∧ lockedF d row.reg j F = true ∧ v ≠ old)

/-! ### Events of the blocks -/

/-- The fast loop's own events, each in a state that calls for it: the over-range cause (R46), the end of a strike or
release at its limit (R62), a hold-off's end (R63), the end of RESTORE (R62, R68), the pending values of a domain without a
switching phase (R74), a stale grove (R79), a commit point (R72) and one edge of the loop clock (R43). -/
def Obligations.FastLoopEventsAct : Prop := ∀ (s : State) (k : Rail),
  (s.dev.on FL_OVR_LIM k = true → s.dev.f FL_OVR_LIM k ≤ s.dev.hn .ovrRun k →
    Acts (.ovrPersist k) s fun e => e = s.dev.set1 FL_CAUSE_OVR_PERSIST k)
  ∧ (flMode s.dev k = flStrike → atLimit s.dev k true = true →
    Acts (.strikeLimit k) s fun e => flMode e k = flRestore ∧ e.on FL_CAUSE_STRIKE_TMAX k = true ∧ e.h .forceMask k = 0)
  ∧ (flMode s.dev k = flRelease → atLimit s.dev k false = true →
    Acts (.releaseLimit k) s fun e => flMode e k = flRestore ∧ e.on FL_CAUSE_REL_TMAX k = true ∧ e.h .forceMask k = 0)
  ∧ (∀ strike : Bool, Acts (.holdoffExpire k strike) s fun e =>
      e = s.dev.setH (if strike then .strikeHoldoff else .releaseHoldoff) k 0)
  ∧ (flMode s.dev k = flRestore → s.dev.a FL_RESTORE_PERIODS k ≤ s.dev.hn .restoreCnt k →
    Makes (.restoreDone k) s fun d =>
      (d.setF FL_STATUS_MODE k flRun).eachIn (switching d k) fun d n => d.setH .restFrom n 0)
  ∧ (s.dev.on FL_STEER_GV_EN k = true → s.dev.on FL_STEER_STALE_LIM k = true →
      s.dev.f FL_STEER_STALE_LIM k ≤ s.dev.f FL_STEER_AGE k →
    Acts (.staleFreeze k) s fun e => frozen e k = true ∧ e.on FL_STEER_STALE k = true ∧ e.on FL_CAUSE_STALE k = true
      ∧ ∀ p ∈ e.pendGv, p.dom ≠ k)
  ∧ (∀ c : Fin 18, switching s.dev c = [] →
    Acts (.shadowApplyIdle c) s fun e => ∀ p ∈ e.pendSw, p.dom = c → s.dev.now < p.stamp)
  ∧ (∀ n, leadOf s.dev k = some n → (valleyDue s.dev n).isSome = true → s.dev.h .commitAt k ≠ s.dev.now + 1 →
    Acts (.commitPoint k) s fun e => e = commitPoint s.dev k)
  ∧ (domOn s.dev 0 = true → ∀ iin vs cs,
    Acts (.loopSample iin vs cs) s fun e =>
      e = lclkEdge s.dev iin (vs.map fun x => (x.1.val, x.2)) (cs.map fun c => (c.1.val, c.2)))

/-- The switching of a phase, event by event: the valley step (R106), a rise and a fall at an edge the position calls for
(R89), the positive and the negative current limit (R92), the zero-current turn-off (R93), the end of an auto-zero, which
hands its mean to the offset (R105), and the end of the enable delay (R115). -/
def Obligations.PhaseSwitching : Prop := ∀ (s : State) (n : Phase),
  let d := s.dev
  let k := phDom d n
  (∀ tap, k < 17 → d.h .valleyAt n ≠ d.now + 1 → valleyHere d n = some tap →
    Makes (.phaseValley n) s fun d => valley d n tap)
  ∧ (∀ tap, pulsing d n = true → d.f PH_STATUS_PWM n ≠ pwmHigh → d.hon .pulseMade n = false → d.on PH_STATUS_CBC n = false →
      (List.range 32).find? (mayRise d n) = some tap →
    Acts (.pwmRise n) s fun e => e.f PH_STATUS_PWM n = pwmHigh ∧ e.h .pulseMade n = 1 ∧ e.h .riseAt n = d.now * 32 + tap)
  ∧ (∀ tap, pulsing d n = true → d.f PH_STATUS_PWM n = pwmHigh → (List.range 32).find? (mustFall d n) = some tap →
    Acts (.pwmFall n) s fun e => e.f PH_STATUS_PWM n = pwmLow ∧ e.h .fallAt n = d.now * 32 + tap)
  ∧ (d.on FB_PSTAT_CBC n = true → d.on PH_STATUS_CBC n = false → d.f PH_STATUS_PWM n = pwmHigh →
    Acts (.cbcTrip n) s fun e => e.on PH_STATUS_CBC n = true
      ∧ e.f PH_STATUS_PWM n = (if nsAct d k then pwmTri else pwmLow))
  ∧ (d.on FB_PSTAT_NOC n = true → d.f PH_STATUS_PWM n = pwmLow →
    Acts (.nocTrip n) s fun e => e.f PH_STATUS_PWM n = pwmTri ∧ e.on FB_PCAUSE_NOC n = true)
  ∧ (nsAct d k = true → d.f PH_STATUS_PWM n = pwmLow → d.fi PH_IMEAS_I n ≤ d.a PH_CFG_ZCTH n →
    Makes (.nsZeroCurrent n) s fun d => (setPwm d n pwmTri).set1 PH_STATUS_NS_TRI n)
  ∧ (d.on PH_STATUS_AZ_BUSY n = true → 256 ≤ d.h .azCnt n →
    Acts (.azDone n) s fun e => e.on PH_STATUS_AZ_BUSY n = false ∧ e.on PH_CAUSE_AZ_DONE n = true
      ∧ e.fi PH_ISCAL_OFS n = (asr (d.h .azSum n) 8).bmod 4096)
  ∧ (phState d n = phArming →
    Makes (.armDelayExpire n) s fun d => settleCap (phSet d n phArmed) (phDom d n))

/-- What the stage buses bring in, while SVC is on and holds no pads, and nothing otherwise (R522): a decoded tone is kept for the window it answers in (R124); a window that one target
answered maps its stage to the phase and one that none answered leaves the phase unmapped (R123); a fault report and a
temperature report of a mapped stage reach its phase, and one of a stage that no phase has is counted as dropped (R126); a
Hot-Join starts a roll call (R711); a descriptor is taken in, and the last one ends the roll call (R129, R130, R120); the poll
updates every mapped stage of its bus (R121); and a stage transfer ends with its result (R133). -/
def Obligations.StageBusEvents : Prop := ∀ (s : State) (m : Fin 4) (addr : Fin 128),
  let d := s.dev
  (sbusOpen d = false → ∀ (code fault : Byte) (temp : BitVec 16),
    ∀ i ∈ [Instr.toneAnswer m addr code, .stageFaultReport m addr fault, .stageTempReport m addr temp, .hotJoin m],
      Makes i s fun d => d)
  ∧ (sbusOpen d = true →
      (∀ code : Byte, d.on PH_MAP_CTL_BUSY = true → code.toNat / 64 = d.hn .mapRound 0 →
        Makes (.toneAnswer m addr code) s fun d =>
          { d with toneAns := d.toneAns ++ [{ bus := m, addr := addr, code := code.toNat }] })
      ∧ (∀ (mirror : List Byte) (n : Phase), d.hn .toneNow = n.val + 1 →
          let silent : Dev := if phState d n = phTone then phSet d n phIdle else d
          let ends (e : Dev) (res : Nat) : Dev :=
            let e := if e.hon .mapByGo then e.setF PH_MAP_CTL_RESULT 0 res else e
            toneNext (hotAttach (e.setH .toneNow 0 0) (phDom e n))
          ((∀ a ∈ d.toneAns, a.code ≠ toneCode d n) →
            Makes (.toneWindowClose mirror) s fun _ => ends ((unmap silent n).setF PH_STAGE_CONFLICT n 0) 2)
          ∧ (∀ (t : Target) (a : ToneAns), d.toneAns.filter (fun a => a.code == toneCode d n) = [a] →
              d.targets.find? (fun x => x.bus == a.bus && x.addr == a.addr) = some t →
              Makes (.toneWindowClose mirror) s fun _ => ends (mapStage silent n t (mirror.map BitVec.toNat)) 1))
      ∧ (d.hn .toneNow = 0 → ∀ mirror : List Byte, Makes (.toneWindowClose mirror) s fun d => d)
      ∧ (∀ fault : Byte, phaseOfStage d m addr = none →
          Makes (.stageFaultReport m addr fault) s fun d => d.set1 PH_SB_CAUSE_IBI_DROP m)
      ∧ (∀ (fault : Byte) (n : Nat), phaseOfStage d m addr = some n → 16 ≤ phDom d n →
          Acts (.stageFaultReport m addr fault) s fun e =>
            e.f PH_SFAULT_FAULT n = fault.toNat ∧ e.on PH_CAUSE_STAGE_FAULT n = true)
      ∧ (∀ (temp : BitVec 16) (n : Nat), phaseOfStage d m addr = some n →
          stageTemp d n temp.toNat < ((descByte d n 0x35 : Int) - 40) * 16 →
          Makes (.stageTempReport m addr temp) s fun d =>
            ((d.setF PH_STAGE_TEMP n (stageTemp d n temp.toNat)).set1 PH_CAUSE_STAGE_TEMP n).setH .tAbove n 0)
      ∧ (d.on PH_SB_CFG_EN m = true → d.on PH_SB_CFG_HJ_EN m = true →
          (d.targets.filter fun t => t.bus == m.val).length < 16 →
          Acts (.hotJoin m) s fun e => e.on PH_SB_CAUSE_HJ m = true ∧ e.on PH_SB_STATUS_ROLL m = true
            ∧ e.on PH_SB_STATUS_BUSY m = true)
      ∧ (∀ (t : BitVec 48 × List Byte), d.on PH_SB_STATUS_ROLL m = true →
          Makes (.descReadDone m (some t) false) s (fun d => newTarget d m t.1.toNat (t.2.map BitVec.toNat))
          ∧ Makes (.descReadDone m none true) s fun d => rollEnd d m)
      ∧ (∀ ans : List (Fin 128 × Byte × BitVec 16), d.on PH_SB_CFG_EN m = true → d.on PH_SB_CFG_ROLL_MS m = true →
          Makes (.presencePoll m ans) s fun d => d.each 64 fun d n =>
            if d.on PH_STAGE_MAPPED n && d.f PH_STAGE_BUS n == m.val then
              presence d m n ((ans.find? fun a => a.1.val == d.f PH_STAGE_DADDR n).map fun a => (a.2.1.toNat, a.2.2.toNat))
            else d)
      ∧ (∀ (data : Word), d.on PH_SACC_CMD_BUSY = true →
          Acts (.stageAccessDone true data) s fun e => e.on PH_SACC_CMD_BUSY = false ∧ e.f PH_SACC_CMD_RES 0 = 0
            ∧ (d.on PH_SACC_CMD_WR = false →
              e.r PH_SACC_DATA = putBits (d.r PH_SACC_DATA) 0 (8 * d.f PH_SACC_CMD_LEN) data.toNat)))

/-- The groves (R141 to R177): a trigger of an enabled task makes it pending, fills its slot or is dropped; the dispatcher
starts the task of highest priority that may start; a pass that exceeds its budget is cancelled for a self-test; a
self-test at power-up admits its engine or retires it; the steering queue drains a write, or a marker whose writes become
pending; and a full capture ends. -/
def Obligations.GroveEvents : Prop := ∀ (s : State) (g : Grove),
  let d := s.dev
  (∀ x, d.gvTrigs.find? (fun x => x.grove == g.val) = some x → gvOn d g = true → ∀ t : Fin 64,
      let i := tk g t
      (∀ u : Fin 64, u ≠ t → d.on GV_TCFG_EN (tk g u) = false) → d.on GV_TCFG_EN i = true → d.f GV_TCFG_TRIG i = x.kind →
      d.f GV_TCFG_TSEL i = x.sel % 256 → x.kind ≠ 2 → d.f GV_TCFG_DIV i = 0 →
      (d.f GV_TSTAT_STATE i = 1 → Makes (.taskTrigger g) s fun d =>
        ((({ d with gvTrigs := d.gvTrigs.erase x } : Dev).setH .gDiv i 0).setF GV_TSTAT_STATE i 2).setH .gStamp i x.stamp)
      ∧ (d.f GV_TSTAT_STATE i = 3 → Makes (.taskTrigger g) s fun d =>
        ((({ d with gvTrigs := d.gvTrigs.erase x } : Dev).setH .gDiv i 0).setF GV_TSTAT_STATE i 4).setH .gStamp2 i x.stamp)
      ∧ (d.f GV_TSTAT_STATE i = 2 ∨ d.f GV_TSTAT_STATE i = 4 → Makes (.taskTrigger g) s fun d =>
        ((({ d with gvTrigs := d.gvTrigs.erase x } : Dev).setH .gDiv i 0).set1 GV_TSTAT_OVR i).set1 GV_CAUSE_TOVR g))
  ∧ (∀ t old, d.on GV_CFG_EN g = true → gvOn d g = true → nextTask d g = some (t, old) →
      Makes (.passStart g) s fun d => startPass d g t old)
  ∧ (∀ (e : Engine) (p : Pass), passOn d g e = some p →
      Makes (.passWatchdog g e) s fun d => passTest (d.set1 GV_CAUSE_WDOG g) p 1)
  ∧ (∀ e : Engine, gvOn d g = true → d.h .gEng (eg g e) = 5 →
      Makes (.selfTestDone g e true) s (fun d => fillPool (d.setH .gEng (eg g e) 6) g)
      ∧ Makes (.selfTestDone g e false) s fun d => fillPool (retire d g e 2) g)
  ∧ (∀ x : SteerItem, d.steerq.find? (fun x => x.grove == g.val) = some x →
      (x.kind = 0 → Makes (.steerWriteDrain g) s fun d => provWrite { d with steerq := d.steerq.erase x } x)
      ∧ (x.kind ≠ 0 → Makes (.steerMarkerArrive g) s fun d => marker { d with steerq := d.steerq.erase x } x))
  ∧ (d.hn .capSt g = 2 → d.hn .capCnt g = 1024 → capF d g 16 8 = 0 →
      Makes (.captureDone g) s fun d => gvEvent (setCapStatus (d.setH .capSt g 0) g true false false) g 0)

/-- The AVSBus (R364, R365; the coding of its frames and of their data is the model's, notes/assumptions/55.md): a read answers
the word of its kind for the rail the select maps to, a write is the register write of the partition the bus stands for, and
a frame of an unmapped select, of a rail that is not that partition's, unsealed, of a value out of its window, or that the
device does not support takes no action. -/
def Obligations.AvsFrames : Prop := ∀ (s : State) (sel : Fin 8),
  let d := s.dev
  avsRuns d = true →
  let noAct (F : Fld) (k : Option Nat) (d : Dev) : Dev := avsAnswer (d.set1 F) 1 none k
  (∀ k, avsRail d sel = some k → regPowered d FL_REF k = true →
    let reads (i : Instr) (x : Int) : Prop := Makes i s fun d => avsAnswer d 0 (some x) (some k)
    let part := d.f IG_AVS_CFG_PART
    reads (.avsVoltageRead sel) (usat (avsMv d k) 16)
    ∧ reads (.avsRateRead sel) (avsRate d k * 257)
    ∧ reads (.avsCurrentRead sel) (sat (d.fi FL_ISUM_ISUM k * 25) 16)
    ∧ Makes (.avsTemperatureRead sel) s (fun d => avsAnswer (hottest d k).2 0 (some ((hottest d k).1 * 10 / 16)) (some k))
    ∧ Acts (.avsStatusRead sel) s (fun e => ∃ st hi lo end_, e.portOut = [st, hi, lo, end_] ∧ st < 32
        ∧ (128 ≤ hi ↔ d.h .refFrac k = refTarget d k) ∧ (16 ≤ st ↔ d.h .refFrac k = refTarget d k)
        ∧ e.fresh = d.fresh + 2)
    ∧ (∀ data : BitVec 16,
      let t := avsTarget d k data.toNat
      let rate := usat (avsSlew d k (data.toNat / 256)) 16
      (railOwner d k ≠ (part, false) →
        Makes (.avsVoltageWrite sel data) s (noAct IG_DCAUSE_AVS_REF (some k))
        ∧ (data.toNat / 256 = data.toNat % 256 → Makes (.avsRateWrite sel data) s (noAct IG_DCAUSE_AVS_REF (some k))))
      ∧ (t < d.f IG_AVSWIN_MIN k ∨ (d.f IG_AVSWIN_MAX k : Int) < t →
        Makes (.avsVoltageWrite sel data) s (noAct IG_DCAUSE_AVS_REF (some k)))
      ∧ (data.toNat / 256 = data.toNat % 256 → rate = 0 →
        Makes (.avsRateWrite sel data) s (noAct IG_DCAUSE_AVS_REF (some k)))
      ∧ (railOwner d k = (part, false) → (d.f IG_AVSWIN_MIN k : Int) ≤ t → t ≤ d.f IG_AVSWIN_MAX k →
        Leads (.avsVoltageWrite sel data) s
          ((regWrite s (.packet (Fin.ofNat 8 part) 0) row_FL_REF k
            (putBits (present d FL_REF k) FL_REF_TGT.lo FL_REF_TGT.n t)).onDev fun d => avsAnswer d 0 none (some k)))
      ∧ (railOwner d k = (part, false) → data.toNat / 256 = data.toNat % 256 → rate ≠ 0 →
        Leads (.avsRateWrite sel data) s
          ((regWrite s (.packet (Fin.ofNat 8 part) 0) row_FL_RAMP k
            (putBits (present d FL_RAMP k) FL_RAMP_SLEW.lo FL_RAMP_SLEW.n rate)).onDev
              fun d => avsAnswer d 0 none (some k)))))
  ∧ (avsRail d sel = none → ∀ data : BitVec 16,
      ∀ i ∈ [Instr.avsVoltageRead sel, .avsRateRead sel, .avsCurrentRead sel, .avsTemperatureRead sel, .avsStatusRead sel,
        .avsVoltageWrite sel data, .avsRateWrite sel data], Makes i s (noAct IG_DCAUSE_AVS_SEL none))
  ∧ Makes (.avsUnsupportedFrame false) s (noAct IG_DCAUSE_AVS_SEL none)
  ∧ Makes (.avsUnsupportedFrame true) s fun d => avsAnswer ((d.set1 IG_DCAUSE_AVS_CRC).incSat IG_AVS_STAT_CRC) 2 none none

/-- The life of a rail, event by event, each in the state that calls for it (R183 to R214): the timeout and the
qualification of its sequencing, the end of arming, the pre-bias decision, the aborted start and its retry, power good
rising and falling, the end of blanking, and the end of a stop. Of two rows of R185 whose conditions hold in one cycle the earlier
is taken (R17): the timeout of PENDING before its qualification, the aborted start before a stop and before power good. -/
def Obligations.RailLifecycle : Prop := ∀ (s : State) (k : Rail),
  let d := s.dev
  domOn d 0 = true →
  (rlState d k = rlPending → d.on RL_SEQ_TMO_TMO k = true →
    Makes (.seqTimeout k) s fun d => toOff ((d.setF RL_CTL_EN k 0).set1 RL_CAUSE_SEQ_TMO k) k)
  ∧ (rlState d k = rlPending → d.on RL_CTL_EN k = true →
      (∀ j, j < 16 → (d.f RL_SEQ_ON_DEP k).testBit j = true → d.on RL_STATUS_PG j = true) →
    Makes (.seqOnQualify k) s fun d => if seqTmoDue d k then seqTimeout d k else
      ((d.setF RL_STATUS_STATE k rlArming).setH .shutPend k 0).eachIn (eligible d k) phStart)
  ∧ (d.on RL_STATUS_OFF_WAIT k = true →
      (∀ j, j < 16 → (d.f RL_SEQ_OFF_DEP k).testBit j = true → rlState d j = rlOff) →
    (∀ mon, abortDue d k = some mon → Makes (.offSeqQualify k) s fun d => startAbort d k mon)
    ∧ (abortDue d k = none →
        Makes (.offSeqQualify k) s fun d => stopRail 17 (d.setF RL_STATUS_OFF_WAIT k 0) k 0 (d.f RL_CFG_OFF_MODE k)))
  ∧ (rlState d k = rlArming → phasesIn d k phArming = [] → d.f RL_CFG_MIN_PH k ≤ narmed d k →
    Makes (.armingDone k) s fun d => toPrebias d k)
  ∧ (rlState d k = rlArming →
      (d.f RL_CFG_MIN_PH k ≤ narmed d k → Makes (.armTimeout k) s fun d => toPrebias d k)
      ∧ (narmed d k < d.f RL_CFG_MIN_PH k → Makes (.armTimeout k) s fun d =>
          toOff (((shutdown d k).setF RL_CTL_EN k 0).set1 RL_CAUSE_ARM_FAIL k) k))
  ∧ (∀ v : Int, rlState d k = rlPrebias →
      let p := d.each 14 fun d _ => pbStep d k v
      let sensed := p.f FL_WIN_CENTRE k
      let pre := p.f RL_PB_MIN k * 2048 ≤ sensed * 100
      let e := (p.setF RL_PB_SENSED k sensed).setF RL_STATUS_PREBIAS k (b2i (decide pre))
      let high := e.a FL_REF_TGT k * 100 + e.f RL_PB_HIGH k * 2048 < sensed * 100
      (d.hn .pbLeft k = 14 → d.f FL_WIN_CENTRE k = 0x2000 → (sensed : Int) = clampI (v / 100) 0 16383)
      ∧ (high → Makes (.prebiasDone k v) s fun _ => toOff (((shutdown e k).setF RL_CTL_EN k 0).set1 RL_CAUSE_PB_HIGH k) k)
      ∧ (¬high → pre → Makes (.prebiasDone k v) s fun _ => enterSoftStart e k sensed true)
      ∧ (¬high → ¬pre → Makes (.prebiasDone k v) s fun _ => enterSoftStart e k 0 false))
  ∧ (rlState d k = rlSoftStart →
      (d.f RL_TRK_TIME k ≤ d.hn .trkRun k ∨ d.f RL_TRK_CBC_N k ≤ d.hn .trkCbc k →
        Makes (.startAbort k) s fun d => startAbort d k true)
      ∧ Makes (.ssTimeout k) s fun d => startAbort d k false)
  ∧ (rlState d k = rlHiccup → Makes (.hiccupExpire k) s fun d => toPrebias (d.setF FB_RLAT_START_SHORT k 0) k)
  ∧ (d.on RL_STATUS_PG k = false → d.hon .rampDone k = true → (d.fi FL_ERR_X k).natAbs ≤ d.f RL_PG_WIN k * 256 →
      (rlState d k = rlOn → Makes (.pgRise k) s fun d => (d.setF RL_STATUS_PG k 1).raiseRail k 4)
      ∧ (∀ mon, abortDue d k = some mon → Makes (.pgRise k) s fun d => startAbort d k mon)
      ∧ (rlState d k = rlSoftStart → abortDue d k = none → Acts (.pgRise k) s fun e => e.on RL_STATUS_PG k = true ∧ rlState e k = rlOn
          ∧ e.on RL_STATUS_NS_FORCE k = false ∧ e.h .ssBlank k = b2i (d.on RL_SS_BLANK_EXT k)))
  ∧ (d.on RL_STATUS_PG k = true → d.f RL_PG_FILT k * 4 ≤ d.hn .pgBad k →
      (rlState d k = rlOn → Makes (.pgFall k) s fun d => pgFall (d.set1 RL_CAUSE_PG_LOST k) k)
      ∧ (rlState d k ≠ rlOn → Makes (.pgFall k) s fun d => pgFall d k))
  ∧ (rlState d k = rlOn → Makes (.blankEnd k) s fun d => d.setH .ssBlank k 0)
  ∧ (shutdownReady d k = true → Makes (.shutdownComplete k) s fun d => shutdownDone d k)
  ∧ (rlState d k = rlStopping → d.hon .shutPend k = true →
      Makes (.stopTimeout k) s fun d => shutdownDone (allTri (d.set1 RL_CAUSE_OFF_TMO k) k) k)

/-- The decisions of the firebreak, each where its source has decided and not acted yet: the comparators of a rail take
their FB_RACT action (R219, R220), a mode-2 discharge ends with every phase TRI (R222), a hard over-current latches and
holds its phase, a high-side short fails it (R219, R237), the device sources take their FB_DACT action (R219), the die scan
keeps the hottest reading (R238), the pin times end (R227, R228), the comparator test ends with its result (R235), and the
margin interval adapts both fractions (R242). -/
def Obligations.FirebreakDecisions : Prop := ∀ (s : State),
  let d := s.dev
  domOn d 0 = true →
  (∀ k : Rail,
    (d.on FB_RSTAT_OV k = true → d.hon .ovDone k = false →
      Makes (.ovTrip k) s fun d => railAction (d.setH .ovDone k 1) k 0)
    ∧ (d.on FB_RSTAT_UV k = true → d.hon .uvDone k = false →
      Makes (.uvTrip k) s fun d => railAction (d.setH .uvDone k 1) k 1)
    ∧ (d.on FB_RSTAT_ABS k = true → d.hon .absDone k = false →
      Makes (.absTrip k) s fun d => railAction (d.setH .absDone k 1) k 2)
    ∧ (∀ tmo : Bool, d.f FB_RSTAT_OFF_ACT k = 2 → tmo = true ∨ belowVend d k = true →
      Makes (.dischargeEnd k tmo) s fun d => fbTri ((d.setF FB_RSTAT_OFF_ACT k 1).setH .forceHold k 0) k)
    ∧ (∀ pass : Bool, d.on FB_RTEST_BUSY k = true →
      let ok : Bool := if d.hn .testCnt k = 128 then d.hn .testSeen k == 15 else pass
      Acts (.compTestDone k pass) s fun e => e.on FB_RTEST_BUSY k = false ∧ e.f FB_RTEST_RES k = (if ok then 1 else 2)
        ∧ e.on (if ok then FB_RCAUSE_TEST_DONE else FB_RCAUSE_TEST_FAIL) k = true)
    ∧ (let g := d.hn .ovNear k
       let x := d.f FB_RADAPT_OV_FE k
       let runs := d.on FB_RADAPT_EN k = true ∧ rlState d k = rlOn ∧ d.on FL_STEER_GLADE k = false
       Acts (.marginInterval k) s fun e => e.h .ovNear k = 0 ∧ e.h .uvNear k = 0
         ∧ (¬runs → e = (d.setH .ovNear k 0).setH .uvNear k 0)
         ∧ (runs → e.f FB_RADAPT_OV_FE k =
             if d.f FB_RADAPT_GTH k ≤ g ∧ x < d.f FB_RCFG_OV_CEIL k then x + 1
             else if g = 0 ∧ d.f FB_RCFG_OV_F k < x then x - 1 else x)))
  ∧ (∀ n : Phase,
    (d.on FB_PSTAT_HOC n = true → d.hon .hocDone n = false → d.f PH_STATUS_PWM n ≠ pwmTri →
      Makes (.hocTrip n) s fun d =>
        phHold ((((d.set1 FB_PLAT_HOC n).set1 FB_PCAUSE_HOC n).raisePhase n 2).setH .hocDone n 1) n)
    ∧ (d.f FB_PHOC_HSS_N n ≤ d.f FB_PSTAT_HSS_CNT n → Makes (.hssDeclare n) s fun d => hssDeclare d n))
  ∧ (∀ x : Instr × Nat, x ∈ [(.inputOc, 0), (.storeOv, 4), (.storeOc, 5), (.storeOt, 6)] →
      (d.f FB_DSTAT_SRC).testBit x.2 = true → d.hn .devDone x.2 ≠ 1 →
      Makes x.1 s fun d => devAction (d.setH .devDone x.2 1) x.2)
  ∧ (∀ temps : List Byte, Makes (.dieOtScan temps) s fun d => dieScan d (temps.map BitVec.toNat))
  ∧ (∀ j : Fin 4, Makes (.crowMinExpire j) s fun d => fbPins (d.setH .crowMin j 0))
  ∧ Makes .efuseMinExpire s fun d => fbPins (d.setH .efuseMin 0 0)

/-- The store's own events (R261 to R283): the commit point of its loop, its part of a granted intent, insertion and
removal, the end of QUALIFY and of HOLDUP, the throttle and droop escalation and its release, the close of a charge
session, the ramp of the current limits, and the ceiling tick, which works on the mean of its ten codes (R263). -/
def Obligations.StoreEvents : Prop := ∀ s : State,
  let d := s.dev
  domOn d 0 = true →
  (∀ n tap, leadOf d 16 = some n → valleyDue d n = some tap → d.h .commitAt 16 ≠ d.now + 1 →
    Makes .storeCommit s storeCommit)
  ∧ (∀ (codes : List (Fin 4096)) (vbus : Fin 4096) (th : Fin 256),
      Makes (.ceilTick codes vbus th) s fun d =>
        let e := overdrawCheck d
        ceilConverters (ceilTick e (((codes.map Fin.val).map fun c => c * e.f ST_SHUNT_K / 65536).sum / 10) vbus th))
  ∧ (∀ (k : Rail) (id : BitVec 16) (ends : Bool) (i : Intent),
      d.intents.filter (fun i => i.rail == k.val && i.slot == id.toNat / 256 % 4 && i.id == id.toNat % 256 && i.valid
        && 0 < i.part && decide ((if ends then i.arr + (i.dur : Int) * 2000 else i.arr) ≤ (d.now : Int))
        && i.pt == (if ends then 1 else 0)) = [i] →
      Makes (.storePartArrival k id ends) s fun d => partTurn d i ends)
  ∧ Makes .presenceDebounced s (fun d => storeSettle (d.set1 ST_STATUS_PRES))
  ∧ Makes .storeRemoval s (fun d => storeRemoved (d.setF ST_STATUS_PRES 0 0))
  ∧ (d.f ST_STATUS_STATE = stQualify → saneVolts d (d.f ST_VMEAS_VSTORE) = true →
      Makes .qualifyDone s fun d =>
        storeSettle ((d.setF ST_STATUS_STATE 0 stConnect).eachIn (storePhases d) phStart))
  ∧ (d.f ST_STATUS_STATE = stHoldup → 1000 ≤ d.h .sHoldOk →
      Makes .holdupExit s fun d => d.setF ST_STATUS_STATE 0 stRun)
  ∧ (d.f ST_ESC_TREL ≤ d.hn .sRunR →
      Makes .throttleRelease s fun d => escShow (d.each 4 fun d g => throttleEnd d g) false)
  ∧ (d.on ST_CEIL_LIM = true → d.f ST_ESC_DDLY ≤ d.hn .sRunD → Makes .droopStep s droopStep)
  ∧ (∀ l : Fin 16, d.hon .dEffPend l = true → Acts (.droopEffect l) s fun e =>
      e.h .dEffPend l = 0 ∧ e.h .dEffect l = max 0 (d.h .dIin l - d.f ST_IIN_IIN))
  ∧ (droopLevel d ≠ 0 → d.f ST_ESC_DREL * 10 ≤ d.hn .dRelRun (droopLevel d) →
      Makes .droopRelease s fun d => escShow ((d.setH .dLevel (droopLevel d) 0).each 16 fun e k =>
        if e.hon .dOn k && prioOf e k == droopLevel d then e.setH .dRel k 1 else e) false)
  ∧ (d.hon .sSession = true → d.hon .sSessIdle = true → Acts .chargeSessionStopped s fun e => e.hon .sSession = false)
  ∧ (d.hon .sRamping = true → 10 ≤ d.h .sRampTick →
      Acts .limitRampStep s fun e => e.h .sRamp = d.h .sRamp + d.f ST_REINS_RAMP ∧ e.h .sRampTick = 0)

/-- Link training (R297 to R305, R318 to R320): each event of a link acts in the state that the event belongs to and in no other.
What comes in on a lane whose pads are held is not heard (R522). What a member lane finds is noted for it, and the link goes on
when every carrier lane has found it; a timeout with only some of them behind is a fault of the bond, with all of them one of
the link; so is a member that hears another link width than its fellows. -/
def Obligations.LinkTraining : Prop := ∀ (s : State) (l : Lane),
  let d := s.dev
  let L := leadLane d l
  let inSt (st : Nat) (i : Instr) (g : Dev → Dev) : Prop :=
    if lnState d l = st then Makes i s g else Makes i s fun d => d
  let member (st : Nat) (i : Instr) (g : Dev → Dev) : Prop :=
    if lnState d l = st ∧ l.val ∈ carriers d L then Makes i s g else Makes i s fun d => d
  let rxSt (st : Nat) (i : Instr) (g : Dev → Dev) : Prop :=
    if lnState d l = st ∧ lrxHeld d l = false then Makes i s g else Makes i s fun d => d
  let rxMember (st : Nat) (i : Instr) (g : Dev → Dev) : Prop :=
    if lnState d l = st ∧ l.val ∈ carriers d L ∧ lrxHeld d l = false then Makes i s g else Makes i s fun d => d
  let found (st : Nat) (i : Instr) (note : Dev → Dev) (go : Dev → Nat → Dev) : Prop :=
    ((∀ m ∈ carriers d L, m ≠ l → d.hbit .lMemb L (m - L) = true) →
      rxMember st i fun d => go ((note d).setHbit .lMemb L (l - L) true) L)
    ∧ ((∃ m ∈ carriers d L, m ≠ l ∧ d.hbit .lMemb L (m - L) = false) →
      rxMember st i fun d => (note d).setHbit .lMemb L (l - L) true)
  let late (st : Nat) (i : Instr) (alone : Dev → Nat → Dev) : Prop :=
    let behind := (carriers d L).filter fun m => !d.hbit .lMemb L (m - L)
    inSt st i fun d => if behind.length < (carriers d L).length then bondFault d L behind else alone d L
  rxSt lnDetect (.detectPulse l true) (fun d => toPoll (setAll d L LN_STATUS_PRES 1) L)
  ∧ rxSt lnDetect (.detectPulse l false) (fun d => d)
  ∧ found lnPoll (.pollDone l) (fun d => d.setF LN_STATUS_FLOCK l 1) (fun d L => (setLn d L lnConfig).setH .lPWidth L 0)
  ∧ late lnPoll (.pollTimeout l) trainFail
  ∧ (∀ (rates : BitVec 4) (width : Fin 4) (preset : Fin 16) (lver : Byte),
      let offered := if d.hon .lMemb L then d.hn .lPRates L &&& rates.toNat else rates.toNat
      let fellow := d.hn .lPWidth L
      let noted (d : Dev) : Dev := if fellow = 0 then d.setH .lPWidth L (width.val + 1 : Nat) else d
      let agrees : Prop := fellow = 0 ∨ fellow = width.val + 1 ∨ d.on LN_STATUS_WIDTH L = false
      (agrees → width.val = d.f LN_STATUS_WIDTH L → lver.toNat = d.f LN_VER_LVER → d.hn .lRates L &&& offered ≠ 0 →
        found lnConfig (.configDone l rates width preset lver true)
          (fun d => ((noted d).setH .lPRates L offered).setH .lPPreset l preset.val) toRate)
      ∧ (agrees → width.val ≠ d.f LN_STATUS_WIDTH L ∨ lver.toNat ≠ d.f LN_VER_LVER ∨ d.hn .lRates L &&& offered = 0 →
        rxMember lnConfig (.configDone l rates width preset lver true) noted)
      ∧ (¬agrees → rxMember lnConfig (.configDone l rates width preset lver true) fun d => bondFault (noted d) L [l])
      ∧ (d.on LN_STATUS_WIDTH L = true →
        rxMember lnConfig (.configDone l rates width preset lver false) fun d => bondFault (noted d) L [l]))
  ∧ (∀ (e : Dev) (r : Nat), r < 4 → (e.hn .lRates L &&& e.hn .lPRates L).testBit r = true →
      (∀ j, j < 4 → (e.hn .lRates L &&& e.hn .lPRates L).testBit j = true → j ≤ r) →
      toRate e L = unlockAll (setAll ((setLn e L lnRate).setH .lIdle L (e.now + 2000 : Nat)) L LN_STATUS_RATE r) L)
  ∧ inSt lnConfig (.configTimeout l) (fun d => trainFail d L)
  ∧ found lnRate (.rateLock l) (fun d => d.setF LN_STATUS_FLOCK l 1) toEq
  ∧ late lnRate (.rateTimeout l) failedAttempt
  ∧ (∀ (coef : Bool) (preset : Fin 16) (post up : Bool),
      rxMember lnEq (.eqRequest l coef preset post up) fun d => eqRequest d l coef preset post up)
  ∧ (∀ eye : Byte, member lnEq (.eqPhaseStep l eye) fun d => eqTrial d l eye.toNat)
  ∧ (d.hon .lEqSent l = true → found lnEq (.eqDone l) (fun d => d) toCheck)
  ∧ late lnEq (.eqTimeout l) failedAttempt
  ∧ (∀ (t0 : Word) (turn : BitVec 16), rxSt lnCheck (.latReceived l t0 turn) fun d =>
      sendFlit d L 0xF3 [(103, 1, 1), (64, 32, t0.toNat), (48, 16, turn.toNat)])
  ∧ (∀ (t0 : Word) (turn : BitVec 16), d.h .lRttCnt L = 3 → rxSt lnCheck (.latEchoReceived l t0 turn) fun d =>
      (d.setH .lRttSum L (d.h .lRttSum L + (((d.now : Int) - t0.toNat) % 2 ^ 32 - turn.toNat))).setH .lRttCnt L 4)
  ∧ (4 ≤ d.h .lRttCnt L → rxSt lnCheck (.checkDone l) fun d => toActive d L)
  ∧ inSt lnCheck (.checkTimeout l) (fun d => failedAttempt d L)
  ∧ rxSt lnRecover (.recoverDone l) (fun d => toCheck d L)
  ∧ inSt lnRecover (.recoverTimeout l) (fun d => toDown d L)
  ∧ (d.on LN_CTL_AUTO L = true → inSt lnDown (.downDone l) fun d => toDetect (allRates d L) L)
  ∧ (d.on LN_CTL_AUTO L = false → inSt lnDown (.downDone l) fun d => toLnOff (d.setF LN_CTL_EN L 0) L)

/-- The links at work (R293, R308 to R315, R321), what comes in on a lane whose pads are held being unheard (R522): acknowledgements and skips of an ACTIVE link, a flit that fails its CRC, a flit of
an unknown type, electrical idle during training, the lock of a group's PLL, and what ends a link or tries it again: its
loss, a replay timeout, the partner's recovery, and an identity frame or its timeout. -/
def Obligations.LinksAtWork : Prop := ∀ (s : State) (l : Lane),
  let d := s.dev
  let L := leadLane d l
  let active := d.f LN_STATUS_STATE L = lnActive
  let lead (i : Instr) (g : Dev → Dev) : Prop := Leads i s (qSettle (s.onDev g))
  (active → d.hon .lAckDue L = true ∨ d.hon .lFreed L = true → Makes (.ackTimer l) s fun d => sendAck d L false)
  ∧ (lnRate ≤ lnState d l → lnState d l ≤ lnRecover → l.val ∈ carriers d L → 1024 ≤ d.h .lSkip l → Makes (.skipSend l) s fun d =>
      sendOn (d.setH .lSkip l (d.h .lSkip l - 1024)) L l 0x02 0)
  ∧ (lrxHeld d l = true →
      (∀ (typ : Byte) (pay : BitVec 104), ∀ i ∈ [Instr.flitCrcFail l, .eiosReceived l, .reservedTypeFlit l typ pay], Makes i s fun d => d)
      ∧ ∀ (pay : BitVec 104) (frame : List Byte), ∀ i ∈ [Instr.ackFlit l pay, .ts2RecovReceived l, .identityFrame l frame],
          lead i fun d => d)
  ∧ (lrxHeld d l = false → let e := rxBad (d.incSat LN_ERRCNT_CRC L) l
     (active → Makes (.flitCrcFail l) s fun _ => sendAck e L true) ∧ (¬active → Makes (.flitCrcFail l) s fun _ => e))
  ∧ (lrxHeld d l = false → ∀ (typ : Byte) (pay : BitVec 104),
      (0x12 ≤ typ.toNat → typ.toNat ≤ 0x14 →
        Makes (.reservedTypeFlit l typ pay) s fun d => (rxGood d l).set1 IG_RCAUSE_DROP (pay.toNat / 2 ^ 100))
      ∧ (0x26 ≤ typ.toNat → typ.toNat < 0x40 →
        Makes (.reservedTypeFlit l typ pay) s fun d => (rxGood d l).set1 LN_CAUSE_RSVD_TYPE L))
  ∧ (lrxHeld d l = false → lnRate ≤ lnState d l → lnState d l ≤ lnCheck →
      Makes (.eiosReceived l) s fun d => failedAttempt (rxGood d l) L)
  ∧ (∀ g : Fin 3, d.on LN_GRP_PWR g = true → Makes (.lnPllLock g) s fun d =>
      (d.setF LN_GRP_PLL_LOCK g 1).each 12 tryStart)
  ∧ (lrxHeld d l = false → ∀ pay : BitVec 104, lead (.ackFlit l pay) fun d => ackFlit d L pay.toNat)
  ∧ (active → lead (.linkDown l) (fun d => linkDown d L) ∧ lead (.replayTimeout l) (fun d => replay d L)
      ∧ (lrxHeld d l = false → lead (.ts2RecovReceived l) fun d => replayLimit d L false)
      ∧ (d.on LN_STATUS_UP L = false → lead (.identityTimeout l) fun d => linkDown (d.set1 LN_CAUSE_TRAIN_FAIL L) L))
  ∧ (lrxHeld d l = false → ∀ frame : List Byte, active → identityOk d L (frame.map fun b => b.toNat) = true → d.on LN_STATUS_UP L = false →
      lead (.identityFrame l frame) fun d => identityApply d L (frame.map fun b => b.toNat))

/-- Coupled rails (R351 to R363). A HELLO is sent for a coupled rail, which then at least is JOINING; a frame of the group
from a link that is up reaches the coupled rail whose peer the link carries: CYCLE and HELLO leave what they say in the
peer's record, an EPOCH waits for its cycle unless the rail is master, an accepted CARRY lets the carrier take over; and a
peer that has missed too many cycles is lost. -/
def Obligations.CoupledRailFrames : Prop := ∀ (s : State) (l : Lane) (k p : Nat) (pay : BitVec 104),
  let d := s.dev
  domOn d 0 = true →
  let L := leadLane d l
  let bits (hi lo : Nat) : Nat := pay.toNat / 2 ^ lo % 2 ^ (hi + 1 - lo)
  (∀ k : Rail, d.on IG_CPL_EN k = true →
    d.hon .cHelloDue k = true ∨ (cplRole d k ≠ cplMaster ∧ cplRole d k ≠ cplMember ∧ d.hn .cHelloAt k ≤ d.now + 1 - 2000000) →
    Makes (.helloSend k) s fun d =>
      let e := (d.setH .cHelloAt k (d.now + 1 : Nat)).setH .cHelloDue k 0
      sendHello (if cplRole d k = cplNone then e.setF IG_CPLSTAT_ROLE k cplJoining else e) k)
  ∧ (∀ (k : Rail) (q : Fin 3) (x : Peer), x ∈ peersOn d k → x.p = q.val → d.f IG_CPL_GAIN_MISS k ≤ x.miss →
      Makes (.memberLost k q) s fun d => memberLost d k q)
  ∧ (lrxHeld d l = false → cplRails d L = [(k, p)] → ∀ stamp : BitVec 64,
      let all (g : Dev → Dev) : Prop := ∀ i ∈ [Instr.cycleReceive l pay stamp, .epochReceive l pay, .helloReceive l pay,
        .carryReceive l pay], Makes i s g
      (16 ≤ d.laneFill l → all fun d => d.set1 IG_RCAUSE_DROP k)
      ∧ (d.laneFill l < 16 → linkUp d L = true → d.f IG_CPL_GROUP k ≠ bits 103 96 →
          all fun d => (d.laneIn l).set1 IG_RCAUSE_DROP k)
      ∧ (d.laneFill l < 16 → linkUp d L = true → d.f IG_CPL_GROUP k = bits 103 96 →
          (Acts (.cycleReceive l pay stamp) s fun e => ∃ x, peerOf e k p = some x ∧ x.heard = true
            ∧ x.isum = (bits 79 64 : Int).bmod 65536 ∧ x.nsw = bits 62 56 ∧ x.cap = bits 15 0 ∧ x.miss = 0)
          ∧ (cplRole d k ≠ cplMaster → Acts (.epochReceive l pay) s fun e => ∃ x ∈ e.epochs, x.rail = k
            ∧ x.epoch = bits 95 88 ∧ x.act = bits 87 80 ∧ x.ver = bits 79 72 ∧ x.feat = bits 71 56 ∧ x.members = bits 55 52)
          ∧ Makes (.helloReceive l pay) s (fun d => helloReceive (d.laneIn l) L pay.toNat)
          ∧ (bits 95 88 = 1 → Makes (.carryReceive l pay) s fun d => (d.laneIn l).setH .cCarry k 1)
          ∧ (bits 95 88 = 2 → Makes (.carryReceive l pay) s fun d => (d.laneIn l).set1 IG_RCAUSE_CPL_VER k)))

/-- Intents and grants (R324 to R348). An intent frame that its rail may take is admitted or refused with a grant, and one
it may not is dropped (R324, R331); CANCEL ends the intent it names (R334); the feed-forward of a pulse is shown while it lasts
and gone after it (R343); a grant ends with its validity (R338); STATUS goes out for every rail of the link; the load estimate is formed
each 16 LCLK (R345); and the intents of a rail are resolved from the oldest. -/
def Obligations.IntentsAndGrants : Prop := ∀ (s : State) (l : Lane) (pay : BitVec 104),
  let d := s.dev
  domOn d 0 = true →
  let L := leadLane d l
  let bits (hi lo : Nat) : Nat := pay.toNat / 2 ^ lo % 2 ^ (hi + 1 - lo)
  let f := bits 103 100
  let may : Prop := d.on IG_RCFG_EN f = true ∧ (d.f LN_RAILS_RAILS L).testBit f = true ∧ linkUp d L = true
    ∧ partnerCap d L 0 = true
  (lrxHeld d l = true → ∀ stamp : BitVec 64, ∀ i ∈ [Instr.intent l pay stamp, .cancel l pay, .ifwdReceive l pay stamp, .gfwdReceive l pay,
    .cycleReceive l pay stamp, .epochReceive l pay, .helloReceive l pay, .carryReceive l pay], Makes i s fun d => d)
  ∧ (lrxHeld d l = false → 16 ≤ d.laneFill l → ∀ stamp : BitVec 64,
    Makes (.intent l pay stamp) s (fun d => d.set1 IG_RCAUSE_DROP f)
    ∧ Makes (.cancel l pay) s (fun d => d.set1 IG_RCAUSE_DROP f))
  ∧ (lrxHeld d l = false → d.laneFill l < 16 →
    let e := d.laneIn l
    (slotOf d f l L = none ∨ ¬may → ∀ stamp : BitVec 64,
      Makes (.intent l pay stamp) s (fun _ => e.set1 IG_RCAUSE_DROP f)
      ∧ Makes (.cancel l pay) s (fun _ => e.set1 IG_RCAUSE_DROP f))
    ∧ (∀ (q : Nat) (stamp : BitVec 64), slotOf d f l L = some q → may → cplRole d f ≠ cplDown →
        let delta := (bits 91 76 : Int).bmod 65536
        let arr : Int := stamp.toNat + 2 * bits 75 60 - d.f LN_LAT_RTT L / 2
        let i := newIntent e f q L 0 (bits 99 92) delta stamp.toNat arr (bits 59 44) (bits 43 40) (bits 39 32) (trustOf d f q)
        (delta = 0 ∨ bits 59 44 = 0 → Makes (.intent l pay stamp) s fun _ => sendGrant e i 3 3)
        ∧ (delta ≠ 0 → bits 59 44 ≠ 0 → rlState d f ≠ rlOn → Makes (.intent l pay stamp) s fun _ => sendGrant e i 3 0)
        ∧ (delta ≠ 0 → bits 59 44 ≠ 0 → rlState d f = rlOn → arr - stamp.toNat ≤ 16000 → cplRole d f ≠ cplMember →
            Makes (.intent l pay stamp) s fun _ =>
              let r := admitIntent e i
              sendGrant (if r.1.on IG_CPL_EN f && r.2.2.1 < 3 then sendIfwd r.1 r.2.1 delta else r.1) r.2.1 r.2.2.1 r.2.2.2))
    ∧ (∀ (q : Nat) (i : Intent), slotOf d f l L = some q → may →
        (liveOn d f).find? (fun i => i.slot == q && i.orig == 0 && i.id == bits 99 92) = some i →
        Makes (.cancel l pay) s fun _ =>
          if (cancelIntent e i).on IG_CPL_EN f then sendIfwd (cancelIntent e i) i 0 else cancelIntent e i))
  ∧ (∀ k : Rail, Makes (.ffPulseStart k) s (fun d => ffShow (ffPresent d k) k)
      ∧ Acts (.ffPulseEnd k) s (fun e => ∀ q ∈ e.pulses,
          (d.now : Int) < q.e + decaySpan d q.rail ∨ (d.now : Int) < q.vEnd + decaySpan d q.rail)
      ∧ (d.now % 16 = 0 → Makes (.loadEstimate k) s fun d => loadEstimate d k)
      ∧ Makes (.intentResolve k) s (fun d => d.each 8 fun d _ => resolveHead d k))
  ∧ (∀ (k : Rail) (slot : Fin 4) (id : Byte) (i : Intent),
      d.intents.filter (fun i => i.rail == k.val && i.slot == slot.val && i.id == id.toNat && i.valid
        && decide (i.arr + i.dur * 2000 ≤ (d.now : Int))) = [i] →
      Makes (.grantValidityEnd k slot id) s fun d => endGrant d i)
  ∧ (d.on IG_DCFG_STPER = true → isMember d l = false → d.hn .igStAt l ≤ d.now + 1 - d.f IG_DCFG_STPER * 2000 →
      Makes (.statusSend l) s fun d => statusSend (d.setH .igStAt l (d.now + 1 : Nat)) l)
  ∧ (∀ (k p : Nat) (stamp : BitVec 64), lrxHeld d l = false → cplRails d L = [(k, p)] →
      let both (g : Dev → Dev) : Prop := Makes (.ifwdReceive l pay stamp) s g ∧ Makes (.gfwdReceive l pay) s g
      (16 ≤ d.laneFill l → both fun d => d.set1 IG_RCAUSE_DROP k)
      ∧ (d.laneFill l < 16 → linkUp d L = true →
          (d.f IG_CPL_GROUP k ≠ bits 103 96 → both fun d => (d.laneIn l).set1 IG_RCAUSE_DROP k)
          ∧ (d.f IG_CPL_GROUP k = bits 103 96 →
              Makes (.ifwdReceive l pay stamp) s (fun d => ifwdReceive (d.laneIn l) L pay.toNat stamp.toNat)
              ∧ Makes (.gfwdReceive l pay) s fun d => gfwdReceive (d.laneIn l) L pay.toNat)))

/-- The converters' sequencers (R367 to R387): a trigger of the selected source starts a sequence 10 ns later when the
converter is idle, and fills the pending slot when it runs; a discarded conversion is followed by one that counts; the
last step ends the sequence; and a finished record goes to the crossing's ring, or is dropped and counted where the ring
does not take it. -/
def Obligations.ConverterSequencers : Prop := ∀ (s : State) (c : Fin 8),
  let d := s.dev
  let src := d.f TC_CFG_TSRC c
  let next (i : Instr) (g : Dev → Dev) : Prop := d.on TC_CTL_EN c = true → domOn d 12 = true →
    (d.f TC_STATUS_STATE c = 0 → Makes i s fun d => seqStart (g d) c ((d.now + 9) / 10 * 10 + 20))
    ∧ (d.f TC_STATUS_STATE c = 1 → d.on TC_CFG_MODE c = false → Makes i s fun d => (g d).setF TC_STATUS_STATE c 2)
    ∧ (∀ x, d.f TC_STATUS_STATE c = 1 → d.on TC_CFG_MODE c = true → tcSeqOf d c = some x →
        Makes i s fun d => setSeq ((g d).setF TC_STATUS_STATE c 3) c (some { x with stop := 1 }))
    ∧ (2 ≤ d.f TC_STATUS_STATE c → Makes i s fun d => ((g d).set1 TC_CAUSE_OVR c).incSat TC_CNT_TDROP c)
  (src = 1 → d.hn .tcPerAt c ≤ d.now →
    next (.tcPeriodExpire c) fun d => d.setH .tcPerAt c (d.hn .tcPerAt c + 10 * d.f TC_PER_PER c : Nat))
  ∧ (src = 2 → next (.tcTrigger c) fun d => d)
  ∧ (∀ (v : Int) (x : TcSeq), tcSeqOf d c = some x → x.start + 400 ≤ d.now → x.stop = 0 →
      (x.disc = true → d.on TC_CFG_RAW c = false → Makes (.conversionDone c v) s fun d =>
        setSeq (d.setH .tcPrevCh c (tcCh ((x.steps[x.cur]?).getD 0) + 1 : Nat)) c
          (some { x with disc := false, start := x.start + 400 }))
      ∧ (x.disc = false → x.steps.length ≤ x.cur + 1 →
        Acts (.conversionDone c v) s fun e => e.on TC_CAUSE_DONE c = true))
  ∧ (domOn d 0 = true → ∀ r, d.tcRecs.find? (fun r => r.conv == c.val && r.handed) = some r → r.w0 < 2 ^ 32 → d.hn .tcHand c ≤ d.now →
      let t := s.onDev fun d =>
        let d := { d with tcRecs := d.tcRecs.erase r }.setH .tcHand c (d.now / 10 * 10 + 10 : Nat)
        let d := if r.w0.testBit 16 then
            (d.setF TC_LAST_W0 (16 * c.val + r.w0 / 2 ^ 28) r.w0).setF TC_LASTT_STAMP (16 * c.val + r.w0 / 2 ^ 28) r.stamp
          else d
        let d := if r.w0.testBit 21 then d.set1 TC_CAUSE_RANGE c else d
        if r.w0.testBit 22 then d.set1 TC_CAUSE_PFAIL c else d
      let ring := t.dev.f TC_RING_RING c
      let put := ringPut t ring (leBytes 4 r.w0 ++ leBytes 4 r.w1 ++ leBytes 8 r.stamp)
      (ringOwner t.dev ring = (convOwner t.dev c, false) → put.1 = true → Leads (.recordHandover c) s put.2)
      ∧ (ringOwner t.dev ring ≠ (convOwner t.dev c, false) ∨ put.1 = false → Leads (.recordHandover c) s
          ((ringDrop (if ringOwner t.dev ring = (convOwner t.dev c, false) then put.2 else t) ring).onDev fun d =>
            (d.set1 TC_CAUSE_RING_OVR c).incSat TC_CNT_RDROP c)))

/-- Trails, rings and DMA at work (R467, R473, R475 to R482, R489 to R494): a source event leaves the queue and goes down the enabled
trails of its source; a routed event is delivered where source, trail and consumer belong together; an event-log slot that
is enabled puts its element into its ring; a descriptor is fetched, and a valid one without a trigger runs; a burst moves
the next running channel; and a hardware consumer claims an element of its own ring. -/
def Obligations.TrailsRingsAndDma : Prop := ∀ s : State,
  let d := s.dev
  domOn d 0 = true →
  (∀ e t, d.evq = e :: t → Makes .trailEvent s fun d =>
    ({ d with evq := t } : Dev).eachIn (trailsOf d e.src) fun d j => trailRoute d j e)
  ∧ (∀ (cons : BitVec 12) (e : PortEv), d.ports.find? (fun e => e.cons == cons.toNat) = some e →
      let t := s.onDev fun d => { d with ports := d.ports.erase e }
      (deliverOk t e = true → Leads (.consumerDelivery cons) s (deliver t e))
      ∧ (deliverOk t e = false → Acts (.consumerDelivery cons) s fun x => x.on CH_CAUSE_REFUSED = true))
  ∧ (∀ (n : Fin 256) (e : PortEv), d.ports.find? (fun e => e.cons == 0x1000 + n.val) = some e →
      d.on QM_ELOG_EN n = true →
      let t := s.onDev fun d => { d with ports := d.ports.erase e }
      let r := d.f QM_ELOG_RING n
      let put := ringPut t r (leBytes 4 (e.src + 65536 * e.trail) ++ leBytes 4 0 ++ leBytes 8 e.stamp)
      (ctx t r 1 / 256 % 4 = 0 → Leads (.elogWrite n) s (if put.1 then put.2 else ringDrop put.2 r))
      ∧ (ctx t r 1 / 256 % 4 ≠ 0 → Leads (.elogWrite n) s (ringDrop t r)))
  ∧ (∀ (ch : Fin 32) (w : List Nat) (t : State), d.f DM_STATUS_STATE ch = 1 → dmaTurn d = some ch.val →
      ((sramBank (d.f DM_CUR_ADDR ch)).isSome = true ∨ d.f DM_CUR_ADDR ch < 0x840000) →
      dmaWords (s.onDev fun d => (d.setH .dmaLast 0 (ch.val + 1 : Nat)).setF DM_LEFT_BYTES ch 0) ch (d.f DM_CUR_ADDR ch) 4
        = (.ok w, t) →
      let n (i : Nat) : Nat := (w[i]?).getD 0
      let left (d : Dev) : Dev := d.setF DM_LEFT_BYTES ch (n 2 % 2 ^ 24 : Nat)
      (dmaValid (n 0) (n 1) (n 2) (n 3) = false →
        Leads (.descriptorFetch ch) s (t.onDev fun d => dmaError (left d) ch 3 false))
      ∧ (dmaValid (n 0) (n 1) (n 2) (n 3) = true → (n 2).testBit 30 = false →
        Leads (.descriptorFetch ch) s (t.onDev fun d =>
          let d := ((((left d).setH .dmaSrc ch (n 0)).setH .dmaDst ch (n 1)).setH .dmaCtl ch (n 2)).setH .dmaNext ch (n 3)
          ((d.setH .dmaHold ch 0).setH .dmaHeld ch 0).setF DM_STATUS_STATE ch 3)))
  ∧ (∀ j, j < 32 → d.f DM_STATUS_STATE ((d.hn .dmaLast + j) % 32) = 3 →
      (∀ k, k < j → d.f DM_STATUS_STATE ((d.hn .dmaLast + k) % 32) ≠ 3 ∧ d.f DM_STATUS_STATE ((d.hn .dmaLast + k) % 32) ≠ 1) →
      let ch := (d.hn .dmaLast + j) % 32
      Leads .dmaBurst s (dmaBeats ch 200 64 (s.onDev fun d => d.setH .dmaLast 0 (ch + 1 : Nat))))
  ∧ (∀ (ch : Fin 32) (j : Nat) (t : State), d.f DM_STATUS_STATE ch = 4 →
      let r := d.f DM_RING_RING ch
      ringMine s r (chanOwner d ch) 0 = true → claim s r = (some j, t) →
      Leads (.tokenClaim (.dma ch)) s (t.onDev fun d =>
        ((d.setF DM_CUR_ADDR ch (rElem t r j)).setH .dmaElem ch (j + 1 : Nat)).setF DM_STATUS_STATE ch 1))
  ∧ (∀ (l : Lane) (j : Nat) (ws : List Nat) (t u : State), d.on QM_LTX_EN l = true → d.f LN_STATUS_STATE l = lnActive →
      d.on LN_STATUS_UP l = true → txWaiting d l < 32 →
      let r := d.f QM_LTX_RING l
      ringMine s r (laneOwner d l).1 3 = true → claim s r = (some j, t) → qmRead t (rElem t r j) 68 = (some ws, u) →
      let b := ws.flatMap fun w => leBytes 4 w
      let n := leNat (b.take 2)
      1 ≤ n → n ≤ 256 → b[2]? = some 2 →
      Leads (.tokenClaim (.lane l)) s (qSettle (u.onDev fun d => sendMsg d l 2 ((b.drop 16).take n) (j + 1))))
  ∧ (∀ ch : Fin 32, Makes (.dmaTrig none ch) s fun d => dmaTrig d ch)

/-- The verifier and the fuse engine, and the two ways a message of parts goes on: VERIFY_DONE ends a verification with its
result, and takes the version of an image that passes (R422); a fuse pulse sets its fuse and leaves the list of those to
come (R417), and an operation without read-back ends (R416); a message flit in sequence is taken in and one out of sequence
is not (R306, R307); a continuation that stays idle is abandoned (R436). -/
def Obligations.VerifierFusesAndParts : Prop := ∀ s : State,
  let d := s.dev
  domOn d 0 = true →
  (d.on CH_VCTL_BUSY = true → Does .verifyDone s fun t => t.dev.on CH_VCTL_BUSY = false
    ∧ (t.dev.f CH_VCTL_RES = 0 ∨ t.dev.on CH_CAUSE_VERIFY_FAIL = true))
  ∧ (∀ (x : FuseOp) (b i : Nat) (l : List (Nat × Nat)), d.fuseOp = some x → x.todo = (b, i) :: l → d.hn .fuseAt ≤ d.now →
      let t := (s.setMb (fuseKey b) (fuseByte s b ||| 2 ^ i)).onDev fun d => pulseStart { d with fuseOp := some { x with todo := l } }
      Leads .fusePulseDone s (if d.on PX_STATUS_BOR = true ∧ l ≠ [] then fuseEnd t x.op 3 else t))
  ∧ (∀ x : FuseOp, d.fuseOp = some x → x.todo = [] → x.op = 4 → Leads .fuseOpDone s (fuseStop s 0))
  ∧ (∀ (l : Lane) (pay : BitVec 104) (stamp : BitVec 64), lrxHeld d l = false →
      let L := leadLane d l
      let g (e : Dev) : State := (qSettle { s with dev := e }).onDev takePortMsgs
      let head := pay.toNat / 2 ^ 96
      (d.f LN_STATUS_STATE L ≠ lnActive ∨ head ≠ d.hn .lRxSeq L → Leads (.msgFlit l pay stamp) s (g d))
      ∧ (d.f LN_STATUS_STATE L = lnActive → head = d.hn .lRxSeq L → Leads (.msgFlit l pay stamp) s
          (let e := reassemble ((d.setH .lRxSeq L ((d.h .lRxSeq L + 1) % 256)).setH .lAckDue L (d.h .lAckDue L + 1)) L
             pay.toNat stamp.toNat
           g (if e.f LN_STATUS_STATE L = lnActive && (e.f LN_RETRY_ACK_N L : Int) ≤ e.h .lAckDue L then sendAck e L false
              else e))))
  ∧ (∀ (stream : Fin 36) (c : Cont), c ∈ d.conts → c.stream = stream.val →
      Makes (.contTimeout stream) s fun d =>
        ({ d with conts := d.conts.filter fun c => c.stream != stream.val } : Dev).set1 CP_CAUSE_REASM)

/-! ### Register writes that are commands -/

/-- Writes to the registers of rails and phases that start something: STALE is cleared (R82), HOLD released, which sends
the writes it kept on their way (R75), counts cleared (R83, R134), auto-zero started on an ARMED phase (R105), FAILED left
(R210), tone mapping, roll call, a bus and a stage access started (R714, R118, R133). -/
def Obligations.LoopAndPhaseWrites : Prop := ∀ (s : State) (who : Initiator),
  (∀ k : Rail,
    Writes (.staleClear who k) s who row_FL_STEER k (fieldWord s.dev FL_STEER_STALE k 1)
      (fun d => d.setF FL_STEER_STALE k (d.f FL_STEER_STALE k &&& bitsOf (d.setNow (FL_STEER.addr k)) FL_STEER_STALE.lo 1 : Nat))
    ∧ Writes (.flCmtHoldRelease who k) s who row_FL_CMT k (fieldWord s.dev FL_CMT_HOLD k 0) (fun d =>
        let e := d.setF FL_CMT_HOLD k 0
        if d.on FL_CMT_HOLD k then
          { e with pendSw := e.pendSw ++ (e.heldSw.filter fun x => x.dom == k.val).map fun x => { x with stamp := d.now },
                   heldSw := e.heldSw.filter fun x => x.dom != k.val }
        else e)
    ∧ Writes (.flCmtClrcnt who k) s who row_FL_CMT k (fieldWord s.dev FL_CMT_CLRCNT k 1)
        (fun d => (took d row_FL_CMT k (fieldWord d FL_CMT_CLRCNT k 1)).setR FL_COUNT k 0))
  ∧ (∀ n : Phase,
      Writes (.azStart who n) s who row_PH_CTL n (fieldWord s.dev PH_CTL_AZ n 1) (fun d =>
        if phState d n = phArmed ∧ d.on PH_STATUS_AZ_BUSY n = false then
          ((d.set1 PH_STATUS_AZ_BUSY n).setH .azSum n 0).setH .azCnt n 0
        else d.set1 PH_CAUSE_ACC_ERR n)
      ∧ Writes (.clrFail who n) s who row_PH_CTL n (fieldWord s.dev PH_CTL_CLR_FAIL n 1) (fun d =>
          if phState d n = phFailed then
            let d := phSet d n phIdle
            let e := if d.on PH_STAGE_MAPPED n then lifeUnmap d n else d
            hotAttach (settleCap (boundMoved d (e.setF PH_STAGE_MAPPED n 0) (phDom e n)) (phDom e n)) (phDom e n)
          else d)
      ∧ Writes (.phClrcnt who n) s who row_PH_CTL n (fieldWord s.dev PH_CTL_CLRCNT n 1) (fun d => d.setR PH_COUNT n 0)
      ∧ (let w := withF 0 [(PH_MAP_CTL_PHASE, n.val), (PH_MAP_CTL_GO, 1)]
         Writes (.toneMapGo who n) s who row_PH_MAP_CTL 0 w fun d =>
           if d.on PH_MAP_CTL_BUSY then d.set1 PH_SB_CAUSE_ACC_ERR
           else
             let e := (took d row_PH_MAP_CTL 0 w).setF PH_MAP_CTL_RESULT 0 0
             if phState e n = phIdle then toneStart e (2 ^ n.val) true
             else (e.setH .mapRound 0 ((e.h .mapRound 0 + 1) % 4)).setF PH_MAP_CTL_RESULT 0 4)
      ∧ (∀ (wr : Bool) (addr : BitVec 16) (len : Fin 8),
          let w := withF 0 [(PH_SACC_CMD_PHASE, n.val), (PH_SACC_CMD_WR, b2i wr), (PH_SACC_CMD_ADDR, addr.toNat),
                            (PH_SACC_CMD_LEN, len.val), (PH_SACC_CMD_GO, 1)]
          Writes (.stageAccessGo who n wr addr len) s who row_PH_SACC_CMD 0 w fun d =>
            if d.on PH_SACC_CMD_BUSY then d.set1 PH_SB_CAUSE_ACC_ERR else saccGo (took d row_PH_SACC_CMD 0 w)))
  ∧ (let w := withF (s.dev.r PH_MAP_CTL) [(PH_MAP_CTL_ALL, 1)]
     Writes (.toneMapAll who) s who row_PH_MAP_CTL 0 w fun d =>
       if d.on PH_MAP_CTL_BUSY then d.set1 PH_SB_CAUSE_ACC_ERR
       else toneStart (took d row_PH_MAP_CTL 0 w) (unmappedIdle (took d row_PH_MAP_CTL 0 w)) false)
  ∧ (∀ m : Fin 4,
      Writes (.rollCallStart who m) s who row_PH_SB_ROLL m (fieldWord s.dev PH_SB_ROLL_START m 1)
        (fun d => rollStart d m false)
      ∧ Writes (.busEnable who m) s who row_PH_SB_CFG m (fieldWord s.dev PH_SB_CFG_EN m 1) (fun d =>
          let e := took d row_PH_SB_CFG m (fieldWord d PH_SB_CFG_EN m 1)
          if d.on PH_SB_CFG_EN m then e else rollStart e m true))

/-- Writes that start and stop groves, tasks and rails, and that kick, clear or test the firebreak: a grove dispatches or
ends its passes (R179), a task is admitted or turned away by its declared load (R162), a grove leads rails (R139), a rail is
requested on or stopped in sequence (R183, R185, R186), a watchdog takes 0x5A3C alone (R239, R240), and latches are cleared
under their own conditions (R235, R249). -/
def Obligations.GroveRailAndFirebreakWrites : Prop := ∀ (s : State) (who : Initiator),
  (∀ (g : Grove) (data : Word),
    (let w := putBits data 0 1 1
     Writes (.groveEnable who g data) s who row_GV_CFG g w fun d => gvShow (took d row_GV_CFG g w) g)
    ∧ (let w := putBits data 0 1 0
       Writes (.groveDisable who g data) s who row_GV_CFG g w fun d =>
         gvShow (if d.on GV_CFG_EN g then cancelAll (took d row_GV_CFG g w) g else took d row_GV_CFG g w) g)
    ∧ Writes (.gvLeadWrite who g data) s who row_GV_LEAD g data (fun d => gvLeadWrite d g data)
    ∧ (∀ t : Fin 64,
        let j := g.val * 64 + t.val
        let w := putBits data 0 1 1
        Writes (.taskEnable who g t data) s who row_GV_TCFG j w fun d =>
          let e := took d row_GV_TCFG j w
          let off := e.setF GV_TCFG_EN j 0
          gvShow (if d.on GV_TCFG_EN j then e
                  else if admitRefused off g t then off.set1 GV_CAUSE_ADMIT g
                  else ((off.setF GV_TCFG_EN j 1).setF GV_TSTAT_STATE j 1).setH .gDiv j 0) g))
  ∧ (∀ k : Rail,
      Writes (.railEnWrite who k) s who row_RL_CTL k (fieldWord s.dev RL_CTL_EN k 1) (fun d =>
        if d.hon .tapTest then d.set1 RL_CAUSE_CFG_ERR k
        else if rlState d k ≠ rlOff then d.setF RL_CTL_EN k 1
        else if d.on RL_CTL_EN k then d else enCheck d k)
      ∧ Writes (.sequencedStop who k) s who row_RL_CTL k (fieldWord s.dev RL_CTL_EN k 0) (fun d =>
          let e := d.setF RL_CTL_EN k 0
          let stop := stopRail 17 e k 0 (e.f RL_CFG_OFF_MODE k)
          if (abortDue e k).isSome = true then
            stopRail 17 (startAbort e k ((abortDue e k).getD false)) k 0 (e.f RL_CFG_OFF_MODE k)
          else if rlState d k = rlSoftStart ∨ rlState d k = rlOn then
            if e.f RL_SEQ_OFF_DEP k = 0 ∨ (offQualifies e k = true ∧ e.f RL_SEQ_OFF_DLY k = 0) then stop
            else e.setF RL_STATUS_OFF_WAIT k 1
          else if rlState d k = rlLatched then (if e.hon .shutPend k then e else toOff e k)
          else stop)
      ∧ (∀ bits : BitVec 6, Writes (.fbRclr who k bits) s who row_FB_RCLR k (bits.setWidth 32) fun d =>
          rclr d k bits.toNat (passes (tagOf d who) (railOwner d k)) ((tagOf d who).2 || (tagOf d who).1 == 0))
      ∧ Writes (.compTestGo who k) s who row_FB_RTEST k (fieldWord s.dev FB_RTEST_GO k 1) (fun d =>
          let e := took d row_FB_RTEST k (fieldWord d FB_RTEST_GO k 1)
          if rlState d k = rlOff then
            (((e.set1 FB_RTEST_BUSY k).setH .testBlank k (d.now + 1)).setH .testCnt k 0).setH .testSeen k 0
          else d.set1 FB_RCAUSE_ACC_ERR k))
  ∧ (∀ (n : Phase) (bits : BitVec 3), Writes (.fbPclr who n bits) s who row_FB_PCLR n (bits.setWidth 32) fun d =>
      pclr d n bits.toNat (passes (tagOf d who) (phaseOwner d n)) ((tagOf d who).2 || (tagOf d who).1 == 0))
  ∧ (∀ bits : BitVec 8, Writes (.fbDclr who bits) s who row_FB_DCLR 0 (bits.setWidth 32) fun d =>
      storeSettle (dclr d bits.toNat))
  ∧ (∀ key : BitVec 16,
      let kick (j : Nat) (d : Dev) : Dev := if key = 0x5A3C then d.setH .wdgAt j (d.now + 1 : Nat) else d.set1 FB_DCAUSE_ACC_ERR
      Writes (.wdgKick who key) s who row_FB_WDG_KICK 0 (key.setWidth 32) (kick 0)
      ∧ ∀ c : Fin 4, Writes (.cwdgKick who c key) s who row_FB_CWDG_KICK c (key.setWidth 32) (kick (1 + c)))

/-- Writes to the store, the lanes, the coupled rails and the converters: the store is enabled or disabled (R259, R280), its
ceiling refused where the canopy would trip first (R274, R279), the allowance refills the bucket; a lane is enabled,
disabled, tested, retrained and its counts cleared (R297, R323); carry-over and rejoining are asked for (R363); and a
converter is enabled, disabled, triggered, stopped and its counts cleared (R370, R377, R382, R391). -/
def Obligations.StoreLinkAndConverterWrites : Prop := ∀ (s : State) (who : Initiator),
  (let same (d : Dev) : Dev := d.setR ST_CTL 0 (d.r ST_CTL)
   Writes (.stEnWrite who) s who row_ST_CTL 0 (fieldWord s.dev ST_CTL_EN 0 1) (fun d => storeEn (same d) true)
   ∧ Writes (.storeDisable who) s who row_ST_CTL 0 (fieldWord s.dev ST_CTL_EN 0 0) (fun d => storeEn (same d) false))
  ∧ (∀ data : Word,
      Writes (.ceilWrite who data) s who row_ST_CEIL 0 data (fun d =>
        if d.f FB_IIN_TH * 16 ≤ (bitsOf data 0 16 + bitsOf data 0 16 * bitsOf data 16 10 / 1000) * 65536 / d.f ST_SHUNT_K then
          d.set1 ST_CAUSE_CFG_ERR
        else took d row_ST_CEIL 0 data)
      ∧ Writes (.allowWrite who data) s who row_ST_ALLOW 0 data (fun d =>
          (took d row_ST_ALLOW 0 data).setR ST_BUCKET 0 (BitVec.ofNat 32 (bitsOf data 0 16 * 65536))))
  ∧ (∀ l : Lane,
      let same (d : Dev) : Dev := d.setR LN_CTL l (d.r LN_CTL l)
      let then_ (g : Dev → Dev) (s : State) : State := qSettle (s.onDev g)
      let tested (d : Dev) (w : Word) : Dev :=
        let c := testCount d l
        c.setR LN_TEST l (putBits (newWord d row_LN_TEST l w) LN_TEST_ERRS.lo LN_TEST_ERRS.n (c.f LN_TEST_ERRS l))
      (isMember s.dev l = false → s.dev.on LN_CTL_EN l = false →
        Stores (.lnEnWrite who l) s who row_LN_CTL l (fieldWord s.dev LN_CTL_EN l 1) (then_ fun d =>
          laneEnable (same d) l))
      ∧ (isMember s.dev l = false →
          Stores (.laneDisable who l) s who row_LN_CTL l (fieldWord s.dev LN_CTL_EN l 0) (then_ fun d =>
            laneDisable (same d) l))
      ∧ (isMember s.dev l = true →
          Stores (.lnEnWrite who l) s who row_LN_CTL l (fieldWord s.dev LN_CTL_EN l 1) (then_ fun d =>
            (same d).set1 LN_CAUSE_ACC_ERR l)
          ∧ Stores (.laneDisable who l) s who row_LN_CTL l (fieldWord s.dev LN_CTL_EN l 0) (then_ fun d =>
            (same d).set1 LN_CAUSE_ACC_ERR l)
          ∧ Stores (.retrain who l) s who row_LN_CTL l (fieldWord s.dev LN_CTL_RETRAIN l 1) (then_ fun d =>
            let L := leadLane d l
            let e := (same d).set1 LN_CAUSE_ACC_ERR l
            if d.f LN_STATUS_STATE L = lnActive then linkDown e L else e))
      ∧ (isMember s.dev l = false → s.dev.on LN_CTL_EN l = true →
          Stores (.retrain who l) s who row_LN_CTL l (fieldWord s.dev LN_CTL_RETRAIN l 1) (then_ fun d =>
            if d.f LN_STATUS_STATE l = lnActive then linkDown (same d) l else same d)
          ∧ Stores (.laneClrcnt who l) s who row_LN_CTL l (fieldWord s.dev LN_CTL_CLRCNT l 1) (then_ fun d =>
              ((same d).setR LN_ERRCNT l 0).setR LN_DOWNCNT l 0))
      ∧ (s.dev.f LN_STATUS_STATE l = lnOff → s.dev.on LN_TEST_EN l = false →
          Stores (.laneTestStart who l) s who row_LN_TEST l (fieldWord s.dev LN_TEST_EN l 1) (then_ fun d =>
            let e := tested d (fieldWord d LN_TEST_EN l 1)
            if e.on PX_STATUS_REFCLK then
              let d := applyPreset (e.setF LN_STATUS_STATE l lnTest) l (e.f LN_CFG_PRESET l)
              prbsSeed ((d.setF LN_STATUS_RATE l (d.f LN_CFG_RMAX l)).setF LN_TEST_ERRS l 0) l
            else e))
      ∧ (s.dev.f LN_STATUS_STATE l = lnTest → s.dev.on LN_TEST_EN l = true →
          Stores (.laneTestStop who l) s who row_LN_TEST l (fieldWord s.dev LN_TEST_EN l 0) (then_ fun d =>
            tryStart ((tested d (fieldWord d LN_TEST_EN l 0)).setF LN_STATUS_STATE l lnOff) l)))
  ∧ (∀ k : Rail,
      Writes (.carryRequest who k) s who row_IG_CPLCMD k (fieldWord s.dev IG_CPLCMD_CARRY k 1) (fun d => carryRequest d k)
      ∧ Writes (.rejoinRequest who k) s who row_IG_CPLCMD k (fieldWord s.dev IG_CPLCMD_REJOIN k 1)
          (fun d => rejoinRequest d k))
  ∧ (∀ c : Fin 8,
      Writes (.tcEnable who c) s who row_TC_CTL c (fieldWord s.dev TC_CTL_EN c 1) (fun d => tcEnable d c)
      ∧ Writes (.tcDisable who c) s who row_TC_CTL c (fieldWord s.dev TC_CTL_EN c 0) (fun d =>
          if d.on TC_CTL_EN c then tcAbort (d.setF TC_CTL_EN c 0) c else d)
      ∧ Writes (.tcGo who c) s who row_TC_CTL c (fieldWord s.dev TC_CTL_GO c 1) (fun d => tcTrigger d c)
      ∧ Writes (.tcAbort who c) s who row_TC_CTL c (fieldWord s.dev TC_CTL_ABORT c 1) (fun d =>
          match tcSeqOf d c with
          | some x => setSeq (d.setF TC_STATUS_STATE c 3) c (some { x with stop := 2 })
          | none => d)
      ∧ Writes (.tcClrcnt who c) s who row_TC_CTL c (fieldWord s.dev TC_CTL_CLRCNT c 1) (fun d => d.setR TC_CNT c 0))

/-! ### Power and time -/

/-- Power domains (R516 to R531), each command in the state that calls for it: a wake in Quiet returns the device to Active;
Glade and Clearing let the domains go that they do not keep, and the return from Glade or a wake from Clearing brings them
back; a domain that no vote wants enters, walks its steps and ends off, one that is wanted again returns, and a bank that
was off and not retained comes back with none of its bytes valid. While SVC is not on, what its blocks would do is not done
(R40, R512): no event of theirs changes anything. -/
def Obligations.PowerDomains : Prop := ∀ (s : State) (n : Fin 48),
  let d := s.dev
  (d.f PD_STATE_STATE = 1 → coreWakes d = true ∨ d.rings ≠ [] → Makes .quietWake s fun d => pdArrive d 0)
  ∧ (d.hn .pdTrans = 1 → d.hn .pdAllow = 0 → (∀ k, k < 16 → d.on FL_STATUS_FF_ACT k = false) →
      (∀ l, l < 12 → d.f LN_STATUS_STATE l = lnOff) →
      Makes .gladeDomainsEnter s fun d => afterOff ((d.setH .pdAllow 0 1).each 32 fun d n =>
        if (domOn d n || domState d n == 1) && !allowed d n then domEnter d n else d))
  ∧ (d.hn .pdTrans = 2 → (∀ g, g < 16 → wanted d (16 + g) = false ∨ domOn d (16 + g) = true ∧ d.on GV_STATUS_SELFTEST g = false) →
      Makes .gladeReturnDone s fun d => pdArrive (d.each 16 fun d k =>
        let d := d.setF FL_STEER_GLADE k 0
        if (switching d k).isEmpty then unfreeze d k true else d) 0)
  ∧ (d.hn .pdTrans = 3 → d.hn .pdAllow = 0 → d.on FC_STATUS_STATE = false →
      Makes .clearingDomainsEnter s fun d => afterOff ((d.setH .pdAllow 0 2).each 48 fun d n =>
        if isDomain n && n != 0 && domOn d n then domEnter d n else d))
  ∧ (∀ src : Fin 5, d.hn .pdTrans = 3 ∨ d.hn .pdAllow = 3 → (d.r PD_WAKE_EN).getLsbD src = true →
      wakeCond d src = true → Makes (.aonWake src) s fun d =>
        let d := (d.setBit PD_WAKE_SRC_SRC 0 src true).setH .pdAllow 0 0
        let d := ((d.setH .wVote 0 1).setH .pdTrans 0 4).setF PD_STATE_BUSY 0 1
        let d := if domOn d 0 then d else domWake d 0
        if domOn d 0 then pdArrive (wakeAll d) 0 else d)
  ∧ (n.val ≠ 14 → n.val ≠ 15 → domOn d n = true → wanted d n = false → Makes (.domainEnter n) s fun d => domEnter d n)
  ∧ (domState d n = 2 →
      (d.f PD_DSTAT_STEP n = 0 → n.val < 5 ∨ 8 < n.val →
        Makes (.domainEntryStep n) s fun d => d.setF PD_DSTAT_STEP n 1)
      ∧ (d.f PD_DSTAT_STEP n = 1 → Makes (.domainEntryStep n) s fun d =>
          setHeld ((d.setH .pdHeldNow n (b2i (n.val < 14 && !d.on PD_DSTAT_HELD n))).setF PD_DSTAT_STEP n 2) n true)
      ∧ (d.f PD_DSTAT_STEP n = 2 → Makes (.domainEntryStep n) s fun d => d.setF PD_DSTAT_STEP n 3)
      ∧ (d.f PD_DSTAT_STEP n = 3 → Makes (.domainEntryStep n) s fun d =>
          let d := afterOff (domOff (d.setH .pdHeldNow n 0) n)
          if d.hon .pdLate n then domReturn d n else d))
  ∧ (wanted d n = true → domOn d n = false →
      (domState d n = 0 ∨ domState d n = 3 → Makes (.domainWake n) s fun d =>
        (d.setF PD_DSTAT_STATE n 4).setH .pdLate n 0)
      ∧ (domState d n = 2 → 3 ≤ d.f PD_DSTAT_STEP n → Makes (.domainWake n) s fun d =>
        (d.setH .pdLate n 1).set1 PD_CAUSE_WAKE_LATE))
  ∧ (domState d n = 4 →
      (n.val < 32 ∨ d.hon .pdKept n = true → Makes (.domainReturnDone n) s fun d => domReturned d n)
      ∧ (32 ≤ n.val → d.hon .pdKept n = false → Leads (.domainReturnDone n) s
          ((clearValid s (inBank (n.val - 32))).onDev fun d => domReturned d n)))
  ∧ (domOn d 0 = false → ∀ (k : Rail) (q : Phase) (l : Lane) (ch : Fin 32) (cons : BitVec 12) (g : Fin 256) (tm : Fin 16)
      (pay : BitVec 104) (stamp : BitVec 64),
      ∀ i ∈ [Instr.ovTrip k, .uvTrip k, .absTrip k, .hocTrip q, .hssDeclare q, .inputOc, .storeOv, .storeOc, .storeOt,
          .seqTimeout k, .seqOnQualify k, .offSeqQualify k, .armingDone k, .armTimeout k, .startAbort k, .ssTimeout k,
          .hiccupExpire k, .pgRise k, .pgFall k, .shutdownComplete k, .stopTimeout k, .storeCommit, .presenceDebounced,
          .storeRemoval, .qualifyDone, .holdupExit, .droopStep, .intent l pay stamp, .cancel l pay, .ffPulseStart k,
          .ffPulseEnd k, .statusSend l, .intentResolve k, .cycleReceive l pay stamp, .helloSend k, .trailEvent,
          .consumerDelivery cons, .elogWrite g, .dmaTrig none ch, .dmaBurst, .descriptorFetch ch, .tokenClaim (.dma ch),
          .fusePulseDone, .verifyDone, .timerMatch tm, .timerOverflow tm], Makes i s fun d => d)

/-- Timers, the RTC, meters and the life counters (R536, R539 to R561): a running timer meets its MATCH or wraps; a start event
and a capture; the boundaries of the metering interval, the day and the year close their rings and records; the alarm, the
end of the RTC and the applied SET; the count of each kHz edge of ACLK; the flush; the core watchdog (R240), a sampled
comparator (R244), and the fall of a device source (R228). -/
def Obligations.TimeAndLife : Prop := ∀ (s : State) (t : Fin 16),
  let d := s.dev
  (domOn d 0 = true → ∀ m, d.on TM_TCTL_RUN t = true →
      (tmMatches d t).find? (fun m => tmPos0 d t < m || (m == 0 && tmPos0 d t == 0)) = some m →
      Makes (.timerMatch t) s fun d => ((tmSeat d t m).set1 TM_TCAUSE_MATCH t).raise (0x280 + 2 * t.val))
  ∧ (domOn d 0 = true → d.on TM_TCTL_RUN t = true → Makes (.timerOverflow t) s fun d =>
      ((tmLoad (tmSeat d t 0) t).set1 TM_TCAUSE_OVF t).raise (0x281 + 2 * t.val))
  ∧ (domOn d 0 = true → d.on TM_TCTL_XSTART t = true → d.on TM_TCTL_RUN t = false → Makes (.timerStartEvent t) s fun d => tmRun d t true)
  ∧ (domOn d 0 = true → ∀ stamp : BitVec 64, Makes (.timerCapture t stamp) s fun d =>
      ((if d.on TM_TCAUSE_CAP t then d.set1 TM_TCAUSE_CAP_OVR t else d).setW64 TM_CAP_LO TM_CAP_HI t stamp.toNat).set1
        TM_TCAUSE_CAP t)
  ∧ (d.on EM_CFG_EN = true → emLenNow d ≠ 0 → d.hon .rtcStop = false → Makes .intervalClose s fun d =>
      let e := setRtc d (max d.rtc ((d.hn .emLast / emLenNow d + 1) * emLenNow d * 65536))
      (closeIntervals (meterAll e) 0 (emEpoch e) (e.f EM_SEQ_SEQ + 1) e.now e.rtc).set1 EM_CAUSE_CLOSE)
  ∧ (d.hon .rtcStop = false →
      Makes .dayBoundary s (fun d =>
        let e := setRtc d (max d.rtc ((d.hn .rtcDay + 1) * 86400 * 65536))
        (ring e 0 (e.hn .rtcDay) false).setH .rtcDay 0 (dayOf e))
      ∧ Makes .yearBoundary s (fun d =>
        let e := setRtc d (max d.rtc (newYear (2001 + d.hn .rtcYear) * 86400 * 65536))
        (ring e 1 (d.hn .rtcYear) false).setH .rtcYear 0 (yearNow e - 2000 : Nat))
      ∧ (d.on TM_RTC_CTL_ALM_EN = true → d.hon .almBelow = true → Makes .rtcAlarm s fun d =>
          aonWake (((setRtc d (max d.rtc (almSec d * 65536))).setH .almBelow 0 0).set1 TM_ACAUSE_ALARM) 1))
  ∧ Makes .rtcEnd s (fun d => ((setRtc d rtcLimit).setH .rtcStop 0 1).set1 TM_ACAUSE_END)
  ∧ (d.hon .setReady = true → Makes .rtcSetApply s fun d =>
      if rtcSec d < almSec d ∧ d.on TM_RTC_CTL_ALM_EN = true ∧ almSec d ≤ setValue d / 65536 then aonWake (rtcSet d) 1
      else rtcSet d)
  ∧ (let e := rtcSet d
     e.hon .setReady = false ∧ e.hon .rtcStop = false ∧ e.on TM_ACAUSE_SET = true ∧ e.on TM_RTC_CTL_VALID = true
     ∧ e.on TM_RTC_CTL_SETBUSY = false ∧ e.on EM_CAUSE_CUT = true ∧ (setValue d < d.rtc → e.on TM_ACAUSE_SETBACK = true))
  ∧ Makes .meterHandoff s (fun d =>
      let e := lifeEdge (meterAll d)
      aclkTb (if e.hon .rtcStop then e else setRtc e (e.rtc + 2)))
  ∧ (d.on LF_CFG_EN = true → Makes .flushPeriodic s flushStart)
  ∧ (d.on LF_STATUS_BUSY = true → (∀ r ∈ d.logq, r.kind < 5 ∨ 7 < r.kind) → Acts .flushDone s fun e =>
      e.on LF_STATUS_BUSY = false ∧ e.f LF_STATUS_LAST = (if d.hon .lfErr then 1 else 0)
      ∧ e.on (if d.hon .lfErr then LF_CAUSE_FLUSH_ERR else LF_CAUSE_FLUSH_DONE) = true)
  ∧ (∀ c : Fin 4, d.on FB_CWDG_EN c = true → d.hn .start = 4 → domOn d 0 = true → d.f PD_STATE_STATE ≠ 1 →
      Makes (.coreWdogExpire c) s fun d =>
        let e := devAction (d.setH .wdgAt (1 + c.val) 0) 7
        if e.on FB_CWDG_ACT c then (coreReset e c).setBit PX_RSTSRC_CORE 0 c true else e)
  ∧ (∀ (j : Fin 8) (v : Int), d.on FB_SC_CFG_EN j = true →
      let th : Int := d.f FB_SC_TH_TH j * 1600
      let past : Prop := if d.on FB_SC_CFG_DIR j then v < th else th < v
      (¬past → Makes (.scSample j v) s fun d => (d.setF FB_SC_STAT_OUT j 0).setH .scRun j 0)
      ∧ (past → d.hn .scRun j + 1 < d.f FB_SC_CFG_N j → Makes (.scSample j v) s fun d =>
          (d.setF FB_SC_STAT_OUT j 1).setH .scRun j (d.h .scRun j + 1))
      ∧ (past → d.f FB_SC_CFG_N j ≤ d.hn .scRun j + 1 → Makes (.scSample j v) s fun d =>
          let e := scActs ((d.setF FB_SC_STAT_OUT j 1).setH .scRun j 0) j
          let e := fbPins ((e.setBit FB_SC_CAUSE_TRIP 0 j true).raise (0x208 + j.val))
          if e.on FB_SC_CFG_WAKE j then aonWake e 0 else e))
  ∧ (domOn d 0 = true → ∀ src : Fin 8, d.hn .devDone src = 2 → Makes (.deviceSourceOutputFall src) s fun d =>
      storeSettle (fbPins (d.setH .devDone src 0)))

/-! ### Register writes that are commands, from the charter on -/

/-- Writes to the charter's registers, the trails, the DMA and the rings: fuse operations and verification start (R416,
R422), refusal records are released (R407), a halted core changes its partition (R398); a trail fires (R469) and takes its
own registers (R465); a channel starts, stops, is cleared and triggered (R478, R480); and a doorbell produces, consumes or
arms (R487), a ring's context is written (R485, R486), and software sets causes (R511). -/
def Obligations.CharterTrailAndRingWrites : Prop := ∀ (s : State) (who : Initiator),
  (∀ (slot : Fin 4) (key : Fin 8),
    let go (i : Instr) (l : List (Fld × Int)) : Prop :=
      let w := withF 0 (l ++ [(CH_FPROG_GO, 1)])
      Stores i s who row_CH_FPROG 0 w fun s =>
        if s.dev.on CH_FPROG_BUSY then s.onDev fun d => d.set1 CH_CAUSE_ACC_ERR
        else fuseGo (s.onDev fun d => took d row_CH_FPROG 0 w)
    go (.fuseProgramSlot who slot) [(CH_FPROG_OP, 1), (CH_FPROG_SLOT, slot.val)]
    ∧ go (.fuseRetireSlot who slot) [(CH_FPROG_OP, 2), (CH_FPROG_SLOT, slot.val)]
    ∧ go (.fuseProgramKey who key) [(CH_FPROG_OP, 3), (CH_FPROG_KEY, key.val)]
    ∧ go (.fuseRevokeKey who key) [(CH_FPROG_OP, 4), (CH_FPROG_KEY, key.val)])
  ∧ (∀ (part : Part) (kind : Fin 16),
      let w := withF 0 [(CH_VCTL_PART, part.val), (CH_VCTL_KIND, kind.val), (CH_VCTL_GO, 1)]
      s.dev.on CH_VCTL_BUSY = false →
        Writes (.verifyGo who part kind) s who row_CH_VCTL 0 w fun d => (took d row_CH_VCTL 0 w).set1 CH_VCTL_BUSY)
  ∧ (∀ tail : Fin 32, Writes (.refTailWrite who tail) s who row_CH_REF_TAIL 0 (onlyF CH_REF_TAIL_TAIL tail.val) fun d =>
      if 16 < (d.f CH_REF_HEAD_HEAD + 32 - tail) % 32 then d.set1 CH_CAUSE_ACC_ERR else d.setF CH_REF_TAIL_TAIL 0 tail.val)
  ∧ (∀ (c : Fin 4) (part : Part),
      Writes (.coretagWrite who c part) s who row_CH_CORETAG c (onlyF CH_CORETAG_PART part.val) fun d =>
        if d.on CH_CORETAG_HALTED c then
          (tlbEmpty (cacheEmpty (d.setF CH_CORETAG_PART c part.val) c) c).setF CN_IRQEN_EN c 0
        else d.set1 CH_CAUSE_ACC_ERR)
  ∧ (∀ t : Fin 4096, Writes (.trFire who t) s who row_TR_FIRE 0 (onlyF TR_FIRE_TRAIL t.val) fun d =>
      trailPass d t 0xFFF d.now)
  ∧ (∀ (t : Fin 4096) (reg : Fin 3) (data : Word), busOpen s.dev who = true → domOn s.dev 0 = true →
      let tag := tagOf s.dev who
      (trailCheck s tag t reg data = .stored →
        Leads (.trSrcWrite who t reg data) s (acked s fun d => trailStore d tag t reg data))
      ∧ (trailCheck s tag t reg data = .badCode →
        Leads (.trSrcWrite who t reg data) s (acked s fun d => d.set1 TR_CAUSE_ACC_ERR))
      ∧ (trailCheck s tag t reg data = .refused →
        Leads (.trSrcWrite who t reg data) s (keepRes (.refused, s.onDev fun d =>
          refuse d tag.1 tag.2 (kindFor who 2) (trailOwner d t) true (srcOf who) t))))
  ∧ (∀ ch : Fin 32,
      Stores (.dmaStart who ch) s who row_DM_CTL ch (fieldWord s.dev DM_CTL_START ch 1) (fun s => dmaStart s ch)
      ∧ Stores (.dmaStop who ch) s who row_DM_CTL ch (fieldWord s.dev DM_CTL_STOP ch 1) (fun s => dmaStop s ch)
      ∧ Stores (.dmaClr who ch) s who row_DM_CTL ch (fieldWord s.dev DM_CTL_CLR ch 1) (fun s =>
          let t := s.onDev fun d => d.setF DM_STATUS_TPEND ch 0
          if 5 ≤ s.dev.f DM_STATUS_STATE ch then (dmaElemDone t ch).onDev fun d => d.setF DM_STATUS_STATE ch 0 else t)
      ∧ Writes (.dmaTrig (some who) ch) s who row_DM_CTL ch (fieldWord s.dev DM_CTL_TRIG ch 1) (fun d =>
          if d.f DM_STATUS_STATE ch = 2 then d.setF DM_STATUS_STATE ch 3
          else if d.on DM_STATUS_TPEND ch then d.set1 DM_CAUSE_TOVR ch else d.setF DM_STATUS_TPEND ch 1))
  ∧ (∀ (r : BitVec 16) (n : BitVec 12),
      let q := r.toNat
      let w (op : Int) : Word := withF 0 [(QM_DB_RING, r.toNat), (QM_DB_OP, op), (QM_DB_COUNT, n.toNat)]
      Stores (.produce who r n) s who row_QM_DB 0 (w 0) (fun s =>
        if rFill s q + n.toNat ≤ rSize s q then ringEvent (setCtx s q 2 (rHead s q + n.toNat)) q
        else ctxCount s q false n.toNat)
      ∧ Stores (.consume who r n) s who row_QM_DB 0 (w 1) (fun s =>
          if n.toNat ≤ rFill s q then qSettle (setCtx (setCtx s q 3 (rTail s q + n.toNat)) q 4 (rNext s q + n.toNat))
          else ctxCount s q false n.toNat)
      ∧ Stores (.arm who r) s who row_QM_DB 0 (withF 0 [(QM_DB_RING, r.toNat), (QM_DB_OP, 2), (QM_DB_COUNT, 0)])
          (fun s => setCtx s q 1 (ctx s q 1 ||| 2 ^ 24)))
  ∧ (∀ (r : BitVec 16) (word : Fin 8) (data : Word), busOpen s.dev who = true →
      (passes (tagOf s.dev who) (ringOwner s.dev r.toNat) = true →
        Leads (.ringContextWrite who r word data) s (keepRes (.ok 0, ctxWrite s r.toNat word data.toNat)))
      ∧ (passes (tagOf s.dev who) (ringOwner s.dev r.toNat) = false →
        Leads (.ringContextWrite who r word data) s
          (keepRes (denied s who (kindFor who 5) (ringOwner s.dev r.toNat) true (ctxKey r.toNat word)))))
  ∧ (∀ (p : Part) (data : Word), Writes (.swCauseSet who p data) s who row_CN_SWSET p data fun d => swSet d p data)
  ∧ (∀ (d : Dev) (p : Part) (data : Word), (swSet d p data).f CN_SWCAUSE_SW p = d.f CN_SWCAUSE_SW p ||| bitsOf data 0 16)

/-- Writes to power, time, memory, flash and pins: a power state is requested (R524), held domains are released (R521),
votes taken (R516); a timer takes a 64-bit value with its high word (R539); a remap entry and a bank's repair mode are set
(R647, R648), the arbiter's maxima cleared (R503); a flash command is issued or turned away while one runs or where a program
passes its page (R656); a pad's
function changes (R685) and output bits are set and cleared (R692). -/
def Obligations.PowerTimeMemoryAndPinWrites : Prop := ∀ (s : State) (who : Initiator),
  (∀ x ∈ [(Instr.reqActive who, 0), (.reqQuiet who, 1), (.reqGlade who, 2), (.reqClearing who, 3)],
    let w := withF 0 [(PD_STATE_REQ, (x.2 : Nat)), (PD_STATE_GO, 1)]
    Stores x.1 s who row_PD_STATE 0 w fun s => qSettle (s.onDev fun d => (pdRequest (took d row_PD_STATE 0 w) x.2).2))
  ∧ (∀ data : Word, Writes (.holdRelease who data) s who row_PD_HOLDREL 0 data fun d =>
      d.each 14 fun d n =>
        if data.getLsbD n then (if domOn d n then setHeld d n false else d.set1 PD_CAUSE_ACC_ERR) else d)
  ∧ (∀ (p : Part) (data : Word),
      Writes (.voteWrite who p false data) s who row_PD_VOTEA p data (fun d =>
        d.setR PD_VOTEA p (newWord d row_PD_VOTEA p data &&& 0xFFFF3FFF))
      ∧ Writes (.voteWrite who p true data) s who row_PD_VOTEB p data (fun d =>
        d.setR PD_VOTEB p (newWord d row_PD_VOTEB p data &&& 0x7FFF)))
  ∧ (∀ (t : Fin 16) (data : Word),
      let x (d : Dev) (j : Nat) : Nat := d.hn .tmHold (3 * t + j) % 2 ^ 32 + 2 ^ 32 * data.toNat
      let load (d : Dev) : Dev := if d.on TM_TCTL_RUN t then d else tmLoad d t
      Writes (.timerHiWrite who t 0 data) s who row_TM_CNT_HI t data (fun d =>
        let e := d.setW64 TM_CNT_LO TM_CNT_HI t (x d 0)
        ((e.setH .tmAt t e.now).setH .tmDown t 0).setH .tmBase t (x d 0))
      ∧ Writes (.timerHiWrite who t 1 data) s who row_TM_TOP_HI t data (fun d =>
          if x d 1 = 0 then d.set1 TM_TCAUSE_ACC_ERR t else load (d.setW64 TM_TOP_LO TM_TOP_HI t (x d 1)))
      ∧ Writes (.timerHiWrite who t 2 data) s who row_TM_MAT_HI t data (fun d =>
          load (d.setW64 TM_MAT_LO TM_MAT_HI t (x d 2))))
  ∧ (∀ (b i : Fin 16) (wa : BitVec 18),
      let e := b.val * 16 + i.val
      (let w := withF 0 [(ME_REMAP_WADDR, wa.toNat), (ME_REMAP_V, 1)]
       Stores (.remapSet who b i wa) s who row_ME_REMAP e w fun s => remapWrite s b i w)
      ∧ Stores (.remapClear who b i wa) s who row_ME_REMAP e (onlyF ME_REMAP_WADDR wa.toNat) (fun s =>
          let key := 0x10000000 + b * 0x100000 + 4 * s.dev.f ME_REMAP_WADDR e
          (if s.dev.on ME_REMAP_V e then copyWord s (spareKey b i) key else s).onDev fun d =>
            (d.setF ME_REMAP_WADDR e wa.toNat).setF ME_REMAP_V e 0)
      ∧ (∀ data : Word, Writes (.repairModeWrite who b data) s who row_ME_BCFG b data fun d =>
          repairWrite (d.setF ME_BCFG_SCRUB b (bitsOf data 4 1)) b (bitsOf data 0 1)))
  ∧ Writes (.arbClrmax who) s who row_ME_ARB_CTL 0 (fieldWord s.dev ME_ARB_CTL_CLRMAX 0 1)
      (fun d => d.each 16 fun d r => d.setR ME_ARB_WMAX r 0)
  ∧ (∀ n : Fin 16,
      let go (i : Instr) (op : Nat) (l : List (Fld × Int)) : Prop :=
        let w := withF 0 ((FC_CMD_OP, (op : Int)) :: (l ++ [(FC_CMD_GO, 1)]))
        Stores i s who row_FC_CMD 0 w fun s =>
          if op = 1 ∧ 16 < s.dev.f FC_ADDR_ADDR / 16 % 16 + n.val + 1 then s.onDev fun d => fcRefuse d 1 6
          else if s.dev.on FC_CMD_BUSY = true ∧ op ≠ 3 then s.onDev fun d => fcRefuse d 1 1
          else fcGo (s.onDev fun d => took d row_FC_CMD 0 w)
      go (.flashProgram who n) 1 [(FC_CMD_NLINES, n.val)] ∧ go (.flashErase who) 2 [] ∧ go (.flashSuspend who) 3 []
      ∧ go (.flashResume who) 4 [] ∧ go (.flashRdtwin who) 5 [] ∧ go (.flashSwap who) 6 [])
  ∧ (∀ (i : Fin 32) (data : Word), Writes (.padFuncWrite who i data) s who row_PX_GCFG i data fun d =>
      padWrite d i (newWord d row_PX_GCFG i data))
  ∧ (∀ data : Word,
      Writes (.gsetWrite who data) s who row_PX_GSET 0 data (fun d => d.setR PX_GOUT 0 (d.r PX_GOUT ||| data))
      ∧ Writes (.gclrWrite who data) s who row_PX_GCLR 0 data (fun d => d.setR PX_GOUT 0 (d.r PX_GOUT &&& ~~~data)))

/-- Reads with a side effect and the crossings into AON, each of which answers a next state where the bus is open, the
register's block is on and the initiator may make the access. FL_INT_LO gives the low word of the integrator's snapshot and
keeps the high one (R83), CP_ROOTSTAMP_LO its low word and keeps the high one (R461), TM_CAL0 the calibration pair, the second
half kept for its reader (R562), CN_VIEW the canopy bits of the reader's partition (R506). A write to an AON register enters
its crossing, a full one letting its oldest write arrive first (R28), a second SET while one waits is refused (R544); and the
write whose turn it is reaches its register with the warden's way of storing (R245, R551). -/
def Obligations.ReadsAndCrossings : Prop := ∀ (s : State) (who : Initiator), busOpen s.dev who = true →
  let d := s.dev
  let answers (i : Instr) (v : Nat) (g : Dev → Dev) : Prop :=
    exec i s = .next (s.onDev fun d => ((g d).setH .rdOut 0 v).setH .rdOut 1 0)
  (∀ k : Rail, domOn d (5 + k / 4) = true → mayRead d who FL_INT_LO k = true →
    let i := d.h .intSnap (3 * k + 2)
    answers (.flIntLoRead who k) (i % 2 ^ 32).toNat fun d => (d.setF FL_INT_LO_INT k i).setF FL_INT_HI_INT k (asr i 32))
  ∧ (domOn d 0 = true → mayRead d who CP_ROOTSTAMP_LO 0 = true →
      answers (.rootstampRead who) (d.r CP_ROOTSTAMP_LO).toNat fun d =>
        d.setF CP_ROOTSTAMP_HI_STAMP 0 (d.h .rootStamp 0 / 2 ^ 32))
  ∧ answers (.cal0Read who) (cal0 d % 2 ^ 32) (fun d => d.setH .cal1 (readerOf who) (cal1 d))
  ∧ (domOn d 0 = true → answers (.cnViewRead who) (viewOf d (tagOf d who)) fun d => d)
  ∧ (let crosses (i : Instr) (R : Reg) (q : Nat) (w : Word) (g : Dev → Dev) : Prop :=
       let put (t : State) : State := t.onDev fun d => { g d with aonQ := d.aonQ ++ [{ q := q, addr := R.addr 0, val := w }] }
       mayWrite s who R 0 w = true →
         (aonFill d q < 4 → exec i s = .next (keepRes (.ok 0, put s)))
         ∧ (4 ≤ aonFill d q → exec i s = .next (keepRes (.ok 0, put (aonArrive s q))))
     (∀ bits : BitVec 8, crosses (.scCauseClear who bits) FB_SC_CAUSE 4 (bits.setWidth 32) fun d => d)
     ∧ ∀ data : Word,
       let set := putBits data 0 1 1
       (d.on TM_RTC_CTL_SETBUSY = false →
         crosses (.rtcSetWrite who data) TM_RTC_CTL 2 set fun d => d.setF TM_RTC_CTL_SETBUSY 0 1)
       ∧ (d.on TM_RTC_CTL_SETBUSY = true → mayWrite s who TM_RTC_CTL 0 set = true →
         exec (.rtcSetWrite who data) s = .next (acked s fun d => d.set1 TM_ACAUSE_ACC_ERR))
       ∧ crosses (.lfFlushWrite who data) LF_CTL 0 set fun d => d)
  ∧ (∀ (q : Fin 5) (x : AonWrite) (row : RegRow) (j : Nat), d.aonQ.find? (fun x => x.q == q.val) = some x →
      regAt x.addr = some (row, j) →
      let t := s.onDev fun d => { d with aonQ := d.aonQ.erase x }
      exec (.aonRegisterWriteArrival q) s = .next (t.onDev fun d => aonRegWrite d row j x.val)
      ∧ (row.reg.db ≠ .grove → lockHit t.dev row j x.val = none → reservedWord t.dev row j x.val = false →
          exec (.aonRegisterWriteArrival q) s = .next
            (t.onDev fun e => aonWrite e .warden row.reg j x.val (newWord e row j x.val))))

/-- A word stored at a register's address (R10 to R14, R33, R39): an accepted write is the block's action on the word that
the access types leave; one to a domain that is off, or by an initiator that may not, is turned away; one that places a
reserved encoding sets ACC_ERR alone; and an offset that no register has ignores it, in a domain that is on. -/
def Obligations.RegisterWriteRules : Prop := ∀ (s : State) (who : Initiator) (addr data : Word),
  busOpen s.dev who = true → isRegAddr addr.toNat = true → addr.toNat % 4 = 0 →
  (regAt addr.toNat = none →
    (offsetPowered s.dev addr.toNat = true → Leads (.registerWrite who addr data) s (keepRes (.ok 0, s)))
    ∧ (offsetPowered s.dev addr.toNat = false →
      Leads (.registerWrite who addr data) s (keepRes (.err, s.onDev fun d => d.set1 PD_CAUSE_OFF_ACC))))
  ∧ ∀ (row : RegRow) (j : Nat), regAt addr.toNat = some (row, j) → row.reg.own ≠ .trail →
      (regPowered s.dev row.reg j = false →
        Leads (.registerWrite who addr data) s (keepRes (.err, s.onDev fun d => d.set1 PD_CAUSE_OFF_ACC)))
      ∧ (regPowered s.dev row.reg j = true → namedOk s who row.reg data = true → mayWrite s who row.reg j data = false →
          Leads (.registerWrite who addr data) s
            (keepRes (denied s who (refKind who row.reg true) (regOwner s.dev row.reg j) true addr.toNat)))
      ∧ (aonQueueOf addr.toNat = none → row.reg.db ≠ .grove →
          (Accepted s who row j data →
            Leads (.registerWrite who addr data) s
              (keepRes (.ok 0, blockWrite s who row.reg j data (newWord s.dev row j data))))
          ∧ (regPowered s.dev row.reg j = true → namedOk s who row.reg data = true → mayWrite s who row.reg j data = true →
              lockHit s.dev row j data = none → reservedWord s.dev row j data = true →
              Leads (.registerWrite who addr data) s (acked s fun d => accErr d row.reg j)))

/-! ### Flash, pins, reset -/

/-- The flash array and the scrubber (R644, R655 to R666): the pulses of a program end it, good or failed, and free its lines; a
read of a twin fills FC_BUF with the lines it can read; an erase walks segment and verify until its sector is blank; a log
record that is due and fits is appended; and the scrubber visits the next word of a bank it scrubs. -/
def Obligations.FlashAndScrub : Prop := ∀ s : State,
  let d := s.dev
  (d.f FC_STATUS_STATE = 1 → d.hn .fcOp = 1 →
    Leads (.programPulseDone true) s
      ((tear s (d.hn .fcBase) (d.hn .fcLines) 0).onDev fun e => fcReturn (setBusy (e.set1 FC_CAUSE_DONE) (d.hn .fcBase) false))
    ∧ Makes (.programPulseDone false) s fun e =>
      fcReturn (setBusy ((e.setF FC_CMD_RES 0 2).set1 FC_CAUSE_VERIFY_FAIL) (d.hn .fcBase) false))
  ∧ (d.f FC_STATUS_STATE = 1 → d.hn .fcOp = 5 →
      (∀ w, w < 64 → s.mb (tornKey (d.hn .fcBase + 4 * w)) = 0 ∧ s.mb (tornSect (d.hn .fcBase + 4 * w)) = 0) →
      Makes .rdtwinDone s fun e => fcReturn
        ((e.each 64 fun e w => e.setF FC_BUF_BYTES w (s.mget (d.hn .fcBase + 4 * w) 4)).set1 FC_CAUSE_DONE))
  ∧ (d.f FC_STATUS_STATE = 2 → d.hon .fcVerify = false → Makes .eraseSegmentDone s fun e => e.setH .fcVerify 0 1)
  ∧ (d.f FC_STATUS_STATE = 2 → d.hon .fcVerify = true →
      (d.f FC_STATUS_SEG ≠ 8 → Makes (.eraseVerifyDone false) s fun e =>
        (e.setF FC_STATUS_SEG 0 (e.f FC_STATUS_SEG + 1 : Nat)).setH .fcVerify 0 0)
      ∧ (d.f FC_STATUS_SEG = 8 → Leads (.eraseVerifyDone false) s ((fcEraseFail s).onDev fun e =>
        ((e.setF FC_CMD_RES 0 2).set1 FC_CAUSE_VERIFY_FAIL).setH .fcVerify 0 0))
      ∧ (d.on FC_STATUS_LF = false → Leads (.eraseVerifyDone true) s ((eraseKeys s (d.hn .fcErase) 0x10000).onDev fun e =>
        fcIdle (((((setBusy e (d.hn .fcErase) false).setF FC_STATUS_SEG 0 0).incSat LF_ERASE_VALUE
          (eraseCounter (d.hn .fcErase))).set1 FC_CAUSE_DONE).setH .fcVerify 0 0))))
  ∧ (d.on FC_STATUS_BROWN = true → Makes .lfProgramCutoff s fun e => e.setH .lfCut 0 1)
  ∧ (∀ (r : LogRec) (ok : Bool), d.logq.find? (lfDue d) = some r → lfMay d = true → d.f FC_STATUS_STATE ≠ 2 →
      (r.len + 15) / 16 ≤ logRoom d → Leads (.logAppend ok) s (logWrite s r ok))
  ∧ (d.on ME_SCRUB_EN = true → domOn d 0 = true →
      (∀ a t b, d.wbq = a :: t → sramBank a = some b → scrubbed d b = true →
        Leads .scrubVisit s (scrubWord (s.onDev fun e => { e with wbq := t }) b a))
      ∧ (∀ b, d.wbq = [] → d.f ME_SCRUBPOS_BANK = b → scrubBank d b = b → b < 16 → d.f ME_SCRUBPOS_ADDR + 1 < 0x40000 →
        let w := d.f ME_SCRUBPOS_ADDR
        Leads .scrubVisit s ((scrubWord s b (0x10000000 + b * 0x100000 + 4 * w)).onDev fun e =>
          (e.setF ME_SCRUBPOS_BANK 0 b).setF ME_SCRUBPOS_ADDR 0 (w + 1 : Nat))))

/-- Pins, the core supply and the TAP (R678, R682, R686 to R692, R699, R700): a handover of a pad ends with its input sampled; a level that
differs from the sampled one is an edge, kept and raised where it is selected; a pulse ends; a lost VIO bank, and the
crystal found or lost; a step of VCORE toward its setting; the TAP reset; and the load of its instruction register. -/
def Obligations.PinsAndTap : Prop := ∀ (s : State) (n : Fin 32),
  let d := s.dev
  (d.on PX_GCFG_HB n = true → d.on PD_DSTAT_HELD 0 = false → d.hon .padNext n = false → Makes (.handoverEnd n) s fun d =>
      let e := d.setF PX_GCFG_HB n 0
      (e.setBit PX_GIN_IN 0 n (e.on PX_GCFG_FUNC n && e.hon .padLvl n)).setH .padOld n 0)
  ∧ (∀ level : Bool, domOn d 0 = true → padBank d n = true → d.on PX_GCFG_FUNC n = true → d.on PX_GCFG_HB n = false →
      d.on PD_DSTAT_HELD 0 = false → (d.f PX_GIN_IN).testBit n ≠ level →
      Makes (.gpioEdge n level) s fun d =>
        let e := (d.setH .padLvl n (b2i level)).setBit PX_GIN_IN 0 n level
        let e := if (d.f PX_GCFG_EDGE n).testBit (if level then 0 else 1) then e.setBit PX_GCAUSE_EDGE 0 n true else e
        e.raise (0x400 + 2 * n.val + (if level then 0 else 1)))
  ∧ Makes (.pulseEnd n) s (fun d => d.setH .padPulse n 0)
  ∧ (∀ x : Fin 4 × Fld, x ∈ [(0, PX_STATUS_VIOA), (1, PX_STATUS_VIOB), (2, PX_STATUS_VIOC), (3, PX_STATUS_VIOD)] →
      d.on x.2 = true → Makes (.vioLost x.1) s fun d => (d.setF x.2 0 0).set1 PX_CAUSE_VIO_LOST)
  ∧ Makes .xtalOk s (fun d => d.setF PX_STATUS_XTAL_OK 0 1)
  ∧ (d.on PX_STATUS_XTAL_OK = true → Makes .xtalFail s fun d => (d.setF PX_STATUS_XTAL_OK 0 0).set1 PX_CAUSE_XTAL_FAIL)
  ∧ (∀ up : Bool, (if up then d.h .vcoreOff < vcoreWant d else vcoreWant d < d.h .vcoreOff) →
      Makes .vcoreStep s fun d =>
        let x := d.h .vcoreOff + (if up then 1 else -1)
        vcoreWrite ((d.setH .vcoreOff 0 x).setF PX_VCORE_NOW 0 ((x + 100) / 5)))
  ∧ Makes .tapReset s (fun d => (d.setH .tapIr 0 0).setH .tapTest 0 0)
  ∧ (∀ ir : BitVec 8,
      let load (x : Int) (t : Int) (d : Dev) : Dev := (d.setH .tapIr 0 x).setH .tapTest 0 t
      (ir = 1 ∨ ir = 16 → Makes (.jtagIrUpdate ir) s (load (ir.toNat - 1) 0))
      ∧ (ir = 2 → Makes (.jtagIrUpdate ir) s fun d => boundarySample (load 1 0 d))
      ∧ (ir = 0 ∨ ir = 4 ∨ ir = 5 →
          (tapMay d = true → Makes (.jtagIrUpdate ir) s (load (ir.toNat - 1) 1))
          ∧ (tapMay d = false → Makes (.jtagIrUpdate ir) s fun d => (load 254 0 d).set1 PX_CAUSE_JTAG_REF))
      ∧ (ir ≠ 0 → ir ≠ 1 → ir ≠ 2 → ir ≠ 4 → ir ≠ 5 → ir ≠ 16 → Makes (.jtagIrUpdate ir) s (load 254 0)))

/-- Reset and startup (R693 to R698, R239, R442, R662): each kind of device reset leaves its mark in PX_RSTSRC and puts the
block under reset, from which it comes step by step: the flash comes up, the fuses load, the services are released, the
boot image is verified and the log scanned; and the watchdog, the warden's reset and a brown-out do what they are set
to. -/
def Obligations.ResetAndStartup : Prop := ∀ s : State,
  let d := s.dev
  Leads .powerOnReset s { dev := { State.reset.dev with fresh := d.fresh }, mem := s.mem.filter (fun c => keptAtPor c.1),
                          pending := s.pending }
  ∧ (∀ x : Instr × Fld, x ∈ [(.resetPin, PX_RSTSRC_PIN), (.vinUndervoltage, PX_RSTSRC_UVLO), (.buckFault, PX_RSTSRC_BUCK)] →
      d.hn .start ≠ 0 → Leads x.1 s (memUnderReset (s.onDev fun d => devUnderReset (aonDrain (d.set1 x.2)))))
  ∧ (d.hn .start = 1 → d.f FC_STATUS_STATE = 0 → Does .resetRelease s fun t => t.dev.hn .start = 2 ∧ t.mem = s.mem)
  ∧ (d.hn .start = 0 → Makes .buckPg s fun d =>
      ((d.setF PX_STATUS_BUCK_PG 0 1).setF PX_STATUS_BUCK_RAMP 0 0).setH .start 0 2)
  ∧ (∀ straps : BitVec 5, d.hn .start = 2 → Does (.fuseLoadDone straps) s fun t =>
      t.dev.hn .start = 3 ∧ t.dev.shadow = shadowLoad s ∧ t.dev.f PX_STRAP_ADDR = straps.toNat % 8
      ∧ t.dev.f PX_STRAP_BOOT = straps.toNat / 8 ∧ t.mem = s.mem)
  ∧ (∀ (refclk : Bool) (vio : BitVec 6), d.hn .start = 3 → Acts (.svcRelease refclk vio) s fun e => e.hn .start = 4 ∧ e.hon .svcOn = true)
  ∧ (d.hn .start = 4 → domOn d 0 = true → d.on CP_STATUS_WARDEN = false → d.hn .bootOk = 0 ∨ d.hn .bootOk = 3 →
      Leads .bootVerifyDone s ((bootVerify s).onDev fun d =>
        wardenRelease (if d.hon .wrst then (portsWardenReset d).setH .wrst 0 0 else d)))
  ∧ (d.hn .start = 4 → d.hon .scanDone = false →
      Leads .logScanDone s ((logRestore s).onDev fun d => wardenRelease (d.setH .scanDone 0 1)))
  ∧ (d.on FB_WDG_EN = true → d.hon .wdgAt = true → d.hn .start = 4 → domOn d 0 = true → d.f PD_STATE_STATE ≠ 1 →
      let t := s.onDev fun d => devAction (d.setH .wdgAt 0 0) 2
      (d.f FB_WDG_ACT = 0 → Leads .wardenWdogExpire s t)
      ∧ (d.f FB_WDG_ACT = 1 → Leads .wardenWdogExpire s (t.onDev wardenReset))
      ∧ (d.f FB_WDG_ACT = 2 → Leads .wardenWdogExpire s (devReset t PX_RSTSRC_WDOG)))
  ∧ (d.hon .wrst = true → domOn d 0 = true → Makes .wardenReset s fun d => (portsWardenReset d).setH .wrst 0 0)
  ∧ (d.on PX_STATUS_BOR = false → Leads .brownOut s
      ((fcBrown (s.onDev fun d => (d.setF PX_STATUS_BOR 0 1).set1 PX_CAUSE_BOR)).onDev lfBrownOut))
  ∧ (d.on PX_STATUS_BOR = true → d.f FC_STATUS_STATE ≠ 0 → Makes .brownOutEnd s fun d =>
      ((((d.setF PX_STATUS_BOR 0 0).set1 PX_CAUSE_BOR_END).setF FC_STATUS_BROWN 0 0).setH .lfCut 0 0))

/-! ### Memory -/

/-- The check code of a byte of SRAM (R638): a byte with its own check bits reads clean; with any one of its thirteen
stored bits changed it reads as it was, corrected; with any two of them changed it is uncorrectable. -/
def Obligations.CheckCode : Prop := ∀ b : Nat, b < 256 →
  let stored (x : Nat) : Nat := b + 256 * chk5 b ^^^ x
  let read (x : Nat) : Nat × Nat := eccByte (stored x % 256) (stored x / 256)
  read 0 = (b, 0)
  ∧ (∀ i, i < 13 → read (2 ^ i) = (b, 1))
  ∧ (∀ i j, i < j → j < 13 → (read (2 ^ i + 2 ^ j)).2 = 2)

/-- Words of main and AON SRAM (R639, R640): a store of 1, 2 or 4 aligned bytes to a bank is what a read of them gives,
with no error, whatever was there; it changes no byte of any other word, in this bank or elsewhere. A word that nothing
has made valid reads as 0 in every byte and raises no error; one whose two copies of the valid bit disagree is
uncorrectable in every byte; and no read changes the memory. -/
def Obligations.SramWords : Prop :=
  ∀ (s : State) (b a n slot : Nat), sramBank a = some b → n = 1 ∨ n = 2 ∨ n = 4 → a % n = 0 →
    let key := wordKey s.dev b a
    let valid := s.mb (validKey key)
    (∀ v, v < 2 ^ (8 * n) →
      let t := sramWrite s b a n v slot
      (∃ u, sramRead t b a n slot = (.ok v, u) ∧ u.mem = t.mem)
      ∧ (∀ k, k % 4 = 0 → k < 0x100000000 → k ≠ key → ∀ j, j < 4 → t.mb (k + j) = s.mb (k + j)))
    ∧ (valid = 0 → ∃ t, sramRead s b a n slot = (.ok 0, t) ∧ t.mem = s.mem ∧ t.dev.r ME_BCNT b = s.dev.r ME_BCNT b)
    ∧ (valid = 1 ∨ valid = 2 → ∃ t, sramRead s b a n slot = (.ue (b % 16) (a % 4), t) ∧ t.mem = s.mem
        ∧ t.dev.on ME_BCAUSE_UE b = true)

/-! ### Packets and ports -/

/-- Every opcode row serves the packet the warden takes next, where its opcode is the row's: the packet leaves its ring, and
it is answered, or held until it is complete (R438, R439, R460). Where the next packet has another opcode, the row leaves
everything as it is. -/
def Obligations.OpcodesServed : Prop :=
  ∀ x ∈ ([
    (.devInfo, 0x00, opDevInfo), (.devStatus, 0x01, opDevStatus), (.echo, 0x02, opEcho), (.setState, 0x03, opSetState),
    (.regRead, 0x08, opRegRead), (.regWrite, 0x09, opRegWrite), (.regModify, 0x0A, opRegModify),
    (.railStatus, 0x20, opRailStatus), (.railEnable, 0x21, opRailEnable), (.railVout, 0x22, opRailVout),
    (.railRamp, 0x23, opRailRamp), (.railLoadline, 0x24, opRailLoadline), (.railComp, 0x25, opRailComp),
    (.railLimits, 0x26, opRailLimits), (.railStrike, 0x27, opRailStrike), (.railConfig, 0x28, opRailConfig),
    (.railIlim, 0x29, opRailIlim), (.railCoppice, 0x2A, opRailCoppice), (.railSeq, 0x2B, opRailSeq),
    (.railProtect, 0x2C, opRailProtect), (.railClear, 0x2D, opRailClear), (.railPeriod, 0x2E, opRailPeriod),
    (.railSteer, 0x2F, opRailSteer), (.railCause, 0x30, opRailCause), (.phaseStatus, 0x40, opPhaseStatus),
    (.phaseRole, 0x41, opPhaseRole), (.phaseConfig, 0x42, opPhaseConfig), (.phaseProtect, 0x43, opPhaseProtect),
    (.phaseClear, 0x44, opPhaseClear), (.phaseAz, 0x45, opPhaseAz), (.stageDesc, 0x48, opStageDesc),
    (.stageAccess, 0x49, opStageAccess), (.toneMap, 0x4A, opToneMap), (.rollCall, 0x4B, opRollCall),
    (.storeStatus, 0x60, opStoreStatus), (.storeConfig, 0x61, opStoreConfig), (.storeEnable, 0x62, opStoreEnable),
    (.storeFloor, 0x63, opStoreFloor), (.ceiling, 0x64, opCeiling), (.escalation, 0x65, opEscalation),
    (.ceilSense, 0x66, opCeilSense)] ++ [(.laneStatus, 0x70, opLaneStatus), (.laneEnable, 0x71, opLaneEnable),
    (.laneConfig, 0x72, opLaneConfig), (.partnerId, 0x73, opPartnerId), (.intentConfig, 0x74, opIntentConfig),
    (.intentTrust, 0x75, opIntentTrust), (.intentStatus, 0x76, opIntentStatus), (.coupleConfig, 0x77, opCoupleConfig),
    (.coupleCmd, 0x78, opCoupleCmd), (.coupleStatus, 0x79, opCoupleStatus), (.teleLast, 0x80, opTeleLast),
    (.teleConfig, 0x81, opTeleConfig), (.teleCtl, 0x82, opTeleCtl), (.teleOwn, 0x83, opTeleOwn),
    (.railReadings, 0x84, opRailReadings), (.timeGet, 0x90, opTimeGet), (.rtcSet, 0x91, opRtcSet),
    (.meterRead, 0x92, opMeterRead), (.billingRead, 0x93, opBillingRead), (.lifeStage, 0x94, opLifeStage),
    (.lifeDevice, 0x95, opLifeDevice), (.logRead, 0x96, opLogRead), (.lifeFlush, 0x97, opLifeFlush),
    (.fwInfo, 0xA0, opFwInfo), (.fwBegin, 0xA1, opFwBegin), (.fwWrite, 0xA2, opFwWrite),
    (.fwVerify, 0xA3, opFwVerify), (.fwSwap, 0xA4, opFwSwap), (.fwAbort, 0xA5, opFwAbort),
    (.partInfo, 0xB0, opPartInfo), (.reflogRead, 0xB1, opReflogRead), (.coreAssign, 0xB2, opCoreAssign),
    (.coreCtl, 0xB3, opCoreCtl), (.imageLoad, 0xB4, opImageLoad), (.groveLead, 0xB5, opGroveLead),
    (.groveBanks, 0xB6, opGroveBanks), (.groveInstall, 0xB7, opGroveInstall), (.groveStd, 0xB8, opGroveStd),
    (.groveTask, 0xB9, opGroveTask), (.resAssign, 0xBA, opResAssign), (.fuseOp, 0xBB, opFuseOp)]
      : List (Instr × Nat × OpFn)), ∀ (s : State) (k : Packet),
    (Serves s x.2.1 k → Leads x.1 s (settleOp k (x.2.2 k (taken s k))))
    ∧ (nextPacket s.dev = some k → k.op < 0x100 → k.op ≠ x.2.1 → Leads x.1 s s)

/-- A Long packet goes on (R439): the one of the group named, while the warden runs; once complete it is answered and no
longer under way, else it waits on with what it has gathered. A packet that holds the warden goes on with its own row. -/
def Obligations.LongPackets : Prop := ∀ (s : State) (y : LongOp), wardenRuns s.dev = true →
  (∀ g : Fin 16, s.dev.longs.find? (fun y => y.pkt.op / 16 == g.val) = some y →
    match longOf y.pkt.op y s with
    | (.done st data, t) => Leads (.longPacketComplete g) s
        (t.onDev fun d => opFinish { d with longs := d.longs.filter fun z => z != y } y.pkt st data)
    | (.wait idx acc, t) => Leads (.longPacketComplete g) s
        (t.onDev fun d => { d with longs := d.longs.map fun z => if z = y then { y with idx := idx, acc := acc } else z }))
  ∧ (∀ g : Fin 16, s.dev.longs.find? (fun y => y.pkt.op / 16 == g.val) = none → Leads (.longPacketComplete g) s s)
  ∧ (s.dev.held = some y →
      let u := s.onDev fun d => { d with held := none }
      let wait (i : Instr) : Prop := Leads i s (u.onDev fun d => { d with held := some { y with idx := 0, acc := [] } })
      let done (i : Instr) : Prop := Replies i s y.pkt stOk [] u
      (y.pkt.op = 0x03 → (s.dev.on PD_STATE_BUSY = true → wait .setState) ∧ (s.dev.on PD_STATE_BUSY = false → done .setState))
      ∧ (y.pkt.op = 0x91 →
          (s.dev.on TM_RTC_CTL_SETBUSY = true → wait .rtcSet) ∧ (s.dev.on TM_RTC_CTL_SETBUSY = false → done .rtcSet)))

/-- The opcodes that are registers of a rail, a phase, a lane or the device (R440, R441, R460): with the count of parameter
bytes the table gives and a resource of the packet's own partition, the registers named are all written or all read; the
rail a store is to sense and the lanes a coupled rail is to use are the packet's own too, else the packet is DENIED (R399). -/
def Obligations.RegisterOpcodes : Prop :=
  let writes (i : Instr) (op n : Nat) (owner : Dev → Nat → Nat × Bool) (l : List Reg) : Prop :=
    OwnOpcode i op (1 + 4 * l.length) n owner fun s k r => RepliesWrites i s k (parRegs k 1 r l)
  let reads (i : Instr) (op n : Nat) (owner : Dev → Nat → Nat × Bool) (l : List Reg) : Prop :=
    OwnOpcode i op 1 n owner fun s k r => RepliesReads i s k (l.map fun R => (R, r))
  let device (i : Instr) (op : Nat) (owner : Dev → Nat) (l : List Reg) : Prop :=
    ∀ (s : State) (k : Packet), Serves s op k →
      (k.params.length ≠ 4 * l.length → Replies i s k stBadParam [] (taken s k))
      ∧ (k.params.length = 4 * l.length →
          (k.part ≠ owner (taken s k).dev → Denies i s k (owner (taken s k).dev, false))
          ∧ (k.part = owner (taken s k).dev → RepliesWrites i s k (parRegs k 0 0 l)))
  (writes .railVout 0x22 16 railOwner [FL_REF]
    ∧ writes .railRamp 0x23 16 railOwner [FL_RAMP]
    ∧ writes .railLoadline 0x24 16 railOwner [FL_LL, FL_LL_LIM, FL_OFS_LIM]
    ∧ writes .railComp 0x25 16 railOwner [FL_S_KI, FL_S_B0, FL_S_B1, FL_S_B2, FL_S_A1, FL_S_A2, FL_S_GSH]
    ∧ writes .railLimits 0x26 16 railOwner [FL_DLIM, FL_ILIM, FL_IPRE]
    ∧ writes .railStrike 0x27 16 railOwner [FL_STRIKE, FL_RELEASE, FL_RESTORE, FL_CFG]
    ∧ writes .railConfig 0x28 16 railOwner [RL_CFG, RL_SS, RL_PG, RL_TRK, RL_PB, RL_OFF]
    ∧ writes .railIlim 0x29 16 railOwner [RL_ILIM]
    ∧ writes .railCoppice 0x2A 16 railOwner [RL_COP, RL_COP_TH, RL_PF]
    ∧ writes .railProtect 0x2C 16 railOwner [FB_RCFG, FB_RABS, FB_RFILT, FB_RACT, FB_RADAPT]
    ∧ writes .railPeriod 0x2E 16 railOwner [PH_RPER, PH_RPER_MIN, PH_RPER_MAX, PH_RLOCK]
    ∧ writes .railSteer 0x2F 16 railOwner [FL_STEER]
    ∧ (OwnOpcode .coupleConfig 0x77 17 16 railOwner fun s k r =>
        let w := parW k 5
        let lane (p : Nat) : Nat × Bool := laneOwner (taken s k).dev (valOf w (IG_CPL_LNK_LANE p))
        let bad (p : Nat) : Prop := valOf w (IG_CPL_LNK_VALID p) ≠ 0 ∧ (lane p).1 ≠ k.part
        ((∀ p, p < 3 → ¬ bad p) →
          RepliesWrites .coupleConfig s k (parRegs k 1 r [IG_CPL, IG_CPL_LNK, IG_CPL_GAIN, IG_CPL_KI]))
        ∧ (∀ p, p < 3 → bad p → (∀ q, q < p → ¬ bad q) → Denies .coupleConfig s k (lane p)))
    ∧ writes .phaseConfig 0x42 64 phaseOwner [PH_CFG, PH_ANG, PH_ISCAL, PH_SHARE, PH_EQ]
    ∧ writes .laneEnable 0x71 12 laneOwner [LN_CTL])
  ∧ (reads .railStatus 0x20 16 railOwner [RL_STATUS, FL_STATUS, FL_REFNOW, FL_ISUM, RL_CAP, FB_RLAT]
    ∧ reads .coupleStatus 0x79 16 railOwner [IG_CPLSTAT, IG_CPLSTAT2, IG_CPLTOT]
    ∧ reads .phaseStatus 0x40 64 phaseOwner [PH_STATUS, PH_IMEAS, PH_EQNOW, PH_ANGNOW, PH_STAGE, FB_PLAT, PH_COUNT]
    ∧ reads .laneStatus 0x70 12 laneOwner [LN_STATUS, LN_EQ, LN_LAT, LN_ERRCNT, LN_DOWNCNT])
  ∧ (∀ (s : State) (k : Packet), Serves s 0x61 k →
      let e := (taken s k).dev
      let sns := railOwner e (valOf (parW k 0) ST_CFG_SNS_RAIL)
      (k.params.length ≠ 44 → Replies .storeConfig s k stBadParam [] (taken s k))
      ∧ (k.params.length = 44 →
          (k.part ≠ storePartition e → Denies .storeConfig s k (storePartition e, false))
          ∧ (k.part = storePartition e → sns.1 ≠ k.part → Denies .storeConfig s k sns)
          ∧ (k.part = storePartition e → sns.1 = k.part → RepliesWrites .storeConfig s k (parRegs k 0 0
              [ST_CFG, ST_VLIM, ST_VLIM2, ST_CAPY, ST_ECAP, ST_ILIM, ST_TERM, ST_LOOP, ST_PER, ST_HOLD, ST_REINS]))))
  ∧ (device .storeEnable 0x62 storePartition [ST_CTL]
    ∧ device .storeFloor 0x63 storePartition [ST_FLOOR]
    ∧ device .ceiling 0x64 (fun _ => 0) [ST_CEIL, ST_CMARG, ST_ALLOW]
    ∧ device .escalation 0x65 (fun _ => 0) [ST_ESC, ST_TMAP, ST_PRIO0, ST_PRIO1]
    ∧ device .ceilSense 0x66 (fun _ => 0) [ST_SNS, ST_SHUNT]
    ∧ device .teleOwn 0x83 (fun _ => 0) [TC_OWN])

/-- One register write of an opcode (R441, R11, R14, R517): in a domain that is off, of a locked field, with a bit outside
every field or with a reserved encoding it is refused, each with its own status and cause; a list of writes goes on in
order and stops at the first that is refused. Locks and reserved encodings of a packet's registers are judged before the
first write, and a packet that one of them turns away writes nothing. -/
def Obligations.CheckedWrites : Prop := ∀ (s : State) (row : RegRow) (j : Nat) (w : Word),
  regAt (row.reg.addr j) = some (row, j) →
  (regPowered s.dev row.reg j = false →
    wWrite s row.reg j w = .error (stBadParam, fun d => d.set1 PD_CAUSE_OFF_ACC))
  ∧ (regPowered s.dev row.reg j = true →
      (∀ F, lockHit s.dev row j w = some F →
        wWrite s row.reg j w = .error (stLocked, fun d => setLeaf d (lockLeaf row.reg j F) 14))
      ∧ (lockHit s.dev row j w = none →
          (strayBits row w = true → wWrite s row.reg j w = .error (stBadParam, id))
          ∧ (strayBits row w = false → reservedWord s.dev row j w = true →
              wWrite s row.reg j w = .error (stBadParam, fun d => accErr d row.reg j))))
  ∧ (∀ (R : Reg) (i : Nat) (v : Word) (t : List (Reg × Nat × Word)),
      (∀ u, wWrite s R i v = .ok u → wWrites ((R, i, v) :: t) s = wWrites t u)
      ∧ ∀ e, wWrite s R i v = .error e → wWrites ((R, i, v) :: t) s = .error e)
  ∧ (∀ (l : List (Reg × Nat × Word)) (st : Nat) (c : Dev → Dev) (t : State),
      let rows := l.filterMap fun x => (regAt (x.1.addr x.2.1)).map fun r => (r.1, r.2, x.2.2)
      (wCheck s.dev rows = none ↔ ∀ x ∈ rows, lockHit s.dev x.1 x.2.1 x.2.2 = none ∧ reservedWord s.dev x.1 x.2.1 x.2.2 = false)
      ∧ (wCheck s.dev rows = none → wWrites l s = .ok t → opWrites s l = (.done stOk [], t))
      ∧ (wCheck s.dev rows = some (st, c) → wWrites l s = .ok t → opWrites s l = (.done st [], s.onDev c))
      ∧ (wWrites l s = .error (st, c) → opWrites s l = (.done st [], s.onDev c)))

/-- What single opcodes answer (R440, R459, R460, R524, R105, R249, R407, R398, R612): the device's identity and state, an
echo, a state change, a rail's enable that a root opcode has superseded, latches cleared, auto-zero of an armed phase,
time, the partition's resources, released refusal records, a core's partition and its run, and a session's end. -/
def Obligations.OpcodeReplies : Prop := ∀ (s : State) (k : Packet),
  let u := taken s k
  let e := u.dev
  (Serves s 0x00 k → k.params = [] →
    Replies .devInfo s k stOk (shBytes e 0 13 ++ leBytes 2 (e.f CH_BOOT_VERSION) ++ leBytes 3 (e.r LN_VER).toNat
      ++ leBytes 2 (e.f CH_SERIAL_SERIAL) ++ [npart e]) u)
  ∧ (Serves s 0x01 k → k.params = [] →
      Replies .devStatus s k stOk ([e.f PD_STATE_STATE] ++ leBytes 4 (e.r CH_BOOT).toNat ++ leBytes 4 (canopyView e k.part)) u)
  ∧ (Serves s 0x02 k →
      (k.params.length ≤ 240 → Replies .echo s k stOk k.params u)
      ∧ (240 < k.params.length → Replies .echo s k stBadParam [] u))
  ∧ (∀ q : Nat, Serves s 0x03 k → k.params = [q] → q ≤ 2 → k.part = 0 →
      let t : State := qSettle { u with dev := (pdRequest e q).2 }
      ((pdRequest e q).1 = false → Replies .setState s k stLocked [] t)
      ∧ ((pdRequest e q).1 = true → t.dev.on PD_STATE_BUSY = false → Replies .setState s k stOk [] t)
      ∧ ((pdRequest e q).1 = true → t.dev.on PD_STATE_BUSY = true →
          Leads .setState s (t.onDev fun d => { d with held := some { pkt := k, idx := 0, acc := [] } })))
  ∧ (Serves s 0x21 k →
      let r := par k 0 1
      let why : State → Prop := fun t => Replies .railEnable s k stBadParam (leBytes 2 (t.dev.r RL_CAUSE r).toNat) t
      (k.params = [] ∨ 16 ≤ r → Replies .railEnable s k stBadParam [] u)
      ∧ (k.params ≠ [] → r < 16 →
          ((railOwner e r).1 ≠ k.part → Denies .railEnable s k (railOwner e r))
          ∧ ((railOwner e r).1 = k.part →
              (k.params.length ≠ 2 ∨ 1 < par k 1 1 → why u)
              ∧ (k.params.length = 2 → par k 1 1 = 1 → staleFor k r = true → Replies .railEnable s k stStale [] u)
              ∧ (k.params.length = 2 → par k 1 1 = 0 ∨ (par k 1 1 = 1 ∧ staleFor k r = false) →
                  ∃ st t, opWrites u [(RL_CTL, r, BitVec.ofNat 32 (par k 1 1))] = (.done st [], t)
                    ∧ (st = stBadParam → why t) ∧ (st ≠ stBadParam → Replies .railEnable s k st [] t)))))
  ∧ OwnOpcode .phaseAz 0x45 1 64 phaseOwner (fun s k n =>
      (phState (taken s k).dev n = phArmed → Replies .phaseAz s k stOk [] ((taken s k).onDev fun d => azStart d n))
      ∧ (phState (taken s k).dev n ≠ phArmed →
          Replies .phaseAz s k stBadParam [] ((taken s k).onDev fun d => d.set1 PH_CAUSE_ACC_ERR n)))
  ∧ (∀ r bits : Nat, Serves s 0x2D k → k.params = [r, bits] → r < 16 → bits < 64 →
      (railOwner e r).1 = k.part ∨ k.part = 0 →
      let t := u.onDev fun d => rclr d r bits ((railOwner d r).1 == k.part) (k.part == 0)
      let was := (e.r FB_RLAT r).toNat
      let now := (t.dev.r FB_RLAT r).toNat
      Replies .railClear s k stOk [bits &&& was &&& (255 ^^^ now), bits &&& was &&& now] t)
  ∧ (∀ n bits : Nat, Serves s 0x44 k → k.params = [n, bits] → n < 64 → bits < 16 →
      (phaseOwner e n).1 = k.part ∨ k.part = 0 →
      let own := (phaseOwner e n).1 == k.part
      let was (d : Dev) : Nat := b2n (phState d n == phFailed) + 2 * (d.r FB_PLAT n).toNat
      let t := u.onDev fun d =>
        let d := pclr d n (bits / 2) own (k.part == 0)
        if bits % 2 = 1 ∧ own = true then clrFail d n else d
      Replies .phaseClear s k stOk [bits &&& was e &&& (255 ^^^ was t.dev), bits &&& was e &&& was t.dev] t)
  ∧ (Serves s 0xB0 k → k.params = [] →
      Replies .partInfo s k stOk (((List.range 20).map fun j => partByte e k.part j)
        ++ leBytes 2 (ownedBits k.part 16 (railOwner e)) ++ leBytes 8 (ownedBits k.part 64 (phaseOwner e))
        ++ leBytes 2 (ownedBits k.part 12 (laneOwner e)) ++ [b2n ((storeOwner e).1 == k.part)]) u)
  ∧ (∀ c p : Nat, Serves s 0xB2 k → k.params = [c, p] → c < 4 → p < npart e → k.part = 0 →
      (e.on CH_CORETAG_HALTED c = true → Replies .coreAssign s k stOk [] (u.onDev fun d => retag d c p))
      ∧ (e.on CH_CORETAG_HALTED c = false →
          Replies .coreAssign s k stBadParam [] (u.onDev fun d => d.set1 CH_CAUSE_ACC_ERR)))
  ∧ (∀ sess : Nat, Serves s 0xA5 k → k.params = [sess] →
      (e.hn .fwSess = sess + 1 → e.hn .fwPart = k.part →
        Replies .fwAbort s k stOk [] (u.onDev fun d => d.setH .fwSess 0 0))
      ∧ (e.hn .fwSess ≠ sess + 1 → Replies .fwAbort s k stBadParam [] u))

/-- What reads of standard commands return (R448), with the port and the warden serving, no packet waiting, STDPART
allowed on the port and the page one of its rails: VOUT_MODE 0x14, CAPABILITY 0xD4, the revision, the maker's strings, the
page, OPERATION, the status bytes and the readings. -/
def Obligations.StandardReadings : Prop := ∀ s : State,
  let d := s.dev
  let r := d.hn .pmbPage
  pmbOn d = true → wardenRuns d = true → d.held = none → d.rings = [] → d.f CP_CFG_STDPART < 8 →
  (portsOf d (d.f CP_CFG_STDPART)).testBit 0 = true → (railOwner d r).1 = d.f CP_CFG_STDPART → d.f PD_STATE_STATE ≠ 1 →
  ∀ x ∈ ([(.capability, [0xD4]), (.voutMode, [0x14]), (.onOffConfig, [0x18]), (.pmbusRevision, [0x33]),
          (.mfrId, [0x4D, 0x41, 0x55, 0x4C, 0x41, 0x4E, 0x4F, 0x52]), (.mfrModel, [0x49, 0x5A, 0x36, 0x34, 0x31, 0x36]),
          (.page, [r]), (.operation, [if d.on RL_CTL_EN r then 0x80 else 0]),
          (.voutCommand, leBytes 2 (roundDiv (d.f FL_REF_TGT r * d.f IG_COUT_VDIV r : Nat) 40).toNat),
          (.statusByte, leBytes 1 (statusWord d r)), (.statusWord, leBytes 2 (statusWord d r)),
          (.statusVout, leBytes 1 (128 * b2n (d.on FB_RLAT_OV r || d.on FB_RLAT_ABS r) + 16 * b2n (d.on FB_RLAT_UV r))),
          (.statusIout, leBytes 1 (statusIout d r)), (.statusTemperature, leBytes 1 (statusTemp d r)),
          (.statusInput, leBytes 1 (4 * b2n ((d.f FB_DLAT_SRC).testBit 0) + 2 * b2n (d.on ST_STATUS_THR))),
          (.statusCml, leBytes 1 (d.r CP_CML).toNat),
          (.readVin, leBytes 2 (linear11 (d.f ST_VMEAS_VBUS) 1000 (-6) 0)),
          (.readIin, leBytes 2 (linear11 (d.f ST_IIN_IIN) 16 (-4) 0)),
          (.readVout, leBytes 2 (voutWord d r)), (.readIout, leBytes 2 (linear11 (d.fi FL_ISUM_ISUM r) 4 (-2) 1)),
          (.readTemperature1, leBytes 2 (linear11 (hottest d r).1 16 (-4) 2)),
          (.readPout, leBytes 2 (linear11 (max 0 (voutRead d r).1 * d.fi FL_ISUM_ISUM r) ((voutRead d r).2 * 4000000) (-2) 4))]
          : List ((PmbOp → Instr) × List Nat)),
    Does (x.1 .read) s fun t => t.dev.portOut = x.2 ∧ t.dev.rings = [] ∧ t.mem = s.mem

/-- The PMBus, SPI and mailbox ports (R443 to R452). While the PMBus port serves, a standard command with a good PEC is
carried out as a command of STDPART, and a write with a bad one is discarded, CML.PEC and the cause set; while a process
call holds the clock, or the port is off, nothing happens, and a block over 255 bytes is none. A 0xD0 block and an SPI transaction submit the bytes as a
packet, with a byte lost at the crossing breaking its framing; a process call holds the clock until the reply is there or
its wait ends; replies are fetched as they are stored, or BUSY while the packet executes; the Alert Response Address gives
the port's own; and an instruction byte the SPI port does not know sets ACC_ERR. -/
def Obligations.PortCommands : Prop :=
  (∀ x ∈ ([(.page, 0x00), (.operation, 0x01), (.onOffConfig, 0x02), (.clearFaults, 0x03), (.capability, 0x19), (.voutMode, 0x20),
            (.voutCommand, 0x21), (.statusByte, 0x78), (.statusWord, 0x79), (.statusVout, 0x7A), (.statusIout, 0x7B),
            (.statusInput, 0x7C), (.statusTemperature, 0x7D), (.statusCml, 0x7E), (.readVin, 0x88), (.readIin, 0x89),
            (.readVout, 0x8B), (.readIout, 0x8C), (.readTemperature1, 0x8D), (.readPout, 0x96), (.pmbusRevision, 0x98),
            (.mfrId, 0x99), (.mfrModel, 0x9A)] : List ((PmbOp → Instr) × Nat)), ∀ s : State,
      (pmbOn s.dev = false → ∀ o : PmbOp, Leads (x.1 o) s s)
      ∧ (pmbOn s.dev = true →
          Leads (x.1 .read) s (stdSubmit x.2 [0] s)
          ∧ ∀ (data : List Byte) (pec : Pec),
              (pecBad s.dev pec = true →
                Leads (x.1 (.write data pec)) s (s.onDev fun d => (d.set1 CP_CML_PEC).set1 CP_CAUSE_PEC))
              ∧ (pecBad s.dev pec = false →
                  Leads (x.1 (.write data pec)) s (stdSubmit x.2 (1 :: data.map BitVec.toNat) s))))
  ∧ (∀ (s : State) (bytes : List Byte),
      let d := s.dev
      let b := bytes.map BitVec.toNat
      let replyTo : Int := ((b[2]?).getD 0 % 8 + 1 : Nat)
      (∀ pec : Pec,
        (255 < bytes.length → Leads (.mfrSpecific00 bytes pec) s s)
        ∧ (pmbOn d = true → bytes.length ≤ 255 → pecBad d pec = true →
          Leads (.mfrSpecific00 bytes pec) s (s.onDev fun d => (d.set1 CP_CML_PEC).set1 CP_CAUSE_PEC))
        ∧ (pmbOn d = true → bytes.length ≤ 255 → pecBad d pec = false →
            Makes (.mfrSpecific00 bytes pec) s fun d =>
              (submit (d.setH .pmbLast 0 (if ((b[1]?).getD 0).testBit 0 = true ∧ 8 ≤ b.length then replyTo else 0)) 0 0 b).2))
      ∧ (255 < bytes.length → Leads (.processCall bytes) s s)
      ∧ (pmbOn d = true →
          (bytes.length ≤ 255 →
            Makes (.processCall bytes) s fun d =>
              pmbPacket (({ d with portOut := [] } : Dev).setH .pmbCall 0 ((b[2]?).getD 0 % 8 + 1 + 16 * (b[3]?).getD 0 : Nat)) b)
          ∧ Makes .mfrSpecific01 s (fun d =>
              { d with portOut := fetchReply d (if d.hon .pmbLast then d.hn .pmbLast 0 - 1 else d.f CP_CFG_STDPART) })
          ∧ Makes .alertResponse s (fun d =>
              { d with portOut := if d.on CP_CFG_ARA_EN = true ∧ alertN d = true then [d.f CP_STATUS_ADDR] else [] }))
      ∧ (domOn d 0 = true → d.hon .pmbCall = true → Makes .processCallWaitExpire s fun d =>
          ({ d with portOut := fetchReply d (d.hn .pmbCall 0 % 16 - 1) } : Dev).setH .pmbCall 0 0)
      ∧ (domOn d 0 = true → Makes .smbusTimeout s (fun d => d.setH .pmbCall 0 0))
      ∧ (spiOn d = true →
          Makes (.spiWrite bytes false) s (fun d => (submit d 1 0 b).2)
          ∧ Makes (.spiWrite bytes true) s (fun d =>
              (submit (d.set1 CP_CAUSE_SPI_OVR) 1 0 (if b.length = 8 + leNat ((b.drop 4).take 2) then b ++ [0] else b)).2)
          ∧ (∀ p : Fin 8, Acts (.spiRead (BitVec.ofNat 8 p)) s fun e =>
              e.portOut = fetchReply d (8 + p) ∧ (streamOf e (8 + p)).unread = false)
          ∧ Makes .spiReady s (fun d => { d with portOut := [boughBits 8 fun p => (streamOf d (8 + p)).unread] })
          ∧ (∀ i : Byte, i ≠ 1 → i ≠ 2 → i ≠ 3 →
              Makes (.spiUnknownInstruction i) s fun d => ({ d with portOut := [0] } : Dev).set1 CP_CAUSE_ACC_ERR))
      ∧ (∀ (who : Initiator) (p : Part),
          Writes (.mailboxGo who p) s who row_CP_MBX_CTL p (fieldWord d CP_MBX_CTL_GO p 1) (fun d => mailboxGo d p)))

/-- How a packet is taken (R432 to R437): a frame whose length or CRC is wrong is answered with the CRC status and counts as
none of a partition's; one that names another port, a reserved flag or partition is BAD_PARAM; a repeated one is answered
from the stored reply, marked as a duplicate, or BUSY while it executes; and a sequence number of the past is STALE. -/
def Obligations.PacketsTaken : Prop := ∀ (d : Dev) (port unit : Nat) (b : List Nat),
  let at_ (i : Nat) : Nat := (b[i]?).getD 0
  let here := streamFor port unit (at_ 2 % 16 % 8)
  let x := streamOf d here
  let dist := (at_ 3 + 256 - x.seq) % 256
  let plain (part st : Nat) : Dev :=
    replySend (replyCount d part st) here ((at_ 1).testBit 0) (replyBytes st (at_ 0) 0 (at_ 3) [])
  let len := at_ 4 + 256 * at_ 5
  let framed : Prop := 8 ≤ b.length ∧ len ≤ 248 ∧ b.length = 8 + len ∧ crc16 (b.take 6 ++ b.drop 8) = at_ 6 + 256 * at_ 7
  let addressed : Prop := at_ 2 / 16 = port ∧ at_ 1 < 4 ∧ at_ 2 % 16 < 8
  (¬ framed → (submit d port unit b).2 = plain 8 stCrc)
  ∧ (framed → ¬ addressed → (submit d port unit b).2 = plain 8 stBadParam)
  ∧ (framed → addressed → x.used = true → dist = 0 → at_ 6 + 256 * at_ 7 = x.crc →
      (submit d port unit b).2 = replySend d here ((at_ 1).testBit 0)
        (if x.busy then replyBytes stBusy (at_ 0) 1 (at_ 3) [] else replyDup x.reply))
  ∧ (framed → addressed → x.used = true → (dist = 0 ∧ at_ 6 + 256 * at_ 7 ≠ x.crc) ∨ 128 ≤ dist →
      (submit d port unit b).2 = plain (at_ 2 % 16) stStale)

/-- Root opcodes (R215, R455 to R461, R693): while the ports run, the root sequencer executes the packet accepted first; its
count and the last opcode are kept and the cause set. ALL_OFF and RAIL_OFF stop rails at once and stamp the decision;
RESET is answered, and the device reset follows 10 µs after acceptance, or 1 ms after where a reply was asked for
(R456). -/
def Obligations.RootOpcodes : Prop := ∀ (s : State) (k : Packet) (q : List Packet),
  s.dev.rootq = k :: q → portsRun s.dev = true →
  let u := s.onDev fun d => { d with rootq := q }
  let e := u.dev
  let after (op : Nat) (data : List Nat) (d : Dev) : Dev :=
    let d := ((d.incSat CP_ROOTCNT_COUNT).setF CP_ROOTCNT_LAST 0 op).set1 CP_CAUSE_ROOT
    finish (d.setF CP_STATUS_ROOT_BUSY 0 (b2i (q != []))) k stOk data
  (s.dev.hon .rstAt = false ∧ k.op = 0xF3 → Leads .rootReset s (u.onDev fun d =>
      after 0xF3 [] (d.setH .rstAt 0 (if k.flags.testBit 0 then d.now + 2000001 else k.stamp + 20001 : Nat))))
  ∧ (s.dev.hon .rstAt = true →
      (s.dev.hn .rstAt ≤ s.dev.now + 1 → Leads .rootReset s (devReset s PX_RSTSRC_ROOT))
      ∧ (s.dev.now + 1 < s.dev.hn .rstAt → Leads .rootReset s s))
  ∧ (k.op = 0xF0 → Leads .allOff s (u.onDev fun d => after 0xF0 [] (rootStamp (rootAllOff d) 0xFFFF)))
  ∧ (k.op = 0xF1 → Leads .readCanopy s
      (u.onDev (after 0xF1 (leBytes 4 (canopyView e k.part) ++ [b2n (!alertN e)]))))
  ∧ (k.op = 0xF2 → Leads .readLatches s (u.onDev (after 0xF2 (latchBytes e k.part))))
  ∧ (∀ r : Fin 16, k.op = 0xF4 → k.params = [r.val] →
      Leads .railOff s (u.onDev fun d => after 0xF4 [] (rootStamp (rootRailOff d r) (2 ^ r.val))))
  ∧ (k.op = 0xF5 → Leads .readIdentity s (u.onDev (after 0xF5 (shBytes e 0 13 ++ leBytes 4 (e.r CH_BOOT).toNat
      ++ leBytes 4 (e.r CH_STATUS).toNat ++ leBytes 4 (e.r CH_SERIAL).toNat))))
  ∧ (k.op = 0xF6 → Leads .ping s (u.onDev (after 0xF6 ([e.f PD_STATE_STATE,
      b2n (e.on CP_STATUS_WARDEN) + 2 * e.f CH_BOOT_ROOTONLY + 4 * e.f CH_STATUS_DEFAULT] ++ k.params))))

/-! ### Instructions -/

/-- Addition and subtraction (R573, R574, R580): the sum or difference wraps; N and Z are its top bit and whether it is 0,
C the carry out of bit 31 of the addition that forms it (for a difference: of ra, the complement of the other operand and
the carry in), V whether two operands of equal sign, the second complemented for a difference, gave the other sign. ADDI
writes no flag, CMPI no register. -/
def Obligations.SumsAndDifferences : Prop :=
  ∀ (s s' : State) (cpu : Cpu) (rt ra rb : GReg) (sf : Bool) (imm : BitVec 16), Issues s cpu s' →
    let a := gOf s'.dev cpu ra
    let b := gOf s'.dev cpu rb
    let i := imm.signExtend 32
    let c : Nat := if (cpuFlags s'.dev cpu).c then 1 else 0
    let sum (x y : Word) (w : Word) (k : Nat) : Flags :=
      { n := w.getLsbD 31, z := w == 0, c := decide (2 ^ 32 ≤ x.toNat + y.toNat + k),
        v := x.getLsbD 31 == y.getLsbD 31 && w.getLsbD 31 != x.getLsbD 31 }
    Leads (.add cpu rt ra rb sf) s (wroteReg s' cpu rt sf (a + b) (sum a b (a + b) 0))
    ∧ Leads (.sub cpu rt ra rb sf) s (wroteReg s' cpu rt sf (a - b) (sum a (~~~b) (a - b) 1))
    ∧ Leads (.adc cpu rt ra rb sf) s (wroteReg s' cpu rt sf (a + b + BitVec.ofNat 32 c) (sum a b (a + b + BitVec.ofNat 32 c) c))
    ∧ Leads (.sbc cpu rt ra rb sf) s
        (wroteReg s' cpu rt sf (a - b - 1 + BitVec.ofNat 32 c) (sum a (~~~b) (a - b - 1 + BitVec.ofNat 32 c) c))
    ∧ Leads (.addi cpu rt ra imm) s (wroteReg s' cpu rt false (a + i) (sum a i (a + i) 0))
    ∧ Leads (.addis cpu rt ra imm) s (wroteReg s' cpu rt true (a + i) (sum a i (a + i) 0))
    ∧ Leads (.cmpi cpu ra imm) s (wroteReg s' cpu 0 true (a - i) (sum a (~~~i) (a - i) 1))

/-- Logic, shifts and rotates (R573, R574, R580): the results, with N and Z of them and C and V as before. A shift by a
register takes its low five bits. -/
def Obligations.LogicAndShifts : Prop :=
  ∀ (s s' : State) (cpu : Cpu) (rt ra rb sh : GReg) (sf : Bool) (imm : BitVec 16), Issues s cpu s' →
    let a := gOf s'.dev cpu ra
    let b := gOf s'.dev cpu rb
    let n := (b.extractLsb' 0 5).toNat
    let i : Word := imm.zeroExtend 32
    let f := cpuFlags s'.dev cpu
    let puts (k : Bool) (w : Word) : State := wroteReg s' cpu rt k w { n := w.getLsbD 31, z := w == 0, c := f.c, v := f.v }
    Leads (.and cpu rt ra rb sf) s (puts sf (a &&& b)) ∧ Leads (.or cpu rt ra rb sf) s (puts sf (a ||| b))
    ∧ Leads (.xor cpu rt ra rb sf) s (puts sf (a ^^^ b)) ∧ Leads (.andn cpu rt ra rb sf) s (puts sf (a &&& ~~~b))
    ∧ Leads (.shl cpu rt ra rb sf) s (puts sf (a <<< n)) ∧ Leads (.shr cpu rt ra rb sf) s (puts sf (a >>> n))
    ∧ Leads (.sar cpu rt ra rb sf) s (puts sf (a.sshiftRight n))
    ∧ Leads (.ror cpu rt ra rb sf) s (puts sf ((a >>> n) ||| (a <<< (32 - n))))
    ∧ Leads (.shli cpu rt ra sh sf) s (puts sf (a <<< sh.val)) ∧ Leads (.shri cpu rt ra sh sf) s (puts sf (a >>> sh.val))
    ∧ Leads (.sari cpu rt ra sh sf) s (puts sf (a.sshiftRight sh.val))
    ∧ Leads (.rori cpu rt ra sh sf) s (puts sf ((a >>> sh.val) ||| (a <<< (32 - sh.val))))
    ∧ Leads (.andi cpu rt ra imm) s (puts false (a &&& i)) ∧ Leads (.ori cpu rt ra imm) s (puts false (a ||| i))
    ∧ Leads (.xori cpu rt ra imm) s (puts false (a ^^^ i)) ∧ Leads (.lui cpu rt imm) s (puts false (i <<< 16))

/-- The other operations of the ALU group (R573, R574): minima and maxima, bit counts, byte reversal, and the saturating
operations, which set V where they saturate. PERMR writes no flag (R579). -/
def Obligations.CountsExtremesAndSaturation : Prop :=
  ∀ (s s' : State) (cpu : Cpu) (rt ra rb : GReg) (sf : Bool), Issues s cpu s' →
    let a := gOf s'.dev cpu ra
    let b := gOf s'.dev cpu rb
    let f := cpuFlags s'.dev cpu
    let puts (w : Word) : State := wroteReg s' cpu rt sf w { n := w.getLsbD 31, z := w == 0, c := f.c, v := f.v }
    let lead (x : Word) : Nat := if x = 0 then 32 else 31 - Nat.log2 x.toNat
    let sats (y : Int) : State :=
      let r := max (-2 ^ 31) (min (2 ^ 31 - 1) y)
      let w := BitVec.ofInt 32 r
      wroteReg s' cpu rt sf w { n := w.getLsbD 31, z := w == 0, c := f.c, v := r != y }
    Leads (.min cpu rt ra rb sf) s (puts (if a.toInt ≤ b.toInt then a else b))
    ∧ Leads (.max cpu rt ra rb sf) s (puts (if b.toInt ≤ a.toInt then a else b))
    ∧ Leads (.minu cpu rt ra rb sf) s (puts (if a.toNat ≤ b.toNat then a else b))
    ∧ Leads (.maxu cpu rt ra rb sf) s (puts (if b.toNat ≤ a.toNat then a else b))
    ∧ Leads (.clz cpu rt ra sf) s (puts (BitVec.ofNat 32 (lead a)))
    ∧ Leads (.cls cpu rt ra sf) s (puts (BitVec.ofNat 32 (lead (if a.getLsbD 31 then ~~~a else a) - 1)))
    ∧ Leads (.popc cpu rt ra sf) s (puts (BitVec.ofNat 32 ((List.range 32).filter fun i => a.getLsbD i).length))
    ∧ Leads (.rev cpu rt ra sf) s
        (puts (a.extractLsb' 0 8 ++ a.extractLsb' 8 8 ++ a.extractLsb' 16 8 ++ a.extractLsb' 24 8))
    ∧ Leads (.permr cpu rt ra rb sf) s
        (wroteReg s' cpu rt false (perm a (gOf s'.dev cpu rt) (b.extractLsb' 0 16).toNat) f)
    ∧ Leads (.abs cpu rt ra sf) s (sats (if a.toInt < 0 then -a.toInt else a.toInt))
    ∧ Leads (.adds cpu rt ra rb sf) s (sats (a.toInt + b.toInt))
    ∧ Leads (.subs cpu rt ra rb sf) s (sats (a.toInt - b.toInt))

/-- Multiplies and divides (R575, R576). With S set, N and Z follow the result, V is 0 for a multiply and the overflow of a
divide, C stays. A divide raises no exception: by 0 the quotient is all ones and the remainder the dividend; the most
negative number over −1 gives itself and 0. An engine has no divide (R588): it is an illegal instruction there. Every other fn value is reserved. -/
def Obligations.MultipliesAndDivides : Prop :=
  ∀ (s s' : State) (cpu : Cpu) (rt ra rb : GReg) (sf : Bool), Issues s cpu s' →
    let a := gOf s'.dev cpu ra
    let b := gOf s'.dev cpu rb
    let f := cpuFlags s'.dev cpu
    let puts (v : Bool) (w : Word) : State := wroteReg s' cpu rt sf w { n := w.getLsbD 31, z := w == 0, c := f.c, v := v }
    let most := a == 0x80000000 && b == 0xFFFFFFFF
    Leads (.mul cpu rt ra rb sf) s (puts false (a * b))
    ∧ Leads (.mulhs cpu rt ra rb sf) s (puts false ((a.signExtend 64 * b.signExtend 64).extractLsb' 32 32))
    ∧ Leads (.mulhu cpu rt ra rb sf) s (puts false ((a.zeroExtend 64 * b.zeroExtend 64).extractLsb' 32 32))
    ∧ ((∀ g e, cpu ≠ .engine g e) →
      Leads (.div cpu rt ra rb sf) s (puts (b == 0 || most)
        (if b = 0 then 0xFFFFFFFF else BitVec.ofInt 32 (a.toInt.tdiv b.toInt)))
      ∧ Leads (.rem cpu rt ra rb sf) s (puts (b == 0 || most)
        (if b = 0 then a else BitVec.ofInt 32 (a.toInt.tmod b.toInt)))
      ∧ Leads (.divu cpu rt ra rb sf) s (puts (b == 0) (if b = 0 then 0xFFFFFFFF else BitVec.ofNat 32 (a.toNat / b.toNat)))
      ∧ Leads (.remu cpu rt ra rb sf) s (puts (b == 0) (if b = 0 then a else BitVec.ofNat 32 (a.toNat % b.toNat))))
    ∧ (∀ g e, cpu = .engine g e →
      let t := raiseTrap s' cpu { vec := 1 }
      Leads (.div cpu rt ra rb sf) s t ∧ Leads (.rem cpu rt ra rb sf) s t
        ∧ Leads (.divu cpu rt ra rb sf) s t ∧ Leads (.remu cpu rt ra rb sf) s t)
    ∧ ∀ (kind : CpuKind) (w : Word), bitsOf w 26 6 = 0x02 → bitsOf w 0 6 = 3 ∨ 8 ≤ bitsOf w 0 6 → legalWord kind w = false

/-- The fixed-point instructions (R577): the product of ra and rb, signed or (U) unsigned, rounded half up where RND is
set and SH is not 0, shifted right by SH, and then the result or its negative, or added to or subtracted from rt,
saturated, with V set where it saturates; MULQ, MULQN, MACQ and MSUQ in that order. -/
def Obligations.FixedPointResults : Prop :=
  ∀ (s s' : State) (cpu : Cpu) (rt ra rb : GReg) (sf u rnd : Bool) (sh : Fin 32), Issues s cpu s' →
    let num (r : GReg) : Int := if u then ((gOf s'.dev cpu r).toNat : Int) else (gOf s'.dev cpu r).toInt
    let p := num ra * num rb + (if rnd ∧ 0 < sh.val then 2 ^ (sh.val - 1) else 0)
    let q := p / 2 ^ sh.val
    let f := cpuFlags s'.dev cpu
    let lo : Int := if u then 0 else -2 ^ 31
    let hi : Int := if u then 2 ^ 32 - 1 else 2 ^ 31 - 1
    let puts (y : Int) : State :=
      let r := max lo (min hi y)
      let w := BitVec.ofInt 32 r
      wroteReg s' cpu rt sf w { n := w.getLsbD 31, z := w == 0, c := f.c, v := r != y }
    Leads (.mulq cpu rt ra rb sf u rnd sh) s (puts q) ∧ Leads (.mulqn cpu rt ra rb sf u rnd sh) s (puts (-q))
    ∧ Leads (.macq cpu rt ra rb sf u rnd sh) s (puts (num rt + q))
    ∧ Leads (.msuq cpu rt ra rb sf u rnd sh) s (puts (num rt - q))

/-- Bit fields and PERM (R578, R579): BFX, BFXS and BFI take or place a field of WM1 + 1 bits at POS, illegal where it
passes bit 31; PERM with a reserved code is illegal; none writes a flag; every other fn value is reserved. -/
def Obligations.BitFieldsAndPermute : Prop :=
  ∀ (s s' : State) (cpu : Cpu) (rt ra : GReg) (pos wm1 : Fin 32) (imm : BitVec 16), Issues s cpu s' →
    let a := gOf s'.dev cpu ra
    let t := gOf s'.dev cpu rt
    let w := wm1.val + 1
    let m : Word := BitVec.ofNat 32 (2 ^ w - 1)
    let puts (x : Word) : State := wroteReg s' cpu rt false x (cpuFlags s'.dev cpu)
    let bad := raiseTrap s' cpu { vec := 1 }
    (pos.val + wm1.val ≤ 31 →
      Leads (.bfx cpu rt ra pos wm1) s (puts ((a >>> pos.val) &&& m))
      ∧ Leads (.bfxs cpu rt ra pos wm1) s (puts (((a >>> pos.val).extractLsb' 0 w).signExtend 32))
      ∧ Leads (.bfi cpu rt ra pos wm1) s (puts ((t &&& ~~~(m <<< pos.val)) ||| ((a &&& m) <<< pos.val))))
    ∧ (31 < pos.val + wm1.val →
      Leads (.bfx cpu rt ra pos wm1) s bad ∧ Leads (.bfxs cpu rt ra pos wm1) s bad ∧ Leads (.bfi cpu rt ra pos wm1) s bad)
    ∧ ((∀ j < 4, imm.toNat / 16 ^ j % 16 < 14) → Leads (.perm cpu rt ra imm) s (puts (perm a t imm.toNat)))
    ∧ ((∃ j < 4, 14 ≤ imm.toNat / 16 ^ j % 16) → Leads (.perm cpu rt ra imm) s bad)
    ∧ ∀ (kind : CpuKind) (x : Word), bitsOf x 26 6 = 0x04 → 3 ≤ bitsOf x 0 6 → legalWord kind x = false

/-- Loads and stores (R581, R587). A load or store whose operands its addressing mode admits and whose address
is a multiple of its width 2^e makes its access; a load puts the value, extended by its sign or by zeros, into rt; with a
post-increment mode ra then takes the address after the access; and the pc goes on. A store stores rt as it was before
that. `dataLoad` and `dataStore` are what the access comes to for the CPU (translation, store buffer, bus, or an engine's
windows). Where the addressing mode does not admit the operands it is an illegal instruction, and an address that is no
multiple of the width raises vector 4 with that address; neither makes an access or updates ra (R582). -/
def Obligations.LoadsAndStores : Prop :=
  ∀ (s s' t : State) (cpu : Cpu) (rt ra : GReg) (m : BitVec 16) (v : Nat), Issues s cpu s' →
    let c := cpuId cpu
    let a := gOf s'.dev cpu ra
    let ea := (if m.toNat < 2 ^ 14 then a + (m.extractLsb' 0 14).signExtend 32 else a).toNat
    let fits (load : Bool) (e : Nat) : Prop := memIllegal s'.dev c load rt ra m e = false ∧ ea % 2 ^ e = 0
    let after (e : Nat) (d : Dev) : Dev :=
      (if m.toNat < 2 ^ 14 then d else d.setG c ra.val (memNext d c m a e)).setPc c (s'.dev.pc c + 4)
    let loaded (e : Nat) (w : Word) : State := t.onDev fun d => after e (d.setG c rt.val w)
    (dataLoad s' cpu ea 1 = .ok v t → fits true 0 →
      (v < 2 ^ 8 → Leads (.ldb cpu rt ra m) s (loaded 0 ((BitVec.ofNat 8 v).signExtend 32)))
      ∧ Leads (.ldbu cpu rt ra m) s (loaded 0 (BitVec.ofNat 32 v)))
    ∧ (dataLoad s' cpu ea 2 = .ok v t → fits true 1 →
      (v < 2 ^ 16 → Leads (.ldh cpu rt ra m) s (loaded 1 ((BitVec.ofNat 16 v).signExtend 32)))
      ∧ Leads (.ldhu cpu rt ra m) s (loaded 1 (BitVec.ofNat 32 v)))
    ∧ (dataLoad s' cpu ea 4 = .ok v t → fits true 2 →
      Leads (.ldw cpu rt ra m) s (loaded 2 (BitVec.ofNat 32 v)))
    ∧ (dataStore s' cpu ea 1 (gOf s'.dev cpu rt).toNat = .ok v t → fits false 0 →
      Leads (.stb cpu rt ra m) s (t.onDev (after 0)))
    ∧ (dataStore s' cpu ea 2 (gOf s'.dev cpu rt).toNat = .ok v t → fits false 1 →
      Leads (.sth cpu rt ra m) s (t.onDev (after 1)))
    ∧ (dataStore s' cpu ea 4 (gOf s'.dev cpu rt).toNat = .ok v t → fits false 2 →
      Leads (.stw cpu rt ra m) s (t.onDev (after 2)))
    ∧ (let bad (load : Bool) (e : Nat) : Prop := memIllegal s'.dev c load rt ra m e = true
       let ill := raiseTrap s' cpu { vec := 1 }
       let odd (w : Bool) := raiseTrap s' cpu { vec := 4, faddr := ea, write := w }
       (bad true 0 → Leads (.ldb cpu rt ra m) s ill ∧ Leads (.ldbu cpu rt ra m) s ill)
       ∧ (bad true 1 → Leads (.ldh cpu rt ra m) s ill ∧ Leads (.ldhu cpu rt ra m) s ill)
       ∧ (bad true 2 → Leads (.ldw cpu rt ra m) s ill) ∧ (bad false 0 → Leads (.stb cpu rt ra m) s ill)
       ∧ (bad false 1 → Leads (.sth cpu rt ra m) s ill) ∧ (bad false 2 → Leads (.stw cpu rt ra m) s ill)
       ∧ (¬bad true 1 → ea % 2 ≠ 0 → Leads (.ldh cpu rt ra m) s (odd false) ∧ Leads (.ldhu cpu rt ra m) s (odd false))
       ∧ (¬bad true 2 → ea % 4 ≠ 0 → Leads (.ldw cpu rt ra m) s (odd false))
       ∧ (¬bad false 1 → ea % 2 ≠ 0 → Leads (.sth cpu rt ra m) s (odd true))
       ∧ (¬bad false 2 → ea % 4 ≠ 0 → Leads (.stw cpu rt ra m) s (odd true)))

/-- B adds its displacement, in words, to the address of the branch when its condition of the flags holds, and goes on to
the next word otherwise; condition 15 is reserved: it is an illegal instruction (R584, R571). -/
def Obligations.ConditionalBranch : Prop :=
  ∀ (s s' : State) (cpu : Cpu) (cond : Fin 16) (disp : BitVec 22), Issues s cpu s' →
    let cs := s'.dev.cr (cpuId cpu) crCS
    let n := cs.getLsbD 31
    let z := cs.getLsbD 30
    let c := cs.getLsbD 29
    let v := cs.getLsbD 28
    let holds := [z, !z, c, !c, n, !n, v, !v, c && !z, !c || z, n == v, n != v, !z && n == v, z || n != v, true]
    let pc := s'.dev.pc (cpuId cpu)
    Leads (.bcond cpu cond disp) s
      (match holds[cond.val]? with
      | some true => s'.onDev fun d => d.setPc (cpuId cpu) (pc + disp.signExtend 32 * 4)
      | some false => s'.onDev fun d => d.setPc (cpuId cpu) (pc + 4)
      | none => raiseTrap s' cpu { vec := 1 })

/-- The jumps (R585): JMP and CALL add their displacement in words to their own address, CALL leaving the address after
it in g31; JR and JALR go to the value of ra, which JALR reads before it leaves the address after it in rt; a target whose
low two bits are not 0 raises the instruction-alignment exception at the jump, and rt is left unchanged. That S of JALR writes
N and Z from the address in rt, and S of JR nothing, is the model's choice (notes/assumptions/28.md). Every other fn
value of their major opcode is reserved, and so is a field other than 0 that they do not use. -/
def Obligations.Jumps : Prop :=
  ∀ (s s' : State) (cpu : Cpu) (rt ra : GReg) (sf : Bool) (disp : BitVec 26), Issues s cpu s' →
    let c := cpuId cpu
    let pc := s'.dev.pc c
    let a := gOf s'.dev cpu ra
    let goes (g : Dev → Dev) (w : Word) : State := s'.onDev fun d => (g d).setPc c w
    let trap := raiseTrap s' cpu { vec := 3, faddr := a.toNat }
    Leads (.jmp cpu disp) s (goes (fun d => d) (pc + disp.signExtend 32 * 4))
    ∧ Leads (.call cpu disp) s (goes (fun d => d.setG c 31 (pc + 4)) (pc + disp.signExtend 32 * 4))
    ∧ (a.toNat % 4 = 0 → Leads (.jr cpu ⟨ra, sf⟩) s (goes (fun d => d) a)
        ∧ Leads (.jalr cpu rt ⟨ra, false⟩) s (goes (fun d => d.setG c rt.val (pc + 4)) a)
        ∧ Leads (.jalr cpu rt ⟨ra, true⟩) s (goes (fun d => (d.setG c rt.val (pc + 4)).setCr c crCS
            (withFlags (d.cr c crCS) { cpuFlags d cpu with n := (pc + 4).getLsbD 31, z := pc + 4 == 0 })) a))
    ∧ (a.toNat % 4 ≠ 0 → Leads (.jr cpu ⟨ra, sf⟩) s trap ∧ Leads (.jalr cpu rt ⟨ra, sf⟩) s trap)
    ∧ ∀ (kind : CpuKind) (w : Word), bitsOf w 26 6 = 0x23 →
        2 ≤ bitsOf w 0 6 ∨ bitsOf w 11 5 ≠ 0 ∨ (bitsOf w 0 6 = 0 ∧ bitsOf w 21 5 ≠ 0) → legalWord kind w = false

/-- Exception entry (R608, R609), from the spec's own table: with every store of the core drained, the vector's word is
loaded at VTB + 4n; with a good word and every write to the task-state block done, the block at TSP holds the pc to resume
at, CS, the cause word, FADDR, FINFO, the modulo registers, the time base and g1 to g31, IM is 1, PL is 1 (2 on the
warden), and the core goes on at the loaded address; a bad word or a failed load halts it. -/
def Obligations.ExceptionEntry : Prop :=
  ∀ (s : State) (c vec pc bits faddr finfo : Nat), c < 5 →
    let t := drainAll s c
    let v := wordLoad t c ((t.dev.cr c crVTB).toNat + 4 * vec)
    let tsp := (v.2.dev.cr c crTSP).toNat
    let w (r : Nat) : Nat := (v.2.dev.cr c r).toNat
    let head := [pc, w crCS, vec + bits, faddr, finfo, w crMB0, w crML0, w crMB1, w crML1, v.2.dev.now % 2 ^ 32,
      v.2.dev.now / 2 ^ 32]
    let block := (List.range 11).map (fun i => (tsp + 4 * i, (head[i]?).getD 0))
      ++ (List.range 31).map fun i => (tsp + 0x40 + 4 * i, (v.2.dev.g c (i + 1)).toNat)
    (∀ a u, v.1 = some a → a ≠ 0 → a % 4 = 0 → wordStores v.2 c block = (true, u) →
      ∃ e, enter s c vec pc bits faddr finfo = { u with dev := e } ∧ e.pc c = BitVec.ofNat 32 a
        ∧ e.im c = true ∧ e.level c = (if c < 4 then 1 else 2) ∧ e.h .cWait c = 0)
    ∧ (v.1 = none ∨ (∃ a, v.1 = some a ∧ (a = 0 ∨ a % 4 ≠ 0)) →
      enter s c vec pc bits faddr finfo = vectorHalt v.2 c)

/-- SYSCALL and BRK raise vectors 12 and 13 with their code in FINFO, to resume after themselves; a loop engine has
neither (R586, R588, R608). -/
def Obligations.SystemCallAndBreakpoint : Prop :=
  ∀ (s s' : State) (cpu : Cpu) (code : BitVec 10), Issues s cpu s' →
    let c := cpuId cpu
    let next := (s'.dev.pc c + 4).toNat
    (cpuKind cpu ≠ .engine →
      Leads (.syscall cpu code) s (enter s' c 12 next 0 0 code.toNat)
      ∧ (s'.dev.hon .cDbg c = false → Leads (.brk cpu code) s (enter s' c 13 next 0 0 code.toNat))
      ∧ (s'.dev.hon .cDbg c = true → Leads (.brk cpu code) s
          ((drainAll s' c).onDev fun d => haltCore d c)))
    ∧ (cpuKind cpu = .engine → ∀ i ∈ [Instr.syscall cpu code, .brk cpu code],
        Leads i s (raiseTrap s' cpu { vec := 1 }))

/-- Control registers, by an instruction of sufficient level (R568, R586, R617): MFCR of a listed register puts its value
in rt, MTCR writes the bits it has, of CS those of the level; a register that is not listed, or a reserved block size, is an illegal
instruction, and one above the level a privilege exception. -/
def Obligations.ControlRegisters : Prop :=
  ∀ (s s' : State) (cpu : Cpu) (rt : GReg) (code : BitVec 10), Issues s cpu s' →
    let c := cpuId cpu
    let n := code.toNat
    let w := gOf s'.dev cpu rt
    let r := crRead s'.dev cpu n
    let fits : Prop := n < 0x20 ∨ 0x40 ≤ n ∨ n % 2 = 1 ∨ bitsOf w 7 5 < 20
    let trap (v : Nat) := raiseTrap s' cpu { vec := v }
    (crListed (cpuKind cpu) false n = false → Leads (.mfcr cpu rt code) s (trap 1))
    ∧ (crListed (cpuKind cpu) false n = true → s'.dev.level c < crLevel n → Leads (.mfcr cpu rt code) s (trap 2))
    ∧ (crListed (cpuKind cpu) false n = true → crLevel n ≤ s'.dev.level c → Leads (.mfcr cpu rt code) s
        { s' with dev := (r.2.setG c rt.val r.1).setPc c (s'.dev.pc c + 4) })
    ∧ (crListed (cpuKind cpu) true n = false → Leads (.mtcr cpu code rt) s (trap 1))
    ∧ (¬fits → Leads (.mtcr cpu code rt) s (trap 1))
    ∧ (crListed (cpuKind cpu) true n = true → fits → s'.dev.level c < crLevel n →
        Leads (.mtcr cpu code rt) s (trap 2))
    ∧ (crListed (cpuKind cpu) true n = true → n ≠ crCS → fits → crLevel n ≤ s'.dev.level c →
        Leads (.mtcr cpu code rt) s (s'.onDev fun d => (d.setCr c n (w &&& crMask n)).setPc c (s'.dev.pc c + 4)))
    ∧ (n = crCS → cpuKind cpu ≠ .app ∨ s'.dev.level c = 0 ∨ bitsOf w 1 2 < 2 →
        Leads (.mtcr cpu code rt) s (s'.onDev fun d =>
          (d.setCr c crCS (csWrite cpu (s'.dev.level c) (d.cr c crCS) w)).setPc c (s'.dev.pc c + 4)))

/-- The privileged instructions of a core at level 1 or above (R586, R610, R631): IMSET and IMCLR leave the old IM in
rt and write IM; WAIT waits unless an interrupt is pending; the TINV forms drop the translations they name of the core's
own partition, the warden's of every core; ERET restores what entry saved; at level 0 each raises the privilege
exception. -/
def Obligations.PrivilegedInstructions : Prop :=
  ∀ (s s' : State) (cpu : Cpu) (rt ra : GReg), Issues s cpu s' → cpuKind cpu ≠ .engine →
    let c := cpuId cpu
    let a := gOf s'.dev cpu ra
    let done (g : Dev → Dev) : State := s'.onDev fun d => (g d).setPc c (s'.dev.pc c + 4)
    let imw (x : Int) (d : Dev) : Dev := (d.setG c rt.val (if d.im c then 1 else 0)).setCr c crCS (putBits (d.cr c crCS) 0 1 x)
    let drop (hit : TlbEntry → Prop) (d : Dev) : Prop := ∃ keep : TlbEntry → Bool,
      d.tlb = s'.dev.tlb.filter keep ∧ ∀ e, keep e = false ↔ ((c = 4 ∨ e.core = c ∧ e.part = partOf s'.dev c) ∧ hit e)
    let acts (i : Instr) (P : Dev → Prop) : Prop := ∃ e, Leads i s { s' with dev := e } ∧ P e
    (s'.dev.level c = 0 → ∀ i ∈ [Instr.imset cpu rt, .imclr cpu rt, .wait cpu, .eret cpu, .tinvA cpu ra, .tinvT cpu ra,
        .tinvAll cpu], Leads i s (raiseTrap s' cpu { vec := 2 }))
    ∧ (1 ≤ s'.dev.level c →
      Leads (.imset cpu rt) s (done (imw 1)) ∧ Leads (.imclr cpu rt) s (done (imw 0))
      ∧ (intPending s'.dev c = false → Leads (.wait cpu) s (done fun d => d.setH .cWait c 1))
      ∧ (intPending s'.dev c = true → Leads (.wait cpu) s (done fun d => d))
      ∧ acts (.tinvA cpu ra) (drop fun e =>
          if c = 4 then e.part = (s'.dev.cr 4 crTINVP).toNat % 8 ∧ a.toNat / 2 ^ e.lg = e.ipa / 2 ^ e.lg
          else a.toNat / 2 ^ e.lg = e.va / 2 ^ e.lg)
      ∧ acts (.tinvT cpu ra) (drop fun e =>
          (a.getLsbD 15 = true ∨ e.ttag = a.toNat % 256) ∧ (c ≠ 4 ∨ e.part = a.toNat / 256 % 8))
      ∧ acts (.tinvAll cpu) (drop fun _ => True)
      ∧ (∀ l t, eretLoads (drainAll s' c) c
            (eretOffs.map fun o => ((drainAll s' c).dev.cr c crTSP).toNat + o) = .inr (l, t) →
          c = 4 ∨ (l[1]?).getD 0 / 2 % 4 < 2 →
          Leads (.eret cpu) s (t.onDev fun d => eretRestore d cpu l)))

/-- CAS on a word of SRAM (R583): rt takes the word, Z says whether it was rt's value, and if it was, rb is stored; on an
address that is not a multiple of 4 it raises vector 4, and a loop engine has no CAS. -/
def Obligations.CompareAndSwap : Prop :=
  ∀ (s s' : State) (cpu : Cpu) (rt ra rb : GReg) (sf : Bool), Issues s cpu s' →
    let c := cpuId cpu
    let va := (gOf s'.dev cpu ra).toNat
    let ends (t : State) (old : Nat) (z : Bool) : State := t.onDev fun d =>
      ((d.setG c rt.val (BitVec.ofNat 32 old)).setCr c crCS (putBits (d.cr c crCS) 30 1 (if z then 1 else 0))).setPc c
        (s'.dev.pc c + 4)
    (cpuKind cpu = .engine → Leads (.cas cpu rt ra ⟨rb, sf⟩) s (raiseTrap s' cpu { vec := 1 }))
    ∧ (cpuKind cpu ≠ .engine → va % 4 ≠ 0 →
        Leads (.cas cpu rt ra ⟨rb, sf⟩) s (raiseTrap s' cpu { vec := 4, faddr := va }))
    ∧ (cpuKind cpu ≠ .engine → va % 4 = 0 → ∀ pa t old u,
        cpuTranslate s' c va (s'.dev.level c) .cas = .ok pa t → (sramBank pa).isSome = true →
        busLoad (drainAll t c) (coreInit c) pa 4 = (.ok old, u) →
        (drainAll t c).dev.pc c = s'.dev.pc c → u.dev.g c rt.val = s'.dev.g c rt.val →
        (old ≠ (s'.dev.g c rt.val).toNat → Leads (.cas cpu rt ra ⟨rb, sf⟩) s (ends u old false))
        ∧ (∀ v x, old = (s'.dev.g c rt.val).toNat →
            busStore u (coreInit c) pa 4 (gOf u.dev cpu rb).toNat = (.ok x, v) → Leads (.cas cpu rt ra ⟨rb, sf⟩) s (ends v old true)))

/-- The core's other events and the two instructions that end a pass (R593, R594, R597, R601, R606, R613, R621, R152, R571):
SYNC performs every store and every write under way; the front store of the buffer drains; a halt request halts after the
stores; a line is filled once all its words have been read, the one asked for first; a missing translation is walked; an
interrupt is taken while IM is 0; DONE and DROP end the pass of a task that is not shadowed, DONE of a standard task after its
law; an unlisted word raises the illegal-instruction exception; an instruction whose fetch fails raises the exception of the
fetch, and one that its CPU does not issue leaves everything as it is; and a fetch leaves pc, registers and flags alone. -/
def Obligations.CoreEvents : Prop :=
  ∀ (s : State) (cpu : Cpu),
    let c := cpuId cpu
    (∀ s' : State, Issues s cpu s' → cpuKind cpu ≠ .engine →
      let t := (aonSync (syncDrain s' c)).onDev fun d => bufDrop d c
      (t.dev.hon .cLate c = false → Leads (.sync cpu) s (t.onDev fun d => d.setPc c (s'.dev.pc c + 4)))
      ∧ (t.dev.hon .cLate c = true → Leads (.sync cpu) s (enterLate t c (s'.dev.pc c + 4).toNat false)))
    ∧ (∀ e l, sbOf s.dev c = e :: l →
        let t := busStore (s.onDev fun d => { d with sbuf := d.sbuf.erase e }) (coreInit c) e.addr e.n e.data
        Leads (.storeDrain cpu) s (match t.1 with
          | .ok _ => t.2
          | _ => t.2.onDev fun d => lateError d c e.addr))
    ∧ (∀ k : Fin 4, coreRuns s.dev k = true → Leads (.coreHaltRequest k) s ((drainAll s k).onDev fun d => haltCore d k))
    ∧ (∀ (k : Fin 5) (addr : Word) (w : Nat → Nat) (u : Nat → State), coreRuns s.dev k = true → addr.toNat < 0x840000 →
        cacheLine s.dev k (addr.toNat / 32) = none → u 0 = s →
        (∀ j, j < 8 → busLoad (u j) (coreInit k) (addr.toNat / 32 * 32 + 4 * ((addr.toNat / 4 % 8 + j) % 8)) 4 = (.ok (w j), u (j + 1))) →
        ∃ b, Leads (.cacheLineFill k addr) s ((u 8).onDev fun d => lineInstall d k (addr.toNat / 32) b)
          ∧ b.map BitVec.toNat = (List.range 8).flatMap fun i => leBytes 4 (w ((i + 8 - addr.toNat / 4 % 8) % 8)))
    ∧ (∀ (k : Fin 4) (va : Word) (kind : Fin 4) (pa : Nat) (t : State), mayIssue s.dev (.core k) = true →
        tlbHit s.dev k va.toNat = none → trMiss s k va.toNat (s.dev.level k) (accOf kind) = .ok pa t →
        Leads (.tlbWalk k va kind) s t)
    ∧ (∀ divide : Bool, cpuKind cpu ≠ .engine → coreRuns s.dev c = true → s.dev.im c = false → intPending s.dev c = true →
        Leads (.interruptTake cpu divide) s (takeInt s c (divide && !s.dev.hon .cWait c)))
    ∧ (∀ (g : Grove) (e : Engine) (p : Pass), cpu = .engine g e → Issues s cpu s → passOn s.dev g e = some p → 64 ≤ p.e2 →
        let std := s.dev.hn .gStd (tk p.grove p.task)
        let law := stdLaw s p (std - 1)
        (std = 0 → Makes (.done cpu) s fun d => passEnd d p 1)
        ∧ (std ≠ 0 → Leads (.done cpu) s (law.1.onDev fun d => passEnd d p law.2))
        ∧ Makes (.drop cpu) s fun d => passEnd d p 2)
    ∧ (∀ (w : Word) (t : State), Issues s cpu t →
        (legalWord (cpuKind cpu) w = false → Leads (.illegalInstruction cpu w) s (raiseTrap t cpu { vec := 1 }))
        ∧ (legalWord (cpuKind cpu) w = true → Leads (.illegalInstruction cpu w) s t))
    ∧ (∀ i : Instr, cpuOf i = some cpu →
        (mayIssue s.dev cpu = false → Leads i s s)
        ∧ ∀ x t, mayIssue s.dev cpu = true → cpuFetch s cpu = (some x, t) → Leads i s (raiseTrap t cpu x))
    ∧ (∀ s' : State, Issues s cpu s' → s'.dev.pc c = s.dev.pc c ∧ (∀ r, s'.dev.g c r = s.dev.g c r)
        ∧ s'.dev.cr c crCS = s.dev.cr c crCS)
end

