-- ==== Sys2Proof/Laws/State.lean ====
section
/-! SUPPORT. What the named operations leave unchanged, one lemma per field and operation, and what reads of one store see
of writes to another. -/

namespace Sys2Proof.Machine

variable (d : Dev)

/-! ### setR -/

@[simp] theorem Dev.setR_act (R : Reg) (i : Nat) (w : Word) : (d.setR R i w).act = d.act := rfl
@[simp] theorem Dev.setR_hid (R : Reg) (i : Nat) (w : Word) : (d.setR R i w).hid = d.hid := rfl
@[simp] theorem Dev.setR_sets (R : Reg) (i : Nat) (w : Word) : (d.setR R i w).sets = d.sets := rfl
@[simp] theorem Dev.setR_tb (R : Reg) (i : Nat) (w : Word) : (d.setR R i w).tb = d.tb := rfl
@[simp] theorem Dev.setR_evq (R : Reg) (i : Nat) (w : Word) : (d.setR R i w).evq = d.evq := rfl
@[simp] theorem Dev.setR_pendSw (R : Reg) (i : Nat) (w : Word) : (d.setR R i w).pendSw = d.pendSw := rfl
@[simp] theorem Dev.setR_heldSw (R : Reg) (i : Nat) (w : Word) : (d.setR R i w).heldSw = d.heldSw := rfl
@[simp] theorem Dev.setR_pendGv (R : Reg) (i : Nat) (w : Word) : (d.setR R i w).pendGv = d.pendGv := rfl
@[simp] theorem Dev.setR_logq (R : Reg) (i : Nat) (w : Word) : (d.setR R i w).logq = d.logq := rfl
@[simp] theorem Dev.setR_targets (R : Reg) (i : Nat) (w : Word) : (d.setR R i w).targets = d.targets := rfl
@[simp] theorem Dev.setR_toneAns (R : Reg) (i : Nat) (w : Word) : (d.setR R i w).toneAns = d.toneAns := rfl
@[simp] theorem Dev.setR_sent (R : Reg) (i : Nat) (w : Word) : (d.setR R i w).sent = d.sent := rfl
@[simp] theorem Dev.setR_txq (R : Reg) (i : Nat) (w : Word) : (d.setR R i w).txq = d.txq := rfl
@[simp] theorem Dev.setR_unacked (R : Reg) (i : Nat) (w : Word) : (d.setR R i w).unacked = d.unacked := rfl
@[simp] theorem Dev.setR_txMsgs (R : Reg) (i : Nat) (w : Word) : (d.setR R i w).txMsgs = d.txMsgs := rfl
@[simp] theorem Dev.setR_rxMsgs (R : Reg) (i : Nat) (w : Word) : (d.setR R i w).rxMsgs = d.rxMsgs := rfl
@[simp] theorem Dev.setR_recovs (R : Reg) (i : Nat) (w : Word) : (d.setR R i w).recovs = d.recovs := rfl
@[simp] theorem Dev.setR_elemsDone (R : Reg) (i : Nat) (w : Word) : (d.setR R i w).elemsDone = d.elemsDone := rfl
@[simp] theorem Dev.setR_portMsgs (R : Reg) (i : Nat) (w : Word) : (d.setR R i w).portMsgs = d.portMsgs := rfl
@[simp] theorem Dev.setR_intents (R : Reg) (i : Nat) (w : Word) : (d.setR R i w).intents = d.intents := rfl
@[simp] theorem Dev.setR_pulses (R : Reg) (i : Nat) (w : Word) : (d.setR R i w).pulses = d.pulses := rfl
@[simp] theorem Dev.setR_ests (R : Reg) (i : Nat) (w : Word) : (d.setR R i w).ests = d.ests := rfl
@[simp] theorem Dev.setR_gvTrigs (R : Reg) (i : Nat) (w : Word) : (d.setR R i w).gvTrigs = d.gvTrigs := rfl
@[simp] theorem Dev.setR_gwin (R : Reg) (i : Nat) (w : Word) : (d.setR R i w).gwin = d.gwin := rfl
@[simp] theorem Dev.setR_fwdWait (R : Reg) (i : Nat) (w : Word) : (d.setR R i w).fwdWait = d.fwdWait := rfl
@[simp] theorem Dev.setR_peers (R : Reg) (i : Nat) (w : Word) : (d.setR R i w).peers = d.peers := rfl
@[simp] theorem Dev.setR_epochs (R : Reg) (i : Nat) (w : Word) : (d.setR R i w).epochs = d.epochs := rfl
@[simp] theorem Dev.setR_shadow (R : Reg) (i : Nat) (w : Word) : (d.setR R i w).shadow = d.shadow := rfl
@[simp] theorem Dev.setR_tcSeqs (R : Reg) (i : Nat) (w : Word) : (d.setR R i w).tcSeqs = d.tcSeqs := rfl
@[simp] theorem Dev.setR_tcHists (R : Reg) (i : Nat) (w : Word) : (d.setR R i w).tcHists = d.tcHists := rfl
@[simp] theorem Dev.setR_tcRecs (R : Reg) (i : Nat) (w : Word) : (d.setR R i w).tcRecs = d.tcRecs := rfl
@[simp] theorem Dev.setR_fuseOp (R : Reg) (i : Nat) (w : Word) : (d.setR R i w).fuseOp = d.fuseOp := rfl
@[simp] theorem Dev.setR_gpr (R : Reg) (i : Nat) (w : Word) : (d.setR R i w).gpr = d.gpr := rfl
@[simp] theorem Dev.setR_creg (R : Reg) (i : Nat) (w : Word) : (d.setR R i w).creg = d.creg := rfl
@[simp] theorem Dev.setR_sbuf (R : Reg) (i : Nat) (w : Word) : (d.setR R i w).sbuf = d.sbuf := rfl
@[simp] theorem Dev.setR_tlb (R : Reg) (i : Nat) (w : Word) : (d.setR R i w).tlb = d.tlb := rfl
@[simp] theorem Dev.setR_icache (R : Reg) (i : Nat) (w : Word) : (d.setR R i w).icache = d.icache := rfl
@[simp] theorem Dev.setR_lineBuf (R : Reg) (i : Nat) (w : Word) : (d.setR R i w).lineBuf = d.lineBuf := rfl
@[simp] theorem Dev.setR_wbq (R : Reg) (i : Nat) (w : Word) : (d.setR R i w).wbq = d.wbq := rfl
@[simp] theorem Dev.setR_passes (R : Reg) (i : Nat) (w : Word) : (d.setR R i w).passes = d.passes := rfl
@[simp] theorem Dev.setR_prov (R : Reg) (i : Nat) (w : Word) : (d.setR R i w).prov = d.prov := rfl
@[simp] theorem Dev.setR_steerq (R : Reg) (i : Nat) (w : Word) : (d.setR R i w).steerq = d.steerq := rfl
@[simp] theorem Dev.setR_ports (R : Reg) (i : Nat) (w : Word) : (d.setR R i w).ports = d.ports := rfl
@[simp] theorem Dev.setR_ringDone (R : Reg) (i : Nat) (w : Word) : (d.setR R i w).ringDone = d.ringDone := rfl
@[simp] theorem Dev.setR_aonQ (R : Reg) (i : Nat) (w : Word) : (d.setR R i w).aonQ = d.aonQ := rfl
@[simp] theorem Dev.setR_streams (R : Reg) (i : Nat) (w : Word) : (d.setR R i w).streams = d.streams := rfl
@[simp] theorem Dev.setR_conts (R : Reg) (i : Nat) (w : Word) : (d.setR R i w).conts = d.conts := rfl
@[simp] theorem Dev.setR_rings (R : Reg) (i : Nat) (w : Word) : (d.setR R i w).rings = d.rings := rfl
@[simp] theorem Dev.setR_rootq (R : Reg) (i : Nat) (w : Word) : (d.setR R i w).rootq = d.rootq := rfl
@[simp] theorem Dev.setR_longs (R : Reg) (i : Nat) (w : Word) : (d.setR R i w).longs = d.longs := rfl
@[simp] theorem Dev.setR_held (R : Reg) (i : Nat) (w : Word) : (d.setR R i w).held = d.held := rfl
@[simp] theorem Dev.setR_portOut (R : Reg) (i : Nat) (w : Word) : (d.setR R i w).portOut = d.portOut := rfl
@[simp] theorem Dev.setR_fresh (R : Reg) (i : Nat) (w : Word) : (d.setR R i w).fresh = d.fresh := rfl
@[simp] theorem Dev.setR_ar (R : Reg) (i : Nat) (w : Word) (R' : Reg) (j : Nat) : (d.setR R i w).ar R' j = d.ar R' j := rfl
@[simp] theorem Dev.setR_a (R : Reg) (i : Nat) (w : Word) (F' : Fld) (j : Nat) : (d.setR R i w).a F' j = d.a F' j := rfl
@[simp] theorem Dev.setR_ai (R : Reg) (i : Nat) (w : Word) (F' : Fld) (j : Nat) : (d.setR R i w).ai F' j = d.ai F' j := rfl
@[simp] theorem Dev.setR_aon (R : Reg) (i : Nat) (w : Word) (F' : Fld) (j : Nat) : (d.setR R i w).aon F' j = d.aon F' j := rfl
@[simp] theorem Dev.setR_h (R : Reg) (i : Nat) (w : Word) (v' : Hid) (j : Nat) : (d.setR R i w).h v' j = d.h v' j := rfl
@[simp] theorem Dev.setR_hn (R : Reg) (i : Nat) (w : Word) (v' : Hid) (j : Nat) : (d.setR R i w).hn v' j = d.hn v' j := rfl
@[simp] theorem Dev.setR_hon (R : Reg) (i : Nat) (w : Word) (v' : Hid) (j : Nat) : (d.setR R i w).hon v' j = d.hon v' j := rfl
@[simp] theorem Dev.setR_now (R : Reg) (i : Nat) (w : Word) : (d.setR R i w).now = d.now := rfl

/-! ### setAr -/

@[simp] theorem Dev.setAr_regs (R : Reg) (i : Nat) (w : Word) : (d.setAr R i w).regs = d.regs := rfl
@[simp] theorem Dev.setAr_hid (R : Reg) (i : Nat) (w : Word) : (d.setAr R i w).hid = d.hid := rfl
@[simp] theorem Dev.setAr_sets (R : Reg) (i : Nat) (w : Word) : (d.setAr R i w).sets = d.sets := rfl
@[simp] theorem Dev.setAr_tb (R : Reg) (i : Nat) (w : Word) : (d.setAr R i w).tb = d.tb := rfl
@[simp] theorem Dev.setAr_evq (R : Reg) (i : Nat) (w : Word) : (d.setAr R i w).evq = d.evq := rfl
@[simp] theorem Dev.setAr_pendSw (R : Reg) (i : Nat) (w : Word) : (d.setAr R i w).pendSw = d.pendSw := rfl
@[simp] theorem Dev.setAr_heldSw (R : Reg) (i : Nat) (w : Word) : (d.setAr R i w).heldSw = d.heldSw := rfl
@[simp] theorem Dev.setAr_pendGv (R : Reg) (i : Nat) (w : Word) : (d.setAr R i w).pendGv = d.pendGv := rfl
@[simp] theorem Dev.setAr_logq (R : Reg) (i : Nat) (w : Word) : (d.setAr R i w).logq = d.logq := rfl
@[simp] theorem Dev.setAr_targets (R : Reg) (i : Nat) (w : Word) : (d.setAr R i w).targets = d.targets := rfl
@[simp] theorem Dev.setAr_toneAns (R : Reg) (i : Nat) (w : Word) : (d.setAr R i w).toneAns = d.toneAns := rfl
@[simp] theorem Dev.setAr_sent (R : Reg) (i : Nat) (w : Word) : (d.setAr R i w).sent = d.sent := rfl
@[simp] theorem Dev.setAr_txq (R : Reg) (i : Nat) (w : Word) : (d.setAr R i w).txq = d.txq := rfl
@[simp] theorem Dev.setAr_unacked (R : Reg) (i : Nat) (w : Word) : (d.setAr R i w).unacked = d.unacked := rfl
@[simp] theorem Dev.setAr_txMsgs (R : Reg) (i : Nat) (w : Word) : (d.setAr R i w).txMsgs = d.txMsgs := rfl
@[simp] theorem Dev.setAr_rxMsgs (R : Reg) (i : Nat) (w : Word) : (d.setAr R i w).rxMsgs = d.rxMsgs := rfl
@[simp] theorem Dev.setAr_recovs (R : Reg) (i : Nat) (w : Word) : (d.setAr R i w).recovs = d.recovs := rfl
@[simp] theorem Dev.setAr_elemsDone (R : Reg) (i : Nat) (w : Word) : (d.setAr R i w).elemsDone = d.elemsDone := rfl
@[simp] theorem Dev.setAr_portMsgs (R : Reg) (i : Nat) (w : Word) : (d.setAr R i w).portMsgs = d.portMsgs := rfl
@[simp] theorem Dev.setAr_intents (R : Reg) (i : Nat) (w : Word) : (d.setAr R i w).intents = d.intents := rfl
@[simp] theorem Dev.setAr_pulses (R : Reg) (i : Nat) (w : Word) : (d.setAr R i w).pulses = d.pulses := rfl
@[simp] theorem Dev.setAr_ests (R : Reg) (i : Nat) (w : Word) : (d.setAr R i w).ests = d.ests := rfl
@[simp] theorem Dev.setAr_gvTrigs (R : Reg) (i : Nat) (w : Word) : (d.setAr R i w).gvTrigs = d.gvTrigs := rfl
@[simp] theorem Dev.setAr_gwin (R : Reg) (i : Nat) (w : Word) : (d.setAr R i w).gwin = d.gwin := rfl
@[simp] theorem Dev.setAr_fwdWait (R : Reg) (i : Nat) (w : Word) : (d.setAr R i w).fwdWait = d.fwdWait := rfl
@[simp] theorem Dev.setAr_peers (R : Reg) (i : Nat) (w : Word) : (d.setAr R i w).peers = d.peers := rfl
@[simp] theorem Dev.setAr_epochs (R : Reg) (i : Nat) (w : Word) : (d.setAr R i w).epochs = d.epochs := rfl
@[simp] theorem Dev.setAr_shadow (R : Reg) (i : Nat) (w : Word) : (d.setAr R i w).shadow = d.shadow := rfl
@[simp] theorem Dev.setAr_tcSeqs (R : Reg) (i : Nat) (w : Word) : (d.setAr R i w).tcSeqs = d.tcSeqs := rfl
@[simp] theorem Dev.setAr_tcHists (R : Reg) (i : Nat) (w : Word) : (d.setAr R i w).tcHists = d.tcHists := rfl
@[simp] theorem Dev.setAr_tcRecs (R : Reg) (i : Nat) (w : Word) : (d.setAr R i w).tcRecs = d.tcRecs := rfl
@[simp] theorem Dev.setAr_fuseOp (R : Reg) (i : Nat) (w : Word) : (d.setAr R i w).fuseOp = d.fuseOp := rfl
@[simp] theorem Dev.setAr_gpr (R : Reg) (i : Nat) (w : Word) : (d.setAr R i w).gpr = d.gpr := rfl
@[simp] theorem Dev.setAr_creg (R : Reg) (i : Nat) (w : Word) : (d.setAr R i w).creg = d.creg := rfl
@[simp] theorem Dev.setAr_sbuf (R : Reg) (i : Nat) (w : Word) : (d.setAr R i w).sbuf = d.sbuf := rfl
@[simp] theorem Dev.setAr_tlb (R : Reg) (i : Nat) (w : Word) : (d.setAr R i w).tlb = d.tlb := rfl
@[simp] theorem Dev.setAr_icache (R : Reg) (i : Nat) (w : Word) : (d.setAr R i w).icache = d.icache := rfl
@[simp] theorem Dev.setAr_lineBuf (R : Reg) (i : Nat) (w : Word) : (d.setAr R i w).lineBuf = d.lineBuf := rfl
@[simp] theorem Dev.setAr_wbq (R : Reg) (i : Nat) (w : Word) : (d.setAr R i w).wbq = d.wbq := rfl
@[simp] theorem Dev.setAr_passes (R : Reg) (i : Nat) (w : Word) : (d.setAr R i w).passes = d.passes := rfl
@[simp] theorem Dev.setAr_prov (R : Reg) (i : Nat) (w : Word) : (d.setAr R i w).prov = d.prov := rfl
@[simp] theorem Dev.setAr_steerq (R : Reg) (i : Nat) (w : Word) : (d.setAr R i w).steerq = d.steerq := rfl
@[simp] theorem Dev.setAr_ports (R : Reg) (i : Nat) (w : Word) : (d.setAr R i w).ports = d.ports := rfl
@[simp] theorem Dev.setAr_ringDone (R : Reg) (i : Nat) (w : Word) : (d.setAr R i w).ringDone = d.ringDone := rfl
@[simp] theorem Dev.setAr_aonQ (R : Reg) (i : Nat) (w : Word) : (d.setAr R i w).aonQ = d.aonQ := rfl
@[simp] theorem Dev.setAr_streams (R : Reg) (i : Nat) (w : Word) : (d.setAr R i w).streams = d.streams := rfl
@[simp] theorem Dev.setAr_conts (R : Reg) (i : Nat) (w : Word) : (d.setAr R i w).conts = d.conts := rfl
@[simp] theorem Dev.setAr_rings (R : Reg) (i : Nat) (w : Word) : (d.setAr R i w).rings = d.rings := rfl
@[simp] theorem Dev.setAr_rootq (R : Reg) (i : Nat) (w : Word) : (d.setAr R i w).rootq = d.rootq := rfl
@[simp] theorem Dev.setAr_longs (R : Reg) (i : Nat) (w : Word) : (d.setAr R i w).longs = d.longs := rfl
@[simp] theorem Dev.setAr_held (R : Reg) (i : Nat) (w : Word) : (d.setAr R i w).held = d.held := rfl
@[simp] theorem Dev.setAr_portOut (R : Reg) (i : Nat) (w : Word) : (d.setAr R i w).portOut = d.portOut := rfl
@[simp] theorem Dev.setAr_fresh (R : Reg) (i : Nat) (w : Word) : (d.setAr R i w).fresh = d.fresh := rfl
@[simp] theorem Dev.setAr_r (R : Reg) (i : Nat) (w : Word) (R' : Reg) (j : Nat) : (d.setAr R i w).r R' j = d.r R' j := rfl
@[simp] theorem Dev.setAr_f (R : Reg) (i : Nat) (w : Word) (F' : Fld) (j : Nat) : (d.setAr R i w).f F' j = d.f F' j := rfl
@[simp] theorem Dev.setAr_fi (R : Reg) (i : Nat) (w : Word) (F' : Fld) (j : Nat) : (d.setAr R i w).fi F' j = d.fi F' j := rfl
@[simp] theorem Dev.setAr_on (R : Reg) (i : Nat) (w : Word) (F' : Fld) (j : Nat) : (d.setAr R i w).on F' j = d.on F' j := rfl
@[simp] theorem Dev.setAr_h (R : Reg) (i : Nat) (w : Word) (v' : Hid) (j : Nat) : (d.setAr R i w).h v' j = d.h v' j := rfl
@[simp] theorem Dev.setAr_hn (R : Reg) (i : Nat) (w : Word) (v' : Hid) (j : Nat) : (d.setAr R i w).hn v' j = d.hn v' j := rfl
@[simp] theorem Dev.setAr_hon (R : Reg) (i : Nat) (w : Word) (v' : Hid) (j : Nat) : (d.setAr R i w).hon v' j = d.hon v' j := rfl
@[simp] theorem Dev.setAr_now (R : Reg) (i : Nat) (w : Word) : (d.setAr R i w).now = d.now := rfl

/-! ### setF -/

@[simp] theorem Dev.setF_act (F : Fld) (i : Nat) (v : Int) : (d.setF F i v).act = d.act := rfl
@[simp] theorem Dev.setF_hid (F : Fld) (i : Nat) (v : Int) : (d.setF F i v).hid = d.hid := rfl
@[simp] theorem Dev.setF_sets (F : Fld) (i : Nat) (v : Int) : (d.setF F i v).sets = d.sets := rfl
@[simp] theorem Dev.setF_tb (F : Fld) (i : Nat) (v : Int) : (d.setF F i v).tb = d.tb := rfl
@[simp] theorem Dev.setF_evq (F : Fld) (i : Nat) (v : Int) : (d.setF F i v).evq = d.evq := rfl
@[simp] theorem Dev.setF_pendSw (F : Fld) (i : Nat) (v : Int) : (d.setF F i v).pendSw = d.pendSw := rfl
@[simp] theorem Dev.setF_heldSw (F : Fld) (i : Nat) (v : Int) : (d.setF F i v).heldSw = d.heldSw := rfl
@[simp] theorem Dev.setF_pendGv (F : Fld) (i : Nat) (v : Int) : (d.setF F i v).pendGv = d.pendGv := rfl
@[simp] theorem Dev.setF_logq (F : Fld) (i : Nat) (v : Int) : (d.setF F i v).logq = d.logq := rfl
@[simp] theorem Dev.setF_targets (F : Fld) (i : Nat) (v : Int) : (d.setF F i v).targets = d.targets := rfl
@[simp] theorem Dev.setF_toneAns (F : Fld) (i : Nat) (v : Int) : (d.setF F i v).toneAns = d.toneAns := rfl
@[simp] theorem Dev.setF_sent (F : Fld) (i : Nat) (v : Int) : (d.setF F i v).sent = d.sent := rfl
@[simp] theorem Dev.setF_txq (F : Fld) (i : Nat) (v : Int) : (d.setF F i v).txq = d.txq := rfl
@[simp] theorem Dev.setF_unacked (F : Fld) (i : Nat) (v : Int) : (d.setF F i v).unacked = d.unacked := rfl
@[simp] theorem Dev.setF_txMsgs (F : Fld) (i : Nat) (v : Int) : (d.setF F i v).txMsgs = d.txMsgs := rfl
@[simp] theorem Dev.setF_rxMsgs (F : Fld) (i : Nat) (v : Int) : (d.setF F i v).rxMsgs = d.rxMsgs := rfl
@[simp] theorem Dev.setF_recovs (F : Fld) (i : Nat) (v : Int) : (d.setF F i v).recovs = d.recovs := rfl
@[simp] theorem Dev.setF_elemsDone (F : Fld) (i : Nat) (v : Int) : (d.setF F i v).elemsDone = d.elemsDone := rfl
@[simp] theorem Dev.setF_portMsgs (F : Fld) (i : Nat) (v : Int) : (d.setF F i v).portMsgs = d.portMsgs := rfl
@[simp] theorem Dev.setF_intents (F : Fld) (i : Nat) (v : Int) : (d.setF F i v).intents = d.intents := rfl
@[simp] theorem Dev.setF_pulses (F : Fld) (i : Nat) (v : Int) : (d.setF F i v).pulses = d.pulses := rfl
@[simp] theorem Dev.setF_ests (F : Fld) (i : Nat) (v : Int) : (d.setF F i v).ests = d.ests := rfl
@[simp] theorem Dev.setF_gvTrigs (F : Fld) (i : Nat) (v : Int) : (d.setF F i v).gvTrigs = d.gvTrigs := rfl
@[simp] theorem Dev.setF_gwin (F : Fld) (i : Nat) (v : Int) : (d.setF F i v).gwin = d.gwin := rfl
@[simp] theorem Dev.setF_fwdWait (F : Fld) (i : Nat) (v : Int) : (d.setF F i v).fwdWait = d.fwdWait := rfl
@[simp] theorem Dev.setF_peers (F : Fld) (i : Nat) (v : Int) : (d.setF F i v).peers = d.peers := rfl
@[simp] theorem Dev.setF_epochs (F : Fld) (i : Nat) (v : Int) : (d.setF F i v).epochs = d.epochs := rfl
@[simp] theorem Dev.setF_shadow (F : Fld) (i : Nat) (v : Int) : (d.setF F i v).shadow = d.shadow := rfl
@[simp] theorem Dev.setF_tcSeqs (F : Fld) (i : Nat) (v : Int) : (d.setF F i v).tcSeqs = d.tcSeqs := rfl
@[simp] theorem Dev.setF_tcHists (F : Fld) (i : Nat) (v : Int) : (d.setF F i v).tcHists = d.tcHists := rfl
@[simp] theorem Dev.setF_tcRecs (F : Fld) (i : Nat) (v : Int) : (d.setF F i v).tcRecs = d.tcRecs := rfl
@[simp] theorem Dev.setF_fuseOp (F : Fld) (i : Nat) (v : Int) : (d.setF F i v).fuseOp = d.fuseOp := rfl
@[simp] theorem Dev.setF_gpr (F : Fld) (i : Nat) (v : Int) : (d.setF F i v).gpr = d.gpr := rfl
@[simp] theorem Dev.setF_creg (F : Fld) (i : Nat) (v : Int) : (d.setF F i v).creg = d.creg := rfl
@[simp] theorem Dev.setF_sbuf (F : Fld) (i : Nat) (v : Int) : (d.setF F i v).sbuf = d.sbuf := rfl
@[simp] theorem Dev.setF_tlb (F : Fld) (i : Nat) (v : Int) : (d.setF F i v).tlb = d.tlb := rfl
@[simp] theorem Dev.setF_icache (F : Fld) (i : Nat) (v : Int) : (d.setF F i v).icache = d.icache := rfl
@[simp] theorem Dev.setF_lineBuf (F : Fld) (i : Nat) (v : Int) : (d.setF F i v).lineBuf = d.lineBuf := rfl
@[simp] theorem Dev.setF_wbq (F : Fld) (i : Nat) (v : Int) : (d.setF F i v).wbq = d.wbq := rfl
@[simp] theorem Dev.setF_passes (F : Fld) (i : Nat) (v : Int) : (d.setF F i v).passes = d.passes := rfl
@[simp] theorem Dev.setF_prov (F : Fld) (i : Nat) (v : Int) : (d.setF F i v).prov = d.prov := rfl
@[simp] theorem Dev.setF_steerq (F : Fld) (i : Nat) (v : Int) : (d.setF F i v).steerq = d.steerq := rfl
@[simp] theorem Dev.setF_ports (F : Fld) (i : Nat) (v : Int) : (d.setF F i v).ports = d.ports := rfl
@[simp] theorem Dev.setF_ringDone (F : Fld) (i : Nat) (v : Int) : (d.setF F i v).ringDone = d.ringDone := rfl
@[simp] theorem Dev.setF_aonQ (F : Fld) (i : Nat) (v : Int) : (d.setF F i v).aonQ = d.aonQ := rfl
@[simp] theorem Dev.setF_streams (F : Fld) (i : Nat) (v : Int) : (d.setF F i v).streams = d.streams := rfl
@[simp] theorem Dev.setF_conts (F : Fld) (i : Nat) (v : Int) : (d.setF F i v).conts = d.conts := rfl
@[simp] theorem Dev.setF_rings (F : Fld) (i : Nat) (v : Int) : (d.setF F i v).rings = d.rings := rfl
@[simp] theorem Dev.setF_rootq (F : Fld) (i : Nat) (v : Int) : (d.setF F i v).rootq = d.rootq := rfl
@[simp] theorem Dev.setF_longs (F : Fld) (i : Nat) (v : Int) : (d.setF F i v).longs = d.longs := rfl
@[simp] theorem Dev.setF_held (F : Fld) (i : Nat) (v : Int) : (d.setF F i v).held = d.held := rfl
@[simp] theorem Dev.setF_portOut (F : Fld) (i : Nat) (v : Int) : (d.setF F i v).portOut = d.portOut := rfl
@[simp] theorem Dev.setF_fresh (F : Fld) (i : Nat) (v : Int) : (d.setF F i v).fresh = d.fresh := rfl
@[simp] theorem Dev.setF_ar (F : Fld) (i : Nat) (v : Int) (R' : Reg) (j : Nat) : (d.setF F i v).ar R' j = d.ar R' j := rfl
@[simp] theorem Dev.setF_a (F : Fld) (i : Nat) (v : Int) (F' : Fld) (j : Nat) : (d.setF F i v).a F' j = d.a F' j := rfl
@[simp] theorem Dev.setF_ai (F : Fld) (i : Nat) (v : Int) (F' : Fld) (j : Nat) : (d.setF F i v).ai F' j = d.ai F' j := rfl
@[simp] theorem Dev.setF_aon (F : Fld) (i : Nat) (v : Int) (F' : Fld) (j : Nat) : (d.setF F i v).aon F' j = d.aon F' j := rfl
@[simp] theorem Dev.setF_h (F : Fld) (i : Nat) (v : Int) (v' : Hid) (j : Nat) : (d.setF F i v).h v' j = d.h v' j := rfl
@[simp] theorem Dev.setF_hn (F : Fld) (i : Nat) (v : Int) (v' : Hid) (j : Nat) : (d.setF F i v).hn v' j = d.hn v' j := rfl
@[simp] theorem Dev.setF_hon (F : Fld) (i : Nat) (v : Int) (v' : Hid) (j : Nat) : (d.setF F i v).hon v' j = d.hon v' j := rfl
@[simp] theorem Dev.setF_now (F : Fld) (i : Nat) (v : Int) : (d.setF F i v).now = d.now := rfl

/-! ### set1 -/

@[simp] theorem Dev.set1_act (F : Fld) (i : Nat) : (d.set1 F i).act = d.act := rfl
@[simp] theorem Dev.set1_hid (F : Fld) (i : Nat) : (d.set1 F i).hid = d.hid := rfl
@[simp] theorem Dev.set1_tb (F : Fld) (i : Nat) : (d.set1 F i).tb = d.tb := rfl
@[simp] theorem Dev.set1_evq (F : Fld) (i : Nat) : (d.set1 F i).evq = d.evq := rfl
@[simp] theorem Dev.set1_pendSw (F : Fld) (i : Nat) : (d.set1 F i).pendSw = d.pendSw := rfl
@[simp] theorem Dev.set1_heldSw (F : Fld) (i : Nat) : (d.set1 F i).heldSw = d.heldSw := rfl
@[simp] theorem Dev.set1_pendGv (F : Fld) (i : Nat) : (d.set1 F i).pendGv = d.pendGv := rfl
@[simp] theorem Dev.set1_logq (F : Fld) (i : Nat) : (d.set1 F i).logq = d.logq := rfl
@[simp] theorem Dev.set1_targets (F : Fld) (i : Nat) : (d.set1 F i).targets = d.targets := rfl
@[simp] theorem Dev.set1_toneAns (F : Fld) (i : Nat) : (d.set1 F i).toneAns = d.toneAns := rfl
@[simp] theorem Dev.set1_sent (F : Fld) (i : Nat) : (d.set1 F i).sent = d.sent := rfl
@[simp] theorem Dev.set1_txq (F : Fld) (i : Nat) : (d.set1 F i).txq = d.txq := rfl
@[simp] theorem Dev.set1_unacked (F : Fld) (i : Nat) : (d.set1 F i).unacked = d.unacked := rfl
@[simp] theorem Dev.set1_txMsgs (F : Fld) (i : Nat) : (d.set1 F i).txMsgs = d.txMsgs := rfl
@[simp] theorem Dev.set1_rxMsgs (F : Fld) (i : Nat) : (d.set1 F i).rxMsgs = d.rxMsgs := rfl
@[simp] theorem Dev.set1_recovs (F : Fld) (i : Nat) : (d.set1 F i).recovs = d.recovs := rfl
@[simp] theorem Dev.set1_elemsDone (F : Fld) (i : Nat) : (d.set1 F i).elemsDone = d.elemsDone := rfl
@[simp] theorem Dev.set1_portMsgs (F : Fld) (i : Nat) : (d.set1 F i).portMsgs = d.portMsgs := rfl
@[simp] theorem Dev.set1_intents (F : Fld) (i : Nat) : (d.set1 F i).intents = d.intents := rfl
@[simp] theorem Dev.set1_pulses (F : Fld) (i : Nat) : (d.set1 F i).pulses = d.pulses := rfl
@[simp] theorem Dev.set1_ests (F : Fld) (i : Nat) : (d.set1 F i).ests = d.ests := rfl
@[simp] theorem Dev.set1_gvTrigs (F : Fld) (i : Nat) : (d.set1 F i).gvTrigs = d.gvTrigs := rfl
@[simp] theorem Dev.set1_gwin (F : Fld) (i : Nat) : (d.set1 F i).gwin = d.gwin := rfl
@[simp] theorem Dev.set1_fwdWait (F : Fld) (i : Nat) : (d.set1 F i).fwdWait = d.fwdWait := rfl
@[simp] theorem Dev.set1_peers (F : Fld) (i : Nat) : (d.set1 F i).peers = d.peers := rfl
@[simp] theorem Dev.set1_epochs (F : Fld) (i : Nat) : (d.set1 F i).epochs = d.epochs := rfl
@[simp] theorem Dev.set1_shadow (F : Fld) (i : Nat) : (d.set1 F i).shadow = d.shadow := rfl
@[simp] theorem Dev.set1_tcSeqs (F : Fld) (i : Nat) : (d.set1 F i).tcSeqs = d.tcSeqs := rfl
@[simp] theorem Dev.set1_tcHists (F : Fld) (i : Nat) : (d.set1 F i).tcHists = d.tcHists := rfl
@[simp] theorem Dev.set1_tcRecs (F : Fld) (i : Nat) : (d.set1 F i).tcRecs = d.tcRecs := rfl
@[simp] theorem Dev.set1_fuseOp (F : Fld) (i : Nat) : (d.set1 F i).fuseOp = d.fuseOp := rfl
@[simp] theorem Dev.set1_gpr (F : Fld) (i : Nat) : (d.set1 F i).gpr = d.gpr := rfl
@[simp] theorem Dev.set1_creg (F : Fld) (i : Nat) : (d.set1 F i).creg = d.creg := rfl
@[simp] theorem Dev.set1_sbuf (F : Fld) (i : Nat) : (d.set1 F i).sbuf = d.sbuf := rfl
@[simp] theorem Dev.set1_tlb (F : Fld) (i : Nat) : (d.set1 F i).tlb = d.tlb := rfl
@[simp] theorem Dev.set1_icache (F : Fld) (i : Nat) : (d.set1 F i).icache = d.icache := rfl
@[simp] theorem Dev.set1_lineBuf (F : Fld) (i : Nat) : (d.set1 F i).lineBuf = d.lineBuf := rfl
@[simp] theorem Dev.set1_wbq (F : Fld) (i : Nat) : (d.set1 F i).wbq = d.wbq := rfl
@[simp] theorem Dev.set1_passes (F : Fld) (i : Nat) : (d.set1 F i).passes = d.passes := rfl
@[simp] theorem Dev.set1_prov (F : Fld) (i : Nat) : (d.set1 F i).prov = d.prov := rfl
@[simp] theorem Dev.set1_steerq (F : Fld) (i : Nat) : (d.set1 F i).steerq = d.steerq := rfl
@[simp] theorem Dev.set1_ports (F : Fld) (i : Nat) : (d.set1 F i).ports = d.ports := rfl
@[simp] theorem Dev.set1_ringDone (F : Fld) (i : Nat) : (d.set1 F i).ringDone = d.ringDone := rfl
@[simp] theorem Dev.set1_aonQ (F : Fld) (i : Nat) : (d.set1 F i).aonQ = d.aonQ := rfl
@[simp] theorem Dev.set1_streams (F : Fld) (i : Nat) : (d.set1 F i).streams = d.streams := rfl
@[simp] theorem Dev.set1_conts (F : Fld) (i : Nat) : (d.set1 F i).conts = d.conts := rfl
@[simp] theorem Dev.set1_rings (F : Fld) (i : Nat) : (d.set1 F i).rings = d.rings := rfl
@[simp] theorem Dev.set1_rootq (F : Fld) (i : Nat) : (d.set1 F i).rootq = d.rootq := rfl
@[simp] theorem Dev.set1_longs (F : Fld) (i : Nat) : (d.set1 F i).longs = d.longs := rfl
@[simp] theorem Dev.set1_held (F : Fld) (i : Nat) : (d.set1 F i).held = d.held := rfl
@[simp] theorem Dev.set1_portOut (F : Fld) (i : Nat) : (d.set1 F i).portOut = d.portOut := rfl
@[simp] theorem Dev.set1_fresh (F : Fld) (i : Nat) : (d.set1 F i).fresh = d.fresh := rfl
@[simp] theorem Dev.set1_ar (F : Fld) (i : Nat) (R' : Reg) (j : Nat) : (d.set1 F i).ar R' j = d.ar R' j := rfl
@[simp] theorem Dev.set1_a (F : Fld) (i : Nat) (F' : Fld) (j : Nat) : (d.set1 F i).a F' j = d.a F' j := rfl
@[simp] theorem Dev.set1_ai (F : Fld) (i : Nat) (F' : Fld) (j : Nat) : (d.set1 F i).ai F' j = d.ai F' j := rfl
@[simp] theorem Dev.set1_aon (F : Fld) (i : Nat) (F' : Fld) (j : Nat) : (d.set1 F i).aon F' j = d.aon F' j := rfl
@[simp] theorem Dev.set1_h (F : Fld) (i : Nat) (v' : Hid) (j : Nat) : (d.set1 F i).h v' j = d.h v' j := rfl
@[simp] theorem Dev.set1_hn (F : Fld) (i : Nat) (v' : Hid) (j : Nat) : (d.set1 F i).hn v' j = d.hn v' j := rfl
@[simp] theorem Dev.set1_hon (F : Fld) (i : Nat) (v' : Hid) (j : Nat) : (d.set1 F i).hon v' j = d.hon v' j := rfl
@[simp] theorem Dev.set1_now (F : Fld) (i : Nat) : (d.set1 F i).now = d.now := rfl

/-! ### setBit -/

@[simp] theorem Dev.setBit_act (F : Fld) (i b : Nat) (v : Bool) : (d.setBit F i b v).act = d.act := rfl
@[simp] theorem Dev.setBit_hid (F : Fld) (i b : Nat) (v : Bool) : (d.setBit F i b v).hid = d.hid := rfl
@[simp] theorem Dev.setBit_tb (F : Fld) (i b : Nat) (v : Bool) : (d.setBit F i b v).tb = d.tb := rfl
@[simp] theorem Dev.setBit_evq (F : Fld) (i b : Nat) (v : Bool) : (d.setBit F i b v).evq = d.evq := rfl
@[simp] theorem Dev.setBit_pendSw (F : Fld) (i b : Nat) (v : Bool) : (d.setBit F i b v).pendSw = d.pendSw := rfl
@[simp] theorem Dev.setBit_heldSw (F : Fld) (i b : Nat) (v : Bool) : (d.setBit F i b v).heldSw = d.heldSw := rfl
@[simp] theorem Dev.setBit_pendGv (F : Fld) (i b : Nat) (v : Bool) : (d.setBit F i b v).pendGv = d.pendGv := rfl
@[simp] theorem Dev.setBit_logq (F : Fld) (i b : Nat) (v : Bool) : (d.setBit F i b v).logq = d.logq := rfl
@[simp] theorem Dev.setBit_targets (F : Fld) (i b : Nat) (v : Bool) : (d.setBit F i b v).targets = d.targets := rfl
@[simp] theorem Dev.setBit_toneAns (F : Fld) (i b : Nat) (v : Bool) : (d.setBit F i b v).toneAns = d.toneAns := rfl
@[simp] theorem Dev.setBit_sent (F : Fld) (i b : Nat) (v : Bool) : (d.setBit F i b v).sent = d.sent := rfl
@[simp] theorem Dev.setBit_txq (F : Fld) (i b : Nat) (v : Bool) : (d.setBit F i b v).txq = d.txq := rfl
@[simp] theorem Dev.setBit_unacked (F : Fld) (i b : Nat) (v : Bool) : (d.setBit F i b v).unacked = d.unacked := rfl
@[simp] theorem Dev.setBit_txMsgs (F : Fld) (i b : Nat) (v : Bool) : (d.setBit F i b v).txMsgs = d.txMsgs := rfl
@[simp] theorem Dev.setBit_rxMsgs (F : Fld) (i b : Nat) (v : Bool) : (d.setBit F i b v).rxMsgs = d.rxMsgs := rfl
@[simp] theorem Dev.setBit_recovs (F : Fld) (i b : Nat) (v : Bool) : (d.setBit F i b v).recovs = d.recovs := rfl
@[simp] theorem Dev.setBit_elemsDone (F : Fld) (i b : Nat) (v : Bool) : (d.setBit F i b v).elemsDone = d.elemsDone := rfl
@[simp] theorem Dev.setBit_portMsgs (F : Fld) (i b : Nat) (v : Bool) : (d.setBit F i b v).portMsgs = d.portMsgs := rfl
@[simp] theorem Dev.setBit_intents (F : Fld) (i b : Nat) (v : Bool) : (d.setBit F i b v).intents = d.intents := rfl
@[simp] theorem Dev.setBit_pulses (F : Fld) (i b : Nat) (v : Bool) : (d.setBit F i b v).pulses = d.pulses := rfl
@[simp] theorem Dev.setBit_ests (F : Fld) (i b : Nat) (v : Bool) : (d.setBit F i b v).ests = d.ests := rfl
@[simp] theorem Dev.setBit_gvTrigs (F : Fld) (i b : Nat) (v : Bool) : (d.setBit F i b v).gvTrigs = d.gvTrigs := rfl
@[simp] theorem Dev.setBit_gwin (F : Fld) (i b : Nat) (v : Bool) : (d.setBit F i b v).gwin = d.gwin := rfl
@[simp] theorem Dev.setBit_fwdWait (F : Fld) (i b : Nat) (v : Bool) : (d.setBit F i b v).fwdWait = d.fwdWait := rfl
@[simp] theorem Dev.setBit_peers (F : Fld) (i b : Nat) (v : Bool) : (d.setBit F i b v).peers = d.peers := rfl
@[simp] theorem Dev.setBit_epochs (F : Fld) (i b : Nat) (v : Bool) : (d.setBit F i b v).epochs = d.epochs := rfl
@[simp] theorem Dev.setBit_shadow (F : Fld) (i b : Nat) (v : Bool) : (d.setBit F i b v).shadow = d.shadow := rfl
@[simp] theorem Dev.setBit_tcSeqs (F : Fld) (i b : Nat) (v : Bool) : (d.setBit F i b v).tcSeqs = d.tcSeqs := rfl
@[simp] theorem Dev.setBit_tcHists (F : Fld) (i b : Nat) (v : Bool) : (d.setBit F i b v).tcHists = d.tcHists := rfl
@[simp] theorem Dev.setBit_tcRecs (F : Fld) (i b : Nat) (v : Bool) : (d.setBit F i b v).tcRecs = d.tcRecs := rfl
@[simp] theorem Dev.setBit_fuseOp (F : Fld) (i b : Nat) (v : Bool) : (d.setBit F i b v).fuseOp = d.fuseOp := rfl
@[simp] theorem Dev.setBit_gpr (F : Fld) (i b : Nat) (v : Bool) : (d.setBit F i b v).gpr = d.gpr := rfl
@[simp] theorem Dev.setBit_creg (F : Fld) (i b : Nat) (v : Bool) : (d.setBit F i b v).creg = d.creg := rfl
@[simp] theorem Dev.setBit_sbuf (F : Fld) (i b : Nat) (v : Bool) : (d.setBit F i b v).sbuf = d.sbuf := rfl
@[simp] theorem Dev.setBit_tlb (F : Fld) (i b : Nat) (v : Bool) : (d.setBit F i b v).tlb = d.tlb := rfl
@[simp] theorem Dev.setBit_icache (F : Fld) (i b : Nat) (v : Bool) : (d.setBit F i b v).icache = d.icache := rfl
@[simp] theorem Dev.setBit_lineBuf (F : Fld) (i b : Nat) (v : Bool) : (d.setBit F i b v).lineBuf = d.lineBuf := rfl
@[simp] theorem Dev.setBit_wbq (F : Fld) (i b : Nat) (v : Bool) : (d.setBit F i b v).wbq = d.wbq := rfl
@[simp] theorem Dev.setBit_passes (F : Fld) (i b : Nat) (v : Bool) : (d.setBit F i b v).passes = d.passes := rfl
@[simp] theorem Dev.setBit_prov (F : Fld) (i b : Nat) (v : Bool) : (d.setBit F i b v).prov = d.prov := rfl
@[simp] theorem Dev.setBit_steerq (F : Fld) (i b : Nat) (v : Bool) : (d.setBit F i b v).steerq = d.steerq := rfl
@[simp] theorem Dev.setBit_ports (F : Fld) (i b : Nat) (v : Bool) : (d.setBit F i b v).ports = d.ports := rfl
@[simp] theorem Dev.setBit_ringDone (F : Fld) (i b : Nat) (v : Bool) : (d.setBit F i b v).ringDone = d.ringDone := rfl
@[simp] theorem Dev.setBit_aonQ (F : Fld) (i b : Nat) (v : Bool) : (d.setBit F i b v).aonQ = d.aonQ := rfl
@[simp] theorem Dev.setBit_streams (F : Fld) (i b : Nat) (v : Bool) : (d.setBit F i b v).streams = d.streams := rfl
@[simp] theorem Dev.setBit_conts (F : Fld) (i b : Nat) (v : Bool) : (d.setBit F i b v).conts = d.conts := rfl
@[simp] theorem Dev.setBit_rings (F : Fld) (i b : Nat) (v : Bool) : (d.setBit F i b v).rings = d.rings := rfl
@[simp] theorem Dev.setBit_rootq (F : Fld) (i b : Nat) (v : Bool) : (d.setBit F i b v).rootq = d.rootq := rfl
@[simp] theorem Dev.setBit_longs (F : Fld) (i b : Nat) (v : Bool) : (d.setBit F i b v).longs = d.longs := rfl
@[simp] theorem Dev.setBit_held (F : Fld) (i b : Nat) (v : Bool) : (d.setBit F i b v).held = d.held := rfl
@[simp] theorem Dev.setBit_portOut (F : Fld) (i b : Nat) (v : Bool) : (d.setBit F i b v).portOut = d.portOut := rfl
@[simp] theorem Dev.setBit_fresh (F : Fld) (i b : Nat) (v : Bool) : (d.setBit F i b v).fresh = d.fresh := rfl
@[simp] theorem Dev.setBit_ar (F : Fld) (i b : Nat) (v : Bool) (R' : Reg) (j : Nat) : (d.setBit F i b v).ar R' j = d.ar R' j := rfl
@[simp] theorem Dev.setBit_a (F : Fld) (i b : Nat) (v : Bool) (F' : Fld) (j : Nat) : (d.setBit F i b v).a F' j = d.a F' j := rfl
@[simp] theorem Dev.setBit_ai (F : Fld) (i b : Nat) (v : Bool) (F' : Fld) (j : Nat) : (d.setBit F i b v).ai F' j = d.ai F' j := rfl
@[simp] theorem Dev.setBit_aon (F : Fld) (i b : Nat) (v : Bool) (F' : Fld) (j : Nat) : (d.setBit F i b v).aon F' j = d.aon F' j := rfl
@[simp] theorem Dev.setBit_h (F : Fld) (i b : Nat) (v : Bool) (v' : Hid) (j : Nat) : (d.setBit F i b v).h v' j = d.h v' j := rfl
@[simp] theorem Dev.setBit_hn (F : Fld) (i b : Nat) (v : Bool) (v' : Hid) (j : Nat) : (d.setBit F i b v).hn v' j = d.hn v' j := rfl
@[simp] theorem Dev.setBit_hon (F : Fld) (i b : Nat) (v : Bool) (v' : Hid) (j : Nat) : (d.setBit F i b v).hon v' j = d.hon v' j := rfl
@[simp] theorem Dev.setBit_now (F : Fld) (i b : Nat) (v : Bool) : (d.setBit F i b v).now = d.now := rfl

/-! ### setH -/

@[simp] theorem Dev.setH_regs (v : Hid) (i : Nat) (x : Int) : (d.setH v i x).regs = d.regs := rfl
@[simp] theorem Dev.setH_act (v : Hid) (i : Nat) (x : Int) : (d.setH v i x).act = d.act := rfl
@[simp] theorem Dev.setH_sets (v : Hid) (i : Nat) (x : Int) : (d.setH v i x).sets = d.sets := rfl
@[simp] theorem Dev.setH_tb (v : Hid) (i : Nat) (x : Int) : (d.setH v i x).tb = d.tb := rfl
@[simp] theorem Dev.setH_evq (v : Hid) (i : Nat) (x : Int) : (d.setH v i x).evq = d.evq := rfl
@[simp] theorem Dev.setH_pendSw (v : Hid) (i : Nat) (x : Int) : (d.setH v i x).pendSw = d.pendSw := rfl
@[simp] theorem Dev.setH_heldSw (v : Hid) (i : Nat) (x : Int) : (d.setH v i x).heldSw = d.heldSw := rfl
@[simp] theorem Dev.setH_pendGv (v : Hid) (i : Nat) (x : Int) : (d.setH v i x).pendGv = d.pendGv := rfl
@[simp] theorem Dev.setH_logq (v : Hid) (i : Nat) (x : Int) : (d.setH v i x).logq = d.logq := rfl
@[simp] theorem Dev.setH_targets (v : Hid) (i : Nat) (x : Int) : (d.setH v i x).targets = d.targets := rfl
@[simp] theorem Dev.setH_toneAns (v : Hid) (i : Nat) (x : Int) : (d.setH v i x).toneAns = d.toneAns := rfl
@[simp] theorem Dev.setH_sent (v : Hid) (i : Nat) (x : Int) : (d.setH v i x).sent = d.sent := rfl
@[simp] theorem Dev.setH_txq (v : Hid) (i : Nat) (x : Int) : (d.setH v i x).txq = d.txq := rfl
@[simp] theorem Dev.setH_unacked (v : Hid) (i : Nat) (x : Int) : (d.setH v i x).unacked = d.unacked := rfl
@[simp] theorem Dev.setH_txMsgs (v : Hid) (i : Nat) (x : Int) : (d.setH v i x).txMsgs = d.txMsgs := rfl
@[simp] theorem Dev.setH_rxMsgs (v : Hid) (i : Nat) (x : Int) : (d.setH v i x).rxMsgs = d.rxMsgs := rfl
@[simp] theorem Dev.setH_recovs (v : Hid) (i : Nat) (x : Int) : (d.setH v i x).recovs = d.recovs := rfl
@[simp] theorem Dev.setH_elemsDone (v : Hid) (i : Nat) (x : Int) : (d.setH v i x).elemsDone = d.elemsDone := rfl
@[simp] theorem Dev.setH_portMsgs (v : Hid) (i : Nat) (x : Int) : (d.setH v i x).portMsgs = d.portMsgs := rfl
@[simp] theorem Dev.setH_intents (v : Hid) (i : Nat) (x : Int) : (d.setH v i x).intents = d.intents := rfl
@[simp] theorem Dev.setH_pulses (v : Hid) (i : Nat) (x : Int) : (d.setH v i x).pulses = d.pulses := rfl
@[simp] theorem Dev.setH_ests (v : Hid) (i : Nat) (x : Int) : (d.setH v i x).ests = d.ests := rfl
@[simp] theorem Dev.setH_gvTrigs (v : Hid) (i : Nat) (x : Int) : (d.setH v i x).gvTrigs = d.gvTrigs := rfl
@[simp] theorem Dev.setH_gwin (v : Hid) (i : Nat) (x : Int) : (d.setH v i x).gwin = d.gwin := rfl
@[simp] theorem Dev.setH_fwdWait (v : Hid) (i : Nat) (x : Int) : (d.setH v i x).fwdWait = d.fwdWait := rfl
@[simp] theorem Dev.setH_peers (v : Hid) (i : Nat) (x : Int) : (d.setH v i x).peers = d.peers := rfl
@[simp] theorem Dev.setH_epochs (v : Hid) (i : Nat) (x : Int) : (d.setH v i x).epochs = d.epochs := rfl
@[simp] theorem Dev.setH_shadow (v : Hid) (i : Nat) (x : Int) : (d.setH v i x).shadow = d.shadow := rfl
@[simp] theorem Dev.setH_tcSeqs (v : Hid) (i : Nat) (x : Int) : (d.setH v i x).tcSeqs = d.tcSeqs := rfl
@[simp] theorem Dev.setH_tcHists (v : Hid) (i : Nat) (x : Int) : (d.setH v i x).tcHists = d.tcHists := rfl
@[simp] theorem Dev.setH_tcRecs (v : Hid) (i : Nat) (x : Int) : (d.setH v i x).tcRecs = d.tcRecs := rfl
@[simp] theorem Dev.setH_fuseOp (v : Hid) (i : Nat) (x : Int) : (d.setH v i x).fuseOp = d.fuseOp := rfl
@[simp] theorem Dev.setH_gpr (v : Hid) (i : Nat) (x : Int) : (d.setH v i x).gpr = d.gpr := rfl
@[simp] theorem Dev.setH_creg (v : Hid) (i : Nat) (x : Int) : (d.setH v i x).creg = d.creg := rfl
@[simp] theorem Dev.setH_sbuf (v : Hid) (i : Nat) (x : Int) : (d.setH v i x).sbuf = d.sbuf := rfl
@[simp] theorem Dev.setH_tlb (v : Hid) (i : Nat) (x : Int) : (d.setH v i x).tlb = d.tlb := rfl
@[simp] theorem Dev.setH_icache (v : Hid) (i : Nat) (x : Int) : (d.setH v i x).icache = d.icache := rfl
@[simp] theorem Dev.setH_lineBuf (v : Hid) (i : Nat) (x : Int) : (d.setH v i x).lineBuf = d.lineBuf := rfl
@[simp] theorem Dev.setH_wbq (v : Hid) (i : Nat) (x : Int) : (d.setH v i x).wbq = d.wbq := rfl
@[simp] theorem Dev.setH_passes (v : Hid) (i : Nat) (x : Int) : (d.setH v i x).passes = d.passes := rfl
@[simp] theorem Dev.setH_prov (v : Hid) (i : Nat) (x : Int) : (d.setH v i x).prov = d.prov := rfl
@[simp] theorem Dev.setH_steerq (v : Hid) (i : Nat) (x : Int) : (d.setH v i x).steerq = d.steerq := rfl
@[simp] theorem Dev.setH_ports (v : Hid) (i : Nat) (x : Int) : (d.setH v i x).ports = d.ports := rfl
@[simp] theorem Dev.setH_ringDone (v : Hid) (i : Nat) (x : Int) : (d.setH v i x).ringDone = d.ringDone := rfl
@[simp] theorem Dev.setH_aonQ (v : Hid) (i : Nat) (x : Int) : (d.setH v i x).aonQ = d.aonQ := rfl
@[simp] theorem Dev.setH_streams (v : Hid) (i : Nat) (x : Int) : (d.setH v i x).streams = d.streams := rfl
@[simp] theorem Dev.setH_conts (v : Hid) (i : Nat) (x : Int) : (d.setH v i x).conts = d.conts := rfl
@[simp] theorem Dev.setH_rings (v : Hid) (i : Nat) (x : Int) : (d.setH v i x).rings = d.rings := rfl
@[simp] theorem Dev.setH_rootq (v : Hid) (i : Nat) (x : Int) : (d.setH v i x).rootq = d.rootq := rfl
@[simp] theorem Dev.setH_longs (v : Hid) (i : Nat) (x : Int) : (d.setH v i x).longs = d.longs := rfl
@[simp] theorem Dev.setH_held (v : Hid) (i : Nat) (x : Int) : (d.setH v i x).held = d.held := rfl
@[simp] theorem Dev.setH_portOut (v : Hid) (i : Nat) (x : Int) : (d.setH v i x).portOut = d.portOut := rfl
@[simp] theorem Dev.setH_fresh (v : Hid) (i : Nat) (x : Int) : (d.setH v i x).fresh = d.fresh := rfl
@[simp] theorem Dev.setH_r (v : Hid) (i : Nat) (x : Int) (R' : Reg) (j : Nat) : (d.setH v i x).r R' j = d.r R' j := rfl
@[simp] theorem Dev.setH_f (v : Hid) (i : Nat) (x : Int) (F' : Fld) (j : Nat) : (d.setH v i x).f F' j = d.f F' j := rfl
@[simp] theorem Dev.setH_fi (v : Hid) (i : Nat) (x : Int) (F' : Fld) (j : Nat) : (d.setH v i x).fi F' j = d.fi F' j := rfl
@[simp] theorem Dev.setH_on (v : Hid) (i : Nat) (x : Int) (F' : Fld) (j : Nat) : (d.setH v i x).on F' j = d.on F' j := rfl
@[simp] theorem Dev.setH_ar (v : Hid) (i : Nat) (x : Int) (R' : Reg) (j : Nat) : (d.setH v i x).ar R' j = d.ar R' j := rfl
@[simp] theorem Dev.setH_a (v : Hid) (i : Nat) (x : Int) (F' : Fld) (j : Nat) : (d.setH v i x).a F' j = d.a F' j := rfl
@[simp] theorem Dev.setH_ai (v : Hid) (i : Nat) (x : Int) (F' : Fld) (j : Nat) : (d.setH v i x).ai F' j = d.ai F' j := rfl
@[simp] theorem Dev.setH_aon (v : Hid) (i : Nat) (x : Int) (F' : Fld) (j : Nat) : (d.setH v i x).aon F' j = d.aon F' j := rfl
@[simp] theorem Dev.setH_now (v : Hid) (i : Nat) (x : Int) : (d.setH v i x).now = d.now := rfl

/-! ### setHbit -/

@[simp] theorem Dev.setHbit_regs (v : Hid) (i b : Nat) (x : Bool) : (d.setHbit v i b x).regs = d.regs := rfl
@[simp] theorem Dev.setHbit_act (v : Hid) (i b : Nat) (x : Bool) : (d.setHbit v i b x).act = d.act := rfl
@[simp] theorem Dev.setHbit_sets (v : Hid) (i b : Nat) (x : Bool) : (d.setHbit v i b x).sets = d.sets := rfl
@[simp] theorem Dev.setHbit_tb (v : Hid) (i b : Nat) (x : Bool) : (d.setHbit v i b x).tb = d.tb := rfl
@[simp] theorem Dev.setHbit_evq (v : Hid) (i b : Nat) (x : Bool) : (d.setHbit v i b x).evq = d.evq := rfl
@[simp] theorem Dev.setHbit_pendSw (v : Hid) (i b : Nat) (x : Bool) : (d.setHbit v i b x).pendSw = d.pendSw := rfl
@[simp] theorem Dev.setHbit_heldSw (v : Hid) (i b : Nat) (x : Bool) : (d.setHbit v i b x).heldSw = d.heldSw := rfl
@[simp] theorem Dev.setHbit_pendGv (v : Hid) (i b : Nat) (x : Bool) : (d.setHbit v i b x).pendGv = d.pendGv := rfl
@[simp] theorem Dev.setHbit_logq (v : Hid) (i b : Nat) (x : Bool) : (d.setHbit v i b x).logq = d.logq := rfl
@[simp] theorem Dev.setHbit_targets (v : Hid) (i b : Nat) (x : Bool) : (d.setHbit v i b x).targets = d.targets := rfl
@[simp] theorem Dev.setHbit_toneAns (v : Hid) (i b : Nat) (x : Bool) : (d.setHbit v i b x).toneAns = d.toneAns := rfl
@[simp] theorem Dev.setHbit_sent (v : Hid) (i b : Nat) (x : Bool) : (d.setHbit v i b x).sent = d.sent := rfl
@[simp] theorem Dev.setHbit_txq (v : Hid) (i b : Nat) (x : Bool) : (d.setHbit v i b x).txq = d.txq := rfl
@[simp] theorem Dev.setHbit_unacked (v : Hid) (i b : Nat) (x : Bool) : (d.setHbit v i b x).unacked = d.unacked := rfl
@[simp] theorem Dev.setHbit_txMsgs (v : Hid) (i b : Nat) (x : Bool) : (d.setHbit v i b x).txMsgs = d.txMsgs := rfl
@[simp] theorem Dev.setHbit_rxMsgs (v : Hid) (i b : Nat) (x : Bool) : (d.setHbit v i b x).rxMsgs = d.rxMsgs := rfl
@[simp] theorem Dev.setHbit_recovs (v : Hid) (i b : Nat) (x : Bool) : (d.setHbit v i b x).recovs = d.recovs := rfl
@[simp] theorem Dev.setHbit_elemsDone (v : Hid) (i b : Nat) (x : Bool) : (d.setHbit v i b x).elemsDone = d.elemsDone := rfl
@[simp] theorem Dev.setHbit_portMsgs (v : Hid) (i b : Nat) (x : Bool) : (d.setHbit v i b x).portMsgs = d.portMsgs := rfl
@[simp] theorem Dev.setHbit_intents (v : Hid) (i b : Nat) (x : Bool) : (d.setHbit v i b x).intents = d.intents := rfl
@[simp] theorem Dev.setHbit_pulses (v : Hid) (i b : Nat) (x : Bool) : (d.setHbit v i b x).pulses = d.pulses := rfl
@[simp] theorem Dev.setHbit_ests (v : Hid) (i b : Nat) (x : Bool) : (d.setHbit v i b x).ests = d.ests := rfl
@[simp] theorem Dev.setHbit_gvTrigs (v : Hid) (i b : Nat) (x : Bool) : (d.setHbit v i b x).gvTrigs = d.gvTrigs := rfl
@[simp] theorem Dev.setHbit_gwin (v : Hid) (i b : Nat) (x : Bool) : (d.setHbit v i b x).gwin = d.gwin := rfl
@[simp] theorem Dev.setHbit_fwdWait (v : Hid) (i b : Nat) (x : Bool) : (d.setHbit v i b x).fwdWait = d.fwdWait := rfl
@[simp] theorem Dev.setHbit_peers (v : Hid) (i b : Nat) (x : Bool) : (d.setHbit v i b x).peers = d.peers := rfl
@[simp] theorem Dev.setHbit_epochs (v : Hid) (i b : Nat) (x : Bool) : (d.setHbit v i b x).epochs = d.epochs := rfl
@[simp] theorem Dev.setHbit_shadow (v : Hid) (i b : Nat) (x : Bool) : (d.setHbit v i b x).shadow = d.shadow := rfl
@[simp] theorem Dev.setHbit_tcSeqs (v : Hid) (i b : Nat) (x : Bool) : (d.setHbit v i b x).tcSeqs = d.tcSeqs := rfl
@[simp] theorem Dev.setHbit_tcHists (v : Hid) (i b : Nat) (x : Bool) : (d.setHbit v i b x).tcHists = d.tcHists := rfl
@[simp] theorem Dev.setHbit_tcRecs (v : Hid) (i b : Nat) (x : Bool) : (d.setHbit v i b x).tcRecs = d.tcRecs := rfl
@[simp] theorem Dev.setHbit_fuseOp (v : Hid) (i b : Nat) (x : Bool) : (d.setHbit v i b x).fuseOp = d.fuseOp := rfl
@[simp] theorem Dev.setHbit_gpr (v : Hid) (i b : Nat) (x : Bool) : (d.setHbit v i b x).gpr = d.gpr := rfl
@[simp] theorem Dev.setHbit_creg (v : Hid) (i b : Nat) (x : Bool) : (d.setHbit v i b x).creg = d.creg := rfl
@[simp] theorem Dev.setHbit_sbuf (v : Hid) (i b : Nat) (x : Bool) : (d.setHbit v i b x).sbuf = d.sbuf := rfl
@[simp] theorem Dev.setHbit_tlb (v : Hid) (i b : Nat) (x : Bool) : (d.setHbit v i b x).tlb = d.tlb := rfl
@[simp] theorem Dev.setHbit_icache (v : Hid) (i b : Nat) (x : Bool) : (d.setHbit v i b x).icache = d.icache := rfl
@[simp] theorem Dev.setHbit_lineBuf (v : Hid) (i b : Nat) (x : Bool) : (d.setHbit v i b x).lineBuf = d.lineBuf := rfl
@[simp] theorem Dev.setHbit_wbq (v : Hid) (i b : Nat) (x : Bool) : (d.setHbit v i b x).wbq = d.wbq := rfl
@[simp] theorem Dev.setHbit_passes (v : Hid) (i b : Nat) (x : Bool) : (d.setHbit v i b x).passes = d.passes := rfl
@[simp] theorem Dev.setHbit_prov (v : Hid) (i b : Nat) (x : Bool) : (d.setHbit v i b x).prov = d.prov := rfl
@[simp] theorem Dev.setHbit_steerq (v : Hid) (i b : Nat) (x : Bool) : (d.setHbit v i b x).steerq = d.steerq := rfl
@[simp] theorem Dev.setHbit_ports (v : Hid) (i b : Nat) (x : Bool) : (d.setHbit v i b x).ports = d.ports := rfl
@[simp] theorem Dev.setHbit_ringDone (v : Hid) (i b : Nat) (x : Bool) : (d.setHbit v i b x).ringDone = d.ringDone := rfl
@[simp] theorem Dev.setHbit_aonQ (v : Hid) (i b : Nat) (x : Bool) : (d.setHbit v i b x).aonQ = d.aonQ := rfl
@[simp] theorem Dev.setHbit_streams (v : Hid) (i b : Nat) (x : Bool) : (d.setHbit v i b x).streams = d.streams := rfl
@[simp] theorem Dev.setHbit_conts (v : Hid) (i b : Nat) (x : Bool) : (d.setHbit v i b x).conts = d.conts := rfl
@[simp] theorem Dev.setHbit_rings (v : Hid) (i b : Nat) (x : Bool) : (d.setHbit v i b x).rings = d.rings := rfl
@[simp] theorem Dev.setHbit_rootq (v : Hid) (i b : Nat) (x : Bool) : (d.setHbit v i b x).rootq = d.rootq := rfl
@[simp] theorem Dev.setHbit_longs (v : Hid) (i b : Nat) (x : Bool) : (d.setHbit v i b x).longs = d.longs := rfl
@[simp] theorem Dev.setHbit_held (v : Hid) (i b : Nat) (x : Bool) : (d.setHbit v i b x).held = d.held := rfl
@[simp] theorem Dev.setHbit_portOut (v : Hid) (i b : Nat) (x : Bool) : (d.setHbit v i b x).portOut = d.portOut := rfl
@[simp] theorem Dev.setHbit_fresh (v : Hid) (i b : Nat) (x : Bool) : (d.setHbit v i b x).fresh = d.fresh := rfl
@[simp] theorem Dev.setHbit_r (v : Hid) (i b : Nat) (x : Bool) (R' : Reg) (j : Nat) : (d.setHbit v i b x).r R' j = d.r R' j := rfl
@[simp] theorem Dev.setHbit_f (v : Hid) (i b : Nat) (x : Bool) (F' : Fld) (j : Nat) : (d.setHbit v i b x).f F' j = d.f F' j := rfl
@[simp] theorem Dev.setHbit_fi (v : Hid) (i b : Nat) (x : Bool) (F' : Fld) (j : Nat) : (d.setHbit v i b x).fi F' j = d.fi F' j := rfl
@[simp] theorem Dev.setHbit_on (v : Hid) (i b : Nat) (x : Bool) (F' : Fld) (j : Nat) : (d.setHbit v i b x).on F' j = d.on F' j := rfl
@[simp] theorem Dev.setHbit_ar (v : Hid) (i b : Nat) (x : Bool) (R' : Reg) (j : Nat) : (d.setHbit v i b x).ar R' j = d.ar R' j := rfl
@[simp] theorem Dev.setHbit_a (v : Hid) (i b : Nat) (x : Bool) (F' : Fld) (j : Nat) : (d.setHbit v i b x).a F' j = d.a F' j := rfl
@[simp] theorem Dev.setHbit_ai (v : Hid) (i b : Nat) (x : Bool) (F' : Fld) (j : Nat) : (d.setHbit v i b x).ai F' j = d.ai F' j := rfl
@[simp] theorem Dev.setHbit_aon (v : Hid) (i b : Nat) (x : Bool) (F' : Fld) (j : Nat) : (d.setHbit v i b x).aon F' j = d.aon F' j := rfl
@[simp] theorem Dev.setHbit_now (v : Hid) (i b : Nat) (x : Bool) : (d.setHbit v i b x).now = d.now := rfl

/-! ### setGw -/

@[simp] theorem Dev.setGw_regs (g o : Nat) (w : Int) : (d.setGw g o w).regs = d.regs := rfl
@[simp] theorem Dev.setGw_act (g o : Nat) (w : Int) : (d.setGw g o w).act = d.act := rfl
@[simp] theorem Dev.setGw_hid (g o : Nat) (w : Int) : (d.setGw g o w).hid = d.hid := rfl
@[simp] theorem Dev.setGw_sets (g o : Nat) (w : Int) : (d.setGw g o w).sets = d.sets := rfl
@[simp] theorem Dev.setGw_tb (g o : Nat) (w : Int) : (d.setGw g o w).tb = d.tb := rfl
@[simp] theorem Dev.setGw_evq (g o : Nat) (w : Int) : (d.setGw g o w).evq = d.evq := rfl
@[simp] theorem Dev.setGw_pendSw (g o : Nat) (w : Int) : (d.setGw g o w).pendSw = d.pendSw := rfl
@[simp] theorem Dev.setGw_heldSw (g o : Nat) (w : Int) : (d.setGw g o w).heldSw = d.heldSw := rfl
@[simp] theorem Dev.setGw_pendGv (g o : Nat) (w : Int) : (d.setGw g o w).pendGv = d.pendGv := rfl
@[simp] theorem Dev.setGw_logq (g o : Nat) (w : Int) : (d.setGw g o w).logq = d.logq := rfl
@[simp] theorem Dev.setGw_targets (g o : Nat) (w : Int) : (d.setGw g o w).targets = d.targets := rfl
@[simp] theorem Dev.setGw_toneAns (g o : Nat) (w : Int) : (d.setGw g o w).toneAns = d.toneAns := rfl
@[simp] theorem Dev.setGw_sent (g o : Nat) (w : Int) : (d.setGw g o w).sent = d.sent := rfl
@[simp] theorem Dev.setGw_txq (g o : Nat) (w : Int) : (d.setGw g o w).txq = d.txq := rfl
@[simp] theorem Dev.setGw_unacked (g o : Nat) (w : Int) : (d.setGw g o w).unacked = d.unacked := rfl
@[simp] theorem Dev.setGw_txMsgs (g o : Nat) (w : Int) : (d.setGw g o w).txMsgs = d.txMsgs := rfl
@[simp] theorem Dev.setGw_rxMsgs (g o : Nat) (w : Int) : (d.setGw g o w).rxMsgs = d.rxMsgs := rfl
@[simp] theorem Dev.setGw_recovs (g o : Nat) (w : Int) : (d.setGw g o w).recovs = d.recovs := rfl
@[simp] theorem Dev.setGw_elemsDone (g o : Nat) (w : Int) : (d.setGw g o w).elemsDone = d.elemsDone := rfl
@[simp] theorem Dev.setGw_portMsgs (g o : Nat) (w : Int) : (d.setGw g o w).portMsgs = d.portMsgs := rfl
@[simp] theorem Dev.setGw_intents (g o : Nat) (w : Int) : (d.setGw g o w).intents = d.intents := rfl
@[simp] theorem Dev.setGw_pulses (g o : Nat) (w : Int) : (d.setGw g o w).pulses = d.pulses := rfl
@[simp] theorem Dev.setGw_ests (g o : Nat) (w : Int) : (d.setGw g o w).ests = d.ests := rfl
@[simp] theorem Dev.setGw_gvTrigs (g o : Nat) (w : Int) : (d.setGw g o w).gvTrigs = d.gvTrigs := rfl
@[simp] theorem Dev.setGw_fwdWait (g o : Nat) (w : Int) : (d.setGw g o w).fwdWait = d.fwdWait := rfl
@[simp] theorem Dev.setGw_peers (g o : Nat) (w : Int) : (d.setGw g o w).peers = d.peers := rfl
@[simp] theorem Dev.setGw_epochs (g o : Nat) (w : Int) : (d.setGw g o w).epochs = d.epochs := rfl
@[simp] theorem Dev.setGw_shadow (g o : Nat) (w : Int) : (d.setGw g o w).shadow = d.shadow := rfl
@[simp] theorem Dev.setGw_tcSeqs (g o : Nat) (w : Int) : (d.setGw g o w).tcSeqs = d.tcSeqs := rfl
@[simp] theorem Dev.setGw_tcHists (g o : Nat) (w : Int) : (d.setGw g o w).tcHists = d.tcHists := rfl
@[simp] theorem Dev.setGw_tcRecs (g o : Nat) (w : Int) : (d.setGw g o w).tcRecs = d.tcRecs := rfl
@[simp] theorem Dev.setGw_fuseOp (g o : Nat) (w : Int) : (d.setGw g o w).fuseOp = d.fuseOp := rfl
@[simp] theorem Dev.setGw_gpr (g o : Nat) (w : Int) : (d.setGw g o w).gpr = d.gpr := rfl
@[simp] theorem Dev.setGw_creg (g o : Nat) (w : Int) : (d.setGw g o w).creg = d.creg := rfl
@[simp] theorem Dev.setGw_sbuf (g o : Nat) (w : Int) : (d.setGw g o w).sbuf = d.sbuf := rfl
@[simp] theorem Dev.setGw_tlb (g o : Nat) (w : Int) : (d.setGw g o w).tlb = d.tlb := rfl
@[simp] theorem Dev.setGw_icache (g o : Nat) (w : Int) : (d.setGw g o w).icache = d.icache := rfl
@[simp] theorem Dev.setGw_lineBuf (g o : Nat) (w : Int) : (d.setGw g o w).lineBuf = d.lineBuf := rfl
@[simp] theorem Dev.setGw_wbq (g o : Nat) (w : Int) : (d.setGw g o w).wbq = d.wbq := rfl
@[simp] theorem Dev.setGw_passes (g o : Nat) (w : Int) : (d.setGw g o w).passes = d.passes := rfl
@[simp] theorem Dev.setGw_prov (g o : Nat) (w : Int) : (d.setGw g o w).prov = d.prov := rfl
@[simp] theorem Dev.setGw_steerq (g o : Nat) (w : Int) : (d.setGw g o w).steerq = d.steerq := rfl
@[simp] theorem Dev.setGw_ports (g o : Nat) (w : Int) : (d.setGw g o w).ports = d.ports := rfl
@[simp] theorem Dev.setGw_ringDone (g o : Nat) (w : Int) : (d.setGw g o w).ringDone = d.ringDone := rfl
@[simp] theorem Dev.setGw_aonQ (g o : Nat) (w : Int) : (d.setGw g o w).aonQ = d.aonQ := rfl
@[simp] theorem Dev.setGw_streams (g o : Nat) (w : Int) : (d.setGw g o w).streams = d.streams := rfl
@[simp] theorem Dev.setGw_conts (g o : Nat) (w : Int) : (d.setGw g o w).conts = d.conts := rfl
@[simp] theorem Dev.setGw_rings (g o : Nat) (w : Int) : (d.setGw g o w).rings = d.rings := rfl
@[simp] theorem Dev.setGw_rootq (g o : Nat) (w : Int) : (d.setGw g o w).rootq = d.rootq := rfl
@[simp] theorem Dev.setGw_longs (g o : Nat) (w : Int) : (d.setGw g o w).longs = d.longs := rfl
@[simp] theorem Dev.setGw_held (g o : Nat) (w : Int) : (d.setGw g o w).held = d.held := rfl
@[simp] theorem Dev.setGw_portOut (g o : Nat) (w : Int) : (d.setGw g o w).portOut = d.portOut := rfl
@[simp] theorem Dev.setGw_fresh (g o : Nat) (w : Int) : (d.setGw g o w).fresh = d.fresh := rfl
@[simp] theorem Dev.setGw_r (g o : Nat) (w : Int) (R' : Reg) (j : Nat) : (d.setGw g o w).r R' j = d.r R' j := rfl
@[simp] theorem Dev.setGw_f (g o : Nat) (w : Int) (F' : Fld) (j : Nat) : (d.setGw g o w).f F' j = d.f F' j := rfl
@[simp] theorem Dev.setGw_fi (g o : Nat) (w : Int) (F' : Fld) (j : Nat) : (d.setGw g o w).fi F' j = d.fi F' j := rfl
@[simp] theorem Dev.setGw_on (g o : Nat) (w : Int) (F' : Fld) (j : Nat) : (d.setGw g o w).on F' j = d.on F' j := rfl
@[simp] theorem Dev.setGw_ar (g o : Nat) (w : Int) (R' : Reg) (j : Nat) : (d.setGw g o w).ar R' j = d.ar R' j := rfl
@[simp] theorem Dev.setGw_a (g o : Nat) (w : Int) (F' : Fld) (j : Nat) : (d.setGw g o w).a F' j = d.a F' j := rfl
@[simp] theorem Dev.setGw_ai (g o : Nat) (w : Int) (F' : Fld) (j : Nat) : (d.setGw g o w).ai F' j = d.ai F' j := rfl
@[simp] theorem Dev.setGw_aon (g o : Nat) (w : Int) (F' : Fld) (j : Nat) : (d.setGw g o w).aon F' j = d.aon F' j := rfl
@[simp] theorem Dev.setGw_h (g o : Nat) (w : Int) (v' : Hid) (j : Nat) : (d.setGw g o w).h v' j = d.h v' j := rfl
@[simp] theorem Dev.setGw_hn (g o : Nat) (w : Int) (v' : Hid) (j : Nat) : (d.setGw g o w).hn v' j = d.hn v' j := rfl
@[simp] theorem Dev.setGw_hon (g o : Nat) (w : Int) (v' : Hid) (j : Nat) : (d.setGw g o w).hon v' j = d.hon v' j := rfl
@[simp] theorem Dev.setGw_now (g o : Nat) (w : Int) : (d.setGw g o w).now = d.now := rfl

/-! ### gvTrig -/

@[simp] theorem Dev.gvTrig_regs (g k x : Nat) : (d.gvTrig g k x).regs = d.regs := rfl
@[simp] theorem Dev.gvTrig_act (g k x : Nat) : (d.gvTrig g k x).act = d.act := rfl
@[simp] theorem Dev.gvTrig_hid (g k x : Nat) : (d.gvTrig g k x).hid = d.hid := rfl
@[simp] theorem Dev.gvTrig_sets (g k x : Nat) : (d.gvTrig g k x).sets = d.sets := rfl
@[simp] theorem Dev.gvTrig_tb (g k x : Nat) : (d.gvTrig g k x).tb = d.tb := rfl
@[simp] theorem Dev.gvTrig_evq (g k x : Nat) : (d.gvTrig g k x).evq = d.evq := rfl
@[simp] theorem Dev.gvTrig_pendSw (g k x : Nat) : (d.gvTrig g k x).pendSw = d.pendSw := rfl
@[simp] theorem Dev.gvTrig_heldSw (g k x : Nat) : (d.gvTrig g k x).heldSw = d.heldSw := rfl
@[simp] theorem Dev.gvTrig_pendGv (g k x : Nat) : (d.gvTrig g k x).pendGv = d.pendGv := rfl
@[simp] theorem Dev.gvTrig_logq (g k x : Nat) : (d.gvTrig g k x).logq = d.logq := rfl
@[simp] theorem Dev.gvTrig_targets (g k x : Nat) : (d.gvTrig g k x).targets = d.targets := rfl
@[simp] theorem Dev.gvTrig_toneAns (g k x : Nat) : (d.gvTrig g k x).toneAns = d.toneAns := rfl
@[simp] theorem Dev.gvTrig_sent (g k x : Nat) : (d.gvTrig g k x).sent = d.sent := rfl
@[simp] theorem Dev.gvTrig_txq (g k x : Nat) : (d.gvTrig g k x).txq = d.txq := rfl
@[simp] theorem Dev.gvTrig_unacked (g k x : Nat) : (d.gvTrig g k x).unacked = d.unacked := rfl
@[simp] theorem Dev.gvTrig_txMsgs (g k x : Nat) : (d.gvTrig g k x).txMsgs = d.txMsgs := rfl
@[simp] theorem Dev.gvTrig_rxMsgs (g k x : Nat) : (d.gvTrig g k x).rxMsgs = d.rxMsgs := rfl
@[simp] theorem Dev.gvTrig_recovs (g k x : Nat) : (d.gvTrig g k x).recovs = d.recovs := rfl
@[simp] theorem Dev.gvTrig_elemsDone (g k x : Nat) : (d.gvTrig g k x).elemsDone = d.elemsDone := rfl
@[simp] theorem Dev.gvTrig_portMsgs (g k x : Nat) : (d.gvTrig g k x).portMsgs = d.portMsgs := rfl
@[simp] theorem Dev.gvTrig_intents (g k x : Nat) : (d.gvTrig g k x).intents = d.intents := rfl
@[simp] theorem Dev.gvTrig_pulses (g k x : Nat) : (d.gvTrig g k x).pulses = d.pulses := rfl
@[simp] theorem Dev.gvTrig_ests (g k x : Nat) : (d.gvTrig g k x).ests = d.ests := rfl
@[simp] theorem Dev.gvTrig_gwin (g k x : Nat) : (d.gvTrig g k x).gwin = d.gwin := rfl
@[simp] theorem Dev.gvTrig_fwdWait (g k x : Nat) : (d.gvTrig g k x).fwdWait = d.fwdWait := rfl
@[simp] theorem Dev.gvTrig_peers (g k x : Nat) : (d.gvTrig g k x).peers = d.peers := rfl
@[simp] theorem Dev.gvTrig_epochs (g k x : Nat) : (d.gvTrig g k x).epochs = d.epochs := rfl
@[simp] theorem Dev.gvTrig_shadow (g k x : Nat) : (d.gvTrig g k x).shadow = d.shadow := rfl
@[simp] theorem Dev.gvTrig_tcSeqs (g k x : Nat) : (d.gvTrig g k x).tcSeqs = d.tcSeqs := rfl
@[simp] theorem Dev.gvTrig_tcHists (g k x : Nat) : (d.gvTrig g k x).tcHists = d.tcHists := rfl
@[simp] theorem Dev.gvTrig_tcRecs (g k x : Nat) : (d.gvTrig g k x).tcRecs = d.tcRecs := rfl
@[simp] theorem Dev.gvTrig_fuseOp (g k x : Nat) : (d.gvTrig g k x).fuseOp = d.fuseOp := rfl
@[simp] theorem Dev.gvTrig_gpr (g k x : Nat) : (d.gvTrig g k x).gpr = d.gpr := rfl
@[simp] theorem Dev.gvTrig_creg (g k x : Nat) : (d.gvTrig g k x).creg = d.creg := rfl
@[simp] theorem Dev.gvTrig_sbuf (g k x : Nat) : (d.gvTrig g k x).sbuf = d.sbuf := rfl
@[simp] theorem Dev.gvTrig_tlb (g k x : Nat) : (d.gvTrig g k x).tlb = d.tlb := rfl
@[simp] theorem Dev.gvTrig_icache (g k x : Nat) : (d.gvTrig g k x).icache = d.icache := rfl
@[simp] theorem Dev.gvTrig_lineBuf (g k x : Nat) : (d.gvTrig g k x).lineBuf = d.lineBuf := rfl
@[simp] theorem Dev.gvTrig_wbq (g k x : Nat) : (d.gvTrig g k x).wbq = d.wbq := rfl
@[simp] theorem Dev.gvTrig_passes (g k x : Nat) : (d.gvTrig g k x).passes = d.passes := rfl
@[simp] theorem Dev.gvTrig_prov (g k x : Nat) : (d.gvTrig g k x).prov = d.prov := rfl
@[simp] theorem Dev.gvTrig_steerq (g k x : Nat) : (d.gvTrig g k x).steerq = d.steerq := rfl
@[simp] theorem Dev.gvTrig_ports (g k x : Nat) : (d.gvTrig g k x).ports = d.ports := rfl
@[simp] theorem Dev.gvTrig_ringDone (g k x : Nat) : (d.gvTrig g k x).ringDone = d.ringDone := rfl
@[simp] theorem Dev.gvTrig_aonQ (g k x : Nat) : (d.gvTrig g k x).aonQ = d.aonQ := rfl
@[simp] theorem Dev.gvTrig_streams (g k x : Nat) : (d.gvTrig g k x).streams = d.streams := rfl
@[simp] theorem Dev.gvTrig_conts (g k x : Nat) : (d.gvTrig g k x).conts = d.conts := rfl
@[simp] theorem Dev.gvTrig_rings (g k x : Nat) : (d.gvTrig g k x).rings = d.rings := rfl
@[simp] theorem Dev.gvTrig_rootq (g k x : Nat) : (d.gvTrig g k x).rootq = d.rootq := rfl
@[simp] theorem Dev.gvTrig_longs (g k x : Nat) : (d.gvTrig g k x).longs = d.longs := rfl
@[simp] theorem Dev.gvTrig_held (g k x : Nat) : (d.gvTrig g k x).held = d.held := rfl
@[simp] theorem Dev.gvTrig_portOut (g k x : Nat) : (d.gvTrig g k x).portOut = d.portOut := rfl
@[simp] theorem Dev.gvTrig_fresh (g k x : Nat) : (d.gvTrig g k x).fresh = d.fresh := rfl
@[simp] theorem Dev.gvTrig_r (g k x : Nat) (R' : Reg) (j : Nat) : (d.gvTrig g k x).r R' j = d.r R' j := rfl
@[simp] theorem Dev.gvTrig_f (g k x : Nat) (F' : Fld) (j : Nat) : (d.gvTrig g k x).f F' j = d.f F' j := rfl
@[simp] theorem Dev.gvTrig_fi (g k x : Nat) (F' : Fld) (j : Nat) : (d.gvTrig g k x).fi F' j = d.fi F' j := rfl
@[simp] theorem Dev.gvTrig_on (g k x : Nat) (F' : Fld) (j : Nat) : (d.gvTrig g k x).on F' j = d.on F' j := rfl
@[simp] theorem Dev.gvTrig_ar (g k x : Nat) (R' : Reg) (j : Nat) : (d.gvTrig g k x).ar R' j = d.ar R' j := rfl
@[simp] theorem Dev.gvTrig_a (g k x : Nat) (F' : Fld) (j : Nat) : (d.gvTrig g k x).a F' j = d.a F' j := rfl
@[simp] theorem Dev.gvTrig_ai (g k x : Nat) (F' : Fld) (j : Nat) : (d.gvTrig g k x).ai F' j = d.ai F' j := rfl
@[simp] theorem Dev.gvTrig_aon (g k x : Nat) (F' : Fld) (j : Nat) : (d.gvTrig g k x).aon F' j = d.aon F' j := rfl
@[simp] theorem Dev.gvTrig_h (g k x : Nat) (v' : Hid) (j : Nat) : (d.gvTrig g k x).h v' j = d.h v' j := rfl
@[simp] theorem Dev.gvTrig_hn (g k x : Nat) (v' : Hid) (j : Nat) : (d.gvTrig g k x).hn v' j = d.hn v' j := rfl
@[simp] theorem Dev.gvTrig_hon (g k x : Nat) (v' : Hid) (j : Nat) : (d.gvTrig g k x).hon v' j = d.hon v' j := rfl
@[simp] theorem Dev.gvTrig_now (g k x : Nat) : (d.gvTrig g k x).now = d.now := rfl

/-! ### logPush -/

@[simp] theorem Dev.logPush_regs (k n : Nat) (b : List (Nat × Nat × Nat)) : (d.logPush k n b).regs = d.regs := rfl
@[simp] theorem Dev.logPush_act (k n : Nat) (b : List (Nat × Nat × Nat)) : (d.logPush k n b).act = d.act := rfl
@[simp] theorem Dev.logPush_hid (k n : Nat) (b : List (Nat × Nat × Nat)) : (d.logPush k n b).hid = d.hid := rfl
@[simp] theorem Dev.logPush_sets (k n : Nat) (b : List (Nat × Nat × Nat)) : (d.logPush k n b).sets = d.sets := rfl
@[simp] theorem Dev.logPush_tb (k n : Nat) (b : List (Nat × Nat × Nat)) : (d.logPush k n b).tb = d.tb := rfl
@[simp] theorem Dev.logPush_evq (k n : Nat) (b : List (Nat × Nat × Nat)) : (d.logPush k n b).evq = d.evq := rfl
@[simp] theorem Dev.logPush_pendSw (k n : Nat) (b : List (Nat × Nat × Nat)) : (d.logPush k n b).pendSw = d.pendSw := rfl
@[simp] theorem Dev.logPush_heldSw (k n : Nat) (b : List (Nat × Nat × Nat)) : (d.logPush k n b).heldSw = d.heldSw := rfl
@[simp] theorem Dev.logPush_pendGv (k n : Nat) (b : List (Nat × Nat × Nat)) : (d.logPush k n b).pendGv = d.pendGv := rfl
@[simp] theorem Dev.logPush_targets (k n : Nat) (b : List (Nat × Nat × Nat)) : (d.logPush k n b).targets = d.targets := rfl
@[simp] theorem Dev.logPush_toneAns (k n : Nat) (b : List (Nat × Nat × Nat)) : (d.logPush k n b).toneAns = d.toneAns := rfl
@[simp] theorem Dev.logPush_sent (k n : Nat) (b : List (Nat × Nat × Nat)) : (d.logPush k n b).sent = d.sent := rfl
@[simp] theorem Dev.logPush_txq (k n : Nat) (b : List (Nat × Nat × Nat)) : (d.logPush k n b).txq = d.txq := rfl
@[simp] theorem Dev.logPush_unacked (k n : Nat) (b : List (Nat × Nat × Nat)) : (d.logPush k n b).unacked = d.unacked := rfl
@[simp] theorem Dev.logPush_txMsgs (k n : Nat) (b : List (Nat × Nat × Nat)) : (d.logPush k n b).txMsgs = d.txMsgs := rfl
@[simp] theorem Dev.logPush_rxMsgs (k n : Nat) (b : List (Nat × Nat × Nat)) : (d.logPush k n b).rxMsgs = d.rxMsgs := rfl
@[simp] theorem Dev.logPush_recovs (k n : Nat) (b : List (Nat × Nat × Nat)) : (d.logPush k n b).recovs = d.recovs := rfl
@[simp] theorem Dev.logPush_elemsDone (k n : Nat) (b : List (Nat × Nat × Nat)) : (d.logPush k n b).elemsDone = d.elemsDone := rfl
@[simp] theorem Dev.logPush_portMsgs (k n : Nat) (b : List (Nat × Nat × Nat)) : (d.logPush k n b).portMsgs = d.portMsgs := rfl
@[simp] theorem Dev.logPush_intents (k n : Nat) (b : List (Nat × Nat × Nat)) : (d.logPush k n b).intents = d.intents := rfl
@[simp] theorem Dev.logPush_pulses (k n : Nat) (b : List (Nat × Nat × Nat)) : (d.logPush k n b).pulses = d.pulses := rfl
@[simp] theorem Dev.logPush_ests (k n : Nat) (b : List (Nat × Nat × Nat)) : (d.logPush k n b).ests = d.ests := rfl
@[simp] theorem Dev.logPush_gvTrigs (k n : Nat) (b : List (Nat × Nat × Nat)) : (d.logPush k n b).gvTrigs = d.gvTrigs := rfl
@[simp] theorem Dev.logPush_gwin (k n : Nat) (b : List (Nat × Nat × Nat)) : (d.logPush k n b).gwin = d.gwin := rfl
@[simp] theorem Dev.logPush_fwdWait (k n : Nat) (b : List (Nat × Nat × Nat)) : (d.logPush k n b).fwdWait = d.fwdWait := rfl
@[simp] theorem Dev.logPush_peers (k n : Nat) (b : List (Nat × Nat × Nat)) : (d.logPush k n b).peers = d.peers := rfl
@[simp] theorem Dev.logPush_epochs (k n : Nat) (b : List (Nat × Nat × Nat)) : (d.logPush k n b).epochs = d.epochs := rfl
@[simp] theorem Dev.logPush_shadow (k n : Nat) (b : List (Nat × Nat × Nat)) : (d.logPush k n b).shadow = d.shadow := rfl
@[simp] theorem Dev.logPush_tcSeqs (k n : Nat) (b : List (Nat × Nat × Nat)) : (d.logPush k n b).tcSeqs = d.tcSeqs := rfl
@[simp] theorem Dev.logPush_tcHists (k n : Nat) (b : List (Nat × Nat × Nat)) : (d.logPush k n b).tcHists = d.tcHists := rfl
@[simp] theorem Dev.logPush_tcRecs (k n : Nat) (b : List (Nat × Nat × Nat)) : (d.logPush k n b).tcRecs = d.tcRecs := rfl
@[simp] theorem Dev.logPush_fuseOp (k n : Nat) (b : List (Nat × Nat × Nat)) : (d.logPush k n b).fuseOp = d.fuseOp := rfl
@[simp] theorem Dev.logPush_gpr (k n : Nat) (b : List (Nat × Nat × Nat)) : (d.logPush k n b).gpr = d.gpr := rfl
@[simp] theorem Dev.logPush_creg (k n : Nat) (b : List (Nat × Nat × Nat)) : (d.logPush k n b).creg = d.creg := rfl
@[simp] theorem Dev.logPush_sbuf (k n : Nat) (b : List (Nat × Nat × Nat)) : (d.logPush k n b).sbuf = d.sbuf := rfl
@[simp] theorem Dev.logPush_tlb (k n : Nat) (b : List (Nat × Nat × Nat)) : (d.logPush k n b).tlb = d.tlb := rfl
@[simp] theorem Dev.logPush_icache (k n : Nat) (b : List (Nat × Nat × Nat)) : (d.logPush k n b).icache = d.icache := rfl
@[simp] theorem Dev.logPush_lineBuf (k n : Nat) (b : List (Nat × Nat × Nat)) : (d.logPush k n b).lineBuf = d.lineBuf := rfl
@[simp] theorem Dev.logPush_wbq (k n : Nat) (b : List (Nat × Nat × Nat)) : (d.logPush k n b).wbq = d.wbq := rfl
@[simp] theorem Dev.logPush_passes (k n : Nat) (b : List (Nat × Nat × Nat)) : (d.logPush k n b).passes = d.passes := rfl
@[simp] theorem Dev.logPush_prov (k n : Nat) (b : List (Nat × Nat × Nat)) : (d.logPush k n b).prov = d.prov := rfl
@[simp] theorem Dev.logPush_steerq (k n : Nat) (b : List (Nat × Nat × Nat)) : (d.logPush k n b).steerq = d.steerq := rfl
@[simp] theorem Dev.logPush_ports (k n : Nat) (b : List (Nat × Nat × Nat)) : (d.logPush k n b).ports = d.ports := rfl
@[simp] theorem Dev.logPush_ringDone (k n : Nat) (b : List (Nat × Nat × Nat)) : (d.logPush k n b).ringDone = d.ringDone := rfl
@[simp] theorem Dev.logPush_aonQ (k n : Nat) (b : List (Nat × Nat × Nat)) : (d.logPush k n b).aonQ = d.aonQ := rfl
@[simp] theorem Dev.logPush_streams (k n : Nat) (b : List (Nat × Nat × Nat)) : (d.logPush k n b).streams = d.streams := rfl
@[simp] theorem Dev.logPush_conts (k n : Nat) (b : List (Nat × Nat × Nat)) : (d.logPush k n b).conts = d.conts := rfl
@[simp] theorem Dev.logPush_rings (k n : Nat) (b : List (Nat × Nat × Nat)) : (d.logPush k n b).rings = d.rings := rfl
@[simp] theorem Dev.logPush_rootq (k n : Nat) (b : List (Nat × Nat × Nat)) : (d.logPush k n b).rootq = d.rootq := rfl
@[simp] theorem Dev.logPush_longs (k n : Nat) (b : List (Nat × Nat × Nat)) : (d.logPush k n b).longs = d.longs := rfl
@[simp] theorem Dev.logPush_held (k n : Nat) (b : List (Nat × Nat × Nat)) : (d.logPush k n b).held = d.held := rfl
@[simp] theorem Dev.logPush_portOut (k n : Nat) (b : List (Nat × Nat × Nat)) : (d.logPush k n b).portOut = d.portOut := rfl
@[simp] theorem Dev.logPush_fresh (k n : Nat) (b : List (Nat × Nat × Nat)) : (d.logPush k n b).fresh = d.fresh := rfl
@[simp] theorem Dev.logPush_r (k n : Nat) (b : List (Nat × Nat × Nat)) (R' : Reg) (j : Nat) : (d.logPush k n b).r R' j = d.r R' j := rfl
@[simp] theorem Dev.logPush_f (k n : Nat) (b : List (Nat × Nat × Nat)) (F' : Fld) (j : Nat) : (d.logPush k n b).f F' j = d.f F' j := rfl
@[simp] theorem Dev.logPush_fi (k n : Nat) (b : List (Nat × Nat × Nat)) (F' : Fld) (j : Nat) : (d.logPush k n b).fi F' j = d.fi F' j := rfl
@[simp] theorem Dev.logPush_on (k n : Nat) (b : List (Nat × Nat × Nat)) (F' : Fld) (j : Nat) : (d.logPush k n b).on F' j = d.on F' j := rfl
@[simp] theorem Dev.logPush_ar (k n : Nat) (b : List (Nat × Nat × Nat)) (R' : Reg) (j : Nat) : (d.logPush k n b).ar R' j = d.ar R' j := rfl
@[simp] theorem Dev.logPush_a (k n : Nat) (b : List (Nat × Nat × Nat)) (F' : Fld) (j : Nat) : (d.logPush k n b).a F' j = d.a F' j := rfl
@[simp] theorem Dev.logPush_ai (k n : Nat) (b : List (Nat × Nat × Nat)) (F' : Fld) (j : Nat) : (d.logPush k n b).ai F' j = d.ai F' j := rfl
@[simp] theorem Dev.logPush_aon (k n : Nat) (b : List (Nat × Nat × Nat)) (F' : Fld) (j : Nat) : (d.logPush k n b).aon F' j = d.aon F' j := rfl
@[simp] theorem Dev.logPush_h (k n : Nat) (b : List (Nat × Nat × Nat)) (v' : Hid) (j : Nat) : (d.logPush k n b).h v' j = d.h v' j := rfl
@[simp] theorem Dev.logPush_hn (k n : Nat) (b : List (Nat × Nat × Nat)) (v' : Hid) (j : Nat) : (d.logPush k n b).hn v' j = d.hn v' j := rfl
@[simp] theorem Dev.logPush_hon (k n : Nat) (b : List (Nat × Nat × Nat)) (v' : Hid) (j : Nat) : (d.logPush k n b).hon v' j = d.hon v' j := rfl
@[simp] theorem Dev.logPush_now (k n : Nat) (b : List (Nat × Nat × Nat)) : (d.logPush k n b).now = d.now := rfl

/-! ### The registers that set1 and setBit write -/

theorem Dev.set1_regs (F : Fld) (i : Nat) : (d.set1 F i).regs = (d.setF F i 1).regs := rfl
theorem Dev.f_set1 (F G : Fld) (i j : Nat) : (d.set1 F i).f G j = (d.setF F i 1).f G j := rfl
theorem Dev.r_set1 (F : Fld) (R : Reg) (i j : Nat) : (d.set1 F i).r R j = (d.setF F i 1).r R j := rfl

/-! ### The machine -/

variable (s : State)

@[simp] theorem State.onDev_dev (g : Dev → Dev) : (s.onDev g).dev = g s.dev := rfl
@[simp] theorem State.onDev_mem (g : Dev → Dev) : (s.onDev g).mem = s.mem := rfl
@[simp] theorem State.onDev_pending (g : Dev → Dev) : (s.onDev g).pending = s.pending := rfl
@[simp] theorem State.onDev_mb (g : Dev → Dev) (k : Nat) : (s.onDev g).mb k = s.mb k := rfl
@[simp] theorem State.ok_eq (g : Dev → Dev) : s.ok g = .next (s.onDev g) := rfl
@[simp] theorem State.setMb_dev (k v : Nat) : (s.setMb k v).dev = s.dev := rfl
@[simp] theorem State.setMb_pending (k v : Nat) : (s.setMb k v).pending = s.pending := rfl

@[simp] theorem Dev.when_true (g : Dev → Dev) : d.when true g = g d := rfl
@[simp] theorem Dev.when_false (g : Dev → Dev) : d.when false g = d := rfl

/-- A guarded operation, by its guard. -/
theorem Dev.when_eq (c : Bool) (g : Dev → Dev) : d.when c g = if c then g d else d := rfl

end Sys2Proof.Machine
end

