-- ==== Sys2Proof/Laws/Store.lean ====
section
/-! SUPPORT. The laws of the sparse stores: a read after a write, and the canonical form is kept. -/

namespace Sys2Proof.Machine

variable {α : Type}

theorem Store.get_ins (l : List (Nat × α)) (k j : Nat) (v d : α) :
    Store.get (Store.ins l k v) j d = if k = j then v else Store.get l j d := by
  induction l with
  | nil => simp [Store.ins, Store.get]
  | cons c t ih =>
    obtain ⟨k', v'⟩ := c
    by_cases h1 : k < k'
    · simp [Store.ins, h1, Store.get]
    · by_cases h2 : k = k'
      · subst h2
        by_cases hj : k = j <;> simp [Store.ins, Store.get, hj]
      · simp only [Store.ins, h1, h2, if_false, Store.get, ih]
        by_cases hj : k = j
        · subst hj; simp [Ne.symm h2]
        · simp [hj]

theorem Store.get_del (l : List (Nat × α)) (k j : Nat) (d : α) :
    Store.get (Store.del l k) j d = if k = j then d else Store.get l j d := by
  induction l with
  | nil => simp [Store.del, Store.get]
  | cons c t ih =>
    obtain ⟨k', v'⟩ := c
    by_cases h : k' = k
    · subst h
      simp only [Store.del, if_true, ih, Store.get]
      by_cases hj : k' = j <;> simp [hj]
    · by_cases hj : k = j
      · subst hj; simp [Store.del, h, Store.get, ih]
      · simp [Store.del, h, Store.get, ih, hj]

/-- A read of the key just written gives the value written. -/
@[simp] theorem Store.get_put_same [DecidableEq α] (l : List (Nat × α)) (k : Nat) (v d : α) :
    Store.get (Store.put l k v d) k d = v := by
  unfold Store.put; split
  · next h => simp [Store.get_del, h]
  · simp [Store.get_ins]

/-- A write leaves every other key alone. -/
theorem Store.get_put_other [DecidableEq α] (l : List (Nat × α)) {k j : Nat} (v d e : α) (h : k ≠ j) :
    Store.get (Store.put l k v d) j e = Store.get l j e := by
  unfold Store.put; split <;> simp [Store.get_del, Store.get_ins, h]

theorem Store.above_ins {j : Nat} (l : List (Nat × α)) (k : Nat) (v : α) (h : j < k) (hl : Store.above j l = true) :
    Store.above j (Store.ins l k v) = true := by
  induction l with
  | nil => simp [Store.ins, Store.above, h]
  | cons c t ih =>
    obtain ⟨k', v'⟩ := c
    simp only [Store.above, List.all_cons, Bool.and_eq_true, decide_eq_true_eq] at hl ih ⊢
    unfold Store.ins; split
    · simp [h, hl.1]; simpa using hl.2
    · split
      · simp [h]; simpa using hl.2
      · simp only [List.all_cons, Bool.and_eq_true, decide_eq_true_eq]
        exact ⟨hl.1, by simpa [Store.above] using ih hl.2⟩

theorem Store.above_trans {j k : Nat} (l : List (Nat × α)) (h : j ≤ k) (hl : Store.above k l = true) :
    Store.above j l = true := by
  simp only [Store.above, List.all_eq_true, decide_eq_true_eq] at hl ⊢
  intro c hc; exact lt_of_le_of_lt h (hl c hc)

theorem Store.above_filter {j : Nat} (l : List (Nat × α)) (p : Nat × α → Bool) (hl : Store.above j l = true) :
    Store.above j (l.filter p) = true := by
  simp only [Store.above, List.all_eq_true, decide_eq_true_eq, List.mem_filter] at hl ⊢
  intro c hc; exact hl c hc.1

/-- Dropping entries keeps the canonical form. -/
theorem Store.wf_filter [DecidableEq α] (d : Nat → α) (l : List (Nat × α)) (p : Nat × α → Bool)
    (hl : Store.wf d l = true) : Store.wf d (l.filter p) = true := by
  induction l with
  | nil => rfl
  | cons c t ih =>
    obtain ⟨k, v⟩ := c
    simp only [Store.wf, Bool.and_eq_true, decide_eq_true_eq] at hl
    by_cases hp : p (k, v) = true
    · simp only [List.filter_cons, hp, if_true, Store.wf, Bool.and_eq_true, decide_eq_true_eq]
      exact ⟨⟨hl.1.1, Store.above_filter t p hl.1.2⟩, ih hl.2⟩
    · simp only [List.filter_cons, hp]
      exact ih hl.2

theorem Store.del_eq_filter (l : List (Nat × α)) (k : Nat) : Store.del l k = l.filter fun c => c.1 != k := by
  induction l with
  | nil => rfl
  | cons c t ih =>
    obtain ⟨k', v'⟩ := c
    by_cases h : k' = k <;> simp [Store.del, h, ih]

theorem Store.wf_ins [DecidableEq α] (d : Nat → α) (l : List (Nat × α)) (k : Nat) (v : α) (hv : v ≠ d k)
    (hl : Store.wf d l = true) : Store.wf d (Store.ins l k v) = true := by
  induction l with
  | nil => simp [Store.ins, Store.wf, hv, Store.above]
  | cons c t ih =>
    obtain ⟨k', v'⟩ := c
    have hl' := hl
    simp only [Store.wf, Bool.and_eq_true, decide_eq_true_eq] at hl
    unfold Store.ins; split
    · next h =>
      simp only [Store.wf, Bool.and_eq_true, decide_eq_true_eq]
      refine ⟨⟨hv, ?_⟩, hl⟩
      simp only [Store.above, List.all_cons, Bool.and_eq_true, decide_eq_true_eq]
      exact ⟨h, Store.above_trans t (le_of_lt h) hl.1.2⟩
    · split
      · next h => subst h; simp only [Store.wf, Bool.and_eq_true, decide_eq_true_eq]; exact ⟨⟨hv, hl.1.2⟩, hl.2⟩
      · next h1 h2 =>
        simp only [Store.wf, Bool.and_eq_true, decide_eq_true_eq]
        exact ⟨⟨hl.1.1, Store.above_ins t k v (by omega) hl.1.2⟩, ih hl.2⟩

/-- A write keeps the canonical form. -/
theorem Store.wf_put [DecidableEq α] (d : Nat → α) (l : List (Nat × α)) (k : Nat) (v : α) (hl : Store.wf d l = true) :
    Store.wf d (Store.put l k v (d k)) = true := by
  unfold Store.put; split
  · rw [Store.del_eq_filter]; exact Store.wf_filter d l _ hl
  · next h => exact Store.wf_ins d l k v h hl

end Sys2Proof.Machine
end

