-- ==== Sys2Proof/Laws/Reg.lean ====
section
/-! SUPPORT. A register, a field and an internal variable read after a write: the one written gives the value written, and
every other is as before. -/

namespace Sys2Proof.Machine

/-! ### Bit fields -/

theorem getLsbD_fieldMask (lo n i : Nat) :
    ((BitVec.ofNat 32 (2 ^ n - 1) <<< lo : Word)).getLsbD i = (decide (i < 32) && decide (lo ≤ i) && decide (i < lo + n)) := by
  simp only [BitVec.getLsbD_shiftLeft, BitVec.getLsbD_ofNat, Nat.testBit_two_pow_sub_one]
  by_cases h1 : i < 32 <;> by_cases h2 : lo ≤ i <;> by_cases h3 : i < lo + n <;> simp [h1, h2, h3] <;> omega

/-- A bit of a word after one of its fields was written. -/
theorem getLsbD_putBits (w : Word) (lo n : Nat) (v : Int) (i : Nat) (hi : i < 32) :
    (putBits w lo n v).getLsbD i =
      if lo ≤ i ∧ i < lo + n then (BitVec.ofInt 32 v).getLsbD (i - lo) else w.getLsbD i := by
  simp only [putBits, BitVec.getLsbD_or, BitVec.getLsbD_and, BitVec.getLsbD_not, getLsbD_fieldMask, hi, decide_true,
    Bool.true_and]
  by_cases h : lo ≤ i ∧ i < lo + n
  · obtain ⟨h1, h2⟩ := h
    simp [h1, h2, hi, Nat.not_lt.mpr h1, -BitVec.getLsbD_eq_getElem]
  · by_cases h1 : lo ≤ i
    · have h2 : ¬ i < lo + n := fun h2 => h ⟨h1, h2⟩
      simp [h1, h2]
    · simp [h1]

/-- A field reads as its bits. -/
theorem bitsOf_eq (w w' : Word) (lo n : Nat) (h : ∀ i, lo ≤ i → i < lo + n → w.getLsbD i = w'.getLsbD i) :
    bitsOf w lo n = bitsOf w' lo n := by
  unfold bitsOf
  congr 1
  apply BitVec.eq_of_getLsbD_eq
  intro i hi
  simp only [BitVec.getLsbD_extractLsb', hi, decide_true, Bool.true_and]
  exact h _ (by omega) (by omega)

/-- A write to one field leaves a field of other bits alone. -/
theorem bitsOf_putBits_other (w : Word) (lo n lo' n' : Nat) (v : Int) (hd : lo + n ≤ lo' ∨ lo' + n' ≤ lo)
    (h32 : lo' + n' ≤ 32) : bitsOf (putBits w lo n v) lo' n' = bitsOf w lo' n' := by
  apply bitsOf_eq
  intro i h1 h2
  rw [getLsbD_putBits _ _ _ _ _ (by omega)]
  rw [if_neg (by omega)]

/-- The field written reads as the value's low bits. -/
theorem bitsOf_putBits_same (w : Word) (lo n : Nat) (v : Int) (h32 : lo + n ≤ 32) :
    bitsOf (putBits w lo n v) lo n = (v % (2 ^ n : Int)).toNat := by
  have h : bitsOf (putBits w lo n v) lo n = bitsOf (BitVec.ofInt 32 v) 0 n := by
    unfold bitsOf; congr 1
    apply BitVec.eq_of_getLsbD_eq
    intro i hi
    simp only [BitVec.getLsbD_extractLsb', hi, decide_true, Bool.true_and]
    rw [getLsbD_putBits _ _ _ _ _ (by omega), if_pos (by omega)]
    congr 1; omega
  rw [h]
  unfold bitsOf
  rw [BitVec.extractLsb'_toNat, Nat.shiftRight_zero, BitVec.toNat_ofInt]
  have h2 : (2 : Int) ^ n ∣ 2 ^ 32 := pow_dvd_pow 2 (by omega)
  have h3 : (0 : Int) ≤ v % 2 ^ 32 := Int.emod_nonneg _ (by norm_num)
  have h5 : (0 : Int) ≤ v % (2 ^ n : Int) := Int.emod_nonneg _ (by positivity)
  zify
  rw [Int.toNat_of_nonneg h3, Int.toNat_of_nonneg h5]
  exact Int.emod_emod_of_dvd v h2

/-! ### Registers -/

/-- The register just written holds the word written. -/
@[simp] theorem Dev.r_setR_same (d : Dev) (R : Reg) (i : Nat) (w : Word) : (d.setR R i w).r R i = w := by
  simp [Dev.r, Dev.setR]

/-- A write leaves a register at another address alone. -/
theorem Dev.r_setR_other (d : Dev) {R Q : Reg} {i j : Nat} (w : Word) (h : R.addr i ≠ Q.addr j) :
    (d.setR R i w).r Q j = d.r Q j := by
  simp only [Dev.r, Dev.setR]; exact Store.get_put_other _ _ _ _ h

/-- The same for active values. -/
@[simp] theorem Dev.ar_setAr_same (d : Dev) (R : Reg) (i : Nat) (w : Word) : (d.setAr R i w).ar R i = w := by
  simp [Dev.ar, Dev.setAr]
theorem Dev.ar_setAr_other (d : Dev) {R Q : Reg} {i j : Nat} (w : Word) (h : R.addr i ≠ Q.addr j) :
    (d.setAr R i w).ar Q j = d.ar Q j := by
  simp only [Dev.ar, Dev.setAr]; exact Store.get_put_other _ _ _ _ h

/-- The field just written reads as the low bits of the value. -/
theorem Dev.f_setF_same (d : Dev) (F : Fld) (i : Nat) (v : Int) (h : F.lo + F.n ≤ 32) :
    (d.setF F i v).f F i = (v % (2 ^ F.n : Int)).toNat := by
  simp only [Dev.f, Dev.setF, Dev.r_setR_same]; exact bitsOf_putBits_same _ _ _ _ h

/-- A write leaves a field of a register at another address alone. -/
theorem Dev.f_setF_other (d : Dev) {F G : Fld} {i j : Nat} (v : Int) (h : F.reg.addr i ≠ G.reg.addr j) :
    (d.setF F i v).f G j = d.f G j := by
  simp only [Dev.f, Dev.setF, Dev.r_setR_other _ _ h]

/-- A write leaves a field of other bits of the same register alone. -/
theorem Dev.f_setF_beside (d : Dev) {F G : Fld} {i : Nat} (v : Int) (hr : F.reg = G.reg)
    (h : F.lo + F.n ≤ G.lo ∨ G.lo + G.n ≤ F.lo) (h32 : G.lo + G.n ≤ 32) : (d.setF F i v).f G i = d.f G i := by
  simp only [Dev.f, Dev.setF, hr, Dev.r_setR_same]
  exact bitsOf_putBits_other _ _ _ _ _ _ h h32

/-- A write of one register leaves a field of another alone. -/
theorem Dev.f_setR_other (d : Dev) {R : Reg} {G : Fld} {i j : Nat} (w : Word) (h : R.addr i ≠ G.reg.addr j) :
    (d.setR R i w).f G j = d.f G j := by
  simp only [Dev.f, Dev.r_setR_other _ _ h]

/-- A field set is 1 or more. -/
theorem Dev.on_set1 (d : Dev) (F : Fld) (i : Nat) (h : F.lo + F.n ≤ 32) (hn : 0 < F.n) : (d.set1 F i).on F i = true := by
  simp only [Dev.on, Dev.f_set1, Dev.f_setF_same _ _ _ _ h, bne_iff_ne, ne_eq]
  obtain ⟨m, hm⟩ : ∃ m, F.n = m + 1 := ⟨F.n - 1, by omega⟩
  have h2 : (1 : Int) < 2 ^ F.n := by
    rw [hm, pow_succ]
    have : (0 : Int) < 2 ^ m := by positivity
    omega
  rw [Int.emod_eq_of_lt (by norm_num) h2]; decide

/-! ### Internal variables -/

theorem Hid.ctorIdx_lt (v : Hid) : v.ctorIdx < 1024 := by cases v <;> decide

theorem Hid.ctorIdx_inj {v w : Hid} (h : v.ctorIdx = w.ctorIdx) : v = w := by
  have := congrArg Hid.ofNat h
  rwa [Hid.ofNat_ctorIdx, Hid.ofNat_ctorIdx] at this

theorem Hid.key_inj {v w : Hid} {i j : Nat} (h : v.key i = w.key j) : v = w ∧ i = j := by
  have hv := v.ctorIdx_lt; have hw := w.ctorIdx_lt
  unfold Hid.key at h
  exact ⟨Hid.ctorIdx_inj (by omega), by omega⟩

/-- The variable just written holds the value written. -/
@[simp] theorem Dev.h_setH_same (d : Dev) (v : Hid) (i : Nat) (x : Int) : (d.setH v i x).h v i = x := by
  simp [Dev.h, Dev.setH]

/-- A write leaves another variable, or another copy, alone. -/
theorem Dev.h_setH_other (d : Dev) {v w : Hid} {i j : Nat} (x : Int) (h : v ≠ w ∨ i ≠ j) :
    (d.setH v i x).h w j = d.h w j := by
  simp only [Dev.h, Dev.setH]
  refine Store.get_put_other _ _ _ _ fun e => ?_
  obtain ⟨h1, h2⟩ := Hid.key_inj e
  exact h.elim (fun g => g h1) fun g => g h2

end Sys2Proof.Machine
end

