-- ==== Sys2Proof/Laws/Ops.lean ====
section
/-! SUPPORT. What the counting, event and loop operations over the device can do. -/

namespace Sys2Proof.Machine

/-- A property that every round keeps holds after the loop. -/
theorem Dev.each_keep {P : Dev → Prop} {g : Dev → Nat → Dev} (n : Nat) (d : Dev) (hd : P d)
    (hg : ∀ e i, P e → P (g e i)) : P (d.each n g) := by
  unfold Dev.each
  generalize List.range n = l
  induction l generalizing d with
  | nil => exact hd
  | cons a t ih => exact ih (g d a) (hg d a hd)

theorem Dev.eachIn_keep {α : Type} {P : Dev → Prop} {g : Dev → α → Dev} (l : List α) (d : Dev) (hd : P d)
    (hg : ∀ e a, P e → P (g e a)) : P (d.eachIn l g) := by
  unfold Dev.eachIn
  induction l generalizing d with
  | nil => exact hd
  | cons a t ih => exact ih (g d a) (hg d a hd)

theorem Dev.when_keep {P : Dev → Prop} {g : Dev → Dev} (d : Dev) (c : Bool) (hd : P d) (hg : ∀ e, P e → P (g e)) :
    P (d.when c g) := by
  cases c
  · exact hd
  · exact hg d hd

/-- Counting changes the field counted, and no other register. -/
theorem Dev.incSat_eq (d : Dev) (F : Fld) (i : Nat) :
    d.incSat F i = d ∨ d.incSat F i = d.setF F i (d.f F i + 1) := by
  unfold Dev.incSat; split
  · exact .inr rfl
  · exact .inl rfl

theorem Dev.f_incSat_other (d : Dev) {F G : Fld} {i j : Nat} (h : F.reg.addr i ≠ G.reg.addr j) :
    (d.incSat F i).f G j = d.f G j := by
  rcases d.incSat_eq F i with e | e <;> rw [e]
  exact Dev.f_setF_other d _ h

theorem Dev.f_incSat_same (d : Dev) (F : Fld) (i : Nat) (h : F.lo + F.n ≤ 32) (hl : d.f F i + 1 < 2 ^ F.n) :
    (d.incSat F i).f F i = d.f F i + 1 := by
  unfold Dev.incSat
  rw [if_pos hl, Dev.f_setF_same _ _ _ _ h]
  have h1 : ((d.f F i : Int) + 1) % 2 ^ F.n = (d.f F i : Int) + 1 :=
    Int.emod_eq_of_lt (by omega) (by exact_mod_cast hl)
  rw [h1]; omega

@[simp] theorem Dev.incSat_hid (d : Dev) (F : Fld) (i : Nat) : (d.incSat F i).hid = d.hid := by
  unfold Dev.incSat; split <;> rfl
@[simp] theorem Dev.incSat_act (d : Dev) (F : Fld) (i : Nat) : (d.incSat F i).act = d.act := by
  unfold Dev.incSat; split <;> rfl
@[simp] theorem Dev.incSat_tb (d : Dev) (F : Fld) (i : Nat) : (d.incSat F i).tb = d.tb := by
  unfold Dev.incSat; split <;> rfl
@[simp] theorem Dev.incSat_h (d : Dev) (F : Fld) (i : Nat) (v : Hid) (j : Nat) : (d.incSat F i).h v j = d.h v j := by
  simp [Dev.h]
@[simp] theorem Dev.incSat_now (d : Dev) (F : Fld) (i : Nat) : (d.incSat F i).now = d.now := by simp [Dev.now]

/-- Raising an event puts it into its crossing, or drops and counts it; no other register and no internal variable
changes (R28 to R30). -/
theorem Dev.raise_eq (d : Dev) (src : Nat) :
    d.raise src = { d with evq := d.evq ++ [{ src := src, stamp := d.now }] }
      ∨ d.raise src = (d.set1 TR_CAUSE_IN_OVR).incSat TR_DROPCNT_IN := by
  unfold Dev.raise; split
  · exact .inl rfl
  · exact .inr rfl

@[simp] theorem Dev.raise_hid (d : Dev) (src : Nat) : (d.raise src).hid = d.hid := by
  rcases d.raise_eq src with e | e <;> rw [e] <;> simp
@[simp] theorem Dev.raise_act (d : Dev) (src : Nat) : (d.raise src).act = d.act := by
  rcases d.raise_eq src with e | e <;> rw [e] <;> simp
@[simp] theorem Dev.raise_tb (d : Dev) (src : Nat) : (d.raise src).tb = d.tb := by
  rcases d.raise_eq src with e | e <;> rw [e] <;> simp
@[simp] theorem Dev.raise_h (d : Dev) (src : Nat) (v : Hid) (j : Nat) : (d.raise src).h v j = d.h v j := by simp [Dev.h]
@[simp] theorem Dev.raise_now (d : Dev) (src : Nat) : (d.raise src).now = d.now := by simp [Dev.now]

theorem Dev.f_raise_other (d : Dev) (src : Nat) {G : Fld} {j : Nat} (h1 : TR_CAUSE.addr 0 ≠ G.reg.addr j)
    (h2 : TR_DROPCNT.addr 0 ≠ G.reg.addr j) : (d.raise src).f G j = d.f G j := by
  rcases d.raise_eq src with e | e <;> rw [e]
  · rfl
  · rw [Dev.f_incSat_other _ h2, Dev.f_set1]; exact Dev.f_setF_other _ _ h1

end Sys2Proof.Machine
end

