-- ==== Sys2Proof/Laws/Bus.lean ====
section
/-! SUPPORT. What an access to a register does: the bus passes it to the register, and no other range answers. -/

namespace Sys2Proof.Machine

/-- A register's address lies in no memory. -/
theorem isRegAddr_elsewhere {a : Nat} (h : isRegAddr a = true) :
    ¬ a < 0x840000 ∧ sramBank a = none ∧ (isGvInst a || isGvData a) = false ∧ isRingCtx a = false ∧ isToken a = false := by
  simp only [isRegAddr, Bool.or_eq_true, Bool.and_eq_true, decide_eq_true_eq] at h
  refine ⟨by omega, ?_, ?_, ?_, ?_⟩
  · rw [sramBank, if_neg, if_neg]
    all_goals simp; omega
  all_goals simp [isGvInst, isGvData, isRingCtx, isToken]; omega

/-- A word store at a register's address is the register's write. -/
theorem busStore_reg {s : State} {who : Initiator} {a v j : Nat} {row : RegRow} (hb : busOpen s.dev who = true)
    (hr : isRegAddr a = true) (h4 : a % 4 = 0) (ha : regAt a = some (row, j)) :
    busStore s who a 4 v = regStoreAt s who row j a (BitVec.ofNat 32 v) := by
  obtain ⟨-, h2, h3, h5, h6⟩ := isRegAddr_elsewhere hr
  simp [busStore, regStore, hb, hr, h4, ha, h2, h3, h5, h6]

/-- A word load at a register's address is the register's read. -/
theorem busLoad_reg {s : State} {who : Initiator} {a j : Nat} {row : RegRow} (hb : busOpen s.dev who = true)
    (hr : isRegAddr a = true) (h4 : a % 4 = 0) (ha : regAt a = some (row, j)) (hp : regPowered s.dev row.reg j = true)
    (hm : mayRead s.dev who row.reg j = true) :
    busLoad s who a 4 = (.ok (regRead s.dev who row.reg j).1.toNat, { s with dev := (regRead s.dev who row.reg j).2 }) := by
  obtain ⟨h1, h2, h3, h5, h6⟩ := isRegAddr_elsewhere hr
  simp [busLoad, regLoad, hb, hr, h4, ha, hp, hm, h1, h2, h3, h5, h6]

/-- An accepted write of a register of SVC or LOOP is its block's action on the word its access types give. -/
theorem regStoreAt_accepted {s : State} {who : Initiator} {row : RegRow} {j a : Nat} {w : Word}
    (h : Accepted s who row j w) (h1 : row.reg ≠ TR_SRC) (h2 : row.reg ≠ TR_DSTA) (h3 : row.reg ≠ TR_DSTB)
    (hq : aonQueueOf a = none) (hd : row.reg.db ≠ .grove) :
    regStoreAt s who row j a w = (.ok 0, blockWrite s who row.reg j w (newWord s.dev row j w)) := by
  obtain ⟨-, hp, hn, hm, hl, hr⟩ := h
  simp [regStoreAt, regWrite, writeChecks, hp, hn, hm, hl, hr, h1, h2, h3, hq, hd]
  rfl

/-- A command that is a store of a word to a register does what the register's block does. -/
theorem storeReg_accepted {s : State} {who : Initiator} {row : RegRow} {j : Nat} {w : Word}
    (h : Accepted s who row j w) (hr : isRegAddr (row.reg.addr j) = true) (h4 : row.reg.addr j % 4 = 0)
    (ha : regAt (row.reg.addr j) = some (row, j)) (h1 : row.reg ≠ TR_SRC) (h2 : row.reg ≠ TR_DSTA)
    (h3 : row.reg ≠ TR_DSTB) (hq : aonQueueOf (row.reg.addr j) = none) (hd : row.reg.db ≠ .grove) :
    storeReg s who row.reg j w
      = .next (keepRes (.ok 0, blockWrite s who row.reg j w (newWord s.dev row j w))) := by
  rw [storeReg, busStore_reg h.1 hr h4 ha, BitVec.ofNat_toNat, BitVec.setWidth_eq,
    regStoreAt_accepted h h1 h2 h3 hq hd]

end Sys2Proof.Machine
end

