-- ==== Sys2Proof/Laws/Memory.lean ====
section
/-! SUPPORT. The memory's laws: a read after a write, and every operation on the memory keeps its canonical form and leaves
the queue of waiting commands alone. -/

namespace Sys2Proof.Machine

/-! ### Keeping -/

theorem Keeps.refl (s : State) : Keeps s s := ⟨id, rfl⟩

theorem Keeps.trans {s t u : State} (h : Keeps s t) (k : Keeps t u) : Keeps s u := ⟨k.1 ∘ h.1, k.2.trans h.2⟩

theorem Keeps.dev (s : State) (d : Dev) : Keeps s { s with dev := d } := ⟨id, rfl⟩

theorem Keeps.onDev (s : State) (g : Dev → Dev) : Keeps s (s.onDev g) := ⟨id, rfl⟩

theorem Keeps.ite {s t u : State} (c : Prop) [Decidable c] (h : c → Keeps s t) (k : ¬c → Keeps s u) :
    Keeps s (if c then t else u) := by
  split
  · exact h ‹_›
  · exact k ‹_›

theorem Keeps.foldl {α : Type} {g : State → α → State} (l : List α) (s : State) (h : ∀ t a, Keeps t (g t a)) :
    Keeps s (l.foldl g s) := by
  induction l generalizing s with
  | nil => exact .refl s
  | cons a t ih => exact (h s a).trans (ih _)

/-! ### Bytes -/

theorem Keeps.setMb (s : State) (k v : Nat) : Keeps s (s.setMb k v) := ⟨Store.wf_put _ _ _ _, rfl⟩

theorem Keeps.setMbs (s : State) (k : Nat) (bs : List Nat) : Keeps s (s.setMbs k bs) := by
  induction bs generalizing s k with
  | nil => exact .refl s
  | cons b t ih => exact (Keeps.setMb s k b).trans (ih _ _)

theorem Keeps.mput (s : State) (k n v : Nat) : Keeps s (s.mput k n v) := .setMbs ..

/-- Keys whose entries are dropped read as they do where nothing is listed. -/
theorem Keeps.filter (s : State) (p : Host.Cell → Bool) : Keeps s { s with mem := s.mem.filter p } :=
  ⟨Store.wf_filter _ _ _, rfl⟩

@[simp] theorem State.mb_setMb_same (s : State) (k v : Nat) : (s.setMb k v).mb k = v % 256 := by
  simp [State.mb, State.setMb]

theorem State.mb_setMb_other (s : State) {k j : Nat} (v : Nat) (h : k ≠ j) : (s.setMb k v).mb j = s.mb j := by
  simp [State.mb, State.setMb, Store.get_put_other _ _ _ _ h]

@[simp] theorem State.setMbs_dev (s : State) (k : Nat) (bs : List Nat) : (s.setMbs k bs).dev = s.dev := by
  induction bs generalizing s k with
  | nil => rfl
  | cons b t ih => exact (ih ..).trans rfl

theorem State.mb_setMbs_other (s : State) {k j : Nat} (bs : List Nat) (h : j < k ∨ k + bs.length ≤ j) :
    (s.setMbs k bs).mb j = s.mb j := by
  induction bs generalizing s k with
  | nil => rfl
  | cons b t ih =>
    simp only [List.length_cons] at h
    rw [State.setMbs, ih _ (by omega), State.mb_setMb_other _ _ (by omega)]

theorem State.mb_setMbs_at (s : State) (k i : Nat) (bs : List Nat) (h : i < bs.length) :
    (s.setMbs k bs).mb (k + i) = bs[i] % 256 := by
  induction bs generalizing s k i with
  | nil => simp at h
  | cons b t ih =>
    cases i with
    | zero => rw [State.setMbs, State.mb_setMbs_other _ _ (by omega)]; simp
    | succ i => simpa [State.setMbs, Nat.add_assoc, Nat.add_comm 1 i] using ih (s.setMb k b) (k + 1) i (by simpa using h)

/-! ### SRAM -/

theorem Keeps.clearValid (s : State) (p : Nat → Bool) : Keeps s (clearValid s p) := .filter ..

theorem Keeps.sramPut (s : State) (k o : Nat) (bs : List Nat) : Keeps s (sramPut s k o bs) := by
  unfold Machine.sramPut
  have h := Keeps.ite (s.mb (validKey k) = 0) (fun _ => (Keeps.setMbs s k [0, 0, 0, 0]).trans (.setMbs _ (chkKey k) [0, 0, 0, 0]))
    fun _ => Keeps.refl s
  exact ((h.trans (.setMbs ..)).trans (.setMbs ..)).trans (.setMb ..)

theorem Keeps.sramWrite (s : State) (b a n v slot : Nat) : Keeps s (sramWrite s b a n v slot) := by
  unfold Machine.sramWrite
  exact ((Keeps.onDev ..).trans (.sramPut ..)).trans (.ite _ (fun _ => .onDev ..) fun _ => .refl _)

theorem Keeps.testStore (s : State) (b a v : Nat) : Keeps s (testStore s b a v) := by
  unfold Machine.testStore
  exact ((((Keeps.onDev s _).trans (.setMbs ..)).trans (.setMbs ..)).trans (.setMb ..)).trans (.onDev ..)

/-- A read of SRAM leaves the memory as it is. -/
theorem sramRead_mem (s : State) (b a n slot : Nat) :
    (sramRead s b a n slot).2.mem = s.mem ∧ (sramRead s b a n slot).2.pending = s.pending := by
  constructor <;> (simp only [sramRead]; split <;> split <;> rfl)

/-! ### Flash, reset, rings -/

theorem Keeps.tear (s : State) (k n v : Nat) : Keeps s (tear s k n v) := .foldl _ _ fun _ _ => .setMb ..

theorem Keeps.eraseKeys (s : State) (k n : Nat) : Keeps s (eraseKeys s k n) := (Keeps.filter ..).trans (.setMb ..)

theorem Keeps.memUnderReset (s : State) : Keeps s (memUnderReset s) := (Keeps.clearValid ..).trans (.filter ..)

theorem Keeps.devReset (s : State) (src : Fld) : Keeps s (devReset s src) := by
  unfold Machine.devReset
  exact (Keeps.onDev ..).trans (.ite _ (fun _ => .refl _) fun _ => (Keeps.onDev ..).trans (.memUnderReset _))

theorem Keeps.setCtx (s : State) (r w v : Nat) : Keeps s (setCtx s r w v) := .mput ..

end Sys2Proof.Machine
end

