-- ==== Sys2Proof/WellFormed.lean ====
section
/-! DEFINITION. When a command's operands are of the shape its row names: the lengths of byte strings, and one entry for
each rail, phase or address. What an operand's type already says is not repeated here. -/

namespace Sys2Proof

/-- No two entries are equal. -/
def distinct {α : Type} [DecidableEq α] : List α → Bool
  | [] => true
  | a :: t => !t.contains a && distinct t

/-- Whether a number lies in a range. -/
def inRange (x lo hi : Int) : Bool := decide (lo ≤ x) && decide (x ≤ hi)

/-- A PMBus transaction writes at most 255 data bytes (R448). -/
def PmbOp.wf : PmbOp → Bool
  | .read => true
  | .write data _ => data.length ≤ 255

/-- Whether a command is well formed. -/
def Instr.wf : Instr → Bool
  | .loopSample _ vs cs => distinct (vs.map Prod.fst) && distinct (cs.map Prod.fst) && cs.all fun c => inRange c.2 (-2048) 2047
  | .descReadDone _ t _ => match t with | some x => x.2.length == 128 | none => true
  | .presencePoll _ ans => distinct (ans.map Prod.fst)
  | .dieOtScan temps => temps.length == 32
  | .ceilTick codes _ _ => codes.length == 10
  | .identityFrame _ bytes => bytes.length ≤ 256
  | .mfrSpecific00 bytes _ => bytes.length ≤ 255
  | .processCall bytes => bytes.length ≤ 255
  | .page x => x.wf
  | .operation x => x.wf
  | .onOffConfig x => x.wf
  | .clearFaults x => x.wf
  | .capability x => x.wf
  | .voutMode x => x.wf
  | .voutCommand x => x.wf
  | .statusByte x => x.wf
  | .statusWord x => x.wf
  | .statusVout x => x.wf
  | .statusIout x => x.wf
  | .statusInput x => x.wf
  | .statusTemperature x => x.wf
  | .statusCml x => x.wf
  | .readVin x => x.wf
  | .readIin x => x.wf
  | .readVout x => x.wf
  | .readIout x => x.wf
  | .readTemperature1 x => x.wf
  | .readPout x => x.wf
  | .pmbusRevision x => x.wf
  | .mfrId x => x.wf
  | .mfrModel x => x.wf
  | .registerWrite .. | .ovrPersist .. | .strikeLimit .. | .releaseLimit .. | .holdoffExpire .. | .restoreDone ..
  | .commitPoint .. | .shadowApplyIdle .. | .staleFreeze .. | .staleClear .. | .flCmtHoldRelease .. | .flCmtClrcnt ..
  | .flIntLoRead .. | .phaseValley .. | .pwmRise .. | .pwmFall .. | .cbcTrip .. | .nocTrip .. | .nsZeroCurrent ..
  | .azStart .. | .azDone .. | .clrFail .. | .phClrcnt .. | .armDelayExpire .. | .toneMapGo .. | .toneMapAll ..
  | .toneAnswer .. | .toneWindowClose .. | .stageFaultReport .. | .stageTempReport .. | .rollCallStart ..
  | .busEnable .. | .hotJoin .. | .stageAccessGo .. | .stageAccessDone .. | .selfTestDone .. | .taskTrigger ..
  | .passStart .. | .steerWriteDrain .. | .steerMarkerArrive .. | .passWatchdog .. | .captureDone ..
  | .groveEnable .. | .groveDisable .. | .taskEnable .. | .gvLeadWrite .. | .railEnWrite .. | .sequencedStop ..
  | .seqTimeout .. | .seqOnQualify .. | .offSeqQualify .. | .armingDone .. | .armTimeout .. | .prebiasDone ..
  | .startAbort .. | .ssTimeout .. | .hiccupExpire .. | .pgRise .. | .pgFall .. | .blankEnd .. | .shutdownComplete ..
  | .stopTimeout .. | .ovTrip .. | .uvTrip .. | .absTrip .. | .dischargeEnd .. | .hocTrip .. | .hssDeclare ..
  | .inputOc | .wardenWdogExpire | .coreWdogExpire .. | .storeOv | .storeOc | .storeOt | .crowMinExpire ..
  | .efuseMinExpire | .wdgKick .. | .cwdgKick .. | .fbPclr .. | .fbRclr .. | .fbDclr .. | .scCauseClear ..
  | .compTestGo .. | .compTestDone .. | .marginInterval .. | .scSample .. | .storeCommit | .stEnWrite ..
  | .storeDisable .. | .ceilWrite .. | .allowWrite .. | .storePartArrival .. | .presenceDebounced | .storeRemoval
  | .qualifyDone | .holdupExit | .throttleRelease | .droopStep | .droopEffect .. | .droopRelease
  | .chargeSessionStopped | .limitRampStep | .lnEnWrite .. | .laneDisable .. | .laneTestStart .. | .laneTestStop ..
  | .detectPulse .. | .pollDone .. | .pollTimeout .. | .configDone .. | .configTimeout .. | .rateLock ..
  | .rateTimeout .. | .eqRequest .. | .eqPhaseStep .. | .eqDone .. | .eqTimeout .. | .eiosReceived ..
  | .latReceived .. | .latEchoReceived .. | .checkDone .. | .checkTimeout .. | .retrain .. | .ts2RecovReceived ..
  | .recoverDone .. | .recoverTimeout .. | .downDone .. | .linkDown .. | .flitCrcFail .. | .msgFlit .. | .ackFlit ..
  | .ackTimer .. | .replayTimeout .. | .skipSend .. | .identityTimeout .. | .lnPllLock .. | .intent .. | .cancel ..
  | .ffPulseStart .. | .ffPulseEnd .. | .grantValidityEnd .. | .statusSend .. | .loadEstimate .. | .intentResolve ..
  | .cycleReceive .. | .epochReceive .. | .helloSend .. | .helloReceive .. | .carryReceive .. | .ifwdReceive ..
  | .gfwdReceive .. | .memberLost .. | .carryRequest .. | .rejoinRequest .. | .avsVoltageWrite ..
  | .avsVoltageRead .. | .avsRateWrite .. | .avsRateRead .. | .avsCurrentRead .. | .avsTemperatureRead ..
  | .avsStatusRead .. | .tcEnable .. | .tcDisable .. | .tcGo .. | .tcAbort .. | .tcClrcnt .. | .tcPeriodExpire ..
  | .tcTrigger .. | .conversionDone .. | .recordHandover .. | .fuseProgramSlot .. | .fuseRetireSlot ..
  | .fuseProgramKey .. | .fuseRevokeKey .. | .fusePulseDone | .fuseOpDone | .verifyGo .. | .verifyDone
  | .refTailWrite .. | .coretagWrite .. | .processCallWaitExpire | .mfrSpecific01 | .alertResponse | .smbusTimeout
  | .spiWrite .. | .spiRead .. | .spiReady | .mailboxGo .. | .contTimeout .. | .wardenReset | .longPacketComplete ..
  | .rootstampRead .. | .allOff | .readCanopy | .readLatches | .rootReset | .railOff | .readIdentity | .ping
  | .devInfo | .devStatus | .echo | .setState | .regRead | .regWrite | .regModify | .railStatus | .railEnable
  | .railVout | .railRamp | .railLoadline | .railComp | .railLimits | .railStrike | .railConfig | .railIlim
  | .railCoppice | .railSeq | .railProtect | .railClear | .railPeriod | .railSteer | .railCause | .phaseStatus
  | .phaseRole | .phaseConfig | .phaseProtect | .phaseClear | .phaseAz | .stageDesc | .stageAccess | .toneMap
  | .rollCall | .storeStatus | .storeConfig | .storeEnable | .storeFloor | .ceiling | .escalation | .ceilSense
  | .laneStatus | .laneEnable | .laneConfig | .partnerId | .intentConfig | .intentTrust | .intentStatus
  | .coupleConfig | .coupleCmd | .coupleStatus | .teleLast | .teleConfig | .teleCtl | .teleOwn | .railReadings
  | .timeGet | .rtcSet | .meterRead | .billingRead | .lifeStage | .lifeDevice | .logRead | .lifeFlush | .fwInfo
  | .fwBegin | .fwWrite | .fwVerify | .fwSwap | .fwAbort | .partInfo | .reflogRead | .coreAssign | .coreCtl
  | .imageLoad | .groveLead | .groveBanks | .groveInstall | .groveStd | .groveTask | .resAssign | .fuseOp
  | .trailEvent | .trFire .. | .trSrcWrite .. | .consumerDelivery .. | .elogWrite .. | .dmaStart .. | .dmaStop ..
  | .dmaClr .. | .dmaTrig .. | .descriptorFetch .. | .dmaBurst | .produce .. | .consume .. | .arm ..
  | .ringContextWrite .. | .tokenClaim .. | .arbClrmax .. | .swCauseSet .. | .cnViewRead .. | .reqActive ..
  | .reqQuiet .. | .reqGlade .. | .reqClearing .. | .quietWake | .gladeDomainsEnter | .gladeReturnDone
  | .clearingDomainsEnter | .aonWake .. | .domainEnter .. | .domainEntryStep .. | .domainWake ..
  | .domainReturnDone .. | .holdRelease .. | .voteWrite .. | .timerMatch .. | .timerOverflow .. | .timerStartEvent ..
  | .timerCapture .. | .timerHiWrite .. | .cal0Read .. | .rtcSetWrite .. | .rtcSetApply | .rtcAlarm | .rtcEnd
  | .dayBoundary | .yearBoundary | .intervalClose | .meterHandoff | .flushPeriodic | .lfFlushWrite .. | .flushDone
  | .logAppend .. | .add .. | .sub .. | .adc .. | .sbc .. | .and .. | .or .. | .xor .. | .andn .. | .shl .. | .shr ..
  | .sar .. | .ror .. | .shli .. | .shri .. | .sari .. | .rori .. | .min .. | .max .. | .minu .. | .maxu .. | .clz ..
  | .cls .. | .popc .. | .rev .. | .permr .. | .abs .. | .adds .. | .subs .. | .mul .. | .mulhs .. | .mulhu ..
  | .div .. | .divu .. | .rem .. | .remu .. | .mulq .. | .mulqn .. | .macq .. | .msuq .. | .bfx .. | .bfxs ..
  | .bfi .. | .perm .. | .addi .. | .addis .. | .andi .. | .ori .. | .xori .. | .lui .. | .cmpi .. | .ldb ..
  | .ldbu .. | .ldh .. | .ldhu .. | .ldw .. | .stb .. | .sth .. | .stw .. | .cas .. | .bcond .. | .jmp .. | .call ..
  | .jr .. | .jalr .. | .syscall .. | .brk .. | .eret .. | .wait .. | .sync .. | .mfcr .. | .mtcr .. | .imset ..
  | .imclr .. | .tinvA .. | .tinvT .. | .tinvAll .. | .done .. | .drop .. | .interruptTake .. | .storeDrain ..
  | .coreHaltRequest .. | .cacheLineFill .. | .tlbWalk .. | .scrubVisit | .remapSet .. | .remapClear ..
  | .repairModeWrite .. | .flashProgram .. | .flashErase .. | .flashSuspend .. | .flashResume .. | .flashRdtwin ..
  | .rdtwinDone | .flashSwap .. | .programPulseDone .. | .eraseSegmentDone | .eraseVerifyDone .. | .brownOut
  | .lfProgramCutoff | .brownOutEnd | .gpioEdge .. | .padFuncWrite .. | .handoverEnd .. | .gsetWrite ..
  | .gclrWrite .. | .pulseEnd .. | .vioLost .. | .xtalOk | .xtalFail | .vcoreStep | .buckFault | .resetPin
  | .vinUndervoltage | .powerOnReset | .resetRelease | .buckPg | .fuseLoadDone .. | .svcRelease .. | .bootVerifyDone
  | .logScanDone | .tapReset | .jtagIrUpdate .. | .illegalInstruction .. | .aonRegisterWriteArrival ..
  | .deviceSourceOutputFall .. | .reservedTypeFlit .. | .avsUnsupportedFrame .. | .spiUnknownInstruction ..
  | .laneClrcnt .. => true

end Sys2Proof
end

