-- ==== Sys2Proof/Tests/Slice0.lean ====
section
/-! SUPPORT. Small tests of the model: ill-formed operands are refused, the spec's worked words and examples come out as the
spec has them, and the hypotheses of every statement are met, clause by clause and at the ends of their ranges, by a
concrete state. -/

namespace Sys2Proof.Tests

/- One test is checked at a time: each runs the model in the kernel, and all at once would fill the memory. -/
set_option Elab.async false

open Sys2Proof Sys2Proof.Machine

/-- The device after reset with those fields set, and then those internal values. -/
def fix (fs : List (Fld × Nat × Int)) (hs : List (Hid × Nat × Int) := []) : Dev :=
  hs.foldl (fun d x => d.setH x.1 x.2.1 x.2.2) (fs.foldl (fun d x => d.setF x.1 x.2.1 x.2.2) State.reset.dev)

/-- The machine after reset with that device. -/
def at_ (d : Dev) : State := { State.reset with dev := d }

/-- The outcome is a next state of which that holds. -/
def goes (o : Host.Outcome State Fault Refusal) (p : State → Bool) : Bool :=
  match o with
  | .next t => p t
  | _ => false

/-! ### The block as a whole -/

theorem test_front_runs : goes (step { at_ (fix []) with pending := [.xtalOk, .tapReset] }) (fun t =>
    t == { at_ (fix [(PX_STATUS_XTAL_OK, 0, 1)]) with pending := [.tapReset] }) = true := by decide +kernel

theorem test_idle : goes (step State.reset) (· == State.reset) = true := by decide +kernel

theorem test_no_table_word : decodeTableWord 32 5 = none ∧ (State.reset.withFetchWord 32 5) = State.reset := by decide

theorem test_wf_loopSample_twice : (Instr.loopSample 0 [(3, 1), (3, 2)] []).wf = false := by decide
theorem test_wf_loopSample_range : (Instr.loopSample 0 [] [(3, 2048)]).wf = false ∧ (Instr.loopSample 0 [] [(3, -2048)]).wf = true := by
  decide
theorem test_wf_descReadDone : (Instr.descReadDone 0 (some (0, [1])) false).wf = false := by decide
theorem test_wf_presencePoll : (Instr.presencePoll 0 [(8, 0, 0), (8, 1, 1)]).wf = false := by decide
theorem test_wf_dieOtScan : (Instr.dieOtScan [0x50]).wf = false := by decide
theorem test_wf_ceilTick : (Instr.ceilTick [1, 2] 0 0).wf = false := by decide
theorem test_wf_identityFrame : (Instr.identityFrame 0 (List.replicate 257 0)).wf = false := by decide +kernel
theorem test_wf_mfrSpecific00 : (Instr.mfrSpecific00 (List.replicate 256 0) .absent).wf = false := by decide +kernel
theorem test_wf_processCall : (Instr.processCall (List.replicate 256 0)).wf = false := by decide +kernel
theorem test_wf_page : (Instr.page (.write (List.replicate 256 0) .absent)).wf = false ∧ (Instr.page .read).wf = true := by decide +kernel

/-! ### Words (the spec's worked encodings, section 16) -/

theorem test_word_mtcr : cpuWord (.mtcr .warden 0x009 2) = some 0xC0404806 := by decide +kernel
theorem test_word_ldw : cpuWord (.ldw .warden 5 4 0xC080) = some 0x50A4C080 := by decide +kernel
theorem test_word_addis : cpuWord (.addis .warden 7 7 0xFFFF) = some 0x1CE7FFFF := by decide +kernel
theorem test_word_stw : cpuWord (.stw .warden 5 6 0x4004) = some 0x5CA64004 := by decide +kernel
theorem test_word_bcond : cpuWord (.bcond .warden 1 0x3FFFFD) = some 0x807FFFFD := by decide +kernel

/-! ### The hypotheses of the statements are met -/

/-- The device at work: every domain on, services released, the warden running. -/
def up (fs : List (Fld × Nat × Int)) (hs : List (Hid × Nat × Int) := []) : Dev :=
  fix ((PD_ONA_DOM, 0, 0xFFFFFFFF) :: (PD_ONB_DOM, 0, 0xFFFFFFFF) :: (CP_STATUS_WARDEN, 0, 1) :: fs)
    ((.svcOn, 0, 1) :: (.start, 0, 4) :: hs)

theorem test_meets_StepKeepsSound :
    goes (step { at_ (up []) with mem := [(0x10000000, 7)], pending := [.fuseLoadDone 3, .xtalOk] })
      (fun t => Memory.wf t.mem && t.pending == [.xtalOk]) = true := by decide +kernel

theorem test_meets_InstructionWords :
    cpuWord (.ldb .warden 31 30 0x4000) = cpuWord (.ldb .warden 31 30 0x4000)
    ∧ cpuOf (.ldb .warden 31 30 0x4000) = some .warden ∧ (cpuWord (.ldb .warden 31 30 0x4000)).isSome = true := by decide +kernel

theorem test_meets_ReservedEncodings :
    row_FB_IIN.reg.db ≠ .grove ∧ reservedWord (fix []) row_FB_IIN 0 0x0F00 = true
    ∧ (leafOf FB_IIN 0).1.addr (leafOf FB_IIN 0).2 ≠ FB_IIN.addr 0
    ∧ (∀ F ∈ row_FB_IIN.fields, (lockLeaf FB_IIN 0 F).1.addr (lockLeaf FB_IIN 0 F).2 ≠ FB_IIN.addr 0)
    ∧ lockHit (fix [(FB_DLOCK_LOCK, 0, 1)]) row_FB_IIN 0 0x0F01 ≠ none := by decide +kernel

/-- Every access type but W1S, which the spec gives no field, has one, and a locked field can be hit. -/
theorem test_meets_AccessTypes :
    (∀ a ∈ [Acc.rw, .ro, .wo, .w1c, .rwl, .rwo], regRows.any fun row => row.fields.any fun F => F.acc == a)
    ∧ (lockHit (fix [(RL_CTL_EN, 15, 1), (FB_DLOCK_LOCK, 0, 1)]) row_FB_IIN 0 1).isSome = true
    ∧ lockedF (fix []) FB_IIN 0 FB_IIN_TH = false
    ∧ (let d := (fix []).set1 FL_CAUSE_STALE 15
       bitsOf (d.setNow (FL_CAUSE.addr 15)) FL_CAUSE_STALE.lo 1 = 1 ∧ FL_CAUSE_STALE.acc = .w1c) := by decide +kernel

theorem test_meets_FastLoopEventsAct :
    (let d := fix [(FL_OVR_LIM, 15, 7)] [(.ovrRun, 15, 7)]
     d.on FL_OVR_LIM 15 = true ∧ d.f FL_OVR_LIM 15 ≤ d.hn .ovrRun 15)
    ∧ (let d := fix [(FL_STATUS_MODE, 0, 2)] [(.modeTime, 0, 4 * 255)]; flMode d 0 = flStrike ∧ atLimit d 0 true = true)
    ∧ (let d := fix [(FL_STATUS_MODE, 0, 3)] [(.modeTime, 0, 4 * 255)]; flMode d 0 = flRelease ∧ atLimit d 0 false = true)
    ∧ (let d := fix [(FL_STATUS_MODE, 5, 4)] [(.restoreCnt, 5, 255)]
       flMode d 5 = flRestore ∧ d.a FL_RESTORE_PERIODS 5 ≤ d.hn .restoreCnt 5)
    ∧ (let d := fix [(FL_STEER_GV_EN, 2, 1), (FL_STEER_STALE_LIM, 2, 3), (FL_STEER_AGE, 2, 3)]
       d.on FL_STEER_GV_EN 2 = true ∧ d.on FL_STEER_STALE_LIM 2 = true ∧ d.f FL_STEER_STALE_LIM 2 ≤ d.f FL_STEER_AGE 2)
    ∧ (switching (fix []) 0 = [] ∧ switching (fix []) 17 = [])
    ∧ (let e : DbWrite := { dom := 0, addr := FL_REF.addr 0, rst := 0, val := 1, stamp := 0 }
       let d : Dev := { fix [] with pendSw := [e], tb := 1 }
       e ∈ d.pendSw ∧ e.dom = (0 : Fin 18).val ∧ ¬d.now < e.stamp)
    ∧ (let d := fix [(PH_ROLE_ROLE, 63, 1), (PH_ROLE_RAIL, 63, 15), (PH_STATUS_STATE, 63, 4), (PH_RPERNOW_PER, 15, 4000)]
       leadOf d 15 = some 63 ∧ (valleyDue d 63).isSome = true ∧ d.h .commitAt 15 ≠ d.now + 1)
    ∧ domOn (up []) 0 = true := by decide +kernel

theorem test_meets_PhaseSwitching :
    let fs := [(PH_ROLE_ROLE, 63, 1), (PH_ROLE_RAIL, 63, 15), (PH_STATUS_STATE, 63, 4), (PH_RPERNOW_PER, 15, 4000),
      (FL_STATUS_MODE, 15, 1)]
    (let d := fix ((PH_ROLE_ROLE, 3, 1) :: (PH_ROLE_RAIL, 3, 15) :: (PH_STATUS_STATE, 3, 4) :: fs)
     phDom d 63 < 17 ∧ d.h .valleyAt 63 ≠ d.now + 1 ∧ leadOf d 15 ≠ some 63 ∧ (valleyHere d 63).isSome = true)
    ∧ (let d := fix fs [(.commitAt, 15, 1)]; d.h .valleyAt 63 ≠ d.now + 1 ∧ leadOf d 15 = some 63 ∧ (valleyHere d 63).isSome = true)
    ∧ (let d := fix fs [(.railTime, 15, 4000), (.dEdge, 15, 20000)]
       pulsing d 63 = true ∧ d.f PH_STATUS_PWM 63 ≠ pwmHigh ∧ d.hon .pulseMade 63 = false ∧ d.on PH_STATUS_CBC 63 = false
       ∧ ((List.range 32).find? (mayRise d 63)).isSome = true)
    ∧ (let d := fix ((PH_STATUS_PWM, 63, 2) :: fs) [(.railTime, 15, 7990), (.dEdge, 15, 20000)]
       pulsing d 63 = true ∧ d.f PH_STATUS_PWM 63 = pwmHigh ∧ ((List.range 32).find? (mustFall d 63)).isSome = true)
    ∧ (let d := fix [(FB_PSTAT_CBC, 0, 1), (PH_STATUS_PWM, 0, 2)]
       d.on FB_PSTAT_CBC 0 = true ∧ d.on PH_STATUS_CBC 0 = false ∧ d.f PH_STATUS_PWM 0 = pwmHigh)
    ∧ (let d := fix [(FB_PSTAT_NOC, 0, 1), (PH_STATUS_PWM, 0, 1)]
       d.on FB_PSTAT_NOC 0 = true ∧ d.f PH_STATUS_PWM 0 = pwmLow)
    ∧ (let d := fix ((RL_STATUS_NS_FORCE, 15, 1) :: (PH_STATUS_PWM, 63, 1) :: fs)
       nsAct d (phDom d 63) = true ∧ d.f PH_STATUS_PWM 63 = pwmLow ∧ d.fi PH_IMEAS_I 63 ≤ d.a PH_CFG_ZCTH 63)
    ∧ (let d := fix [(PH_STATUS_AZ_BUSY, 7, 1)] [(.azCnt, 7, 256)]
       d.on PH_STATUS_AZ_BUSY 7 = true ∧ 256 ≤ d.h .azCnt 7)
    ∧ phState (fix [(PH_STATUS_STATE, 63, 2)]) 63 = phArming := by decide +kernel

theorem test_meets_StageBusEvents :
    (let d := fix [(PH_MAP_CTL_BUSY, 0, 1)] [(.mapRound, 0, 3)]
     sbusOpen d = true ∧ d.on PH_MAP_CTL_BUSY = true ∧ (0xFF : Byte).toNat / 64 = d.hn .mapRound 0)
    ∧ (∀ st ∈ [1, 8], let d := fix [(PH_STATUS_STATE, 63, st)] [(.toneNow, 0, 64)]
       sbusOpen d = true ∧ d.hn .toneNow = (63 : Phase).val + 1 ∧ (phState d 63 = phTone ↔ st = 1) ∧ ∀ a ∈ d.toneAns, a.code ≠ toneCode d 63)
    ∧ (let a : ToneAns := { bus := 3, addr := 0x2F, code := 63 }
       let t : Target := { bus := 3, addr := 0x2F, pid := 1, desc := [], ok := true, lost := false, conflict := false }
       let d : Dev := { fix [(PH_STATUS_STATE, 63, 1)] [(.toneNow, 0, 64)] with toneAns := [a], targets := [t] }
       sbusOpen d = true ∧ d.hn .toneNow = (63 : Phase).val + 1 ∧ d.toneAns.filter (fun a => a.code == toneCode d 63) = [a]
       ∧ d.targets.find? (fun x => x.bus == a.bus && x.addr == a.addr) = some t)
    ∧ (sbusOpen (fix []) = true ∧ (fix []).hn .toneNow = 0 ∧ phaseOfStage (fix []) 0 0x20 = none)
    ∧ (sbusOpen (fix [(PD_DSTAT_HELD, 0, 1)]) = false ∧ sbusOpen (fix [(PD_ONA_DOM, 0, 0)]) = false)
    ∧ (let d := fix [(PH_STAGE_MAPPED, 63, 1), (PH_STAGE_BUS, 63, 3), (PH_STAGE_DADDR, 63, 0x2F)]
       sbusOpen d = true ∧ phaseOfStage d 3 0x2F = some 63 ∧ 16 ≤ phDom d 63)
    ∧ (let d := (fix [(PH_STAGE_MAPPED, 63, 1), (PH_STAGE_BUS, 63, 3), (PH_STAGE_DADDR, 63, 0x2F)]).setR PH_DESC (63 * 32 + 13) 0x9600
       sbusOpen d = true ∧ phaseOfStage d 3 0x2F = some 63 ∧ stageTemp d 63 100 < ((descByte d 63 0x35 : Int) - 40) * 16)
    ∧ (let d := fix [(PH_SB_CFG_EN, 3, 1), (PH_SB_CFG_HJ_EN, 3, 1)]
       sbusOpen d = true ∧ d.on PH_SB_CFG_EN 3 = true ∧ d.on PH_SB_CFG_HJ_EN 3 = true ∧ (d.targets.filter fun t => t.bus == 3).length < 16)
    ∧ (fix [(PH_SB_STATUS_ROLL, 3, 1)]).on PH_SB_STATUS_ROLL 3 = true
    ∧ (let d := fix [(PH_SB_CFG_EN, 3, 1), (PH_SB_CFG_ROLL_MS, 3, 1)]
       sbusOpen d = true ∧ d.on PH_SB_CFG_EN 3 = true ∧ d.on PH_SB_CFG_ROLL_MS 3 = true)
    ∧ (let d := fix [(PH_SACC_CMD_BUSY, 0, 1)]; sbusOpen d = true ∧ d.on PH_SACC_CMD_BUSY = true ∧ d.on PH_SACC_CMD_WR = false) := by
  decide +kernel

theorem test_meets_GroveEvents :
    (let x : GvTrig := { grove := 15, kind := 1, sel := 3, stamp := 0 }
     let ok (st : Nat) : Bool :=
       let d : Dev := { up [(GV_TCFG_EN, 15 * 64 + 63, 1), (GV_TCFG_TRIG, 15 * 64 + 63, 1), (GV_TCFG_TSEL, 15 * 64 + 63, 3),
         (GV_TSTAT_STATE, 15 * 64 + 63, st)] with gvTrigs := [x] }
       let i := tk 15 63
       decide (d.gvTrigs.find? (fun x => x.grove == 15) = some x ∧ gvOn d 15 = true
         ∧ (∀ u : Fin 64, u ≠ 63 → d.on GV_TCFG_EN (tk 15 u) = false) ∧ d.on GV_TCFG_EN i = true ∧ d.f GV_TCFG_TRIG i = x.kind
         ∧ d.f GV_TCFG_TSEL i = x.sel % 256 ∧ x.kind ≠ 2 ∧ d.f GV_TCFG_DIV i = 0 ∧ d.f GV_TSTAT_STATE i = st)
     ok 1 = true ∧ ok 2 = true ∧ ok 3 = true ∧ ok 4 = true)
    ∧ (let d := up [(GV_CFG_EN, 3, 1), (GV_TSTAT_STATE, 3 * 64, 2)] [(.gEng, 3 * 64, 1)]
       d.on GV_CFG_EN 3 = true ∧ gvOn d 3 = true ∧ nextTask d 3 = some (0, none))
    ∧ (let p : Pass := { grove := 15, task := 0, e1 := 33, e2 := 64, tag := 0, stamp := 0, start := 0, rep := false, cmp := [],
                         test := 0, failed := 0, tests := 0, gone := false }
       passOn { up [] with passes := [p] } 15 33 = some p)
    ∧ (let d := up [] [(.gEng, eg 0 33, 5)]; gvOn d 0 = true ∧ d.h .gEng (eg 0 33) = 5)
    ∧ (let x : SteerItem := { grove := 2, kind := 0, off := 0, tag := 0, val := 0 }
       let y : SteerItem := { x with grove := 3, kind := 2 }
       let d : Dev := { up [] with steerq := [x, y] }
       d.steerq.find? (fun x => x.grove == 2) = some x ∧ x.kind = 0 ∧ d.steerq.find? (fun x => x.grove == 3) = some y ∧ y.kind ≠ 0)
    ∧ (let d := up [] [(.capSt, 4, 2), (.capCnt, 4, 1024)]
       d.hn .capSt 4 = 2 ∧ d.hn .capCnt 4 = 1024 ∧ capF d 4 16 8 = 0) := by decide +kernel

/-- The AVSBus port with rail 3 behind select 1, that rail owned by the partition of the bus. -/
def avs : Dev := up [(IG_AVS_CFG_EN, 0, 1), (IG_AVS_CFG_VALID, 0, 2), (PX_GCFG_FUNC, 8, 5), (PX_GCFG_FUNC, 9, 5),
  (PX_STATUS_VIOA, 0, 1), (PX_STATUS_VIOB, 0, 1), (PX_STATUS_VIOC, 0, 1), (PX_STATUS_VIOD, 0, 1), (IG_AVSWIN_MAX, 0, 16383)]

theorem test_meets_AvsFrames :
    avsRuns avs = true ∧ avsRail avs 1 = some 0 ∧ avsRail avs 7 = none ∧ regPowered avs FL_REF 0 = true
    ∧ railOwner avs 0 = (avs.f IG_AVS_CFG_PART, false)
    ∧ (let d := avs.setF IG_AVS_CFG_PART 0 1
       avsRuns d = true ∧ avsRail d 1 = some 0 ∧ regPowered d FL_REF 0 = true ∧ railOwner d 0 ≠ (d.f IG_AVS_CFG_PART, false))
    ∧ (avs.f IG_AVSWIN_MIN 0 : Int) ≤ avsTarget avs 0 0 ∧ avsTarget avs 0 0 ≤ avs.f IG_AVSWIN_MAX 0
    ∧ (avs.f IG_AVSWIN_MAX 0 : Int) < avsTarget avs 0 0xFFFF
    ∧ (let d := avs.setF IG_AVSWIN_MIN 0 1
       avsRuns d = true ∧ avsRail d 1 = some 0 ∧ regPowered d FL_REF 0 = true ∧ avsTarget d 0 0 < d.f IG_AVSWIN_MIN 0)
    ∧ (0x0101 : BitVec 16).toNat / 256 = (0x0101 : BitVec 16).toNat % 256 ∧ usat (avsSlew avs 0 1) 16 ≠ 0
    ∧ usat (avsSlew avs 0 0) 16 = 0 := by decide +kernel

theorem test_meets_RailLifecycle :
    (let d := fix [(RL_STATUS_STATE, 15, 1), (RL_SEQ_TMO_TMO, 15, 1)]; domOn d 0 = true ∧ rlState d 15 = rlPending ∧ d.on RL_SEQ_TMO_TMO 15 = true)
    ∧ (let d := fix [(RL_STATUS_STATE, 15, 1), (RL_CTL_EN, 15, 1), (RL_SEQ_ON_DEP, 15, 1), (RL_STATUS_PG, 0, 1)]
       domOn d 0 = true ∧ rlState d 15 = rlPending ∧ d.on RL_CTL_EN 15 = true
       ∧ ∀ j, j < 16 → (d.f RL_SEQ_ON_DEP 15).testBit j = true → d.on RL_STATUS_PG j = true)
    ∧ (let d := fix [(RL_STATUS_OFF_WAIT, 15, 1), (RL_SEQ_OFF_DEP, 15, 1)]
       domOn d 0 = true ∧ abortDue d 15 = none ∧ d.on RL_STATUS_OFF_WAIT 15 = true ∧ ∀ j, j < 16 → (d.f RL_SEQ_OFF_DEP 15).testBit j = true → rlState d j = rlOff)
    ∧ (let d := fix [(RL_STATUS_STATE, 15, 4), (RL_STATUS_OFF_WAIT, 15, 1), (RL_SEQ_OFF_DEP, 15, 1), (RL_TRK_TIME, 15, 9)] [(.trkRun, 15, 9)]
       domOn d 0 = true ∧ abortDue d 15 = some true ∧ d.on RL_STATUS_OFF_WAIT 15 = true
       ∧ ∀ j, j < 16 → (d.f RL_SEQ_OFF_DEP 15).testBit j = true → rlState d j = rlOff)
    ∧ (let d := fix [(RL_STATUS_STATE, 15, 2), (RL_CFG_MIN_PH, 15, 1), (PH_ROLE_ROLE, 63, 1), (PH_ROLE_RAIL, 63, 15),
         (PH_STATUS_STATE, 63, 3)]
       domOn d 0 = true ∧ rlState d 15 = rlArming ∧ phasesIn d 15 phArming = [] ∧ d.f RL_CFG_MIN_PH 15 ≤ narmed d 15)
    ∧ (let d := fix [(RL_STATUS_STATE, 15, 2), (RL_CFG_MIN_PH, 15, 1)]; domOn d 0 = true ∧ rlState d 15 = rlArming ∧ narmed d 15 < d.f RL_CFG_MIN_PH 15)
    ∧ (let d := fix [(RL_STATUS_STATE, 15, 3), (RL_PB_HIGH, 15, 1), (RL_PB_MIN, 15, 1), (FL_WIN_CENTRE, 15, 0x2000)] [(.pbLeft, 15, 14)]
       let p (v : Int) : Dev := d.each 14 fun d _ => pbStep d 15 v
       let sensed (v : Int) : Nat := (p v).f FL_WIN_CENTRE 15
       let high (d : Dev) (v : Int) : Prop := d.a FL_REF_TGT 15 * 100 + d.f RL_PB_HIGH 15 * 2048 < sensed v * 100
       let pre (v : Int) : Prop := d.f RL_PB_MIN 15 * 2048 ≤ sensed v * 100
       domOn d 0 = true ∧ rlState d 15 = rlPrebias ∧ d.hn .pbLeft 15 = 14 ∧ sensed (-1) = 0 ∧ sensed 2048 = 20 ∧ sensed 2199 = 21
       ∧ sensed 1638400 = 16383 ∧ high d 2199 ∧ ¬high d (-1) ∧ ¬pre (-1) ∧ ¬pre 2048
       ∧ (let e := d.setF RL_PB_HIGH 15 3; ¬high e 2199 ∧ pre 2199)) := by
  decide +kernel

theorem test_meets_RailLifecycle_events :
    (let d := fix [(RL_STATUS_STATE, 15, 4), (RL_TRK_TIME, 15, 9), (RL_TRK_CBC_N, 15, 4)] [(.trkRun, 15, 9)]
     domOn d 0 = true ∧ rlState d 15 = rlSoftStart ∧ (d.f RL_TRK_TIME 15 ≤ d.hn .trkRun 15 ∨ d.f RL_TRK_CBC_N 15 ≤ d.hn .trkCbc 15))
    ∧ (let d := fix [(RL_STATUS_STATE, 15, 7)]; domOn d 0 = true ∧ rlState d 15 = rlHiccup)
    ∧ (∀ st ∈ [4, 5],
        let d := fix [(RL_STATUS_STATE, 15, st), (RL_PG_WIN, 15, 2), (FL_ERR_X, 15, -512), (RL_TRK_TIME, 15, 9), (RL_TRK_CBC_N, 15, 4),
          (RL_SS_TMO, 15, 1)] [(.rampDone, 15, 1)]
        domOn d 0 = true ∧ abortDue d 15 = none ∧ abortDue ({ d with tb := 20000 } : Dev) 15 = (if st = 4 then some false else none)
        ∧ d.on RL_STATUS_PG 15 = false ∧ d.hon .rampDone 15 = true ∧ (d.fi FL_ERR_X 15).natAbs ≤ d.f RL_PG_WIN 15 * 256)
    ∧ (let d := fix [(RL_STATUS_STATE, 15, 5), (RL_STATUS_PG, 15, 1), (RL_PG_FILT, 15, 5)] [(.pgBad, 15, 20)]
       domOn d 0 = true ∧ d.on RL_STATUS_PG 15 = true ∧ d.f RL_PG_FILT 15 * 4 ≤ d.hn .pgBad 15 ∧ rlState d 15 = rlOn)
    ∧ (let d := fix [(RL_STATUS_STATE, 15, 6)] [(.shutPend, 15, 1), (.stopMode, 15, 1)]
       domOn d 0 = true ∧ shutdownReady d 15 = true ∧ rlState d 15 = rlStopping ∧ d.hon .shutPend 15 = true) := by decide +kernel

theorem test_meets_FirebreakDecisions :
    (let d := fix [(FB_RSTAT_OV, 15, 1), (FB_RSTAT_UV, 15, 1), (FB_RSTAT_ABS, 15, 1), (FB_RSTAT_OFF_ACT, 15, 2)]
     domOn d 0 = true ∧ d.on FB_RSTAT_OV 15 = true ∧ d.hon .ovDone 15 = false ∧ d.on FB_RSTAT_UV 15 = true ∧ d.hon .uvDone 15 = false
     ∧ d.on FB_RSTAT_ABS 15 = true ∧ d.hon .absDone 15 = false ∧ d.f FB_RSTAT_OFF_ACT 15 = 2)
    ∧ (let d := fix [(RL_OFF_VEND, 15, 1), (FB_RSTAT_OFF_ACT, 15, 2)] [(.vPin, 15, 2047)]
       domOn d 0 = true ∧ d.f FB_RSTAT_OFF_ACT 15 = 2 ∧ belowVend d 15 = true)
    ∧ (let d := fix [(FB_RTEST_BUSY, 15, 1)] [(.testCnt, 15, 128)]; domOn d 0 = true ∧ d.on FB_RTEST_BUSY 15 = true ∧ d.hn .testCnt 15 = 128)
    ∧ (let d := fix [(FB_RADAPT_EN, 15, 1), (RL_STATUS_STATE, 15, 5), (FB_RADAPT_OV_FE, 15, 1), (FB_RCFG_OV_F, 15, 0),
         (FB_RCFG_OV_CEIL, 15, 2)]
       domOn d 0 = true ∧ d.on FB_RADAPT_EN 15 = true ∧ rlState d 15 = rlOn ∧ d.on FL_STEER_GLADE 15 = false
       ∧ d.hn .ovNear 15 = 0 ∧ d.f FB_RCFG_OV_F 15 < d.f FB_RADAPT_OV_FE 15
       ∧ d.f FB_RADAPT_GTH 15 ≤ (d.setH .ovNear 15 255).hn .ovNear 15 ∧ d.f FB_RADAPT_OV_FE 15 < d.f FB_RCFG_OV_CEIL 15)
    ∧ (let d := fix [(FB_RADAPT_EN, 15, 1)]; domOn d 0 = true ∧ rlState d 15 ≠ rlOn)
    ∧ (let d := fix [(FB_PSTAT_HOC, 63, 1), (PH_STATUS_PWM, 63, 1), (FB_PSTAT_HSS_CNT, 63, 15)]
       domOn d 0 = true ∧ d.on FB_PSTAT_HOC 63 = true ∧ d.hon .hocDone 63 = false ∧ d.f PH_STATUS_PWM 63 ≠ pwmTri
       ∧ d.f FB_PHOC_HSS_N 63 ≤ d.f FB_PSTAT_HSS_CNT 63)
    ∧ (let d := fix [(FB_DSTAT_SRC, 0, 0x71)]
       domOn d 0 = true ∧ ∀ x : Nat, x ∈ [0, 4, 5, 6] → (d.f FB_DSTAT_SRC).testBit x = true ∧ d.hn .devDone x ≠ 1) := by decide +kernel

/-- An intent of rail 15 whose grant is fixed, with a store part. -/
def anIntent : Intent :=
  { rail := 15, slot := 3, lane := 0, orig := 0, id := 255, delta := 1, stamp := 0, arr := 0, dur := 0, conf := 0,
    rise := 0, te := 0, live := false, valid := true, gd := 1, cap := 0, watts := 0, part := 1, resv := 0, base := 0,
    cross := 0, mSum := 0, mCnt := 0, pt := 0 }

theorem test_meets_StoreEvents :
    (let d := fix [(PH_ROLE_ROLE, 63, 2), (PH_STATUS_STATE, 63, 4)]
     domOn d 0 = true ∧ leadOf d 16 = some 63 ∧ (valleyDue d 63).isSome = true ∧ d.h .commitAt 16 ≠ d.now + 1)
    ∧ (let i := anIntent
       let d : Dev := { fix [] with intents := [i, { i with id := 254, pt := 1 }] }
       let find (id : BitVec 16) (ends : Bool) : List Intent :=
         d.intents.filter (fun i => i.rail == 15 && i.slot == id.toNat / 256 % 4 && i.id == id.toNat % 256 && i.valid
           && 0 < i.part && decide ((if ends then i.arr + (i.dur : Int) * 2000 else i.arr) ≤ (d.now : Int))
           && i.pt == (if ends then 1 else 0))
       domOn d 0 = true ∧ find 0x3FF false = [i] ∧ find 0x3FE true = [{ i with id := 254, pt := 1 }])
    ∧ (let d := fix [(ST_STATUS_STATE, 0, 2)]; domOn d 0 = true ∧ d.f ST_STATUS_STATE = stQualify ∧ saneVolts d (d.f ST_VMEAS_VSTORE) = true)
    ∧ (let d := fix [(ST_STATUS_STATE, 0, 5)] [(.sHoldOk, 0, 1000)]; domOn d 0 = true ∧ d.f ST_STATUS_STATE = stHoldup ∧ 1000 ≤ d.h .sHoldOk)
    ∧ (let d := fix [(ST_CEIL_LIM, 0, 1), (ST_ESC_TREL, 0, 9), (ST_ESC_DDLY, 0, 7)] [(.sRunR, 0, 9), (.sRunD, 0, 7)]
       domOn d 0 = true ∧ d.f ST_ESC_TREL ≤ d.hn .sRunR ∧ d.on ST_CEIL_LIM = true ∧ d.f ST_ESC_DDLY ≤ d.hn .sRunD)
    ∧ (let d := fix [] [(.dEffPend, 15, 1)]; domOn d 0 = true ∧ d.hon .dEffPend 15 = true)
    ∧ (let d := fix [(ST_ESC_DREL, 0, 3)] [(.dLevel, 15, 1), (.dRelRun, 15, 30)]
       domOn d 0 = true ∧ droopLevel d ≠ 0 ∧ d.f ST_ESC_DREL * 10 ≤ d.hn .dRelRun (droopLevel d))
    ∧ (let d := fix [] [(.sSession, 0, 1), (.sSessIdle, 0, 1)]; domOn d 0 = true ∧ d.hon .sSession = true ∧ d.hon .sSessIdle = true)
    ∧ (let d := fix [] [(.sRamping, 0, 1), (.sRampTick, 0, 10)]; domOn d 0 = true ∧ d.hon .sRamping = true ∧ 10 ≤ d.h .sRampTick) := by
  decide +kernel

theorem test_meets_LinkTraining :
    (∀ st ∈ [lnOff, lnDetect, lnPoll, lnConfig, lnRate, lnEq, lnCheck, lnActive, lnRecover, lnDown],
      lnState (fix [(LN_STATUS_STATE, 11, st)]) 11 = st ∧ lnState (fix [(LN_CFG_WIDTH, 8, 2), (LN_STATUS_STATE, 8, st)]) 11 = st)
    ∧ (∀ f ∈ [0, 3], let d := fix [(LN_STATUS_WIDTH, 0, 2)] [(.lPWidth, 0, f)]
       (d.hn .lPWidth 0 = 0 ∨ d.hn .lPWidth 0 = (2 : Fin 4).val + 1) ∧ d.on LN_STATUS_WIDTH 0 = true)
    ∧ (let d := fix [(LN_STATUS_WIDTH, 0, 2)] [(.lPWidth, 0, 2)]
       ¬(d.hn .lPWidth 0 = 0 ∨ d.hn .lPWidth 0 = (2 : Fin 4).val + 1 ∨ d.on LN_STATUS_WIDTH 0 = false))
    ∧ lrxHeld (fix [(PD_DSTAT_HELD, 11, 1)]) 11 = true
    ∧ (let d := fix [(LN_STATUS_WIDTH, 0, 2), (LN_VER_LVER, 0, 1)] [(.lRates, 0, 15)]
       (2 : Fin 4).val = d.f LN_STATUS_WIDTH 0 ∧ (1 : Byte).toNat = d.f LN_VER_LVER
       ∧ (∀ j, j < 4 → (d.hn .lRates 0 &&& (9 : BitVec 4).toNat).testBit j = true → j ≤ 3)
       ∧ (d.hn .lRates 0 &&& (9 : BitVec 4).toNat).testBit 3 = true)
    ∧ (let d := fix [(LN_CFG_WIDTH, 8, 2), (LN_STATUS_WIDTH, 8, 2)]
       lrxHeld d 11 = false ∧ leadLane d 11 = 8 ∧ carriers d 8 = [8, 9, 10, 11] ∧ (11 : Lane).val ∈ carriers d 8 ∧ d.on LN_STATUS_WIDTH 8 = true
       ∧ (∃ m ∈ carriers d 8, m ≠ 11 ∧ d.hbit .lMemb 8 (m - 8) = false)
       ∧ ((carriers d 8).filter fun m => !d.hbit .lMemb 8 (m - 8)).length = 4
       ∧ (let e := d.setH .lMemb 8 7
          (∀ m ∈ carriers e 8, m ≠ 11 → e.hbit .lMemb 8 (m - 8) = true)
          ∧ ((carriers e 8).filter fun m => !e.hbit .lMemb 8 (m - 8)) = [11]))
    ∧ (let d := fix [(LN_CFG_WIDTH, 8, 2), (LN_STATUS_WIDTH, 8, 1)]; (11 : Lane).val ∉ carriers d (leadLane d 11))
    ∧ ((1 : Fin 4).val ≠ (fix []).f LN_STATUS_WIDTH 0 ∧ (fix []).hn .lRates 0 &&& 15 = 0)
    ∧ (let e := fix [] [(.lRates, 8, 15), (.lPRates, 8, 9)]
       (e.hn .lRates 8 &&& e.hn .lPRates 8).testBit 3 = true
       ∧ ∀ j, j < 4 → (e.hn .lRates 8 &&& e.hn .lPRates 8).testBit j = true → j ≤ 3)
    ∧ (fix [] [(.lEqSent, 11, 1)]).hon .lEqSent 11 = true
    ∧ (fix [] [(.lRttCnt, 11, 3)]).h .lRttCnt 11 = 3 ∧ 4 ≤ (fix [] [(.lRttCnt, 11, 4)]).h .lRttCnt 11
    ∧ (fix [(LN_CTL_AUTO, 11, 1)]).on LN_CTL_AUTO 11 = true ∧ (fix [(LN_CTL_AUTO, 11, 0)]).on LN_CTL_AUTO 11 = false := by
  decide +kernel

/-- An identity frame of 46 bytes and its CRC. -/
def idFrame : List Nat :=
  let b := [1, 1, 0, 0, 5, 0] ++ List.replicate 12 0 ++ [4] ++ List.replicate 27 0
  b ++ leBytes 2 (crc16 b)

theorem test_meets_LinksAtWork :
    (let d := fix [(LN_STATUS_STATE, 11, 7)] [(.lAckDue, 11, 1), (.lFreed, 10, 1)]
     lrxHeld d 11 = false ∧ d.f LN_STATUS_STATE 11 = lnActive ∧ (d.hon .lAckDue 11 = true ∨ d.hon .lFreed 11 = true)
     ∧ (d.hon .lAckDue 10 = false ∧ d.hon .lFreed 10 = true) ∧ d.on LN_STATUS_UP 11 = false
     ∧ identityOk d 11 idFrame = true)
    ∧ (∀ t ∈ [(0x12 : Byte), 0x14], 0x12 ≤ t.toNat ∧ t.toNat ≤ 0x14) ∧ (∀ t ∈ [(0x26 : Byte), 0x3F], 0x26 ≤ t.toNat ∧ t.toNat < 0x40)
    ∧ (let d := fix [(LN_STATUS_STATE, 11, 7)] [(.lSkip, 11, 1024)]
       d.f LN_STATUS_STATE (leadLane d 11) = lnActive ∧ (11 : Lane).val ∈ carriers d (leadLane d 11) ∧ 1024 ≤ d.h .lSkip 11)
    ∧ (∀ st ∈ [4, 6], let d := fix [(LN_STATUS_STATE, 11, st)]; lrxHeld d 11 = false ∧ lnRate ≤ lnState d 11 ∧ lnState d 11 ≤ lnCheck)
    ∧ (∀ st ∈ [4, 8], let d := fix [(LN_STATUS_STATE, 11, st)] [(.lSkip, 11, 1024)]
       lnRate ≤ lnState d 11 ∧ lnState d 11 ≤ lnRecover ∧ (11 : Lane).val ∈ carriers d (leadLane d 11) ∧ 1024 ≤ d.h .lSkip 11)
    ∧ lrxHeld (fix [(PD_DSTAT_HELD, 11, 1)]) 11 = true
    ∧ (fix [(LN_GRP_PWR, 2, 1)]).on LN_GRP_PWR 2 = true := by decide +kernel

/-- Rail 15 coupled over lane 11, which is up, in group 255, with a peer. -/
def coupled (fs : List (Fld × Nat × Int)) : Dev :=
  { up ([(IG_CPL_EN, 15, 1), (IG_CPL_LNK_VALID 2, 15, 1), (IG_CPL_LNK_LANE 2, 15, 11), (IG_CPL_GROUP, 15, 255),
      (LN_STATUS_UP, 11, 1), (LN_STATUS_STATE, 11, 7)] ++ fs) with peers := [
        { rail := 15, p := 2, idx := 1, prio := 0, devid := 0, vcur := 1, vprev := 1, feat := 0, featp := 0, nph := 1, heard := true,
          inSet := true, away := false, master := false, mstate := 0, isum := 0, nsw := 0, cap := 0, miss := 255, hello := true }] }

/-- The device with lane l's crossing to the intent logic full (R28). -/
def full (d : Dev) (l : Nat) : Dev := (d.setH .xCnt (16 + l) 16).setH .xAt (16 + l) (d.now + 1)

theorem test_meets_CoupledRailFrames :
    (let d := coupled []
     domOn d 0 = true ∧ lrxHeld d 11 = false ∧ d.on IG_CPL_EN 15 = true ∧ cplRole d 15 = cplNone ∧ (∃ x, x ∈ peersOn d 15 ∧ x.p = 2 ∧ d.f IG_CPL_GAIN_MISS 15 ≤ x.miss)
     ∧ linkUp d (leadLane d 11) = true ∧ cplRails d (leadLane d 11) = [(15, 2)] ∧ cplRole d 15 ≠ cplMaster)
    ∧ (let pay : BitVec 104 := 0xFF010000000000000000000000#104
       (coupled []).f IG_CPL_GROUP 15 = pay.toNat / 2 ^ 96 % 2 ^ 8 ∧ pay.toNat / 2 ^ 88 % 2 ^ 8 = 1)
    ∧ (let pay : BitVec 104 := 0xFF020000000000000000000000#104
       (coupled []).f IG_CPL_GROUP 15 = pay.toNat / 2 ^ 96 % 2 ^ 8 ∧ pay.toNat / 2 ^ 88 % 2 ^ 8 = 2)
    ∧ (let d := coupled []
       d.laneFill 11 < 16 ∧ (d.setH .cHelloDue 15 1).hon .cHelloDue 15 = true
       ∧ cplRole d 15 ≠ cplMaster ∧ cplRole d 15 ≠ cplMember ∧ d.hn .cHelloAt 15 ≤ d.now + 1 - 2000000)
    ∧ 16 ≤ (full (coupled []) 11).laneFill 11
    ∧ (coupled []).f IG_CPL_GROUP 15 ≠ 0 ∧ cplRole (coupled [(IG_CPLSTAT_ROLE, 15, 1)]) 15 ≠ cplNone := by
  refine ⟨?_, ?_⟩
  · refine ⟨?_, ?_, ?_, ?_, ⟨_, List.mem_cons_self, ?_, ?_⟩, ?_⟩ <;> decide +kernel
  · decide +kernel

/-- Rail 15 takes intents of slot 3 from lane 11, which is up. -/
def intents (fs : List (Fld × Nat × Int)) : Dev :=
  (up ([(IG_RCFG_EN, 15, 1), (LN_RAILS_RAILS, 11, 0x8000), (LN_STATUS_UP, 11, 1), (LN_STATUS_STATE, 11, 7), (IG_SLOTS_EN 3, 15, 1),
    (IG_SLOTS_LANE 3, 15, 11)] ++ fs)).setR LN_PID (11 * 12 + 1) 0x10000

theorem test_meets_IntentsAndGrants :
    (let may (d : Dev) (L f : Nat) : Prop := d.on IG_RCFG_EN f = true ∧ (d.f LN_RAILS_RAILS L).testBit f = true ∧ linkUp d L = true
       ∧ partnerCap d L 0 = true
     let d := intents [(RL_STATUS_STATE, 15, 5)]
     domOn d 0 = true ∧ lrxHeld d 11 = false ∧ slotOf d 0 11 11 = none ∧ slotOf d 15 11 11 = some 3 ∧ may d 11 15 ∧ cplRole d 15 ≠ cplDown ∧ cplRole d 15 ≠ cplMember
     ∧ rlState d 15 = rlOn ∧ rlState (intents []) 15 ≠ rlOn ∧ ¬may (intents [(IG_RCFG_EN, 15, 0)]) 11 15)
    ∧ (let pay : BitVec 104 := 0xF010FFF0FA0001000000000000#104
       let f (hi lo : Nat) : Nat := pay.toNat / 2 ^ lo % 2 ^ (hi + 1 - lo)
       f 103 100 = 15 ∧ (f 91 76 : Int).bmod 65536 ≠ 0 ∧ f 59 44 ≠ 0
       ∧ ((16000 : Nat) : Int) + 2 * f 75 60 - (intents []).f LN_LAT_RTT 11 / 2 - (16000 : Nat) ≤ 16000)
    ∧ (let i : Intent := { anIntent with live := true }
       let d : Dev := { intents [] with intents := [i] }
       (liveOn d 15).find? (fun i => i.slot == 3 && i.orig == 0 && i.id == 255) = some i
       ∧ d.intents.filter (fun i => i.rail == 15 && i.slot == 3 && i.id == 255 && i.valid
           && decide (i.arr + i.dur * 2000 ≤ (d.now : Int))) = [i])
    ∧ (intents []).now % 16 = 0
    ∧ (let d : Dev := { intents [(IG_DCFG_STPER, 0, 255)] with tb := 509999 }
       d.on IG_DCFG_STPER = true ∧ isMember d 11 = false ∧ (d.setH .igStAt 11 0).hn .igStAt 11 ≤ d.now + 1 - d.f IG_DCFG_STPER * 2000)
    ∧ (intents []).laneFill 11 < 16 ∧ 16 ≤ (full (intents []) 11).laneFill 11
    ∧ (let d := intents [(PD_DSTAT_HELD, 11, 1)]; domOn d 0 = true ∧ lrxHeld d 11 = true)
    ∧ (domOn (coupled []) 0 = true ∧ lrxHeld (coupled []) 11 = false ∧ linkUp (coupled []) 11 = true ∧ cplRails (coupled []) 11 = [(15, 2)]) := by decide +kernel

/-- A result record of converter 7, on its way to ring 5. -/
def aRecord : TcRec := { conv := 7, w0 := 0xFFFFFFFF, w1 := 0, stamp := 0, handed := true }

/-- A charter of one partition that owns everything. -/
def owned (d : Dev) : Dev :=
  [(1, 0x00000100), (0x10, 0x0F000000), (0x11, 0x010F7800), (0x13, 0x0000F000), (0x14, 0x80004000)].foldl
    (fun d x => d.setR CH_CHARTER x.1 x.2) d

/-- A ring of that size code in service at 0x10000000, of 2 elements, with `head` of them produced. -/
def withRing (s : State) (r esz head : Nat) : State :=
  setCtx (setCtx (setCtx (setCtx s r 0 0x10000000) r 1 (1 + 256 * esz + 2 ^ 12)) r 2 head) r 5 0x00010000

theorem test_meets_ConverterSequencers :
    (∀ st ∈ [0, 1, 2, 3], let d := up [(TC_CTL_EN, 7, 1), (TC_STATUS_STATE, 7, st)]
      d.on TC_CTL_EN 7 = true ∧ domOn d 12 = true ∧ d.f TC_STATUS_STATE 7 = st ∧ d.on TC_CFG_MODE 7 = false
      ∧ d.hn .tcPerAt 7 ≤ d.now)
    ∧ (let x : TcSeq := { conv := 7, steps := [0], cur := 0, disc := true, start := 0, stop := 0 }
       let d : Dev := { fix [(TC_CTL_EN, 7, 1), (TC_STATUS_STATE, 7, 1), (TC_CFG_MODE, 7, 1), (TC_CFG_TSRC, 7, 4)] with
         tcSeqs := [x], tb := 400 }
       tcSeqOf d 7 = some x ∧ x.start + 400 ≤ d.now ∧ x.stop = 0 ∧ d.on TC_CFG_RAW 7 = false ∧ x.steps.length ≤ x.cur + 1
       ∧ d.on TC_CTL_EN 7 = true ∧ d.f TC_STATUS_STATE 7 = 1 ∧ d.on TC_CFG_MODE 7 = true
       ∧ (fix [(TC_CFG_TSRC, 7, 2)]).f TC_CFG_TSRC 7 = 2 ∧ (fix [(TC_CFG_TSRC, 7, 1)]).f TC_CFG_TSRC 7 = 1)
    ∧ (let s := withRing (at_ { owned (up [(TC_RING_RING, 7, 5)]) with tcRecs := [aRecord] }) 5 0 0
       domOn s.dev 0 = true ∧ s.dev.tcRecs.find? (fun r => r.conv == 7 && r.handed) = some aRecord ∧ aRecord.w0 < 2 ^ 32
       ∧ s.dev.hn .tcHand 7 ≤ s.dev.now ∧ s.dev.f TC_RING_RING 7 = 5
       ∧ ringOwner s.dev 5 = (convOwner s.dev 7, false) ∧ (ringPut s 5 (List.replicate 16 0)).1 = true
       ∧ ringOwner s.dev 0xFFFF ≠ (convOwner s.dev 7, false))
    ∧ (let s := withRing (at_ (owned (up [(TC_RING_RING, 7, 5)]))) 5 0 2; (ringPut s 5 (List.replicate 16 0)).1 = false) := by decide +kernel

theorem test_meets_TrailsRingsAndDma :
    (let e : PortEv := { cons := 0, trail := 0, src := 0x400, stamp := 0 }
     let s := at_ (owned (up []))
     domOn s.dev 0 = true ∧ deliverOk s e = true ∧ deliverOk s { e with trail := 4095, cons := 0x5FF } = false
     ∧ (let x : PortEv := { e with cons := 0x10FF }
        let s := withRing (at_ { owned (up [(QM_ELOG_EN, 255, 1), (QM_ELOG_RING, 255, 5)]) with ports := [x] }) 5 0 0
        s.dev.on QM_ELOG_EN 255 = true ∧ s.dev.ports.find? (fun e => e.cons == 0x1000 + (255 : Fin 256).val) = some x
        ∧ ctx s 5 1 / 256 % 4 = 0 ∧ ctx (withRing s 5 3 0) 5 1 / 256 % 4 ≠ 0))
    ∧ (let s := at_ (owned (up [(DM_STATUS_STATE, 31, 1), (DM_CUR_ADDR, 31, 0x10000000)]))
       let d := s.dev
       let u := s.onDev fun d => (d.setH .dmaLast 0 (32 : Nat)).setF DM_LEFT_BYTES 31 0
       domOn d 0 = true ∧ d.f DM_STATUS_STATE 31 = 1 ∧ dmaTurn d = some 31 ∧ (sramBank (d.f DM_CUR_ADDR 31)).isSome = true
       ∧ (match dmaWords u 31 (d.f DM_CUR_ADDR 31) 4 with | (.ok w, _) => w.length == 4 | _ => false) = true
       ∧ dmaValid 0 0 0 0 = false ∧ dmaValid 0x10000000 0x10000100 0x02000010 0 = true ∧ (0x02000010).testBit 30 = false)
    ∧ (let d := fix [(DM_STATUS_STATE, 31, 3)] [(.dmaLast, 0, 1)]
       domOn d 0 = true ∧ d.f DM_STATUS_STATE ((d.hn .dmaLast + 30) % 32) = 3
       ∧ ∀ k, k < 30 → d.f DM_STATUS_STATE ((d.hn .dmaLast + k) % 32) ≠ 3
         ∧ d.f DM_STATUS_STATE ((d.hn .dmaLast + k) % 32) ≠ 1)
    ∧ (let s := withRing (at_ (owned (up [(DM_STATUS_STATE, 31, 4), (DM_RING_RING, 31, 5), (QM_TQUOTA_QUOTA, 0, 1)]))) 5 0 1
       domOn s.dev 0 = true ∧ s.dev.f DM_STATUS_STATE 31 = 4 ∧ ringMine s 5 (chanOwner s.dev 31) 0 = true ∧ (claim s 5).1 = some 0)
    ∧ (let s := sramWrite (withRing (at_ (owned (up [(QM_LTX_EN, 11, 1), (QM_LTX_RING, 11, 5), (QM_TQUOTA_QUOTA, 0, 1),
         (LN_STATUS_STATE, 11, 7), (LN_STATUS_UP, 11, 1)]))) 5 3 1) 0 0x10000000 4 0x00020100 6
       txWaiting s.dev 11 < 32 ∧ s.dev.on QM_LTX_EN 11 = true ∧ s.dev.f LN_STATUS_STATE 11 = lnActive ∧ s.dev.on LN_STATUS_UP 11 = true
       ∧ ringMine s 5 (laneOwner s.dev 11).1 3 = true ∧ (claim s 5).1 = some 0
       ∧ (match qmRead (claim s 5).2 (rElem (claim s 5).2 5 0) 68 with
          | (some ws, _) => leNat ((ws.flatMap fun w => leBytes 4 w).take 2) == 256
              && (ws.flatMap fun w => leBytes 4 w)[2]? == some 2
          | _ => false) = true) := by decide +kernel

theorem test_meets_VerifierFusesAndParts :
    (let d := fix [(CH_VCTL_BUSY, 0, 1)]; domOn d 0 = true ∧ d.on CH_VCTL_BUSY = true)
    ∧ (let x : FuseOp := { op := 4, idx := 0, todo := [(255, 7)], sealing := false, image := [] }
       let d : Dev := { fix [] with fuseOp := some x, tb := 1 }
       domOn d 0 = true ∧ d.fuseOp = some x ∧ d.hn .fuseAt ≤ d.now ∧ x.todo = (255, 7) :: [] ∧ ({ x with todo := [] } : FuseOp).todo = [] ∧ x.op = 4
       ∧ (fix [(PX_STATUS_BOR, 0, 1)]).on PX_STATUS_BOR = true)
    ∧ (let d := fix [(LN_STATUS_STATE, 11, 7)] [(.lRxSeq, 11, 255)]
       domOn d 0 = true ∧ lrxHeld d 11 = false ∧ d.f LN_STATUS_STATE (leadLane d 11) = lnActive ∧ (0xFF000000000000000000000000#104).toNat / 2 ^ 96 = d.hn .lRxSeq 11
       ∧ (0 : BitVec 104).toNat / 2 ^ 96 ≠ d.hn .lRxSeq 11)
    ∧ (let c : Cont := { stream := 35, op := 0, seq := 0, params := [] }
       let d : Dev := { fix [] with conts := [c] }
       domOn d 0 = true ∧ c ∈ d.conts ∧ c.stream = (35 : Fin 36).val) := by decide +kernel

/-- Whether a write is accepted, as a value. -/
def accepts (s : State) (who : Initiator) (row : RegRow) (j : Nat) (w : Word) : Bool :=
  busOpen s.dev who && regPowered s.dev row.reg j && namedOk s who row.reg w && mayWrite s who row.reg j w
    && (lockHit s.dev row j w).isNone && !reservedWord s.dev row j w

theorem accepts_iff (s : State) (who : Initiator) (row : RegRow) (j : Nat) (w : Word) :
    accepts s who row j w = true ↔ Accepted s who row j w := by
  simp [accepts, Accepted, and_assoc]

/-- Every write of the list is accepted of the warden. -/
def allTaken (d : Dev) (l : List (RegRow × Nat × Word)) : Bool := l.all fun x => accepts (at_ d) .warden x.1 x.2.1 x.2.2

/-- The owner of a rail, a phase, a channel and a bank's registers may write them as well. -/
theorem test_owner_writes :
    let s := at_ (owned (up []))
    ∀ x ∈ [(row_RL_CTL, 15, 1), (row_PH_CTL, 63, 1), (row_DM_CTL, 31, 1), (row_LN_CTL, 11, 1), (row_TC_CTL, 7, 1)],
      accepts s (.packet 0 0) x.1 x.2.1 x.2.2 = true ∧ accepts s (.packet 1 0) x.1 x.2.1 x.2.2 = false := by decide +kernel

theorem test_meets_LoopAndPhaseWrites :
    let d := owned (up [(FL_STEER_STALE, 15, 1), (FL_CMT_HOLD, 15, 1), (PH_STATUS_STATE, 63, 7)])
    let f (F : Fld) (j : Nat) (v : Int) : Word := fieldWord d F j v
    allTaken d [(row_FL_STEER, 15, f FL_STEER_STALE 15 1), (row_FL_CMT, 15, f FL_CMT_HOLD 15 0),
      (row_FL_CMT, 15, f FL_CMT_CLRCNT 15 1), (row_PH_CTL, 63, f PH_CTL_AZ 63 1), (row_PH_CTL, 63, f PH_CTL_CLR_FAIL 63 1),
      (row_PH_CTL, 63, f PH_CTL_CLRCNT 63 1), (row_PH_MAP_CTL, 0, withF 0 [(PH_MAP_CTL_PHASE, 63), (PH_MAP_CTL_GO, 1)]),
      (row_PH_MAP_CTL, 0, withF (d.r PH_MAP_CTL) [(PH_MAP_CTL_ALL, 1)]),
      (row_PH_SACC_CMD, 0, withF 0 [(PH_SACC_CMD_PHASE, 63), (PH_SACC_CMD_ADDR, 0xFFFF), (PH_SACC_CMD_LEN, 1), (PH_SACC_CMD_GO, 1)]),
      (row_PH_SB_ROLL, 3, f PH_SB_ROLL_START 3 1), (row_PH_SB_CFG, 3, f PH_SB_CFG_EN 3 1)] = true := by decide +kernel

theorem test_meets_GroveRailAndFirebreakWrites :
    let d := owned (up [])
    let f (F : Fld) (j : Nat) (v : Int) : Word := fieldWord d F j v
    allTaken d [(row_GV_CFG, 15, 1), (row_GV_CFG, 15, 0), (row_GV_LEAD, 15, 0x8000), (row_GV_TCFG, 1023, 1),
      (row_RL_CTL, 15, f RL_CTL_EN 15 1), (row_RL_CTL, 15, f RL_CTL_EN 15 0), (row_FB_RCLR, 15, 0x3F),
      (row_FB_RTEST, 15, f FB_RTEST_GO 15 1), (row_FB_PCLR, 63, 7), (row_FB_DCLR, 0, 0xFF)] = true
    ∧ ([(0x5A3C : Word), 0, 0xFFFF].all fun key => accepts (at_ d) .warden row_FB_WDG_KICK 0 key
      && accepts (at_ d) (.core 3) row_FB_CWDG_KICK 3 key) = true
    ∧ (let e := owned (up [(RL_STATUS_STATE, 15, 4), (RL_TRK_TIME, 15, 9), (RL_CTL_EN, 15, 1)] [(.trkRun, 15, 9)])
       (abortDue (e.setF RL_CTL_EN 15 0) 15).isSome = true ∧ allTaken e [(row_RL_CTL, 15, fieldWord e RL_CTL_EN 15 0)] = true) := by
  decide +kernel

theorem test_meets_StoreLinkAndConverterWrites :
    (let d := owned (up [])
     let f (F : Fld) (j : Nat) (v : Int) : Word := fieldWord d F j v
     isMember d 11 = false ∧ d.on LN_CTL_EN 11 = false ∧ d.f LN_STATUS_STATE 11 = lnOff ∧ d.on LN_TEST_EN 11 = false
     ∧ allTaken d [(row_ST_CTL, 0, f ST_CTL_EN 0 1), (row_ST_CTL, 0, f ST_CTL_EN 0 0), (row_ST_CEIL, 0, 0x00640100),
         (row_ST_ALLOW, 0, 0xFFFFFFFF), (row_LN_CTL, 11, f LN_CTL_EN 11 1), (row_LN_CTL, 11, f LN_CTL_EN 11 0),
         (row_LN_TEST, 11, f LN_TEST_EN 11 1), (row_IG_CPLCMD, 15, f IG_CPLCMD_CARRY 15 1),
         (row_IG_CPLCMD, 15, f IG_CPLCMD_REJOIN 15 1), (row_TC_CTL, 7, f TC_CTL_EN 7 1), (row_TC_CTL, 7, f TC_CTL_EN 7 0),
         (row_TC_CTL, 7, f TC_CTL_GO 7 1), (row_TC_CTL, 7, f TC_CTL_ABORT 7 1), (row_TC_CTL, 7, f TC_CTL_CLRCNT 7 1)] = true)
    ∧ (let d := owned (up [(LN_CFG_WIDTH, 8, 2)])
       isMember d 11 = true ∧ allTaken d [(row_LN_CTL, 11, fieldWord d LN_CTL_EN 11 1), (row_LN_CTL, 11, fieldWord d LN_CTL_EN 11 0),
         (row_LN_CTL, 11, fieldWord d LN_CTL_RETRAIN 11 1)])
    ∧ (let d := owned (up [(LN_CTL_EN, 11, 1), (LN_STATUS_STATE, 11, 7)])
       isMember d 11 = false ∧ d.on LN_CTL_EN 11 = true
       ∧ allTaken d [(row_LN_CTL, 11, fieldWord d LN_CTL_RETRAIN 11 1), (row_LN_CTL, 11, fieldWord d LN_CTL_CLRCNT 11 1)])
    ∧ (let d := owned (up [(LN_TEST_EN, 11, 1), (LN_STATUS_STATE, 11, 10)])
       d.f LN_STATUS_STATE 11 = lnTest ∧ d.on LN_TEST_EN 11 = true ∧ allTaken d [(row_LN_TEST, 11, fieldWord d LN_TEST_EN 11 0)]) := by
  decide +kernel

theorem test_meets_CharterTrailAndRingWrites :
    let d := owned (up [(CH_CORETAG_HALTED, 3, 1)])
    let s := at_ d
    let f (F : Fld) (j : Nat) (v : Int) : Word := fieldWord d F j v
    allTaken d ([1, 2].map fun op => (row_CH_FPROG, 0, withF 0 [(CH_FPROG_OP, op), (CH_FPROG_SLOT, 3), (CH_FPROG_GO, 1)])) = true
    ∧ allTaken d ([3, 4].map fun op => (row_CH_FPROG, 0, withF 0 [(CH_FPROG_OP, op), (CH_FPROG_KEY, 7), (CH_FPROG_GO, 1)])) = true
    ∧ d.on CH_VCTL_BUSY = false
    ∧ (∀ kind ∈ [0, 1, 2], accepts s .warden row_CH_VCTL 0 (withF 0 [(CH_VCTL_PART, 7), (CH_VCTL_KIND, kind), (CH_VCTL_GO, 1)]) = true)
    ∧ accepts s .warden row_CH_REF_TAIL 0 (onlyF CH_REF_TAIL_TAIL 31) = true
    ∧ accepts s .warden row_CH_CORETAG 3 (onlyF CH_CORETAG_PART 7) = true
    ∧ allTaken d [(row_TR_FIRE, 0, onlyF TR_FIRE_TRAIL 4095), (row_DM_CTL, 31, f DM_CTL_START 31 1), (row_DM_CTL, 31, f DM_CTL_STOP 31 1),
        (row_DM_CTL, 31, f DM_CTL_CLR 31 1), (row_DM_CTL, 31, f DM_CTL_TRIG 31 1), (row_CN_SWSET, 7, 0xFFFF)] = true
    ∧ domOn d 0 = true ∧ busOpen d (.packet 0 0) = true
    ∧ trailCheck s (tagOf d (.packet 0 0)) 0xEFF 2 0x0FFF0FFF = .stored ∧ trailCheck s (tagOf d (.packet 0 0)) 0xEFF 1 0x0500 = .badCode
    ∧ trailCheck s (tagOf d (.packet 1 0)) 4095 0 0 = .refused
    ∧ (let s := withRing s 5 0 1
       ∀ n ∈ [1, 0xFFF], accepts s (.packet 0 0) row_QM_DB 0 (withF 0 [(QM_DB_RING, 5), (QM_DB_OP, 0), (QM_DB_COUNT, n)]) = true
         ∧ accepts s (.packet 0 0) row_QM_DB 0 (withF 0 [(QM_DB_RING, 5), (QM_DB_OP, 1), (QM_DB_COUNT, n)]) = true
         ∧ accepts s (.packet 0 0) row_QM_DB 0 (withF 0 [(QM_DB_RING, 5), (QM_DB_OP, 2), (QM_DB_COUNT, 0)]) = true)
    ∧ passes (tagOf d (.packet 0 0)) (ringOwner d 5) = true ∧ passes (tagOf d (.packet 1 0)) (ringOwner d 0xFFFF) = false := by
  decide +kernel

theorem test_meets_PowerTimeMemoryAndPinWrites :
    let d := owned (up [(ME_REMAP_WADDR, 255, 9)])
    let f (F : Fld) (j : Nat) (v : Int) : Word := fieldWord d F j v
    allTaken d ([0, 1, 2, 3].map fun q => (row_PD_STATE, 0, withF 0 [(PD_STATE_REQ, q), (PD_STATE_GO, 1)])) = true
    ∧ allTaken d [(row_PD_HOLDREL, 0, 0x3FFF), (row_PD_VOTEA, 7, 0), (row_PD_VOTEB, 7, 0), (row_TM_CNT_HI, 15, 0xFFFFFFFF),
        (row_TM_TOP_HI, 15, 0), (row_TM_MAT_HI, 15, 0xFFFFFFFF), (row_ME_BCFG, 15, 1), (row_ME_ARB_CTL, 0, f ME_ARB_CTL_CLRMAX 0 1),
        (row_ME_REMAP, 255, withF 0 [(ME_REMAP_WADDR, 0x3FFFF), (ME_REMAP_V, 1)]), (row_ME_REMAP, 255, onlyF ME_REMAP_WADDR 0),
        (row_PX_GCFG, 31, 1), (row_PX_GSET, 0, 0xFFFFFFFF), (row_PX_GCLR, 0, 0xFFFFFFFF)] = true
    ∧ allTaken d ([2, 3, 4, 5, 6].map fun op => (row_FC_CMD, 0, withF 0 [(FC_CMD_OP, op), (FC_CMD_GO, 1)])) = true
    ∧ allTaken d [(row_FC_CMD, 0, withF 0 [(FC_CMD_OP, 1), (FC_CMD_NLINES, 15), (FC_CMD_GO, 1)])] = true
    ∧ ¬16 < d.f FC_ADDR_ADDR / 16 % 16 + (15 : Fin 16).val + 1
    ∧ 16 < (d.setF FC_ADDR_ADDR 0 16).f FC_ADDR_ADDR / 16 % 16 + (15 : Fin 16).val + 1 := by decide +kernel

/-- The reads and crossings of R83, R461, R562, R506, R28, R544 and R551, each accepted of some initiator. -/
theorem test_meets_ReadsAndCrossings :
    let d := up []
    busOpen d .warden = true ∧ busOpen d (.core 3) = true ∧ busOpen d (.packet 7 0) = true
    ∧ domOn d (5 + 15 / 4) = true ∧ mayRead d .warden FL_INT_LO 15 = true
    ∧ domOn d 0 = true ∧ mayRead d .warden CP_ROOTSTAMP_LO 0 = true
    ∧ (let s := at_ d
       mayWrite s .warden FB_SC_CAUSE 0 0xFF = true ∧ mayWrite s .warden TM_RTC_CTL 0 0x1F = true
       ∧ mayWrite s .warden LF_CTL 0 1 = true ∧ ∀ q ∈ [0, 2, 4], aonFill d q < 4)
    ∧ (∀ q ∈ [0, 2, 4], let x : AonWrite := { q := q, addr := LF_CTL.addr 0, val := 1 }
       4 ≤ aonFill { d with aonQ := [x, x, x, x] } q)
    ∧ (let e := up [(TM_RTC_CTL_SETBUSY, 0, 1)]
       e.on TM_RTC_CTL_SETBUSY = true ∧ d.on TM_RTC_CTL_SETBUSY = false ∧ mayWrite (at_ e) .warden TM_RTC_CTL 0 1 = true)
    ∧ (let x : AonWrite := { q := 4, addr := FB_SC_CAUSE.addr 0, val := 0xFF }
       ({ d with aonQ := [x] } : Dev).aonQ.find? (fun x => x.q == (4 : Fin 5).val) = some x
       ∧ (regAt x.addr).map (fun x => (x.1, x.2)) = some (row_FB_SC_CAUSE, 0) ∧ row_FB_SC_CAUSE.reg.db ≠ .grove
       ∧ lockHit d row_FB_SC_CAUSE 0 x.val = none ∧ reservedWord d row_FB_SC_CAUSE 0 x.val = false) := by decide +kernel

/-- Single steps of those reads and crossings: the low word read keeps the high one; the fifth write waiting in a crossing
lets the first arrive. -/
theorem test_reads_and_crossings :
    goes (exec (.flIntLoRead .warden 15) (at_ (up [] [(.intSnap, 47, 0xFF00000001)]))) (fun t =>
      t.dev.h .rdOut 0 == 1 && t.dev.f FL_INT_HI_INT 15 == 0xFF) = true
    ∧ (let x : AonWrite := { q := 0, addr := LF_CFG.addr 0, val := 0 }
       goes (exec (.lfFlushWrite .warden 0) (at_ { up [] with aonQ := [x, x, x, x] })) fun t => t.dev.aonQ.length == 4) = true := by
  decide +kernel

theorem test_meets_RegisterWriteRules :
    let d := owned (up [])
    let s := at_ d
    busOpen d (.packet 1 0) = true ∧ isRegAddr 0x40041FFC = true ∧ 0x40041FFC % 4 = 0 ∧ regAt 0x40041FFC = none
    ∧ offsetPowered d 0x40041FFC = true ∧ (let e := fix [] [(.svcOn, 0, 1), (.start, 0, 4)]; busOpen e (.packet 1 0) = true ∧ isRegAddr 0x40001FFC = true ∧ regAt 0x40001FFC = none ∧ offsetPowered e 0x40001FFC = false)
    ∧ regAt (FL_CMT.addr 15) = some (row_FL_CMT, 15) ∧ row_FL_CMT.reg.own ≠ .trail
    ∧ regPowered (fix []) FL_CMT 15 = false ∧ regPowered d FL_CMT 15 = true ∧ namedOk s (.packet 1 0) FL_CMT 0 = true
    ∧ mayWrite s (.packet 1 0) FL_CMT 15 0 = false ∧ aonQueueOf (FL_CMT.addr 15) = none ∧ row_FL_CMT.reg.db ≠ .grove
    ∧ accepts s (.packet 0 0) row_FL_CMT 15 0 = true
    ∧ regAt (TC_STEP.addr 0) = some (row_TC_STEP, 0) ∧ mayWrite s (.packet 0 0) TC_STEP 0 23 = true
    ∧ lockHit d row_TC_STEP 0 23 = none ∧ reservedWord d row_TC_STEP 0 23 = true ∧ aonQueueOf (TC_STEP.addr 0) = none := by
  decide +kernel

theorem test_meets_PowerDomains :
    (let d : Dev := { up [(PD_STATE_STATE, 0, 1)] with rings :=
         [{ stream := 0, op := 0, flags := 0, part := 0, port := 0, seq := 0, params := [], stamp := 0, sess := 0 }] }
     d.f PD_STATE_STATE = 1 ∧ coreWakes (up [(PD_STATE_STATE, 0, 1)]) = false ∧ d.rings ≠ [])
    ∧ coreWakes (up [(PD_STATE_STATE, 0, 1)] [(.cLines, 4, 1)]) = true
    ∧ (let d := up [(PD_WAKE_EN_RTC, 0, 1), (TM_ACAUSE_ALARM, 0, 1)] [(.pdTrans, 0, 3)]
       d.hn .pdTrans = 3 ∧ (d.r PD_WAKE_EN).getLsbD 1 = true ∧ wakeCond d 1 = true)
    ∧ (let d := up [] [(.pdTrans, 0, 1)]
       d.hn .pdTrans = 1 ∧ d.hn .pdAllow = 0 ∧ (∀ k, k < 16 → d.on FL_STATUS_FF_ACT k = false)
       ∧ (∀ l, l < 12 → d.f LN_STATUS_STATE l = lnOff))
    ∧ (let d := up [] [(.pdTrans, 0, 2)]
       d.hn .pdTrans = 2 ∧ ∀ g, g < 16 → wanted d (16 + g) = false ∨ domOn d (16 + g) = true ∧ d.on GV_STATUS_SELFTEST g = false)
    ∧ (let d := up [(PD_WAKE_EN_SPI, 0, 1)] [(.pdTrans, 0, 3)]
       d.hn .pdTrans = 3 ∧ d.hn .pdAllow = 0 ∧ d.on FC_STATUS_STATE = false ∧ (d.r PD_WAKE_EN).getLsbD 4 = true)
    ∧ (fix [] [(.pdAllow, 0, 3)]).hn .pdAllow = 3
    ∧ (let d := up []; domOn d 47 = true ∧ wanted d 47 = false ∧ domOn d 1 = true)
    ∧ (∀ st ∈ [0, 1, 2, 3], let d := fix [(PD_DSTAT_STATE, 47, 2), (PD_DSTAT_STEP, 47, st)]; domState d 47 = 2 ∧ d.f PD_DSTAT_STEP 47 = st)
    ∧ (∀ st ∈ [0, 2, 3, 4], let d := fix [(PD_ONA_DOM, 0, 0), (PD_DSTAT_STATE, 0, st), (PD_DSTAT_STEP, 0, 3)] [(.svcOn, 0, 1), (.wVote, 0, 1)]
       wanted d 0 = true ∧ domOn d 0 = false ∧ domState d 0 = st ∧ 3 ≤ d.f PD_DSTAT_STEP 0)
    ∧ (fix [] [(.pdKept, 32, 1)]).hon .pdKept 32 = true ∧ (fix []).hon .pdKept 47 = false
    ∧ domOn (fix [(PD_ONA_DOM, 0, 0)]) 0 = false := by decide +kernel

theorem test_meets_TimeAndLife :
    (let d := fix [(TM_TCTL_RUN, 15, 1)] [(.tmTop, 15, 101), (.tmMat, 15, 100)]
     domOn d 0 = true ∧ d.on TM_TCTL_RUN 15 = true ∧ (tmMatches d 15).find? (fun m => tmPos0 d 15 < m || (m == 0 && tmPos0 d 15 == 0)) = some 100)
    ∧ (let d := fix [(TM_TCTL_XSTART, 15, 1)]; domOn d 0 = true ∧ d.on TM_TCTL_XSTART 15 = true ∧ d.on TM_TCTL_RUN 15 = false)
    ∧ (let d := fix [(EM_CFG_EN, 0, 1), (TM_RTC_CTL_ALM_EN, 0, 1)] [(.almBelow, 0, 1)]
       d.on EM_CFG_EN = true ∧ emLenNow d ≠ 0 ∧ d.hon .rtcStop = false ∧ d.on TM_RTC_CTL_ALM_EN = true ∧ d.hon .almBelow = true)
    ∧ (let d := fix [] [(.setReady, 0, 1)]; d.hon .setReady = true)
    ∧ (let d := up [] [(.rtcStop, 0, 1)]; domOn d 0 = true ∧ d.hon .rtcStop = true)
    ∧ (let d := fix [(LF_CFG_EN, 0, 1), (LF_STATUS_BUSY, 0, 1)]
       d.on LF_CFG_EN = true ∧ d.on LF_STATUS_BUSY = true ∧ ∀ r ∈ d.logq, r.kind < 5 ∨ 7 < r.kind)
    ∧ (let d := up [(FB_CWDG_EN, 3, 1)]
       d.on FB_CWDG_EN 3 = true ∧ d.hn .start = 4 ∧ domOn d 0 = true ∧ d.f PD_STATE_STATE ≠ 1)
    ∧ (let d := fix [(FB_SC_CFG_EN, 7, 1), (FB_SC_CFG_N, 7, 2), (FB_SC_TH_TH, 7, 1)]
       d.on FB_SC_CFG_EN 7 = true ∧ ¬((d.f FB_SC_TH_TH 7 : Int) * 1600 < 1600) ∧ (d.f FB_SC_TH_TH 7 : Int) * 1600 < 1601
       ∧ d.hn .scRun 7 + 1 < d.f FB_SC_CFG_N 7 ∧ d.f FB_SC_CFG_N 7 ≤ (d.setH .scRun 7 1).hn .scRun 7 + 1)
    ∧ (let d := fix [(FB_DACT_LATCH, 7, 1)] [(.devDone, 7, 2)]; domOn d 0 = true ∧ d.hn .devDone 7 = 2 ∧ d.on FB_DACT_LATCH 7 = true) := by
  decide +kernel

theorem test_meets_FlashAndScrub :
    (let s := at_ (fix [(FC_STATUS_STATE, 0, 1)] [(.fcOp, 0, 5)])
     s.dev.f FC_STATUS_STATE = 1 ∧ s.dev.hn .fcOp = 5 ∧ (s.dev.setH .fcOp 0 1).hn .fcOp = 1
     ∧ ∀ w, w < 64 → s.mb (tornKey (s.dev.hn .fcBase + 4 * w)) = 0 ∧ s.mb (tornSect (s.dev.hn .fcBase + 4 * w)) = 0)
    ∧ (∀ seg ∈ [0, 7, 8], let d := fix [(FC_STATUS_STATE, 0, 2), (FC_STATUS_SEG, 0, seg)] [(.fcVerify, 0, 1)]
       d.f FC_STATUS_STATE = 2 ∧ d.hon .fcVerify = true ∧ d.f FC_STATUS_SEG = seg ∧ d.on FC_STATUS_LF = false)
    ∧ (fix [(FC_STATUS_BROWN, 0, 1)]).on FC_STATUS_BROWN = true
    ∧ (let r : LogRec := { kind := 1, len := 16, stamp := 0, rtc := 0, body := [] }
       let d : Dev := { up [(FC_STATUS_STATE, 0, 0), (LF_STATUS_BUSY, 0, 1), (FC_LOGSTAT_LINES, 0, 4095)] with logq := [r] }
       d.logq.find? (lfDue d) = some r ∧ lfMay d = true ∧ d.f FC_STATUS_STATE ≠ 2 ∧ (r.len + 15) / 16 ≤ logRoom d)
    ∧ (let d : Dev := { up [(ME_SCRUB_EN, 0, 1), (ME_BCFG_SCRUB, 15, 1)] with wbq := [0x10F00000] }
       d.on ME_SCRUB_EN = true ∧ d.wbq = 0x10F00000 :: [] ∧ sramBank 0x10F00000 = some 15 ∧ scrubbed d 15 = true)
    ∧ (let d := up [(ME_SCRUB_EN, 0, 1), (ME_BCFG_SCRUB, 15, 1), (ME_SCRUBPOS_BANK, 0, 15), (ME_SCRUBPOS_ADDR, 0, 0x3FFFE)]
       d.wbq = [] ∧ d.f ME_SCRUBPOS_BANK = 15 ∧ scrubBank d 15 = 15 ∧ d.f ME_SCRUBPOS_ADDR + 1 < 0x40000) := by decide +kernel

theorem test_meets_PinsAndTap :
    (let d := fix [(PX_GCFG_HB, 31, 1)]; d.on PX_GCFG_HB 31 = true ∧ d.on PD_DSTAT_HELD 0 = false ∧ d.hon .padNext 31 = false)
    ∧ (let d := up [(PX_STATUS_VIOB, 0, 1), (PX_GCFG_FUNC, 31, 1)]
       domOn d 0 = true ∧ padBank d 31 = true ∧ d.on PX_GCFG_FUNC 31 = true ∧ d.on PX_GCFG_HB 31 = false
       ∧ d.on PD_DSTAT_HELD 0 = false ∧ (d.f PX_GIN_IN).testBit 31 ≠ true)
    ∧ (let d := fix [(PX_STATUS_VIOA, 0, 1), (PX_STATUS_VIOB, 0, 1), (PX_STATUS_VIOC, 0, 1), (PX_STATUS_VIOD, 0, 1),
         (PX_STATUS_XTAL_OK, 0, 1)]
       d.on PX_STATUS_VIOA = true ∧ d.on PX_STATUS_VIOD = true ∧ d.on PX_STATUS_XTAL_OK = true)
    ∧ (let d := fix [(PX_VCORE_SET, 0, 21)]; d.h .vcoreOff < vcoreWant d)
    ∧ (let d := fix [(PX_VCORE_SET, 0, 19)]; vcoreWant d < d.h .vcoreOff)
    ∧ tapMay (fix []) = true ∧ tapMay (fix [(PH_STATUS_STATE, 63, 1)]) = false := by decide +kernel

theorem test_meets_ResetAndStartup :
    (∀ st ∈ [0, 1, 2, 3, 4], (fix [] [(.start, 0, st)]).h .start = st) ∧ (fix []).f FC_STATUS_STATE = 0
    ∧ (let d := (up []).setF CP_STATUS_WARDEN 0 0
       d.hn .start = 4 ∧ domOn d 0 = true ∧ d.on CP_STATUS_WARDEN = false ∧ d.hn .bootOk = 0 ∧ d.hon .scanDone = false)
    ∧ (∀ a ∈ [0, 1, 2], let d := up [(FB_WDG_EN, 0, 1), (FB_WDG_ACT, 0, a)] [(.wdgAt, 0, 1)]
       d.on FB_WDG_EN = true ∧ d.hon .wdgAt = true ∧ d.hn .start = 4 ∧ d.f FB_WDG_ACT = a)
    ∧ (let d := fix [] [(.wrst, 0, 1)]; d.hon .wrst = true ∧ domOn d 0 = true) ∧ (fix []).on PX_STATUS_BOR = false
    ∧ (let d := fix [(PX_STATUS_BOR, 0, 1), (FC_STATUS_STATE, 0, 2)]; d.on PX_STATUS_BOR = true ∧ d.f FC_STATUS_STATE ≠ 0) := by
  decide +kernel

theorem test_meets_SramWords :
    sramBank 0x10000000 = some 0 ∧ sramBank 0x10FFFFFC = some 15 ∧ sramBank 0x50010000 = some 16 ∧ sramBank 0x5001FFFF = some 16
    ∧ sramBank 0x11000000 = none ∧ sramBank 0x0FFFFFFF = none
    ∧ (let s := at_ (fix []); s.mb (validKey (wordKey s.dev 15 0x10FFFFFC)) = 0)
    ∧ (let s := (at_ (fix [])).setMb (validKey 0x10FFFFFC) 2; s.mb (validKey (wordKey s.dev 15 0x10FFFFFC)) = 2) := by decide +kernel

/-- Packet of opcode op of partition 0 with those parameters. -/
def pkt (op : Nat) (params : List Nat) : Packet :=
  { stream := 0, op := op, flags := 0, part := 0, port := 0, seq := 0, params := params, stamp := 0, sess := 0 }

/-- A machine at work in whose command ring that packet waits. -/
def served (k : Packet) : State := at_ { owned (up []) with rings := [k] }

/-- Whether that packet is the one served next, with no Long one of its group under way. -/
def isServed (s : State) (op : Nat) (k : Packet) : Bool :=
  nextPacket s.dev == some k && k.op == op && (!opLong op || s.dev.longs.all fun y => y.pkt.op / 16 != op / 16)

theorem isServed_serves {s : State} {op : Nat} {k : Packet} (h : isServed s op k = true) : Serves s op k := by
  simp only [isServed, Bool.and_eq_true, Bool.or_eq_true, Bool.not_eq_true', beq_iff_eq, List.all_eq_true, bne_iff_ne] at h
  refine ⟨h.1.1, h.1.2, fun l y m => ?_⟩
  rcases h.2 with x | x
  · rw [l] at x; exact absurd x (by decide)
  · exact x y m

theorem test_meets_OpcodesServed :
    (List.range 0xBC).all (fun op => isServed (served (pkt op [])) op (pkt op [])) = true
    ∧ nextPacket (served (pkt 5 [])).dev = some (pkt 5 []) ∧ (pkt 5 []).op < 0x100 := by decide +kernel

theorem test_meets_LongPackets :
    (let y : LongOp := { pkt := pkt 0xBB [], idx := 0, acc := [] }
     let d : Dev := { up [] with longs := [y] }
     wardenRuns d = true ∧ d.longs.find? (fun y => y.pkt.op / 16 == (11 : Fin 16).val) = some y
     ∧ d.longs.find? (fun y => y.pkt.op / 16 == (4 : Fin 16).val) = none)
    ∧ (∀ op ∈ [0x03, 0x91],
        let y : LongOp := { pkt := pkt op [], idx := 0, acc := [] }
        let d : Dev := { up [] with held := some y }
        d.held = some y ∧ y.pkt.op = op ∧ d.on PD_STATE_BUSY = false ∧ d.on TM_RTC_CTL_SETBUSY = false)
    ∧ (let d := up [(PD_STATE_BUSY, 0, 1), (TM_RTC_CTL_SETBUSY, 0, 1)]
       d.on PD_STATE_BUSY = true ∧ d.on TM_RTC_CTL_SETBUSY = true) := by decide +kernel

theorem test_meets_RegisterOpcodes :
    (let k := pkt 0x22 [15, 0, 0, 0, 0]
     isServed (served k) 0x22 k = true ∧ k.params.length = 5 ∧ par k 0 1 < 16 ∧ (railOwner (taken (served k) k).dev 15).1 = k.part)
    ∧ (let k := { pkt 0x22 [15, 0, 0, 0, 0] with part := 1 }
       isServed (served k) 0x22 k = true ∧ (railOwner (taken (served k) k).dev 15).1 ≠ k.part)
    ∧ (let k := pkt 0x22 [16, 0, 0, 0, 0]; isServed (served k) 0x22 k = true ∧ 16 ≤ par k 0 1)
    ∧ (let k := pkt 0x22 [15]; isServed (served k) 0x22 k = true ∧ k.params.length ≠ 5)
    ∧ (let k := pkt 0x63 [0, 0, 0, 0]
       isServed (served k) 0x63 k = true ∧ k.params.length = 4 ∧ k.part = storePartition (taken (served k) k).dev)
    ∧ (let k := pkt 0x61 (List.replicate 44 0)
       let e := (taken (served k) k).dev
       isServed (served k) 0x61 k = true ∧ k.params.length = 44 ∧ k.part = storePartition e
       ∧ (railOwner e (valOf (parW k 0) ST_CFG_SNS_RAIL)).1 = k.part
       ∧ (let d := e.setR CH_CHARTER 4 0x10
          (railOwner d 1).1 ≠ k.part))
    ∧ (let k := pkt 0x77 (15 :: List.replicate 4 0 ++ leBytes 4 (onlyF (IG_CPL_LNK_VALID 2) 1 ||| onlyF (IG_CPL_LNK_LANE 2) 11).toNat
         ++ List.replicate 8 0)
       let e := (taken (served k) k).dev
       isServed (served k) 0x77 k = true ∧ k.params.length = 17
       ∧ (∀ p < 3, ¬(valOf (parW k 5) (IG_CPL_LNK_VALID p) ≠ 0 ∧ (laneOwner e (valOf (parW k 5) (IG_CPL_LNK_LANE p))).1 ≠ k.part))
       ∧ valOf (parW k 5) (IG_CPL_LNK_VALID 2) ≠ 0 ∧ (laneOwner (up []) (valOf (parW k 5) (IG_CPL_LNK_LANE 2))).1 = k.part) := by
  decide +kernel

theorem test_meets_CheckedWrites :
    (let s := at_ (owned (up [(FB_DLOCK_LOCK, 0, 1)]))
     regAt (FB_IIN.addr 0) = some (row_FB_IIN, 0) ∧ regPowered s.dev FB_IIN 0 = true
     ∧ (lockHit s.dev row_FB_IIN 0 1).isSome = true ∧ lockHit s.dev row_FL_CMT 15 0 = none)
    ∧ regAt (FL_CMT.addr 15) = some (row_FL_CMT, 15) ∧ regPowered (fix []) FL_CMT 15 = false
    ∧ strayBits row_RL_CTL 0x80000000 = true ∧ strayBits row_TC_STEP 23 = false
    ∧ regAt (TC_STEP.addr 0) = some (row_TC_STEP, 0) ∧ lockHit (up []) row_TC_STEP 0 23 = none
    ∧ reservedWord (up []) row_TC_STEP 0 23 = true
    ∧ wCheck (up []) [(row_TC_STEP, 0, 0)] = none ∧ (wCheck (up []) [(row_TC_STEP, 0, 0), (row_TC_STEP, 0, 23)]).isSome = true
    ∧ (match wWrites [(TC_STEP, 0, 0)] (at_ (up [])) with | .ok _ => true | _ => false) = true
    ∧ (match wWrites [(TC_STEP, 0, 23)] (at_ (up [])) with | .error _ => true | _ => false) = true := by decide +kernel

theorem test_meets_OpcodeReplies :
    ([(0x00, []), (0x01, []), (0x02, List.replicate 240 1), (0x02, List.replicate 241 1), (0x03, [0]), (0x03, [2]), (0x21, [15, 0]),
      (0x21, [15, 2]), (0x45, [63]), (0x2D, [15, 63]), (0x44, [63, 15]), (0xB0, []), (0xB2, [3, 0]), (0xA5, [0])].all fun x =>
        isServed (served (pkt x.1 x.2)) x.1 (pkt x.1 x.2)) = true
    ∧ isServed (served (pkt 0x21 [])) 0x21 (pkt 0x21 []) = true ∧ isServed (served (pkt 0x21 [16])) 0x21 (pkt 0x21 [16]) = true
    ∧ (let k := pkt 0x21 [15, 1]
       isServed (served k) 0x21 k = true ∧ staleFor k 15 = false
       ∧ (match opWrites (taken (served k) k) [(RL_CTL, 15, 1)] with | (.done _ [], _) => true | _ => false) = true)
    ∧ (let k := { pkt 0x21 [15, 1] with offs := 2 ^ 15 }
       isServed (served k) 0x21 k = true ∧ par k 1 1 = 1 ∧ staleFor k 15 = true)
    ∧ (let d := owned (up [(PH_STATUS_STATE, 63, 3), (CH_CORETAG_HALTED, 3, 1), (CH_CORETAG_HALTED, 0, 0)] [(.fwSess, 0, 1)])
       phState d 63 = phArmed ∧ phState d 62 ≠ phArmed ∧ (railOwner d 15).1 = 0 ∧ (phaseOwner d 63).1 = 0 ∧ 0 < npart d
       ∧ d.on CH_CORETAG_HALTED 3 = true ∧ d.on CH_CORETAG_HALTED 0 = false ∧ d.hn .fwSess = 0 + 1 ∧ d.hn .fwPart = 0)
    ∧ (pdRequest (up []) 0).1 = true ∧ (pdRequest (up [(PD_STATE_BUSY, 0, 1)]) 1).1 = false
    ∧ (pdRequest (up []) 2).1 = true ∧ (pdRequest (up []) 2).2.on PD_STATE_BUSY = true := by decide +kernel

/-- The PMBus and SPI ports serve. -/
def ports : Dev := owned (up [(CP_CFG_PMB_EN, 0, 1), (CP_CFG_SPI_EN, 0, 1)])

theorem test_meets_StandardReadings :
    pmbOn ports = true ∧ wardenRuns ports = true ∧ ports.held = none ∧ ports.rings = [] ∧ ports.f CP_CFG_STDPART < 8
    ∧ (portsOf ports (ports.f CP_CFG_STDPART)).testBit 0 = true
    ∧ (railOwner ports (ports.hn .pmbPage)).1 = ports.f CP_CFG_STDPART ∧ ports.f PD_STATE_STATE ≠ 1 := by decide +kernel

/-- Capability reads 0xD4, and so on (R448). -/
theorem test_standard_readings :
    ([(Machine.execCapability .read, [0xD4]), (Machine.execVoutMode .read, [0x14]), (Machine.execPmbusRevision .read, [0x33]),
      (Machine.execMfrId .read, [0x4D, 0x41, 0x55, 0x4C, 0x41, 0x4E, 0x4F, 0x52])].all fun x =>
        goes (x.1 (at_ ports)) fun t => t.dev.portOut == x.2) = true := by decide +kernel

theorem test_meets_PortCommands :
    pmbOn ports = true ∧ pmbOn (fix []) = false ∧ spiOn ports = true ∧ pecBad ports .bad = true ∧ pecBad ports .ok = false
    ∧ (let d := fix [] [(.pmbCall, 0, 8)]; domOn d 0 = true ∧ d.hon .pmbCall = true)
    ∧ 255 < (List.replicate 256 (0 : Byte)).length ∧ (List.replicate 255 (0 : Byte)).length ≤ 255
    ∧ accepts (at_ ports) .warden row_CP_MBX_CTL 7 (fieldWord ports CP_MBX_CTL_GO 7 1) = true
    ∧ (∀ i ∈ [(0 : Byte), 4, 255], i ≠ 1 ∧ i ≠ 2 ∧ i ≠ 3) := by decide +kernel

/-- A frame of ECHO by the PMBus port with sequence number q. -/
def frame (q : Nat) : List Nat :=
  let h := [2, 0, 0, q, 1, 0]
  h ++ leBytes 2 (crc16 (h ++ [7])) ++ [7]

theorem test_meets_PacketsTaken :
    (let b := frame 200
     let at_ (i : Nat) : Nat := (b[i]?).getD 0
     8 ≤ b.length ∧ at_ 4 + 256 * at_ 5 ≤ 248 ∧ b.length = 8 + (at_ 4 + 256 * at_ 5)
     ∧ crc16 (b.take 6 ++ b.drop 8) = at_ 6 + 256 * at_ 7 ∧ at_ 2 / 16 = 0 ∧ at_ 1 < 4 ∧ at_ 2 % 16 < 8 ∧ ¬(at_ 2 / 16 = 1)
     ∧ ¬(8 ≤ (b.take 7).length))
    ∧ (let d : Dev := { ports with streams := [{ id := 0, used := true, seq := 200, crc := 5, busy := false, reply := [], unread := false }] }
       streamFor 0 0 (0 % 16 % 8) = 0 ∧ (streamOf d 0).used = true ∧ (200 + 256 - (streamOf d 0).seq) % 256 = 0
       ∧ (streamOf d 0).crc = 5 ∧ 128 ≤ (72 + 256 - (streamOf d 0).seq) % 256) := by decide +kernel

theorem test_meets_RootOpcodes :
    ([(0xF0, []), (0xF1, []), (0xF2, []), (0xF3, []), (0xF4, [15]), (0xF5, []), (0xF6, [1])].all fun x =>
      ({ ports with rootq := [pkt x.1 x.2] } : Dev).rootq == pkt x.1 x.2 :: []) = true ∧ portsRun ports = true
    ∧ ports.hon .rstAt = false
    ∧ (let d : Dev := { ports.setH .rstAt 0 20001 with tb := 20000 }; d.hon .rstAt = true ∧ d.hn .rstAt ≤ d.now + 1)
    ∧ (let d := ports.setH .rstAt 0 20001; d.now + 1 < d.hn .rstAt) := by decide +kernel

/-- A pass of task 0 of grove 15 on engine 33, whose code region holds the engine's pc. -/
def onEngine : Dev :=
  { up [] with passes := [{ grove := 15, task := 0, e1 := 33, e2 := 64, tag := 0, stamp := 0, start := 0, rep := false, cmp := [], test := 0,
                            failed := 0, tests := 0, gone := false }] }

/-- The machine at work with the warden's g4 at 0x10000000. -/
def atWork : State := at_ ((up []).setG 4 4 0x10000000)

theorem test_meets_Issues :
    (mayIssue atWork.dev .warden = true ∧ (cpuFetch atWork .warden).1 = none)
    ∧ (let s := at_ (up [(CH_CORETAG_HALTED, 3, 0)]); mayIssue s.dev (.core 3) = true ∧ (cpuFetch s (.core 3)).1.isSome = true)
    ∧ mayIssue (fix []) .warden = false
    ∧ (mayIssue onEngine (.engine 15 33) = true ∧ cpuFetch (at_ onEngine) (.engine 15 33) = (none, at_ onEngine)) := by decide +kernel

theorem test_meets_BitFieldsAndPermute :
    (31 : Fin 32).val + (0 : Fin 32).val ≤ 31 ∧ 31 < (31 : Fin 32).val + (1 : Fin 32).val
    ∧ (∀ j < 4, (0xDDDD : BitVec 16).toNat / 16 ^ j % 16 < 14) ∧ (∃ j < 4, 14 ≤ (0xE000 : BitVec 16).toNat / 16 ^ j % 16) := by
  decide +kernel

theorem test_meets_LoadsAndStores :
    (∀ n ∈ [1, 2, 4], (match dataLoad atWork .warden 0x10000000 n with | .ok v _ => v == 0 | _ => false) = true
      ∧ (match dataStore atWork .warden 0x10000000 n 7 with | .ok _ _ => true | _ => false) = true)
    ∧ (∀ e ∈ [0, 1, 2], memIllegal atWork.dev 4 true 5 4 0 e = false ∧ 0x10000000 % 2 ^ e = 0)
    ∧ memIllegal atWork.dev 4 true 4 4 0x4000 2 = true ∧ 0x10000001 % 2 ≠ 0 := by decide +kernel

theorem test_meets_ExceptionEntry :
    let s := atWork.onDev fun d => (d.setCr 4 crVTB 0x10001000).setCr 4 crTSP 0x10002000
    let t := drainAll (sramWrite s 0 0x10001030 4 0x10004000 4) 4
    let v := wordLoad t 4 ((t.dev.cr 4 crVTB).toNat + 4 * 12)
    v.1 = some 0x10004000 ∧ (wordStores v.2 4 [(0x10002000, 5), (0x100020BC, 6)]).1 = true
    ∧ (wordLoad s 4 0x10001030).1 = some 0 ∧ (wordLoad s 4 0xFFFFFFF0).1 = none := by decide +kernel

theorem test_meets_ControlRegisters :
    crListed .warden false 0x48 = true ∧ crListed .app false 0x48 = false ∧ crListed .app true 3 = false
    ∧ crListed .engine true 8 = true ∧ crLevel 0x50 ≤ (up []).level 4 ∧ crLevel 0 = 0
    ∧ ((up []).setCr 3 crCS 1).level 3 < crLevel 1 := by decide +kernel

theorem test_meets_PrivilegedInstructions :
    ((up []).setCr 3 crCS 1).level 3 = 0 ∧ 1 ≤ (up []).level 4 ∧ intPending (up []) 4 = false
    ∧ intPending (up [] [(.cLate, 4, 1)]) 4 = true
    ∧ (match eretLoads atWork 4 (eretOffs.map fun o => 0x10002000 + o) with | .inr (l, _) => l.length == eretOffs.length | _ => false) = true := by
  decide +kernel

theorem test_meets_CompareAndSwap :
    let s := atWork
    (match cpuTranslate s 4 0x10000000 (s.dev.level 4) .cas with | .ok pa _ => pa == 0x10000000 | _ => false) = true
    ∧ (sramBank 0x10000000).isSome = true
    ∧ (match busLoad (drainAll s 4) (coreInit 4) 0x10000000 4 with
       | (.ok 0, u) => match busStore u (coreInit 4) 0x10000000 4 5 with | (.ok _, _) => true | _ => false
       | _ => false) = true
    ∧ 0 = (s.dev.g 4 5).toNat ∧ 0 ≠ (s.dev.g 4 4).toNat ∧ (0x10000002 : Nat) % 4 ≠ 0 := by decide +kernel

theorem test_meets_CoreEvents :
    (let e : SbEntry := { cpu := 3, addr := 0x10000000, n := 4, data := 7 }
     sbOf { up [] with sbuf := [e] } 3 = e :: [])
    ∧ coreRuns (up [(CH_CORETAG_HALTED, 3, 0)]) 3 = true ∧ coreRuns (up []) 4 = true ∧ (0x83FFE0 : Word).toNat < 0x840000
    ∧ (up []).icache = [] ∧ mayIssue (up [(CH_CORETAG_HALTED, 3, 0)]) (.core 3) = true ∧ tlbHit (up []) 3 0 = none
    ∧ (let d := (up [] [(.cLate, 3, 1)]).setCr 3 crCS 0; d.im 3 = false ∧ intPending d 3 = true)
    ∧ passOn onEngine 15 33 = onEngine.passes.head? ∧ (∀ p ∈ onEngine.passes, 64 ≤ p.e2)
    ∧ (∀ p ∈ onEngine.passes, onEngine.hn .gStd (tk p.grove p.task) = 0
        ∧ (onEngine.setH .gStd (tk p.grove p.task) 6).hn .gStd (tk p.grove p.task) ≠ 0)
    ∧ legalWord .engine 0 = false ∧ legalWord .warden 0xFFFFFFFF = false := by decide +kernel

/-! ### Single steps -/

/-- Two general registers of the warden set. -/
def regs2 (a b : Word) : State := at_ (((up []).setG 4 1 a).setG 4 2 b)

/-- Carry and zero of a sum that wraps (R573). -/
theorem test_add_wraps : goes (Machine.execAdd .warden 3 1 2 true (regs2 0xFFFFFFFF 1)) (fun t =>
    t.dev.g 4 3 == 0 && bitsOf (t.dev.cr 4 crCS) 28 4 == 6 && t.dev.pc 4 == (up []).pc 4 + 4) = true := by decide +kernel

/-- A difference with no borrow has C set (R573). -/
theorem test_sub_carry : goes (Machine.execSub .warden 1 1 2 true (regs2 5 7)) (fun t =>
    t.dev.g 4 1 == 0xFFFFFFFE && bitsOf (t.dev.cr 4 crCS) 28 4 == 8) = true := by decide +kernel

/-- A divide by 0 and the overflowing divide (R576). -/
theorem test_div_corners :
    goes (Machine.execDivu .warden 3 1 2 false (regs2 9 0)) (fun t => t.dev.g 4 3 == 0xFFFFFFFF) = true
    ∧ goes (Machine.execRem .warden 3 1 2 false (regs2 0x80000000 0xFFFFFFFF)) (fun t => t.dev.g 4 3 == 0) = true := by decide +kernel

/-- g0 reads 0 and discards writes (R565). -/
theorem test_g0 : goes (Machine.execAddi .warden 0 1 5 (regs2 1 1)) (fun t => t.dev.g 4 0 == 0 && t.dev.gpr == (regs2 1 1).dev.gpr) = true := by
  decide +kernel

/-- A store and a load of a word of SRAM by the warden, through its store buffer (R581, R597). -/
theorem test_store_load : goes (Machine.execStw .warden 4 4 0 atWork) (fun t =>
    goes (Machine.execLdw .warden 5 4 0 t) fun u => u.dev.g 4 5 == 0x10000000) = true := by decide +kernel

/-- An unaligned word load raises vector 4, whose vector word is 0 in cleared memory: the warden halts (R582, R609). -/
theorem test_unaligned_load : goes (Machine.execLdw .warden 5 4 2 atWork) (fun t => t.dev.hon .cHalt) = true := by decide +kernel

/-- A wrong watchdog key is no kick (R239). -/
theorem test_wdg_key : goes (Machine.execWdgKick .warden 0x5A3D (at_ (up []))) (fun t =>
    t.dev.on FB_DCAUSE_ACC_ERR && !t.dev.hon .wdgAt) = true := by decide +kernel

/-- A write to a domain that is off (R517). -/
theorem test_write_off : goes (Machine.execRegisterWrite .warden 0x40000000 0 (at_ (fix [] [(.svcOn, 0, 1)]))) (fun t =>
    t.dev.on PD_CAUSE_OFF_ACC) = true := by decide +kernel

/-- One bit of a byte of SRAM flipped is corrected, two are not (R638). -/
theorem test_ecc : eccByte (0x5A ^^^ 1) (chk5 0x5A) = (0x5A, 1) ∧ (eccByte (0x5A ^^^ 3) (chk5 0x5A)).2 = 2 := by decide +kernel

/-- A rail request with no reason to wait leaves OFF (R183). -/
theorem test_rail_enable : goes (Machine.execRailEnWrite .warden 0 (at_ (owned (up [])))) (fun t =>
    t.dev.on RL_CTL_EN 0 || t.dev.on RL_CAUSE_CFG_ERR 0) = true := by decide +kernel

/-- A command whose event cannot be changes nothing. -/
theorem test_no_event : goes (Machine.execPgRise 3 (at_ (up []))) (· == at_ (up [])) = true := by decide +kernel

/-- The worked product of R577's section: 6,442,451 times 1,024 by MULQ with SH = 6 is 103,079,216. -/
theorem test_mulq_example : goes (Machine.execMulq .warden 3 1 2 false false false 6 (regs2 6442451 1024)) (fun t =>
    t.dev.g 4 3 == 103079216) = true := by decide +kernel

/-- Trust after sixteen accurate outcomes from 0, and after one phantom then (the example below R171). -/
theorem test_trust_example : (List.replicate 16 0).foldl (fun t c => trustStep c t) 0 = 161 ∧ trustStep 1 161 = 121 := by decide +kernel

/-- PLACE's targets for three phases at 0, 100 and 40000: a third of a turn apart, about their midpoint (R167). -/
theorem test_place : (List.range 3).map (placeStep 3) = [0, 21845, 43691] ∧ placeBase [0, 100, 40000] = -10873 := by decide +kernel

/-- The impulse response of x^58 + x^39 + 1 over the first 128 bits: 1 after 0, 39, 58, 78, 116 and 117 (R290). -/
theorem test_scramble : (scramble 0 (2 ^ 127) 128).1 = 2 ^ 127 + 2 ^ 88 + 2 ^ 69 + 2 ^ 49 + 2 ^ 11 + 2 ^ 10 := by decide +kernel

/-- A flit that is formed passes its check, and with a bit of its payload changed it does not (R291). -/
theorem test_flit_crc : flitPasses (flitBits 0x40 5) = true ∧ flitPasses (flitBits 0x40 5 ^^^ 2 ^ 119) = false := by decide +kernel

/-- The ownership bytes of section 11's example tenancy: phase 28 is entry 28, in the low nibble of byte 0x26. -/
theorem test_phase_owner : phaseOwner ((fix []).setR CH_CHARTER 9 0x00220000) 28 = (2, false)
    ∧ phaseOwner ((fix []).setR CH_CHARTER 9 0x00220000) 27 = (0, false) := by decide +kernel

end Sys2Proof.Tests
end

section
/-! PROOF. What a written word leaves in a register's fields, and what becomes of a write that is reserved, turned away or
accepted (R10 to R14, R33, R39). -/

namespace Sys2Proof.Machine

/-! ### The bits of a field, as a number -/

theorem testBit_bitsOf (w : Word) (lo n i : Nat) :
    (bitsOf w lo n).testBit i = (decide (i < n) && w.getLsbD (lo + i)) := by
  rw [bitsOf, BitVec.testBit_toNat, BitVec.getLsbD_extractLsb']

theorem bitsOf_lt (w : Word) (lo n : Nat) : bitsOf w lo n < 2 ^ n := (w.extractLsb' lo n).isLt

theorem bitsOf_and (x y : Word) (lo n : Nat) : bitsOf (x &&& y) lo n = bitsOf x lo n &&& bitsOf y lo n := by
  apply Nat.eq_of_testBit_eq
  intro i
  simp only [Nat.testBit_and, testBit_bitsOf, BitVec.getLsbD_and]
  cases decide (i < n) <;> rfl

theorem bitsOf_or (x y : Word) (lo n : Nat) : bitsOf (x ||| y) lo n = bitsOf x lo n ||| bitsOf y lo n := by
  apply Nat.eq_of_testBit_eq
  intro i
  simp only [Nat.testBit_or, testBit_bitsOf, BitVec.getLsbD_or]
  cases decide (i < n) <;> rfl

theorem bitsOf_not (x : Word) (lo n : Nat) (h32 : lo + n ≤ 32) : bitsOf (~~~x) lo n = 2 ^ n - 1 - bitsOf x lo n := by
  apply Nat.eq_of_testBit_eq
  intro i
  rw [Nat.sub_sub, Nat.add_comm 1, Nat.testBit_two_pow_sub_succ (bitsOf_lt x lo n), testBit_bitsOf, testBit_bitsOf,
    BitVec.getLsbD_not]
  by_cases hi : i < n
  · simp [hi, show lo + i < 32 by omega]
  · simp [hi]

/-- The field written with a field's value of another word reads as that value. -/
theorem bitsOf_putBits_valOf (x w : Word) (F : Fld) (h32 : F.lo + F.n ≤ 32) :
    bitsOf (putBits x F.lo F.n (valOf w F)) F.lo F.n = valOf w F := by
  have hlt : (valOf w F : Int) < 2 ^ F.n := by exact_mod_cast bitsOf_lt w F.lo F.n
  rw [bitsOf_putBits_same _ _ _ _ h32, Int.emod_eq_of_lt (Int.natCast_nonneg _) hlt, Int.toNat_natCast]

/-! ### One field of a written word -/

/-- What a field holding `old` takes from a write of `w`, by its access type (R10 to R12). -/
def takenValue (d : Dev) (row : RegRow) (j : Nat) (w : Word) (F : Fld) (old : Nat) : Nat :=
  match F.acc with
  | .rw => valOf w F
  | .w1c => old &&& ((2 ^ F.n - 1 - valOf w F) ||| bitsOf (d.setNow (row.reg.addr j)) F.lo F.n)
  | .w1s => old ||| valOf w F
  | .rwl | .rwo => if lockedF d row.reg j F then old else valOf w F
  | .ro | .wo => old

/-- The word `x` of a register after field F of it has taken its value from a write of `w`: one round of `newWord`. -/
def takeField (d : Dev) (row : RegRow) (j : Nat) (w x : Word) (F : Fld) : Word :=
  let v := valOf w F
  match F.acc with
  | .rw => putBits x F.lo F.n v
  | .w1c => x &&& (~~~(putBits 0 F.lo F.n v) ||| d.setNow (row.reg.addr j))
  | .w1s => x ||| putBits 0 F.lo F.n v
  | .rwl | .rwo => if lockedF d row.reg j F then x else putBits x F.lo F.n v
  | .ro | .wo => x

theorem newWord_eq_foldl (d : Dev) (row : RegRow) (j : Nat) (w : Word) :
    newWord d row j w = row.fields.foldl (takeField d row j w) (d.r row.reg j) := rfl

/-- A field takes its value. -/
theorem bitsOf_takeField_same (d : Dev) (row : RegRow) (j : Nat) (w x : Word) (F : Fld) (h32 : F.lo + F.n ≤ 32) :
    bitsOf (takeField d row j w x F) F.lo F.n = takenValue d row j w F (bitsOf x F.lo F.n) := by
  have hput (y : Word) := bitsOf_putBits_valOf y w F h32
  unfold takeField takenValue
  cases F.acc with
  | rw => exact hput x
  | w1c => simp only [bitsOf_and, bitsOf_or, bitsOf_not _ _ _ h32, hput]
  | w1s => simp only [bitsOf_or, hput]
  | rwl | rwo => simp only; split <;> simp only [hput]
  | ro | wo => rfl

/-- A field that takes its value leaves the bits outside it. -/
theorem getLsbD_takeField_outside (d : Dev) (row : RegRow) (j : Nat) (w x : Word) (F : Fld) (i : Nat) (hi : i < 32)
    (ho : ¬(F.lo ≤ i ∧ i < F.lo + F.n)) : (takeField d row j w x F).getLsbD i = x.getLsbD i := by
  have hput (y : Word) : (putBits y F.lo F.n (valOf w F)).getLsbD i = y.getLsbD i := by
    rw [getLsbD_putBits _ _ _ _ _ hi, if_neg ho]
  unfold takeField
  cases F.acc with
  | rw => exact hput x
  | w1c => simp [hput, hi, -BitVec.getLsbD_eq_getElem]
  | w1s => simp [hput, -BitVec.getLsbD_eq_getElem]
  | rwl | rwo => simp only; split <;> simp only [hput]
  | ro | wo => rfl

/-! ### The fields of a register -/

/-- Two fields share no bit. -/
@[reducible] def Fld.apart (F G : Fld) : Prop := F.lo + F.n ≤ G.lo ∨ G.lo + G.n ≤ F.lo

/-- The fields of a row are fields of its register that lie in its 32 bits and share no bit. -/
@[reducible] def FieldsApart (row : RegRow) : Prop :=
  (∀ F ∈ row.fields, F.reg = row.reg ∧ F.lo + F.n ≤ 32) ∧ row.fields.Pairwise Fld.apart

theorem regRows_fieldsApart : ∀ row ∈ regRows, FieldsApart row := by decide +kernel

/-- A bit that none of the fields covers stays. -/
theorem getLsbD_foldl_takeField_outside (d : Dev) (row : RegRow) (j : Nat) (w x : Word) (fs : List Fld) (i : Nat) (hi : i < 32)
    (hfs : ∀ F ∈ fs, ¬(F.lo ≤ i ∧ i < F.lo + F.n)) : (fs.foldl (takeField d row j w) x).getLsbD i = x.getLsbD i := by
  induction fs generalizing x with
  | nil => rfl
  | cons F fs ih =>
    rw [List.foldl_cons, ih _ fun G hG => hfs G (List.mem_cons_of_mem F hG)]
    exact getLsbD_takeField_outside _ _ _ _ _ _ i hi (hfs F List.mem_cons_self)

/-- So does every bit of a written register outside its fields. -/
theorem getLsbD_newWord_outside (d : Dev) (row : RegRow) (j : Nat) (w : Word) (i : Nat) (hi : i < 32)
    (hfs : ∀ F ∈ row.fields, ¬(F.lo ≤ i ∧ i < F.lo + F.n)) :
    (newWord d row j w).getLsbD i = (d.r row.reg j).getLsbD i :=
  getLsbD_foldl_takeField_outside d row j w _ row.fields i hi hfs

/-- Fields beside field G leave it as it is. -/
theorem bitsOf_foldl_takeField_beside (d : Dev) (row : RegRow) (j : Nat) (w x : Word) (G : Fld) (fs : List Fld)
    (h32 : G.lo + G.n ≤ 32) (hfs : ∀ F ∈ fs, Fld.apart F G) :
    bitsOf (fs.foldl (takeField d row j w) x) G.lo G.n = bitsOf x G.lo G.n := by
  refine bitsOf_eq _ _ _ _ fun i h1 h2 => getLsbD_foldl_takeField_outside d row j w x fs i (by omega) fun F hF => ?_
  have hapart : F.lo + F.n ≤ G.lo ∨ G.lo + G.n ≤ F.lo := hfs F hF
  omega

/-- Each field of a register takes its own value from a write (R10 to R12). -/
theorem bitsOf_newWord {row : RegRow} (hrow : FieldsApart row) (d : Dev) (j : Nat) (w : Word) {F : Fld} (hF : F ∈ row.fields) :
    bitsOf (newWord d row j w) F.lo F.n = takenValue d row j w F (d.f F j) := by
  obtain ⟨hin, hpair⟩ := hrow
  obtain ⟨hreg, h32⟩ := hin F hF
  obtain ⟨before, after, hsplit⟩ := List.append_of_mem hF
  rw [hsplit, List.pairwise_append, List.pairwise_cons] at hpair
  obtain ⟨-, ⟨hafter, -⟩, hbefore⟩ := hpair
  rw [newWord_eq_foldl, hsplit, List.foldl_append, List.foldl_cons,
    bitsOf_foldl_takeField_beside _ _ _ _ _ _ after h32 fun G hG => (hafter G hG).symm,
    bitsOf_takeField_same _ _ _ _ _ _ h32,
    bitsOf_foldl_takeField_beside _ _ _ _ _ _ before h32 fun G hG => hbefore G hG F List.mem_cons_self, Dev.f, hreg]

/-- A field that a write hits locked is a lockable one, is locked, and would change (R11). -/
theorem lockHit_some {d : Dev} {row : RegRow} {j : Nat} {w : Word} {F : Fld} (h : lockHit d row j w = some F) :
    (F.acc = .rwl ∨ F.acc = .rwo) ∧ lockedF d row.reg j F = true ∧ valOf w F ≠ d.f F j := by
  have hp := List.find?_some h
  simp only [Bool.and_eq_true, Bool.or_eq_true, beq_iff_eq, bne_iff_ne] at hp
  obtain ⟨⟨hacc, hne⟩, hlock⟩ := hp
  exact ⟨hacc, hlock, hne⟩

/-- Settles O7: a field takes its value in its own round of `newWord`, and the other rounds leave it, since no two fields of
a register share a bit. -/
theorem accessTypes : Obligations.AccessTypes := by
  unfold Obligations.AccessTypes
  intro d row j w F hrow hF old v new
  have hnew : new = takenValue d row j w F old := bitsOf_newWord (regRows_fieldsApart row hrow) d j w hF
  rw [hnew]
  refine ⟨?rw, ?w1c, ?w1s, ?readOnly, ?lockable, lockHit_some⟩
  case rw | w1c | w1s => intro h; simp only [takenValue, h]; rfl
  case readOnly | lockable => rintro (h | h) <;> simp only [takenValue, h] <;> rfl

/-! ### Causes of a refused write -/

/-- The leaf bit set reads 1. -/
theorem getLsbD_setLeaf_same (d : Dev) (x : Reg × Nat) (b : Nat) (hb : b < 32) :
    ((setLeaf d x b).r x.1 x.2).getLsbD b = true := by
  rw [setLeaf, Dev.r_set1, Dev.setF, Dev.r_setR_same, getLsbD_putBits _ _ _ _ _ hb, if_pos ⟨le_refl b, Nat.lt_succ_self b⟩,
    Nat.sub_self]
  decide

/-- The other bits of the leaf stay. -/
theorem getLsbD_setLeaf_beside (d : Dev) (x : Reg × Nat) {b c : Nat} (hc : c < 32) (hbc : b ≠ c) :
    ((setLeaf d x b).r x.1 x.2).getLsbD c = (d.r x.1 x.2).getLsbD c := by
  rw [setLeaf, Dev.r_set1, Dev.setF, Dev.r_setR_same, getLsbD_putBits _ _ _ _ _ hc, if_neg]
  simp only; omega

/-- So does a register at another address. -/
theorem r_setLeaf_other (d : Dev) {x : Reg × Nat} {R : Reg} {i : Nat} (b : Nat) (h : x.1.addr x.2 ≠ R.addr i) :
    (setLeaf d x b).r R i = d.r R i := by
  rw [setLeaf, Dev.r_set1, Dev.setF, Dev.r_setR_other _ _ h]

/-- A lock error and an access error of one register are in one leaf or at two addresses: they part only at TC_OWN, whose
lock error is that of the locked field's converter (R391). -/
theorem lockLeaf_eq_or_apart (R : Reg) (i : Nat) (F : Fld) :
    leafOf R i = lockLeaf R i F ∨ (leafOf R i).1.addr (leafOf R i).2 ≠ (lockLeaf R i F).1.addr (lockLeaf R i F).2 := by
  unfold lockLeaf
  split
  case isTrue h =>
    subst h
    have hleaf : leafOf TC_OWN i = (TC_CAUSE, unitOf TC_OWN i) := rfl
    rw [hleaf]
    by_cases heq : unitOf TC_OWN i = F.lo / 3
    · exact .inl (by rw [heq])
    · refine .inr fun haddr => heq ?_
      simpa [Reg.addr, TC_CAUSE] using haddr
  case isFalse => exact .inl rfl

/-- The device after the lock error, if any, of a write (R11). -/
def lockErr (d : Dev) (row : RegRow) (j : Nat) (w : Word) : Dev :=
  match lockHit d row j w with
  | some F => setLeaf d (lockLeaf row.reg j F) 14
  | none => d

theorem lockErr_of_some {d : Dev} {row : RegRow} {j : Nat} {w : Word} {F : Fld} (h : lockHit d row j w = some F) :
    lockErr d row j w = setLeaf d (lockLeaf row.reg j F) 14 := by simp [lockErr, h]

theorem lockErr_of_none {d : Dev} {row : RegRow} {j : Nat} {w : Word} (h : lockHit d row j w = none) :
    lockErr d row j w = d := by simp [lockErr, h]

/-- A write that places a reserved encoding sets the errors and does nothing else (R14). -/
theorem regWrite_reserved {s : State} (who : Initiator) {row : RegRow} {j : Nat} {w : Word} (hdb : row.reg.db ≠ .grove)
    (hres : reservedWord s.dev row j w = true) :
    regWrite s who row j w = s.onDev fun d => accErr (lockErr d row j w) row.reg j := by
  have hchecks : writeChecks s.dev row j w = (accErr (lockErr s.dev row j w) row.reg j, false) := by
    simp only [writeChecks, hdb, hres, if_true, if_false]; rfl
  simp only [regWrite, hchecks]; rfl

/-- Settles O6: the write sets the two errors in leaves at other addresses than the register's own. -/
theorem reservedEncodings : Obligations.ReservedEncodings := by
  unfold Obligations.ReservedEncodings
  intro s who row j w hdb hres hleaf hlock
  rw [regWrite_reserved who hdb hres]
  refine ⟨?unchanged, getLsbD_setLeaf_same _ _ 15 (by decide), ?lockError, rfl, rfl⟩
  case unchanged =>
    have hkeep : (lockErr s.dev row j w).r row.reg j = s.dev.r row.reg j := by
      cases hhit : lockHit s.dev row j w with
      | none => rw [lockErr_of_none hhit]
      | some F => rw [lockErr_of_some hhit, r_setLeaf_other _ _ (hlock F)]
    exact (r_setLeaf_other _ _ hleaf).trans hkeep
  case lockError =>
    intro F hhit
    have hset := getLsbD_setLeaf_same s.dev (lockLeaf row.reg j F) 14 (by decide)
    simp only [State.onDev_dev, lockErr_of_some hhit, accErr]
    rcases lockLeaf_eq_or_apart row.reg j F with heq | hne
    · rw [heq, getLsbD_setLeaf_beside _ _ (by decide) (by decide), hset]
    · rw [r_setLeaf_other _ _ hne, hset]

/-! ### A word stored at a register's address -/

/-- A word store at a register address that no register has goes by the domain of the offset (R13, R517). -/
theorem busStore_noReg {s : State} {who : Initiator} {a v : Nat} (hb : busOpen s.dev who = true)
    (hr : isRegAddr a = true) (h4 : a % 4 = 0) (ha : regAt a = none) :
    busStore s who a 4 v = if offsetPowered s.dev a then (.ok 0, s) else offErr s := by
  obtain ⟨-, hram, hgv, hctx, htok⟩ := isRegAddr_elsewhere hr
  simp [busStore, regStore, hb, hr, h4, ha, hram, hgv, hctx, htok]

/-- REGISTER_WRITE at a register address is the bus's word store. -/
theorem exec_registerWrite {s : State} (who : Initiator) {addr : Word} (data : Word) (hr : isRegAddr addr.toNat = true) :
    exec (.registerWrite who addr data) s = .next (keepRes (busStore s who addr.toNat 4 data.toNat)) :=
  if_pos hr

/-- A store to a register of a domain that is off (R517). -/
theorem regStoreAt_off {s : State} (who : Initiator) {row : RegRow} {j : Nat} (a : Nat) (w : Word)
    (hp : regPowered s.dev row.reg j = false) : regStoreAt s who row j a w = offErr s := by
  simp [regStoreAt, hp]

section NoTrail
variable {s : State} {who : Initiator} {row : RegRow} {j a : Nat} {w : Word}

/-- A register that trails do not own is none of the three that a trail's owner writes (R465). -/
theorem not_trailReg {R : Reg} (h : R.own ≠ .trail) : R ≠ TR_SRC ∧ R ≠ TR_DSTA ∧ R ≠ TR_DSTB :=
  ⟨fun e => h (by rw [e]; rfl), fun e => h (by rw [e]; rfl), fun e => h (by rw [e]; rfl)⟩

/-- A store by an initiator that may not write (R39). -/
theorem regStoreAt_denied (ht : row.reg.own ≠ .trail) (hp : regPowered s.dev row.reg j = true)
    (hn : namedOk s who row.reg w = true) (hm : mayWrite s who row.reg j w = false) :
    regStoreAt s who row j a w = denied s who (refKind who row.reg true) (regOwner s.dev row.reg j) true a := by
  obtain ⟨h1, h2, h3⟩ := not_trailReg ht
  simp [regStoreAt, hp, hn, hm, h1, h2, h3]

/-- A store by an initiator that may write, of a register outside AON, is the register's write. -/
theorem regStoreAt_write (ht : row.reg.own ≠ .trail) (hp : regPowered s.dev row.reg j = true)
    (hn : namedOk s who row.reg w = true) (hm : mayWrite s who row.reg j w = true) (hq : aonQueueOf a = none) :
    regStoreAt s who row j a w = (.ok 0, regWrite s who row j w) := by
  obtain ⟨h1, h2, h3⟩ := not_trailReg ht
  simp [regStoreAt, hp, hn, hm, hq, h1, h2, h3]

end NoTrail

/-- Settles O31: the command is the bus's store, which the checks of a register's store sort into the cases. -/
theorem registerWriteRules : Obligations.RegisterWriteRules := by
  unfold Obligations.RegisterWriteRules Leads
  intro s who addr data hb hr h4
  rw [exec_registerWrite who data hr]
  refine ⟨fun hnone => ?noReg, fun row j hat ht => ?reg⟩
  case noReg =>
    rw [busStore_noReg hb hr h4 hnone]
    exact ⟨fun hp => by rw [if_pos hp], fun hp => by rw [if_neg (by simp [hp])]; rfl⟩
  case reg =>
    rw [busStore_reg hb hr h4 hat, BitVec.ofNat_toNat, BitVec.setWidth_eq]
    refine ⟨fun hp => ?off, fun hp hn hm => ?denied, fun hq hdb => ⟨fun hacc => ?accepted, fun hp hn hm hl hres => ?reserved⟩⟩
    case off => rw [regStoreAt_off who _ _ hp]; rfl
    case denied => rw [regStoreAt_denied ht hp hn hm]
    case accepted =>
      obtain ⟨h1, h2, h3⟩ := not_trailReg ht
      rw [regStoreAt_accepted hacc h1 h2 h3 hq hdb]
    case reserved =>
      rw [regStoreAt_write ht hp hn hm hq, regWrite_reserved who hdb hres]
      simp only [State.onDev, lockErr_of_none hl]; rfl

end Sys2Proof.Machine
end

section
/-! PROOF. Every command answers a next state: first the shared shapes of a meaning and the meanings that choose between
several next states, then all commands. -/

namespace Sys2Proof.Machine

/-- An outcome that is a next state. -/
def Answers (o : Host.Outcome State Fault Refusal) : Prop := ∃ t, o = .next t

theorem Answers.next (t : State) : Answers (.next t) := ⟨t, rfl⟩

theorem Answers.ite {c : Prop} [Decidable c] {o p : Host.Outcome State Fault Refusal} (ho : Answers o) (hp : Answers p) :
    Answers (if c then o else p) := by
  split
  · exact ho
  · exact hp

/-! ### The shapes that many commands share -/

/-- A PMBus standard command (R448). -/
theorem std_answers (code : Nat) (x : PmbOp) (s : State) : Answers (std code x s) := by
  unfold std
  refine .ite (.next _) ?_
  cases x with
  | read => exact .next _
  | write data pec => exact .next _

/-- A packet's opcode, with the packet next to be served or none (R437). -/
theorem serve_answers (op : Nat) (f : OpFn) (s : State) : Answers (serve op f s) := by
  unfold serve
  simp only
  split
  · exact .next _
  · exact .next _

/-- An opcode that may hold the warden (R438). -/
theorem serveHeld_answers (op : Nat) (f : OpFn) (g : LongFn) (s : State) : Answers (serveHeld op f g s) := by
  unfold serveHeld
  split
  · exact .next _
  · exact serve_answers op f s

/-- An instruction that is illegal under a condition on the CPU or its operands, and else writes a register. -/
theorem illegalOrRegIns_answers (c : Prop) [Decidable c] (cpu : Cpu) (rt : GReg) (sf : Bool) (s : State)
    (f : Dev → Word × Flags) : Answers (if c then runIns cpu s illegal else regIns cpu rt sf s f) :=
  .ite (.next _) (.next _)

/-! ### Events that look for their object in a queue or a list -/

theorem execLongPacketComplete_answers (g : Fin 16) (s : State) : Answers (execLongPacketComplete g s) := by
  unfold execLongPacketComplete
  split
  · exact .next _
  · exact .next _

theorem execRecordHandover_answers (c : Fin 8) (s : State) : Answers (execRecordHandover c s) := by
  unfold execRecordHandover
  split
  · exact .next _
  · exact .next _

theorem execConsumerDelivery_answers (cons : BitVec 12) (s : State) : Answers (execConsumerDelivery cons s) := by
  unfold execConsumerDelivery
  split
  · exact .next _
  · exact .ite (.next _) (.next _)

theorem execElogWrite_answers (i : Fin 256) (s : State) : Answers (execElogWrite i s) := by
  unfold execElogWrite
  split
  · exact .next _
  · exact .next _

theorem execLogAppend_answers (ok : Bool) (s : State) : Answers (execLogAppend ok s) := by
  unfold execLogAppend
  split
  · exact .next _
  · exact .ite (.next _) (.next _)

theorem execScrubVisit_answers (s : State) : Answers (execScrubVisit s) := by
  unfold execScrubVisit
  refine .ite (.next _) ?_
  split
  · exact .next _
  · exact .ite (.next _) (.next _)

theorem execDmaBurst_answers (s : State) : Answers (execDmaBurst s) := by
  unfold execDmaBurst
  split
  · exact .next _
  · exact .next _

theorem execDescriptorFetch_answers (ch : Fin 32) (s : State) : Answers (execDescriptorFetch ch s) := by
  unfold execDescriptorFetch
  refine .ite (.ite (.next _) ?_) (.next _)
  split
  · exact .next _
  · exact .next _

/-! ### Commands whose outcome depends on their operand or on a register -/

theorem execTokenClaim_answers (c : Claimer) (s : State) : Answers (execTokenClaim c s) := by
  unfold execTokenClaim
  refine .ite (.next _) ?_
  cases c with
  | lane l => exact .next _
  | dma ch => exact .next _

theorem execDmaTrig_answers (who : Option Initiator) (ch : Fin 32) (s : State) : Answers (execDmaTrig who ch s) := by
  cases who with
  | some who => exact .next _
  | none => exact .next _

theorem execWardenWdogExpire_answers (s : State) : Answers (execWardenWdogExpire s) := by
  unfold execWardenWdogExpire
  refine .ite ?_ (.next _)
  simp only
  split
  · exact .next _
  · exact .next _
  · exact .next _

/-! ### All commands -/

/-- Every command answers: the commands named here choose between next states, and the meaning of each other one is a next
state as it stands. -/
theorem exec_answers (c : Instr) (s : State) : Answers (exec c s) := by
  cases c
  -- PMBus standard commands
  case page | operation | onOffConfig | clearFaults | capability | voutMode | voutCommand | statusByte | statusWord
      | statusVout | statusIout | statusInput | statusTemperature | statusCml | readVin | readIin | readVout | readIout
      | readTemperature1 | readPout | pmbusRevision | mfrId | mfrModel =>
    exact std_answers ..
  case mfrSpecific00 => exact .ite (.next _) (.ite (.next _) (.next _))
  -- packets
  case setState | stageAccess | rtcSet => exact serveHeld_answers ..
  case devInfo | devStatus | echo | regRead | regWrite | regModify | railStatus | railEnable | railVout | railRamp
      | railLoadline | railComp | railLimits | railStrike | railConfig | railIlim | railCoppice | railSeq | railProtect
      | railClear | railPeriod | railSteer | railCause | phaseStatus | phaseRole | phaseConfig | phaseProtect | phaseClear
      | phaseAz | stageDesc | toneMap | rollCall | storeStatus | storeConfig | storeEnable | storeFloor | ceiling
      | escalation | ceilSense | laneStatus | laneEnable | laneConfig | partnerId | intentConfig | intentTrust
      | intentStatus | coupleConfig | coupleCmd | coupleStatus | teleLast | teleConfig | teleCtl | teleOwn | railReadings
      | timeGet | meterRead | billingRead | lifeStage | lifeDevice | logRead | lifeFlush | fwInfo | fwBegin | fwWrite
      | fwVerify | fwSwap | fwAbort | partInfo | reflogRead | coreAssign | coreCtl | imageLoad | groveLead | groveBanks
      | groveInstall | groveStd | groveTask | resAssign | fuseOp =>
    exact serve_answers ..
  case longPacketComplete => exact execLongPacketComplete_answers ..
  -- instructions
  case div | divu | rem | remu | bfx | bfxs | bfi | perm => exact illegalOrRegIns_answers ..
  -- queues, rings and channels
  case recordHandover => exact execRecordHandover_answers ..
  case consumerDelivery => exact execConsumerDelivery_answers ..
  case elogWrite => exact execElogWrite_answers ..
  case dmaTrig => exact execDmaTrig_answers ..
  case descriptorFetch => exact execDescriptorFetch_answers ..
  case dmaBurst => exact execDmaBurst_answers ..
  case tokenClaim => exact execTokenClaim_answers ..
  -- flash, memory and the life log
  case logAppend => exact execLogAppend_answers ..
  case scrubVisit => exact execScrubVisit_answers ..
  case eraseVerifyDone => exact .ite (.ite (.next _) (.ite (.next _) (.next _))) (.next _)
  case wardenWdogExpire => exact execWardenWdogExpire_answers ..
  -- commands with an effect in some states only
  case registerWrite | verifyDone | domainReturnDone | rdtwinDone | programPulseDone | brownOut | resetRelease | fuseLoadDone
      | bootVerifyDone | logScanDone =>
    exact .ite (.next _) (.next _)
  all_goals exact .next _

/-- Settles O2, from the meanings of all commands. -/
theorem everyCommandRuns : Obligations.EveryCommandRuns := exec_answers

end Sys2Proof.Machine
end

section
/-! PROOF. What every command keeps (Keeps), of the shapes that many meanings share and of the memories' own operations: the
flash controller, the life log, the scrubber and the spare words (spec/19). -/

namespace Sys2Proof.Machine

/-! ### Shapes that many meanings share -/

theorem Keeps.either {s t u : State} {c : Prop} [Decidable c] (h : Keeps s t) (k : Keeps s u) :
    Keeps s (if c then t else u) := .ite c (fun _ => h) fun _ => k

theorem Keeps.onlyIf {s t : State} {c : Prop} [Decidable c] (h : Keeps s t) : Keeps s (if c then t else s) :=
  .either h (.refl s)

theorem Keeps.unless {s t : State} {c : Prop} [Decidable c] (h : Keeps s t) : Keeps s (if c then s else t) :=
  .either (.refl s) h

/-- The same of a result that carries its state with it. -/
theorem Keeps.eitherOf {α : Type} (state : α → State) {s : State} {c : Prop} [Decidable c] {x y : α}
    (h : Keeps s (state x)) (k : Keeps s (state y)) : Keeps s (state (if c then x else y)) := by
  rw [apply_ite state]; exact .either h k

theorem Keeps.eitherSnd {α : Type} {s : State} {c : Prop} [Decidable c] {x y : α × State} (h : Keeps s x.2)
    (k : Keeps s y.2) : Keeps s (if c then x else y).2 := .eitherOf Prod.snd h k

/-- The state that a result names is the state beside the result. -/
theorem Keeps.snd {α : Type} {s t : State} {x : α × State} {a : α} (e : x = (a, t)) (h : Keeps s x.2) : Keeps s t := by
  rw [e] at h; exact h

theorem Keeps.foldl_snd {α β : Type} {g : α × State → β → α × State} (l : List β) (x : α × State)
    (h : ∀ y b, Keeps y.2 (g y b).2) : Keeps x.2 (l.foldl g x).2 := by
  induction l generalizing x with
  | nil => exact .refl _
  | cons b t ih => exact (h x b).trans (ih _)

/-! ### Reads of the memories -/

theorem Keeps.sramRead (s : State) (b a n slot : Nat) : Keeps s (sramRead s b a n slot).2 := by
  obtain ⟨hmem, hpend⟩ := sramRead_mem s b a n slot
  exact ⟨fun h => hmem ▸ h, hpend⟩

theorem Keeps.testLoad (s : State) (b a : Nat) : Keeps s (testLoad s b a).2 := (Keeps.onDev ..).trans (.onDev ..)

theorem Keeps.flashRead (s : State) (a n : Nat) : Keeps s (flashRead s a n).2 := by
  unfold Machine.flashRead
  split
  · exact .refl s
  · split
    · exact .onDev ..
    · dsimp only
      split
      · exact .onDev ..
      · split <;> exact (Keeps.onDev ..).trans (.dev ..)

/-! ### The flash controller -/

theorem Keeps.lineErased (s : State) (k : Nat) : Keeps s (lineErased s k).2 := by
  unfold Machine.lineErased
  split
  · exact .dev ..
  · exact .refl s

theorem Keeps.fcEraseFail (s : State) : Keeps s (fcEraseFail s) := (Keeps.setMb ..).trans (.onDev ..)

theorem Keeps.swapShow (s : State) : Keeps s (swapShow s) := by
  unfold Machine.swapShow
  generalize (swapNewest s).getD (0, 0, 0) = x
  exact .onDev ..

theorem Keeps.swapProgram (s : State) (t st : Nat) : Keeps s (swapProgram s t st) := by
  unfold Machine.swapProgram
  extract_lets n j q u
  have hroom : Keeps s (if u < 256 then (s, j, u) else
      ((Machine.eraseKeys s (swapKey (1 - j) 0) 0x1000).onDev fun d => d.incSat LF_ERASE_VALUE 2, 1 - j, 0)).1 := by
    split
    · exact .refl s
    · exact (Keeps.eraseKeys ..).trans (.onDev ..)
  exact (hroom.trans ((Keeps.setMbs ..).trans (.tear ..))).trans (.onDev ..)

theorem Keeps.fcGo (s : State) : Keeps s (fcGo s) := by
  unfold Machine.fcGo
  extract_lets d op st no
  have hno : ∀ res why, Keeps s (no res why) := fun _ _ => .onDev ..
  clear_value op
  refine .unless (.either (hno ..) ?_)
  match op with
  | 0 | _ + 7 => exact hno ..
  | 1 =>
    cases hst : fcProgState d with
    | none => exact hno ..
    | some st' =>
      cases hk : fcTarget d with
      | none => exact hno ..
      | some k =>
        refine .either (hno ..) ?_
        refine .trans (.foldl_snd (List.range _) (true, s) ?_) (.either ?_ (.onDev ..))
        · exact fun _ _ => .lineErased ..
        · exact ((Keeps.setMbs ..).trans (.tear ..)).trans (.onDev ..)
  | 2 =>
    refine .either (hno ..) ?_
    cases fcTarget d with
    | none => exact hno ..
    | some k => exact .onDev ..
  | 3 => exact .either (.onDev ..) (.onDev ..)
  | 4 => exact .either (.onDev ..) (hno ..)
  | 5 =>
    cases fcProgState d with
    | none => exact hno ..
    | some st' => exact .either (hno ..) (.either (hno ..) (.onDev ..))
  | 6 =>
    cases fcProgState d with
    | none => exact hno ..
    | some st' => exact .swapProgram ..

theorem Keeps.fcClearing (s : State) : Keeps s (fcClearing s) := by
  unfold Machine.fcClearing
  exact .either (.fcEraseFail s) (.onlyIf ((Keeps.setMb ..).trans (.onDev ..)))

theorem Keeps.fcBrown (s : State) : Keeps s (fcBrown s) :=
  ((Keeps.onDev ..).trans (.fcClearing _)).trans (.onlyIf (.onDev ..))

/-! ### The life log -/

theorem Keeps.logPut (s : State) (b : List Nat) : Keeps s (logPut s b) := (Keeps.setMbs ..).trans (.onDev ..)

theorem Keeps.logRoll (s : State) : Keeps s (logRoll s) := by
  unfold Machine.logRoll
  extract_lets win all d0 seq j out hd s1 s2 s3 size full s4 s5
  have h3 : Keeps s s3 := ((Keeps.setMbs ..).trans (.onDev ..)).trans (.onDev ..)
  have h4 : Keeps s3 s4 := .onlyIf (.onDev ..)
  have h5 : Keeps s4 s5 := by
    cases hout : out
    case none => simp only [s5, hout]; exact .refl s4
    case some x => simp only [s5, hout]; exact .foldl _ _ fun _ _ => .logPut ..
  exact ((h3.trans h4).trans h5).trans (.either (.onDev ..) (.onDev ..))

theorem Keeps.logWrite (s : State) (r : LogRec) (ok : Bool) : Keeps s (logWrite s r ok) := by
  unfold Machine.logWrite
  exact ((Keeps.logPut ..).trans (.onDev ..)).trans (.either (.onDev ..) ((Keeps.tear ..).trans (.onDev ..)))

theorem Keeps.logScan (s : State) : Keeps s (logScan s) := by
  unfold Machine.logScan
  split
  · exact .onDev ..
  · exact .onDev ..

theorem Keeps.logRestore (s : State) : Keeps s (logRestore s) := by
  unfold Machine.logRestore
  exact (Keeps.logScan s).trans (.onDev ..)

/-! ### The scrubber and the spare words -/

theorem Keeps.scrubWord (s : State) (b a : Nat) : Keeps s (scrubWord s b a) := by
  unfold Machine.scrubWord
  refine .unless (((Keeps.onDev ..).trans (.onDev ..)).trans (.either (.onDev ..) (.onlyIf ?_)))
  exact (Keeps.sramPut ..).trans (.onlyIf (.onDev ..))

theorem Keeps.copyWord (s : State) (k k' : Nat) : Keeps s (copyWord s k k') :=
  ((Keeps.setMbs ..).trans (.setMbs ..)).trans (.setMb ..)

theorem Keeps.spareFill (s : State) (b i w : Nat) : Keeps s (spareFill s b i w) := by
  unfold Machine.spareFill
  exact .either (.copyWord ..) ((Keeps.sramPut ..).trans (.onlyIf (.onDev ..)))

theorem Keeps.remapWrite (s : State) (b i : Nat) (w : Word) : Keeps s (remapWrite s b i w) := by
  unfold Machine.remapWrite
  refine .either (.onDev ..) (.unless ?_)
  exact ((Keeps.onlyIf (.copyWord ..)).trans (.onlyIf (.spareFill ..))).trans (.onDev ..)

end Sys2Proof.Machine
end

section
/-! PROOF. What the queue manager's operations keep: ring contexts, tokens, and what a link took and sent
(spec/08, spec/13). -/

namespace Sys2Proof.Machine

/-! ### Ring contexts and rings -/

theorem Keeps.ctxCount (s : State) (r : Nat) (high : Bool) (n : Nat) : Keeps s (ctxCount s r high n) := .setCtx ..

theorem Keeps.ringFire (s : State) (r : Nat) : Keeps s (ringFire s r) := .onlyIf ((Keeps.setCtx ..).trans (.onDev ..))

theorem Keeps.ringEvent (s : State) (r : Nat) : Keeps s (ringEvent s r) := .onlyIf (.ringFire ..)

theorem Keeps.ringDrop (s : State) (r : Nat) : Keeps s (ringDrop s r) := .ctxCount ..

theorem Keeps.qmWrite (s : State) (a : Nat) (bytes : List Nat) : Keeps s (qmWrite s a bytes) := by
  refine .foldl _ _ fun t i => ?_
  dsimp only
  split
  · exact .sramWrite ..
  · exact .refl t

theorem Keeps.qmRead (s : State) (a n : Nat) : Keeps s (qmRead s a n).2 := by
  induction n generalizing s a with
  | zero => exact .refl s
  | succ n ih =>
    unfold Machine.qmRead
    split
    · exact .refl s
    · split
      next hread => exact (Keeps.snd hread (.sramRead ..)).trans (ih ..)
      next hread => exact .snd hread (.sramRead ..)

theorem Keeps.ringPut (s : State) (r : Nat) (bytes : List Nat) : Keeps s (ringPut s r bytes).2 := by
  unfold Machine.ringPut
  extract_lets a s1
  split
  · exact ((Keeps.qmWrite ..).trans (.setCtx ..)).trans (.ringEvent ..)
  · exact .refl s

/-! ### Tokens -/

theorem Keeps.tokensWritten (s : State) : Keeps s (tokensWritten s) := .filter ..

theorem Keeps.tokenLoad (s : State) (a : Nat) : Keeps s (tokenLoad s a).2 := by
  unfold Machine.tokenLoad
  split
  · exact .refl s
  · exact .dev ..

theorem Keeps.tokenStore (s : State) (a v : Nat) : Keeps s (tokenStore s a v) := (Keeps.mput ..).trans (.setMb ..)

theorem Keeps.tokenAdd (s : State) (r : Nat) (n : Int) : Keeps s (tokenAdd s r n) :=
  ((Keeps.tokensWritten s).trans (.setCtx ..)).trans (.onDev ..)

theorem Keeps.claim (s : State) (r : Nat) : Keeps s (claim s r).2 := by
  unfold Machine.claim
  extract_lets i p
  split
  · exact .refl s
  · split
    · exact (Keeps.setCtx ..).trans (.tokenAdd ..)
    · exact .onDev ..

theorem Keeps.tailAdvance (r n : Nat) (s : State) : Keeps s (tailAdvance r n s) := by
  induction n generalizing s with
  | zero => exact .refl s
  | succ n ih => exact .onlyIf (((Keeps.setCtx ..).trans (.onDev ..)).trans (ih _))

theorem Keeps.complete (s : State) (r i : Nat) : Keeps s (complete s r i) :=
  ((Keeps.tokenAdd ..).trans (.onDev ..)).trans (.tailAdvance ..)

theorem Keeps.completeLost (s : State) (r i : Nat) : Keeps s (completeLost s r i) :=
  ((Keeps.complete ..).trans (.ctxCount ..)).trans (.onDev ..)

/-! ### Settling what a link took and sent -/

theorem Keeps.takeDone (s : State) : Keeps s (takeDone s) := by
  unfold Machine.takeDone
  refine ((Keeps.onDev ..).trans (.foldl _ _ fun _ _ => ?_)).trans (.foldl _ _ fun _ _ => .ringFire ..)
  exact .either (.completeLost ..) (.complete ..)

theorem Keeps.takeRx (s : State) (m : RxMsg) : Keeps s (takeRx s m) := by
  unfold Machine.takeRx
  extract_lets drop b0 b r
  have hdrop : ∀ t, Keeps t (drop t) := fun _ => .onDev ..
  refine .either ((Keeps.onDev ..).trans (hdrop _)) (.onlyIf ?_)
  exact (Keeps.ringPut s r b).trans (.onlyIf (hdrop _))

theorem Keeps.qSettle (s : State) : Keeps s (qSettle s) :=
  (Keeps.takeDone s).trans (.foldl _ _ fun _ _ => .takeRx ..)

theorem Keeps.doorbell (s : State) (r op n : Nat) : Keeps s (doorbell s r op n) := by
  unfold Machine.doorbell
  split
  · exact .either ((Keeps.setCtx ..).trans (.ringEvent ..)) (.ctxCount ..)
  · exact .either (((Keeps.setCtx ..).trans (.setCtx ..)).trans (.qSettle _)) (.ctxCount ..)
  · exact .setCtx ..

theorem Keeps.ctxWrite (s : State) (r w v : Nat) : Keeps s (ctxWrite s r w v) := by
  unfold Machine.ctxWrite
  exact .either (.unless (.either (.setCtx ..) (.setCtx ..))) (.unless (.unless (.setCtx ..)))

theorem Keeps.elogPut (s : State) (i trail src stamp : Nat) : Keeps s (elogPut s i trail src stamp) := by
  unfold Machine.elogPut
  exact .onlyIf (.either (.ringDrop ..) ((Keeps.ringPut ..).trans (.unless (.ringDrop ..))))

/-- A claim made only where the ring is the claimer's own. -/
theorem Keeps.claimIf (s : State) (r : Nat) (c : Bool) : Keeps s (if c then Machine.claim s r else (none, s)).2 :=
  .eitherSnd (.claim ..) (.refl s)

theorem Keeps.laneClaim (s : State) (L : Nat) : Keeps s (laneClaim s L) := by
  unfold Machine.laneClaim
  extract_lets d r
  refine .onlyIf ?_
  split
  next i t hclaim =>
  have ht : Keeps s t := .snd hclaim (.claimIf ..)
  split
  · exact ht
  next i =>
  split
  next ws u hread =>
  have hu : Keeps s u := ht.trans (.snd hread (.qmRead ..))
  split
  · exact hu.trans (.completeLost ..)
  · exact hu.trans (.either ((Keeps.onDev ..).trans (.qSettle _)) (.completeLost ..))

theorem Keeps.dmaClaim (s : State) (ch : Nat) : Keeps s (dmaClaim s ch) := by
  unfold Machine.dmaClaim
  extract_lets r
  refine .onlyIf ?_
  split
  next i t hclaim =>
  have ht : Keeps s t := .snd hclaim (.claimIf ..)
  split
  · exact ht
  · exact ht.trans (.onDev ..)

theorem Keeps.deliver (s : State) (e : PortEv) : Keeps s (deliver s e) := by
  unfold Machine.deliver
  extract_lets i
  split
  · exact .onDev ..
  · exact .onDev ..
  · exact .onDev ..
  · exact .either (.onDev ..) (.onlyIf (.ringDrop ..))
  · exact .onDev ..

end Sys2Proof.Machine
end

section
/-! PROOF. What the fuse engine and the commands to DMA channels keep (spec/11, spec/13). -/

namespace Sys2Proof.Machine

/-! ### Fuses -/

theorem Keeps.fuseStop (s : State) (res : Nat) : Keeps s (fuseStop s res) := .onDev ..

theorem Keeps.engineRead (s : State) (a n : Nat) : Keeps s (engineRead s a n).2 := by
  induction n generalizing s a with
  | zero => exact .refl s
  | succ n ih =>
    unfold Machine.engineRead
    split
    · exact .refl s
    · split
      · split
        next hread => exact (Keeps.snd hread (.sramRead ..)).trans (ih ..)
        next hread => exact .snd hread (.sramRead ..)
      · exact .refl s

theorem Keeps.fuseStart (s : State) (src : State → Nat → Option (List Nat) × State)
    (hsrc : ∀ t n, Keeps t (src t n).2) : Keeps s (fuseStart s src) := by
  unfold Machine.fuseStart
  extract_lets d op begin_
  refine .either (.onDev ..) ?_
  have hbegin : ∀ t idx todo image, Keeps t (begin_ t idx todo image) := fun _ _ _ _ => .either (.fuseStop ..) (.onDev ..)
  clear_value op begin_
  match op with
  | 0 | _ + 5 => exact .refl s
  | 1 =>
    refine .either (.fuseStop ..) ?_
    have hread := hsrc s 64
    generalize src s 64 = x at hread ⊢
    match x with
    | (none, t) => exact hread.trans (.fuseStop ..)
    | (some b, t) => exact hread.trans (.either (hbegin ..) (.fuseStop ..))
  | 2 => exact .either (hbegin ..) (.fuseStop ..)
  | 3 =>
    refine .either (.fuseStop ..) ?_
    have hread := hsrc s 9
    generalize src s 9 = x at hread ⊢
    match x with
    | (none, t) => exact hread.trans (.fuseStop ..)
    | (some b, t) => exact hread.trans (hbegin ..)
  | 4 => exact .either (.fuseStop ..) (hbegin ..)

theorem Keeps.fuseGo (s : State) : Keeps s (fuseGo s) := .fuseStart _ _ fun _ _ => .engineRead ..

theorem Keeps.fuseEnd (s : State) (op res : Nat) : Keeps s (fuseEnd s op res) := (Keeps.fuseStop ..).trans (.onlyIf (.onDev ..))

theorem Keeps.fusePulse (s : State) : Keeps s (fusePulse s) := by
  unfold Machine.fusePulse
  split
  · exact .refl s
  · split
    · exact .refl s
    · exact .unless (((Keeps.setMb ..).trans (.onDev ..)).trans (.onlyIf (.fuseEnd ..)))

theorem Keeps.fuseOpDone (s : State) : Keeps s (fuseOpDone s) := by
  unfold Machine.fuseOpDone
  split
  · exact .refl s
  · refine .unless (.either ?_ (.either (.fuseStop ..) (.fuseEnd ..)))
    exact .either (.either (.fuseStop ..) (.onDev ..)) (.fuseStop ..)

/-! ### Commands to DMA channels -/

theorem Keeps.dmaStart (s : State) (ch : Nat) : Keeps s (dmaStart s ch) :=
  .unless (.either (.either (.onDev ..) (.onDev ..)) (.onDev ..))

theorem Keeps.dmaStop (s : State) (ch : Nat) : Keeps s (dmaStop s ch) := by
  unfold Machine.dmaStop
  split
  case h_5 => exact .refl s
  all_goals exact .onDev ..

theorem Keeps.dmaElemDone (s : State) (ch : Nat) : Keeps s (dmaElemDone s ch) :=
  .onlyIf ((Keeps.complete ..).trans (.onDev ..))

theorem Keeps.dmaClr (s : State) (ch : Nat) : Keeps s (dmaClr s ch) :=
  (Keeps.onDev ..).trans (.onlyIf ((Keeps.dmaElemDone ..).trans (.onDev ..)))

end Sys2Proof.Machine
end

section
/-! PROOF. What a register's write and the bus's loads and stores keep, whoever makes them (R10 to R14, R33). -/

namespace Sys2Proof.Machine

/-! ### Register writes -/

theorem Keeps.chWrite (s : State) (R : Reg) (i : Nat) (w x : Word) : Keeps s (chWrite s R i w x) := by
  unfold Machine.chWrite
  refine .either (.onDev ..) (.either (.onDev ..) (.either ?fprog (.either (.onDev ..) (.onDev ..))))
  exact .either (.onDev ..) (.either (.onDev ..) ((Keeps.onDev ..).trans (.fuseGo _)))

theorem Keeps.dmWrite (s : State) (R : Reg) (i : Nat) (w x : Word) : Keeps s (dmWrite s R i w x) := by
  unfold Machine.dmWrite
  refine .either ?ctl (.onDev ..)
  exact (((Keeps.onlyIf (.dmaStop ..)).trans (.unless (.either (.dmaClr ..) (.onDev ..)))).trans
    (.onlyIf (.dmaStart ..))).trans (.onlyIf (.onDev ..))

theorem Keeps.pdWrite (s : State) (R : Reg) (i : Nat) (w x : Word) : Keeps s (pdWrite s R i w x) := by
  unfold Machine.pdWrite
  refine .either ?state (.either (.onDev ..) (.either (.onDev ..) (.either (.onDev ..) (.onDev ..))))
  exact (Keeps.onDev ..).trans (.onlyIf ((Keeps.onDev ..).trans (.qSettle _)))

theorem Keeps.fcWrite (s : State) (R : Reg) (i : Nat) (w x : Word) : Keeps s (fcWrite s R i w x) := by
  unfold Machine.fcWrite
  refine .either ?cmd (.either (.onDev ..) (.either (.remapWrite ..) (.either (.onDev ..) (.onDev ..))))
  exact .either (.onDev ..) (.either (.onDev ..) (.either (.onDev ..) ((Keeps.onDev ..).trans (.fcGo _))))

theorem Keeps.qmTrWrite (s : State) (R : Reg) (i : Nat) (w x : Word) : Keeps s (qmTrWrite s R i w x) :=
  .either (.doorbell ..) (.either (.onDev ..) (.either (.onDev ..) (.onDev ..)))

theorem Keeps.blockWrite (s : State) (who : Initiator) (R : Reg) (i : Nat) (w x : Word) :
    Keeps s (blockWrite s who R i w x) := by
  unfold Machine.blockWrite
  refine .either (.onDev ..) ?_
  split
  -- in the order of the model's list: the lanes, the charter, DMA, then queues, ports and trails, power, flash and SRAM
  case h_7 => exact (Keeps.onDev ..).trans (.qSettle _)
  case h_10 => exact .chWrite ..
  case h_12 => exact .dmWrite ..
  case h_13 | h_14 | h_15 => exact .qmTrWrite ..
  case h_16 => exact .pdWrite ..
  case h_18 | h_19 => exact .fcWrite ..
  all_goals exact .onDev ..

theorem Keeps.regWrite (s : State) (who : Initiator) (row : RegRow) (i : Nat) (w : Word) :
    Keeps s (regWrite s who row i w) := by
  unfold Machine.regWrite
  exact (Keeps.onDev ..).trans (.onlyIf (.blockWrite ..))

/-! ### Loads -/

theorem Keeps.denied (s : State) (who : Initiator) (kind : Nat) (owner : Nat × Bool) (write : Bool) (a : Nat) :
    Keeps s (denied s who kind owner write a).2 := .onDev ..

theorem Keeps.offErr (s : State) : Keeps s (offErr s).2 := .onDev ..

theorem Keeps.flashLoad (s : State) (who : Initiator) (a n : Nat) : Keeps s (flashLoad s who a n).2 :=
  .eitherSnd (.offErr s) (.eitherSnd (.flashRead ..) (.denied ..))

theorem Keeps.sramLoad (s : State) (who : Initiator) (b a n : Nat) : Keeps s (sramLoad s who b a n).2 :=
  .eitherSnd (.offErr s) (.eitherSnd (.denied ..) (.eitherSnd (.testLoad ..) (.sramRead ..)))

theorem Keeps.gvLoad (s : State) (who : Initiator) (a : Nat) : Keeps s (gvLoad s who a).2 :=
  .eitherSnd (.offErr s) (.eitherSnd (.refl s) (.denied ..))

theorem Keeps.regLoad (s : State) (who : Initiator) (a : Nat) : Keeps s (regLoad s who a).2 := by
  unfold Machine.regLoad
  split
  · exact .eitherSnd (.refl s) (.offErr s)
  · exact .eitherSnd (.offErr s) (.eitherSnd (.dev ..) (.denied ..))

theorem Keeps.busLoad (s : State) (who : Initiator) (a n : Nat) : Keeps s (busLoad s who a n).2 := by
  unfold Machine.busLoad
  refine .eitherSnd (.refl s) (.eitherSnd (.flashLoad ..) ?_)
  cases sramBank a with
  | some b => exact .sramLoad ..
  | none =>
    refine .eitherSnd (.refl s) (.eitherSnd (.gvLoad ..) (.eitherSnd ?ring (.eitherSnd ?token ?rest)))
    case ring => exact .eitherSnd (.refl s) (.denied ..)
    case token => exact .eitherSnd (.tokenLoad ..) (.denied ..)
    case rest => exact .eitherSnd (.regLoad ..) (.eitherSnd (.eitherSnd (.refl s) (.denied ..)) (.refl s))

/-! ### Stores -/

theorem Keeps.sramStore (s : State) (who : Initiator) (b a n v : Nat) : Keeps s (sramStore s who b a n v).2 := by
  unfold Machine.sramStore
  refine .eitherSnd (.offErr s) (.eitherSnd (.denied ..) (.eitherSnd ?test (.sramWrite ..)))
  exact .eitherSnd (.testStore ..) (.onDev ..)

theorem Keeps.gvStore (s : State) (who : Initiator) (a v : Nat) : Keeps s (gvStore s who a v).2 := by
  unfold Machine.gvStore
  refine .eitherSnd (.offErr s) (.eitherSnd (.denied ..) (.eitherSnd (.onDev ..) ?_))
  exact (Keeps.mput ..).trans (.onlyIf (.onDev ..))

theorem Keeps.aonArrive (s : State) (q : Nat) : Keeps s (aonArrive s q) := .onDev ..

theorem Keeps.aonEnter (s : State) (q a : Nat) (R : Reg) (w : Word) : Keeps s (aonEnter s q a R w) :=
  .either (.onDev ..) ((Keeps.onlyIf (.aonArrive ..)).trans (.onDev ..))

theorem Keeps.trailRegWrite (s : State) (who : Initiator) (t reg : Nat) (w : Word) :
    Keeps s (trailRegWrite s who t reg w).2 := by
  unfold Machine.trailRegWrite
  extract_lets tag
  split
  all_goals exact .onDev ..

theorem Keeps.namedDenied (s : State) (who : Initiator) (R : Reg) (w : Word) (a : Nat) :
    Keeps s (namedDenied s who R w a).2 := .eitherSnd (.denied ..) (.denied ..)

theorem Keeps.regStoreAt (s : State) (who : Initiator) (row : RegRow) (i a : Nat) (w : Word) :
    Keeps s (regStoreAt s who row i a w).2 := by
  unfold Machine.regStoreAt
  refine .eitherSnd (.offErr s) (.eitherSnd (.trailRegWrite ..) (.eitherSnd (.trailRegWrite ..) ?_))
  refine .eitherSnd (.trailRegWrite ..) (.eitherSnd (.namedDenied ..) (.eitherSnd (.denied ..) ?_))
  cases aonQueueOf a with
  | some q => exact .aonEnter ..
  | none => exact .regWrite ..

theorem Keeps.regStore (s : State) (who : Initiator) (a : Nat) (w : Word) : Keeps s (regStore s who a w).2 := by
  unfold Machine.regStore
  split
  · exact .eitherSnd (.refl s) (.offErr s)
  · exact .regStoreAt ..

theorem Keeps.busStore (s : State) (who : Initiator) (a n v : Nat) : Keeps s (busStore s who a n v).2 := by
  unfold Machine.busStore
  refine .eitherSnd (.refl s) ?_
  cases sramBank a with
  | some b => exact .sramStore ..
  | none =>
    refine .eitherSnd (.refl s) (.eitherSnd (.gvStore ..) (.eitherSnd ?ring (.eitherSnd ?token ?register)))
    case ring => exact .eitherSnd (.ctxWrite ..) (.denied ..)
    case token => exact .eitherSnd (.tokenStore ..) (.denied ..)
    case register => exact .eitherSnd (.regStore ..) (.refl s)

theorem Keeps.keepRes (x : Res × State) : Keeps x.2 (keepRes x) := .onDev ..

theorem Keeps.keepLoad (s : State) (who : Initiator) (a n : Nat) :
    Keeps s (Machine.keepRes (Machine.busLoad s who a n)) :=
  (Keeps.busLoad ..).trans (.keepRes _)

theorem Keeps.keepStore (s : State) (who : Initiator) (a n v : Nat) :
    Keeps s (Machine.keepRes (Machine.busStore s who a n v)) :=
  (Keeps.busStore ..).trans (.keepRes _)

end Sys2Proof.Machine
end

section
/-! PROOF. What the image verifier, the boot and a DMA channel's beats keep (spec/11, spec/13). -/

namespace Sys2Proof.Machine

/-! ### The verifier and the boot -/

theorem Keeps.verifyRead (s : State) (a n : Nat) : Keeps s (verifyRead s a n).2 := by
  induction n generalizing s a with
  | zero => exact .refl s
  | succ n ih =>
    unfold Machine.verifyRead
    extract_lets x
    have hx : Keeps s x.2 := by
      refine .eitherSnd (.eitherSnd (.flashRead ..) (.refl s)) ?_
      cases sramBank a with
      | some b => exact .eitherSnd (.sramRead ..) (.refl s)
      | none => exact .refl s
    clear_value x
    split
    · exact hx.trans (ih ..)
    · exact hx

theorem Keeps.charterLoad (s : State) : Keeps s (charterLoad s) := by
  unfold Machine.charterLoad
  exact .onDev ..

theorem Keeps.twinBoot (s : State) (t : Nat) (h : List Nat) : Keeps s (twinBoot s t h) :=
  (Keeps.onDev ..).trans (.swapShow _)

theorem Keeps.bootVerify (s : State) : Keeps s (bootVerify s) := by
  unfold Machine.bootVerify
  extract_lets fail named first boot
  have hfail : ∀ t, Keeps t (fail t) := fun _ => .onDev ..
  have hboot : ∀ t i h, Keeps t (boot t i h) := fun _ _ _ => (Keeps.onlyIf (.onDev ..)).trans (.twinBoot ..)
  have hroot : ∀ t, Keeps t ((fail t).onDev rootOnly) := fun t => (hfail t).trans (.onDev ..)
  refine .either (.either (.twinBoot ..) (hroot s)) ?_
  exact .either (hboot ..) ((hfail s).trans (.either (hboot ..) (hroot _)))

/-! ### DMA -/

theorem Keeps.dmaWords (s : State) (ch a n : Nat) : Keeps s (dmaWords s ch a n).2 := by
  induction n generalizing s a with
  | zero => exact .refl s
  | succ n ih =>
    unfold Machine.dmaWords
    split
    next hread => exact (Keeps.snd hread (.busLoad ..)).trans (ih ..)
    next hread => exact .snd hread (.busLoad ..)

theorem Keeps.dmaDone (s : State) (ch : Nat) : Keeps s (dmaDone s ch) := by
  unfold Machine.dmaDone
  extract_lets w2 w3 s1 ring s2 s3 stop s4
  have h2 : Keeps s s2 := (Keeps.onlyIf (.onDev ..)).trans (.onlyIf (.dmaElemDone ..))
  have h3 : Keeps s2 s3 := .either (.onDev ..) (.onlyIf (.onDev ..))
  exact ((h2.trans h3).trans (.onlyIf (.onDev ..))).trans (.onDev ..)

theorem Keeps.dmaReadBeat (s : State) (ch : Nat) : Keeps s (dmaReadBeat s ch).2 := by
  unfold Machine.dmaReadBeat
  extract_lets w2 n a
  split
  all_goals next hread => exact (Keeps.snd hread (.busLoad ..)).trans (.onDev ..)

theorem Keeps.dmaWriteBeat (s : State) (ch : Nat) : Keeps s (dmaWriteBeat s ch).2 := by
  unfold Machine.dmaWriteBeat
  extract_lets w2 n a h
  split
  all_goals next hwrite => exact (Keeps.snd hwrite (.busStore ..)).trans (.onDev ..)

theorem Keeps.dmaBeats (ch fuel room : Nat) (s : State) : Keeps s (dmaBeats ch fuel room s) := by
  induction fuel generalizing room s with
  | zero => exact .refl s
  | succ fuel ih =>
    unfold Machine.dmaBeats
    refine .either (.dmaDone ..) (.unless (.either ?read ?write))
    case read =>
      have hbeat := Keeps.dmaReadBeat s ch
      split
      next h => exact (Keeps.snd h hbeat).trans (ih ..)
      next h => exact .snd h hbeat
    case write =>
      have hbeat := Keeps.dmaWriteBeat s ch
      split
      next h => exact (Keeps.snd h hbeat).trans (ih ..)
      next h => exact .snd h hbeat

end Sys2Proof.Machine
end

section
/-! PROOF. What a CPU does beside its instructions: translation, the store buffer, trap entry and fetch. Each result
that carries its state with it has its own name for that state (spec/17, spec/18). -/

namespace Sys2Proof.Machine

/-- The state that a translation leaves. -/
def Tr.state : Tr → State
  | .ok _ s => s
  | .fault _ s => s

/-- The state that a table walk leaves. -/
def Walk.state : Walk → State
  | .found _ s => s
  | .fault _ s => s

/-- The state that an access of an instruction leaves. -/
def MemRes.state : MemRes → State
  | .ok _ s => s
  | .trap s _ => s
  | .final s => s

/-- The state in which an instruction ends. -/
def Ins.state : Ins → State
  | .done s _ => s
  | .trap s _ => s
  | .final s => s

theorem Keeps.trOk {s t : State} {x : Tr} {pa : Nat} (e : x = .ok pa t) (h : Keeps s x.state) : Keeps s t := by
  rw [e] at h; exact h

theorem Keeps.trFault {s t : State} {x : Tr} {info : Nat} (e : x = .fault info t) (h : Keeps s x.state) : Keeps s t := by
  rw [e] at h; exact h

theorem Keeps.walkFound {s t : State} {w : Walk} {x : Slot} (e : w = .found x t) (h : Keeps s w.state) : Keeps s t := by
  rw [e] at h; exact h

theorem Keeps.walkFault {s t : State} {w : Walk} {info : Nat} (e : w = .fault info t) (h : Keeps s w.state) : Keeps s t := by
  rw [e] at h; exact h

/-! ### Translation -/

theorem Keeps.tableRead (s : State) (c a : Nat) : Keeps s (tableRead s c a).2 := by
  unfold Machine.tableRead
  refine .eitherSnd (.onDev ..) ?_
  split
  all_goals next hread => exact .snd hread (.sramRead ..)

theorem Keeps.walkEnd (s : State) (p a : Nat) (x : Slot) : Keeps s (walkEnd s p a x).state :=
  .eitherOf Walk.state (.refl s) (.refl s)

theorem Keeps.walk2 (s : State) (c p a t2 : Nat) : Keeps s (walk2 s c p a t2).state := by
  unfold Machine.walk2
  refine .eitherOf Walk.state (.refl s) ?_
  extract_lets loc
  split
  next hread => exact .snd hread (.tableRead ..)
  next hread =>
    have ht := Keeps.snd hread (.tableRead ..)
    exact .eitherOf Walk.state ht (.eitherOf Walk.state ht (ht.trans (.walkEnd ..)))

theorem Keeps.walk (s : State) (c p a : Nat) : Keeps s (walk s c p a).state := by
  unfold Machine.walk
  extract_lets root t1 loc
  refine .eitherOf Walk.state (.refl s) (.eitherOf Walk.state (.refl s) ?_)
  split
  next hread => exact .snd hread (.tableRead ..)
  next hread =>
    have ht := Keeps.snd hread (.tableRead ..)
    refine .eitherOf Walk.state ht (.eitherOf Walk.state ?second ?block)
    case second => exact .eitherOf Walk.state ht (ht.trans (.walk2 ..))
    case block => exact .eitherOf Walk.state ht (ht.trans (.walkEnd ..))

theorem Keeps.missFill (s : State) (c va : Nat) (acc : AccKind) (perm1 blk ipa lg1 : Nat) (x : Slot) :
    Keeps s (missFill s c va acc perm1 blk ipa lg1 x).state := by
  unfold Machine.missFill
  extract_lets may new s1 lg pa cut e s2
  have h2 : Keeps s s2 := (Keeps.unless (.sramWrite ..)).trans (.onDev ..)
  exact .eitherOf Tr.state h2 h2

theorem Keeps.trMiss (s : State) (c va level : Nat) (acc : AccKind) : Keeps s (trMiss s c va level acc).state := by
  unfold Machine.trMiss
  split
  · exact .refl s
  split
  · exact .refl s
  refine .eitherOf Tr.state (.refl s) ?_
  split
  next hwalk => exact .walkFault hwalk ((Keeps.onDev ..).trans (.walk ..))
  next hwalk => exact (Keeps.walkFound hwalk ((Keeps.onDev ..).trans (.walk ..))).trans (.missFill ..)

theorem Keeps.dirtyUpdate (s : State) (c : Nat) (e : TlbEntry) (va level : Nat) (acc : AccKind) :
    Keeps s (dirtyUpdate s c e va level acc).state := by
  unfold Machine.dirtyUpdate
  split
  next hread => exact .snd hread (.tableRead ..)
  next hread =>
    refine (Keeps.snd hread (.tableRead ..)).trans (.eitherOf Tr.state ?changed ?dirty)
    case changed => exact (Keeps.onDev ..).trans (.trMiss ..)
    case dirty =>
      extract_lets u
      exact (Keeps.sramWrite ..).trans (.dev ..)

theorem Keeps.trHit (s : State) (c : Nat) (e : TlbEntry) (va level : Nat) (acc : AccKind) :
    Keeps s (trHit s c e va level acc).state := by
  unfold Machine.trHit
  extract_lets ipa
  split
  · exact .refl s
  · exact .eitherOf Tr.state (.refl s) (.eitherOf Tr.state (.refl s) (.eitherOf Tr.state (.dirtyUpdate ..) (.refl s)))

theorem Keeps.translate (s : State) (c va level : Nat) (acc : AccKind) : Keeps s (translate s c va level acc).state := by
  unfold Machine.translate
  split
  · exact .trHit ..
  · exact .trMiss ..

theorem Keeps.cpuTranslate (s : State) (c va level : Nat) (acc : AccKind) :
    Keeps s (cpuTranslate s c va level acc).state := .eitherOf Tr.state (.translate ..) (.refl s)

/-! ### The store buffer -/

theorem Keeps.drainOne (s : State) (c : Nat) : Keeps s (drainOne s c) := by
  unfold Machine.drainOne
  split
  · exact .refl s
  · extract_lets t
    refine (Keeps.onDev ..).trans (t := t) ?_
    split
    next hwrite => exact .snd hwrite (.busStore ..)
    next hwrite => exact (Keeps.snd hwrite (.busStore ..)).trans (.onDev ..)

theorem Keeps.drainN (s : State) (c n : Nat) : Keeps s (drainN s c n) := .foldl _ _ fun _ _ => .drainOne ..

theorem Keeps.drainAll (s : State) (c : Nat) : Keeps s (drainAll s c) := .drainN ..

theorem Keeps.sbPush (s : State) (c a n v : Nat) : Keeps s (sbPush s c a n v) :=
  (Keeps.onlyIf (.drainOne ..)).trans (.onDev ..)

theorem Keeps.coreLoad (s : State) (c a n : Nat) : Keeps s (coreLoad s c a n).2 := by
  unfold Machine.coreLoad
  extract_lets l
  refine .eitherSnd ?_ ((Keeps.drainAll ..).trans (.busLoad ..))
  split
  · exact .busLoad ..
  · exact .eitherSnd (.refl s) ((Keeps.drainN ..).trans (.busLoad ..))

/-! ### Trap entry -/

theorem Keeps.wordLoad (s : State) (c va : Nat) : Keeps s (wordLoad s c va).2 := by
  unfold Machine.wordLoad
  split
  next htr => exact .trFault htr (.cpuTranslate ..)
  next htr =>
    have ht := Keeps.trOk htr (.cpuTranslate ..)
    split
    all_goals next hload => exact ht.trans (.snd hload (.coreLoad ..))

theorem Keeps.wordStore (s : State) (c va v : Nat) : Keeps s (wordStore s c va v).2 := by
  unfold Machine.wordStore
  split
  next htr => exact .trFault htr (.cpuTranslate ..)
  next htr =>
    refine (Keeps.trOk htr (.cpuTranslate ..)).trans (.eitherSnd (.refl _) ?_)
    split
    all_goals next hstore => exact .snd hstore (.busStore ..)

theorem Keeps.wordStores (s : State) (c : Nat) (l : List (Nat × Nat)) : Keeps s (wordStores s c l).2 := by
  induction l generalizing s with
  | nil => exact .refl s
  | cons x t ih =>
    unfold Machine.wordStores
    split
    next hstore => exact (Keeps.snd hstore (.wordStore ..)).trans (ih _)
    next hstore => exact .snd hstore (.wordStore ..)

theorem Keeps.vectorHalt (s : State) (c : Nat) : Keeps s (vectorHalt s c) := .onDev ..

theorem Keeps.enter (s : State) (c vec pc bits faddr finfo : Nat) : Keeps s (enter s c vec pc bits faddr finfo) := by
  unfold Machine.enter
  extract_lets s1
  have h1 : Keeps s s1 := .drainAll ..
  split
  next w t hload =>
  have ht : Keeps s t := h1.trans (.snd hload (.wordLoad ..))
  split
  · exact ht.trans (.vectorHalt ..)
  · extract_lets tsp l
    refine ht.trans (.either (.vectorHalt ..) ?_)
    split
    next hstores => exact (Keeps.snd hstores (.wordStores ..)).trans (.vectorHalt ..)
    next hstores => exact (Keeps.snd hstores (.wordStores ..)).trans (.onDev ..)

theorem Keeps.enterLate (s : State) (c pc : Nat) (divrest : Bool) : Keeps s (enterLate s c pc divrest) :=
  (Keeps.onDev ..).trans (.enter ..)

theorem Keeps.enterLine (s : State) (c i pc : Nat) (divrest : Bool) : Keeps s (enterLine s c i pc divrest) :=
  (Keeps.onDev ..).trans (.enter ..)

theorem Keeps.takeInt (s : State) (c : Nat) (divrest : Bool) : Keeps s (takeInt s c divrest) := by
  unfold Machine.takeInt
  refine .either (.enterLate ..) (.either (.enter ..) ?_)
  split
  · exact .enterLine ..
  · exact .refl s

theorem Keeps.raiseTrap (s : State) (cpu : Cpu) (t : Trap) : Keeps s (raiseTrap s cpu t) := by
  unfold Machine.raiseTrap
  split
  · split
    · exact .onDev ..
    · exact .refl s
  · exact (Keeps.onlyIf (.onDev ..)).trans (.enter ..)

/-! ### Fetch -/

theorem Keeps.lineRead (s : State) (c line first : Nat) : Keeps s (lineRead s c line first).2 :=
  .foldl_snd _ ([], s) fun _ _ => .busLoad ..

theorem Keeps.lineGet (s : State) (c line first : Nat) : Keeps s (lineGet s c line first).2 := by
  unfold Machine.lineGet
  split
  · exact .onDev ..
  · exact (Keeps.lineRead ..).trans (.eitherSnd (.onDev ..) (.refl _))

theorem Keeps.lineAhead (s : State) (c va pa : Nat) : Keeps s (lineAhead s c va pa).2 := by
  unfold Machine.lineAhead
  extract_lets next
  split
  next at_ t hat =>
  have ht : Keeps s t := by
    refine .snd hat (.eitherSnd (.refl s) ?_)
    split
    next htr => exact .trOk htr (.cpuTranslate ..)
    next htr => exact .trFault htr (.cpuTranslate ..)
  split
  · exact ht.trans (.eitherSnd (.lineGet ..) (.refl t))
  · exact ht

theorem Keeps.bufEnter (s : State) (c va pa : Nat) (cur : Option ILine) : Keeps s (bufEnter s c va pa cur) :=
  (Keeps.lineAhead ..).trans (.onDev ..)

theorem Keeps.coreFetch (s : State) (c : Nat) : Keeps s (coreFetch s c).2 := by
  unfold Machine.coreFetch
  extract_lets va
  split
  next htr => exact .trFault htr (.cpuTranslate ..)
  next htr =>
    refine (Keeps.trOk htr (.cpuTranslate ..)).trans (.eitherSnd ?cached (.eitherSnd (.busLoad ..) (.refl _)))
    split
    · exact .unless (.bufEnter ..)
    · split
      next hline =>
        have ht := Keeps.snd hline (.lineGet ..)
        split
        · exact ht
        · exact ht.trans (.bufEnter ..)

theorem Keeps.cpuFetch (s : State) (cpu : Cpu) : Keeps s (cpuFetch s cpu).2 := by
  unfold Machine.cpuFetch
  split
  · exact .refl s
  · exact (Keeps.onDev ..).trans (.coreFetch ..)

theorem Keeps.insFinish (cpu : Cpu) (x : Ins) : Keeps x.state (insFinish cpu x) := by
  cases x with
  | done s pc => exact .onDev ..
  | trap s t => exact .raiseTrap ..
  | final s => exact .refl s

end Sys2Proof.Machine
end

section
/-! PROOF. What the accesses of instructions and the laws of the standard tasks keep (spec/04, spec/16). -/

namespace Sys2Proof.Machine

/-- A property of a function. The kernel meets a function's body before it has been cut into cases, and may not come to an
end when it evaluates there a comparison with a large number; a goal of this form lets the callee that leads to it be made
opaque first. -/
def Satisfies {α : Type} (P : α → Prop) (a : α) : Prop := P a

/-! ### Engine accesses -/

theorem Keeps.engLoad (s : State) (p : Pass) (e a n : Nat) : Keeps s (engLoad s p e a n).state := by
  unfold Machine.engLoad
  refine .eitherOf MemRes.state ?_ (.eitherOf MemRes.state ?_ (.eitherOf MemRes.state ?window (.refl s)))
  case window =>
    split
    · exact .dev ..
    · exact .refl s
  all_goals exact .eitherOf MemRes.state (.refl s) (.refl s)

theorem Keeps.steerRefuse (s : State) (p : Pass) (e a : Nat) (owner : Nat × Bool) : Keeps s (steerRefuse s p e a owner) :=
  .onDev ..

theorem Keeps.steerStore : ∀ (s : State) (p : Pass) (e a : Nat) (v : Word), Keeps s (steerStore s p e a v) := by
  change Satisfies (fun f : State → Pass → Nat → Nat → Word → State => ∀ s p e a v, Keeps s (f s p e a v))
    Machine.steerStore
  delta Machine.steerStore
  generalize steerReg = reg
  as_aux_lemma =>
    intro s p e a v
    dsimp only
    split
    · exact .refl s
    · exact .either (.steerRefuse ..) (.onDev ..)

theorem Keeps.ctlStore (s : State) (p : Pass) (e a : Nat) (v : Word) : Keeps s (ctlStore s p e a v) :=
  .either (.onDev ..) (.unless (.either (.onDev ..) (.steerRefuse ..)))

theorem Keeps.engPut (s : State) (p : Pass) (e a n v : Nat) : Keeps s (engPut s p e a n v) :=
  .either (.mput ..) (.either (.steerStore ..) (.ctlStore ..))

theorem Keeps.engStore (s : State) (p : Pass) (e a n v : Nat) : Keeps s (engStore s p e a n v).state := by
  unfold Machine.engStore
  refine .eitherOf MemRes.state (.refl s) ?_
  split
  · exact .dev ..
  · exact (Keeps.onDev ..).trans (.onlyIf (.engPut ..))

theorem Keeps.dataLoad (s : State) (cpu : Cpu) (a n : Nat) : Keeps s (dataLoad s cpu a n).state := by
  unfold Machine.dataLoad
  split
  · split
    · exact .engLoad ..
    · exact .refl s
  · extract_lets c
    split
    next htr => exact .trFault htr (.cpuTranslate ..)
    next htr =>
      have ht := Keeps.trOk htr (.cpuTranslate ..)
      split
      all_goals next hload => exact ht.trans (.snd hload (.coreLoad ..))

theorem Keeps.dataStore (s : State) (cpu : Cpu) (a n v : Nat) : Keeps s (dataStore s cpu a n v).state := by
  unfold Machine.dataStore
  split
  · split
    · exact .engStore ..
    · exact .refl s
  · extract_lets c
    split
    next htr => exact .trFault htr (.cpuTranslate ..)
    next htr =>
      exact (Keeps.trOk htr (.cpuTranslate ..)).trans (.eitherOf MemRes.state (.sbPush ..) (.refl _))

/-! ### The standard tasks -/

theorem Keeps.stdInstall (s : State) (g t kind rail : Nat) : Keeps s (stdInstall s g t kind rail) :=
  (Keeps.onDev ..).trans (.foldl _ _ fun _ _ => .mput ..)

theorem Keeps.stdPut (s : State) (p : Pass) (o v : Nat) : Keeps s (stdPut s p o v) := .mput ..

theorem Keeps.stdSteer (s : State) (p : Pass) (off : Nat) (v : Int) : Keeps s (stdSteer s p off v) := .steerStore ..

theorem Keeps.quot (s : State) (a b : Int) : Keeps s (s.quot a b).2 := .dev ..

theorem Keeps.foldl_fst {α β : Type} {g : State × α → β → State × α} (l : List β) (x : State × α)
    (h : ∀ y b, Keeps y.1 (g y b).1) : Keeps x.1 (l.foldl g x).1 := by
  induction l generalizing x with
  | nil => exact .refl _
  | cons b t ih => exact (h x b).trans (ih _)

theorem Keeps.lawPlace (s : State) (p : Pass) (k : Nat) : Keeps s (lawPlace s p k) := by
  unfold Machine.lawPlace
  extract_lets d lead ang r order mp zero put s1
  have hput : ∀ t n pos, Keeps t (put t n pos) := fun _ _ _ => .stdSteer ..
  clear_value put
  have h1 : Keeps s s1 := .foldl _ _ fun _ _ => hput ..
  exact .unless (h1.trans (.foldl_fst _ (s1, _) fun _ _ => hput ..))

theorem Keeps.lawFreq : ∀ (s : State) (p : Pass) (k : Nat), Keeps s (lawFreq s p k) := by
  have hquot := Keeps.quot
  change Satisfies (fun f : State → Pass → Nat → State => ∀ s p k, Keeps s (f s p k)) Machine.lawFreq
  delta Machine.lawFreq
  generalize State.quot = quot at hquot ⊢
  as_aux_lemma =>
    intro s p k
    beta_reduce
    extract_lets d par mp isum now
    split
    next light heavy lo hi hyst thot hpar =>
    extract_lets n0 d0
    split
    next num den t hfrac =>
    have ht : Keeps s t := by
      refine .snd (congrArg Prod.snd hfrac) ?_
      refine .eitherOf (fun x : Int × Int × State => x.2.2) (hquot ..) ?_
      exact .eitherOf (fun x : Int × Int × State => x.2.2) (.refl s) (.refl s)
    extract_lets num' hn hd
    split
    next hn' hd' hscale =>
    exact ht.trans (.onlyIf ((hquot ..).trans (.stdSteer ..)))

theorem Keeps.lawShare (s : State) (p : Pass) (k : Nat) : Keeps s (lawShare s p k) :=
  .foldl _ _ fun _ _ => (Keeps.quot ..).trans (.stdSteer ..)

theorem Keeps.retuneGain : ∀ (s : State) (p : Pass), Keeps s (retuneGain s p).2 := by
  have hq := Keeps.quot
  change Satisfies (fun f : State → Pass → Int × State => ∀ s p, Keeps s (f s p).2) Machine.retuneGain
  delta Machine.retuneGain
  generalize State.quot = q at hq ⊢
  as_aux_lemma =>
    intro s p
    exact (((hq ..).trans (hq ..)).trans (hq ..)).trans (hq ..)

theorem Keeps.retuneArm (s : State) (p : Pass) (k : Nat) : Keeps s (retuneArm s p k) := .ctlStore ..

theorem Keeps.lawRetune : ∀ (s : State) (p : Pass) (k : Nat), Keeps s (lawRetune s p k) := by
  have hquot := Keeps.quot
  have hgain := Keeps.retuneGain
  change Satisfies (fun f : State → Pass → Nat → State => ∀ s p k, Keeps s (f s p k)) Machine.lawRetune
  delta Machine.lawRetune
  generalize State.quot = quot at hquot ⊢
  generalize Machine.retuneGain = gain at hgain ⊢
  generalize sext = sx
  as_aux_lemma =>
    intro s p k
    beta_reduce
    extract_lets one coef sgsh range
    split
    next g t hg =>
    have ht : Keeps s t := .snd hg (hgain ..)
    extract_lets cs top
    split
    next a1 a2 ha =>
    split
    next den mul gsh hscale =>
    split
    next g' u hg' =>
    have hu : Keeps t u := .snd hg' (.eitherSnd (hquot ..) (.refl t))
    extract_lets v ws
    exact (ht.trans hu).trans (((Keeps.stdPut ..).trans (.foldl _ _ fun _ _ => .stdSteer ..)).trans (.retuneArm ..))

theorem Keeps.lawTrust (s : State) (p : Pass) : Keeps s (lawTrust s p) := by
  unfold Machine.lawTrust
  refine ((Keeps.foldl _ _ fun _ _ => ?_).trans (.foldl _ _ fun _ _ => .stdSteer ..)).trans (.ctlStore ..)
  exact .stdPut ..

theorem Keeps.stdLaw (s : State) (p : Pass) (kind : Nat) : Keeps s (stdLaw s p kind).1 := by
  unfold Machine.stdLaw
  extract_lets k
  refine .eitherOf Prod.fst (.eitherOf Prod.fst (.refl s) (.lawTrust ..)) (.eitherOf Prod.fst (.refl s) ?_)
  split
  · exact .lawPlace ..
  · exact .lawFreq ..
  · exact .lawShare ..
  · refine .eitherOf Prod.fst ?record (.eitherOf Prod.fst (.refl s) ?arm)
    case record => dsimp only; exact .lawRetune s p k
    case arm => exact .retuneArm ..

theorem Keeps.passOver (s : State) (p : Pass) (kind : Nat) : Keeps s (passOver s p kind) := by
  unfold Machine.passOver
  exact .either ((Keeps.stdLaw ..).trans (.onDev ..)) (.onDev ..)

end Sys2Proof.Machine
end

section
/-! PROOF. What the instructions keep: the frame that all of them share, then each kind (spec/16). -/

namespace Sys2Proof.Machine

/-! ### Instructions -/

/-- The outcome is a next state, and the command that answers it keeps what every command keeps. -/
inductive Leaves (s : State) : Host.Outcome State Fault Refusal → Prop
  | next {t : State} (h : Keeps s t) : Leaves s (.next t)

theorem Leaves.ite {s : State} {c : Prop} [Decidable c] {o p : Host.Outcome State Fault Refusal} (ho : Leaves s o)
    (hp : Leaves s p) : Leaves s (if c then o else p) := by
  split
  · exact ho
  · exact hp

theorem runIns_leaves (cpu : Cpu) (s : State) {f : State → Ins} (hf : ∀ t, Keeps t (f t).state) :
    Leaves s (runIns cpu s f) := by
  refine .next (.unless ?_)
  have hfetch := Keeps.cpuFetch s cpu
  split
  next h => exact (Keeps.snd h hfetch).trans (.raiseTrap ..)
  next h => exact ((Keeps.snd h hfetch).trans (hf _)).trans (.insFinish ..)

theorem Keeps.illegal (s : State) : Keeps s (illegal s).state := .refl s

theorem illegal_leaves (cpu : Cpu) (s : State) : Leaves s (runIns cpu s illegal) := runIns_leaves cpu s .illegal

theorem regIns_leaves (cpu : Cpu) (rt : GReg) (sf : Bool) (s : State) (f : Dev → Word × Flags) :
    Leaves s (regIns cpu rt sf s f) := runIns_leaves cpu s fun _ => .dev ..

theorem privileged_keeps {s : State} {f : Ins} (cpu : Cpu) (hf : Keeps s f.state) : Keeps s (privileged s cpu f).state :=
  .eitherOf Ins.state (.illegal s) (.eitherOf Ins.state (.refl s) hf)

theorem divIns_leaves (cpu : Cpu) (rt ra rb : GReg) (sf signed quot : Bool) (s : State) :
    Leaves s (divIns cpu rt ra rb sf signed quot s) := .ite (illegal_leaves ..) (regIns_leaves ..)

theorem bitField_leaves (cpu : Cpu) (rt : GReg) (pos wm1 : Fin 32) (s : State) (f : Dev → Word) :
    Leaves s (bitField cpu rt pos wm1 s f) := .ite (illegal_leaves ..) (regIns_leaves ..)

theorem memIns_leaves (cpu : Cpu) (load : Bool) (rt ra : GReg) (m : BitVec 16) (e : Nat) (s : State)
    {access : State → Nat → MemRes} (keep : Dev → Nat → Dev) (h : ∀ t a, Keeps t (access t a).state) :
    Leaves s (memIns cpu load rt ra m e s access keep) := by
  refine runIns_leaves cpu s fun t => ?_
  refine .eitherOf Ins.state (.illegal t) (.eitherOf Ins.state (.refl t) ?_)
  have ht := h t (memEa m (gOf t.dev cpu ra)).toNat
  generalize access t _ = x at ht ⊢
  match x with
  | .ok v u => exact ht.trans (.dev ..)
  | .trap u tr => exact ht
  | .final u => exact ht

theorem loadIns_leaves (cpu : Cpu) (rt ra : GReg) (m : BitVec 16) (e : Nat) (signed : Bool) (s : State) :
    Leaves s (loadIns cpu rt ra m e signed s) := memIns_leaves _ _ _ _ _ _ _ _ fun _ _ => .dataLoad ..

theorem storeIns_leaves (cpu : Cpu) (rt ra : GReg) (m : BitVec 16) (e : Nat) (s : State) :
    Leaves s (storeIns cpu rt ra m e s) := memIns_leaves _ _ _ _ _ _ _ _ fun _ _ => .dataStore ..

theorem Keeps.casAt (s : State) (cpu : Cpu) (rt rb : GReg) (va pa : Nat) : Keeps s (casAt s cpu rt rb va pa).state := by
  unfold Machine.casAt
  extract_lets c pc done
  have hdone : ∀ t old z, Keeps t (done t old z).state := fun _ _ _ => .dev ..
  clear_value done
  refine .eitherOf Ins.state (.refl s) ?_
  split
  next hload =>
    refine (Keeps.snd hload (.busLoad ..)).trans (.eitherOf Ins.state ?_ (hdone ..))
    split
    next hstore => exact (Keeps.snd hstore (.busStore ..)).trans (hdone ..)
    next hstore => exact .snd hstore (.busStore ..)
  next hload => exact .snd hload (.busLoad ..)

theorem execCas_leaves (cpu : Cpu) (rt ra : GReg) (rb : GRegS) (s : State) : Leaves s (execCas cpu rt ra rb s) := by
  refine runIns_leaves cpu s fun t => ?_
  extract_lets c va
  refine .eitherOf Ins.state (.illegal t) (.eitherOf Ins.state (.refl t) ?_)
  split
  next htr => exact .trFault htr (.cpuTranslate ..)
  next htr => exact ((Keeps.trOk htr (.cpuTranslate ..)).trans (.drainAll ..)).trans (.casAt ..)

theorem Keeps.jumpTo (s : State) (t : Word) (f : Dev → Dev) : Keeps s (jumpTo s t f).state :=
  .eitherOf Ins.state (.refl s) (.dev ..)

theorem execBcond_leaves (cpu : Cpu) (cond : Fin 16) (disp : BitVec 22) (s : State) : Leaves s (execBcond cpu cond disp s) :=
  runIns_leaves cpu s fun t => .eitherOf Ins.state (.illegal t) (.eitherOf Ins.state (.refl t) (.refl t))

theorem execMfcr_leaves (cpu : Cpu) (rt : GReg) (code : BitVec 10) (s : State) : Leaves s (execMfcr cpu rt code s) :=
  runIns_leaves cpu s fun t => .eitherOf Ins.state (.illegal t) (.eitherOf Ins.state (.refl t) (.dev ..))

theorem execMtcr_leaves (cpu : Cpu) (code : BitVec 10) (rt : GReg) (s : State) : Leaves s (execMtcr cpu code rt s) := by
  refine runIns_leaves cpu s fun t => .eitherOf Ins.state (.illegal t) (.eitherOf Ins.state (.illegal t) ?_)
  exact .eitherOf Ins.state (.refl t) (.eitherOf Ins.state (.refl t) (.dev ..))

theorem imIns_leaves (cpu : Cpu) (rt : GReg) (im : Bool) (s : State) : Leaves s (imIns cpu rt im s) :=
  runIns_leaves cpu s fun _ => privileged_keeps cpu (.dev ..)

theorem execSyscall_leaves (cpu : Cpu) (code : BitVec 10) (s : State) : Leaves s (execSyscall cpu code s) :=
  runIns_leaves cpu s fun t => .eitherOf Ins.state (.illegal t) (.refl t)

theorem execBrk_leaves (cpu : Cpu) (code : BitVec 10) (s : State) : Leaves s (execBrk cpu code s) := by
  refine runIns_leaves cpu s fun t => .eitherOf Ins.state (.illegal t) (.eitherOf Ins.state ?_ (.refl t))
  exact (Keeps.drainAll ..).trans (.dev ..)

theorem execWait_leaves (cpu : Cpu) (s : State) : Leaves s (execWait cpu s) :=
  runIns_leaves cpu s fun _ => privileged_keeps cpu (.dev ..)

theorem Keeps.aonSync (s : State) : Keeps s (aonSync s) :=
  .foldl _ _ fun _ _ => .foldl _ _ fun _ _ => .aonArrive ..

theorem Keeps.syncDrain (s : State) (c : Nat) : Keeps s (syncDrain s c) :=
  .either (((Keeps.foldl _ _ fun _ _ => .drainAll ..).trans (.drainAll ..)).trans (.onDev ..)) (.drainAll ..)

theorem execSync_leaves (cpu : Cpu) (s : State) : Leaves s (execSync cpu s) := by
  refine runIns_leaves cpu s fun t => .eitherOf Ins.state (.illegal t) ?_
  refine (((Keeps.syncDrain t (cpuId cpu)).trans (.aonSync _)).trans (.onDev _ fun d => bufDrop d (cpuId cpu))).trans ?_
  exact .eitherOf Ins.state (.enterLate ..) (.refl _)

/-- The state that the loads of an exception return leave. -/
def eretState : (Trap × State) ⊕ (List Nat × State) → State := Sum.elim Prod.snd Prod.snd

theorem Keeps.eretLoads (s : State) (c : Nat) (l : List Nat) : Keeps s (eretState (eretLoads s c l)) := by
  induction l generalizing s with
  | nil => exact .refl s
  | cons a t ih =>
    unfold Machine.eretLoads
    split
    next htr => exact .trFault htr (.cpuTranslate ..)
    next htr =>
      refine (Keeps.trOk htr (.cpuTranslate ..)).trans ?_
      split
      next u hload =>
        refine (Keeps.snd hload (.coreLoad ..)).trans ?_
        have hrest := ih u
        generalize Machine.eretLoads u c t = x at hrest ⊢
        match x with
        | .inl y => exact hrest
        | .inr y => exact hrest
      next hload => exact .snd hload (.coreLoad ..)

theorem execEret_leaves (cpu : Cpu) (s : State) : Leaves s (execEret cpu s) := by
  refine runIns_leaves cpu s fun t => privileged_keeps cpu ?_
  extract_lets c u
  have hu : Keeps t u := .drainAll ..
  have hloads := Keeps.eretLoads u c (eretOffs.map fun o => (u.dev.cr c crTSP).toNat + o)
  refine hu.trans ?_
  generalize Machine.eretLoads u c _ = x at hloads ⊢
  match x with
  | .inl (tr, v) => exact hloads
  | .inr (l, v) => exact hloads.trans (.eitherOf Ins.state (.refl v) (.dev ..))

theorem tinvIns_leaves (cpu : Cpu) (s : State) (p : Dev → TlbEntry → Bool) : Leaves s (tinvIns cpu s p) :=
  runIns_leaves cpu s fun _ => privileged_keeps cpu (.dev ..)

theorem endIns_leaves (cpu : Cpu) (kind : Nat) (s : State) : Leaves s (endIns cpu kind s) := by
  refine runIns_leaves cpu s fun t => ?_
  split
  · split
    · exact .refl t
    · split
      · exact .dev ..
      · exact Keeps.either (.passOver ..) (.dev ..)
  · exact .illegal t

theorem execIllegalInstruction_leaves (cpu : Cpu) (w : Word) (s : State) : Leaves s (execIllegalInstruction cpu w s) :=
  runIns_leaves cpu s fun t => .eitherOf Ins.state (.refl t) (.illegal t)

theorem execTlbWalk_leaves (c : Fin 4) (va : Word) (kind : Fin 4) (s : State) : Leaves s (execTlbWalk c va kind s) := by
  refine .next (.unless ?_)
  split
  next htr => exact .trOk htr (.translate ..)
  next htr => exact (Keeps.trFault htr (.translate ..)).trans (.unless (.raiseTrap ..))

end Sys2Proof.Machine
end

section
/-! PROOF. What an opcode of the warden keeps, from the checks, the reads and the writes that opcodes are made of, and what
serving a packet adds to it (R438, R439). -/

namespace Sys2Proof.Machine

/-! ### What every opcode may use -/

/-- An opcode keeps what every command keeps. -/
def OpKeeps (f : OpFn) : Prop := ∀ k s, Keeps s (f k s).2

/-- The steps of a Long packet keep it. -/
def LongKeeps (f : LongFn) : Prop := ∀ y s, Keeps s (f y s).2

section
variable {k : Packet} {s : State} {g : OpOut × State}

theorem Keeps.opDenied (k : Packet) (s : State) (owner : Nat × Bool) : Keeps s (opDenied k s owner).2 := .onDev ..

theorem Keeps.needLen {n : Nat} (h : Keeps s g.2) : Keeps s (needLen k s n g).2 := .eitherSnd h (.refl s)

theorem Keeps.needPart {p : Nat} (h : Keeps s g.2) : Keeps s (needPart k s p g).2 := .eitherSnd h (.opDenied ..)

theorem Keeps.needOwner {i n : Nat} {owner : Dev → Nat → Nat × Bool} {p0 : Bool} (h : Keeps s g.2) :
    Keeps s (needOwner k s i n owner p0 g).2 := .eitherSnd (.refl s) (.eitherSnd h (.opDenied ..))

theorem Keeps.onRail {n : Nat} {f : Nat → OpOut × State} (h : ∀ r, Keeps s (f r).2) : Keeps s (onRail k s n f).2 :=
  .needLen (.needOwner (h _))

theorem Keeps.onPhase {n : Nat} {p0 : Bool} {f : Nat → OpOut × State} (h : ∀ i, Keeps s (f i).2) :
    Keeps s (onPhase k s n p0 f).2 := .needLen (.needOwner (h _))

theorem Keeps.onLane {n : Nat} {f : Nat → OpOut × State} (h : ∀ l, Keeps s (f l).2) : Keeps s (onLane k s n f).2 :=
  .needLen (.needOwner (h _))

theorem Keeps.onConv {n : Nat} {f : Nat → OpOut × State} (h : ∀ c, Keeps s (f c).2) : Keeps s (onConv k s n f).2 :=
  .needLen (.needOwner (h _))

theorem Keeps.onMeter {n : Nat} {f : Nat → OpOut × State} (h : ∀ r, Keeps s (f r).2) : Keeps s (onMeter k s n f).2 :=
  .needLen (.eitherSnd (.refl s) (.eitherSnd (h _) (.opDenied ..)))

theorem Keeps.inSession (h : Keeps s g.2) : Keeps s (inSession k s g).2 :=
  .eitherSnd (.refl s) (.eitherSnd (.opDenied ..) h)

theorem Keeps.mayInstall {gv t mask : Nat} {cfg : Word} (h : Keeps s g.2) : Keeps s (mayInstall k s gv t mask cfg g).2 := by
  refine .eitherSnd (.refl s) (.eitherSnd (.opDenied ..) ?_)
  split
  · exact .opDenied ..
  · exact h

end

/-! ### The warden's own accesses -/

theorem Keeps.wRead (s : State) (R : Reg) (i : Nat) : Keeps s (wRead s R i).2 := by
  unfold Machine.wRead
  split
  all_goals next hread => exact .snd hread (.busLoad ..)

theorem Keeps.wReads (l : List (Reg × Nat)) (s : State) : Keeps s (wReads l s).2 := by
  induction l generalizing s with
  | nil => exact .refl s
  | cons x t ih =>
    unfold Machine.wReads
    split
    next hread => exact (Keeps.snd hread (.wRead ..)).trans (ih _)
    next hread => exact .snd hread (.wRead ..)

theorem Keeps.opReads (s : State) (l : List (Reg × Nat)) : Keeps s (opReads s l).2 := by
  unfold Machine.opReads
  split
  all_goals next hreads => exact .snd hreads (.wReads ..)

/-- A checked write that is done. -/
theorem Keeps.wWrite {s t : State} {R : Reg} {i : Nat} {w : Word} (h : wWrite s R i w = .ok t) : Keeps s t := by
  unfold Machine.wWrite at h
  split at h
  · cases h
  split at h
  · cases h
  split at h
  · cases h
  split at h
  · cases h
  split at h
  · cases h
  extract_lets x old m u new at h
  split at h
  · cases h; exact ((Keeps.onDev ..).trans (.busStore ..)).trans (.onDev ..)
  · cases h

theorem Keeps.wWrites {l : List (Reg × Nat × Word)} {s t : State} (h : wWrites l s = .ok t) : Keeps s t := by
  induction l generalizing s with
  | nil => cases h; exact .refl _
  | cons x l ih =>
    unfold Machine.wWrites at h
    split at h
    next hwrite => exact (Keeps.wWrite hwrite).trans (ih h)
    next => cases h

theorem Keeps.opWrites (s : State) (l : List (Reg × Nat × Word)) : Keeps s (opWrites s l).2 := by
  unfold Machine.opWrites
  split
  next hwrites => exact .wWrites hwrites
  · exact .dev ..
  · exact .dev ..

theorem Keeps.tagReads (who : Initiator) (a n : Nat) (s : State) : Keeps s (tagReads who a n s).2 := by
  induction n generalizing a s with
  | zero => exact .refl s
  | succ n ih =>
    unfold Machine.tagReads
    split
    next hread =>
      refine (Keeps.snd hread (.busLoad ..)).trans ?_
      split
      all_goals next hrest => exact .snd hrest (ih ..)
    next hread => exact .snd hread (.busLoad ..)
    next hread => exact .snd hread (.busLoad ..)

theorem Keeps.tagWrite {s t : State} {who : Initiator} {a : Nat} {w : Word} (h : tagWrite s who a w = .ok t) : Keeps s t := by
  unfold Machine.tagWrite at h
  split at h
  · cases h; exact .refl s
  split at h
  · cases h
  next hstore =>
    extract_lets x old m u new at h
    split at h
    · cases h; exact .snd hstore (.busStore ..)
    split at h
    · cases h
    split at h
    · cases h
    split at h
    · cases h; exact ((Keeps.onDev ..).trans (.busStore ..)).trans (.onDev ..)
    · cases h
  · cases h

theorem Keeps.tagWrites {who : Initiator} {a : Nat} {l : List Word} {s t : State} (h : tagWrites who a l s = .ok t) :
    Keeps s t := by
  induction l generalizing a s with
  | nil => cases h; exact .refl _
  | cons w l ih =>
    unfold Machine.tagWrites at h
    split at h
    next hwrite => exact (Keeps.tagWrite hwrite).trans (ih h)
    next => cases h

theorem Keeps.wStore (s : State) (R : Reg) (i v : Nat) : Keeps s (wStore s R i v) := .busStore ..

theorem Keeps.wBytes (s : State) (a n : Nat) : Keeps s (wBytes s a n).2 := by
  induction n generalizing a s with
  | zero => exact .refl s
  | succ n ih =>
    unfold Machine.wBytes
    split
    next hread => exact (Keeps.snd hread (.busLoad ..)).trans (ih ..)
    next hread => exact .snd hread (.busLoad ..)

theorem Keeps.wPuts (a : Nat) (l : List Nat) (s : State) : Keeps s (wPuts a l s).2 := by
  induction l generalizing a s with
  | nil => exact .refl s
  | cons w t ih =>
    unfold Machine.wPuts
    split
    next hstore => exact (Keeps.snd hstore (.busStore ..)).trans (ih ..)
    next hstore => exact .snd hstore (.busStore ..)

/-! ### Serving a packet -/

theorem Keeps.settleOp (k : Packet) (x : OpOut × State) : Keeps x.2 (settleOp k x) := by
  unfold Machine.settleOp
  split
  · exact .onDev ..
  · exact .onDev ..

theorem Keeps.runPacket {f : OpFn} (hf : OpKeeps f) (k : Packet) (s : State) : Keeps s (runPacket k f s) :=
  (Keeps.onDev ..).trans (.either (.onDev ..) ((hf k _).trans (.settleOp ..)))

theorem Keeps.runHeld {f : LongFn} (hf : LongKeeps f) (y : LongOp) (s : State) : Keeps s (runHeld y f s) :=
  ((Keeps.onDev ..).trans (hf y _)).trans (.settleOp ..)

theorem Keeps.runLong {f : LongFn} (hf : LongKeeps f) (y : LongOp) (s : State) : Keeps s (runLong y f s) := by
  have hstep := hf y s
  unfold Machine.runLong
  split
  all_goals next h => exact (Keeps.snd h hstep).trans (.onDev ..)

end Sys2Proof.Machine
end

section
/-! PROOF. What each opcode and each Long packet keeps (R460). -/

namespace Sys2Proof.Machine

section
variable (l : List Reg)

theorem opRailRegs_keeps : OpKeeps (opRailRegs l) := fun _ _ => .onRail fun _ => .opWrites ..
theorem opPhaseRegs_keeps : OpKeeps (opPhaseRegs l) := fun _ _ => .onPhase fun _ => .opWrites ..
theorem opLaneRegs_keeps : OpKeeps (opLaneRegs l) := fun _ _ => .onLane fun _ => .opWrites ..
theorem opRailReads_keeps : OpKeeps (opRailReads l) := fun _ _ => .onRail fun _ => .opReads ..
theorem opLaneReads_keeps : OpKeeps (opLaneReads l) := fun _ _ => .onLane fun _ => .opReads ..

theorem opDevRegs_keeps (owner : Dev → Nat) : OpKeeps (opDevRegs owner l) :=
  fun _ _ => .needLen (.needPart (.opWrites ..))

end

/-! ### Device and registers (0x00 to 0x0A) -/

@[simp] theorem opDevInfo_keeps : OpKeeps opDevInfo := fun _ s => .needLen (.refl s)
@[simp] theorem opDevStatus_keeps : OpKeeps opDevStatus := fun _ s => .needLen (.refl s)
@[simp] theorem opEcho_keeps : OpKeeps opEcho := fun _ s => .eitherSnd (.refl s) (.refl s)
@[simp] theorem longState_keeps : LongKeeps longState := fun _ s => .eitherSnd (.refl s) (.refl s)

@[simp] theorem opSetState_keeps : OpKeeps opSetState := by
  refine fun k s => .needLen (.needPart (.eitherSnd (.refl s) ?_))
  refine ((Keeps.dev ..).trans (.qSettle _)).trans (.eitherSnd (.refl _) (.eitherSnd (.refl _) (.refl _)))

@[simp] theorem opRegRead_keeps : OpKeeps opRegRead := by
  refine fun k s => .needLen (.eitherSnd (.refl s) ?_)
  split
  all_goals next hreads => exact .snd hreads (.tagReads ..)

@[simp] theorem opRegWrite_keeps : OpKeeps opRegWrite := by
  refine fun k s => .eitherSnd (.refl s) (.eitherSnd (.refl s) (.eitherSnd (.refl s) ?_))
  extract_lets words
  split
  next hwrites _ => exact .tagWrites hwrites
  · exact .dev ..
  · exact .dev ..

@[simp] theorem opRegModify_keeps : OpKeeps opRegModify := by
  refine fun k s => .needLen (.eitherSnd (.refl s) (.eitherSnd (.refl s) ?_))
  split
  next hread => exact .snd hread (.tagReads ..)
  next hread =>
    refine (Keeps.snd hread (.tagReads ..)).trans ?_
    extract_lets w
    split
    next hwrite => exact .tagWrite hwrite
    next => exact .dev ..

/-! ### Rails (0x20 to 0x30) -/

@[simp] theorem opRailStatus_keeps : OpKeeps opRailStatus := opRailReads_keeps _

@[simp] theorem opRailEnable_keeps : OpKeeps opRailEnable := by
  refine fun k s => .eitherSnd (.refl s) (.onRail fun r => .eitherSnd (.refl s) (.eitherSnd (.refl s) ?_))
  have hwrite := Keeps.opWrites s [(RL_CTL, r, BitVec.ofNat 32 (par k 1 1))]
  split
  next h => exact .eitherSnd (.snd h hwrite) (.snd h hwrite)
  next => exact hwrite

@[simp] theorem opRailVout_keeps : OpKeeps opRailVout := opRailRegs_keeps _
@[simp] theorem opRailRamp_keeps : OpKeeps opRailRamp := opRailRegs_keeps _
@[simp] theorem opRailLoadline_keeps : OpKeeps opRailLoadline := opRailRegs_keeps _
@[simp] theorem opRailComp_keeps : OpKeeps opRailComp := opRailRegs_keeps _
@[simp] theorem opRailLimits_keeps : OpKeeps opRailLimits := opRailRegs_keeps _
@[simp] theorem opRailStrike_keeps : OpKeeps opRailStrike := opRailRegs_keeps _
@[simp] theorem opRailConfig_keeps : OpKeeps opRailConfig := opRailRegs_keeps _
@[simp] theorem opRailIlim_keeps : OpKeeps opRailIlim := opRailRegs_keeps _
@[simp] theorem opRailCoppice_keeps : OpKeeps opRailCoppice := opRailRegs_keeps _
@[simp] theorem opRailProtect_keeps : OpKeeps opRailProtect := opRailRegs_keeps _
@[simp] theorem opRailPeriod_keeps : OpKeeps opRailPeriod := opRailRegs_keeps _
@[simp] theorem opRailSteer_keeps : OpKeeps opRailSteer := opRailRegs_keeps _

@[simp] theorem opRailSeq_keeps : OpKeeps opRailSeq :=
  fun _ s => .needLen (.eitherSnd (.refl s) (.needPart (.opWrites ..)))

@[simp] theorem opRailClear_keeps : OpKeeps opRailClear :=
  fun _ s => .needLen (.needOwner (.eitherSnd (.refl s) (.dev ..)))

@[simp] theorem opRailCause_keeps : OpKeeps opRailCause := by
  refine fun k s => .onRail fun r => .eitherSnd (.refl s) ?_
  extract_lets rs
  have hreads := Keeps.wReads (rs.map fun R => (R, r)) s
  generalize wReads _ s = x at hreads ⊢
  match x with
  | (none, t) => exact hreads
  | (some b, t) => exact hreads.trans (.unless (.foldl _ _ fun _ _ => .busStore ..))

/-! ### Phases (0x40 to 0x4B) -/

@[simp] theorem opPhaseStatus_keeps : OpKeeps opPhaseStatus := fun _ _ => .onPhase fun _ => .opReads ..

@[simp] theorem opPhaseRole_keeps : OpKeeps opPhaseRole :=
  fun _ _ => .onPhase fun _ => .eitherSnd (.opDenied ..) (.eitherSnd (.opDenied ..) (.opWrites ..))

@[simp] theorem opPhaseConfig_keeps : OpKeeps opPhaseConfig := opPhaseRegs_keeps _

@[simp] theorem opPhaseProtect_keeps : OpKeeps opPhaseProtect := by
  refine fun k s => .onPhase fun n => ?_
  extract_lets a b c
  split
  next hwrites => exact .wWrites hwrites
  next => exact .opWrites ..

@[simp] theorem opPhaseClear_keeps : OpKeeps opPhaseClear := fun _ s => .onPhase fun _ => .eitherSnd (.refl s) (.dev ..)

@[simp] theorem opPhaseAz_keeps : OpKeeps opPhaseAz := fun _ _ => .onPhase fun _ => .eitherSnd (.dev ..) (.dev ..)

@[simp] theorem opStageDesc_keeps : OpKeeps opStageDesc :=
  fun _ s => .onPhase fun _ => .eitherSnd (.refl s) (.opReads ..)

@[simp] theorem longStage_keeps : LongKeeps longStage := by
  refine fun y s => .eitherSnd (.refl s) (.eitherSnd (.refl s) (.eitherSnd (.refl s) ?_))
  exact (Keeps.onlyIf (.busStore ..)).trans (.busStore ..)

@[simp] theorem opStageAccess_keeps : OpKeeps opStageAccess :=
  fun _ s => .eitherSnd (.refl s) (.needOwner (.eitherSnd (.refl s) (.eitherSnd (.opDenied ..) (longStage_keeps ..))))

@[simp] theorem longTone_keeps : LongKeeps longTone := fun _ s => .eitherSnd (.refl s) (.refl s)

@[simp] theorem opToneMap_keeps : OpKeeps opToneMap := by
  refine fun k s => .needLen (.eitherSnd (.refl s) (.needPart (.eitherSnd (.dev ..) ?_)))
  exact (Keeps.busStore ..).trans (.eitherSnd (.refl _) (longTone_keeps ..))

@[simp] theorem longRoll_keeps : LongKeeps longRoll := fun _ s => .eitherSnd (.refl s) (.refl s)

@[simp] theorem opRollCall_keeps : OpKeeps opRollCall :=
  fun _ s => .needLen (.eitherSnd (.refl s) (.needPart ((Keeps.busStore ..).trans (longRoll_keeps ..))))

/-! ### The energy store (0x60 to 0x66) -/

@[simp] theorem opStoreStatus_keeps : OpKeeps opStoreStatus :=
  fun _ _ => .needLen (.eitherSnd (.opReads ..) (.opDenied ..))

@[simp] theorem opStoreConfig_keeps : OpKeeps opStoreConfig :=
  fun _ _ => .needLen (.needPart (.eitherSnd (.opDenied ..) (.opWrites ..)))

@[simp] theorem opStoreEnable_keeps : OpKeeps opStoreEnable := opDevRegs_keeps _ _
@[simp] theorem opStoreFloor_keeps : OpKeeps opStoreFloor := opDevRegs_keeps _ _
@[simp] theorem opCeiling_keeps : OpKeeps opCeiling := opDevRegs_keeps _ _
@[simp] theorem opEscalation_keeps : OpKeeps opEscalation := opDevRegs_keeps _ _
@[simp] theorem opCeilSense_keeps : OpKeeps opCeilSense := opDevRegs_keeps _ _

/-! ### Lanes, intents and coupling (0x70 to 0x79) -/

@[simp] theorem opLaneStatus_keeps : OpKeeps opLaneStatus := opLaneReads_keeps _
@[simp] theorem opLaneEnable_keeps : OpKeeps opLaneEnable := opLaneRegs_keeps _

@[simp] theorem opLaneConfig_keeps : OpKeeps opLaneConfig := by
  refine fun k s => .onLane fun l => ?_
  split
  · exact .opDenied ..
  · exact .opWrites ..

@[simp] theorem opPartnerId_keeps : OpKeeps opPartnerId := fun _ s => .onLane fun _ => .eitherSnd (.refl s) (.opReads ..)

@[simp] theorem opIntentConfig_keeps : OpKeeps opIntentConfig := by
  refine fun k s => .onRail fun r => ?_
  extract_lets w
  split
  · exact .opDenied ..
  · exact .opWrites ..

@[simp] theorem opIntentTrust_keeps : OpKeeps opIntentTrust := fun _ s => .onRail fun _ => .eitherSnd (.refl s) (.opWrites ..)

@[simp] theorem opIntentStatus_keeps : OpKeeps opIntentStatus := fun _ _ => .onRail fun _ => .opReads ..

@[simp] theorem opCoupleConfig_keeps : OpKeeps opCoupleConfig := by
  refine fun k s => .onRail fun r => ?_
  extract_lets w
  split
  · exact .opDenied ..
  · exact .opWrites ..

@[simp] theorem opCoupleCmd_keeps : OpKeeps opCoupleCmd := fun _ s =>
  .onRail fun _ => .eitherSnd (.refl s) (.eitherSnd (.busStore ..) ((Keeps.busStore ..).trans (.opReads ..)))

@[simp] theorem opCoupleStatus_keeps : OpKeeps opCoupleStatus := opRailReads_keeps _

/-! ### Telemetry, time, meters and the life log (0x80 to 0x97) -/

@[simp] theorem opTeleLast_keeps : OpKeeps opTeleLast := fun _ s => .onConv fun _ => .eitherSnd (.refl s) (.opReads ..)

@[simp] theorem opTeleConfig_keeps : OpKeeps opTeleConfig := by
  refine fun k s => .onConv fun c => .eitherSnd (.opDenied ..) ?_
  split
  · exact .opDenied ..
  · exact .opWrites ..

@[simp] theorem opTeleCtl_keeps : OpKeeps opTeleCtl := fun _ _ => .onConv fun _ => .opWrites ..
@[simp] theorem opTeleOwn_keeps : OpKeeps opTeleOwn := opDevRegs_keeps _ _

@[simp] theorem opRailReadings_keeps : OpKeeps opRailReadings := by
  refine fun k s => .onRail fun r => ?_
  extract_lets d
  split
  extract_lets uv ma
  split
  split
  all_goals next hreads => exact (Keeps.dev ..).trans (.snd hreads (.wReads ..))

@[simp] theorem opTimeGet_keeps : OpKeeps opTimeGet := by
  refine fun k s => .needLen ?_
  split
  all_goals next hreads => exact .snd hreads (.wReads ..)

@[simp] theorem longRtc_keeps : LongKeeps longRtc := fun _ s => .eitherSnd (.refl s) (.refl s)

@[simp] theorem opRtcSet_keeps : OpKeeps opRtcSet :=
  fun _ _ => .needLen (.needPart (.eitherSnd (.dev ..) (((Keeps.busStore ..).trans (.busStore ..)).trans (.busStore ..))))

@[simp] theorem opMeterRead_keeps : OpKeeps opMeterRead := by
  refine fun k s => .onMeter fun r => ?_
  split
  all_goals next hreads => exact .snd hreads (.wReads ..)

@[simp] theorem opBillingRead_keeps : OpKeeps opBillingRead := by
  refine fun k s => .onMeter fun r => ?_
  extract_lets is
  split
  · exact .refl s
  · split
    · exact .dev ..
    · exact .refl s

@[simp] theorem opLifeStage_keeps : OpKeeps opLifeStage := fun _ s => .onPhase fun _ => .eitherSnd (.refl s) (.refl s)

@[simp] theorem opLifeDevice_keeps : OpKeeps opLifeDevice := fun _ _ => .needLen (.needPart (.opReads ..))

@[simp] theorem opLogRead_keeps : OpKeeps opLogRead := by
  refine fun k s => .needLen (.eitherSnd (.refl s) (.needPart ?_))
  extract_lets l
  split
  · exact .refl s
  · exact .refl s

@[simp] theorem longFlush_keeps : LongKeeps longFlush := fun _ s =>
  .eitherSnd (.refl s) (.eitherSnd (.refl s) (.refl s))

@[simp] theorem opLifeFlush_keeps : OpKeeps opLifeFlush := fun _ _ => .needLen (.needPart (.busStore ..))

/-! ### Firmware (0xA0 to 0xA5) -/

theorem Keeps.fcIssue (s : State) (space a op n : Nat) : Keeps s (fcIssue s space a op n) :=
  (Keeps.wStore ..).trans (.wStore ..)

theorem Keeps.fcSteps {y : LongOp} {s : State} {total : Nat} {issue : Nat → State → State} {ending : State → OpOut × State}
    (hissue : ∀ n, Keeps s (issue n s)) (hend : Keeps s (ending s).2) : Keeps s (fcSteps y s total issue ending).2 := by
  refine .eitherSnd (.dev ..) (.eitherSnd (.refl s) (.eitherSnd (.refl s) (.eitherSnd hend ?_)))
  exact (hissue _).trans (.eitherSnd (.refl _) (.refl _))

@[simp] theorem opFwInfo_keeps : OpKeeps opFwInfo := fun _ _ => .needLen (.needPart (.dev ..))

@[simp] theorem longBegin_keeps : LongKeeps longBegin := by
  intro y s
  unfold longBegin
  extract_lets k tgt o len sect total
  exact .fcSteps (fun _ => .fcIssue ..) (.dev ..)

@[simp] theorem opFwBegin_keeps : OpKeeps opFwBegin := by
  refine fun k s => .needLen (.eitherSnd (.refl s) (.eitherSnd (.opDenied ..) (.eitherSnd (.refl s) (.eitherSnd (.refl s) ?_))))
  exact (Keeps.onDev ..).trans (longBegin_keeps ..)

@[simp] theorem longWrite_keeps : LongKeeps longWrite := by
  intro y s
  unfold longWrite
  extract_lets k data
  split
  next space a haddr =>
  refine .fcSteps (fun n => ?_) (.dev ..)
  split
  · exact .refl s
  · exact (Keeps.foldl _ _ fun _ _ => .wStore ..).trans (.fcIssue ..)

@[simp] theorem opFwWrite_keeps : OpKeeps opFwWrite :=
  fun _ s => .eitherSnd (.refl s) (.inSession (.eitherSnd (.refl s) (longWrite_keeps ..)))

theorem Keeps.engineStep {y : LongOp} {s : State} {a kind part : Nat} {ending : Nat → List Nat → State → OpOut × State}
    (hend : ∀ res h t, Keeps t (ending res h t).2) : Keeps s (engineStep y s a kind part ending).2 := by
  refine .eitherSnd (.refl s) (.eitherSnd ((Keeps.wStore ..).trans (.wStore ..)) ?_)
  extract_lets res
  split
  next hread => exact (Keeps.snd hread (.wBytes ..)).trans (hend ..)

theorem Keeps.verifyReply (kind res : Nat) (h : List Nat) (s : State) : Keeps s (verifyReply kind res h s).2 :=
  .eitherSnd (.refl s) (.onlyIf (.onDev ..))

@[simp] theorem longVerify_keeps : LongKeeps longVerify :=
  fun _ _ => .eitherSnd (.verifyReply ..) (.engineStep fun _ _ _ => .verifyReply ..)

@[simp] theorem opFwVerify_keeps : OpKeeps opFwVerify :=
  fun _ s => .needLen (.eitherSnd (.refl s) (.inSession (longVerify_keeps ..)))

@[simp] theorem longSwap_keeps : LongKeeps longSwap := fun _ s => .fcSteps (fun _ => .fcIssue ..) (.refl s)

@[simp] theorem opFwSwap_keeps : OpKeeps opFwSwap :=
  fun _ s => .needLen (.needPart (.inSession (.eitherSnd (longSwap_keeps ..) (.refl s))))

@[simp] theorem opFwAbort_keeps : OpKeeps opFwAbort := fun _ _ => .needLen (.inSession (.dev ..))

/-! ### Partitions, cores, groves and fuses (0xB0 to 0xBB) -/

@[simp] theorem opPartInfo_keeps : OpKeeps opPartInfo := fun _ s => .needLen (.refl s)

@[simp] theorem opReflogRead_keeps : OpKeeps opReflogRead :=
  fun _ s => .needLen (.eitherSnd (.refl s) (.needPart (.dev ..)))

@[simp] theorem opCoreAssign_keeps : OpKeeps opCoreAssign :=
  fun _ s => .needLen (.eitherSnd (.refl s) (.needPart (.eitherSnd (.dev ..) (.dev ..))))

@[simp] theorem opCoreCtl_keeps : OpKeeps opCoreCtl := by
  refine fun k s => .needLen (.eitherSnd (.refl s) (.eitherSnd (.opDenied ..) (.eitherSnd ?halt ?run)))
  case halt => exact Keeps.unless ((Keeps.drainAll ..).trans (.onDev ..))
  case run => exact .eitherSnd (.refl s) (.dev ..)

theorem Keeps.placeImage {src dst : Nat} {h : List Nat} {after : State → State} (s : State)
    (hafter : ∀ t, Keeps t (after t)) : Keeps s (placeImage s src dst h after).2 := by
  unfold Machine.placeImage
  split
  next hread => exact .snd hread (.wBytes ..)
  next hread =>
    refine (Keeps.snd hread (.wBytes ..)).trans ?_
    split
    next hputs => exact (Keeps.snd hputs (.wPuts ..)).trans (hafter _)
    next hputs => exact .snd hputs (.wPuts ..)

@[simp] theorem longImage_keeps : LongKeeps longImage := by
  refine fun y s => .engineStep fun res _ t => ?_
  split
  next h u hread =>
  refine (Keeps.snd hread (.wBytes ..)).trans (.eitherSnd (.refl u) (.eitherSnd (.opDenied ..) ?_))
  exact .placeImage u .refl

@[simp] theorem opImageLoad_keeps : OpKeeps opImageLoad := fun _ s =>
  .needLen (.eitherSnd (.refl s) (.eitherSnd (.opDenied ..) (.eitherSnd (.opDenied ..) (longImage_keeps ..))))

@[simp] theorem opGroveLead_keeps : OpKeeps opGroveLead := by
  refine fun k s => .needLen (.eitherSnd (.refl s) ?_)
  split
  · exact .opDenied ..
  · exact .opWrites ..

@[simp] theorem opGroveBanks_keeps : OpKeeps opGroveBanks :=
  fun _ s => .needLen (.eitherSnd (.refl s) (.needPart (.opWrites ..)))

@[simp] theorem longInstall_keeps : LongKeeps longInstall := by
  refine fun y s => .engineStep fun res _ t => ?_
  split
  next h u hread =>
  refine (Keeps.snd hread (.wBytes ..)).trans (.eitherSnd (.refl u) (.eitherSnd (.refl u) (.eitherSnd (.opDenied ..) ?_)))
  split
  · exact .dev ..
  next v hwrites =>
    refine (Keeps.wWrites hwrites).trans ?_
    split
    next himage => exact .snd himage (.placeImage v .refl)
    next => exact .placeImage v .refl

@[simp] theorem opGroveInstall_keeps : OpKeeps opGroveInstall := by
  refine fun k s => .needLen (.mayInstall (.eitherSnd (.refl s) (.eitherSnd (.opDenied ..) ?_)))
  split
  · exact .dev ..
  · exact longInstall_keeps ..

@[simp] theorem opGroveStd_keeps : OpKeeps opGroveStd := by
  refine fun k s => .needLen (.eitherSnd (.refl s) (.needOwner (.mayInstall ?_)))
  extract_lets regs
  clear_value regs
  split
  next v d hv =>
  split
  next e d' he =>
  split
  · exact .refl s
  · extract_lets code
    split
    · exact .dev ..
    next hwrites =>
      refine ((Keeps.dev ..).trans (.wWrites hwrites)).trans ?_
      exact (Keeps.foldl _ _ fun _ _ => (Keeps.dev ..).trans (.mput ..)).trans (.stdInstall ..)

@[simp] theorem opGroveTask_keeps : OpKeeps opGroveTask := by
  refine fun k s => .needLen (.eitherSnd (.refl s) (.eitherSnd (.opDenied ..) ?_))
  extract_lets w
  have hwrite := Keeps.opWrites s [(GV_TCFG, tk (par k 0 1) (par k 1 1), w)]
  generalize opWrites s _ = x at hwrite ⊢
  match x with
  | (.done st _, t) =>
    exact hwrite.trans (.eitherSnd (.refl t) ((Keeps.onlyIf (.onDev ..)).trans (.opReads ..)))
  | (.wait _ _, t) => exact hwrite

@[simp] theorem opResAssign_keeps : OpKeeps opResAssign :=
  fun _ s => .needLen (.eitherSnd (.refl s) (.needPart (.opWrites ..)))

@[simp] theorem longFuse_keeps : LongKeeps longFuse := fun _ s => .eitherSnd (.refl s) (.refl s)

@[simp] theorem opFuseOp_keeps : OpKeeps opFuseOp := by
  refine fun k s => .eitherSnd (.refl s) (.eitherSnd (.refl s) (.needPart ?_))
  refine .eitherSnd (.refl s) (.eitherSnd (.refl s) (.eitherSnd (.dev ..) ?_))
  exact ((Keeps.dev ..).trans (.fuseStart _ _ fun t _ => .refl t)).trans (longFuse_keeps ..)

/-! ### Every opcode -/

@[simp] theorem unknownOp_keeps : OpKeeps fun _ s => opErr s stBadOp := fun _ s => .refl s

@[simp] theorem notLong_keeps : LongKeeps fun _ s => opOk s := fun _ s => .refl s

theorem opOf_keeps (op : Nat) : OpKeeps (opOf op) := by
  unfold opOf
  split
  all_goals simp

theorem longOf_keeps (op : Nat) : LongKeeps (longOf op) := by
  unfold longOf
  split
  all_goals simp

end Sys2Proof.Machine
end

section
/-! PROOF. What the ports' commands keep: the standard commands, the serving of packets, the root opcodes and the AVS frames
(spec/12, R443 to R459; spec/09, R364, R365). -/

namespace Sys2Proof.Machine

/-! ### The PMBus standard commands -/

/-- A standard command keeps what every command keeps. -/
def StdKeeps (f : StdFn) : Prop := ∀ k w s, Keeps s (f k w s).2

theorem Keeps.cml (s : State) (F : Fld) : Keeps s (cml s F) := .onDev ..

theorem stdRead_keeps {g : State → List Nat × State} (hg : ∀ s, Keeps s (g s).2) : StdKeeps (stdRead g) := by
  intro k w s
  cases w with
  | none => exact hg s
  | some _ => exact .cml ..

theorem stdRead_dev_keeps (g : Dev → List Nat) : StdKeeps (stdRead fun s => (g s.dev, s)) := stdRead_keeps .refl

@[simp] theorem stdRead_const_keeps (b : List Nat) : StdKeeps (stdRead fun s => (b, s)) := stdRead_keeps .refl

theorem stdRail_keeps {g : Nat → StdFn} (hg : ∀ r, StdKeeps (g r)) : StdKeeps (stdRail g) :=
  fun k w s => .eitherSnd (hg _ k w s) ((Keeps.onDev ..).trans (.cml ..))

theorem stdRailRead_dev_keeps (n : Nat) (g : Dev → Nat → Nat) : StdKeeps (stdRailRead n fun s r => (g s.dev r, s)) :=
  stdRail_keeps fun _ => stdRead_keeps .refl

@[simp] theorem stdRailRead_hottest_keeps :
    StdKeeps (stdRailRead 2 fun s r => let (t, d) := hottest s.dev r; (linear11 t 16 (-4) 2, { s with dev := d })) :=
  stdRail_keeps fun _ => stdRead_keeps fun _ => .dev ..

@[simp] theorem stdPage_keeps : StdKeeps stdPage := by
  intro k w s
  unfold stdPage
  split
  · exact .refl s
  · exact .eitherSnd (.onDev ..) (.cml ..)
  · exact .cml ..

@[simp] theorem stdOperation_keeps : StdKeeps stdOperation := by
  refine stdRail_keeps fun r k w s => ?_
  split
  · exact .refl s
  · exact .eitherSnd (.onDev ..) (.eitherSnd (.opWrites ..) (.cml ..))
  · exact .cml ..

@[simp] theorem stdOnOff_keeps : StdKeeps stdOnOff := by
  intro k w s
  unfold stdOnOff
  split
  · exact .refl s
  · exact .refl s
  · exact .cml ..

@[simp] theorem stdClear_keeps : StdKeeps stdClear := by
  intro k w s
  unfold stdClear
  split
  · exact .cml ..
  · exact .onDev ..
  · exact .cml ..

@[simp] theorem stdVout_keeps : StdKeeps stdVout := by
  refine stdRail_keeps fun r k w s => ?_
  extract_lets v
  clear_value v
  split
  · exact .refl s
  next a b =>
    extract_lets t
    clear_value t
    refine .eitherSnd (.cml ..) ?_
    split
    next st u hwrite => exact (Keeps.snd hwrite (.opWrites ..)).trans (.unless (.cml ..))
    next u hwrite => exact .snd hwrite (.opWrites ..)
  · exact .cml ..

@[simp] theorem unknownStd_keeps : StdKeeps fun _ _ s => (none, cml s CP_CML_CMD) := fun _ _ s => .cml s _

theorem stdOf_keeps (code : Nat) : StdKeeps (stdOf code) := by
  unfold stdOf
  extract_lets dev rail
  have hdev (n : Nat) (g : Dev → Nat) : StdKeeps (dev n g) := stdRead_dev_keeps fun d => leBytes n (g d)
  have hrail (n : Nat) (g : Dev → Nat → Nat) : StdKeeps (rail n g) := stdRailRead_dev_keeps n g
  clear_value dev rail
  split
  all_goals simp [hdev, hrail]

theorem Keeps.stdRun (k : Packet) (s : State) : Keeps s (stdRun k s) := by
  unfold Machine.stdRun
  extract_lets s1 code w
  clear_value w
  have hrun : Keeps s (stdOf code k w s1).2 := (Keeps.onDev ..).trans (stdOf_keeps code k w s1)
  generalize stdOf code k w s1 = x at hrun ⊢
  obtain ⟨b, t⟩ := x
  cases b <;> cases w
  · exact hrun.trans ((Keeps.cml ..).trans (.onDev ..))
  · exact hrun
  · exact hrun.trans (.onDev ..)
  · exact hrun

/-! ### Serving -/

theorem Keeps.wardenStep {s t : State} (h : wardenStep s = some t) : Keeps s t := by
  unfold Machine.wardenStep at h
  obtain ⟨k, -, rfl⟩ := Option.map_eq_some_iff.1 h
  exact .either (.stdRun ..) (.runPacket (opOf_keeps _) ..)

theorem Keeps.stdFront (fuel : Nat) (s : State) : Keeps s (stdFront fuel s) := by
  induction fuel generalizing s with
  | zero => exact .refl s
  | succ fuel ih =>
    unfold Machine.stdFront
    split
    · exact .onlyIf ((Keeps.stdRun ..).trans (ih _))
    · exact .refl s

theorem Keeps.serveTo (k : Packet) (fuel : Nat) (s : State) : Keeps s (serveTo k fuel s) := by
  induction fuel generalizing s with
  | zero => exact .refl s
  | succ fuel ih =>
    unfold Machine.serveTo
    refine .unless ?_
    split
    next t hstep => exact (Keeps.wardenStep hstep).trans (ih t)
    · exact .refl s

theorem serve_leaves {f : OpFn} (hf : OpKeeps f) (op : Nat) (s : State) : Leaves s (serve op f s) := by
  unfold serve
  have hfront := Keeps.stdFront s.dev.rings.length s
  extract_lets t
  split
  · exact .next (hfront.trans (.onlyIf (.runPacket hf ..)))
  · exact .next hfront

theorem serveHeld_leaves {f : OpFn} {g : LongFn} (hf : OpKeeps f) (hg : LongKeeps g) (op : Nat) (s : State) :
    Leaves s (serveHeld op f g s) := by
  unfold serveHeld
  split
  · exact .next (.onlyIf (.runHeld hg ..))
  · exact serve_leaves hf op s

theorem execLongPacketComplete_leaves (g : Fin 16) (s : State) : Leaves s (execLongPacketComplete g s) := by
  unfold execLongPacketComplete
  split
  · exact .next (.onlyIf (.runLong (longOf_keeps _) ..))
  · exact .next (.refl s)

/-! ### The PMBus port -/

theorem Keeps.stdSubmit (code : Nat) (ps : List Nat) (s : State) : Keeps s (stdSubmit code ps s) := by
  unfold Machine.stdSubmit
  extract_lets d p k silent s1 s2
  have hsilent (t : State) : Keeps t (silent t) := .either ((Keeps.cml ..).trans (.onDev ..)) (.cml ..)
  have hserved : Keeps s s2 := (Keeps.onDev ..).trans (.serveTo ..)
  clear_value silent s2
  refine .either ((Keeps.onDev ..).trans (hsilent _)) (.either ((Keeps.onDev ..).trans (hsilent _)) ?_)
  exact hserved.trans (.onlyIf ((Keeps.onDev ..).trans (hsilent _)))

theorem std_leaves (code : Nat) (x : PmbOp) (s : State) : Leaves s (std code x s) := by
  unfold std
  refine .ite (.next (.refl s)) ?_
  cases x with
  | read => exact .next (.stdSubmit ..)
  | write data pec => exact .next (.either (.onDev ..) (.stdSubmit ..))

theorem execMfrSpecific00_leaves (bytes : List Byte) (pec : Pec) (s : State) : Leaves s (execMfrSpecific00 bytes pec s) :=
  .ite (.next (.refl s)) (.ite (.next (.onDev ..)) (.next (.onDev ..)))

/-! ### The root opcodes -/

theorem Keeps.rootServe {f : Packet → State → List Nat × State} (hf : ∀ k s, Keeps s (f k s).2) (op : Nat) (s : State) :
    Keeps s (rootServe op f s) := by
  unfold Machine.rootServe
  split
  · exact .onlyIf (((Keeps.onDev ..).trans (hf ..)).trans (.onDev ..))
  · exact .refl s

theorem execRootReset_leaves (s : State) : Leaves s (execRootReset s) :=
  .next (.either (.onlyIf (.devReset ..)) (.rootServe (fun _ _ => .onDev ..) ..))

/-! ### AVS frames -/

theorem Keeps.avsFrame {g : Nat → State → State} (hg : ∀ k s, Keeps s (g k s)) (s : State) (sel : Nat) :
    Keeps s (avsFrame s sel g) := by
  unfold Machine.avsFrame
  refine .unless ?_
  split
  · exact .onDev ..
  · exact .either (hg ..) (.onDev ..)

theorem Keeps.avsWrite (R : Reg) (F : Fld) (v : Dev → Nat → Int × Dev) (ok : Dev → Nat → Int → Bool) (k : Nat) (s : State) :
    Keeps s (avsWrite R F v ok k s) := by
  unfold Machine.avsWrite
  generalize v s.dev k = x
  obtain ⟨x, d⟩ := x
  refine (Keeps.dev s d).trans (.either ?_ (.onDev ..))
  split
  · exact (Keeps.regWrite ..).trans (.onDev ..)
  · exact .refl _

theorem Keeps.avsRead (v : Dev → Nat → Int × Dev) (k : Nat) (s : State) : Keeps s (avsRead v k s) := .onDev ..

end Sys2Proof.Machine
end

section
/-! PROOF. What the events keep that change memory or look for their object first: flash and the life log, SRAM's scrub, the
queues, rings and channels, and the resets (spec/11, spec/13, spec/19, spec/20). -/

namespace Sys2Proof.Machine

/-! ### Flash, SRAM and the life log -/

theorem execDomainReturnDone_leaves (n : Fin 48) (s : State) : Leaves s (execDomainReturnDone n s) :=
  .ite (.next ((Keeps.onlyIf (.clearValid ..)).trans (.onDev ..))) (.next (.refl s))

theorem execProgramPulseDone_leaves (ok : Bool) (s : State) : Leaves s (execProgramPulseDone ok s) :=
  .ite (.next (((Keeps.onlyIf (.tear ..)).trans (.onlyIf (.swapShow _))).trans (.onDev ..))) (.next (.refl s))

theorem execRdtwinDone_leaves (s : State) : Leaves s (execRdtwinDone s) := by
  refine .ite (.next (.trans (.foldl _ _ fun t w => ?_) (.onDev ..))) (.next (.refl s))
  exact .either (.onDev ..) (.onDev ..)

theorem execEraseVerifyDone_leaves (ok : Bool) (s : State) : Leaves s (execEraseVerifyDone ok s) := by
  refine .ite (.ite (.next ?erased) (.ite (.next ?failed) (.next ?nextSegment))) (.next (.refl s))
  case erased => exact (Keeps.eraseKeys ..).trans (.onDev ..)
  case failed => exact (Keeps.fcEraseFail s).trans (.onDev ..)
  case nextSegment => exact .onDev ..

theorem execLogAppend_leaves (ok : Bool) (s : State) : Leaves s (execLogAppend ok s) := by
  unfold execLogAppend
  split
  · exact .next (.refl s)
  next r _ =>
    refine .ite ?_ (.next (.refl s))
    extract_lets hold s1 n s2 s3
    have hsuspend : Keeps s s1 := .onlyIf (.onDev ..)
    have hroom : Keeps s1 s2 := .unless (.either (.logRoll s1) (.onlyIf (.onDev ..)))
    have hwrite : Keeps s2 s3 := .onlyIf (.logWrite ..)
    exact .next (((hsuspend.trans hroom).trans hwrite).trans (.onlyIf (.onDev ..)))

theorem execScrubVisit_leaves (s : State) : Leaves s (execScrubVisit s) := by
  unfold execScrubVisit
  refine .ite (.next (.refl s)) ?_
  split
  · refine .next ?_
    split
    · exact (Keeps.onDev ..).trans (.onlyIf (.scrubWord ..))
    · exact .onDev ..
  · exact .ite (.next (.onDev ..)) (.next ((Keeps.scrubWord ..).trans (.onDev ..)))

theorem execLogScanDone_leaves (s : State) : Leaves s (execLogScanDone s) :=
  .ite (.next ((Keeps.logRestore s).trans (.onDev ..))) (.next (.refl s))

/-! ### Records, trails and tokens -/

theorem execRecordHandover_leaves (c : Fin 8) (s : State) : Leaves s (execRecordHandover c s) := by
  unfold execRecordHandover
  split
  · exact .next (.refl s)
  next r _ =>
    extract_lets s1 step s2 ring
    have htaken : Keeps s s2 := (Keeps.onDev ..).trans (.onDev ..)
    clear_value s2 ring
    split
    next ok t hput =>
      have hrecord : Keeps s2 t := .snd hput (.eitherSnd (.refl s2) (.ringPut ..))
      exact .next ((htaken.trans hrecord).trans (.unless ((Keeps.ringDrop ..).trans (.onDev ..))))

theorem execConsumerDelivery_leaves (cons : BitVec 12) (s : State) : Leaves s (execConsumerDelivery cons s) := by
  unfold execConsumerDelivery
  split
  · exact .next (.refl s)
  · exact .ite (.next ((Keeps.onDev ..).trans (.deliver ..))) (.next ((Keeps.onDev ..).trans (.onDev ..)))

theorem execElogWrite_leaves (i : Fin 256) (s : State) : Leaves s (execElogWrite i s) := by
  unfold execElogWrite
  split
  · exact .next (.refl s)
  · exact .next ((Keeps.onDev ..).trans (.elogPut ..))

theorem execTokenClaim_leaves (c : Claimer) (s : State) : Leaves s (execTokenClaim c s) := by
  refine .ite (.next (.refl s)) ?_
  cases c with
  | lane l => exact .next (.laneClaim ..)
  | dma ch => exact .next (.dmaClaim ..)

theorem onLead_leaves (s : State) (l : Lane) (g : Dev → Nat → Dev) : Leaves s (onLead s l g) :=
  .next ((Keeps.onDev ..).trans (.qSettle _))

theorem rxLead_leaves (s : State) (l : Lane) (g : Dev → Nat → Dev) : Leaves s (rxLead s l g) := onLead_leaves ..

theorem execMsgFlit_leaves (l : Lane) (pay : BitVec 104) (stamp : BitVec 64) (s : State) :
    Leaves s (execMsgFlit l pay stamp s) := .next (((Keeps.onDev ..).trans (.qSettle _)).trans (.onDev ..))

/-! ### Channels -/

theorem execDescriptorFetch_leaves (ch : Fin 32) (s : State) : Leaves s (execDescriptorFetch ch s) := by
  refine .ite ?_ (.next (.refl s))
  extract_lets a s1
  have hturn : Keeps s s1 := .onDev ..
  clear_value s1
  refine .ite (.next (hturn.trans (.onDev ..))) ?_
  split
  next b x t hwords => exact .next ((hturn.trans (.snd hwords (.dmaWords ..))).trans (.onDev ..))
  next ws t hwords => exact .next ((hturn.trans (.snd hwords (.dmaWords ..))).trans (.onDev ..))

theorem execDmaBurst_leaves (s : State) : Leaves s (execDmaBurst s) := by
  unfold execDmaBurst
  split
  · exact .next (.onlyIf ((Keeps.onDev ..).trans (.dmaBeats ..)))
  · exact .next (.refl s)

theorem execDmaTrig_leaves (who : Option Initiator) (ch : Fin 32) (s : State) : Leaves s (execDmaTrig who ch s) := by
  cases who with
  | some who => exact .next (.keepStore ..)
  | none => exact .next (.onDev ..)

/-! ### Verification, resets and start-up -/

theorem execVerifyDone_leaves (s : State) : Leaves s (execVerifyDone s) := by
  refine .ite ?_ (.next (.refl s))
  extract_lets a kind part
  split
  next h t hheader =>
    extract_lets h'
    split
    next b u hbody =>
      have header : Keeps s t := .snd hheader (.eitherSnd (.verifyRead ..) (.refl s))
      have body : Keeps t u := .snd hbody (.eitherSnd (.verifyRead ..) (.refl t))
      exact .next ((header.trans body).trans (.onDev ..))

theorem execPowerOnReset_leaves (s : State) : Leaves s (execPowerOnReset s) :=
  .next ((Keeps.filter s fun c => keptAtPor c.1).trans (.dev ..))

theorem execResetRelease_leaves (s : State) : Leaves s (execResetRelease s) :=
  .ite (.next (((Keeps.onlyIf (.fcEraseFail s)).trans (.onDev ..)).trans (.swapShow _))) (.next (.refl s))

theorem execFuseLoadDone_leaves (straps : BitVec 5) (s : State) : Leaves s (execFuseLoadDone straps s) :=
  .ite (.next (((Keeps.onDev ..).trans (.charterLoad _)).trans (.onDev ..))) (.next (.refl s))

theorem execBootVerifyDone_leaves (s : State) : Leaves s (execBootVerifyDone s) :=
  .ite (.next ((Keeps.bootVerify s).trans (.onDev ..))) (.next (.refl s))

theorem execBrownOut_leaves (s : State) : Leaves s (execBrownOut s) :=
  .ite (.next (.refl s)) (.next (((Keeps.onDev ..).trans (.fcBrown _)).trans (.onDev ..)))

theorem execWardenWdogExpire_leaves (s : State) : Leaves s (execWardenWdogExpire s) := by
  refine .ite ?_ (.next (.refl s))
  split
  · exact .next ((Keeps.onDev ..).trans (.onDev ..))
  · exact .next ((Keeps.onDev ..).trans (.devReset ..))
  · exact .next (.onDev ..)

/-! ### CPU events -/

theorem execInterruptTake_leaves (cpu : Cpu) (divide : Bool) (s : State) : Leaves s (execInterruptTake cpu divide s) :=
  .next (.onlyIf (.takeInt ..))

theorem execCoreHaltRequest_leaves (c : Fin 4) (s : State) : Leaves s (execCoreHaltRequest c s) :=
  .next (.onlyIf ((Keeps.drainAll ..).trans (.onDev ..)))

theorem execCacheLineFill_leaves (c : Fin 5) (addr : Word) (s : State) : Leaves s (execCacheLineFill c addr s) :=
  .next (.unless (.lineGet ..))

end Sys2Proof.Machine
end

section
/-! PROOF. Every command keeps the canonical form of the memory and the queue that it found, and so a step takes the front of
the queue and nothing else (R33, notes/assumptions/1.md). -/

namespace Sys2Proof.Machine

/-- Every command keeps it. Where the meaning only changes the device, neither the memory nor the queue is touched; the
commands named here reach further, each through what it shares with its kind. -/
theorem exec_leaves (c : Instr) (s : State) : Leaves s (exec c s) := by
  cases c
  -- the ports
  case page | operation | onOffConfig | clearFaults | capability | voutMode | voutCommand | statusByte | statusWord
      | statusVout | statusIout | statusInput | statusTemperature | statusCml | readVin | readIin | readVout | readIout
      | readTemperature1 | readPout | pmbusRevision | mfrId | mfrModel =>
    exact std_leaves ..
  case mfrSpecific00 => exact execMfrSpecific00_leaves ..
  case allOff | railOff => exact .next (.rootServe (fun _ _ => .onDev ..) ..)
  case readCanopy | readLatches | readIdentity | ping => exact .next (.rootServe (fun _ => .refl) ..)
  case rootReset => exact execRootReset_leaves s
  case avsVoltageWrite | avsRateWrite => exact .next (.avsFrame (.avsWrite _ _ _ _) ..)
  case avsVoltageRead | avsRateRead | avsCurrentRead | avsTemperatureRead | avsStatusRead =>
    exact .next (.avsFrame (.avsRead _) ..)
  -- packets
  case setState | stageAccess | rtcSet => exact serveHeld_leaves (by simp) (by simp) ..
  case devInfo | devStatus | echo | regRead | regWrite | regModify | railStatus | railEnable | railVout | railRamp
      | railLoadline | railComp | railLimits | railStrike | railConfig | railIlim | railCoppice | railSeq | railProtect
      | railClear | railPeriod | railSteer | railCause | phaseStatus | phaseRole | phaseConfig | phaseProtect | phaseClear
      | phaseAz | stageDesc | toneMap | rollCall | storeStatus | storeConfig | storeEnable | storeFloor | ceiling
      | escalation | ceilSense | laneStatus | laneEnable | laneConfig | partnerId | intentConfig | intentTrust
      | intentStatus | coupleConfig | coupleCmd | coupleStatus | teleLast | teleConfig | teleCtl | teleOwn | railReadings
      | timeGet | meterRead | billingRead | lifeStage | lifeDevice | logRead | lifeFlush | fwInfo | fwBegin | fwWrite
      | fwVerify | fwSwap | fwAbort | partInfo | reflogRead | coreAssign | coreCtl | imageLoad | groveLead | groveBanks
      | groveInstall | groveStd | groveTask | resAssign | fuseOp =>
    exact serve_leaves (by simp) ..
  case longPacketComplete => exact execLongPacketComplete_leaves ..
  -- loads and stores on the bus
  case flIntLoRead | cnViewRead | cal0Read | rootstampRead => exact .next (.keepLoad ..)
  case staleClear | flCmtHoldRelease | flCmtClrcnt | azStart | clrFail | phClrcnt | rollCallStart | busEnable | railEnWrite
      | sequencedStop | compTestGo | stEnWrite | storeDisable | lnEnWrite | laneDisable | laneTestStart | laneTestStop
      | retrain | carryRequest | rejoinRequest | tcEnable | tcDisable | tcGo | tcAbort | tcClrcnt | mailboxGo | dmaStart
      | dmaStop | dmaClr | arbClrmax | laneClrcnt | toneMapGo | toneMapAll | stageAccessGo | groveEnable | groveDisable
      | taskEnable | gvLeadWrite | wdgKick | cwdgKick | fbPclr | fbRclr | fbDclr | scCauseClear | ceilWrite | allowWrite
      | fuseProgramSlot | fuseRetireSlot | fuseProgramKey | fuseRevokeKey | verifyGo | refTailWrite | coretagWrite | trFire
      | trSrcWrite | produce | consume | arm | swCauseSet | reqActive | reqQuiet | reqGlade | reqClearing | holdRelease
      | voteWrite | timerHiWrite | rtcSetWrite | lfFlushWrite | remapSet | remapClear | repairModeWrite | flashProgram
      | flashErase | flashSuspend | flashResume | flashRdtwin | flashSwap | padFuncWrite | gsetWrite | gclrWrite
      | ringContextWrite =>
    exact .next (.keepStore ..)
  case registerWrite => exact .ite (.next (.keepStore ..)) (.next (.refl s))
  case aonRegisterWriteArrival => exact .next (.aonArrive ..)
  -- instructions
  case add | sub | adc | sbc | and | or | xor | andn | shl | shr | sar | ror | shli | shri | sari | rori | min | max | minu
      | maxu | clz | cls | popc | rev | permr | abs | adds | subs | mul | mulhs | mulhu | mulq | mulqn | macq | msuq | addi
      | addis | andi | ori | xori | lui | cmpi =>
    unfold exec; exact regIns_leaves ..
  case div | divu | rem | remu => unfold exec; exact divIns_leaves ..
  case bfx | bfxs | bfi => unfold exec; exact bitField_leaves ..
  case perm => unfold exec; exact .ite (illegal_leaves ..) (regIns_leaves ..)
  case ldb | ldbu | ldh | ldhu | ldw => unfold exec; exact loadIns_leaves ..
  case stb | sth | stw => unfold exec; exact storeIns_leaves ..
  case cas => unfold exec; exact execCas_leaves ..
  case bcond => unfold exec; exact execBcond_leaves ..
  case jmp => unfold exec; exact runIns_leaves _ _ .refl
  case call => unfold exec; exact runIns_leaves _ _ fun _ => .dev ..
  case jr | jalr => unfold exec; exact runIns_leaves _ _ fun _ => .jumpTo ..
  case mfcr => unfold exec; exact execMfcr_leaves ..
  case mtcr => unfold exec; exact execMtcr_leaves ..
  case imset | imclr => unfold exec; exact imIns_leaves ..
  case syscall => unfold exec; exact execSyscall_leaves ..
  case brk => unfold exec; exact execBrk_leaves ..
  case wait => unfold exec; exact execWait_leaves ..
  case sync => unfold exec; exact execSync_leaves ..
  case eret => unfold exec; exact execEret_leaves ..
  case tinvA | tinvT | tinvAll => unfold exec; exact tinvIns_leaves ..
  case done | drop => unfold exec; exact endIns_leaves ..
  case illegalInstruction => unfold exec; exact execIllegalInstruction_leaves ..
  -- CPU events
  case interruptTake => exact execInterruptTake_leaves ..
  case storeDrain => exact .next (.drainOne ..)
  case coreHaltRequest => exact execCoreHaltRequest_leaves ..
  case cacheLineFill => exact execCacheLineFill_leaves ..
  case tlbWalk => exact execTlbWalk_leaves ..
  -- links
  case ts2RecovReceived | ackFlit | identityFrame => unfold exec; exact rxLead_leaves ..
  case linkDown | replayTimeout | identityTimeout => unfold exec; exact onLead_leaves ..
  case msgFlit => exact execMsgFlit_leaves ..
  -- queues, rings and channels
  case recordHandover => exact execRecordHandover_leaves ..
  case consumerDelivery => exact execConsumerDelivery_leaves ..
  case elogWrite => exact execElogWrite_leaves ..
  case tokenClaim => exact execTokenClaim_leaves ..
  case dmaTrig => exact execDmaTrig_leaves ..
  case descriptorFetch => exact execDescriptorFetch_leaves ..
  case dmaBurst => exact execDmaBurst_leaves ..
  -- fuses, flash, SRAM and the life log
  case fusePulseDone => exact .next (.onlyIf (.fusePulse s))
  case fuseOpDone => exact .next (.onlyIf (.fuseOpDone s))
  case verifyDone => exact execVerifyDone_leaves s
  case domainReturnDone => exact execDomainReturnDone_leaves ..
  case scrubVisit => exact execScrubVisit_leaves s
  case programPulseDone => exact execProgramPulseDone_leaves ..
  case rdtwinDone => exact execRdtwinDone_leaves s
  case eraseVerifyDone => exact execEraseVerifyDone_leaves ..
  case logAppend => exact execLogAppend_leaves ..
  case logScanDone => exact execLogScanDone_leaves s
  -- resets and start-up
  case powerOnReset => exact execPowerOnReset_leaves s
  case resetPin | vinUndervoltage | buckFault => exact .next (.devReset ..)
  case resetRelease => exact execResetRelease_leaves s
  case fuseLoadDone => exact execFuseLoadDone_leaves ..
  case bootVerifyDone => exact execBootVerifyDone_leaves s
  case brownOut => exact execBrownOut_leaves s
  case wardenWdogExpire => exact execWardenWdogExpire_leaves s
  -- events of the device
  all_goals exact .next (.onDev ..)

/-- A step from a queue that is not empty is the front command, at a state that keeps the rest of the queue. -/
theorem step_front {s : State} {c : Instr} {rest : List Instr} (h : s.pending = c :: rest) :
    step s = exec c { s with pending := rest } := by
  simp [step, h]

/-- A step from an empty queue changes nothing. -/
theorem step_idle {s : State} (h : s.pending = []) : step s = .next s := by
  simp [step, h]

/-- Settles O3: a step is the front command run at the rest of the queue, and every command keeps the canonical form and the
queue that it found. -/
theorem stepKeepsSound : Obligations.StepKeepsSound := by
  unfold Obligations.StepKeepsSound
  intro s t hsound hstep
  cases hqueue : s.pending with
  | nil =>
    obtain rfl : s = t := by simpa [step_idle hqueue] using hstep
    exact ⟨hsound, hqueue⟩
  | cons c rest =>
    have hleaves := exec_leaves c { s with pending := rest }
    rw [← step_front hqueue, hstep] at hleaves
    obtain ⟨hwf, hrest⟩ := hleaves
    exact ⟨hwf hsound, hrest⟩

end Sys2Proof.Machine
end

section
/-! PROOF. The registers as the bus reaches them: what a load of one register, a store of one word to it and a write into a
crossing to AON come to, and what a write of one field writes (R10 to R13, R28, R33, R544). -/

namespace Sys2Proof.Machine

/-! ### Registers on the bus -/

/-- Copy j of a register is what the bus finds at the copy's address. -/
@[reducible] def Mapped (row : RegRow) (j : Nat) : Prop :=
  isRegAddr (row.reg.addr j) = true ∧ row.reg.addr j % 4 = 0 ∧ regAt (row.reg.addr j) = some (row, j)

/-- A command that loads a register, by an initiator that may read it, answers the word that the register's read gives and
leaves the device that the read leaves. -/
theorem load_answers {i : Instr} {s : State} {who : Initiator} {row : RegRow} {j : Nat} {w : Word} {v : Nat} {g : Dev → Dev}
    (hexec : exec i s = .next (keepRes (busLoad s who (row.reg.addr j) 4))) (hmap : Mapped row j)
    (hb : busOpen s.dev who = true) (hp : regPowered s.dev row.reg j = true) (hm : mayRead s.dev who row.reg j = true)
    (hread : regRead s.dev who row.reg j = (w, g s.dev)) (hv : w.toNat = v) :
    exec i s = .next (s.onDev fun d => ((g d).setH .rdOut 0 v).setH .rdOut 1 0) := by
  obtain ⟨hr, h4, ha⟩ := hmap
  rw [hexec, busLoad_reg hb hr h4 ha hp hm, hread, hv]
  rfl

/-- A store of a word to a register is the store to that copy. -/
theorem storeReg_mapped {s : State} {who : Initiator} {row : RegRow} {j : Nat} (w : Word) (hmap : Mapped row j)
    (hb : busOpen s.dev who = true) :
    storeReg s who row.reg j w = .next (keepRes (regStoreAt s who row j (row.reg.addr j) w)) := by
  obtain ⟨hr, h4, ha⟩ := hmap
  rw [storeReg, busStore_reg hb hr h4 ha, BitVec.ofNat_toNat, BitVec.setWidth_eq]

/-! ### Crossings into AON -/

/-- A store to a register of AON, by an initiator that may write it, enters the register's crossing (R28). -/
theorem storeReg_aon {s : State} {who : Initiator} {row : RegRow} {j q : Nat} {w : Word} (hmap : Mapped row j)
    (haon : 0x50000000 ≤ row.reg.base) (hq : aonQueueOf (row.reg.addr j) = some q) (hb : busOpen s.dev who = true)
    (hm : mayWrite s who row.reg j w = true) :
    storeReg s who row.reg j w = .next (keepRes (.ok 0, aonEnter s q (row.reg.addr j) row.reg w)) := by
  have hne (R : Reg) (hR : R.base < 0x50000000) : row.reg ≠ R := fun h => by rw [h] at haon; omega
  have hp : regPowered s.dev row.reg j = true := by simp [regPowered, haon]
  have hn : namedOk s who row.reg w = true := by simp [namedOk, hne QM_DB (by decide), hne TR_FIRE (by decide)]
  rw [storeReg_mapped w hmap hb]
  simp [regStoreAt, hp, hn, hm, hq, hne TR_SRC (by decide), hne TR_DSTA (by decide), hne TR_DSTB (by decide)]

/-- Whether a word written to a register asks for the RTC to be set (R544). -/
def asksSet (R : Reg) (w : Word) : Bool := R = TM_RTC_CTL && valOf w TM_RTC_CTL_SET != 0

/-- A second SET while one waits is refused (R544). -/
theorem aonEnter_refused {s : State} (q a : Nat) {R : Reg} {w : Word} (hset : asksSet R w = true)
    (hbusy : s.dev.on TM_RTC_CTL_SETBUSY = true) :
    aonEnter s q a R w = s.onDev fun d => d.set1 TM_ACAUSE_ACC_ERR := by
  unfold asksSet at hset
  simp [aonEnter, hset, hbusy]

/-- The device after a word has entered crossing q for the register at address a; a SET is shown to wait (R28, R544). -/
def enterAon (q a : Nat) (R : Reg) (w : Word) (d : Dev) : Dev :=
  let d := if asksSet R w then d.setF TM_RTC_CTL_SETBUSY 0 1 else d
  { d with aonQ := d.aonQ ++ [{ q := q, addr := a, val := w }] }

theorem enterAon_set {R : Reg} {w : Word} (q a : Nat) (d : Dev) (hset : asksSet R w = true) :
    enterAon q a R w d = { d.setF TM_RTC_CTL_SETBUSY 0 1 with aonQ := d.aonQ ++ [{ q := q, addr := a, val := w }] } := by
  simp only [enterAon, hset, if_true]; rfl

theorem enterAon_other {R : Reg} {w : Word} (q a : Nat) (d : Dev) (hset : asksSet R w = false) :
    enterAon q a R w d = { d with aonQ := d.aonQ ++ [{ q := q, addr := a, val := w }] } := by
  simp [enterAon, hset]

/-- A write that is not refused enters, where the crossing is full after its oldest write has arrived (R28). -/
theorem aonEnter_taken {s : State} (q a : Nat) {R : Reg} {w : Word}
    (h : (asksSet R w && s.dev.on TM_RTC_CTL_SETBUSY) = false) :
    aonEnter s q a R w = (if 4 ≤ aonFill s.dev q then aonArrive s q else s).onDev (enterAon q a R w) := by
  unfold asksSet at h
  unfold aonEnter
  rw [if_neg (by simpa using h)]
  rfl

/-- A store to a register of AON: its word enters the crossing at once where there is room, else after the oldest; `g` is
what the entry shows beside it. -/
theorem storeReg_crosses {s : State} {who : Initiator} {row : RegRow} {j q : Nat} {w : Word} {g : Dev → Dev}
    (hmap : Mapped row j) (haon : 0x50000000 ≤ row.reg.base) (hq : aonQueueOf (row.reg.addr j) = some q)
    (hb : busOpen s.dev who = true) (hset : (asksSet row.reg w && s.dev.on TM_RTC_CTL_SETBUSY) = false)
    (hg : ∀ d, enterAon q (row.reg.addr j) row.reg w d
      = { g d with aonQ := d.aonQ ++ [{ q := q, addr := row.reg.addr j, val := w }] })
    (hm : mayWrite s who row.reg j w = true) :
    let put (t : State) : State :=
      t.onDev fun d => { g d with aonQ := d.aonQ ++ [{ q := q, addr := row.reg.addr j, val := w }] }
    (aonFill s.dev q < 4 → storeReg s who row.reg j w = .next (keepRes (.ok 0, put s)))
    ∧ (4 ≤ aonFill s.dev q → storeReg s who row.reg j w = .next (keepRes (.ok 0, put (aonArrive s q)))) := by
  rw [storeReg_aon hmap haon hq hb hm, aonEnter_taken q _ hset, funext hg]
  exact ⟨fun hroom => by rw [if_neg (by omega)], fun hfull => by rw [if_pos hfull]⟩

/-- A store that asks for a second SET is refused (R544). -/
theorem storeReg_secondSet {s : State} {who : Initiator} {row : RegRow} {j q : Nat} {w : Word} (hmap : Mapped row j)
    (haon : 0x50000000 ≤ row.reg.base) (hq : aonQueueOf (row.reg.addr j) = some q) (hb : busOpen s.dev who = true)
    (hset : asksSet row.reg w = true) (hbusy : s.dev.on TM_RTC_CTL_SETBUSY = true)
    (hm : mayWrite s who row.reg j w = true) :
    storeReg s who row.reg j w = .next (acked s fun d => d.set1 TM_ACAUSE_ACC_ERR) := by
  rw [storeReg_aon hmap haon hq hb hm, aonEnter_refused q _ hset hbusy]
  rfl

/-- The write that arrives from a crossing is the oldest there, and it reaches its register (R28). -/
theorem aonArrive_found {s : State} {q : Nat} {x : AonWrite} {row : RegRow} {j : Nat}
    (hx : s.dev.aonQ.find? (fun x => x.q == q) = some x) (hreg : regAt x.addr = some (row, j)) :
    aonArrive s q = (s.onDev fun d => { d with aonQ := d.aonQ.erase x }).onDev fun d => aonRegWrite d row j x.val := by
  simp [aonArrive, aonTake, State.onDev, hx, hreg]

/-- A crossed write that hits no lock and no reserved encoding is stored in the warden's way (R245, R551). -/
theorem aonRegWrite_stored {d : Dev} {row : RegRow} {j : Nat} {w : Word} (hdb : row.reg.db ≠ .grove)
    (hl : lockHit d row j w = none) (hr : reservedWord d row j w = false) :
    aonRegWrite d row j w = aonWrite d .warden row.reg j w (newWord d row j w) := by
  simp [aonRegWrite, writeChecks, hdb, hl, hr]

end Sys2Proof.Machine
end

section
/-! PROOF. Reads with a side effect and writes that cross into AON (R28, R83, R461, R506, R544, R551, R562, R709). -/

namespace Sys2Proof.Machine

/-! ### Reads with a side effect -/

/-- A field of all 32 bits takes the place of the whole word. -/
theorem putBits_whole (w : Word) (v : Int) : putBits w 0 32 v = BitVec.ofInt 32 v := by
  refine BitVec.eq_of_getLsbD_eq fun i hi => ?_
  rw [getLsbD_putBits _ _ _ _ _ hi, if_pos ⟨Nat.zero_le i, by omega⟩, Nat.sub_zero]

/-- The low word that a read of FL_INT_LO returns (R709). -/
theorem r_intLoRead (d : Dev) (k : Rail) : (intLoRead d k).r FL_INT_LO k = BitVec.ofInt 32 (d.h .intSnap (3 * k + 2)) := by
  have hother : FL_INT_HI.addr k ≠ FL_INT_LO.addr k := by revert k; decide
  exact (Dev.r_setR_other _ _ hother).trans ((Dev.r_setR_same ..).trans (putBits_whole ..))

theorem regRead_intLo (d : Dev) (who : Initiator) (k : Rail) :
    regRead d who FL_INT_LO k = (BitVec.ofInt 32 (d.h .intSnap (3 * k + 2)), intLoRead d k) := by
  rw [← r_intLoRead]; rfl

theorem regRead_rootstampLo (d : Dev) (who : Initiator) :
    regRead d who CP_ROOTSTAMP_LO 0
      = (d.r CP_ROOTSTAMP_LO, d.setF CP_ROOTSTAMP_HI_STAMP 0 (d.h .rootStamp 0 / 2 ^ 32)) := rfl

theorem regValue_cal0 (d : Dev) (who : Initiator) : regValue d who TM_CAL0 0 = BitVec.ofNat 32 (cal0 d) :=
  (putBits_whole (storedWord d TM_CAL0 0) (cal0 d)).trans (BitVec.ofInt_natCast ..)

theorem regRead_cal0 (d : Dev) (who : Initiator) :
    regRead d who TM_CAL0 0 = (BitVec.ofNat 32 (cal0 d), d.setH .cal1 (readerOf who) (cal1 d)) := by
  rw [← regValue_cal0 d who]; rfl

theorem regRead_view (d : Dev) (who : Initiator) :
    regRead d who CN_VIEW 0 = (BitVec.ofNat 32 (viewOf d (tagOf d who)), d) := rfl

/-- A summary of n leaves has n bits. -/
theorem boughBits_lt (n : Nat) (g : Nat → Bool) : boughBits n g < 2 ^ n := by
  unfold boughBits
  induction n with
  | zero => exact Nat.one_pos
  | succ n ih =>
    rw [List.range_succ, List.foldl_append, pow_succ]
    simp only [List.foldl_cons, List.foldl_nil]
    split <;> omega

/-- The canopy as a reader sees it has 22 bits (R504). -/
theorem viewOf_lt (d : Dev) (tag : Nat × Bool) : viewOf d tag < 2 ^ 22 := by
  unfold viewOf
  split
  · exact boughBits_lt ..
  · exact boughBits_lt ..

/-! ### The statement -/

theorem mapped_intLo : ∀ k : Rail, Mapped row_FL_INT_LO k := by decide +kernel
theorem mapped_rootstampLo : Mapped row_CP_ROOTSTAMP_LO 0 := by decide +kernel
theorem mapped_cal0 : Mapped row_TM_CAL0 0 := by decide +kernel
theorem mapped_view : Mapped row_CN_VIEW 0 := by decide +kernel
theorem mapped_scCause : Mapped row_FB_SC_CAUSE 0 := by decide +kernel
theorem mapped_rtcCtl : Mapped row_TM_RTC_CTL 0 := by decide +kernel
theorem mapped_lfCtl : Mapped row_LF_CTL 0 := by decide +kernel

theorem regPowered_intLo (d : Dev) (k : Rail) : regPowered d FL_INT_LO k = domOn d (5 + k / 4) := by
  have hunit : regPowered d FL_INT_LO k = domOn d (5 + k / 1 / 4) := rfl
  rw [hunit, Nat.div_one]

/-- A register that every initiator may read. -/
theorem mayRead_all (d : Dev) (who : Initiator) {R : Reg} (i : Nat) (h : R.rd = .all) : mayRead d who R i = true := by
  simp [mayRead, h]

/-- The word that RTC_SET_WRITE stores asks for a set. -/
theorem asksSet_rtc (data : Word) : asksSet TM_RTC_CTL (putBits data 0 1 1) = true := by
  have hbit : valOf (putBits data 0 1 1) TM_RTC_CTL_SET = 1 := bitsOf_putBits_same data 0 1 1 (by decide)
  simp [asksSet, hbit]

/-- A write of another register does not. -/
theorem asksSet_other {R : Reg} (w : Word) (h : R ≠ TM_RTC_CTL) : asksSet R w = false := by simp [asksSet, h]

/-- Settles O30: a read is the bus's load of its register, a write the bus's store into its crossing. -/
theorem readsAndCrossings : Obligations.ReadsAndCrossings := by
  unfold Obligations.ReadsAndCrossings
  intro s who hb d answers
  refine ⟨?intLo, ?rootstamp, ?cal0, ?view, ⟨?scCause, fun data => ⟨?rtcSet, ?rtcRefused, ?flush⟩⟩, ?arrival⟩
  case intLo =>
    intro k hon hm
    exact load_answers (row := row_FL_INT_LO) (j := k) rfl (mapped_intLo k) hb ((regPowered_intLo ..).trans hon) hm
      (regRead_intLo ..) (BitVec.toNat_ofInt ..)
  case rootstamp =>
    intro hon hm
    exact load_answers (row := row_CP_ROOTSTAMP_LO) (j := 0) rfl mapped_rootstampLo hb hon hm (regRead_rootstampLo ..) rfl
  case cal0 =>
    exact load_answers (row := row_TM_CAL0) (j := 0) rfl mapped_cal0 hb rfl (mayRead_all d who 0 rfl) (regRead_cal0 ..)
      (BitVec.toNat_ofNat ..)
  case view =>
    intro hon
    have hlt : viewOf d (tagOf d who) < 2 ^ 32 := (viewOf_lt ..).trans (by decide)
    exact load_answers (row := row_CN_VIEW) (j := 0) rfl mapped_view hb hon (mayRead_all d who 0 rfl) (regRead_view ..)
      (by rw [BitVec.toNat_ofNat, Nat.mod_eq_of_lt hlt])
  case scCause =>
    intro bits
    have hother : asksSet row_FB_SC_CAUSE.reg (bits.setWidth 32) = false := asksSet_other _ (by decide)
    exact storeReg_crosses (row := row_FB_SC_CAUSE) (j := 0) mapped_scCause (by decide) rfl hb
      (by rw [hother]; rfl) (fun d => enterAon_other _ _ d hother)
  case rtcSet =>
    intro hidle
    have hset : asksSet row_TM_RTC_CTL.reg (putBits data 0 1 1) = true := asksSet_rtc data
    exact storeReg_crosses (row := row_TM_RTC_CTL) (j := 0) mapped_rtcCtl (by decide) rfl hb
      (by rw [hset, hidle]; rfl) (fun d => enterAon_set _ _ d hset)
  case rtcRefused =>
    intro hbusy hm
    exact storeReg_secondSet (row := row_TM_RTC_CTL) (j := 0) mapped_rtcCtl (by decide) rfl hb
      (asksSet_rtc data) hbusy hm
  case flush =>
    have hother : asksSet row_LF_CTL.reg (putBits data 0 1 1) = false := asksSet_other _ (by decide)
    exact storeReg_crosses (row := row_LF_CTL) (j := 0) mapped_lfCtl (by decide) rfl hb
      (by rw [hother]; rfl) (fun d => enterAon_other _ _ d hother)
  case arrival =>
    intro q x row j hx hreg t
    have hexec : exec (.aonRegisterWriteArrival q) s = .next (t.onDev fun d => aonRegWrite d row j x.val) :=
      congrArg Host.Outcome.next (aonArrive_found hx hreg)
    refine ⟨hexec, fun hdb hl hr => hexec.trans ?_⟩
    exact congrArg Host.Outcome.next (congrArg (fun e => { t with dev := e }) (aonRegWrite_stored hdb hl hr))

end Sys2Proof.Machine
end

section
/-! PROOF. What a read-modify-write of one field gives a register: the field takes its value and the other fields stay (R10 to
R12). -/

namespace Sys2Proof.Machine

/-! ### The word written -/

/-- A field that a read-modify-write clears in the word it read, so that it acts on nothing there: the write-only ones and
those in which a 1 acts. -/
def clearedField (F : Fld) : Bool := F.acc == .wo || F.acc == .w1c || F.acc == .w1s

/-- One round of `present`. -/
def clearField (w : Word) (F : Fld) : Word := if clearedField F then putBits w F.lo F.n 0 else w

theorem present_eq_foldl {row : RegRow} {j : Nat} (d : Dev) (hmap : Mapped row j) :
    present d row.reg j = row.fields.foldl clearField (d.r row.reg j) := by
  obtain ⟨-, -, hat⟩ := hmap
  simp only [present, hat]
  rfl

/-- A bit outside every cleared field is as it was read. -/
theorem getLsbD_foldl_clearField_kept (w : Word) (fs : List Fld) (i : Nat) (hi : i < 32)
    (hfs : ∀ F ∈ fs, clearedField F = true → ¬(F.lo ≤ i ∧ i < F.lo + F.n)) :
    (fs.foldl clearField w).getLsbD i = w.getLsbD i := by
  induction fs generalizing w with
  | nil => rfl
  | cons F fs ih =>
    rw [List.foldl_cons, ih _ fun G hG => hfs G (List.mem_cons_of_mem F hG), clearField]
    split
    case isTrue hF => rw [getLsbD_putBits _ _ _ _ _ hi, if_neg (hfs F List.mem_cons_self hF)]
    case isFalse => rfl

/-- A bit of a cleared field is 0. -/
theorem getLsbD_foldl_clearField_cleared (w : Word) (fs : List Fld) (i : Nat) (hi : i < 32) {F : Fld} (hF : F ∈ fs)
    (hc : clearedField F = true) (hin : F.lo ≤ i ∧ i < F.lo + F.n) : (fs.foldl clearField w).getLsbD i = false := by
  have hzero (x : Word) (hx : x.getLsbD i = false) (gs : List Fld) : (gs.foldl clearField x).getLsbD i = false := by
    induction gs generalizing x with
    | nil => exact hx
    | cons G gs ih =>
      refine ih _ ?_
      unfold clearField
      split
      · rw [getLsbD_putBits _ _ _ _ _ hi]; split <;> simp [hx]
      · exact hx
  obtain ⟨before, after, rfl⟩ := List.append_of_mem hF
  rw [List.foldl_append, List.foldl_cons]
  refine hzero _ ?_ after
  rw [clearField, if_pos hc, getLsbD_putBits _ _ _ _ _ hi, if_pos hin]
  simp

section FieldWrite
variable {row : RegRow} {j : Nat} {F G : Fld} (d : Dev) (v : Int)

/-- Two different fields of one row share no bit. -/
theorem FieldsApart.apart (hrow : FieldsApart row) (hF : F ∈ row.fields) (hG : G ∈ row.fields) (hFG : F ≠ G) :
    Fld.apart F G := by
  have hsymm : Std.Symm Fld.apart := ⟨fun _ _ => Or.symm⟩
  exact hrow.2.forall hF hG hFG

/-- What a read-modify-write writes to a field that it leaves alone: what it read, or 0 where a 1 would act. -/
theorem valOf_present (hrow : FieldsApart row) (hmap : Mapped row j) (hG : G ∈ row.fields) :
    valOf (present d row.reg j) G = if clearedField G then 0 else d.f G j := by
  obtain ⟨hreg, h32⟩ := hrow.1 G hG
  rw [present_eq_foldl d hmap, valOf, Dev.f, hreg]
  split
  case isTrue hc =>
    apply Nat.eq_of_testBit_eq
    intro i
    rw [testBit_bitsOf, Nat.zero_testBit]
    by_cases hi : i < G.n
    · rw [getLsbD_foldl_clearField_cleared _ _ _ (by omega) hG hc (by omega), Bool.and_false]
    · simp [hi]
  case isFalse hc =>
    refine bitsOf_eq _ _ _ _ fun i h1 h2 => getLsbD_foldl_clearField_kept _ _ i (by omega) fun F hF hcF hin => ?_
    have hapart : F.lo + F.n ≤ G.lo ∨ G.lo + G.n ≤ F.lo := hrow.apart hF hG fun h => hc (h ▸ hcF)
    omega

theorem valOf_fieldWord_same (hrow : FieldsApart row) (hF : F ∈ row.fields) :
    valOf (fieldWord d F j v) F = (v % (2 ^ F.n : Int)).toNat :=
  bitsOf_putBits_same _ _ _ _ (hrow.1 F hF).2

theorem valOf_fieldWord_beside (hrow : FieldsApart row) (hmap : Mapped row j) (hF : F ∈ row.fields) (hG : G ∈ row.fields)
    (hFG : F ≠ G) : valOf (fieldWord d F j v) G = if clearedField G then 0 else d.f G j := by
  rw [← valOf_present d hrow hmap hG, fieldWord, (hrow.1 F hF).1]
  exact bitsOf_putBits_other _ _ _ _ _ _ (hrow.apart hF hG hFG) (hrow.1 G hG).2

/-! ### The word the register takes -/

/-- A write that gives a field what it holds, or 0 where a 1 would act, leaves it as it is. -/
theorem takenValue_kept {w : Word} (hval : valOf w G = if clearedField G then 0 else d.f G j) :
    takenValue d row j w G (d.f G j) = d.f G j := by
  have hlt : d.f G j < 2 ^ G.n := bitsOf_lt ..
  have hones : d.f G j &&& ((2 ^ G.n - 1) ||| bitsOf (d.setNow (row.reg.addr j)) G.lo G.n) = d.f G j := by
    apply Nat.eq_of_testBit_eq
    intro i
    rw [Nat.testBit_and, Nat.testBit_or, Nat.testBit_two_pow_sub_one]
    by_cases hi : i < G.n
    · simp [hi]
    · rw [Nat.testBit_lt_two_pow (hlt.trans_le (Nat.pow_le_pow_right (by decide) (by omega)))]; rfl
  unfold takenValue
  cases hacc : G.acc <;> simp [clearedField, hacc] at hval <;> simp [hval, hones]

/-- A read-modify-write of one field changes that field alone. -/
theorem newWord_fieldWord (hrow : FieldsApart row) (hmap : Mapped row j) (hF : F ∈ row.fields) :
    newWord d row j (fieldWord d F j v)
      = putBits (d.r row.reg j) F.lo F.n (takenValue d row j (fieldWord d F j v) F (d.f F j)) := by
  have hF32 := (hrow.1 F hF).2
  have hfield (G : Fld) (hG : G ∈ row.fields) (i : Nat) (hi : i < G.n) :
      (newWord d row j (fieldWord d F j v)).getLsbD (G.lo + i)
        = (takenValue d row j (fieldWord d F j v) G (d.f G j)).testBit i := by
    rw [← bitsOf_newWord hrow d j _ hG, testBit_bitsOf]; simp [hi]
  refine BitVec.eq_of_getLsbD_eq fun i hi => ?_
  rw [getLsbD_putBits _ _ _ _ _ hi]
  split
  case isTrue hin =>
    have hshift : F.lo + (i - F.lo) = i := by omega
    have hbit := hfield F hF (i - F.lo) (by omega)
    rw [hshift] at hbit
    rw [hbit, BitVec.ofInt_natCast, BitVec.getLsbD_ofNat]
    simp [show i - F.lo < 32 by omega]
  case isFalse hout =>
    by_cases hother : ∃ G ∈ row.fields, G.lo ≤ i ∧ i < G.lo + G.n
    · obtain ⟨G, hG, hGin⟩ := hother
      have hFG : F ≠ G := fun h => hout (h ▸ hGin)
      have hshift : G.lo + (i - G.lo) = i := by omega
      have hbit := hfield G hG (i - G.lo) (by omega)
      rw [takenValue_kept d (valOf_fieldWord_beside d v hrow hmap hF hG hFG), Dev.f, testBit_bitsOf, hshift,
        (hrow.1 G hG).1] at hbit
      rw [hbit]; simp [show i - G.lo < G.n by omega]
    · exact getLsbD_newWord_outside d row j _ i hi fun G hG hGin => hother ⟨G, hG, hGin⟩

end FieldWrite

end Sys2Proof.Machine
end

section
/-! PROOF. Writes to the registers of rails and phases that start something (R75, R82, R83, R105, R115, R118, R133, R134, R210,
R714). -/

namespace Sys2Proof.Machine

/-! ### A write that a block carries out -/

/-- A register that no trail owns and that neither the crossings into AON nor the grove path leads to: a store to it is its
block's action at once. -/
@[reducible] def Direct (row : RegRow) (j : Nat) : Prop :=
  row.reg.own ≠ .trail ∧ aonQueueOf (row.reg.addr j) = none ∧ row.reg.db ≠ .grove

/-- A command that stores a word to such a register is a write of it that changes the device by `g`, where the register's block
changes it so. -/
theorem writes_of_block {i : Instr} {s : State} {who : Initiator} {row : RegRow} {j : Nat} {w : Word} {g : Dev → Dev}
    {b : Dev → Word → Dev} (hreg : Mapped row j ∧ Direct row j) (hexec : exec i s = storeReg s who row.reg j w)
    (hblock : ∀ x, blockWrite s who row.reg j w x = s.onDev fun d => b d x)
    (hdev : Accepted s who row j w → b s.dev (newWord s.dev row j w) = g s.dev) : Writes i s who row j w g := by
  intro hacc
  obtain ⟨⟨hr, h4, ha⟩, htrail, hq, hdb⟩ := hreg
  obtain ⟨h1, h2, h3⟩ := not_trailReg htrail
  rw [hexec, storeReg_accepted hacc hr h4 ha h1 h2 h3 hq hdb, hblock, acked, State.onDev, State.onDev, hdev hacc]

/-- A field of a register that has taken a word. -/
theorem f_took {row : RegRow} (hrow : FieldsApart row) (d : Dev) (j : Nat) (w : Word) {F : Fld} (hF : F ∈ row.fields) :
    (took d row j w).f F j = takenValue d row j w F (d.f F j) := by
  rw [took, Dev.f, (hrow.1 F hF).1, Dev.r_setR_same, bitsOf_newWord hrow d j w hF]

theorem takenValue_rw {d : Dev} {row : RegRow} {j : Nat} {w : Word} {F : Fld} {old : Nat} (h : F.acc = .rw) :
    takenValue d row j w F old = valOf w F := by
  simp only [takenValue, h]

theorem takenValue_w1c {d : Dev} {row : RegRow} {j : Nat} {w : Word} {F : Fld} {old : Nat} (h : F.acc = .w1c) :
    takenValue d row j w F old
      = old &&& ((2 ^ F.n - 1 - valOf w F) ||| bitsOf (d.setNow (row.reg.addr j)) F.lo F.n) := by
  simp only [takenValue, h]

/-! ### What the fast loop's and the phases' registers do -/

theorem flWrite_steer (d : Dev) (k : Nat) (w x : Word) : flWrite d FL_STEER k w x = d.setR FL_STEER k x := rfl

theorem flWrite_cmt (d : Dev) (k : Nat) (w x : Word) :
    flWrite d FL_CMT k w x =
      (let e := d.setR FL_CMT k x
       let e := if falls d FL_CMT_HOLD k x then releaseHold e k else e
       if valOf w FL_CMT_CLRCNT != 0 then e.setR FL_COUNT k 0 else e) := rfl

theorem phWrite_ctl (d : Dev) (n : Nat) (w x : Word) :
    phWrite d PH_CTL n w x =
      (let d := if valOf w PH_CTL_AZ != 0 then azStart d n else d
       let d := if valOf w PH_CTL_CLR_FAIL != 0 then clrFail d n else d
       if valOf w PH_CTL_CLRCNT != 0 then d.setR PH_COUNT n 0 else d) := rfl

theorem phWrite_sbCfg (d : Dev) (m : Nat) (w x : Word) :
    phWrite d PH_SB_CFG m w x =
      if rises d PH_SB_CFG_EN m x then rollStart (d.setR PH_SB_CFG m x) m true else d.setR PH_SB_CFG m x := rfl

theorem phWrite_sbRoll (d : Dev) (m : Nat) (w x : Word) :
    phWrite d PH_SB_ROLL m w x = if valOf w PH_SB_ROLL_START != 0 then rollStart d m false else d := rfl

theorem phWrite_mapCtl (d : Dev) (w x : Word) :
    phWrite d PH_MAP_CTL 0 w x =
      if (valOf w PH_MAP_CTL_GO != 0 || valOf w PH_MAP_CTL_ALL != 0) && d.on PH_MAP_CTL_BUSY then d.set1 PH_SB_CAUSE_ACC_ERR 0
      else if valOf w PH_MAP_CTL_GO != 0 then toneGo (d.setR PH_MAP_CTL 0 x)
      else if valOf w PH_MAP_CTL_ALL != 0 then toneAll (d.setR PH_MAP_CTL 0 x)
      else d.setR PH_MAP_CTL 0 x := rfl

theorem phWrite_saccCmd (d : Dev) (w x : Word) :
    phWrite d PH_SACC_CMD 0 w x =
      if valOf w PH_SACC_CMD_GO != 0 && d.on PH_SACC_CMD_BUSY then d.set1 PH_SB_CAUSE_ACC_ERR 0
      else if valOf w PH_SACC_CMD_GO != 0 then saccGo (d.setR PH_SACC_CMD 0 x)
      else d.setR PH_SACC_CMD 0 x := rfl

theorem reg_steer : ∀ k : Rail, Mapped row_FL_STEER k ∧ Direct row_FL_STEER k := by decide +kernel
theorem reg_cmt : ∀ k : Rail, Mapped row_FL_CMT k ∧ Direct row_FL_CMT k := by decide +kernel
theorem reg_phCtl : ∀ n : Phase, Mapped row_PH_CTL n ∧ Direct row_PH_CTL n := by decide +kernel
theorem reg_mapCtl : Mapped row_PH_MAP_CTL 0 ∧ Direct row_PH_MAP_CTL 0 := by decide +kernel
theorem reg_saccCmd : Mapped row_PH_SACC_CMD 0 ∧ Direct row_PH_SACC_CMD 0 := by decide +kernel
theorem reg_sbRoll : ∀ m : Fin 4, Mapped row_PH_SB_ROLL m ∧ Direct row_PH_SB_ROLL m := by decide +kernel
theorem reg_sbCfg : ∀ m : Fin 4, Mapped row_PH_SB_CFG m ∧ Direct row_PH_SB_CFG m := by decide +kernel

/-! ### Rails -/

/-- STALE is written 1: it is cleared but for a set of this cycle, and nothing else of FL_STEER changes (R12, R82). -/
theorem newWord_staleClear (d : Dev) (k : Rail) :
    newWord d row_FL_STEER k (fieldWord d FL_STEER_STALE k 1) = putBits (d.r FL_STEER k) 16 1
      (d.f FL_STEER_STALE k &&& bitsOf (d.setNow (FL_STEER.addr k)) FL_STEER_STALE.lo 1 : Nat) := by
  have hrow : FieldsApart row_FL_STEER := by decide
  have hval : valOf (fieldWord d FL_STEER_STALE k 1) FL_STEER_STALE = 1 := valOf_fieldWord_same d 1 hrow (by decide)
  have hnone (x : Nat) : (2 ^ FL_STEER_STALE.n - 1 - 1) ||| x = x := Nat.zero_or x
  rw [newWord_fieldWord d 1 hrow (reg_steer k).1 (by decide), takenValue_w1c rfl, hval, hnone]
  rfl

theorem staleClear_writes (s : State) (who : Initiator) (k : Rail) :
    Writes (.staleClear who k) s who row_FL_STEER k (fieldWord s.dev FL_STEER_STALE k 1) fun d =>
      d.setF FL_STEER_STALE k (d.f FL_STEER_STALE k &&& bitsOf (d.setNow (FL_STEER.addr k)) FL_STEER_STALE.lo 1 : Nat) :=
  writes_of_block (b := fun d x => flWrite d FL_STEER k _ x) (reg_steer k) rfl (fun _ => rfl) fun _ =>
    (flWrite_steer ..).trans (congrArg (s.dev.setR FL_STEER k) (newWord_staleClear s.dev k))

/-- HOLD is written 0, and nothing else of FL_CMT changes (R75). -/
theorem newWord_holdRelease (d : Dev) (k : Rail) :
    newWord d row_FL_CMT k (fieldWord d FL_CMT_HOLD k 0) = putBits (d.r FL_CMT k) 0 1 0 := by
  have hrow : FieldsApart row_FL_CMT := by decide
  have hval : valOf (fieldWord d FL_CMT_HOLD k 0) FL_CMT_HOLD = 0 := valOf_fieldWord_same d 0 hrow (by decide)
  rw [newWord_fieldWord d 0 hrow (reg_cmt k).1 (by decide), takenValue_rw rfl, hval]
  rfl

theorem flCmtHoldRelease_writes (s : State) (who : Initiator) (k : Rail) :
    Writes (.flCmtHoldRelease who k) s who row_FL_CMT k (fieldWord s.dev FL_CMT_HOLD k 0) fun d =>
      if d.on FL_CMT_HOLD k then releaseHold (d.setF FL_CMT_HOLD k 0) k else d.setF FL_CMT_HOLD k 0 := by
  refine writes_of_block (b := fun d x => flWrite d FL_CMT k _ x) (reg_cmt k) rfl (fun _ => rfl) fun _ => ?_
  have hrow : FieldsApart row_FL_CMT := by decide
  have hcnt : valOf (fieldWord s.dev FL_CMT_HOLD k 0) FL_CMT_CLRCNT = 0 :=
    valOf_fieldWord_beside s.dev 0 hrow (reg_cmt k).1 (by decide) (by decide) (by decide)
  have hfalls : falls s.dev FL_CMT_HOLD k (putBits (s.dev.r FL_CMT k) 0 1 0) = s.dev.on FL_CMT_HOLD k := by
    have hzero : valOf (putBits (s.dev.r FL_CMT k) 0 1 0) FL_CMT_HOLD = 0 := bitsOf_putBits_same _ 0 1 0 (by decide)
    rw [falls, hzero]; exact Bool.and_true _
  rw [newWord_holdRelease, flWrite_cmt, hfalls, hcnt]
  rfl

theorem flCmtClrcnt_writes (s : State) (who : Initiator) (k : Rail) :
    Writes (.flCmtClrcnt who k) s who row_FL_CMT k (fieldWord s.dev FL_CMT_CLRCNT k 1) fun d =>
      (took d row_FL_CMT k (fieldWord d FL_CMT_CLRCNT k 1)).setR FL_COUNT k 0 := by
  refine writes_of_block (b := fun d x => flWrite d FL_CMT k _ x) (reg_cmt k) rfl (fun _ => rfl) fun _ => ?_
  have hrow : FieldsApart row_FL_CMT := by decide
  have hcnt : valOf (fieldWord s.dev FL_CMT_CLRCNT k 1) FL_CMT_CLRCNT = 1 := valOf_fieldWord_same s.dev 1 hrow (by decide)
  have hbeside : valOf (fieldWord s.dev FL_CMT_CLRCNT k 1) FL_CMT_HOLD = s.dev.f FL_CMT_HOLD k :=
    valOf_fieldWord_beside s.dev 1 hrow (reg_cmt k).1 (by decide) (by decide) (by decide)
  have hkept : valOf (newWord s.dev row_FL_CMT k (fieldWord s.dev FL_CMT_CLRCNT k 1)) FL_CMT_HOLD = s.dev.f FL_CMT_HOLD k :=
    (bitsOf_newWord hrow s.dev k _ (by decide)).trans ((takenValue_rw rfl).trans hbeside)
  have hfalls : falls s.dev FL_CMT_HOLD k (newWord s.dev row_FL_CMT k (fieldWord s.dev FL_CMT_CLRCNT k 1)) = false := by
    simp [falls, hkept, Dev.on]
  rw [flWrite_cmt, hfalls, hcnt]
  rfl

/-! ### Phases -/

/-- A command bit of PH_CTL is written alone. -/
theorem valOf_phCtl (d : Dev) (n : Phase) {F G : Fld} (hF : F ∈ row_PH_CTL.fields) (hG : G ∈ row_PH_CTL.fields) :
    valOf (fieldWord d F n 1) G = if F = G then 1 else 0 := by
  have hrow : FieldsApart row_PH_CTL := by decide
  have hcommand : ∀ H ∈ row_PH_CTL.fields, clearedField H = true ∧ H.n = 1 := by decide
  split
  case isTrue hFG =>
    subst hFG
    rw [valOf_fieldWord_same d 1 hrow hF, (hcommand F hF).2]; rfl
  case isFalse hFG => rw [valOf_fieldWord_beside d 1 hrow (reg_phCtl n).1 hF hG hFG, if_pos (hcommand G hG).1]

/-- What the block does with a command bit of PH_CTL: auto-zero (R105), the end of FAILED (R115, R210) or the clear of the counts
(R134). -/
def phCommand (F : Fld) (d : Dev) (n : Nat) : Dev :=
  if F = PH_CTL_AZ then azStart d n else if F = PH_CTL_CLR_FAIL then clrFail d n else d.setR PH_COUNT n 0

/-- A command that writes a bit of PH_CTL alone does what the bit commands. -/
theorem phCtl_writes {i : Instr} {s : State} {who : Initiator} {n : Phase} {F : Fld} (hF : F ∈ row_PH_CTL.fields)
    (hexec : exec i s = storeReg s who PH_CTL n (fieldWord s.dev F n 1)) :
    Writes i s who row_PH_CTL n (fieldWord s.dev F n 1) fun d => phCommand F d n := by
  refine writes_of_block (b := fun d x => phWrite d PH_CTL n _ x) (reg_phCtl n) hexec (fun _ => rfl) fun _ => ?_
  rw [phWrite_ctl, valOf_phCtl _ _ hF (by decide), valOf_phCtl _ _ hF (by decide), valOf_phCtl _ _ hF (by decide)]
  have hcases : F = PH_CTL_AZ ∨ F = PH_CTL_CLR_FAIL ∨ F = PH_CTL_CLRCNT := by simpa [row_PH_CTL] using hF
  rcases hcases with rfl | rfl | rfl
  · rfl
  · rfl
  · rfl

theorem azStart_writes (s : State) (who : Initiator) (n : Phase) :
    Writes (.azStart who n) s who row_PH_CTL n (fieldWord s.dev PH_CTL_AZ n 1) fun d => azStart d n :=
  phCtl_writes (by decide) rfl

theorem clrFail_writes (s : State) (who : Initiator) (n : Phase) :
    Writes (.clrFail who n) s who row_PH_CTL n (fieldWord s.dev PH_CTL_CLR_FAIL n 1) fun d => clrFail d n :=
  phCtl_writes (by decide) rfl

theorem phClrcnt_writes (s : State) (who : Initiator) (n : Phase) :
    Writes (.phClrcnt who n) s who row_PH_CTL n (fieldWord s.dev PH_CTL_CLRCNT n 1) fun d => d.setR PH_COUNT n 0 :=
  phCtl_writes (by decide) rfl

/-! ### Stages, tones and buses -/

/-- What the write of TONE_MAP_GO starts, with phase n named: its tone, or the result that it is not IDLE (R714). -/
theorem toneGo_named {d : Dev} {n : Nat} (hn : d.f PH_MAP_CTL_PHASE = n) :
    toneGo d =
      (let e := d.setF PH_MAP_CTL_RESULT 0 0
       if phState e n = phIdle then toneStart e (2 ^ n) true
       else (e.setH .mapRound 0 ((e.h .mapRound 0 + 1) % 4)).setF PH_MAP_CTL_RESULT 0 4) := by
  subst hn; rfl

theorem toneMapGo_writes (s : State) (who : Initiator) (n : Phase) :
    let w := withF 0 [(PH_MAP_CTL_PHASE, n.val), (PH_MAP_CTL_GO, 1)]
    Writes (.toneMapGo who n) s who row_PH_MAP_CTL 0 w fun d =>
      if d.on PH_MAP_CTL_BUSY then d.set1 PH_SB_CAUSE_ACC_ERR else toneGo (took d row_PH_MAP_CTL 0 w) := by
  intro w
  refine writes_of_block (b := fun d x => phWrite d PH_MAP_CTL 0 w x) reg_mapCtl rfl (fun _ => rfl) fun _ => ?_
  have hgo : valOf w PH_MAP_CTL_GO = 1 := bitsOf_putBits_same _ 8 1 1 (by decide)
  rw [phWrite_mapCtl, hgo]
  rfl

/-- The phase that the write of TONE_MAP_GO names. -/
theorem f_took_mapGo (d : Dev) (n : Phase) :
    (took d row_PH_MAP_CTL 0 (withF 0 [(PH_MAP_CTL_PHASE, n.val), (PH_MAP_CTL_GO, 1)])).f PH_MAP_CTL_PHASE = n := by
  rw [f_took (by decide) d 0 _ (by decide), takenValue_rw rfl]
  have hbeside := bitsOf_putBits_other (putBits 0 0 6 n.val) 8 1 0 6 1 (by decide) (by decide)
  have hlt : ((n : Nat) : Int) < 2 ^ 6 := by omega
  refine hbeside.trans ((bitsOf_putBits_same 0 0 6 n.val (by decide)).trans ?_)
  rw [Int.emod_eq_of_lt (Int.natCast_nonneg _) hlt, Int.toNat_natCast]

theorem toneMapAll_writes (s : State) (who : Initiator) :
    let w := withF (s.dev.r PH_MAP_CTL) [(PH_MAP_CTL_ALL, 1)]
    Writes (.toneMapAll who) s who row_PH_MAP_CTL 0 w fun d =>
      if d.on PH_MAP_CTL_BUSY then d.set1 PH_SB_CAUSE_ACC_ERR else toneAll (took d row_PH_MAP_CTL 0 w) := by
  intro w
  refine writes_of_block (b := fun d x => phWrite d PH_MAP_CTL 0 w x) reg_mapCtl rfl (fun _ => rfl) fun hacc => ?_
  have hall : valOf w PH_MAP_CTL_ALL = 1 := bitsOf_putBits_same _ 9 1 1 (by decide)
  -- GO beside ALL would be a reserved encoding (R714), which is not accepted
  have hgo : valOf w PH_MAP_CTL_GO = 0 := by
    obtain ⟨-, -, -, -, -, hres⟩ := hacc
    have hbad : badWord s.dev PH_MAP_CTL 0 w = (valOf w PH_MAP_CTL_GO != 0 && valOf w PH_MAP_CTL_ALL != 0) := rfl
    have hnot := (Bool.or_eq_false_iff.1 hres).2
    simpa [row_PH_MAP_CTL, hbad, hall] using hnot
  rw [phWrite_mapCtl, hgo, hall]
  rfl

theorem stageAccessGo_writes (s : State) (who : Initiator) (n : Phase) (wr : Bool) (addr : BitVec 16) (len : Fin 8) :
    let w := withF 0 [(PH_SACC_CMD_PHASE, n.val), (PH_SACC_CMD_WR, b2i wr), (PH_SACC_CMD_ADDR, addr.toNat),
                      (PH_SACC_CMD_LEN, len.val), (PH_SACC_CMD_GO, 1)]
    Writes (.stageAccessGo who n wr addr len) s who row_PH_SACC_CMD 0 w fun d =>
      if d.on PH_SACC_CMD_BUSY then d.set1 PH_SB_CAUSE_ACC_ERR else saccGo (took d row_PH_SACC_CMD 0 w) := by
  intro w
  refine writes_of_block (b := fun d x => phWrite d PH_SACC_CMD 0 w x) reg_saccCmd rfl (fun _ => rfl) fun _ => ?_
  have hgo : valOf w PH_SACC_CMD_GO = 1 := bitsOf_putBits_same _ 28 1 1 (by decide)
  rw [phWrite_saccCmd, hgo]
  rfl

theorem rollCallStart_writes (s : State) (who : Initiator) (m : Fin 4) :
    Writes (.rollCallStart who m) s who row_PH_SB_ROLL m (fieldWord s.dev PH_SB_ROLL_START m 1)
      fun d => rollStart d m false := by
  refine writes_of_block (b := fun d x => phWrite d PH_SB_ROLL m _ x) (reg_sbRoll m) rfl (fun _ => rfl) fun _ => ?_
  have hstart : valOf (fieldWord s.dev PH_SB_ROLL_START m 1) PH_SB_ROLL_START = 1 :=
    valOf_fieldWord_same (row := row_PH_SB_ROLL) s.dev 1 (by decide) (by decide)
  rw [phWrite_sbRoll, hstart]
  rfl

theorem busEnable_writes (s : State) (who : Initiator) (m : Fin 4) :
    Writes (.busEnable who m) s who row_PH_SB_CFG m (fieldWord s.dev PH_SB_CFG_EN m 1) fun d =>
      let e := took d row_PH_SB_CFG m (fieldWord d PH_SB_CFG_EN m 1)
      if d.on PH_SB_CFG_EN m then e else rollStart e m true := by
  refine writes_of_block (b := fun d x => phWrite d PH_SB_CFG m _ x) (reg_sbCfg m) rfl (fun _ => rfl) fun _ => ?_
  have hrow : FieldsApart row_PH_SB_CFG := by decide
  have hen : valOf (newWord s.dev row_PH_SB_CFG m (fieldWord s.dev PH_SB_CFG_EN m 1)) PH_SB_CFG_EN = 1 :=
    (bitsOf_newWord hrow s.dev m _ (by decide)).trans
      ((takenValue_rw rfl).trans (valOf_fieldWord_same s.dev 1 hrow (by decide)))
  rw [phWrite_sbCfg, rises, hen]
  cases s.dev.on PH_SB_CFG_EN m <;> rfl

/-- Settles O23: each command is a store to one register, and each clause is what the register's block does with the word. -/
theorem loopAndPhaseWrites : Obligations.LoopAndPhaseWrites := by
  unfold Obligations.LoopAndPhaseWrites
  intro s who
  refine ⟨fun k => ⟨staleClear_writes s who k, flCmtHoldRelease_writes s who k, flCmtClrcnt_writes s who k⟩,
    fun n => ⟨?azStart, clrFail_writes s who n, phClrcnt_writes s who n, ?toneMapGo, stageAccessGo_writes s who n⟩,
    toneMapAll_writes s who, fun m => ⟨rollCallStart_writes s who m, busEnable_writes s who m⟩⟩
  case azStart => simpa only [azStart, Bool.and_eq_true, decide_eq_true_eq, Bool.not_eq_true'] using azStart_writes s who n
  case toneMapGo => simpa only [toneGo_named (f_took_mapGo ..)] using toneMapGo_writes s who n

end Sys2Proof.Machine
end

section
/-! PROOF. What the operations of a commit leave of the pending software writes: none of them adds to that list or takes from
it but the commit itself (R23, R75, R77). -/

namespace Sys2Proof.Machine

/-! ### Loops and events -/

theorem Dev.eachIn_pendSw {α : Type} {g : Dev → α → Dev} (l : List α) (d : Dev) (hg : ∀ e a, (g e a).pendSw = e.pendSw) :
    (d.eachIn l g).pendSw = d.pendSw :=
  Dev.eachIn_keep (P := fun e => e.pendSw = d.pendSw) l d rfl fun e a he => (hg e a).trans he

theorem Dev.each_pendSw {g : Dev → Nat → Dev} (n : Nat) (d : Dev) (hg : ∀ e i, (g e i).pendSw = e.pendSw) :
    (d.each n g).pendSw = d.pendSw :=
  Dev.each_keep (P := fun e => e.pendSw = d.pendSw) n d rfl fun e i he => (hg e i).trans he

@[simp] theorem Dev.incSat_pendSw (d : Dev) (F : Fld) (i : Nat) : (d.incSat F i).pendSw = d.pendSw := by
  rcases d.incSat_eq F i with e | e <;> rw [e]; rfl

@[simp] theorem Dev.raise_pendSw (d : Dev) (src : Nat) : (d.raise src).pendSw = d.pendSw := by
  rcases d.raise_eq src with e | e <;> rw [e]
  · rw [Dev.incSat_pendSw, Dev.set1_pendSw]

@[simp] theorem Dev.raiseRail_pendSw (d : Dev) (k kind : Nat) : (d.raiseRail k kind).pendSw = d.pendSw := d.raise_pendSw _

/-! ### Phases -/

@[simp] theorem setPwm_pendSw (d : Dev) (n v tap : Nat) : (setPwm d n v tap).pendSw = d.pendSw := by
  simp [setPwm, apply_ite Dev.pendSw]

@[simp] theorem phEnterSwitching_pendSw (d : Dev) (n : Nat) : (phEnterSwitching d n).pendSw = d.pendSw := by
  unfold phEnterSwitching
  simp only [Dev.setF_pendSw, Dev.setH_pendSw]
  exact Dev.eachIn_pendSw _ _ fun _ _ => rfl

@[simp] theorem phSet_pendSw (d : Dev) (n st : Nat) : (phSet d n st).pendSw = d.pendSw := by
  simp [phSet, apply_ite Dev.pendSw]

@[simp] theorem phStart_pendSw (d : Dev) (n : Nat) : (phStart d n).pendSw = d.pendSw := by
  unfold phStart
  split
  · exact phSet_pendSw ..
  · rfl

@[simp] theorem hotAttach_pendSw (d : Dev) (k : Nat) : (hotAttach d k).pendSw = d.pendSw := by
  unfold hotAttach
  split
  · exact Dev.eachIn_pendSw _ _ phStart_pendSw
  · rfl

/-! ### Grants and capacity -/

theorem regrant_pendSw (d : Dev) (i : Intent) (g : Int) (noStore : Bool) : (regrant d i g noStore).pendSw = d.pendSw := rfl

theorem sendFrame_pendSw (d : Dev) (L typ : Nat) (pay : List (Nat × Nat × Int)) :
    (sendFrame d L typ pay).pendSw = d.pendSw := by
  unfold sendFrame
  split
  · rfl
  · rfl

theorem sendCap_pendSw (d : Dev) (k L id : Nat) (g cap : Int) (reason : Nat) (thr : Bool) :
    (sendCap d k L id g cap reason thr).pendSw = d.pendSw := sendFrame_pendSw ..

theorem recap_pendSw (d : Dev) (i : Intent) (reason : Nat) : (recap d i reason).pendSw = d.pendSw := by
  unfold recap
  split
  · rfl
  · simp only
    split
    · exact sendCap_pendSw ..
    · rfl

theorem showOut_pendSw (d : Dev) (k : Nat) : (showOut d k).pendSw = d.pendSw :=
  (Dev.each_pendSw 4 _ fun _ _ => rfl).trans rfl

theorem grantRevise_pendSw (d : Dev) (k : Nat) : (grantRevise d k).pendSw = d.pendSw := by
  unfold grantRevise
  simp only
  split
  · rfl
  · rw [showOut_pendSw, Dev.set1_pendSw, Dev.eachIn_pendSw _ _ fun e i => recap_pendSw e i 2]
    exact Dev.eachIn_pendSw _ _ fun e i => regrant_pendSw ..

@[simp] theorem settleCap_pendSw (d : Dev) (k : Nat) : (settleCap d k).pendSw = d.pendSw := by
  simp [settleCap, apply_ite Dev.pendSw, grantRevise_pendSw]

/-! ### The period -/

@[simp] theorem setPer_pendSw (d : Dev) (k hNew : Nat) : (setPer d k hNew).pendSw = d.pendSw := rfl

@[simp] theorem rescale_pendSw (d : Dev) (k : Nat) (h0 h1 : Int) : (rescale d k h0 h1).pendSw = d.pendSw := by
  unfold rescale
  split
  · rfl
  · refine (Dev.eachIn_pendSw _ _ fun e n => ?_).trans rfl
    split
    · rfl
    · rfl

@[simp] theorem idlePer_pendSw (d : Dev) (k : Nat) : (idlePer d k).pendSw = d.pendSw := by
  unfold idlePer
  split
  · split
    · simp
    · simp
  · rfl

/-! ### The commit -/

@[simp] theorem applyDb_foldl_pendSw (l : List DbWrite) (d : Dev) : (l.foldl applyDb d).pendSw = d.pendSw :=
  Dev.eachIn_pendSw l d fun _ _ => rfl

@[simp] theorem shiftComp_pendSw (d : Dev) (k g g' : Nat) : (shiftComp d k g g').pendSw = d.pendSw := by
  simp [shiftComp, apply_ite Dev.pendSw]

@[simp] theorem rampDoneEv_pendSw (d : Dev) (k : Nat) : (rampDoneEv d k).pendSw = d.pendSw := d.raiseRail_pendSw k 1

@[simp] theorem setRef_pendSw (d : Dev) (k : Nat) (x : Int) : (setRef d k x).pendSw = d.pendSw := rfl

@[simp] theorem unfreeze_pendSw (d : Dev) (k : Nat) (idle : Bool) : (unfreeze d k idle).pendSw = d.pendSw := by
  simp [unfreeze, apply_ite Dev.pendSw]

/-- A commit takes the writes that are due out of the list, and leaves the others there. -/
theorem applyPending_pendSw (d : Dev) (k upTo : Nat) :
    (applyPending d k upTo).pendSw = d.pendSw.filter fun e => !dueAt k upTo e := by
  have hclamp (e : Dev) (c : Dev → Nat → Bool) :
      ((List.range 64).foldl (fun d n => if c d n then d.set1 PH_CAUSE_CLAMP n else d) e).pendSw = e.pendSw :=
    Dev.eachIn_pendSw (List.range 64) e fun _ _ => by split <;> rfl
  simp [applyPending, apply_ite Dev.pendSw, hclamp]

theorem commitIdle_pendSw (d : Dev) (k : Nat) :
    (commitIdle d k).pendSw = d.pendSw.filter fun e => !dueAt k (d.now + 1) e := by
  unfold commitIdle
  simp only
  split
  · simp [applyPending_pendSw]
  · exact applyPending_pendSw ..

end Sys2Proof.Machine
end

section
/-! PROOF. The fast loop's own events, each in a state that calls for it (R43, R46, R62, R63, R68, R72, R74, R79). -/

namespace Sys2Proof.Machine

/-! ### Events with a guard -/

/-- An event whose guard holds does what stands behind the guard. -/
theorem acts_of_when {i : Instr} {s : State} {c : Dev → Bool} {g : Dev → Dev} {P : Dev → Prop}
    (hexec : exec i s = s.ok fun d => d.when (c d) g) (hc : c s.dev = true) (hP : P (g s.dev)) : Acts i s P :=
  ⟨g s.dev, by rw [hexec, State.ok, State.onDev, Dev.when, if_pos hc], hP⟩

theorem makes_of_when {i : Instr} {s : State} {c : Dev → Bool} {g : Dev → Dev}
    (hexec : exec i s = s.ok fun d => d.when (c d) g) (hc : c s.dev = true) : Makes i s g := by
  rw [Makes, hexec, State.ok, State.onDev, State.onDev, Dev.when, if_pos hc]

/-- A cause set at one address leaves a field at another. -/
theorem on_set1_other (d : Dev) {F G : Fld} {i j : Nat} (h : F.reg.addr i ≠ G.reg.addr j) : (d.set1 F i).on G j = d.on G j := by
  rw [Dev.on, Dev.f_set1, Dev.f_setF_other d 1 h, Dev.on]

/-! ### Entry to RESTORE (R62, R63, R68) -/

theorem startHoldoff_f (d : Dev) (k : Nat) (strike : Bool) (F : Fld) (i : Nat) : (startHoldoff d k strike).f F i = d.f F i := by
  unfold startHoldoff
  split <;> split <;> rfl

theorem startHoldoff_forceMask (d : Dev) (k : Nat) (strike : Bool) (i : Nat) :
    (startHoldoff d k strike).h .forceMask i = d.h .forceMask i := by
  have hstrike : (d.setH .strikeHoldoff k 1).h .forceMask i = d.h .forceMask i := Dev.h_setH_other d 1 (.inl (by decide))
  have hrelease : (d.setH .releaseHoldoff k 1).h .forceMask i = d.h .forceMask i := Dev.h_setH_other d 1 (.inl (by decide))
  unfold startHoldoff
  split <;> split <;> simp only [hstrike, hrelease]

/-- Beside the mode, the entry to RESTORE writes the angles of phases and no other register. -/
theorem f_enterRestore (d : Dev) (k : Nat) (strike : Bool) {G : Fld} {j : Nat}
    (hG : ∀ n, PH_ANGNOW.addr n ≠ G.reg.addr j) :
    (enterRestore d k strike).f G j = (d.setF FL_STATUS_MODE k flRestore).f G j := by
  unfold enterRestore
  simp only [startHoldoff_f, Dev.setH_f]
  split
  · refine Dev.eachIn_keep (P := fun e => e.f G j = (d.setF FL_STATUS_MODE k flRestore).f G j) _ _ rfl fun e n he => ?_
    rw [Dev.f_setF_other _ _ (hG n), Dev.setH_f]
    exact he
  · rfl

/-- The registers of phases lie above those of rails. -/
theorem addr_angnow_ne (k : Rail) (n : Nat) :
    PH_ANGNOW.addr n ≠ FL_STATUS.addr k ∧ PH_ANGNOW.addr n ≠ FL_CAUSE.addr k := by
  have hk := k.isLt
  simp only [Reg.addr, PH_ANGNOW, FL_STATUS, FL_CAUSE]
  omega

/-- Mode, causes and steering watchdog of a rail are three registers. -/
theorem flAddrs_apart : ∀ k : Rail,
    FL_STATUS.addr k ≠ FL_CAUSE.addr k ∧ FL_STATUS.addr k ≠ FL_STEER.addr k ∧ FL_CAUSE.addr k ≠ FL_STEER.addr k := by decide

theorem flMode_enterRestore (d : Dev) (k : Rail) (strike : Bool) : flMode (enterRestore d k strike) k = flRestore :=
  (f_enterRestore d k strike fun n => (addr_angnow_ne k n).1).trans (Dev.f_setF_same d FL_STATUS_MODE k flRestore (by decide))

/-- A cause of the rail that was set before stays set. -/
theorem on_enterRestore_cause (d : Dev) (k : Rail) (strike : Bool) {F : Fld} (hF : F.reg = FL_CAUSE) :
    (enterRestore d k strike).on F k = d.on F k := by
  have hne : FL_STATUS.addr k ≠ FL_CAUSE.addr k := (flAddrs_apart k).1
  rw [Dev.on, f_enterRestore d k strike (hF ▸ fun n => (addr_angnow_ne k n).2), Dev.f_setF_other _ _ (hF ▸ hne), Dev.on]

theorem forceMask_enterRestore (d : Dev) (k : Nat) (strike : Bool) : (enterRestore d k strike).h .forceMask k = 0 := by
  unfold enterRestore
  rw [startHoldoff_forceMask, Dev.h_setH_other _ _ (.inl (by decide)), Dev.h_setH_same]

/-- A strike or release that ends at its limit: the loop is in RESTORE, the cause F of the limit is set and no phase is forced. -/
theorem enterRestore_atLimit (d : Dev) (k : Rail) (strike : Bool) {F : Fld} (hF : F.reg = FL_CAUSE) (h32 : F.lo + F.n ≤ 32)
    (hn : 0 < F.n) :
    let e := enterRestore (d.set1 F k) k strike
    flMode e k = flRestore ∧ e.on F k = true ∧ e.h .forceMask k = 0 :=
  ⟨flMode_enterRestore .., (on_enterRestore_cause _ k strike hF).trans (Dev.on_set1 d F k h32 hn), forceMask_enterRestore ..⟩

/-! ### Freezing (R79, R80) -/

/-- Discarding a pending write touches neither list of pending writes. -/
theorem undoDb_foldl_pendGv (l : List DbWrite) (d : Dev) : (l.foldl undoDb d).pendGv = d.pendGv :=
  Dev.eachIn_keep (P := fun e => e.pendGv = d.pendGv) l d rfl fun _ _ he => he

theorem frozen_freeze (d : Dev) (k : Nat) : frozen (freeze d k) k = true := by
  simp only [freeze, frozen, Dev.setH_on]
  exact Dev.on_set1 _ FL_STATUS_FROZEN k (by decide) (by decide)

/-- A rail that freezes keeps no grove write pending. -/
theorem freeze_pendGv (d : Dev) (k : Nat) : (freeze d k).pendGv = d.pendGv.filter fun e => e.dom != k := by
  simp [freeze, apply_ite Dev.pendGv, undoDb_foldl_pendGv]

/-! ### The statement -/

theorem exec_commitPoint {s : State} {k : Rail} {n : Nat} (hlead : leadOf s.dev k = some n)
    (hvalley : (valleyDue s.dev n).isSome = true) (hcommit : s.dev.h .commitAt k ≠ s.dev.now + 1) :
    exec (.commitPoint k) s = .next (s.onDev fun d => commitPoint d k) := by
  have hexec : exec (.commitPoint k) s = execCommitPoint k s := rfl
  simp [hexec, execCommitPoint, State.ok, State.onDev, hlead, Dev.when, hvalley, hcommit]

/-- Settles O8: each event's guard is the state that calls for it, and its effect is what stands behind the guard. -/
theorem fastLoopEventsAct : Obligations.FastLoopEventsAct := by
  unfold Obligations.FastLoopEventsAct
  intro s k
  refine ⟨?ovrPersist, ?strikeLimit, ?releaseLimit, ?holdoff, ?restoreDone, ?staleFreeze, ?shadowApply, ?commitPoint, ?sample⟩
  case ovrPersist =>
    intro hlim hrun
    exact acts_of_when rfl (by simp [hlim, hrun]) rfl
  case strikeLimit =>
    intro hmode hlimit
    exact acts_of_when rfl (by simp [hmode, hlimit]) (enterRestore_atLimit _ k _ rfl (by decide) (by decide))
  case releaseLimit =>
    intro hmode hlimit
    exact acts_of_when rfl (by simp [hmode, hlimit]) (enterRestore_atLimit _ k _ rfl (by decide) (by decide))
  case holdoff =>
    exact fun strike => ⟨_, rfl, rfl⟩
  case restoreDone =>
    intro hmode hcnt
    exact makes_of_when rfl (by simp [hmode, hcnt])
  case staleFreeze =>
    intro hen hlim hage
    obtain ⟨hcause, hsteer, hapart⟩ := flAddrs_apart k
    refine acts_of_when rfl (by simp [hen, hlim, hage]) ⟨?_, ?_, Dev.on_set1 _ _ _ (by decide) (by decide), fun p hp => ?_⟩
    · rw [frozen, on_set1_other _ hcause.symm, on_set1_other _ hsteer.symm]
      exact frozen_freeze ..
    · rw [on_set1_other _ hapart, Dev.on_set1 _ _ _ (by decide) (by decide)]
    · rw [Dev.set1_pendGv, Dev.set1_pendGv, freeze_pendGv, List.mem_filter] at hp
      simpa using hp.2
  case shadowApply =>
    intro c hidle
    refine acts_of_when rfl (by simp [hidle]) fun p hp hdom => ?_
    rw [commitIdle_pendSw, List.mem_filter] at hp
    obtain ⟨-, hnotDue⟩ := hp
    simpa [dueAt, hdom] using hnotDue
  case commitPoint =>
    exact fun n hlead hvalley hcommit => ⟨_, exec_commitPoint hlead hvalley hcommit, rfl⟩
  case sample =>
    exact fun hon iin vs cs => acts_of_when rfl hon rfl

end Sys2Proof.Machine
end

section
/-! PROOF. The switching of a phase: valley, edges, current limits, auto-zero and arming, each in a state that calls for it
(R89, R92, R93, R105, R106, R115). -/

namespace Sys2Proof.Machine

/-! ### What a command makes of the device -/

/-- A command that changes the device by `g` leaves it in a state that P holds of, where P holds of what `g` makes. -/
theorem Makes.acts {i : Instr} {s : State} {g : Dev → Dev} {P : Dev → Prop} (h : Makes i s g) (hP : P (g s.dev)) :
    Acts i s P :=
  ⟨g s.dev, h, hP⟩

/-- What a command does, by what it comes to on the device it finds. -/
theorem Makes.congr {i : Instr} {s : State} {g g' : Dev → Dev} (h : Makes i s g) (heq : g s.dev = g' s.dev) :
    Makes i s g' := by
  rw [Makes, h, State.onDev, State.onDev, heq]

/-! ### Registers at other addresses -/

theorem Dev.f_set1_other (d : Dev) {F G : Fld} {i j : Nat} (h : F.reg.addr i ≠ G.reg.addr j) :
    (d.set1 F i).f G j = d.f G j := by
  rw [Dev.f_set1, Dev.f_setF_other d 1 h]

theorem Dev.on_setF_other (d : Dev) {F G : Fld} {i j : Nat} (v : Int) (h : F.reg.addr i ≠ G.reg.addr j) :
    (d.setF F i v).on G j = d.on G j := by
  rw [Dev.on, Dev.f_setF_other d v h, Dev.on]

/-- A field set to 0 is off. -/
theorem Dev.on_setF_zero (d : Dev) (F : Fld) (i : Nat) (h : F.lo + F.n ≤ 32) : (d.setF F i 0).on F i = false := by
  simp [Dev.on, Dev.f_setF_same d F i 0 h]

/-- The field just written reads, in two's complement, as the value reduced to the field's width (R2). -/
theorem Dev.fi_eq_bmod {d : Dev} {F : Fld} {i : Nat} {v : Int} (hf : d.f F i = (v % (2 ^ F.n : Int)).toNat) (hn : 0 < F.n) :
    d.fi F i = v.bmod (2 ^ F.n) := by
  obtain ⟨m, hm⟩ : ∃ m, F.n = m + 1 := ⟨F.n - 1, by omega⟩
  have hpos : (0 : Int) < 2 ^ F.n := by positivity
  have hhalf : (((2 ^ F.n : Nat) : Int) + 1) / 2 = 2 ^ (F.n - 1) := by
    rw [hm, Nat.add_sub_cancel]; push_cast; rw [pow_succ]; omega
  rw [Dev.fi, hf, Int.toNat_of_nonneg (Int.emod_nonneg v hpos.ne'), sext, Int.bmod, Int.emod_emod_of_dvd v dvd_rfl, hhalf]
  push_cast; rfl

/-- State, causes, counts and calibration of a phase, its firebreak causes and the counts of the trail fabric are registers
apart. -/
theorem phAddrs_apart : ∀ n : Phase,
    PH_COUNT.addr n ≠ PH_STATUS.addr n ∧ PH_CAUSE.addr n ≠ PH_STATUS.addr n ∧ PH_ISCAL.addr n ≠ PH_STATUS.addr n
    ∧ PH_ISCAL.addr n ≠ PH_CAUSE.addr n ∧ FB_PCAUSE.addr n ≠ PH_STATUS.addr n := by decide

/-- An event touches none of the registers of a phase, nor its firebreak causes. -/
theorem trAddrs_apart : ∀ n : Phase,
    (TR_CAUSE.addr 0 ≠ PH_STATUS.addr n ∧ TR_DROPCNT.addr 0 ≠ PH_STATUS.addr n)
    ∧ (TR_CAUSE.addr 0 ≠ FB_PCAUSE.addr n ∧ TR_DROPCNT.addr 0 ≠ FB_PCAUSE.addr n) := by decide

theorem f_raisePhase_status (d : Dev) (n : Phase) (kind : Nat) {G : Fld} (hG : G.reg = PH_STATUS) :
    (d.raisePhase n kind).f G n = d.f G n := by
  obtain ⟨⟨hcause, hcount⟩, -⟩ := trAddrs_apart n
  exact Dev.f_raise_other d _ (hG ▸ hcause) (hG ▸ hcount)

theorem on_raisePhase_fbCause (d : Dev) (n : Phase) (kind : Nat) {G : Fld} (hG : G.reg = FB_PCAUSE) :
    (d.raisePhase n kind).on G n = d.on G n := by
  obtain ⟨-, hcause, hcount⟩ := trAddrs_apart n
  rw [Dev.on, Dev.raisePhase, Dev.f_raise_other d _ (hG ▸ hcause) (hG ▸ hcount), Dev.on]

/-! ### The pins (R84, R90) -/

theorem f_setPwm_same (d : Dev) (n v tap : Nat) (hv : v < 4) : (setPwm d n v tap).f PH_STATUS_PWM n = v := by
  have hwidth : (2 : Int) ^ PH_STATUS_PWM.n = 4 := rfl
  by_cases hthere : d.f PH_STATUS_PWM n = v
  · simp [setPwm, hthere]
  · simp only [setPwm, hthere, if_false, Dev.f_setF_same _ PH_STATUS_PWM n _ (by decide), hwidth]
    omega

/-- A rise is marked with its time. -/
theorem riseAt_setPwm (d : Dev) (n tap : Nat) (h : d.f PH_STATUS_PWM n ≠ pwmHigh) :
    (setPwm d n pwmHigh tap).h .riseAt n = d.now * 32 + tap := by
  simp [setPwm, h, Dev.h_setH_other _ _ (v := .negTri) (w := .riseAt) (.inl (by decide))]

/-- So is a fall. -/
theorem fallAt_setPwm (d : Dev) (n tap : Nat) (h : d.f PH_STATUS_PWM n = pwmHigh) :
    (setPwm d n pwmLow tap).h .fallAt n = d.now * 32 + tap := by
  simp [setPwm, h, Dev.h_setH_other _ _ (v := .everFell) (w := .fallAt) (.inl (by decide)),
    Dev.h_setH_other _ _ (v := .lowAt) (w := .fallAt) (.inl (by decide))]

/-! ### Edges (R89) -/

theorem riseNow_at {d : Dev} {n tap : Nat} (hpulse : pulsing d n = true) (hpwm : d.f PH_STATUS_PWM n ≠ pwmHigh)
    (hmade : d.hon .pulseMade n = false) (hcbc : d.on PH_STATUS_CBC n = false)
    (hrise : (List.range 32).find? (mayRise d n) = some tap) :
    riseNow d n = (setPwm d n pwmHigh tap).setH .pulseMade n 1 := by
  simp [riseNow, hpulse, hpwm, hmade, hcbc, hrise]

theorem fallNow_at {d : Dev} {n tap : Nat} (hpulse : pulsing d n = true) (hpwm : d.f PH_STATUS_PWM n = pwmHigh)
    (hfall : (List.range 32).find? (mustFall d n) = some tap) : fallNow d n = setPwm d n pwmLow tap := by
  simp [fallNow, hpulse, hpwm, hfall]

/-! ### Current limits (R92) -/

/-- Beside the pin and the mark of the period, a positive trip writes no field of PH_STATUS. -/
theorem f_cbcTrip_of_high (d : Dev) (n : Phase) {G : Fld} (hG : G.reg = PH_STATUS) (hpwm : d.f PH_STATUS_PWM n = pwmHigh) :
    (cbcTrip d n).f G n
      = ((setPwm d n (if nsAct d (phDom d n) then pwmTri else pwmLow)).set1 PH_STATUS_CBC n).f G n := by
  obtain ⟨hcount, -⟩ := phAddrs_apart n
  have hincSat (e : Dev) : (e.incSat PH_COUNT_CBC n).f G n = e.f G n := Dev.f_incSat_other e (hG ▸ hcount)
  simp only [cbcTrip, hpwm, if_true, apply_ite (Dev.f · G n), Dev.setHbit_f, Dev.setH_f, f_raisePhase_status _ n _ hG,
    hincSat, ite_self]

/-- A positive trip takes a HIGH pair to LOW, or to TRI in non-sink operation, and marks the period. -/
theorem cbcTrip_of_high (d : Dev) (n : Phase) (hpwm : d.f PH_STATUS_PWM n = pwmHigh) :
    (cbcTrip d n).on PH_STATUS_CBC n = true
      ∧ (cbcTrip d n).f PH_STATUS_PWM n = (if nsAct d (phDom d n) then pwmTri else pwmLow) := by
  rw [Dev.on, f_cbcTrip_of_high d n rfl hpwm, f_cbcTrip_of_high d n rfl hpwm]
  refine ⟨Dev.on_set1 _ PH_STATUS_CBC n (by decide) (by decide), ?_⟩
  rw [Dev.f_set1, Dev.f_setF_beside (F := PH_STATUS_CBC) (G := PH_STATUS_PWM) _ _ rfl (by decide) (by decide)]
  exact f_setPwm_same d n _ 0 (by split <;> decide)

/-- A negative trip takes the pair to TRI and leaves its cause. -/
theorem nocTrip_spec (d : Dev) (n : Phase) :
    (nocTrip d n).f PH_STATUS_PWM n = pwmTri ∧ (nocTrip d n).on FB_PCAUSE_NOC n = true := by
  obtain ⟨hcount, -, -, -, hfb⟩ := phAddrs_apart n
  let tripped := (((setPwm d n pwmTri).setH .negTri n 1).incSat PH_COUNT_CBC n).set1 FB_PCAUSE_NOC n
  have hpwm : tripped.f PH_STATUS_PWM n = pwmTri := by
    rw [Dev.f_set1_other _ hfb, Dev.f_incSat_other _ hcount, Dev.setH_f, f_setPwm_same d n pwmTri 0 (by decide)]
  have hnoc : tripped.on FB_PCAUSE_NOC n = true := Dev.on_set1 _ FB_PCAUSE_NOC n (by decide) (by decide)
  have hcases : nocTrip d n = tripped ∨ nocTrip d n = (tripped.raisePhase n 1).setH .nocEvent n 1 := ite_eq_or_eq ..
  rcases hcases with e | e <;> rw [e]
  · exact ⟨hpwm, hnoc⟩
  · rw [Dev.setH_f, Dev.setH_on, f_raisePhase_status _ n _ rfl, on_raisePhase_fbCause _ n _ rfl]
    exact ⟨hpwm, hnoc⟩

/-! ### Auto-zero (R105) -/

/-- A software write changes its register and no other. -/
theorem pushSw_regs (d : Dev) (dom : Nat) (R : Reg) (i : Nat) (w : Word) : (pushSw d dom R i w).regs = (d.setR R i w).regs := by
  unfold pushSw
  simp only
  split <;> rfl

theorem r_pushSw (d : Dev) (dom : Nat) (R Q : Reg) (i j : Nat) (w : Word) :
    (pushSw d dom R i w).r Q j = (d.setR R i w).r Q j := by
  rw [Dev.r, pushSw_regs, Dev.r]

theorem on_pushSw_other (d : Dev) (dom : Nat) {R : Reg} {G : Fld} {i j : Nat} (w : Word) (h : R.addr i ≠ G.reg.addr j) :
    (pushSw d dom R i w).on G j = d.on G j := by
  rw [Dev.on, Dev.f, r_pushSw, Dev.r_setR_other d w h, Dev.on, Dev.f]

/-- The auto-zero ends with its mean in the offset. -/
theorem azDone_spec (d : Dev) (n : Phase) (hbusy : d.on PH_STATUS_AZ_BUSY n = true) (hcnt : 256 ≤ d.h .azCnt n) :
    (azDone d n).on PH_STATUS_AZ_BUSY n = false ∧ (azDone d n).on PH_CAUSE_AZ_DONE n = true
      ∧ (azDone d n).fi PH_ISCAL_OFS n = (asr (d.h .azSum n) 8).bmod 4096 := by
  obtain ⟨-, hcause, hcalStatus, hcalCause, -⟩ := phAddrs_apart n
  simp only [azDone, hbusy, hcnt, decide_true, Bool.and_self, if_true]
  refine ⟨?_, ?_, ?_⟩
  · rw [on_pushSw_other _ _ _ hcalStatus, on_set1_other _ hcause]
    exact Dev.on_setF_zero d _ n (by decide)
  · rw [on_pushSw_other _ _ _ hcalCause]
    exact Dev.on_set1 _ PH_CAUSE_AZ_DONE n (by decide) (by decide)
  · refine Dev.fi_eq_bmod ?_ (by decide)
    rw [Dev.f, r_pushSw]
    exact (congrArg (bitsOf · 16 12) (Dev.r_setR_same ..)).trans (bitsOf_putBits_same _ 16 12 _ (by decide))

/-! ### The statement -/

/-- Settles O9: each event's guard is the state that calls for it, and its effect is what stands behind the guard. -/
theorem phaseSwitching : Obligations.PhaseSwitching := by
  unfold Obligations.PhaseSwitching
  intro s n
  refine ⟨?valley, ?rise, ?fall, ?cbc, ?noc, ?zeroCurrent, ?autoZero, ?armed⟩
  case valley =>
    intro tap hdom honce hhere
    exact (makes_of_when (i := .phaseValley n) rfl (by simp [hdom, honce])).congr (by simp only [hhere])
  case rise =>
    intro tap hpulse hpwm hmade hcbc hrise
    refine Makes.acts rfl ?_
    rw [riseNow_at hpulse hpwm hmade hcbc hrise]
    refine ⟨f_setPwm_same _ n pwmHigh tap (by decide), Dev.h_setH_same .., ?_⟩
    rw [Dev.h_setH_other _ _ (.inl (by decide)), riseAt_setPwm _ _ _ hpwm]
  case fall =>
    intro tap hpulse hpwm hfall
    refine Makes.acts rfl ?_
    rw [fallNow_at hpulse hpwm hfall]
    exact ⟨f_setPwm_same _ n pwmLow tap (by decide), fallAt_setPwm _ _ _ hpwm⟩
  case cbc =>
    intro hout hacted hpwm
    exact acts_of_when rfl (by simp [hout, hacted, hpwm]) (cbcTrip_of_high s.dev n hpwm)
  case noc =>
    intro hout hpwm
    exact acts_of_when rfl (by simp [hout, hpwm]) (nocTrip_spec s.dev n)
  case zeroCurrent =>
    intro hns hpwm hi
    exact makes_of_when rfl (by simp [hns, hpwm, hi])
  case autoZero =>
    intro hbusy hcnt
    exact Makes.acts rfl (azDone_spec s.dev n hbusy hcnt)
  case armed =>
    intro hstate
    exact makes_of_when rfl (by simp [hstate])

end Sys2Proof.Machine
end

section
/-! PROOF. What the stage buses bring in: tones, roll call, descriptors, reports, the presence poll and stage accesses (R120 to
R133, R522, R711). -/

namespace Sys2Proof.Machine

/-! ### Whether the buses hear their stages (R522) -/

theorem domOn_of_sbusOpen {d : Dev} (h : sbusOpen d = true) : domOn d 0 = true := by
  simp only [sbusOpen, Bool.and_eq_true] at h
  obtain ⟨hon, -⟩ := h
  exact hon

theorem makes_same_of_when {i : Instr} {s : State} {c : Dev → Bool} {g : Dev → Dev}
    (hexec : exec i s = s.ok fun d => d.when (c d) g) (hc : c s.dev = false) : Makes i s fun d => d := by
  rw [Makes, hexec, State.ok, State.onDev, State.onDev, hc, Dev.when_false]

/-! ### Fields beside the ones written -/

theorem Dev.on_setF_beside (d : Dev) {F G : Fld} {i : Nat} (v : Int) (hr : F.reg = G.reg)
    (h : F.lo + F.n ≤ G.lo ∨ G.lo + G.n ≤ F.lo) (h32 : G.lo + G.n ≤ 32) : (d.setF F i v).on G i = d.on G i := by
  rw [Dev.on, Dev.f_setF_beside d v hr h h32, Dev.on]

theorem Dev.on_set1_beside (d : Dev) {F G : Fld} {i : Nat} (hr : F.reg = G.reg)
    (h : F.lo + F.n ≤ G.lo ∨ G.lo + G.n ≤ F.lo) (h32 : G.lo + G.n ≤ 32) : (d.set1 F i).on G i = d.on G i := by
  rw [Dev.on, Dev.f_set1, ← Dev.on, Dev.on_setF_beside d 1 hr h h32]

/-! ### The close of an answer window (R123) -/

@[simp] theorem setPwm_targets (d : Dev) (n v tap : Nat) : (setPwm d n v tap).targets = d.targets := by
  simp [setPwm, apply_ite Dev.targets]

/-- A phase that goes IDLE leaves the targets of the buses. -/
theorem phSet_idle_targets (d : Dev) (n : Nat) : (phSet d n phIdle).targets = d.targets := by
  simp [phSet, apply_ite Dev.targets]

/-- The phase whose tone is over: IDLE again, unless it failed within the window. -/
def toneSilent (d : Dev) (n : Nat) : Dev := if phState d n = phTone then phSet d n phIdle else d

theorem toneSilent_targets (d : Dev) (n : Nat) : (toneSilent d n).targets = d.targets := by
  unfold toneSilent
  split
  · exact phSet_idle_targets ..
  · rfl

/-- The end of the window of phase n: a TONE_MAP_GO shows the result, and the next phase that waits is toned. -/
def toneEnd (n : Nat) (x : Dev × Nat) : Dev :=
  let d := if x.1.hon .mapByGo then x.1.setF PH_MAP_CTL_RESULT 0 x.2 else x.1
  toneNext (hotAttach (d.setH .toneNow 0 0) (phDom d n))

/-- What the answers to the tone of phase n leave, and the result of a TONE_MAP_GO. -/
def toneOutcome (n : Nat) (mirror : List Nat) (hits : List ToneAns) (d : Dev) : Dev × Nat :=
  match hits with
  | [] => ((unmap d n).setF PH_STAGE_CONFLICT n 0, 2)
  | [a] =>
    match d.targets.find? (fun (t : Target) => t.bus == a.bus && t.addr == a.addr) with
    | some t => (mapStage d n t mirror, 1)
    | none => (unmap d n, 2)
  | _ =>
    ((((unmap d n).set1 PH_STAGE_CONFLICT n).set1 PH_CAUSE_CONFLICT n).eachIn hits fun d a =>
      let d := updTarget d a.bus a.addr fun x => { x with conflict := true }
      match phaseOfStage d a.bus a.addr with
      | some m => d.set1 PH_STAGE_CONFLICT m
      | none => d, 3)

theorem toneClose_idle {d : Dev} (mirror : List Nat) (hnow : d.hn .toneNow = 0) : toneClose d mirror = d := by
  rw [toneClose, hnow]

/-- The close of the window of phase n, in its three parts. -/
theorem toneClose_eq {d : Dev} {n : Nat} (mirror : List Nat) (hnow : d.hn .toneNow = n + 1) :
    toneClose d mirror
      = toneEnd n (toneOutcome n mirror (d.toneAns.filter fun a => a.code == toneCode d n) (toneSilent d n)) := by
  rw [toneClose, hnow]
  rfl

/-- No stage answered. -/
theorem toneClose_unanswered {d : Dev} {n : Nat} (mirror : List Nat) (hnow : d.hn .toneNow = n + 1)
    (hnone : ∀ a ∈ d.toneAns, a.code ≠ toneCode d n) :
    toneClose d mirror = toneEnd n ((unmap (toneSilent d n) n).setF PH_STAGE_CONFLICT n 0, 2) := by
  have hhits : (d.toneAns.filter fun a => a.code == toneCode d n) = [] :=
    List.filter_eq_nil_iff.2 fun a ha => by simpa using hnone a ha
  rw [toneClose_eq mirror hnow, hhits, toneOutcome]

/-- One stage answered, and it is a target of its bus. -/
theorem toneClose_answered {d : Dev} {n : Nat} (mirror : List Nat) {a : ToneAns} {t : Target} (hnow : d.hn .toneNow = n + 1)
    (hone : (d.toneAns.filter fun a => a.code == toneCode d n) = [a])
    (htarget : d.targets.find? (fun x => x.bus == a.bus && x.addr == a.addr) = some t) :
    toneClose d mirror = toneEnd n (mapStage (toneSilent d n) n t mirror, 1) := by
  rw [← toneSilent_targets d n] at htarget
  rw [toneClose_eq mirror hnow, hone, toneOutcome, htarget]

/-! ### Reports (R125, R126) -/

theorem phaseOfStage_lt {d : Dev} {bus addr n : Nat} (h : phaseOfStage d bus addr = some n) : n < 64 :=
  List.mem_range.1 (List.mem_of_find?_eq_some h)

theorem faultReport_unmapped {d : Dev} {bus addr : Nat} (fault : Nat) (h : phaseOfStage d bus addr = none) :
    faultReport d bus addr fault = d.set1 PH_SB_CAUSE_IBI_DROP bus := by
  simp only [faultReport, h]

/-- What a FAULT report shows at the stage's phase: the byte and the cause, and a bit that is new in the life count. -/
def faultShown (d : Dev) (n fault : Nat) : Dev :=
  let newBit := fault &&& (255 - d.f PH_SFAULT_FAULT n) != 0
  let d := (d.setF PH_SFAULT_FAULT n fault).set1 PH_CAUSE_STAGE_FAULT n
  if newBit then lifeFault d n else d

theorem f_faultShown (d : Dev) (n fault : Nat) (G : Fld) (j : Nat) :
    (faultShown d n fault).f G j = ((d.setF PH_SFAULT_FAULT n fault).set1 PH_CAUSE_STAGE_FAULT n).f G j := by
  unfold faultShown
  simp only
  split <;> rfl

/-- Last fault, causes and role of a phase are three registers. -/
theorem faultAddrs_apart : ∀ n : Phase,
    PH_SFAULT.addr n ≠ PH_CAUSE.addr n ∧ PH_SFAULT.addr n ≠ PH_ROLE.addr n ∧ PH_CAUSE.addr n ≠ PH_ROLE.addr n := by
  decide

/-- The commit domain of a phase is read from its role alone. -/
theorem phDom_congr {d e : Dev} {n : Nat} (h : ∀ G : Fld, G.reg = PH_ROLE → e.f G n = d.f G n) : phDom e n = phDom d n := by
  rw [phDom, phDom, h PH_ROLE_ROLE rfl, h PH_ROLE_RAIL rfl]

theorem phDom_faultShown (d : Dev) (n : Phase) (fault : Nat) : phDom (faultShown d n fault) n = phDom d n := by
  obtain ⟨-, hfault, hcause⟩ := faultAddrs_apart n
  refine phDom_congr fun G hG => ?_
  rw [f_faultShown, Dev.f_set1_other _ (hG ▸ hcause), Dev.f_setF_other _ _ (hG ▸ hfault)]

/-- A fault report of the stage of a phase that no rail has is shown, and fails nothing. -/
theorem faultReport_noRail {d : Dev} {bus addr : Nat} {n : Phase} (fault : Nat) (h : phaseOfStage d bus addr = some n.val)
    (hdom : 16 ≤ phDom d n) : faultReport d bus addr fault = faultShown d n fault := by
  have hnoRail : ¬ phDom (faultShown d n fault) n < 16 := by rw [phDom_faultShown]; omega
  simp only [faultReport, h]
  refine if_neg fun hfails => hnoRail ?_
  simp only [Bool.and_eq_true, decide_eq_true_eq] at hfails
  obtain ⟨⟨⟨hrail, -⟩, -⟩, -⟩ := hfails
  exact hrail

theorem faultShown_spec (d : Dev) (n : Phase) (fault : Byte) :
    (faultShown d n fault.toNat).f PH_SFAULT_FAULT n = fault.toNat
      ∧ (faultShown d n fault.toNat).on PH_CAUSE_STAGE_FAULT n = true := by
  obtain ⟨hcause, -, -⟩ := faultAddrs_apart n
  constructor
  · have hwidth : (2 : Int) ^ PH_SFAULT_FAULT.n = 256 := rfl
    rw [f_faultShown, Dev.f_set1_other _ hcause.symm, Dev.f_setF_same _ PH_SFAULT_FAULT n _ (by decide), hwidth]
    omega
  · rw [Dev.on, f_faultShown]
    exact Dev.on_set1 _ PH_CAUSE_STAGE_FAULT n (by decide) (by decide)

/-- A temperature below T_LIMIT is shown, and crosses nothing. -/
theorem tempReport_below {d : Dev} {bus addr n raw : Nat} (h : phaseOfStage d bus addr = some n)
    (hbelow : stageTemp d n raw < ((descByte d n 0x35 : Int) - 40) * 16) :
    tempReport d bus addr raw
      = ((d.setF PH_STAGE_TEMP n (stageTemp d n raw)).set1 PH_CAUSE_STAGE_TEMP n).setH .tAbove n 0 := by
  have hnot : decide (((descByte d n 0x35 : Int) - 40) * 16 ≤ stageTemp d n raw) = false := decide_eq_false (by omega)
  simp only [tempReport, h, hnot]
  rfl

/-! ### Roll call (R120, R711) -/

/-- The registers of one stage bus are apart, and those of stage accesses lie beyond them. -/
theorem sbAddrs_apart : ∀ m : Fin 4,
    PH_SB_CAUSE.addr m ≠ PH_SB_CFG.addr m ∧ PH_SB_STATUS.addr m ≠ PH_SB_CAUSE.addr m
    ∧ PH_SB_STATUS.addr m ≠ PH_SACC_CMD.addr 0 ∧ PH_SB_STATUS.addr m ≠ PH_SACC_DATA.addr 0 := by decide

/-- A roll call that begins shows itself at its bus and sets no cause. -/
theorem rollStart_shows {d : Dev} {m : Fin 4} (hen : d.on PH_SB_CFG_EN m = true) :
    (rollStart d m false).on PH_SB_STATUS_ROLL m = true ∧ (rollStart d m false).on PH_SB_STATUS_BUSY m = true
      ∧ (rollStart d m false).on PH_SB_CAUSE_HJ m = d.on PH_SB_CAUSE_HJ m := by
  obtain ⟨-, hcause, -⟩ := sbAddrs_apart m
  simp only [rollStart, hen, if_true, Bool.false_eq_true, if_false]
  refine ⟨?_, ?_, ?_⟩
  · rw [Dev.on_setF_beside (F := PH_SB_STATUS_NTGT) (G := PH_SB_STATUS_ROLL) _ _ rfl (by decide) (by decide),
      Dev.on_set1_beside (F := PH_SB_STATUS_BUSY) (G := PH_SB_STATUS_ROLL) _ rfl (by decide) (by decide)]
    exact Dev.on_set1 _ PH_SB_STATUS_ROLL m (by decide) (by decide)
  · rw [Dev.on_setF_beside (F := PH_SB_STATUS_NTGT) (G := PH_SB_STATUS_BUSY) _ _ rfl (by decide) (by decide)]
    exact Dev.on_set1 _ PH_SB_STATUS_BUSY m (by decide) (by decide)
  · rw [Dev.on_setF_other _ _ hcause, on_set1_other _ hcause, on_set1_other _ hcause]

/-- A Hot-Join that the bus admits starts a roll call. -/
theorem hotJoin_admitted {s : State} {m : Fin 4} (hopen : sbusOpen s.dev = true) (hen : s.dev.on PH_SB_CFG_EN m = true)
    (hhj : s.dev.on PH_SB_CFG_HJ_EN m = true) (hroom : (s.dev.targets.filter fun t => t.bus == m.val).length < 16) :
    Makes (.hotJoin m) s fun d => rollStart (d.set1 PH_SB_CAUSE_HJ m) m false :=
  (makes_of_when (i := .hotJoin m) rfl (by simp [hopen, hen])).congr (by simp [hhj, Nat.not_le.2 hroom])

/-! ### Stage accesses (R133) -/

/-- The access is over, with an acknowledgement: before the data of a read. -/
def saccEnded (d : Dev) : Dev :=
  let m := d.f PH_STAGE_BUS (d.f PH_SACC_CMD_PHASE)
  ((d.setF PH_SACC_CMD_BUSY 0 0).setF PH_SB_STATUS_BUSY m (b2i (d.on PH_SB_STATUS_ROLL m))).setF PH_SACC_CMD_RES 0 0

theorem saccDone_acked {d : Dev} (data : Word) (hbusy : d.on PH_SACC_CMD_BUSY = true) :
    saccDone d true data =
      if (saccEnded d).on PH_SACC_CMD_WR then saccEnded d
      else (saccEnded d).setR PH_SACC_DATA 0
        (putBits ((saccEnded d).r PH_SACC_DATA) 0 (8 * (saccEnded d).f PH_SACC_CMD_LEN) data.toNat) := by
  simp only [saccDone, hbusy, if_true]
  rfl

/-- The bus that the access shows itself at no longer is another register than its command and its data. -/
theorem saccBus_apart (d : Dev) :
    let m := d.f PH_STAGE_BUS (d.f PH_SACC_CMD_PHASE)
    PH_SB_STATUS.addr m ≠ PH_SACC_CMD.addr 0 ∧ PH_SB_STATUS.addr m ≠ PH_SACC_DATA.addr 0 := by
  intro m
  have hm : m < 4 := bitsOf_lt _ PH_STAGE_BUS.lo PH_STAGE_BUS.n
  obtain ⟨-, -, hapart⟩ := sbAddrs_apart ⟨m, hm⟩
  exact hapart

/-- Only BUSY and RES of the command change. -/
theorem f_saccEnded_beside (d : Dev) {G : Fld} (hreg : G.reg = PH_SACC_CMD) (hlo : G.lo + G.n ≤ PH_SACC_CMD_BUSY.lo) :
    (saccEnded d).f G = d.f G := by
  obtain ⟨hcmd, -⟩ := saccBus_apart d
  have hlo' : G.lo + G.n ≤ 29 := hlo
  have hres : PH_SACC_CMD_RES.lo = 30 := rfl
  rw [saccEnded, Dev.f_setF_beside _ _ hreg.symm (.inr (by omega)) (by omega), Dev.f_setF_other _ _ (hreg ▸ hcmd),
    Dev.f_setF_beside _ _ hreg.symm (.inr hlo) (by omega)]

theorem saccEnded_spec (d : Dev) :
    (saccEnded d).on PH_SACC_CMD_BUSY = false ∧ (saccEnded d).f PH_SACC_CMD_RES = 0
      ∧ (saccEnded d).r PH_SACC_DATA = d.r PH_SACC_DATA := by
  obtain ⟨hcmd, hdata⟩ := saccBus_apart d
  have hapart : PH_SACC_CMD.addr 0 ≠ PH_SACC_DATA.addr 0 := by decide
  refine ⟨?_, Dev.f_setF_same _ PH_SACC_CMD_RES 0 0 (by decide), ?_⟩
  · rw [saccEnded, Dev.on_setF_beside (F := PH_SACC_CMD_RES) (G := PH_SACC_CMD_BUSY) _ _ rfl (by decide) (by decide),
      Dev.on_setF_other _ _ hcmd]
    exact Dev.on_setF_zero d PH_SACC_CMD_BUSY 0 (by decide)
  · exact (Dev.r_setR_other _ _ hapart).trans ((Dev.r_setR_other _ _ hdata).trans (Dev.r_setR_other _ _ hapart))

/-- An acknowledged access ends with result 0, and a read fills the low bytes of the data. -/
theorem saccDone_spec {d : Dev} (data : Word) (hbusy : d.on PH_SACC_CMD_BUSY = true) :
    (saccDone d true data).on PH_SACC_CMD_BUSY = false ∧ (saccDone d true data).f PH_SACC_CMD_RES = 0
      ∧ (d.on PH_SACC_CMD_WR = false → (saccDone d true data).r PH_SACC_DATA
          = putBits (d.r PH_SACC_DATA) 0 (8 * d.f PH_SACC_CMD_LEN) data.toNat) := by
  obtain ⟨hended, hres, hdata⟩ := saccEnded_spec d
  have hapart : PH_SACC_DATA.addr 0 ≠ PH_SACC_CMD.addr 0 := by decide
  have hwr : (saccEnded d).on PH_SACC_CMD_WR = d.on PH_SACC_CMD_WR := by
    rw [Dev.on, f_saccEnded_beside d rfl (by decide), Dev.on]
  rw [saccDone_acked data hbusy, hwr, hdata, f_saccEnded_beside d (G := PH_SACC_CMD_LEN) rfl (by decide)]
  cases hread : d.on PH_SACC_CMD_WR with
  | true => exact ⟨hended, hres, nofun⟩
  | false =>
    refine ⟨?_, ?_, fun _ => Dev.r_setR_same ..⟩
    · exact (congrArg (· != 0) (Dev.f_setR_other _ _ hapart)).trans hended
    · exact (Dev.f_setR_other _ _ hapart).trans hres

/-! ### The statement -/

/-- Settles O10: closed buses turn every command away, and on open ones each command does what the block's operation does in the
state that the clause names. -/
theorem stageBusEvents : Obligations.StageBusEvents := by
  unfold Obligations.StageBusEvents
  intro s m addr
  refine ⟨?closed, fun hopen => ?_⟩
  case closed =>
    intro hclosed code fault temp i hi
    simp only [List.mem_cons, List.not_mem_nil, or_false] at hi
    rcases hi with rfl | rfl | rfl | rfl <;> exact makes_same_of_when rfl (by simp [hclosed])
  have hdom := domOn_of_sbusOpen hopen
  have hclose (mirror : List Byte) :
      Makes (.toneWindowClose mirror) s fun d => toneClose d (mirror.map BitVec.toNat) :=
    (makes_of_when (i := .toneWindowClose mirror) rfl hdom).congr (by simp only [hopen, if_true])
  refine ⟨?answer, ?window, ?noWindow, ?dropped, ?fault, ?temp, ?hotJoin, ?desc, ?poll, ?access⟩
  case answer =>
    intro code hbusy hround
    exact makes_of_when rfl (by simp [hopen, hbusy, hround])
  case window =>
    intro mirror n hnow
    refine ⟨fun hnone => ?_, fun t a hone htarget => ?_⟩
    · exact (hclose mirror).congr (toneClose_unanswered _ hnow hnone)
    · exact (hclose mirror).congr (toneClose_answered _ hnow hone htarget)
  case noWindow =>
    exact fun hnow mirror => (hclose mirror).congr (toneClose_idle _ hnow)
  case dropped =>
    intro fault hstage
    exact (makes_of_when (i := .stageFaultReport m addr fault) rfl hopen).congr (faultReport_unmapped _ hstage)
  case fault =>
    intro fault n hstage hrail
    lift n to Phase using phaseOfStage_lt hstage
    exact acts_of_when rfl hopen (faultReport_noRail fault.toNat hstage hrail ▸ faultShown_spec s.dev n fault)
  case temp =>
    intro temp n hstage hbelow
    exact (makes_of_when (i := .stageTempReport m addr temp) rfl hopen).congr (tempReport_below hstage hbelow)
  case hotJoin =>
    intro hen hhj hroom
    obtain ⟨hcause, -⟩ := sbAddrs_apart m
    obtain ⟨hroll, hbusy, hkeep⟩ := rollStart_shows (d := s.dev.set1 PH_SB_CAUSE_HJ m) (m := m)
      ((on_set1_other _ hcause).trans hen)
    exact (hotJoin_admitted hopen hen hhj hroom).acts
      ⟨hkeep.trans (Dev.on_set1 _ PH_SB_CAUSE_HJ m (by decide) (by decide)), hroll, hbusy⟩
  case desc =>
    intro t hroll
    refine ⟨?_, ?_⟩
    · exact (makes_of_when (i := .descReadDone m (some t) false) rfl (by simp [hdom, hroll])).congr (by simp [hopen])
    · exact (makes_of_when (i := .descReadDone m none true) rfl (by simp [hdom, hroll])).congr (by simp [hopen])
  case poll =>
    intro ans hen hms
    exact (makes_of_when (i := .presencePoll m ans) rfl (by simp [hdom, hen, hms])).congr (by simp only [hopen, if_true])
  case access =>
    intro data hbusy
    refine acts_of_when rfl hdom ?_
    simp only [hopen, Bool.and_self]
    exact saccDone_spec data hbusy

end Sys2Proof.Machine
end

section
/-! PROOF. The events of a grove: triggers, the start of a pass, its watchdog, self-tests, the steering queue and the end of a
capture, each in a state that calls for it (R136, R141, R152, R154, R158 to R160, R163, R174). -/

namespace Sys2Proof.Machine

/-! ### Loops of which one round acts -/

theorem Dev.each_succ (d : Dev) (n : Nat) (h : Dev → Nat → Dev) : d.each (n + 1) h = h (d.each n h) n := by
  simp [Dev.each, List.range_succ]

/-- A loop none of whose rounds acts. -/
theorem Dev.each_idle {d : Dev} {h : Dev → Nat → Dev} (n : Nat) (hidle : ∀ u < n, h d u = d) : d.each n h = d := by
  induction n with
  | zero => rfl
  | succ n ih => rw [Dev.each_succ, ih fun u hu => hidle u (Nat.lt_succ_of_lt hu), hidle n (Nat.lt_succ_self n)]

/-- A loop of which round t alone acts. -/
theorem Dev.each_one {d : Dev} {h : Dev → Nat → Dev} {t : Nat} (n : Nat) (ht : t < n) (hbefore : ∀ u < t, h d u = d)
    (hafter : ∀ u < n, t < u → h (h d t) u = h d t) : d.each n h = h d t := by
  induction n with
  | zero => exact absurd ht (Nat.not_lt_zero t)
  | succ n ih =>
    rw [Dev.each_succ]
    rcases Nat.lt_succ_iff_lt_or_eq.1 ht with hlt | rfl
    · rw [ih hlt fun u hu => hafter u (Nat.lt_succ_of_lt hu), hafter n (Nat.lt_succ_self n) hlt]
    · rw [Dev.each_idle t hbefore]

/-! ### Triggers (R158, R159) -/

/-- The states of tasks and the causes of groves lie beside the tasks' configurations. -/
theorem addr_tcfg_ne (i j : Nat) : GV_TSTAT.addr i ≠ GV_TCFG.addr j ∧ GV_CAUSE.addr i ≠ GV_TCFG.addr j := by
  simp only [Reg.addr, GV_TSTAT, GV_TCFG, GV_CAUSE]
  omega

/-- A trigger that reaches a task leaves every task's configuration. -/
theorem f_trigTask_tcfg (d : Dev) (g t stamp j : Nat) {F : Fld} (hF : F.reg = GV_TCFG) :
    (trigTask d g t stamp).f F j = d.f F j := by
  have hstat (i : Nat) : GV_TSTAT.addr i ≠ F.reg.addr j := hF ▸ (addr_tcfg_ne i j).1
  have hcause (i : Nat) : GV_CAUSE.addr i ≠ F.reg.addr j := hF ▸ (addr_tcfg_ne i j).2
  have hset (e : Dev) (i : Nat) (v : Int) : (e.setF GV_TSTAT_STATE i v).f F j = e.f F j := Dev.f_setF_other e v (hstat i)
  have hovr (e : Dev) (i : Nat) : ((e.set1 GV_TSTAT_OVR i).set1 GV_CAUSE_TOVR g).f F j = e.f F j := by
    rw [Dev.f_set1_other _ (hcause g), Dev.f_set1_other _ (hstat i)]
  unfold trigTask
  simp only
  split
  · rfl
  · split <;> simp only [hset, hovr, Dev.setH_f]

section Trigger
variable {d : Dev} {g t : Nat} (stamp : Nat)

/-- A trigger that an idle task takes makes it pending. -/
theorem trigTask_idle (hdiv : d.f GV_TCFG_DIV (tk g t) = 0) (hst : d.f GV_TSTAT_STATE (tk g t) = 1) :
    trigTask d g t stamp = ((d.setH .gDiv (tk g t) 0).setF GV_TSTAT_STATE (tk g t) 2).setH .gStamp (tk g t) stamp := by
  simp [trigTask, hdiv, hst]

/-- One that a running task takes fills its slot. -/
theorem trigTask_running (hdiv : d.f GV_TCFG_DIV (tk g t) = 0) (hst : d.f GV_TSTAT_STATE (tk g t) = 3) :
    trigTask d g t stamp = ((d.setH .gDiv (tk g t) 0).setF GV_TSTAT_STATE (tk g t) 4).setH .gStamp2 (tk g t) stamp := by
  simp [trigTask, hdiv, hst]

/-- One that finds the task pending, or its slot filled, is dropped and leaves its causes. -/
theorem trigTask_full (hdiv : d.f GV_TCFG_DIV (tk g t) = 0)
    (hst : d.f GV_TSTAT_STATE (tk g t) = 2 ∨ d.f GV_TSTAT_STATE (tk g t) = 4) :
    trigTask d g t stamp = ((d.setH .gDiv (tk g t) 0).set1 GV_TSTAT_OVR (tk g t)).set1 GV_CAUSE_TOVR g := by
  rcases hst with hst | hst
  · simp [trigTask, hdiv, hst]
  · simp [trigTask, hdiv, hst]

end Trigger

/-- Whether trigger x is one that task t of grove g waits for. -/
def trigMeets (d : Dev) (g : Nat) (x : GvTrig) (t : Nat) : Bool :=
  let i := tk g t
  d.on GV_TCFG_EN i && d.f GV_TCFG_TRIG i == x.kind && d.f GV_TCFG_TSEL i == x.sel % 256
    && (x.kind != 2 || d.f GV_TCFG_OWNER i == x.sel / 256)

theorem trigMeets_disabled {d : Dev} {g t : Nat} (x : GvTrig) (hdis : d.on GV_TCFG_EN (tk g t) = false) :
    trigMeets d g x t = false := by
  simp [trigMeets, hdis]

/-- Ticks and grove events reach a task whoever owns it. -/
theorem trigMeets_enabled {d : Dev} {g t : Nat} {x : GvTrig} (hen : d.on GV_TCFG_EN (tk g t) = true)
    (htrig : d.f GV_TCFG_TRIG (tk g t) = x.kind) (hsel : d.f GV_TCFG_TSEL (tk g t) = x.sel % 256) (hkind : x.kind ≠ 2) :
    trigMeets d g x t = true := by
  simp [trigMeets, hen, htrig, hsel, hkind]

/-- The oldest trigger on its way to a grove that is on is taken and shown to each task in turn. -/
theorem taskTrigger_makes {s : State} {g : Grove} {x : GvTrig}
    (hx : s.dev.gvTrigs.find? (fun x => x.grove == g.val) = some x) (hon : gvOn s.dev g = true) :
    Makes (.taskTrigger g) s fun d => Dev.each { d with gvTrigs := d.gvTrigs.erase x } 64 fun d t =>
      if trigMeets d g x t then trigTask d g t x.stamp else d := by
  have hexec : exec (.taskTrigger g) s = execTaskTrigger g s := rfl
  have hon' : gvOn { s.dev with gvTrigs := s.dev.gvTrigs.erase x } g = true := hon
  simp only [Makes, hexec, execTaskTrigger, State.ok, State.onDev, hx, hon', if_true]
  rfl

/-- A trigger that the one enabled task of its grove waits for reaches that task alone. -/
theorem taskTrigger_one {s : State} {g : Grove} {x : GvTrig} {t : Fin 64}
    (hx : s.dev.gvTrigs.find? (fun x => x.grove == g.val) = some x) (hon : gvOn s.dev g = true)
    (hothers : ∀ u : Fin 64, u ≠ t → s.dev.on GV_TCFG_EN (tk g u) = false) (hmeets : trigMeets s.dev g x t = true) :
    Makes (.taskTrigger g) s fun d => trigTask { d with gvTrigs := d.gvTrigs.erase x } g t x.stamp := by
  refine (taskTrigger_makes hx hon).congr ?_
  set e : Dev := { s.dev with gvTrigs := s.dev.gvTrigs.erase x }
  have hround : (if trigMeets e g x t then trigTask e g t x.stamp else e) = trigTask e g t x.stamp := if_pos hmeets
  have hskip (u : Nat) (hu : u < 64) (hut : u ≠ t) : trigMeets e g x u = false ∧
      trigMeets (trigTask e g t x.stamp) g x u = false := by
    have hdis : e.on GV_TCFG_EN (tk g u) = false := hothers ⟨u, hu⟩ fun h => hut (congrArg Fin.val h)
    refine ⟨trigMeets_disabled x hdis, trigMeets_disabled x ?_⟩
    rw [Dev.on, f_trigTask_tcfg e g t x.stamp _ rfl, ← Dev.on, hdis]
  rw [Dev.each_one (t := t.val) 64 t.isLt, hround]
  · intro u hu
    rw [(hskip u (hu.trans t.isLt) hu.ne).1]; rfl
  · intro u hu htu
    rw [hround, (hskip u hu htu.ne').2]; rfl

/-! ### The steering queue (R141, R152) -/

theorem steerHead_found {d : Dev} {g : Nat} {x : SteerItem} (hx : d.steerq.find? (fun x => x.grove == g) = some x) :
    steerHead d g = if x.kind = 0 then provWrite { d with steerq := d.steerq.erase x } x
      else marker { d with steerq := d.steerq.erase x } x := by
  simp only [steerHead, hx]

/-! ### Self-tests at power-up (R136, R174) -/

theorem selfTestDone_powerUp {d : Dev} {g e : Nat} (pass : Bool) (hst : d.h .gEng (eg g e) = 5) :
    selfTestDone d g e pass = fillPool (if pass then d.setH .gEng (eg g e) 6 else retire d g e 2) g := by
  simp only [selfTestDone, hst, if_true]

/-! ### The statement -/

/-- Settles O11: each event's guard is the state that calls for it, and its effect is what stands behind the guard. -/
theorem groveEvents : Obligations.GroveEvents := by
  unfold Obligations.GroveEvents
  intro s g
  refine ⟨?trigger, ?passStart, ?watchdog, ?selfTest, ?steering, ?captureDone⟩
  case trigger =>
    intro x hx hon t i hothers hen htrig hsel hkind hdiv
    have htask := taskTrigger_one hx hon hothers (trigMeets_enabled hen htrig hsel hkind)
    exact ⟨fun hst => htask.congr (trigTask_idle _ hdiv hst), fun hst => htask.congr (trigTask_running _ hdiv hst),
      fun hst => htask.congr (trigTask_full _ hdiv hst)⟩
  case passStart =>
    intro t old hen hon hnext
    exact (makes_of_when (i := .passStart g) rfl (by simp [hen, hon])).congr (by simp only [hnext])
  case watchdog =>
    intro e p hpass
    have hexec : exec (.passWatchdog g e) s = execPassWatchdog g e s := rfl
    simp only [Makes, hexec, execPassWatchdog, State.ok, State.onDev, hpass]
  case selfTest =>
    intro e hon hst
    exact ⟨(makes_of_when (i := .selfTestDone g e true) rfl hon).congr (selfTestDone_powerUp true hst),
      (makes_of_when (i := .selfTestDone g e false) rfl hon).congr (selfTestDone_powerUp false hst)⟩
  case steering =>
    intro x hx
    refine ⟨fun hwrite => ?_, fun hmarker => ?_⟩
    · exact (makes_of_when (i := .steerWriteDrain g) rfl (by simp [hx, hwrite])).congr
        ((steerHead_found hx).trans (if_pos hwrite))
    · exact (makes_of_when (i := .steerMarkerArrive g) rfl (by simp [hx, hmarker])).congr
        ((steerHead_found hx).trans (if_neg hmarker))
  case captureDone =>
    intro hst hcnt hamp
    exact (makes_of_when (i := .captureDone g) rfl (by simp [hst, hcnt])).congr (by simp [hamp])

end Sys2Proof.Machine
end

section
/-! PROOF. An address is looked for among the registers that reach into its range alone (R8, R33). -/

namespace Sys2Proof.Machine

/-- The address of the last copy of a register. -/
def Reg.last (R : Reg) : Nat := R.base + (R.n1 - 1) * R.s1 + (R.n2 - 1) * R.s2

/-- Every copy of a register lies between its base and its last copy. -/
theorem Reg.find?_bounds {R : Reg} {a j : Nat} (h : R.find? a = some j) : R.base ≤ a ∧ a ≤ R.last := by
  unfold Reg.find? at h
  split at h
  case isTrue => exact absurd h nofun
  case isFalse hbase =>
    simp only [Option.ite_none_right_eq_some, Bool.and_eq_true, decide_eq_true_eq] at h
    obtain ⟨⟨⟨hi1, hk2⟩, hrest⟩, -⟩ := h
    generalize hi : (if R.s1 = 0 then 0 else (a - R.base) / R.s1) = i at *
    generalize (if R.s2 = 0 then 0 else (a - R.base - i * R.s1) / R.s2) = k at *
    have hbelow : i * R.s1 ≤ a - R.base := by
      rw [← hi]
      split
      · exact (Nat.zero_mul _).trans_le (Nat.zero_le _)
      · exact Nat.div_mul_le_self ..
    have hi1' : i * R.s1 ≤ (R.n1 - 1) * R.s1 := Nat.mul_le_mul_right _ (by omega)
    have hk2' : k * R.s2 ≤ (R.n2 - 1) * R.s2 := Nat.mul_le_mul_right _ (by omega)
    rw [Reg.last]
    omega

/-- The first of the rows that has a copy at address a, with that copy. -/
def findRow (rows : List RegRow) (a : Nat) : Option (RegRow × Nat) :=
  rows.findSome? fun row => (row.reg.find? a).map fun i => (row, i)

theorem regAt_eq_findRow (a : Nat) : regAt a = findRow regRows a := rfl

/-- Whether a register reaches into the range from lo to hi. -/
def RegRow.meets (lo hi : Nat) (row : RegRow) : Bool := row.reg.base < hi && lo ≤ row.reg.last

/-- A row that does not reach there has no copy there. -/
theorem find?_of_not_meets {a lo hi : Nat} {row : RegRow} (hlo : lo ≤ a) (hhi : a < hi) (hout : ¬ row.meets lo hi = true) :
    row.reg.find? a = none := by
  refine Option.eq_none_iff_forall_ne_some.2 fun j hj => hout ?_
  obtain ⟨hbase, hlast⟩ := Reg.find?_bounds hj
  simp only [RegRow.meets, Bool.and_eq_true, decide_eq_true_eq]
  omega

/-- So the others can be left out. -/
theorem findRow_filter {a lo hi : Nat} (rows : List RegRow) (hlo : lo ≤ a) (hhi : a < hi) :
    findRow rows a = findRow (rows.filter (RegRow.meets lo hi)) a := by
  induction rows with
  | nil => rfl
  | cons row rows ih =>
    by_cases hmeets : row.meets lo hi = true
    · rw [List.filter_cons_of_pos hmeets, findRow, List.findSome?_cons, ← findRow, ih, findRow, findRow,
        List.findSome?_cons]
    · rw [List.filter_cons_of_neg hmeets, findRow, List.findSome?_cons, ← findRow, ih,
        find?_of_not_meets hlo hhi hmeets, Option.map_none]

/-- The registers of the groves. -/
def gvRows : List RegRow :=
  [row_GV_CFG, row_GV_STATUS, row_GV_LEAD, row_GV_CAUSE, row_GV_CAUSE_EN, row_GV_RETIRED, row_GV_SHCNT, row_GV_BANKOWN,
    row_GV_TCFG, row_GV_TCODE, row_GV_TDATA, row_GV_TSTAT]

theorem filter_meets_gv : regRows.filter (RegRow.meets 0x40020000 0x40030000) = gvRows := by decide +kernel

/-- An address in the groves' range is looked for among their registers. -/
theorem regAt_gv {a : Nat} (hlo : 0x40020000 ≤ a) (hhi : a < 0x40030000) : regAt a = findRow gvRows a := by
  rw [regAt_eq_findRow, findRow_filter regRows hlo hhi, filter_meets_gv]

end Sys2Proof.Machine
end

section
/-! PROOF. Writes to the registers of groves, rails and the firebreak that start, stop, kick, clear or test (R139, R162, R179,
R183, R185, R186, R235, R239, R240, R249). -/

namespace Sys2Proof.Machine

/-! ### What the blocks do with these registers -/

section Blocks
variable (d : Dev) (who : Initiator) (i : Nat) (w x : Word)

theorem gvWrite_cfg : gvWrite d GV_CFG i x = gvCfgWrite d i x := rfl
theorem gvWrite_lead : gvWrite d GV_LEAD i x = gvLeadWrite d i x := rfl
theorem gvWrite_tcfg : gvWrite d GV_TCFG i x = tcfgWrite d (i / 64) (i % 64) x := rfl
theorem rlWrite_ctl : rlWrite d RL_CTL i w x = enWrite d i (valOf w RL_CTL_EN != 0) := rfl

theorem fbWrite_pclr : fbWrite d who FB_PCLR i w x =
    pclr d i (valOf w FB_PCLR_CLR) (passes (tagOf d who) (phaseOwner d i)) ((tagOf d who).2 || (tagOf d who).1 == 0) := rfl

theorem fbWrite_rclr : fbWrite d who FB_RCLR i w x =
    rclr d i (valOf w FB_RCLR_CLR) (passes (tagOf d who) (railOwner d i)) ((tagOf d who).2 || (tagOf d who).1 == 0) := rfl

theorem fbWrite_dclr : fbWrite d who FB_DCLR i w x = storeSettle (dclr d (valOf w FB_DCLR_CLR)) := by
  have hphase : FB_DCLR ≠ FB_PCLR := by decide
  have hrail : FB_DCLR ≠ FB_RCLR := by decide
  simp only [fbWrite, hphase, hrail, if_false, if_true]

theorem fbWrite_rtest : fbWrite d who FB_RTEST i w x = compTest d i (valOf w FB_RTEST_GO != 0) x := rfl
theorem fbWrite_wdgKick : fbWrite d who FB_WDG_KICK i w x = wdgKick d 0 w := rfl
theorem fbWrite_cwdgKick : fbWrite d who FB_CWDG_KICK i w x = wdgKick d (1 + i) w := rfl

end Blocks

theorem reg_gvCfg : ∀ g : Grove, Mapped row_GV_CFG g ∧ Direct row_GV_CFG g := by decide +kernel
theorem reg_gvLead : ∀ g : Grove, Mapped row_GV_LEAD g ∧ Direct row_GV_LEAD g := by decide +kernel
theorem reg_rlCtl : ∀ k : Rail, Mapped row_RL_CTL k ∧ Direct row_RL_CTL k := by decide +kernel
theorem reg_fbPclr : ∀ n : Phase, Mapped row_FB_PCLR n ∧ Direct row_FB_PCLR n := by decide +kernel
theorem reg_fbRclr : ∀ k : Rail, Mapped row_FB_RCLR k ∧ Direct row_FB_RCLR k := by decide +kernel
theorem reg_fbDclr : Mapped row_FB_DCLR 0 ∧ Direct row_FB_DCLR 0 := by decide +kernel
theorem reg_fbRtest : ∀ k : Rail, Mapped row_FB_RTEST k ∧ Direct row_FB_RTEST k := by decide +kernel
theorem reg_wdgKick : Mapped row_FB_WDG_KICK 0 ∧ Direct row_FB_WDG_KICK 0 := by decide +kernel
theorem reg_cwdgKick : ∀ c : Fin 4, Mapped row_FB_CWDG_KICK c ∧ Direct row_FB_CWDG_KICK c := by decide +kernel

theorem findRow_gvTcfg : ∀ (g : Grove) (t : Fin 64),
    findRow gvRows (GV_TCFG.addr (g.val * 64 + t.val)) = some (row_GV_TCFG, g.val * 64 + t.val) := by decide +kernel

/-- The configuration of a task is mapped as any other register, and takes its writes at once. -/
theorem reg_gvTcfg (g : Grove) (t : Fin 64) :
    Mapped row_GV_TCFG (g.val * 64 + t.val) ∧ Direct row_GV_TCFG (g.val * 64 + t.val) := by
  have haddr : row_GV_TCFG.reg.addr (g.val * 64 + t.val) = 0x40020100 + g.val * 0x1000 + t.val * 0x10 := by
    simp only [Reg.addr, row_GV_TCFG, GV_TCFG]
    omega
  have hlo : 0x40020000 ≤ row_GV_TCFG.reg.addr (g.val * 64 + t.val) := by omega
  have hhi : row_GV_TCFG.reg.addr (g.val * 64 + t.val) < 0x40030000 := by omega
  refine ⟨⟨?_, by omega, (regAt_gv hlo hhi).trans (findRow_gvTcfg g t)⟩, by decide, ?_, by decide⟩
  · simp only [isRegAddr, Bool.or_eq_true, Bool.and_eq_true, decide_eq_true_eq]
    omega
  · exact if_pos (by simp only [Bool.or_eq_true, decide_eq_true_eq]; omega)

/-! ### The words written and taken -/

/-- Bit 0 of a word whose lowest field, of one bit, was put there last. -/
theorem bitsOf_putBits_bit0 (data : Word) (b : Bool) : bitsOf (putBits data 0 1 (b2i b)) 0 1 = b.toNat := by
  rw [bitsOf_putBits_same _ _ _ _ (by decide)]
  cases b <;> rfl

/-- A read-write field of the lowest bit takes the bit that was written there. -/
theorem getLsbD_newWord_bit0 {row : RegRow} (hrow : FieldsApart row) (d : Dev) (j : Nat) (data : Word) (b : Bool) {F : Fld}
    (hF : F ∈ row.fields) (hacc : F.acc = .rw) (hlo : F.lo = 0) (hn : F.n = 1) :
    (newWord d row j (putBits data 0 1 (b2i b))).getLsbD 0 = b := by
  have htaken := (bitsOf_newWord hrow d j (putBits data 0 1 (b2i b)) hF).trans (takenValue_rw hacc)
  rw [valOf, hlo, hn, bitsOf_putBits_bit0] at htaken
  have hbit := testBit_bitsOf (newWord d row j (putBits data 0 1 (b2i b))) 0 1 0
  rw [htaken] at hbit
  cases b <;> simpa using hbit.symm

/-- The low field of a register that is written with a command's operand alone holds that operand. -/
theorem bitsOf_setWidth {n : Nat} (bits : BitVec n) (hn : n ≤ 32) : bitsOf (bits.setWidth 32) 0 n = bits.toNat := by
  rw [bitsOf, BitVec.extractLsb'_toNat, BitVec.toNat_setWidth, Nat.shiftRight_zero,
    Nat.mod_eq_of_lt (bits.isLt.trans_le (Nat.pow_le_pow_right (by decide) hn)), Nat.mod_eq_of_lt bits.isLt]

/-! ### Groves (R139, R162, R179) -/

theorem gvCfg_writes {i : Instr} {s : State} {who : Initiator} {g : Grove} {data : Word} {b : Bool}
    (hexec : exec i s = storeReg s who GV_CFG g (putBits data 0 1 (b2i b))) :
    let w := putBits data 0 1 (b2i b)
    Writes i s who row_GV_CFG g w fun d =>
      gvShow (if d.on GV_CFG_EN g && !b then cancelAll (took d row_GV_CFG g w) g else took d row_GV_CFG g w) g := by
  refine writes_of_block (b := fun d x => gvWrite d GV_CFG g x) (reg_gvCfg g) hexec (fun _ => rfl) fun _ => ?_
  rw [gvWrite_cfg, gvCfgWrite, getLsbD_newWord_bit0 (F := GV_CFG_EN) (by decide) s.dev g data b (by decide) rfl rfl rfl]
  rfl

theorem groveEnable_writes (s : State) (who : Initiator) (g : Grove) (data : Word) :
    let w := putBits data 0 1 1
    Writes (.groveEnable who g data) s who row_GV_CFG g w fun d => gvShow (took d row_GV_CFG g w) g := by
  simpa [b2i] using gvCfg_writes (i := .groveEnable who g data) (s := s) (b := true) rfl

theorem groveDisable_writes (s : State) (who : Initiator) (g : Grove) (data : Word) :
    let w := putBits data 0 1 0
    Writes (.groveDisable who g data) s who row_GV_CFG g w fun d =>
      gvShow (if d.on GV_CFG_EN g then cancelAll (took d row_GV_CFG g w) g else took d row_GV_CFG g w) g := by
  simpa [b2i] using gvCfg_writes (i := .groveDisable who g data) (s := s) (b := false) rfl

theorem takenValue_rwl {d : Dev} {row : RegRow} {j : Nat} {w : Word} {F : Fld} {old : Nat} (h : F.acc = .rwl) :
    takenValue d row j w F old = if lockedF d row.reg j F then old else valOf w F := by
  simp only [takenValue, h]

/-- The rails of GV_LEAD take the bits written: no lock holds the field as a whole. -/
theorem newWord_gvLead (d : Dev) (g : Nat) (data : Word) :
    bitsOf (newWord d row_GV_LEAD g data) 0 16 = bitsOf data 0 16 := by
  have htaken := bitsOf_newWord (row := row_GV_LEAD) (F := GV_LEAD_RAILS) (by decide) d g data (by decide)
  have hlock : lockedF d row_GV_LEAD.reg g GV_LEAD_RAILS = false := rfl
  exact htaken.trans ((takenValue_rwl rfl).trans (if_neg (by simp [hlock])))

theorem gvLeadWrite_congr (d : Dev) (g : Nat) {w x : Word} (h : bitsOf x 0 16 = bitsOf w 0 16) :
    gvLeadWrite d g x = gvLeadWrite d g w := by
  simp only [gvLeadWrite, h]

theorem gvLead_writes (s : State) (who : Initiator) (g : Grove) (data : Word) :
    Writes (.gvLeadWrite who g data) s who row_GV_LEAD g data fun d => gvLeadWrite d g data :=
  writes_of_block (b := fun d x => gvWrite d GV_LEAD g x) (reg_gvLead g) rfl (fun _ => rfl) fun _ =>
    (gvWrite_lead ..).trans (gvLeadWrite_congr _ _ (newWord_gvLead ..))

/-- What a write of GV_TCFG with EN at 1 comes to (R162). -/
theorem tcfgWrite_enable (d : Dev) (g t : Nat) {x : Word} (hen : x.getLsbD 0 = true) :
    let e := d.setR GV_TCFG (tk g t) x
    let off := e.setF GV_TCFG_EN (tk g t) 0
    tcfgWrite d g t x =
      gvShow (if d.on GV_TCFG_EN (tk g t) then e
              else if admitRefused off g t then off.set1 GV_CAUSE_ADMIT g
              else ((off.setF GV_TCFG_EN (tk g t) 1).setF GV_TSTAT_STATE (tk g t) 1).setH .gDiv (tk g t) 0) g := by
  simp only [tcfgWrite, hen, if_true]

theorem taskEnable_writes (s : State) (who : Initiator) (g : Grove) (t : Fin 64) (data : Word) :
    let j := g.val * 64 + t.val
    let w := putBits data 0 1 1
    Writes (.taskEnable who g t data) s who row_GV_TCFG j w fun d =>
      let e := took d row_GV_TCFG j w
      let off := e.setF GV_TCFG_EN j 0
      gvShow (if d.on GV_TCFG_EN j then e
              else if admitRefused off g t then off.set1 GV_CAUSE_ADMIT g
              else ((off.setF GV_TCFG_EN j 1).setF GV_TSTAT_STATE j 1).setH .gDiv j 0) g := by
  intro j w
  refine writes_of_block (b := fun d x => gvWrite d GV_TCFG j x) (reg_gvTcfg g t) rfl (fun _ => rfl) fun _ => ?_
  have hgrove : j / 64 = g.val := by omega
  have htask : j % 64 = t.val := by omega
  have hen : (newWord s.dev row_GV_TCFG j w).getLsbD 0 = true :=
    getLsbD_newWord_bit0 (F := GV_TCFG_EN) (by decide) s.dev j data true (by decide) rfl rfl rfl
  rw [gvWrite_tcfg, hgrove, htask, tcfgWrite_enable _ _ _ hen]
  rfl

/-! ### Rails (R183, R185, R186) -/

/-- A command that writes EN of a rail does what the bit asks for. -/
theorem railEn_writes {i : Instr} {s : State} {who : Initiator} {k : Rail} {b : Bool}
    (hexec : exec i s = storeF s who RL_CTL_EN k (b2i b)) :
    Writes i s who row_RL_CTL k (fieldWord s.dev RL_CTL_EN k (b2i b)) fun d => enWrite d k b := by
  refine writes_of_block (b := fun d x => rlWrite d RL_CTL k _ x) (reg_rlCtl k) hexec (fun _ => rfl) fun _ => ?_
  have hval : valOf (fieldWord s.dev RL_CTL_EN k (b2i b)) RL_CTL_EN = b.toNat := bitsOf_putBits_bit0 ..
  rw [rlWrite_ctl, hval]
  cases b <;> rfl

theorem enWrite_on (d : Dev) (k : Nat) :
    enWrite d k true =
      if d.hon .tapTest then d.set1 RL_CAUSE_CFG_ERR k
      else if rlState d k ≠ rlOff then d.setF RL_CTL_EN k 1
      else if d.on RL_CTL_EN k then d else enCheck d k := by
  simp only [enWrite, Bool.true_and, if_true, ite_not]

/-- A write of 0 is a sequenced stop, behind an abort that is due (R17, R185). -/
theorem enWrite_off (d : Dev) (k : Nat) :
    enWrite d k false =
      (let e := d.setF RL_CTL_EN k 0
       let stop := stopRail 17 e k 0 (e.f RL_CFG_OFF_MODE k)
       if (abortDue e k).isSome = true then
         stopRail 17 (startAbort e k ((abortDue e k).getD false)) k 0 (e.f RL_CFG_OFF_MODE k)
       else if rlState d k = rlSoftStart ∨ rlState d k = rlOn then
         if e.f RL_SEQ_OFF_DEP k = 0 ∨ (offQualifies e k = true ∧ e.f RL_SEQ_OFF_DLY k = 0) then stop
         else e.setF RL_STATUS_OFF_WAIT k 1
       else if rlState d k = rlLatched then (if e.hon .shutPend k then e else toOff e k)
       else stop) := by
  cases hdue : abortDue (d.setF RL_CTL_EN k 0) k with
  | none => simp [enWrite, hdue]
  | some monitor => simp [enWrite, hdue]

/-! ### Clears and tests (R235, R249) -/

theorem fbRclr_writes (s : State) (who : Initiator) (k : Rail) (bits : BitVec 6) :
    Writes (.fbRclr who k bits) s who row_FB_RCLR k (bits.setWidth 32) fun d =>
      rclr d k bits.toNat (passes (tagOf d who) (railOwner d k)) ((tagOf d who).2 || (tagOf d who).1 == 0) := by
  refine writes_of_block (b := fun d x => fbWrite d who FB_RCLR k _ x) (reg_fbRclr k) rfl (fun _ => rfl) fun _ => ?_
  have hbits : valOf (bits.setWidth 32) FB_RCLR_CLR = bits.toNat := bitsOf_setWidth bits (by decide)
  rw [fbWrite_rclr, hbits]

theorem fbPclr_writes (s : State) (who : Initiator) (n : Phase) (bits : BitVec 3) :
    Writes (.fbPclr who n bits) s who row_FB_PCLR n (bits.setWidth 32) fun d =>
      pclr d n bits.toNat (passes (tagOf d who) (phaseOwner d n)) ((tagOf d who).2 || (tagOf d who).1 == 0) := by
  refine writes_of_block (b := fun d x => fbWrite d who FB_PCLR n _ x) (reg_fbPclr n) rfl (fun _ => rfl) fun _ => ?_
  have hbits : valOf (bits.setWidth 32) FB_PCLR_CLR = bits.toNat := bitsOf_setWidth bits (by decide)
  rw [fbWrite_pclr, hbits]

theorem fbDclr_writes (s : State) (who : Initiator) (bits : BitVec 8) :
    Writes (.fbDclr who bits) s who row_FB_DCLR 0 (bits.setWidth 32) fun d => storeSettle (dclr d bits.toNat) := by
  refine writes_of_block (b := fun d x => fbWrite d who FB_DCLR 0 _ x) reg_fbDclr rfl (fun _ => rfl) fun _ => ?_
  have hbits : valOf (bits.setWidth 32) FB_DCLR_CLR = bits.toNat := bitsOf_setWidth bits (by decide)
  rw [fbWrite_dclr, hbits]

theorem compTestGo_writes (s : State) (who : Initiator) (k : Rail) :
    Writes (.compTestGo who k) s who row_FB_RTEST k (fieldWord s.dev FB_RTEST_GO k 1) fun d =>
      let e := took d row_FB_RTEST k (fieldWord d FB_RTEST_GO k 1)
      if rlState d k = rlOff then
        (((e.set1 FB_RTEST_BUSY k).setH .testBlank k (d.now + 1)).setH .testCnt k 0).setH .testSeen k 0
      else d.set1 FB_RCAUSE_ACC_ERR k := by
  refine writes_of_block (b := fun d x => fbWrite d who FB_RTEST k _ x) (reg_fbRtest k) rfl (fun _ => rfl) fun _ => ?_
  have hgo : valOf (fieldWord s.dev FB_RTEST_GO k 1) FB_RTEST_GO = 1 :=
    valOf_fieldWord_same (row := row_FB_RTEST) s.dev 1 (by decide) (by decide)
  rw [fbWrite_rtest, hgo]
  rfl

/-! ### Watchdogs (R239, R240) -/

/-- What the write of a key to the kick register of watchdog j does. -/
theorem wdgKick_key (d : Dev) (j : Nat) (key : BitVec 16) :
    wdgKick d j (key.setWidth 32) =
      if key = 0x5A3C then d.setH .wdgAt j (d.now + 1 : Nat) else d.set1 FB_DCAUSE_ACC_ERR := by
  have hkey : (key.toNat = 0x5A3C) = (key = 0x5A3C) := propext (BitVec.toNat_inj (x := key) (y := 0x5A3C))
  simp only [wdgKick, bitsOf_setWidth key (by decide), hkey]

theorem wdgKick_writes (s : State) (who : Initiator) (key : BitVec 16) :
    Writes (.wdgKick who key) s who row_FB_WDG_KICK 0 (key.setWidth 32) fun d => wdgKick d 0 (key.setWidth 32) :=
  writes_of_block (b := fun d x => fbWrite d who FB_WDG_KICK 0 _ x) reg_wdgKick rfl (fun _ => rfl) fun _ =>
    fbWrite_wdgKick ..

theorem cwdgKick_writes (s : State) (who : Initiator) (c : Fin 4) (key : BitVec 16) :
    Writes (.cwdgKick who c key) s who row_FB_CWDG_KICK c (key.setWidth 32) fun d => wdgKick d (1 + c) (key.setWidth 32) :=
  writes_of_block (b := fun d x => fbWrite d who FB_CWDG_KICK c _ x) (reg_cwdgKick c) rfl (fun _ => rfl) fun _ =>
    fbWrite_cwdgKick ..

/-! ### The statement -/

/-- Settles O24: each command is a store to one register, and each clause is what the register's block does with the word. -/
theorem groveRailAndFirebreakWrites : Obligations.GroveRailAndFirebreakWrites := by
  unfold Obligations.GroveRailAndFirebreakWrites
  intro s who
  refine ⟨fun g data => ⟨groveEnable_writes s who g data, groveDisable_writes s who g data, gvLead_writes s who g data,
      fun t => taskEnable_writes s who g t data⟩,
    fun k => ⟨?railOn, ?railOff, fbRclr_writes s who k, compTestGo_writes s who k⟩,
    fbPclr_writes s who, fbDclr_writes s who, fun key => ?kick⟩
  case railOn => simpa [b2i, enWrite_on] using railEn_writes (i := .railEnWrite who k) (s := s) (b := true) rfl
  case railOff => simpa [b2i, enWrite_off] using railEn_writes (i := .sequencedStop who k) (s := s) (b := false) rfl
  case kick =>
    simp only [← wdgKick_key]
    exact ⟨wdgKick_writes s who key, fun c => cwdgKick_writes s who c key⟩

end Sys2Proof.Machine
end

section
/-! PROOF. The life of a rail: each event of its sequencer, in the state that calls for it (R183 to R214). -/

namespace Sys2Proof.Machine

/-! ### Events of a block in SVC -/

/-- With its domain on, an event of such a block whose guard holds does what stands behind the guard. -/
theorem makes_of_svc {i : Instr} {s : State} {c : Dev → Bool} {g : Dev → Dev}
    (hexec : exec i s = s.svc fun d => d.when (c d) g) (hdom : domOn s.dev 0 = true) (hc : c s.dev = true) : Makes i s g := by
  rw [Makes, hexec, State.svc, State.ok, State.onDev, State.onDev, if_pos hdom, Dev.when, if_pos hc]

/-! ### The waits for other rails (R187) -/

theorem all_depRails {m : Nat} {p : Nat → Bool} (h : ∀ j, j < 16 → m.testBit j = true → p j = true) :
    (depRails m).all p = true := by
  simpa only [depRails, List.all_eq_true, List.mem_filter, List.mem_range, and_imp] using h

theorem offQualifies_of_off {d : Dev} {k : Nat}
    (h : ∀ j, j < 16 → (d.f RL_SEQ_OFF_DEP k).testBit j = true → rlState d j = rlOff) : offQualifies d k = true :=
  all_depRails fun j hj hdep => beq_iff_eq.2 (h j hj hdep)

/-- A start abort is due in SOFT_START alone (R197). -/
theorem rlState_of_abortDue {d : Dev} {k : Nat} {monitor : Bool} (h : abortDue d k = some monitor) :
    rlState d k = rlSoftStart := by
  by_contra hstate
  simp [abortDue, hstate] at h

/-! ### The pre-bias search (R193) -/

theorem hn_pbLeft_moveCentre (d : Dev) (k : Nat) (c : Int) : (moveCentre d k c).hn .pbLeft k = d.hn .pbLeft k := by
  have hsettle : (d.setH .settleLeft k 2).hn .pbLeft k = d.hn .pbLeft k :=
    congrArg Int.toNat (Dev.h_setH_other d 2 (.inl (by decide)))
  simp only [moveCentre, Dev.setF_hn, apply_ite (Dev.hn · .pbLeft k), hsettle, ite_self]

/-- The centre takes any value that its 14 bits hold. -/
theorem f_centre_moveCentre (d : Dev) (k : Nat) {c : Int} (hlo : 0 ≤ c) (hhi : c < 16384) :
    ((moveCentre d k c).f FL_WIN_CENTRE k : Int) = c := by
  have hwidth : (2 : Int) ^ FL_WIN_CENTRE.n = 16384 := rfl
  rw [moveCentre, Dev.f_setF_same _ FL_WIN_CENTRE k c (by decide), hwidth]
  omega

/-- The search for t has b bits left: t lies among the 2^b codes from `base` on, all of which the DAC has, and the centre stands
at the middle of them. -/
def Searches (d : Dev) (k : Nat) (t : Int) (b : Nat) : Prop :=
  d.hn .pbLeft k = b ∧ ∃ base : Nat, base + 2 ^ b ≤ 16384 ∧ base ≤ t ∧ t < base + 2 ^ b ∧ d.f FL_WIN_CENTRE k = base + 2 ^ b / 2

/-- A step that settles the bit under trial at `base` leaves the centre at the middle of the 2^b codes from there on. -/
theorem pbStep_settled {d : Dev} {k b base : Nat} {v : Int} (hleft : d.hn .pbLeft k = b + 1)
    (hsettled : (if v < (d.f FL_WIN_CENTRE k : Int) * 100 then (d.f FL_WIN_CENTRE k : Int) - 2 ^ b else d.f FL_WIN_CENTRE k) = base)
    (hmax : base + 2 ^ b ≤ 16384) :
    (pbStep d k v).hn .pbLeft k = b ∧ (pbStep d k v).f FL_WIN_CENTRE k = base + 2 ^ b / 2 := by
  have hpos : 0 < 2 ^ b := Nat.two_pow_pos b
  have hmiddle : (if b = 0 then (base : Int) else base + 2 ^ (b - 1)) = (base + 2 ^ b / 2 : Nat) := by
    cases b with
    | zero => simp
    | succ m => simp [pow_succ]
  have hstep : pbStep d k v
      = moveCentre ((d.setH .pbLeft k b).setH .pbTick k 0) k (base + 2 ^ b / 2 : Nat) := by
    simp only [pbStep, hleft, hsettled, hmiddle]
  rw [hstep, hn_pbLeft_moveCentre]
  refine ⟨?_, Int.natCast_inj.1 (f_centre_moveCentre _ k (by omega) (by omega))⟩
  rw [Dev.hn, Dev.h_setH_other _ _ (.inl (by decide)), Dev.h_setH_same, Int.toNat_natCast]

/-- A step halves the codes: the sample lies below the centre exactly if the code searched for does. -/
theorem pbStep_searches {d : Dev} {k b : Nat} {v : Int} (h : Searches d k (clampI (v / 100) 0 16383) (b + 1)) :
    Searches (pbStep d k v) k (clampI (v / 100) 0 16383) b := by
  obtain ⟨hleft, base, hmax, hlo, hhi, hcentre⟩ := h
  have hpow : 2 ^ (b + 1) = 2 * 2 ^ b := Nat.pow_succ'
  have hpos : 0 < 2 ^ b := Nat.two_pow_pos b
  have hmid : (d.f FL_WIN_CENTRE k : Int) = base + 2 ^ b := by push_cast [hcentre]; omega
  have hbelow : v < (d.f FL_WIN_CENTRE k : Int) * 100 ↔ clampI (v / 100) 0 16383 < d.f FL_WIN_CENTRE k := by
    unfold clampI
    omega
  by_cases hv : clampI (v / 100) 0 16383 < d.f FL_WIN_CENTRE k
  · obtain ⟨hleft', hcentre'⟩ := pbStep_settled (base := base) hleft (by rw [if_pos (hbelow.2 hv)]; omega) (by omega)
    exact ⟨hleft', base, by omega, hlo, by omega, hcentre'⟩
  · obtain ⟨hleft', hcentre'⟩ := pbStep_settled (base := base + 2 ^ b) hleft
      (by rw [if_neg (mt hbelow.1 hv)]; push_cast; omega) (by omega)
    exact ⟨hleft', base + 2 ^ b, by omega, by push_cast; omega, by push_cast; omega, hcentre'⟩

/-- A search that has b bits left ends after b steps. -/
theorem each_pbStep_searches {k b : Nat} {v : Int} (n : Nat) {d : Dev} (h : Searches d k (clampI (v / 100) 0 16383) (b + n)) :
    Searches (d.each n fun d _ => pbStep d k v) k (clampI (v / 100) 0 16383) b := by
  induction n generalizing b with
  | zero => exact h
  | succ n ih =>
    rw [Dev.each_succ]
    exact pbStep_searches (ih (by rwa [Nat.add_right_comm]))

/-- The fourteen steps from the top DAC bit on find the output, in DAC LSB. -/
theorem centre_each_pbStep {d : Dev} {k : Nat} (v : Int) (hleft : d.hn .pbLeft k = 14) (hcentre : d.f FL_WIN_CENTRE k = 0x2000) :
    ((d.each 14 fun d _ => pbStep d k v).f FL_WIN_CENTRE k : Int) = clampI (v / 100) 0 16383 := by
  have hstart : Searches d k (clampI (v / 100) 0 16383) (0 + 14) := by
    refine ⟨hleft, 0, by decide, ?_, ?_, hcentre⟩ <;> unfold clampI <;> omega
  obtain ⟨-, base, -, hlo, hhi, hend⟩ := each_pbStep_searches 14 hstart
  rw [hend]
  omega

/-! ### Power good (R188, R189, R196) -/

/-- An event touches no state of a rail, and its state and its soft start are registers apart. -/
theorem rlAddrs_apart : ∀ k : Rail,
    TR_CAUSE.addr 0 ≠ RL_STATUS.addr k ∧ TR_DROPCNT.addr 0 ≠ RL_STATUS.addr k
    ∧ TR_CAUSE.addr 0 ≠ RL_SS.addr k ∧ TR_DROPCNT.addr 0 ≠ RL_SS.addr k ∧ RL_STATUS.addr k ≠ RL_SS.addr k := by decide

/-- Power good rises: its status is shown and its event raised (R189). -/
def pgRaised (d : Dev) (k : Nat) : Dev := (d.setF RL_STATUS_PG k 1).raiseRail k 4

theorem f_pgRaised_status (d : Dev) (k : Rail) {G : Fld} (hG : G.reg = RL_STATUS) :
    (pgRaised d k).f G k = (d.setF RL_STATUS_PG k 1).f G k := by
  obtain ⟨hcause, hcount, -⟩ := rlAddrs_apart k
  exact Dev.f_raise_other _ _ (hG ▸ hcause) (hG ▸ hcount)

theorem rlState_pgRaised (d : Dev) (k : Rail) : rlState (pgRaised d k) k = rlState d k := by
  rw [rlState, f_pgRaised_status d k rfl,
    Dev.f_setF_beside (F := RL_STATUS_PG) (G := RL_STATUS_STATE) d 1 rfl (by decide) (by decide), rlState]

theorem on_pgRaised (d : Dev) (k : Rail) : (pgRaised d k).on RL_STATUS_PG k = true := by
  rw [Dev.on, f_pgRaised_status d k rfl]
  exact Dev.on_set1 d RL_STATUS_PG k (by decide) (by decide)

theorem on_pgRaised_blankExt (d : Dev) (k : Rail) : (pgRaised d k).on RL_SS_BLANK_EXT k = d.on RL_SS_BLANK_EXT k := by
  obtain ⟨-, -, hcause, hcount, hstatus⟩ := rlAddrs_apart k
  rw [Dev.on, pgRaised, Dev.raiseRail, Dev.f_raise_other _ _ hcause hcount, Dev.f_setF_other _ _ hstatus, Dev.on]

/-- A rail enters ON: the non-sink force ends, and the blanking goes on if it is extended (R194, R196). -/
def enterOn (d : Dev) (k : Nat) : Dev :=
  let d := (d.setF RL_STATUS_STATE k rlOn).setF RL_STATUS_NS_FORCE k 0
  d.setH .ssBlank k (b2i (d.on RL_SS_BLANK_EXT k))

theorem enterOn_spec (d : Dev) (k : Rail) :
    (enterOn d k).on RL_STATUS_PG k = d.on RL_STATUS_PG k ∧ rlState (enterOn d k) k = rlOn
      ∧ (enterOn d k).on RL_STATUS_NS_FORCE k = false ∧ (enterOn d k).h .ssBlank k = b2i (d.on RL_SS_BLANK_EXT k) := by
  obtain ⟨-, -, -, -, hstatus⟩ := rlAddrs_apart k
  refine ⟨?_, ?_, ?_, ?_⟩
  · rw [enterOn, Dev.setH_on,
      Dev.on_setF_beside (F := RL_STATUS_NS_FORCE) (G := RL_STATUS_PG) _ _ rfl (by decide) (by decide),
      Dev.on_setF_beside (F := RL_STATUS_STATE) (G := RL_STATUS_PG) _ _ rfl (by decide) (by decide)]
  · rw [rlState, enterOn, Dev.setH_f,
      Dev.f_setF_beside (F := RL_STATUS_NS_FORCE) (G := RL_STATUS_STATE) _ _ rfl (by decide) (by decide)]
    exact Dev.f_setF_same d RL_STATUS_STATE k rlOn (by decide)
  · exact Dev.on_setF_zero _ RL_STATUS_NS_FORCE k (by decide)
  · rw [enterOn, Dev.h_setH_same, Dev.on_setF_other _ _ hstatus, Dev.on_setF_other _ _ hstatus]

/-- What PG_RISE does: a start abort that is due comes first, and else a rail in SOFT_START goes ON (R17, R185). -/
def pgRiseDone (d : Dev) (k : Nat) : Dev :=
  match abortDue d k with
  | some monitor => startAbort d k monitor
  | none => if rlState (pgRaised d k) k = rlSoftStart then enterOn (pgRaised d k) k else pgRaised d k

section
variable {s : State} {k : Rail} (hdom : domOn s.dev 0 = true) (hpg : s.dev.on RL_STATUS_PG k = false)
  (hramp : s.dev.hon .rampDone k = true) (hwin : (s.dev.fi FL_ERR_X k).natAbs ≤ s.dev.f RL_PG_WIN k * 256)
include hdom hpg hramp hwin

theorem pgRise_makes (hstate : rlState s.dev k = rlSoftStart ∨ rlState s.dev k = rlOn) :
    Makes (.pgRise k) s fun d => pgRiseDone d k := by
  have hmakes : Makes (.pgRise k) s _ := makes_of_svc rfl hdom (by simpa [hpg, hramp, hwin] using hstate)
  refine hmakes.congr ?_
  cases hdue : abortDue s.dev k with
  | some monitor => simp only [pgRiseDone, hdue]
  | none =>
    simp only [pgRiseDone, hdue]
    rfl

theorem pgRise_on (hstate : rlState s.dev k = rlOn) : Makes (.pgRise k) s fun d => pgRaised d k := by
  have hdue : abortDue s.dev k = none := by simp [abortDue, hstate]
  refine (pgRise_makes hdom hpg hramp hwin (.inr hstate)).congr ?_
  simp [pgRiseDone, hdue, rlState_pgRaised, hstate]

theorem pgRise_aborts {monitor : Bool} (hdue : abortDue s.dev k = some monitor) :
    Makes (.pgRise k) s fun d => startAbort d k monitor :=
  (pgRise_makes hdom hpg hramp hwin (.inl (rlState_of_abortDue hdue))).congr (by simp only [pgRiseDone, hdue])

theorem pgRise_starts (hstate : rlState s.dev k = rlSoftStart) (hdue : abortDue s.dev k = none) :
    Makes (.pgRise k) s fun d => enterOn (pgRaised d k) k :=
  (pgRise_makes hdom hpg hramp hwin (.inl hstate)).congr (by simp [pgRiseDone, hdue, rlState_pgRaised, hstate])

end

/-! ### The end of the pre-bias search (R193 to R195) -/

/-- The search has ended at the code `sensed`: what it measured is shown. -/
def prebiasShown (d : Dev) (k : Nat) : Dev :=
  let sensed := d.f FL_WIN_CENTRE k
  (d.setF RL_PB_SENSED k sensed).setF RL_STATUS_PREBIAS k (b2i (decide (d.f RL_PB_MIN k * 2048 ≤ sensed * 100)))

/-- The threshold of R193 is read as it stood. -/
theorem f_prebiasShown_min (d : Dev) (k : Rail) : (prebiasShown d k).f RL_PB_MIN k = d.f RL_PB_MIN k := by
  have hapart : ∀ k : Rail, RL_STATUS.addr k ≠ RL_PB.addr k := by decide
  rw [prebiasShown, Dev.f_setF_other (F := RL_STATUS_PREBIAS) (G := RL_PB_MIN) _ _ (hapart k),
    Dev.f_setF_beside (F := RL_PB_SENSED) (G := RL_PB_MIN) _ _ rfl (by decide) (by decide)]

/-- The decision on the code `sensed`: too high an output ends the start, and else the threshold says where it begins. -/
def prebiasDecide (d e : Dev) (k sensed : Nat) : Dev :=
  if e.a FL_REF_TGT k * 100 + e.f RL_PB_HIGH k * 2048 < sensed * 100 then
    toOff (((shutdown e k).setF RL_CTL_EN k 0).set1 RL_CAUSE_PB_HIGH k) k
  else if d.f RL_PB_MIN k * 2048 ≤ sensed * 100 then enterSoftStart e k sensed true
  else enterSoftStart e k 0 false

theorem prebiasDone_makes {s : State} {k : Rail} (v : Int) (hdom : domOn s.dev 0 = true) (hstate : rlState s.dev k = rlPrebias) :
    let p := s.dev.each 14 fun d _ => pbStep d k v
    Makes (.prebiasDone k v) s fun _ => prebiasDecide p (prebiasShown p k) k (p.f FL_WIN_CENTRE k) := by
  intro p
  refine (makes_of_svc (i := .prebiasDone k v) (c := fun d => rlState d k == rlPrebias) rfl hdom (beq_iff_eq.2 hstate)).congr ?_
  rw [prebiasDecide, ← f_prebiasShown_min p k]
  rfl

/-! ### The statement -/

/-- Settles O13: each event's guard is the state that calls for it, and of two rows that hold in one cycle the event takes the
earlier. -/
theorem railLifecycle : Obligations.RailLifecycle := by
  unfold Obligations.RailLifecycle
  intro s k d hdom
  refine ⟨?seqTimeout, ?seqOn, ?seqOff, ?armed, ?armTimeout, ?prebias, ?softStart, ?hiccup, ?pgRise, ?pgFall, ?blank, ?stop,
    ?stopTimeout⟩
  case seqTimeout =>
    intro hstate htmo
    exact makes_of_svc rfl hdom (by simp [d, hstate, htmo])
  case seqOn =>
    intro hstate hen hdeps
    exact makes_of_svc rfl hdom (by simp [d, hstate, hen, all_depRails hdeps])
  case seqOff =>
    intro hwait hdeps
    have hmakes : Makes (.offSeqQualify k) s _ := makes_of_svc rfl hdom (by simp [d, hwait, offQualifies_of_off hdeps])
    exact ⟨fun monitor hdue => hmakes.congr (by simp only [d, hdue]), fun hdue => hmakes.congr (by simp only [d, hdue])⟩
  case armed =>
    intro hstate hnone hmin
    exact makes_of_svc rfl hdom (by simp [d, hstate, hnone, hmin])
  case armTimeout =>
    intro hstate
    have hmakes : Makes (.armTimeout k) s _ := makes_of_svc rfl hdom (by simp [d, hstate])
    exact ⟨fun hmin => hmakes.congr (if_pos hmin), fun hmin => hmakes.congr (if_neg (Nat.not_le.2 hmin))⟩
  case prebias =>
    intro v hstate p sensed pre e high
    have hmakes := prebiasDone_makes v hdom hstate
    refine ⟨centre_each_pbStep v, fun hhigh => hmakes.congr (if_pos hhigh), fun hhigh hpre => ?_, fun hhigh hpre => ?_⟩
    · exact hmakes.congr ((if_neg hhigh).trans (if_pos hpre))
    · exact hmakes.congr ((if_neg hhigh).trans (if_neg hpre))
  case softStart =>
    intro hstate
    refine ⟨fun hruns => ?_, ?_⟩
    · exact makes_of_svc rfl hdom (by simpa [d, inSoftStart, hstate] using hruns)
    · exact makes_of_svc rfl hdom (by simp [d, inSoftStart, hstate])
  case hiccup =>
    intro hstate
    exact makes_of_svc rfl hdom (by simp [d, hstate])
  case pgRise =>
    intro hpg hramp hwin
    refine ⟨pgRise_on hdom hpg hramp hwin, fun monitor => pgRise_aborts hdom hpg hramp hwin, fun hstate hdue => ?_⟩
    obtain ⟨hshown, hon, hforce, hblank⟩ := enterOn_spec (pgRaised s.dev k) k
    exact (pgRise_starts hdom hpg hramp hwin hstate hdue).acts
      ⟨hshown.trans (on_pgRaised ..), hon, hforce, hblank.trans (congrArg b2i (on_pgRaised_blankExt ..))⟩
  case pgFall =>
    intro hpg hfilt
    have hmakes : Makes (.pgFall k) s _ := makes_of_svc rfl hdom (by simp [d, hpg, hfilt])
    exact ⟨fun hstate => hmakes.congr (by simp only [d, hstate, if_true]),
      fun hstate => hmakes.congr (by simp only [d, hstate, if_false])⟩
  case blank =>
    intro hstate
    exact makes_of_svc rfl hdom (by simp [d, hstate])
  case stop =>
    intro hready
    exact makes_of_svc rfl hdom hready
  case stopTimeout =>
    intro hstate hpend
    exact makes_of_svc rfl hdom (by simp [d, hstate, hpend])

end Sys2Proof.Machine
end

section
/-! PROOF. The root opcodes: the packet accepted first is taken, its operation is carried out and it is answered; RESET's device
reset comes when its time is up (R215, R455 to R461, R693). -/

namespace Sys2Proof.Machine

/-- What the root sequencer leaves of device d once a packet's operation is done, with packets q still to come: the count, the last
opcode, the cause, whether more is to do, and the reply (R455, R461). -/
def rootAnswered (k : Packet) (q : List Packet) (op : Nat) (data : List Nat) (d : Dev) : Dev :=
  let d := ((d.incSat CP_ROOTCNT_COUNT).setF CP_ROOTCNT_LAST 0 op).set1 CP_CAUSE_ROOT
  finish (d.setF CP_STATUS_ROOT_BUSY 0 (b2i (q != []))) k stOk data

theorem State.onDev_onDev (s : State) (g h : Dev → Dev) : (s.onDev g).onDev h = s.onDev fun d => h (g d) := rfl

/-- The packet k at the front is taken, carried out by f and answered. -/
theorem rootServe_serves {s t : State} {k : Packet} {q : List Packet} {f : Packet → State → List Nat × State} {op : Nat}
    {data : List Nat} (hop : k.op = op) (hq : s.dev.rootq = k :: q) (hports : portsRun s.dev = true)
    (hf : f k (s.onDev fun d => { d with rootq := q }) = (data, t)) :
    rootServe op f s = t.onDev (rootAnswered k q op data) := by
  simp only [rootServe, hq, hports, hop, beq_self_eq_true, Bool.and_self, if_true, hf]
  rfl

/-- A root opcode's command, with its packet at the front: device operation g, and a reply of `data`. -/
theorem leads_of_rootServe {i : Instr} {s : State} {k : Packet} {q : List Packet} {f : Packet → State → List Nat × State}
    {op : Nat} {data : List Nat} {g : Dev → Dev} (hexec : exec i s = .next (rootServe op f s)) (hop : k.op = op)
    (hq : s.dev.rootq = k :: q) (hports : portsRun s.dev = true)
    (hf : let u := s.onDev fun d => { d with rootq := q }; f k u = (data, u.onDev g)) :
    let u := s.onDev fun d => { d with rootq := q }
    Leads i s (u.onDev fun d => rootAnswered k q op data (g d)) := by
  rw [Leads, hexec, rootServe_serves hop hq hports hf, State.onDev_onDev]

/-- The one-byte parameter of a packet that holds nothing else. -/
theorem par_singleton {k : Packet} {b : Nat} (hparams : k.params = [b]) (hbyte : b < 256) : par k 0 1 = b := by
  simp [par, hparams, leNat, Nat.mod_eq_of_lt hbyte]

/-! ### RESET (R456, R693) -/

theorem exec_rootReset (s : State) : exec .rootReset s = execRootReset s := rfl

/-- RESET is carried out once its packet is answered: at its time, and not before. -/
theorem rootReset_waits {s : State} (hanswered : s.dev.hon .rstAt = true) :
    Leads .rootReset s (if s.dev.hn .rstAt ≤ s.dev.now + 1 then devReset s PX_RSTSRC_ROOT else s) := by
  rw [Leads, exec_rootReset, execRootReset, if_pos hanswered]

theorem exec_rootReset_unanswered {s : State} (hnone : s.dev.hon .rstAt = false) :
    exec .rootReset s = .next (rootServe 0xF3 resetServe s) := by
  rw [exec_rootReset, execRootReset, hnone, if_neg Bool.false_ne_true]

/-- The packet's answer sets the time of the reset. -/
theorem resetServe_eq (k : Packet) (s : State) :
    resetServe k s = ([], s.onDev fun d =>
      d.setH .rstAt 0 (if k.flags.testBit 0 then d.now + 2000001 else k.stamp + 20001 : Nat)) := by
  simp only [resetServe, ite_add, Nat.add_assoc, Nat.reduceAdd]

/-! ### The statement -/

/-- Settles O45: each root opcode is the root sequencer's service of the packet at the front with the opcode's operation, and
RESET's second row goes by the time that its answer has set. -/
theorem rootOpcodes : Obligations.RootOpcodes := by
  unfold Obligations.RootOpcodes
  intro s k q hq hports
  refine ⟨?reset, fun hanswered => ⟨fun hdue => ?due, fun hearly => ?early⟩, ?allOff, ?canopy, ?latches, ?railOff, ?identity, ?ping⟩
  case reset =>
    rintro ⟨hnone, hop⟩
    exact leads_of_rootServe (exec_rootReset_unanswered hnone) hop hq hports (resetServe_eq ..)
  case due => simpa only [if_pos hdue] using rootReset_waits hanswered
  case early => simpa only [if_neg (Nat.not_le.2 hearly)] using rootReset_waits hanswered
  case railOff =>
    intro r hop hparams
    have hrail : par k 0 1 = r := par_singleton hparams (by omega)
    exact leads_of_rootServe rfl hop hq hports (by simp only [hrail])
  case allOff | canopy | latches | identity | ping => exact fun hop => leads_of_rootServe rfl hop hq hports rfl

end Sys2Proof.Machine
end

section
/-! PROOF. The decisions of the firebreak, each where its source has decided and not acted yet (R219 to R222, R227, R228, R235,
R237, R238, R242). -/

namespace Sys2Proof.Machine

/-! ### Events without a guard -/

/-- With its domain on, an event of a block in SVC that has no guard always acts. -/
theorem makes_of_svc_unguarded {i : Instr} {s : State} {g : Dev → Dev} (hexec : exec i s = s.svc g)
    (hdom : domOn s.dev 0 = true) : Makes i s g :=
  makes_of_svc (c := fun _ => true) hexec hdom rfl

/-! ### Device sources (R219) -/

/-- A device source whose output is 1 and that has not been decided takes its action. -/
theorem makes_of_devDecide {i : Instr} {s : State} {src : Nat} (hexec : exec i s = s.svc fun d => devDecide d src)
    (hdom : domOn s.dev 0 = true) (hout : (s.dev.f FB_DSTAT_SRC).testBit src = true) (hopen : s.dev.hn .devDone src ≠ 1) :
    Makes i s fun d => devAction (d.setH .devDone src 1) src :=
  makes_of_svc (c := fun d => (d.f FB_DSTAT_SRC).testBit src && d.hn .devDone src != 1) hexec hdom (by simp [hout, hopen])

/-! ### The comparator test (R235) -/

/-- Causes, test and margins of a rail are three registers. -/
theorem fbRailAddrs_apart : ∀ k : Rail,
    FB_RCAUSE.addr k ≠ FB_RTEST.addr k ∧ FB_RCAUSE.addr k ≠ FB_RADAPT.addr k := by decide

/-- The comparator test of rail k has ended, with every output seen (`ok`) or not. -/
def compTestEnded (d : Dev) (k : Nat) (ok : Bool) : Dev :=
  ((d.setF FB_RTEST_BUSY k 0).setF FB_RTEST_RES k (if ok then 1 else 2)).set1
    (if ok then FB_RCAUSE_TEST_DONE else FB_RCAUSE_TEST_FAIL) k

theorem compTestDone_makes {s : State} {k : Rail} (pass : Bool) (hdom : domOn s.dev 0 = true)
    (hbusy : s.dev.on FB_RTEST_BUSY k = true) :
    Makes (.compTestDone k pass) s fun d =>
      compTestEnded d k (if d.hn .testCnt k = 128 then d.hn .testSeen k == 15 else pass) := by
  have hmakes : Makes (.compTestDone k pass) s _ := makes_of_svc (c := fun d => d.on FB_RTEST_BUSY k) rfl hdom hbusy
  exact hmakes.congr (apply_ite (Dev.set1 _ · _) _ _ _).symm

/-- The end of the test shows itself, its result and the result's cause. -/
theorem compTestEnded_spec (d : Dev) (k : Rail) (ok : Bool) :
    (compTestEnded d k ok).on FB_RTEST_BUSY k = false
      ∧ (compTestEnded d k ok).f FB_RTEST_RES k = (if ok then 1 else 2)
      ∧ (compTestEnded d k ok).on (if ok then FB_RCAUSE_TEST_DONE else FB_RCAUSE_TEST_FAIL) k = true := by
  obtain ⟨hapart, -⟩ := fbRailAddrs_apart k
  have hcause : (if ok then FB_RCAUSE_TEST_DONE else FB_RCAUSE_TEST_FAIL).reg.addr k ≠ FB_RTEST.addr k := by
    cases ok <;> exact hapart
  refine ⟨?_, ?_, ?_⟩
  · rw [compTestEnded, on_set1_other _ hcause,
      Dev.on_setF_beside (F := FB_RTEST_RES) (G := FB_RTEST_BUSY) _ _ rfl (by decide) (by decide)]
    exact Dev.on_setF_zero d FB_RTEST_BUSY k (by decide)
  · rw [compTestEnded, Dev.f_set1_other _ hcause, Dev.f_setF_same _ FB_RTEST_RES k _ (by decide)]
    cases ok <;> rfl
  · exact Dev.on_set1 _ _ k (by cases ok <;> decide) (by cases ok <;> decide)

/-! ### Margin intervals (R242, R243) -/

/-- A field given a value that fits it reads as that value. -/
theorem Dev.f_setF_of_lt (d : Dev) {F : Fld} {i m : Nat} {v : Int} (h32 : F.lo + F.n ≤ 32) (hv : v = m) (hm : m < 2 ^ F.n) :
    (d.setF F i v).f F i = m := by
  rw [Dev.f_setF_same d F i v h32, hv, Int.emod_eq_of_lt (by positivity) (by exact_mod_cast hm), Int.toNat_natCast]

section Margin
variable (d : Dev) (k : Rail) (near : Hid) (fe base ceil : Fld)

/-- An interval clears the count of its comparator, and may give its fraction a new value, with the cause of R243 or without. -/
theorem marginStep_cases :
    let e := d.setH near k 0
    marginStep d k near fe base ceil = e
      ∨ ∃ v, marginStep d k near fe base ceil = e.setF fe k v
          ∨ marginStep d k near fe base ceil = (e.setF fe k v).set1 FB_RCAUSE_MARGIN k := by
  intro e
  unfold marginStep
  dsimp only
  split
  · exact .inl rfl
  · split
    · split
      · exact .inr ⟨_, .inr rfl⟩
      · exact .inr ⟨_, .inl rfl⟩
    · split
      · exact .inr ⟨_, .inl rfl⟩
      · exact .inl rfl

/-- Of the internal variables an interval clears the count of its comparator, and no other. -/
theorem h_marginStep (v : Hid) (j : Nat) : (marginStep d k near fe base ceil).h v j = (d.setH near k 0).h v j := by
  rcases marginStep_cases d k near fe base ceil with e | ⟨w, e | e⟩ <;> rw [e]
  · rw [Dev.setF_h]
  · rw [Dev.set1_h, Dev.setF_h]

/-- The fractions hold, by the model's test. -/
theorem marginHolds_iff : (!d.on FB_RADAPT_EN k || rlState d k != rlOn || d.on FL_STEER_GLADE k) = true
    ↔ ¬(d.on FB_RADAPT_EN k = true ∧ rlState d k = rlOn ∧ d.on FL_STEER_GLADE k = false) := by
  simp only [Bool.or_eq_true, Bool.not_eq_true', bne_iff_ne, not_and_or, Bool.not_eq_true, Bool.not_eq_false, or_assoc, ne_eq]

/-- While the fractions hold, an interval clears the count and does nothing else. -/
theorem marginStep_holds
    (hholds : ¬(d.on FB_RADAPT_EN k = true ∧ rlState d k = rlOn ∧ d.on FL_STEER_GLADE k = false)) :
    marginStep d k near fe base ceil = d.setH near k 0 :=
  if_pos ((marginHolds_iff d k).2 hholds)

/-- The fraction is one wider, with a cause where it reaches its ceiling. -/
def marginWidened (d : Dev) (k : Nat) (fe ceil : Fld) : Dev :=
  let e := d.setF fe k (d.f fe k + 1)
  if d.f fe k + 1 = e.f ceil k then e.set1 FB_RCAUSE_MARGIN k else e

/-- While they adapt, the fraction widens by near-misses below its ceiling, and narrows without any above its base. -/
theorem marginStep_adapts
    (hruns : d.on FB_RADAPT_EN k = true ∧ rlState d k = rlOn ∧ d.on FL_STEER_GLADE k = false) :
    marginStep d k near fe base ceil =
      if d.f FB_RADAPT_GTH k ≤ d.hn near k ∧ d.f fe k < d.f ceil k then marginWidened (d.setH near k 0) k fe ceil
      else if d.hn near k = 0 ∧ d.f base k < d.f fe k then (d.setH near k 0).setF fe k ((d.f fe k : Int) - 1)
      else d.setH near k 0 := by
  have hboth {p q : Prop} [Decidable p] [Decidable q] : (decide p && decide q) = true ↔ p ∧ q := by
    rw [Bool.and_eq_true_iff, decide_eq_true_iff, decide_eq_true_iff]
  exact (if_neg (mt (marginHolds_iff d k).1 (not_not_intro hruns))).trans
    (if_congr hboth rfl (if_congr hboth rfl rfl))

variable {fe ceil}

/-- Beside its own fraction an interval leaves the margins as they are. -/
theorem f_marginStep_beside {G : Fld} (hfe : fe.reg = FB_RADAPT) (hG : G.reg = FB_RADAPT)
    (hbits : fe.lo + fe.n ≤ G.lo ∨ G.lo + G.n ≤ fe.lo) (h32 : G.lo + G.n ≤ 32) :
    (marginStep d k near fe base ceil).f G k = d.f G k := by
  obtain ⟨-, hcause⟩ := fbRailAddrs_apart k
  have hfrac (e : Dev) (v : Int) : (e.setF fe k v).f G k = e.f G k := Dev.f_setF_beside e v (hfe.trans hG.symm) hbits h32
  have hmargin (e : Dev) : (e.set1 FB_RCAUSE_MARGIN k).f G k = e.f G k := Dev.f_set1_other e (hG ▸ hcause)
  rcases marginStep_cases d k near fe base ceil with e | ⟨v, e | e⟩ <;> rw [e]
  · rw [Dev.setH_f]
  · rw [hfrac, Dev.setH_f]
  · rw [hmargin, hfrac, Dev.setH_f]

theorem f_marginWidened (hfe : fe.reg = FB_RADAPT) (h32 : fe.lo + fe.n ≤ 32) (hroom : d.f fe k + 1 < 2 ^ fe.n) :
    (marginWidened d k fe ceil).f fe k = d.f fe k + 1 := by
  obtain ⟨-, hcause⟩ := fbRailAddrs_apart k
  have hfrac : (d.setF fe k (d.f fe k + 1)).f fe k = d.f fe k + 1 := Dev.f_setF_of_lt d h32 (Nat.cast_succ _).symm hroom
  unfold marginWidened
  dsimp only
  split
  · rw [Dev.f_set1_other _ (hfe ▸ hcause), hfrac]
  · exact hfrac

/-- The fraction that an interval leaves while the fractions adapt. -/
theorem f_marginStep_adapts (hfe : fe.reg = FB_RADAPT) (h32 : fe.lo + fe.n ≤ 32) (hceil : ceil.n = fe.n)
    (hruns : d.on FB_RADAPT_EN k = true ∧ rlState d k = rlOn ∧ d.on FL_STEER_GLADE k = false) :
    (marginStep d k near fe base ceil).f fe k =
      if d.f FB_RADAPT_GTH k ≤ d.hn near k ∧ d.f fe k < d.f ceil k then d.f fe k + 1
      else if d.hn near k = 0 ∧ d.f base k < d.f fe k then d.f fe k - 1 else d.f fe k := by
  have hfits : d.f fe k < 2 ^ fe.n := bitsOf_lt ..
  have hceilFits : d.f ceil k < 2 ^ fe.n := hceil ▸ bitsOf_lt ..
  rw [marginStep_adapts d k near fe base ceil hruns]
  split_ifs with hwide hnarrow
  · exact f_marginWidened _ k hfe h32 (by rw [Dev.setH_f]; omega)
  · exact Dev.f_setF_of_lt _ h32 (by omega) (by omega)
  · rfl

end Margin

/-- The end of a margin interval, for both comparators. -/
def marginEnded (d : Dev) (k : Nat) : Dev :=
  marginStep (marginStep d k .ovNear FB_RADAPT_OV_FE FB_RCFG_OV_F FB_RCFG_OV_CEIL) k .uvNear
    FB_RADAPT_UV_FE FB_RCFG_UV_F FB_RCFG_UV_CEIL

/-- Each comparator's count is clear. -/
theorem near_marginEnded (d : Dev) (k : Rail) : (marginEnded d k).h .ovNear k = 0 ∧ (marginEnded d k).h .uvNear k = 0 := by
  unfold marginEnded
  constructor
  · rw [h_marginStep, Dev.h_setH_other _ _ (.inl (by decide)), h_marginStep, Dev.h_setH_same]
  · rw [h_marginStep, Dev.h_setH_same]

/-- The under-voltage comparator, which comes second, leaves the over-voltage fraction. -/
theorem ovFraction_marginEnded (d : Dev) (k : Rail) :
    (marginEnded d k).f FB_RADAPT_OV_FE k
      = (marginStep d k .ovNear FB_RADAPT_OV_FE FB_RCFG_OV_F FB_RCFG_OV_CEIL).f FB_RADAPT_OV_FE k :=
  f_marginStep_beside _ k .uvNear _ rfl rfl (by decide) (by decide)

/-! ### The statement -/

/-- Settles O14: each event's guard is the state in which its source has decided and not acted, and its effect is what stands
behind the guard. -/
theorem firebreakDecisions : Obligations.FirebreakDecisions := by
  unfold Obligations.FirebreakDecisions
  intro s d hdom
  refine ⟨fun k => ⟨?ov, ?uv, ?abs, ?discharge, ?test, ?margin⟩, fun n => ⟨?hoc, ?hss⟩, ?device, ?die, ?crowbar, ?efuse⟩
  case ov | uv | abs =>
    intro hout hopen
    exact makes_of_svc rfl hdom (by simp [d, hout, hopen])
  case discharge =>
    intro tmo hmode hend
    exact makes_of_svc rfl hdom (by simpa [d, hmode] using hend)
  case test =>
    intro pass hbusy ok
    exact (compTestDone_makes pass hdom hbusy).acts (compTestEnded_spec d k ok)
  case margin =>
    intro g x runs
    have hmakes : Makes (.marginInterval k) s fun d => marginEnded d k := makes_of_svc_unguarded rfl hdom
    obtain ⟨hov, huv⟩ := near_marginEnded d k
    refine hmakes.acts ⟨hov, huv, fun hholds => ?_, fun hruns => ?_⟩
    · rw [marginEnded, marginStep_holds d k _ _ _ _ hholds, marginStep_holds (d.setH .ovNear k 0) k _ _ _ _ hholds]
    · rw [ovFraction_marginEnded]
      exact f_marginStep_adapts d k .ovNear _ rfl (by decide) rfl hruns
  case hoc =>
    intro hout hopen hpwm
    exact makes_of_svc (g := fun d => hocTrip d n) rfl hdom (by simp [d, hout, hopen, hpwm])
  case hss =>
    intro hcount
    exact makes_of_svc rfl hdom (decide_eq_true hcount)
  case device =>
    intro x hx hout hopen
    simp only [List.mem_cons, List.not_mem_nil, or_false] at hx
    rcases hx with rfl | rfl | rfl | rfl <;> exact makes_of_devDecide rfl hdom hout hopen
  case die => exact fun temps => makes_of_svc_unguarded rfl hdom
  case crowbar => exact fun j => makes_of_svc_unguarded rfl hdom
  case efuse => exact makes_of_svc_unguarded rfl hdom

end Sys2Proof.Machine
end

section
/-! PROOF. The energy store's own events, each in the state that calls for it: loop, ceiling, connection, removal, hold-up,
throttle and droop, charge sessions and the ramp of the limits (R261 to R283). -/

namespace Sys2Proof.Machine

/-! ### The loop (R261) -/

theorem storeCommit_makes {s : State} {n tap : Nat} (hdom : domOn s.dev 0 = true) (hlead : leadOf s.dev 16 = some n)
    (hvalley : valleyDue s.dev n = some tap) (hcommit : s.dev.h .commitAt 16 ≠ s.dev.now + 1) :
    Makes .storeCommit s storeCommit := by
  have hexec : exec .storeCommit s = execStoreCommit s := rfl
  simp [Makes, hexec, execStoreCommit, State.svc, State.ok, State.onDev, hdom, hlead, Dev.when, hvalley, hcommit]

/-! ### The store part of a granted intent (R265) -/

/-- Whether intent i is the one that STORE_PART_ARRIVAL names, with a store part that is now due to arrive, or to end. -/
def partDue (d : Dev) (k : Rail) (id : BitVec 16) (ends : Bool) (i : Intent) : Bool :=
  i.rail == k.val && i.slot == id.toNat / 256 % 4 && i.id == id.toNat % 256 && i.valid && 0 < i.part
    && decide ((if ends then i.arr + (i.dur : Int) * 2000 else i.arr) ≤ (d.now : Int)) && i.pt == (if ends then 1 else 0)

/-- What the event does with the first such intent. -/
def partArrival (d : Dev) (k : Rail) (id : BitVec 16) (ends : Bool) : Dev :=
  match d.intents.find? (partDue d k id ends) with
  | some i => partTurn d i ends
  | none => d

theorem partArrival_found {d : Dev} {k : Rail} {id : BitVec 16} {ends : Bool} {i : Intent}
    (hdue : d.intents.filter (partDue d k id ends) = [i]) : partArrival d k id ends = partTurn d i ends := by
  have hfind : d.intents.find? (partDue d k id ends) = some i := by rw [← List.head?_filter, hdue, List.head?_cons]
  rw [partArrival, hfind]

theorem storePartArrival_makes {s : State} {k : Rail} {id : BitVec 16} {ends : Bool} {i : Intent}
    (hdom : domOn s.dev 0 = true) (hdue : s.dev.intents.filter (partDue s.dev k id ends) = [i]) :
    Makes (.storePartArrival k id ends) s fun d => partTurn d i ends :=
  Makes.congr (g := fun d => partArrival d k id ends) (makes_of_svc_unguarded rfl hdom) (partArrival_found hdue)

/-! ### The release of the highest engaged droop level (R278) -/

/-- Droop level l is no longer engaged, and the duty caps of the rails that it holds begin to rise. -/
def levelReleased (l : Nat) (d : Dev) : Dev :=
  escShow ((d.setH .dLevel l 0).each 16 fun e k => if e.hon .dOn k && prioOf e k == l then e.setH .dRel k 1 else e) false

theorem droopRelease_makes {s : State} (hdom : domOn s.dev 0 = true) (hlevel : droopLevel s.dev ≠ 0)
    (hlong : s.dev.f ST_ESC_DREL * 10 ≤ s.dev.hn .dRelRun (droopLevel s.dev)) :
    Makes .droopRelease s fun d => levelReleased (droopLevel d) d := by
  have hexec : exec .droopRelease s = s.svc fun d =>
      d.when (droopLevel d != 0 && decide (d.f ST_ESC_DREL * 10 ≤ d.hn .dRelRun (droopLevel d)))
        (levelReleased (droopLevel d)) := rfl
  simp [Makes, hexec, State.svc, State.ok, State.onDev, hdom, Dev.when, hlevel, hlong]

/-! ### The charge session (R270) -/

theorem closeSession_closes (d : Dev) (code : Nat) : (closeSession d code).hon .sSession = false := by
  unfold closeSession
  split
  case isTrue hopen =>
    rw [Dev.hon, Dev.h_setH_other _ _ (.inl (by decide)), Dev.h_setH_same]
    rfl
  case isFalse hopen => exact Bool.eq_false_iff.2 hopen

/-! ### The ramp of the limits (R283) -/

/-- A step of the ramp: the limits rise, the ticks count again, and the ramp ends where it has reached both limits. -/
def rampStepped (d : Dev) : Dev :=
  let v := d.h .sRamp + d.f ST_REINS_RAMP
  let e := (d.setH .sRamp 0 v).setH .sRampTick 0 0
  if (e.f ST_ILIM_DIS_MAX : Int) ≤ v && (e.f ST_ILIM_CHG_MAX : Int) ≤ v then e.setH .sRamping 0 0 else e

theorem rampStepped_spec (d : Dev) :
    (rampStepped d).h .sRamp = d.h .sRamp + d.f ST_REINS_RAMP ∧ (rampStepped d).h .sRampTick = 0 := by
  let e := (d.setH .sRamp 0 (d.h .sRamp + d.f ST_REINS_RAMP)).setH .sRampTick 0 0
  have hramp : e.h .sRamp = d.h .sRamp + d.f ST_REINS_RAMP :=
    (Dev.h_setH_other _ _ (.inl (by decide))).trans (Dev.h_setH_same ..)
  have htick : e.h .sRampTick = 0 := Dev.h_setH_same ..
  have hends : rampStepped d = e.setH .sRamping 0 0 ∨ rampStepped d = e := ite_eq_or_eq ..
  have hkept (v : Hid) (hv : .sRamping ≠ v) : (rampStepped d).h v = e.h v := by
    rcases hends with hends | hgoes
    · rw [hends, Dev.h_setH_other _ _ (.inl hv)]
    · rw [hgoes]
  exact ⟨(hkept _ (by decide)).trans hramp, (hkept _ (by decide)).trans htick⟩

/-! ### The statement -/

/-- Settles O15: each event's guard is the state that calls for it, and its effect is what stands behind the guard. -/
theorem storeEvents : Obligations.StoreEvents := by
  unfold Obligations.StoreEvents
  intro s d hdom
  refine ⟨?commit, ?ceiling, ?part, ?inserted, ?removed, ?qualified, ?heldUp, ?throttle, ?droop, ?effect, ?release, ?session,
    ?ramp⟩
  case commit => exact fun n tap hlead hvalley hcommit => storeCommit_makes hdom hlead hvalley hcommit
  case ceiling => exact fun codes vbus th => makes_of_svc_unguarded rfl hdom
  case part => exact fun k id ends i hdue => storePartArrival_makes hdom hdue
  case inserted | removed => exact makes_of_svc_unguarded rfl hdom
  case qualified =>
    intro hstate hsane
    exact makes_of_svc rfl hdom (by simp [d, hstate, hsane])
  case heldUp =>
    intro hstate hlong
    exact makes_of_svc rfl hdom (by simp [d, hstate, hlong])
  case throttle => exact fun hlong => makes_of_svc rfl hdom (decide_eq_true hlong)
  case droop =>
    intro hlim hlong
    exact makes_of_svc (g := droopStep) rfl hdom (by simp [d, hlim, hlong])
  case effect =>
    intro l hpend
    have hmakes : Makes (.droopEffect l) s _ := makes_of_svc (c := fun d => d.hon .dEffPend l) rfl hdom hpend
    exact hmakes.acts ⟨(Dev.h_setH_other _ _ (.inl (by decide))).trans (Dev.h_setH_same ..), Dev.h_setH_same ..⟩
  case release => exact fun hlevel hlong => droopRelease_makes hdom hlevel hlong
  case session =>
    intro hopen hidle
    have hmakes : Makes .chargeSessionStopped s fun d => closeSession d 3 := makes_of_svc rfl hdom (by simp [d, hopen, hidle])
    exact hmakes.acts (closeSession_closes _ _)
  case ramp =>
    intro hramping hten
    have hmakes : Makes .limitRampStep s rampStepped := makes_of_svc (g := rampStepped) rfl hdom (by simp [d, hramping, hten])
    exact hmakes.acts (rampStepped_spec _)

end Sys2Proof.Machine
end

section
/-! PROOF. Writes to the registers of the store, the lanes, the coupled rails and the converters that enable, disable, test,
retrain, trigger, stop or clear (R259, R274, R279, R280, R297, R317, R323, R363, R370, R377, R382, R391). -/

namespace Sys2Proof.Machine

/-! ### What the blocks do with these registers -/

/-- What becomes of EN in a write of LN_CTL of lane i, which has stored `e` over `d`: at a bond member the bit is refused
(R317). -/
def laneEnTaken (d e : Dev) (i : Nat) (en : Bool) : Dev :=
  if isMember d i then e.set1 LN_CAUSE_ACC_ERR i
  else if en then (if d.on LN_CTL_EN i then e else laneEnable e i) else laneDisable e i

/-- LN_TEST of lane i has taken word x, but for the errors, which are counted up to now (R323). -/
def testTaken (d : Dev) (i : Nat) (x : Word) : Dev :=
  let c := testCount d i
  c.setR LN_TEST i (putBits x LN_TEST_ERRS.lo LN_TEST_ERRS.n (c.f LN_TEST_ERRS i))

/-- What becomes of EN in a write of TC_CTL of converter c: it is enabled, or a running one is disabled (R370, R382). -/
def tcEnTaken (d : Dev) (c : Nat) (en : Bool) : Dev :=
  if en then tcEnable d c else if d.on TC_CTL_EN c then tcDisable d c else d

/-- A running converter is not enabled again. -/
theorem tcEnable_running {d : Dev} {c : Nat} (hon : d.on TC_CTL_EN c = true) : tcEnable d c = d := by
  rw [tcEnable, if_pos hon]

theorem tcEnTaken_eq (d : Dev) (c : Nat) (en : Bool) :
    tcEnTaken d c en =
      if en && !d.on TC_CTL_EN c then tcEnable d c else if !en && d.on TC_CTL_EN c then tcDisable d c else d := by
  cases en with
  | false => simp [tcEnTaken]
  | true =>
    cases hon : d.on TC_CTL_EN c with
    | false => simp [tcEnTaken]
    | true => simp [tcEnTaken, tcEnable_running hon]

/-- EN written as it is changes nothing. -/
theorem tcEnTaken_same (d : Dev) (c : Nat) : tcEnTaken d c (d.on TC_CTL_EN c) = d := by
  cases hon : d.on TC_CTL_EN c <;> simp [tcEnTaken_eq, hon]

section Blocks
variable (d : Dev) (i : Nat) (w x : Word)

theorem stWrite_ctl :
    stWrite d ST_CTL 0 w x = storeEn (d.setR ST_CTL 0 (putBits x 0 1 (d.f ST_CTL_EN))) (valOf w ST_CTL_EN != 0) := rfl

theorem stWrite_ceil :
    stWrite d ST_CEIL 0 w x =
      if ceilRefused d (valOf w ST_CEIL_LIM) (valOf w ST_CEIL_ALLOW_PM) then d.set1 ST_CAUSE_CFG_ERR
      else d.setR ST_CEIL 0 x := rfl

theorem stWrite_allow : stWrite d ST_ALLOW 0 w x = allowWrite (d.setR ST_ALLOW 0 x) := rfl

theorem lnWrite_ctl :
    lnWrite d LN_CTL i w x =
      (let e := laneEnTaken d (d.setR LN_CTL i (putBits x 0 1 (d.f LN_CTL_EN i))) i (valOf w LN_CTL_EN != 0)
       let L := leadLane e i
       let e := if valOf w LN_CTL_RETRAIN != 0 && e.f LN_STATUS_STATE L = lnActive then linkDown e L else e
       if valOf w LN_CTL_CLRCNT != 0 then (e.setR LN_ERRCNT i 0).setR LN_DOWNCNT i 0 else e) := rfl

theorem lnWrite_test :
    lnWrite d LN_TEST i w x =
      (let c := testCount d i
       let e := testTaken d i x
       let e := if c.f LN_STATUS_STATE i = lnTest && valOf x LN_TEST_PAT != c.f LN_TEST_PAT i then prbsSeed e i else e
       if valOf x LN_TEST_EN ≠ c.f LN_TEST_EN i then laneTest e i (valOf x LN_TEST_EN != 0) else e) := by
  have hother : LN_TEST ≠ LN_CTL := by decide
  simp [lnWrite, testTaken, hother]

theorem igWrite_cplCmd :
    igWrite d IG_CPLCMD i w x =
      (let e := if valOf w IG_CPLCMD_CARRY != 0 then carryRequest d i else d
       if valOf w IG_CPLCMD_REJOIN != 0 then rejoinRequest e i else e) := rfl

theorem tcWrite_ctl :
    tcWrite d TC_CTL i w x =
      (let d := tcEnTaken d i (valOf w TC_CTL_EN != 0)
       let d := if valOf w TC_CTL_ABORT != 0 then tcAbort d i else d
       let d := if valOf w TC_CTL_GO != 0 then tcTrigger d i else d
       if valOf w TC_CTL_CLRCNT != 0 then d.setR TC_CNT i 0 else d) := by
  rw [tcEnTaken_eq]
  rfl

end Blocks

/-- The registers that these commands write, with the number of their copies. -/
@[reducible] def writtenRegs : List (RegRow × Nat) :=
  [(row_ST_CTL, 1), (row_ST_CEIL, 1), (row_ST_ALLOW, 1), (row_LN_CTL, 12), (row_LN_TEST, 12), (row_IG_CPLCMD, 16),
    (row_TC_CTL, 8)]

theorem writtenRegs_direct : ∀ x ∈ writtenRegs, ∀ j, j < x.2 → Mapped x.1 j ∧ Direct x.1 j := by decide +kernel

theorem reg_stCtl : Mapped row_ST_CTL 0 ∧ Direct row_ST_CTL 0 :=
  writtenRegs_direct (row_ST_CTL, 1) (by simp) 0 (by decide)
theorem reg_stCeil : Mapped row_ST_CEIL 0 ∧ Direct row_ST_CEIL 0 :=
  writtenRegs_direct (row_ST_CEIL, 1) (by simp) 0 (by decide)
theorem reg_stAllow : Mapped row_ST_ALLOW 0 ∧ Direct row_ST_ALLOW 0 :=
  writtenRegs_direct (row_ST_ALLOW, 1) (by simp) 0 (by decide)
theorem reg_lnCtl (l : Lane) : Mapped row_LN_CTL l ∧ Direct row_LN_CTL l :=
  writtenRegs_direct (row_LN_CTL, 12) (by simp) l l.isLt
theorem reg_lnTest (l : Lane) : Mapped row_LN_TEST l ∧ Direct row_LN_TEST l :=
  writtenRegs_direct (row_LN_TEST, 12) (by simp) l l.isLt
theorem reg_cplCmd (k : Rail) : Mapped row_IG_CPLCMD k ∧ Direct row_IG_CPLCMD k :=
  writtenRegs_direct (row_IG_CPLCMD, 16) (by simp) k k.isLt
theorem reg_tcCtl (c : Fin 8) : Mapped row_TC_CTL c ∧ Direct row_TC_CTL c :=
  writtenRegs_direct (row_TC_CTL, 8) (by simp) c c.isLt

/-! ### The words written and taken -/

/-- A word of which one field is given back the bits that it had. -/
theorem putBits_bitsOf {x w : Word} {lo n : Nat}
    (hbeside : ∀ i, i < 32 → ¬(lo ≤ i ∧ i < lo + n) → x.getLsbD i = w.getLsbD i) : putBits x lo n (bitsOf w lo n : Nat) = w := by
  refine BitVec.eq_of_getLsbD_eq fun i hi => ?_
  rw [getLsbD_putBits _ _ _ _ _ hi]
  split
  case isTrue hin =>
    have hshift : lo + (i - lo) = i := by omega
    rw [BitVec.ofInt_natCast, BitVec.getLsbD_ofNat, testBit_bitsOf, hshift]
    simp [show i - lo < 32 by omega, show i - lo < n by omega]
  case isFalse hout => exact hbeside i hi hout

section FieldWrite
variable {row : RegRow} {j : Nat} {F G : Fld} (d : Dev) (v : Int)

/-- A write of a write-only field leaves the register's word as it is. -/
theorem newWord_fieldWord_wo (hrow : FieldsApart row) (hmap : Mapped row j) (hF : F ∈ row.fields) (hwo : F.acc = .wo) :
    newWord d row j (fieldWord d F j v) = d.r row.reg j := by
  have htaken : takenValue d row j (fieldWord d F j v) F (d.f F j) = d.f F j := by simp only [takenValue, hwo]
  rw [newWord_fieldWord d v hrow hmap hF, htaken, Dev.f, (hrow.1 F hF).1]
  exact putBits_bitsOf fun _ _ _ => rfl

/-- The word that is left where a block keeps its enable bit back from a write of that bit. -/
theorem putBits_newWord_same (hrow : FieldsApart row) (hmap : Mapped row j) (hF : F ∈ row.fields) :
    putBits (newWord d row j (fieldWord d F j v)) F.lo F.n (d.f F j) = d.r row.reg j := by
  rw [newWord_fieldWord d v hrow hmap hF, Dev.f, (hrow.1 F hF).1]
  exact putBits_bitsOf fun i hi hout => by rw [getLsbD_putBits _ _ _ _ _ hi, if_neg hout]

/-- The same for a write of a write-only bit beside it. -/
theorem putBits_newWord_wo (hrow : FieldsApart row) (hmap : Mapped row j) (hF : F ∈ row.fields) (hG : G ∈ row.fields)
    (hwo : F.acc = .wo) : putBits (newWord d row j (fieldWord d F j v)) G.lo G.n (d.f G j) = d.r row.reg j := by
  rw [newWord_fieldWord_wo d v hrow hmap hF hwo, Dev.f, (hrow.1 G hG).1]
  exact putBits_bitsOf fun _ _ _ => rfl

/-- A write-only field is written 0 where another field is written. -/
theorem valOf_fieldWord_command (hrow : FieldsApart row) (hmap : Mapped row j) (hF : F ∈ row.fields) (hG : G ∈ row.fields)
    (hFG : F ≠ G) (hwo : G.acc = .wo) : valOf (fieldWord d F j v) G = 0 := by
  rw [valOf_fieldWord_beside d v hrow hmap hF hG hFG, if_pos (by simp [clearedField, hwo])]

/-- A read-write field is written as it was read where another field is written. -/
theorem valOf_fieldWord_kept (hrow : FieldsApart row) (hmap : Mapped row j) (hF : F ∈ row.fields) (hG : G ∈ row.fields)
    (hFG : F ≠ G) (hrw : G.acc = .rw ∨ G.acc = .rwl) : valOf (fieldWord d F j v) G = d.f G j := by
  rw [valOf_fieldWord_beside d v hrow hmap hF hG hFG, if_neg (by rcases hrw with h | h <;> simp [clearedField, h])]

/-- A one-bit field is written as the bit that a command asks for. -/
theorem valOf_fieldWord_bit (hrow : FieldsApart row) (hF : F ∈ row.fields) (hn : F.n = 1) (b : Bool) :
    valOf (fieldWord d F j (b2i b)) F = b.toNat := by
  rw [valOf_fieldWord_same d _ hrow hF, hn]
  cases b <;> rfl

theorem fieldWord_asks (hrow : FieldsApart row) (hF : F ∈ row.fields) (hn : F.n = 1) (b : Bool) :
    (valOf (fieldWord d F j (b2i b)) F != 0) = b := by
  rw [valOf_fieldWord_bit d hrow hF hn b]
  cases b <;> rfl

end FieldWrite

/-! ### The store (R259, R274, R279, R280) -/

/-- A command that writes EN of the store does what the bit asks for. -/
theorem storeEn_writes {i : Instr} {s : State} {who : Initiator} {b : Bool}
    (hexec : exec i s = storeF s who ST_CTL_EN 0 (b2i b)) :
    Writes i s who row_ST_CTL 0 (fieldWord s.dev ST_CTL_EN 0 (b2i b)) fun d =>
      storeEn (d.setR ST_CTL 0 (d.r ST_CTL)) b := by
  refine writes_of_block (b := fun d x => stWrite d ST_CTL 0 _ x) reg_stCtl hexec (fun _ => rfl) fun _ => ?_
  have hrow : FieldsApart row_ST_CTL := by decide
  have hasks : (valOf (fieldWord s.dev ST_CTL_EN 0 (b2i b)) ST_CTL_EN != 0) = b :=
    fieldWord_asks s.dev hrow (by decide) rfl b
  have hstored : putBits (newWord s.dev row_ST_CTL 0 (fieldWord s.dev ST_CTL_EN 0 (b2i b))) 0 1 (s.dev.f ST_CTL_EN)
      = s.dev.r ST_CTL := putBits_newWord_same (F := ST_CTL_EN) s.dev (b2i b) hrow reg_stCtl.1 (by decide)
  rw [stWrite_ctl, hstored, hasks]

theorem ceilWrite_writes (s : State) (who : Initiator) (data : Word) :
    Writes (.ceilWrite who data) s who row_ST_CEIL 0 data fun d =>
      if ceilRefused d (bitsOf data 0 16) (bitsOf data 16 10) then d.set1 ST_CAUSE_CFG_ERR else took d row_ST_CEIL 0 data :=
  writes_of_block (b := fun d x => stWrite d ST_CEIL 0 data x) reg_stCeil rfl (fun _ => rfl) fun _ => stWrite_ceil ..

theorem allowWrite_writes (s : State) (who : Initiator) (data : Word) :
    Writes (.allowWrite who data) s who row_ST_ALLOW 0 data fun d =>
      (took d row_ST_ALLOW 0 data).setR ST_BUCKET 0 (BitVec.ofNat 32 (bitsOf data 0 16 * 65536)) := by
  refine writes_of_block (b := fun d x => stWrite d ST_ALLOW 0 data x) reg_stAllow rfl (fun _ => rfl) fun _ => ?_
  have htook : (took s.dev row_ST_ALLOW 0 data).f ST_ALLOW_T = bitsOf data 0 16 :=
    (f_took (by decide) s.dev 0 data (by decide)).trans (takenValue_rw rfl)
  rw [stWrite_allow, ← htook]
  rfl

/-! ### Coupled rails (R363) -/

theorem carryRequest_writes (s : State) (who : Initiator) (k : Rail) :
    Writes (.carryRequest who k) s who row_IG_CPLCMD k (fieldWord s.dev IG_CPLCMD_CARRY k 1) fun d => carryRequest d k := by
  refine writes_of_block (b := fun d x => igWrite d IG_CPLCMD k _ x) (reg_cplCmd k) rfl (fun _ => rfl) fun _ => ?_
  have hrow : FieldsApart row_IG_CPLCMD := by decide
  have hcarry : valOf (fieldWord s.dev IG_CPLCMD_CARRY k 1) IG_CPLCMD_CARRY = 1 := valOf_fieldWord_same s.dev 1 hrow (by decide)
  have hrejoin : valOf (fieldWord s.dev IG_CPLCMD_CARRY k 1) IG_CPLCMD_REJOIN = 0 :=
    valOf_fieldWord_command s.dev 1 hrow (reg_cplCmd k).1 (by decide) (by decide) (by decide) rfl
  rw [igWrite_cplCmd, hcarry, hrejoin]
  rfl

theorem rejoinRequest_writes (s : State) (who : Initiator) (k : Rail) :
    Writes (.rejoinRequest who k) s who row_IG_CPLCMD k (fieldWord s.dev IG_CPLCMD_REJOIN k 1) fun d => rejoinRequest d k := by
  refine writes_of_block (b := fun d x => igWrite d IG_CPLCMD k _ x) (reg_cplCmd k) rfl (fun _ => rfl) fun _ => ?_
  have hrow : FieldsApart row_IG_CPLCMD := by decide
  have hrejoin : valOf (fieldWord s.dev IG_CPLCMD_REJOIN k 1) IG_CPLCMD_REJOIN = 1 :=
    valOf_fieldWord_same s.dev 1 hrow (by decide)
  have hcarry : valOf (fieldWord s.dev IG_CPLCMD_REJOIN k 1) IG_CPLCMD_CARRY = 0 :=
    valOf_fieldWord_command s.dev 1 hrow (reg_cplCmd k).1 (by decide) (by decide) (by decide) rfl
  rw [igWrite_cplCmd, hcarry, hrejoin]
  rfl

/-! ### Converters (R370, R377, R382, R391) -/

/-- The command bits of TC_CTL. -/
@[reducible] def tcCommands : List Fld := [TC_CTL_GO, TC_CTL_ABORT, TC_CTL_CLRCNT]

theorem tcCommands_spec : ∀ F ∈ tcCommands, F ∈ row_TC_CTL.fields ∧ F ≠ TC_CTL_EN ∧ F.acc = .wo ∧ F.n = 1 := by decide

/-- A command that writes EN of a converter does what the bit asks for. -/
theorem tcEn_writes {i : Instr} {s : State} {who : Initiator} {c : Fin 8} {b : Bool}
    (hexec : exec i s = storeF s who TC_CTL_EN c (b2i b)) :
    Writes i s who row_TC_CTL c (fieldWord s.dev TC_CTL_EN c (b2i b)) fun d => tcEnTaken d c b := by
  refine writes_of_block (b := fun d x => tcWrite d TC_CTL c _ x) (reg_tcCtl c) hexec (fun _ => rfl) fun _ => ?_
  have hrow : FieldsApart row_TC_CTL := by decide
  have hasks : (valOf (fieldWord s.dev TC_CTL_EN c (b2i b)) TC_CTL_EN != 0) = b :=
    fieldWord_asks s.dev hrow (by decide) rfl b
  have hcommand (G : Fld) (hG : G ∈ tcCommands) : valOf (fieldWord s.dev TC_CTL_EN c (b2i b)) G = 0 := by
    obtain ⟨hmem, hne, hwo, -⟩ := tcCommands_spec G hG
    exact valOf_fieldWord_command s.dev _ hrow (reg_tcCtl c).1 (by decide) hmem hne.symm hwo
  rw [tcWrite_ctl, hasks, hcommand TC_CTL_ABORT (by decide), hcommand TC_CTL_GO (by decide),
    hcommand TC_CTL_CLRCNT (by decide)]
  rfl

/-- A command bit of TC_CTL is written alone. -/
theorem valOf_tcCommand (d : Dev) (c : Fin 8) {F G : Fld} (hF : F ∈ tcCommands) (hG : G ∈ tcCommands) :
    valOf (fieldWord d F c 1) G = if F = G then 1 else 0 := by
  have hrow : FieldsApart row_TC_CTL := by decide
  obtain ⟨hFrow, -, -, hFn⟩ := tcCommands_spec F hF
  obtain ⟨hGrow, -, hGwo, -⟩ := tcCommands_spec G hG
  split
  case isTrue hFG => rw [← hFG, valOf_fieldWord_same d 1 hrow hFrow, hFn]; rfl
  case isFalse hFG => exact valOf_fieldWord_command d 1 hrow (reg_tcCtl c).1 hFrow hGrow hFG hGwo

/-- What the block does with a command bit of TC_CTL: trigger (R377), stop (R382) or the clear of the counts (R391). -/
def tcCommand (F : Fld) (d : Dev) (c : Nat) : Dev :=
  if F = TC_CTL_GO then tcTrigger d c else if F = TC_CTL_ABORT then tcAbort d c else d.setR TC_CNT c 0

/-- A command that writes a command bit of TC_CTL alone does what the bit commands, and leaves EN as it is. -/
theorem tcCommand_writes {i : Instr} {s : State} {who : Initiator} {c : Fin 8} {F : Fld} (hF : F ∈ tcCommands)
    (hexec : exec i s = storeReg s who TC_CTL c (fieldWord s.dev F c 1)) :
    Writes i s who row_TC_CTL c (fieldWord s.dev F c 1) fun d => tcCommand F d c := by
  refine writes_of_block (b := fun d x => tcWrite d TC_CTL c _ x) (reg_tcCtl c) hexec (fun _ => rfl) fun _ => ?_
  obtain ⟨hFrow, hFen, -, -⟩ := tcCommands_spec F hF
  have hen : (valOf (fieldWord s.dev F c 1) TC_CTL_EN != 0) = s.dev.on TC_CTL_EN c :=
    congrArg (· != 0) (valOf_fieldWord_kept s.dev 1 (by decide) (reg_tcCtl c).1 hFrow (by decide) hFen (.inl rfl))
  rw [tcWrite_ctl, hen, tcEnTaken_same, valOf_tcCommand _ _ hF (by decide), valOf_tcCommand _ _ hF (by decide),
    valOf_tcCommand _ _ hF (by decide)]
  have hcases : F = TC_CTL_GO ∨ F = TC_CTL_ABORT ∨ F = TC_CTL_CLRCNT := by simpa using hF
  rcases hcases with rfl | rfl | rfl
  · rfl
  · rfl
  · rfl

/-! ### Lanes: what a write of LN_CTL or LN_TEST leaves alone -/

/-- A register of which each lane has one copy. -/
@[reducible] def PerLane (R : Reg) : Prop := R.n2 = 1 ∧ R.s1 = 0x800

/-- Two such registers share no address, whichever lanes the copies are of. -/
theorem perLane_apart {R Q : Reg} (i j : Nat) (hR : PerLane R) (hQ : PerLane Q) (h : R.base % 0x800 ≠ Q.base % 0x800) :
    R.addr i ≠ Q.addr j := by
  obtain ⟨hRn, hRs⟩ := hR
  obtain ⟨hQn, hQs⟩ := hQ
  simp only [Reg.addr, hRn, hRs, hQn, hQs, Nat.div_one, Nat.mod_one]
  omega

theorem leadLane_congr {d e : Dev} (l : Nat) (h : ∀ j, e.f LN_CFG_WIDTH j = d.f LN_CFG_WIDTH j) :
    leadLane e l = leadLane d l := by
  simp only [leadLane, h]

theorem leadLane_of_not_member {d : Dev} {l : Nat} (h : isMember d l = false) : leadLane d l = l := by
  simpa [isMember] using h

/-- The count of errors brought up to now: nothing, or a new value of ERRS and the next free value (R323). -/
theorem testCount_eq (d : Dev) (l : Nat) :
    testCount d l = d ∨ ∃ v n, testCount d l = ({ d with fresh := n } : Dev).setF LN_TEST_ERRS l v := by
  unfold testCount
  split
  · exact .inr ⟨_, _, rfl⟩
  · exact .inl rfl

theorem f_testCount_other (d : Dev) (l j : Nat) {G : Fld} (h : LN_TEST.addr l ≠ G.reg.addr j) :
    (testCount d l).f G j = d.f G j := by
  rcases testCount_eq d l with he | ⟨v, n, he⟩
  · rw [he]
  · rw [he, Dev.f_setF_other _ v h]; rfl

theorem f_testCount_beside (d : Dev) (l : Nat) {G : Fld} (hreg : G.reg = LN_TEST) (hlo : G.lo + G.n ≤ 16) :
    (testCount d l).f G l = d.f G l := by
  rcases testCount_eq d l with he | ⟨v, n, he⟩
  · rw [he]
  · have h32 : G.lo + G.n ≤ 32 := by omega
    rw [he, Dev.f_setF_beside (F := LN_TEST_ERRS) _ v hreg.symm (.inr hlo) h32]; rfl

/-- The test register of a lane takes no part in the lane's state. -/
theorem state_testTaken (d : Dev) (l : Nat) (x : Word) : (testTaken d l x).f LN_STATUS_STATE l = d.f LN_STATUS_STATE l := by
  have hapart : LN_TEST.addr l ≠ LN_STATUS_STATE.reg.addr l := perLane_apart l l (by decide) (by decide) (by decide)
  rw [testTaken, Dev.f_setR_other _ _ hapart, f_testCount_other d l l hapart]

/-! ### Lanes: LN_CTL (R297, R317, R323) -/

/-- A command that stores a word to a register of a lane does what the lanes' block does with it, and the queue manager takes
what that brings in. -/
theorem stores_of_lane {i : Instr} {s : State} {who : Initiator} {row : RegRow} {j : Nat} {w : Word} {g : Dev → Dev}
    (hreg : Mapped row j ∧ Direct row j) (hexec : exec i s = storeReg s who row.reg j w)
    (hblock : ∀ x, blockWrite s who row.reg j w x = qSettle (s.onDev fun d => lnWrite d row.reg j w x))
    (hdev : lnWrite s.dev row.reg j w (newWord s.dev row j w) = g s.dev) :
    Stores i s who row j w fun s => qSettle (s.onDev g) := by
  intro hacc
  obtain ⟨⟨hr, h4, ha⟩, htrail, hq, hdb⟩ := hreg
  obtain ⟨h1, h2, h3⟩ := not_trailReg htrail
  have hsame : s.onDev (fun d => lnWrite d row.reg j w (newWord s.dev row j w)) = s.onDev g := by
    rw [State.onDev, State.onDev, hdev]
  rw [hexec, storeReg_accepted hacc hr h4 ha h1 h2 h3 hq hdb, hblock, hsame]

/-- LN_CTL of lane l is stored as it was. -/
def lnCtlSame (d : Dev) (l : Nat) : Dev := d.setR LN_CTL l (d.r LN_CTL l)

/-- The store leaves the other registers of the lanes. -/
theorem f_lnCtlSame (d : Dev) (l j : Nat) {G : Fld} (hG : PerLane G.reg) (h : G.reg.base % 0x800 ≠ 0) :
    (lnCtlSame d l).f G j = d.f G j :=
  Dev.f_setR_other _ _ (perLane_apart l j (by decide) hG h.symm)

theorem f_lnCtlSame_accErr (d : Dev) (l j : Nat) {G : Fld} (hG : PerLane G.reg) (h : G.reg.base % 0x800 ≠ 0)
    (hcause : G.reg.base % 0x800 ≠ 0x60) : ((lnCtlSame d l).set1 LN_CAUSE_ACC_ERR l).f G j = d.f G j :=
  (Dev.f_set1_other (F := LN_CAUSE_ACC_ERR) _ (perLane_apart l j (by decide) hG hcause.symm)).trans (f_lnCtlSame d l j hG h)

section LnCtl
variable (d : Dev) (l : Lane)

/-- EN of a lane is written alone. -/
theorem lnWrite_en (b : Bool) :
    let w := fieldWord d LN_CTL_EN l (b2i b)
    lnWrite d LN_CTL l w (newWord d row_LN_CTL l w) = laneEnTaken d (lnCtlSame d l) l b := by
  intro w
  have hrow : FieldsApart row_LN_CTL := by decide
  have hstored : putBits (newWord d row_LN_CTL l w) 0 1 (d.f LN_CTL_EN l) = d.r LN_CTL l :=
    putBits_newWord_same (F := LN_CTL_EN) d _ hrow (reg_lnCtl l).1 (by decide)
  have hasks : (valOf w LN_CTL_EN != 0) = b := fieldWord_asks d hrow (by decide) rfl b
  have hretrain : valOf w LN_CTL_RETRAIN = 0 :=
    valOf_fieldWord_command d _ hrow (reg_lnCtl l).1 (by decide) (by decide) (by decide) rfl
  have hclear : valOf w LN_CTL_CLRCNT = 0 :=
    valOf_fieldWord_command d _ hrow (reg_lnCtl l).1 (by decide) (by decide) (by decide) rfl
  rw [lnWrite_ctl, hstored, hasks, hretrain, hclear]
  rfl

/-- What is written to EN and stored where a command bit F of LN_CTL is written alone: what was there. -/
theorem lnCommand_kept {F : Fld} (hF : F ∈ row_LN_CTL.fields) (hwo : F.acc = .wo) :
    let w := fieldWord d F l 1
    putBits (newWord d row_LN_CTL l w) 0 1 (d.f LN_CTL_EN l) = d.r LN_CTL l
      ∧ (valOf w LN_CTL_EN != 0) = d.on LN_CTL_EN l := by
  have hrow : FieldsApart row_LN_CTL := by decide
  have hne : F ≠ LN_CTL_EN := by rintro rfl; exact absurd hwo (by decide)
  exact ⟨putBits_newWord_wo (G := LN_CTL_EN) d 1 hrow (reg_lnCtl l).1 hF (by decide) hwo,
    congrArg (· != 0) (valOf_fieldWord_kept d 1 hrow (reg_lnCtl l).1 hF (by decide) hne (.inl rfl))⟩

theorem lnWrite_retrain :
    let w := fieldWord d LN_CTL_RETRAIN l 1
    let e := laneEnTaken d (lnCtlSame d l) l (d.on LN_CTL_EN l)
    lnWrite d LN_CTL l w (newWord d row_LN_CTL l w) =
      if e.f LN_STATUS_STATE (leadLane e l) = lnActive then linkDown e (leadLane e l) else e := by
  intro w e
  have hrow : FieldsApart row_LN_CTL := by decide
  obtain ⟨hstored, hen⟩ := lnCommand_kept d l (F := LN_CTL_RETRAIN) (by decide) rfl
  have hretrain : valOf w LN_CTL_RETRAIN = 1 := valOf_fieldWord_same d 1 hrow (by decide)
  have hclear : valOf w LN_CTL_CLRCNT = 0 :=
    valOf_fieldWord_command d _ hrow (reg_lnCtl l).1 (by decide) (by decide) (by decide) rfl
  rw [lnWrite_ctl, hstored, hen, hretrain, hclear]
  exact (if_neg (by decide)).trans (if_congr (by simp [e, lnCtlSame]) rfl rfl)

theorem lnWrite_clrcnt :
    let w := fieldWord d LN_CTL_CLRCNT l 1
    lnWrite d LN_CTL l w (newWord d row_LN_CTL l w) =
      ((laneEnTaken d (lnCtlSame d l) l (d.on LN_CTL_EN l)).setR LN_ERRCNT l 0).setR LN_DOWNCNT l 0 := by
  intro w
  have hrow : FieldsApart row_LN_CTL := by decide
  obtain ⟨hstored, hen⟩ := lnCommand_kept d l (F := LN_CTL_CLRCNT) (by decide) rfl
  have hclear : valOf w LN_CTL_CLRCNT = 1 := valOf_fieldWord_same d 1 hrow (by decide)
  have hretrain : valOf w LN_CTL_RETRAIN = 0 :=
    valOf_fieldWord_command d _ hrow (reg_lnCtl l).1 (by decide) (by decide) (by decide) rfl
  rw [lnWrite_ctl, hstored, hen, hretrain, hclear]
  rfl

end LnCtl

/-! ### The commands to LN_CTL -/

theorem laneEnTaken_member {d : Dev} {l : Nat} (e : Dev) (en : Bool) (h : isMember d l = true) :
    laneEnTaken d e l en = e.set1 LN_CAUSE_ACC_ERR l := by
  rw [laneEnTaken, if_pos h]

theorem laneEnTaken_running {d : Dev} {l : Nat} (e : Dev) (h : isMember d l = false) (hon : d.on LN_CTL_EN l = true) :
    laneEnTaken d e l true = e := by
  simp [laneEnTaken, h, hon]

theorem laneEnTaken_enable {d : Dev} {l : Nat} (e : Dev) (h : isMember d l = false) (hoff : d.on LN_CTL_EN l = false) :
    laneEnTaken d e l true = laneEnable e l := by
  simp [laneEnTaken, h, hoff]

theorem laneEnTaken_disable {d : Dev} {l : Nat} (e : Dev) (h : isMember d l = false) :
    laneEnTaken d e l false = laneDisable e l := by
  simp [laneEnTaken, h]

/-- A command that writes a field of LN_CTL of a lane alone. -/
theorem lnCtl_stores {i : Instr} {s : State} {who : Initiator} {l : Lane} {w : Word} {g : Dev → Dev}
    (hexec : exec i s = storeReg s who LN_CTL l w)
    (hdev : lnWrite s.dev LN_CTL l w (newWord s.dev row_LN_CTL l w) = g s.dev) :
    Stores i s who row_LN_CTL l w fun s => qSettle (s.onDev g) :=
  stores_of_lane (reg_lnCtl l) hexec (fun _ => rfl) hdev

section Lane
variable {s : State} (who : Initiator) {l : Lane}

theorem lnEnWrite_stores (hsingle : isMember s.dev l = false) (hoff : s.dev.on LN_CTL_EN l = false) :
    Stores (.lnEnWrite who l) s who row_LN_CTL l (fieldWord s.dev LN_CTL_EN l 1)
      fun s => qSettle (s.onDev fun d => laneEnable (lnCtlSame d l) l) :=
  lnCtl_stores rfl ((lnWrite_en s.dev l true).trans (laneEnTaken_enable _ hsingle hoff))

theorem laneDisable_stores (hsingle : isMember s.dev l = false) :
    Stores (.laneDisable who l) s who row_LN_CTL l (fieldWord s.dev LN_CTL_EN l 0)
      fun s => qSettle (s.onDev fun d => laneDisable (lnCtlSame d l) l) :=
  lnCtl_stores rfl ((lnWrite_en s.dev l false).trans (laneEnTaken_disable _ hsingle))

/-- At a bond member EN is refused, whichever bit is written (R317). -/
theorem lnEn_stores_member {i : Instr} (b : Bool) (hmember : isMember s.dev l = true)
    (hexec : exec i s = storeF s who LN_CTL_EN l (b2i b)) :
    Stores i s who row_LN_CTL l (fieldWord s.dev LN_CTL_EN l (b2i b))
      fun s => qSettle (s.onDev fun d => (lnCtlSame d l).set1 LN_CAUSE_ACC_ERR l) :=
  lnCtl_stores hexec ((lnWrite_en s.dev l b).trans (laneEnTaken_member _ b hmember))

/-- RETRAIN at a bond member takes the bond's link down, with the cause set. -/
theorem retrain_stores_member (hmember : isMember s.dev l = true) :
    Stores (.retrain who l) s who row_LN_CTL l (fieldWord s.dev LN_CTL_RETRAIN l 1) fun s => qSettle (s.onDev fun d =>
      let L := leadLane d l
      let e := (lnCtlSame d l).set1 LN_CAUSE_ACC_ERR l
      if d.f LN_STATUS_STATE L = lnActive then linkDown e L else e) := by
  refine lnCtl_stores rfl ?_
  have hlead : leadLane ((lnCtlSame s.dev l).set1 LN_CAUSE_ACC_ERR l) l = leadLane s.dev l :=
    leadLane_congr _ fun j => f_lnCtlSame_accErr s.dev l j (by decide) (by decide) (by decide)
  have hstate (L : Nat) : ((lnCtlSame s.dev l).set1 LN_CAUSE_ACC_ERR l).f LN_STATUS_STATE L = s.dev.f LN_STATUS_STATE L :=
    f_lnCtlSame_accErr s.dev l L (by decide) (by decide) (by decide)
  rw [lnWrite_retrain, laneEnTaken_member _ _ hmember, hlead, hstate]

/-- RETRAIN of a lane of its own takes its link down (R297). -/
theorem retrain_stores (hsingle : isMember s.dev l = false) (hon : s.dev.on LN_CTL_EN l = true) :
    Stores (.retrain who l) s who row_LN_CTL l (fieldWord s.dev LN_CTL_RETRAIN l 1) fun s => qSettle (s.onDev fun d =>
      if d.f LN_STATUS_STATE l = lnActive then linkDown (lnCtlSame d l) l else lnCtlSame d l) := by
  refine lnCtl_stores rfl ?_
  have hlead : leadLane (lnCtlSame s.dev l) l = l :=
    (leadLane_congr _ fun j => f_lnCtlSame s.dev l j (by decide) (by decide)).trans (leadLane_of_not_member hsingle)
  have hstate : (lnCtlSame s.dev l).f LN_STATUS_STATE l = s.dev.f LN_STATUS_STATE l :=
    f_lnCtlSame s.dev l l (by decide) (by decide)
  rw [lnWrite_retrain, hon, laneEnTaken_running _ hsingle hon, hlead, hstate]

theorem laneClrcnt_stores (hsingle : isMember s.dev l = false) (hon : s.dev.on LN_CTL_EN l = true) :
    Stores (.laneClrcnt who l) s who row_LN_CTL l (fieldWord s.dev LN_CTL_CLRCNT l 1)
      fun s => qSettle (s.onDev fun d => ((lnCtlSame d l).setR LN_ERRCNT l 0).setR LN_DOWNCNT l 0) := by
  refine lnCtl_stores rfl ?_
  rw [lnWrite_clrcnt, hon, laneEnTaken_running _ hsingle hon]

end Lane

/-! ### Lanes: LN_TEST (R297, R323) -/

/-- A lane that is off or under test takes a write of its test (R323). -/
theorem lnTest_unlocked {d : Dev} {l : Lane} (h : d.f LN_STATUS_STATE l = lnOff ∨ d.f LN_STATUS_STATE l = lnTest) {F : Fld}
    (hF : F.acc = .rwl) : lockedF d LN_TEST l F = false := by
  have hunit : ∀ l : Lane, unitOf LN_TEST l = l := by decide
  have hlock : lockedF d LN_TEST l F = if F.acc = .rwo then d.hon .rwoDone
      else laneBusy d (unitOf LN_TEST l) && d.f LN_STATUS_STATE (unitOf LN_TEST l) != lnTest := rfl
  rw [hlock, hunit, hF, laneBusy]
  rcases h with h | h <;> simp [h]

section LnTest
variable {d : Dev} {l : Lane} (v : Int) (h : d.f LN_STATUS_STATE l = lnOff ∨ d.f LN_STATUS_STATE l = lnTest)
include h

/-- What LN_TEST of such a lane takes of a write of EN: EN as written, and the other fields as they were. -/
theorem valOf_newWord_lnTest {G : Fld} (hG : G ∈ row_LN_TEST.fields) (hacc : G.acc = .rwl) :
    valOf (newWord d row_LN_TEST l (fieldWord d LN_TEST_EN l v)) G = valOf (fieldWord d LN_TEST_EN l v) G := by
  have htaken := (bitsOf_newWord (by decide) d l (fieldWord d LN_TEST_EN l v) hG).trans (takenValue_rwl hacc)
  have hopen : lockedF d row_LN_TEST.reg l G = false := lnTest_unlocked h hacc
  exact htaken.trans (if_neg (by simp [hopen]))

/-- The write of the other value of EN starts or ends the test, and starts no new pattern. -/
theorem lnWrite_testEn (b : Bool) (hother : d.on LN_TEST_EN l = !b) :
    let w := fieldWord d LN_TEST_EN l (b2i b)
    lnWrite d LN_TEST l w (newWord d row_LN_TEST l w) = laneTest (testTaken d l (newWord d row_LN_TEST l w)) l b := by
  intro w
  have hrow : FieldsApart row_LN_TEST := by decide
  have hen : valOf (newWord d row_LN_TEST l w) LN_TEST_EN = b.toNat :=
    (valOf_newWord_lnTest _ h (by decide) rfl).trans (valOf_fieldWord_bit d hrow (by decide) rfl b)
  have hpat : valOf (newWord d row_LN_TEST l w) LN_TEST_PAT = d.f LN_TEST_PAT l :=
    (valOf_newWord_lnTest _ h (by decide) rfl).trans
      (valOf_fieldWord_kept d _ hrow (reg_lnTest l).1 (by decide) (by decide) (by decide) (.inr rfl))
  have hchanges : b.toNat ≠ d.f LN_TEST_EN l := by
    intro hsame
    rw [Dev.on, ← hsame] at hother
    cases b <;> simp at hother
  rw [lnWrite_test, hen, hpat]
  dsimp only
  rw [f_testCount_beside d l (G := LN_TEST_PAT) rfl (by decide), f_testCount_beside d l (G := LN_TEST_EN) rfl (by decide),
    if_pos hchanges]
  cases b <;> simp

end LnTest

/-- The start of a test (R297): with REFCLK the lane is in TEST, at its preset and its highest rate, with no errors counted. -/
def testStarted (d : Dev) (l : Nat) : Dev :=
  if d.on PX_STATUS_REFCLK then
    let e := applyPreset (d.setF LN_STATUS_STATE l lnTest) l (d.f LN_CFG_PRESET l)
    prbsSeed ((e.setF LN_STATUS_RATE l (e.f LN_CFG_RMAX l)).setF LN_TEST_ERRS l 0) l
  else d

theorem laneTest_start {d : Dev} {l : Nat} (h : d.f LN_STATUS_STATE l = lnOff) : laneTest d l true = testStarted d l := by
  simp [laneTest, testStarted, h]

theorem laneTest_stop {d : Dev} {l : Nat} (h : d.f LN_STATUS_STATE l = lnTest) :
    laneTest d l false = tryStart (d.setF LN_STATUS_STATE l lnOff) l := by
  simp [laneTest, h]

theorem laneTestStart_stores {s : State} (who : Initiator) {l : Lane} (hstate : s.dev.f LN_STATUS_STATE l = lnOff)
    (hoff : s.dev.on LN_TEST_EN l = false) :
    Stores (.laneTestStart who l) s who row_LN_TEST l (fieldWord s.dev LN_TEST_EN l 1) fun s => qSettle (s.onDev fun d =>
      testStarted (testTaken d l (newWord d row_LN_TEST l (fieldWord d LN_TEST_EN l 1))) l) :=
  stores_of_lane (reg_lnTest l) rfl (fun _ => rfl)
    ((lnWrite_testEn (.inl hstate) true hoff).trans (laneTest_start ((state_testTaken ..).trans hstate)))

theorem laneTestStop_stores {s : State} (who : Initiator) {l : Lane} (hstate : s.dev.f LN_STATUS_STATE l = lnTest)
    (hon : s.dev.on LN_TEST_EN l = true) :
    Stores (.laneTestStop who l) s who row_LN_TEST l (fieldWord s.dev LN_TEST_EN l 0) fun s => qSettle (s.onDev fun d =>
      tryStart ((testTaken d l (newWord d row_LN_TEST l (fieldWord d LN_TEST_EN l 0))).setF LN_STATUS_STATE l lnOff) l) :=
  stores_of_lane (reg_lnTest l) rfl (fun _ => rfl)
    ((lnWrite_testEn (.inr hstate) false hon).trans (laneTest_stop ((state_testTaken ..).trans hstate)))

/-! ### The statement -/

/-- Settles O25: each command is a store to one register, and each clause is what the register's block does with the word. -/
theorem storeLinkAndConverterWrites : Obligations.StoreLinkAndConverterWrites := by
  unfold Obligations.StoreLinkAndConverterWrites
  intro s who
  refine ⟨⟨storeEn_writes (b := true) rfl, storeEn_writes (b := false) rfl⟩,
    fun data => ⟨?ceiling, allowWrite_writes s who data⟩,
    fun l => ⟨lnEnWrite_stores who, laneDisable_stores who,
      fun hmember => ⟨?memberOn, ?memberOff, retrain_stores_member who hmember⟩,
      fun hsingle hon => ⟨retrain_stores who hsingle hon, laneClrcnt_stores who hsingle hon⟩, laneTestStart_stores who,
      laneTestStop_stores who⟩,
    fun k => ⟨carryRequest_writes s who k, rejoinRequest_writes s who k⟩,
    fun c => ⟨?enable, ?disable, ?go, ?stop, ?clear⟩⟩
  case ceiling => simpa only [ceilRefused, decide_eq_true_eq] using ceilWrite_writes s who data
  case memberOn => exact lnEn_stores_member who true hmember rfl
  case memberOff => exact lnEn_stores_member who false hmember rfl
  case enable => exact tcEn_writes (b := true) rfl
  case disable => exact tcEn_writes (b := false) rfl
  case go => exact tcCommand_writes (F := TC_CTL_GO) (by decide) rfl
  case stop => exact tcCommand_writes (F := TC_CTL_ABORT) (by decide) rfl
  case clear => exact tcCommand_writes (F := TC_CTL_CLRCNT) (by decide) rfl

end Sys2Proof.Machine
end

section
/-! PROOF. What a command of a lane makes of the device: the state of its link, the members that carry it and the held pads
decide whether it does anything (R297, R318, R522). -/

namespace Sys2Proof.Machine

/-! ### What is heard (R522) -/

theorem heard_of_held {d : Dev} {l : Nat} (g : Dev → Dev) (h : lrxHeld d l = true) : d.heard l g = d := by
  rw [Dev.heard, if_pos h]

theorem heard_of_open {d : Dev} {l : Nat} (g : Dev → Dev) (h : lrxHeld d l = false) : d.heard l g = g d := by
  rw [Dev.heard, if_neg (by simp [h])]

/-! ### Commands with and without a guard -/

theorem makes_of_ok {i : Instr} {s : State} {g g' : Dev → Dev} (hexec : exec i s = s.ok g) (hg : g s.dev = g' s.dev) :
    Makes i s g' :=
  Makes.congr (g := g) hexec hg

/-- A command whose guard says p of the device does what stands behind the guard where p holds, and nothing elsewhere. -/
theorem makes_ite_of_when {i : Instr} {s : State} {c : Dev → Bool} {g g' : Dev → Dev} {p : Prop} [Decidable p]
    (hexec : exec i s = s.ok fun d => d.when (c d) g) (hc : c s.dev = true ↔ p) (hg : p → g s.dev = g' s.dev) :
    if p then Makes i s g' else Makes i s fun d => d := by
  split
  case isTrue hp => exact (makes_of_when hexec (hc.2 hp)).congr (hg hp)
  case isFalse hp => exact makes_same_of_when hexec (Bool.eq_false_iff.2 (mt hc.1 hp))

/-- The same where the pads of lane l have to be open too. -/
theorem makes_ite_of_heard {i : Instr} {s : State} {l : Nat} {c : Dev → Bool} {g g' : Dev → Dev} {p : Prop} [Decidable p]
    (hexec : exec i s = s.ok fun d => d.when (c d) fun d => d.heard l g)
    (hc : c s.dev = true ∧ lrxHeld s.dev l = false ↔ p) (hg : p → g s.dev = g' s.dev) :
    if p then Makes i s g' else Makes i s fun d => d := by
  cases hheld : lrxHeld s.dev l with
  | true =>
    have hp : ¬p := fun hp => by simp [(hc.2 hp).2] at hheld
    rw [if_neg hp]
    refine makes_of_ok hexec ?_
    rw [Dev.when_eq, heard_of_held g hheld, ite_self]
  | false =>
    refine makes_ite_of_when hexec (by rw [← hc, hheld, and_iff_left rfl]) fun hp => ?_
    rw [heard_of_open g hheld, hg hp]

section Lane
variable {i : Instr} {s : State} {l : Lane} {st : Nat} {g' : Dev → Dev}

theorem makes_onLink {g : Dev → Nat → Dev} (hexec : exec i s = onLink s l st g)
    (hg : g s.dev (leadLane s.dev l) = g' s.dev) :
    if lnState s.dev l = st then Makes i s g' else Makes i s fun d => d :=
  makes_ite_of_when hexec beq_iff_eq fun _ => hg

theorem makes_rxLink {g : Dev → Nat → Dev} (hexec : exec i s = rxLink s l st g)
    (hg : g s.dev (leadLane s.dev l) = g' s.dev) :
    if lnState s.dev l = st ∧ lrxHeld s.dev l = false then Makes i s g' else Makes i s fun d => d := by
  have hguard : exec i s = s.ok fun d => d.when (lnState d l == st) fun d => d.heard l fun d => g d (leadLane d l) := hexec
  exact makes_ite_of_heard hguard (by rw [beq_iff_eq]) fun _ => hg

theorem makes_onMember {g : Dev → Dev} (hexec : exec i s = onMember s l st g) (hg : g s.dev = g' s.dev) :
    if lnState s.dev l = st ∧ l.val ∈ carriers s.dev (leadLane s.dev l) then Makes i s g' else Makes i s fun d => d :=
  makes_ite_of_when hexec (by simp) fun _ => hg

theorem makes_rxMember {g : Dev → Dev} (hexec : exec i s = rxMember s l st g)
    (hg : l.val ∈ carriers s.dev (leadLane s.dev l) → g s.dev = g' s.dev) :
    if lnState s.dev l = st ∧ l.val ∈ carriers s.dev (leadLane s.dev l) ∧ lrxHeld s.dev l = false then Makes i s g'
    else Makes i s fun d => d :=
  makes_ite_of_heard hexec (by simp [and_assoc]) fun ⟨_, hcarries, _⟩ => hg hcarries

theorem leads_of_onLead {g : Dev → Nat → Dev} (hexec : exec i s = onLead s l g)
    (hg : g s.dev (leadLane s.dev l) = g' s.dev) : Leads i s (qSettle (s.onDev g')) := by
  rw [Leads, hexec, onLead, State.onDev, State.onDev, hg]

theorem leads_of_rxLead {g : Dev → Nat → Dev} (hexec : exec i s = rxLead s l g) (hopen : lrxHeld s.dev l = false)
    (hg : g s.dev (leadLane s.dev l) = g' s.dev) : Leads i s (qSettle (s.onDev g')) :=
  leads_of_onLead hexec ((heard_of_open _ hopen).trans hg)

theorem leads_of_rxLead_held {g : Dev → Nat → Dev} (hexec : exec i s = rxLead s l g) (hheld : lrxHeld s.dev l = true) :
    Leads i s (qSettle (s.onDev fun d => d)) :=
  leads_of_onLead hexec (heard_of_held _ hheld)

end Lane

end Sys2Proof.Machine
end

section
/-! PROOF. The events of link training, each in the state that calls for it, and the search of the members of a bond for what
that state asks of them (R297 to R305, R318 to R320). -/

namespace Sys2Proof.Machine

/-! ### Fields of LN_STATUS -/

/-- A write of a field of a lane's register leaves another field of it as it is at every lane. -/
theorem f_setF_lane_beside (d : Dev) {F G : Fld} (i j : Nat) (v : Int) (hlane : PerLane F.reg) (hr : F.reg = G.reg)
    (hbits : F.lo + F.n ≤ G.lo ∨ G.lo + G.n ≤ F.lo) (h32 : G.lo + G.n ≤ 32) : (d.setF F i v).f G j = d.f G j := by
  by_cases hij : i = j
  · subst hij
    exact Dev.f_setF_beside d v hr hbits h32
  · obtain ⟨hn, hs⟩ := hlane
    refine Dev.f_setF_other d v ?_
    simp only [← hr, Reg.addr, hn, hs, Nat.div_one, Nat.mod_one]
    omega

/-! ### The bits of an internal variable -/

theorem hbit_setHbit (d : Dev) (v : Hid) (i b c : Nat) :
    (d.setHbit v i b true).hbit v i c = (d.hbit v i c || decide (b = c)) := by
  simp [Dev.setHbit, Dev.hbit, Dev.hn, Nat.testBit_or, Nat.testBit_two_pow]

/-! ### The members of a bond -/

theorem carriers_congr {d e : Dev} {L : Nat} (hwidth : e.f LN_STATUS_WIDTH L = d.f LN_STATUS_WIDTH L)
    (hbase : e.h .lBase L = d.h .lBase L) : carriers e L = carriers d L := by
  simp only [carriers, bondWidth, Dev.hn, hwidth, hbase]

theorem le_of_mem_carriers {d : Dev} {L m : Nat} (h : m ∈ carriers d L) : L ≤ m := by
  obtain ⟨j, -, rfl⟩ := List.mem_map.1 h
  omega

/-- Lane l has found what its link looks for (R318). -/
def foundNoted (d : Dev) (l : Nat) : Dev := d.setHbit .lMemb (leadLane d l) (l - leadLane d l) true

/-- What the others of lane l have found. -/
def fellowsFound (d : Dev) (l : Nat) : Prop :=
  ∀ m ∈ carriers d (leadLane d l), m ≠ l → d.hbit .lMemb (leadLane d l) (m - leadLane d l) = true

/-- Every member has found it once lane l has, and its fellows before it. -/
theorem all_foundNoted {d : Dev} {l : Nat} (hl : l ∈ carriers d (leadLane d l)) :
    ((carriers d (leadLane d l)).all fun m => (foundNoted d l).hbit .lMemb (leadLane d l) (m - leadLane d l)) = true
      ↔ fellowsFound d l := by
  rw [List.all_eq_true]
  refine forall₂_congr fun m hm => ?_
  have hplace : l - leadLane d l = m - leadLane d l ↔ m = l := by
    have hlm := le_of_mem_carriers hm
    have hll := le_of_mem_carriers hl
    omega
  by_cases hml : m = l
  · simp [foundNoted, hbit_setHbit, hml]
  · simp [foundNoted, hbit_setHbit, hplace, hml]

theorem carriers_foundNoted (d : Dev) (l L : Nat) : carriers (foundNoted d l) L = carriers d L :=
  carriers_congr rfl (Dev.h_setH_other _ _ (.inl (by decide)))

/-- The last member to find it takes the link on. -/
theorem memberDone_last {d : Dev} {l : Nat} (go : Dev → Nat → Dev) (hl : l ∈ carriers d (leadLane d l))
    (hall : fellowsFound d l) : memberDone d l go = go (foundNoted d l) (leadLane d l) := by
  have hgo := (all_foundNoted hl).2 hall
  rw [← carriers_foundNoted d l] at hgo
  rw [memberDone, if_pos (List.contains_iff_mem.2 hl)]
  exact if_pos hgo

/-- A member before it is noted alone. -/
theorem memberDone_early {d : Dev} {l : Nat} (go : Dev → Nat → Dev) (hl : l ∈ carriers d (leadLane d l))
    (hsome : ¬fellowsFound d l) : memberDone d l go = foundNoted d l := by
  have hwait := mt (all_foundNoted hl).1 hsome
  rw [← carriers_foundNoted d l] at hwait
  rw [memberDone, if_pos (List.contains_iff_mem.2 hl)]
  exact if_neg hwait

/-! ### What a member finds (R318) -/

/-- Device e has the bond of d, and the same members have found what it looks for. -/
structure SameBond (d e : Dev) : Prop where
  width : ∀ j, e.f LN_CFG_WIDTH j = d.f LN_CFG_WIDTH j
  inUse : ∀ j, e.f LN_STATUS_WIDTH j = d.f LN_STATUS_WIDTH j
  base : ∀ j, e.h .lBase j = d.h .lBase j
  found : ∀ j, e.h .lMemb j = d.h .lMemb j

namespace SameBond
variable {d e : Dev}

theorem lead (h : SameBond d e) (l : Nat) : leadLane e l = leadLane d l := leadLane_congr l h.width

theorem carriers (h : SameBond d e) (L : Nat) : carriers e L = carriers d L := carriers_congr (h.inUse L) (h.base L)

theorem fellowsFound_iff (h : SameBond d e) (l : Nat) : fellowsFound e l ↔ fellowsFound d l := by
  simp only [fellowsFound, h.lead, h.carriers, Dev.hbit, Dev.hn, h.found]

theorem foundNoted_eq (h : SameBond d e) (l : Nat) :
    foundNoted e l = e.setHbit .lMemb (leadLane d l) (l - leadLane d l) true := by rw [foundNoted, h.lead]

theorem refl (d : Dev) : SameBond d d := ⟨fun _ => .refl _, fun _ => .refl _, fun _ => .refl _, fun _ => .refl _⟩

/-- Flit lock is no part of the bond. -/
theorem flock (d : Dev) (l : Nat) (v : Int) : SameBond d (d.setF LN_STATUS_FLOCK l v) where
  width j := Dev.f_setF_other d v (perLane_apart l j (by decide) (by decide) (by decide))
  inUse j := f_setF_lane_beside d l j v (by decide) (by decide) (by decide) (by decide)
  base _ := .refl _
  found _ := .refl _

/-- Nor is an internal variable other than its two. -/
theorem setH (h : SameBond d e) {v : Hid} (i : Nat) (x : Int) (hbase : v ≠ .lBase) (hfound : v ≠ .lMemb) :
    SameBond d (e.setH v i x) where
  width := h.width
  inUse := h.inUse
  base j := (Dev.h_setH_other _ _ (.inl hbase)).trans (h.base j)
  found j := (Dev.h_setH_other _ _ (.inl hfound)).trans (h.found j)

end SameBond

/-- What a member lane finds is noted for it, and the link goes on when every carrier lane has found it. -/
theorem makes_found {i : Instr} {s : State} {l : Lane} {st : Nat} {f note : Dev → Dev} {go : Dev → Nat → Dev}
    (hexec : exec i s = rxMember s l st f) (hf : f s.dev = memberDone (note s.dev) l go)
    (hnote : SameBond s.dev (note s.dev)) :
    let L := leadLane s.dev l
    ((∀ m ∈ carriers s.dev L, m ≠ l → s.dev.hbit .lMemb L (m - L) = true) →
      if lnState s.dev l = st ∧ l.val ∈ carriers s.dev L ∧ lrxHeld s.dev l = false then
        Makes i s fun d => go ((note d).setHbit .lMemb L (l - L) true) L
      else Makes i s fun d => d)
    ∧ ((∃ m ∈ carriers s.dev L, m ≠ l ∧ s.dev.hbit .lMemb L (m - L) = false) →
      if lnState s.dev l = st ∧ l.val ∈ carriers s.dev L ∧ lrxHeld s.dev l = false then
        Makes i s fun d => (note d).setHbit .lMemb L (l - L) true
      else Makes i s fun d => d) := by
  intro L
  have hmem (hl : l.val ∈ carriers s.dev L) : l.val ∈ carriers (note s.dev) (leadLane (note s.dev) l) := by
    rwa [hnote.lead, hnote.carriers]
  refine ⟨fun hall => makes_rxMember hexec fun hl => ?_, fun ⟨m, hm, hml, hnot⟩ => makes_rxMember hexec fun hl => ?_⟩
  · rw [hf, memberDone_last go (hmem hl) ((hnote.fellowsFound_iff l).2 hall), hnote.foundNoted_eq, hnote.lead]
  · have hsome : ¬fellowsFound s.dev l := fun hall => Bool.false_ne_true (hnot.symm.trans (hall m hm hml))
    rw [hf, memberDone_early go (hmem hl) (mt (hnote.fellowsFound_iff l).1 hsome), hnote.foundNoted_eq]

/-- A state times out with the members that have not found what it asks. -/
theorem makes_late {i : Instr} {s : State} {l : Lane} {st : Nat} {alone : Dev → Nat → Dev}
    (hexec : exec i s = onLink s l st fun d _ => memberLate d l alone) :
    let L := leadLane s.dev l
    let behind := (carriers s.dev L).filter fun m => !s.dev.hbit .lMemb L (m - L)
    if lnState s.dev l = st then
      Makes i s fun d => if behind.length < (carriers d L).length then bondFault d L behind else alone d L
    else Makes i s fun d => d :=
  makes_onLink hexec rfl

/-! ### The partner's configuration (R297, R298, R318) -/

/-- The rates that the partner has offered on every member heard so far, and on the one that sends `rates`. -/
def ratesOffered (d : Dev) (L rates : Nat) : Nat := if d.hon .lMemb L then d.hn .lPRates L &&& rates else rates

/-- The first member to hear a link width notes it. -/
def widthNoted (d : Dev) (L width : Nat) : Dev :=
  if d.hn .lPWidth L = 0 then d.setH .lPWidth L (width + 1 : Nat) else d

/-- Whether lane l hears the width that its fellows have heard. -/
def widthAgrees (d : Dev) (L width : Nat) : Prop :=
  d.hn .lPWidth L = 0 ∨ d.hn .lPWidth L = width + 1 ∨ d.on LN_STATUS_WIDTH L = false

/-- What the link of lane l, led by L, makes of a TS2 that it takes up. -/
def configTaken (d : Dev) (l L rates width preset lver : Nat) (ordered : Bool) : Dev :=
  let e := widthNoted d L width
  if (!ordered || (d.hn .lPWidth L != 0 && d.hn .lPWidth L != width + 1)) && e.on LN_STATUS_WIDTH L then bondFault e L [l]
  else if ordered && width = e.f LN_STATUS_WIDTH L && lver = e.f LN_VER_LVER
      && e.hn .lRates L &&& ratesOffered d L rates ≠ 0 then
    memberDone ((e.setH .lPRates L (ratesOffered d L rates)).setH .lPPreset l preset) l toRate
  else e

section Config
variable (d : Dev) (L width : Nat)

theorem widthNoted_eq : widthNoted d L width = d ∨ ∃ x, widthNoted d L width = d.setH .lPWidth L x := by
  unfold widthNoted
  split
  · exact .inr ⟨_, rfl⟩
  · exact .inl rfl

@[simp] theorem f_widthNoted (F : Fld) (j : Nat) : (widthNoted d L width).f F j = d.f F j := by
  rcases widthNoted_eq d L width with h | ⟨x, h⟩
  · rw [h]
  · rw [h, Dev.setH_f]

@[simp] theorem lRates_widthNoted : (widthNoted d L width).hn .lRates L = d.hn .lRates L := by
  rcases widthNoted_eq d L width with h | ⟨x, h⟩
  · rw [h]
  · rw [h, Dev.hn, Dev.h_setH_other _ _ (.inl (by decide)), Dev.hn]

theorem sameBond_widthNoted : SameBond d (widthNoted d L width) := by
  rcases widthNoted_eq d L width with h | ⟨x, h⟩
  · rw [h]; exact .refl d
  · rw [h]; exact (SameBond.refl d).setH L x (by decide) (by decide)

variable {d L width} (l rates preset lver : Nat)

theorem configTaken_unordered (h : d.on LN_STATUS_WIDTH L = true) :
    configTaken d l L rates width preset lver false = bondFault (widthNoted d L width) L [l] := by
  have hon : (widthNoted d L width).on LN_STATUS_WIDTH L = true := by rw [Dev.on, f_widthNoted, ← Dev.on, h]
  simp [configTaken, hon]

theorem configTaken_differs (h : ¬widthAgrees d L width) :
    configTaken d l L rates width preset lver true = bondFault (widthNoted d L width) L [l] := by
  simp only [widthAgrees, not_or, Bool.not_eq_false] at h
  obtain ⟨hfellow, hwidth, hbond⟩ := h
  have hon : (widthNoted d L width).on LN_STATUS_WIDTH L = true := by rw [Dev.on, f_widthNoted, ← Dev.on, hbond]
  simp [configTaken, hfellow, hwidth, hon]

/-- A TS2 in order, with the width of the fellows' TS2: whether it matches decides. -/
theorem configTaken_agrees (h : widthAgrees d L width) :
    configTaken d l L rates width preset lver true =
      if width = d.f LN_STATUS_WIDTH L ∧ lver = d.f LN_VER_LVER ∧ d.hn .lRates L &&& ratesOffered d L rates ≠ 0 then
        memberDone (((widthNoted d L width).setH .lPRates L (ratesOffered d L rates)).setH .lPPreset l preset) l toRate
      else widthNoted d L width := by
  have hgoes : ((d.hn .lPWidth L != 0 && d.hn .lPWidth L != width + 1) && (widthNoted d L width).on LN_STATUS_WIDTH L)
      = false := by
    rw [Dev.on, f_widthNoted, ← Dev.on]
    rcases h with h | h | h
    · simp [h]
    · simp [h]
    · simp [h]
  simp [configTaken, hgoes, and_assoc]

end Config

theorem exec_configDone (s : State) (l : Lane) (rates : BitVec 4) (width : Fin 4) (preset : Fin 16) (lver : Byte)
    (ordered : Bool) :
    exec (.configDone l rates width preset lver ordered) s = rxMember s l lnConfig fun d =>
      configTaken d l (leadLane d l) rates.toNat width preset lver.toNat ordered := rfl

/-! ### The rate (R298) -/

/-- The rate chosen is the highest one that both sides offer. -/
theorem toRate_highest {d : Dev} {L r : Nat} (hr : r < 4) (hboth : (d.hn .lRates L &&& d.hn .lPRates L).testBit r = true)
    (hmax : ∀ j, j < 4 → (d.hn .lRates L &&& d.hn .lPRates L).testBit j = true → j ≤ r) :
    toRate d L =
      unlockAll (setAll ((setLn d L lnRate).setH .lIdle L (d.now + 2000 : Nat)) L LN_STATUS_RATE r) L := by
  unfold toRate
  generalize d.hn .lRates L &&& d.hn .lPRates L = common at hboth hmax
  have hchosen : (if common.testBit 3 then 3 else if common.testBit 2 then 2 else if common.testBit 1 then 1 else 0) = r := by
    have hnot (j : Nat) (h : ¬common.testBit j = true) : r ≠ j := fun hrj => h (hrj ▸ hboth)
    split_ifs with h3 h2 h1
    · exact (hmax 3 (by decide) h3).antisymm (by omega)
    · have hle := hmax 2 (by decide) h2
      have hne3 := hnot 3 h3
      omega
    · have hle := hmax 1 (by decide) h1
      have hne3 := hnot 3 h3
      have hne2 := hnot 2 h2
      omega
    · have hne3 := hnot 3 h3
      have hne2 := hnot 2 h2
      have hne1 := hnot 1 h1
      omega
  simp only [hchosen]

/-! ### CHECK and DOWN (R297, R298, R304) -/

/-- What the link makes of an echo. -/
def echoTaken (d : Dev) (L t0 turn : Nat) : Dev :=
  if 4 ≤ d.h .lRttCnt L then d
  else
    let e := (d.setH .lRttSum L (d.h .lRttSum L + (((d.now : Int) - t0) % 2 ^ 32 - turn))).setH .lRttCnt L (d.h .lRttCnt L + 1)
    if e.h .lRttCnt L < 4 then sendFlit e L 0xF3 [(64, 32, d.now)] else e

/-- The fourth echo asks for no further LAT. -/
theorem echoTaken_fourth {d : Dev} {L : Nat} (t0 turn : Nat) (h : d.h .lRttCnt L = 3) :
    echoTaken d L t0 turn =
      (d.setH .lRttSum L (d.h .lRttSum L + (((d.now : Int) - t0) % 2 ^ 32 - turn))).setH .lRttCnt L 4 := by
  simp [echoTaken, h]

/-- What the link does when its time in DOWN is over. -/
def downEnded (d : Dev) (L : Nat) : Dev :=
  if d.on LN_CTL_AUTO L then toDetect (allRates d L) L else toLnOff (d.setF LN_CTL_EN L 0) L

theorem downEnded_auto {d : Dev} {L : Nat} (h : d.on LN_CTL_AUTO L = true) : downEnded d L = toDetect (allRates d L) L :=
  if_pos h

theorem downEnded_off {d : Dev} {L : Nat} (h : d.on LN_CTL_AUTO L = false) :
    downEnded d L = toLnOff (d.setF LN_CTL_EN L 0) L :=
  if_neg (by simp [h])

/-! ### The statement -/

/-- Settles O16: the guards of a command say which states, members and pads it takes up, and what it then does is the model's
operation. -/
theorem linkTraining : Obligations.LinkTraining := by
  unfold Obligations.LinkTraining
  intro s l d L inSt member rxSt rxMember found late
  refine ⟨?sensed, ?notSensed, ?poll, ?pollLate, ?config, ?rate, ?configLate, ?lock, ?lockLate, ?eqRequest, ?eqTrial, ?eqDone,
    ?eqLate, ?lat, ?echo, ?check, ?checkLate, ?recover, ?recoverLate, ?down, ?off⟩
  case sensed => exact makes_rxLink (g := fun d L => toPoll (setAll d L LN_STATUS_PRES 1) L) rfl rfl
  case notSensed => exact makes_rxLink (g := fun d _ => d) rfl rfl
  case poll =>
    exact makes_found (note := fun d => d.setF LN_STATUS_FLOCK l 1) (go := fun d L => (setLn d L lnConfig).setH .lPWidth L 0)
      rfl rfl (.flock ..)
  case lock => exact makes_found (note := fun d => d.setF LN_STATUS_FLOCK l 1) rfl rfl (.flock ..)
  case pollLate | lockLate | eqLate => exact makes_late rfl
  case configLate | checkLate | recoverLate => exact makes_onLink rfl rfl
  case config =>
    intro rates width preset lver offered fellow noted agrees
    refine ⟨fun hagrees hwidth hlver hrates => ?_, fun hagrees hother => ?_, fun hdiffers => ?_, fun hbond => ?_⟩
    · refine makes_found (note := fun d => ((noted d).setH .lPRates L offered).setH .lPPreset l preset.val)
        (exec_configDone ..) ?_ ?_
      · exact (configTaken_agrees _ _ _ _ hagrees).trans (if_pos ⟨hwidth, hlver, hrates⟩)
      · exact ((sameBond_widthNoted ..).setH _ _ (by decide) (by decide)).setH _ _ (by decide) (by decide)
    · refine makes_rxMember (exec_configDone ..) fun _ => (configTaken_agrees _ _ _ _ hagrees).trans (if_neg ?_)
      rintro ⟨hwidth, hlver, hrates⟩
      rcases hother with h | h | h
      · exact h hwidth
      · exact h hlver
      · exact hrates h
    · exact makes_rxMember (exec_configDone ..) fun _ => configTaken_differs _ _ _ _ hdiffers
    · exact makes_rxMember (exec_configDone ..) fun _ => configTaken_unordered _ _ _ _ hbond
  case rate => exact fun e r hr hboth hmax => toRate_highest hr hboth hmax
  case eqRequest => exact fun coef preset post up => makes_rxMember rfl fun _ => rfl
  case eqTrial => exact fun eye => makes_onMember rfl rfl
  case eqDone => exact fun hsent => makes_found rfl (if_pos hsent) (.refl d)
  case lat =>
    exact fun t0 turn => makes_rxLink
      (g := fun d L => sendFlit d L 0xF3 [(103, 1, 1), (64, 32, t0.toNat), (48, 16, turn.toNat)]) rfl rfl
  case echo =>
    exact fun t0 turn hthree => makes_rxLink (g := fun d L => echoTaken d L t0.toNat turn.toNat) rfl
      (echoTaken_fourth _ _ hthree)
  case check =>
    exact fun hfour => makes_rxLink (g := fun d L => if 4 ≤ d.h .lRttCnt L then toActive d L else d) rfl (if_pos hfour)
  case recover => exact makes_rxLink rfl rfl
  case down => exact fun hauto => makes_onLink (g := downEnded) rfl (downEnded_auto hauto)
  case off => exact fun hauto => makes_onLink (g := downEnded) rfl (downEnded_off hauto)

end Sys2Proof.Machine
end

section
/-! PROOF. A link at work: acknowledgements and skips, flits that fail their CRC or carry an unknown type, electrical idle, the
lock of a PLL, and what ends a link or tries it again (R293, R295, R308 to R315, R321). -/

namespace Sys2Proof.Machine

/-! ### The flit lock of a receiver (R294) -/

/-- A good flit leaves every register of a lane but LN_STATUS. -/
theorem f_rxGood_other (d : Dev) (l j : Nat) {G : Fld} (hG : PerLane G.reg) (h : G.reg.base % 0x800 ≠ LN_STATUS.base % 0x800) :
    (rxGood d l).f G j = d.f G j := by
  have hapart : LN_STATUS_FLOCK.reg.addr l ≠ G.reg.addr j := perLane_apart l j (by decide) hG h.symm
  unfold rxGood
  split
  · rfl
  · dsimp only
    split
    · rfl
    · exact Dev.f_setF_other _ _ hapart

theorem leadLane_rxGood (d : Dev) (l : Nat) : leadLane (rxGood d l) l = leadLane d l :=
  leadLane_congr l fun j => f_rxGood_other d l j (by decide) (by decide)

/-! ### Flits that carry nothing (R292, R293, R308, R329) -/

/-- A flit of lane l that fails its CRC is counted at the lead L, and ends a run of good flits. -/
def crcCounted (d : Dev) (l L : Nat) : Dev := rxBad (d.incSat LN_ERRCNT_CRC L) l

theorem state_crcCounted (d : Dev) (l L : Nat) : (crcCounted d l L).f LN_STATUS_STATE L = d.f LN_STATUS_STATE L :=
  Dev.f_incSat_other d (perLane_apart L L (by decide) (by decide) (by decide))

/-- What a link makes of such a flit: in ACTIVE it answers with a NAK. -/
def crcFailed (d : Dev) (l : Nat) : Dev :=
  let L := leadLane d l
  if (crcCounted d l L).f LN_STATUS_STATE L = lnActive then sendAck (crcCounted d l L) L true else crcCounted d l L

theorem crcFailed_active {d : Dev} {l : Nat} (h : d.f LN_STATUS_STATE (leadLane d l) = lnActive) :
    crcFailed d l = sendAck (crcCounted d l (leadLane d l)) (leadLane d l) true :=
  if_pos ((state_crcCounted ..).trans h)

theorem crcFailed_training {d : Dev} {l : Nat} (h : d.f LN_STATUS_STATE (leadLane d l) ≠ lnActive) :
    crcFailed d l = crcCounted d l (leadLane d l) :=
  if_neg (mt (state_crcCounted ..).symm.trans h)

/-- What the link of lane l makes of a good flit that may not come in now: a controller-to-partner frame is dropped at the rail
that it names, and any other type t shows as a reserved one. -/
def reservedTaken (d : Dev) (l t pay : Nat) : Dev :=
  let e := rxGood d l
  if 0x12 ≤ t && t ≤ 0x14 then e.set1 IG_RCAUSE_DROP (payBits pay 103 100)
  else
    let known := t ≤ 2 || t = 0x10 || t = 0x11 || (0x20 ≤ t && t ≤ 0x25) || t = 0x40 || (0xF0 ≤ t && t ≤ 0xF4)
    let oset := (t = 0xF2 || t = 0xF3) && lnState e l = lnActive
    if !known || oset then e.set1 LN_CAUSE_RSVD_TYPE (leadLane e l) else e

theorem reservedTaken_partner (d : Dev) (l : Nat) {t : Nat} (pay : BitVec 104) (hlo : 0x12 ≤ t) (hhi : t ≤ 0x14) :
    reservedTaken d l t pay.toNat = (rxGood d l).set1 IG_RCAUSE_DROP (pay.toNat / 2 ^ 100) := by
  have hrail : payBits pay.toNat 103 100 = pay.toNat / 2 ^ 100 := Nat.mod_eq_of_lt (by have := pay.isLt; omega)
  simp [reservedTaken, hlo, hhi, hrail]

theorem reservedTaken_unknown (d : Dev) (l : Nat) {t : Nat} (pay : Nat) (hlo : 0x26 ≤ t) (hhi : t < 0x40) :
    reservedTaken d l t pay = (rxGood d l).set1 LN_CAUSE_RSVD_TYPE (leadLane d l) := by
  have hpartner : (decide (0x12 ≤ t) && decide (t ≤ 0x14)) = false := by
    simp only [Bool.and_eq_false_iff, decide_eq_false_iff_not]
    omega
  have hknown : (decide (t ≤ 2) || decide (t = 0x10) || decide (t = 0x11) || (decide (0x20 ≤ t) && decide (t ≤ 0x25))
      || decide (t = 0x40) || (decide (0xF0 ≤ t) && decide (t ≤ 0xF4))) = false := by
    simp only [Bool.or_eq_false_iff, Bool.and_eq_false_iff, decide_eq_false_iff_not]
    omega
  simp only [reservedTaken, hpartner, hknown, leadLane_rxGood]
  rfl

/-! ### Electrical idle (R294, R296) -/

theorem eiosReceived_makes {s : State} {l : Lane} (hopen : lrxHeld s.dev l = false) (hfrom : lnRate ≤ lnState s.dev l)
    (hto : lnState s.dev l ≤ lnCheck) :
    Makes (.eiosReceived l) s fun d => failedAttempt (rxGood d l) (leadLane d l) := by
  refine makes_of_ok (g := fun d => d.heard l fun d => (rxGood d l).when (lnRate ≤ lnState d l && lnState d l ≤ lnCheck)
    fun d => failedAttempt d (leadLane d l)) rfl ?_
  rw [heard_of_open _ hopen, Dev.when_eq, if_pos (by simp [hfrom, hto]), leadLane_rxGood]

/-! ### Skips (R295) -/

theorem skipSend_makes {s : State} {l : Lane} (hfrom : lnRate ≤ lnState s.dev l) (hto : lnState s.dev l ≤ lnRecover)
    (hcarries : l.val ∈ carriers s.dev (leadLane s.dev l)) (hdue : 1024 ≤ s.dev.h .lSkip l) :
    Makes (.skipSend l) s fun d => sendOn (d.setH .lSkip l (d.h .lSkip l - 1024)) (leadLane d l) l 0x02 0 :=
  (makes_of_when (i := .skipSend l) rfl (by simp [hfrom, hto, hcarries])).congr (if_pos hdue)

/-! ### The partner's identity (R313, R315) -/

theorem identityFrame_accepted {d : Dev} {L : Nat} {b : List Nat} (hactive : d.f LN_STATUS_STATE L = lnActive)
    (hok : identityOk d L b = true) (hdown : d.on LN_STATUS_UP L = false) : identityFrame d L b = identityApply d L b := by
  simp [identityFrame, hactive, hok, hdown]

/-! ### The commands that reach the rings -/

section Rings
variable (s : State) (l : Lane)

theorem exec_ackFlit (pay : BitVec 104) : exec (.ackFlit l pay) s = rxLead s l fun d L => ackFlit d L pay.toNat := rfl

theorem exec_identityFrame (frame : List Byte) :
    exec (.identityFrame l frame) s = rxLead s l fun d L => identityFrame d L (frame.map fun b => b.toNat) := rfl

theorem exec_ts2RecovReceived : exec (.ts2RecovReceived l) s =
    rxLead s l fun d L => if d.f LN_STATUS_STATE L = lnActive then replayLimit d L false else d := rfl

theorem exec_linkDown : exec (.linkDown l) s =
    onLead s l fun d L => if d.f LN_STATUS_STATE L = lnActive then linkDown d L else d := rfl

theorem exec_replayTimeout : exec (.replayTimeout l) s =
    onLead s l fun d L => if d.f LN_STATUS_STATE L = lnActive then replay d L else d := rfl

theorem exec_identityTimeout : exec (.identityTimeout l) s = onLead s l fun d L =>
    if d.f LN_STATUS_STATE L = lnActive && !d.on LN_STATUS_UP L then linkDown (d.set1 LN_CAUSE_TRAIN_FAIL L) L else d := rfl

end Rings

/-! ### The statement -/

/-- Settles O17: held pads let nothing in, and what comes in through open ones, like what a link does of its own, is the model's
operation in the state that the clause names. -/
theorem linksAtWork : Obligations.LinksAtWork := by
  unfold Obligations.LinksAtWork
  intro s l d L active lead
  refine ⟨?ack, ?skip, ?held, ?crc, ?reserved, ?idle, ?pll, ?ackFlit, ?ends, ?identity⟩
  case ack =>
    intro hactive hdue
    have hmakes := makes_of_when (i := .ackTimer l) (s := s) (c := fun d => lnState d l == lnActive)
      (g := fun d => if d.hon .lAckDue (leadLane d l) || d.hon .lFreed (leadLane d l) then sendAck d (leadLane d l) false else d)
      rfl (beq_iff_eq.2 hactive)
    exact hmakes.congr (if_pos (Bool.or_eq_true_iff.2 hdue))
  case skip => exact fun hfrom hto hcarries hdue => (skipSend_makes hfrom hto hcarries hdue).congr rfl
  case held =>
    refine fun hheld => ⟨fun typ pay i hi => ?_, fun pay frame i hi => ?_⟩
    · simp only [List.mem_cons, List.not_mem_nil, or_false] at hi
      rcases hi with rfl | rfl | rfl
      · exact makes_of_ok rfl (heard_of_held _ hheld)
      · exact makes_of_ok rfl (heard_of_held _ hheld)
      · exact makes_of_ok rfl (heard_of_held _ hheld)
    · simp only [List.mem_cons, List.not_mem_nil, or_false] at hi
      rcases hi with rfl | rfl | rfl
      · exact leads_of_rxLead_held (exec_ackFlit ..) hheld
      · exact leads_of_rxLead_held (exec_ts2RecovReceived ..) hheld
      · exact leads_of_rxLead_held (exec_identityFrame ..) hheld
  case crc =>
    intro hopen e
    have hmakes : Makes (.flitCrcFail l) s fun d => crcFailed d l :=
      makes_of_ok (g := fun d => d.heard l fun d => crcFailed d l) rfl (heard_of_open _ hopen)
    exact ⟨fun hactive => hmakes.congr (crcFailed_active hactive), fun htrains => hmakes.congr (crcFailed_training htrains)⟩
  case reserved =>
    intro hopen typ pay
    have hmakes : Makes (.reservedTypeFlit l typ pay) s fun d => reservedTaken d l typ.toNat pay.toNat :=
      makes_of_ok (g := fun d => d.heard l fun d => reservedTaken d l typ.toNat pay.toNat) rfl (heard_of_open _ hopen)
    exact ⟨fun hlo hhi => hmakes.congr (reservedTaken_partner _ _ _ hlo hhi),
      fun hlo hhi => hmakes.congr (reservedTaken_unknown _ _ _ hlo hhi)⟩
  case idle => exact fun hopen hfrom hto => (eiosReceived_makes hopen hfrom hto).congr rfl
  case pll => exact fun g hpower => makes_of_when rfl hpower
  case ackFlit => exact fun hopen pay => leads_of_rxLead (exec_ackFlit ..) hopen rfl
  case ends =>
    intro hactive
    refine ⟨?_, ?_, fun hopen => ?_, fun hdown => ?_⟩
    · exact leads_of_onLead (exec_linkDown ..) (if_pos hactive)
    · exact leads_of_onLead (exec_replayTimeout ..) (if_pos hactive)
    · exact leads_of_rxLead (exec_ts2RecovReceived ..) hopen (if_pos hactive)
    · have hwaits : (d.f LN_STATUS_STATE L = lnActive && !d.on LN_STATUS_UP L) = true := by simpa [hdown] using hactive
      exact leads_of_onLead (exec_identityTimeout ..) (if_pos hwaits)
  case identity =>
    exact fun hopen frame hactive hok hdown =>
      leads_of_rxLead (exec_identityFrame ..) hopen (identityFrame_accepted hactive hok hdown)

end Sys2Proof.Machine
end

section
/-! PROOF. The AVSBus port: which frames it takes up, what the bytes of its answers say, and the writes that it makes with the
rights of the partition it stands for (R364, R365). -/

namespace Sys2Proof.Machine

/-! ### The bytes of an answer -/

/-- Each round of the CRC shifts within three bits. -/
theorem avsCrc_lt (w : Nat) : avsCrc w < 8 := by
  refine List.foldlRecOn (motive := fun r => r < 8) _ _ (by decide) fun r _ i _ => ?_
  refine Nat.xor_lt_two_pow (n := 3) (Nat.mod_lt _ (by decide)) ?_
  split
  · decide
  · decide

/-- Four bytes of a number, the highest first. -/
theorem reverse_leBytes_four (x : Nat) :
    (leBytes 4 x).reverse = [x / 256 / 256 / 256 % 256, x / 256 / 256 % 256, x / 256 % 256, x % 256] := rfl

/-- An answer of status bits and 16 bits of data puts them into its first three bytes. -/
theorem avsBytes_ack {stat data : Nat} (hstat : stat < 32) (hdata : data < 65536) :
    ∃ end_, avsBytes 0 stat data = [stat, data / 256, data % 256, end_] := by
  obtain ⟨crc, hcrc, hbytes⟩ :
      ∃ crc < 8, avsBytes 0 stat data = (leBytes 4 ((((0 * 64 + stat) * 65536 + data) * 32 + 31) * 8 + crc)).reverse :=
    ⟨_, avsCrc_lt _, rfl⟩
  refine ⟨248 + crc, ?_⟩
  rw [hbytes, reverse_leBytes_four]
  simp only [List.cons.injEq, and_true]
  omega

theorem fresh_avsAnswer (d : Dev) (ack : Nat) (data : Option Int) (k : Option Nat) :
    (avsAnswer d ack data k).fresh = d.fresh + 1 := by
  have hcount : (d.free.2.incSat IG_AVS_STAT_FRAMES).fresh = d.free.2.fresh := by
    unfold Dev.incSat
    split
    · rfl
    · rfl
  exact hcount

/-- Whether the output of rail k has reached its target, as a bit of that weight. -/
def onTarget (d : Dev) (k weight : Nat) : Nat := if d.h .refFrac k = refTarget d k then weight else 0

theorem portOut_avsAnswer (d : Dev) (ack : Nat) (x : Int) (k : Nat) :
    (avsAnswer d ack (some x) (some k)).portOut = avsBytes ack (d.free.1 % 16 + onTarget d k 16) (x % 65536).toNat := rfl

/-- A number below the weight of a bit says nothing of the bit. -/
theorem le_add_onTarget {d : Dev} {k weight m : Nat} (hm : m < weight) :
    weight ≤ m + onTarget d k weight ↔ d.h .refFrac k = refTarget d k := by
  unfold onTarget
  split
  case isTrue h => exact iff_of_true (Nat.le_add_left ..) h
  case isFalse h => exact iff_of_false (Nat.not_le.2 hm) h

theorem onTarget_le (d : Dev) (k weight : Nat) : onTarget d k weight ≤ weight := by
  unfold onTarget
  split
  · exact le_rfl
  · exact Nat.zero_le _

/-- What AVS_STATUS_READ answers: the word's free bits, and above them whether the target is reached. -/
def avsStatus (d : Dev) (k : Nat) : Int × Dev := ((d.free.1 % 32768 + onTarget d k 32768 : Nat), d.free.2)

theorem avsAnswer_status (d : Dev) (k : Nat) :
    let e := avsAnswer (avsStatus d k).2 0 (some (avsStatus d k).1) (some k)
    ∃ st hi lo end_, e.portOut = [st, hi, lo, end_] ∧ st < 32 ∧ (128 ≤ hi ↔ d.h .refFrac k = refTarget d k)
      ∧ (16 ≤ st ↔ d.h .refFrac k = refTarget d k) ∧ e.fresh = d.fresh + 2 := by
  intro e
  have hstat16 := onTarget_le d.free.2 k 16
  have hdata16 := onTarget_le d k 32768
  have hfree4 := Nat.mod_lt d.free.2.free.1 (show 16 > 0 by decide)
  have hfree15 := Nat.mod_lt d.free.1 (show 32768 > 0 by decide)
  have hword : ((avsStatus d k).1 % 65536).toNat = d.free.1 % 32768 + onTarget d k 32768 := by
    unfold avsStatus
    omega
  obtain ⟨end_, hbytes⟩ := avsBytes_ack (stat := d.free.2.free.1 % 16 + onTarget d.free.2 k 16)
    (data := d.free.1 % 32768 + onTarget d k 32768) (by omega) (by omega)
  have hout := (portOut_avsAnswer (avsStatus d k).2 0 (avsStatus d k).1 k).trans ((congrArg _ hword).trans hbytes)
  have hhigh : 128 ≤ (d.free.1 % 32768 + onTarget d k 32768) / 256 ↔ d.h .refFrac k = refTarget d k := by
    rw [Nat.le_div_iff_mul_le (by decide)]
    exact le_add_onTarget hfree15
  exact ⟨_, _, _, end_, hout, by omega, hhigh, le_add_onTarget hfree4, fresh_avsAnswer ..⟩

/-! ### Frames on the port -/

/-- A select is mapped to one of the 16 rails. -/
theorem avsRail_lt {d : Dev} {sel k : Nat} (h : avsRail d sel = some k) : k < 16 := by
  obtain ⟨-, hmap⟩ := Option.ite_none_right_eq_some.1 h
  rw [← Option.some.inj hmap]
  exact bitsOf_lt ..

section Frame
variable {s : State} {sel : Fin 8}

theorem avsFrame_mapped {k : Nat} (g : Nat → State → State) (hruns : avsRuns s.dev = true)
    (hrail : avsRail s.dev sel = some k) (hpower : regPowered s.dev FL_REF k = true) : avsFrame s sel g = g k s := by
  simp [avsFrame, hruns, hrail, hpower]

theorem avsFrame_unmapped (g : Nat → State → State) (hruns : avsRuns s.dev = true) (hrail : avsRail s.dev sel = none) :
    avsFrame s sel g = s.onDev fun d => avsAnswer (d.set1 IG_DCAUSE_AVS_SEL) 1 none none := by
  simp [avsFrame, hruns, hrail]

/-- A frame of a select that is not mapped takes no action, whatever it asks. -/
theorem avsFrame_makes_unmapped {i : Instr} {g : Nat → State → State} (hexec : exec i s = .next (avsFrame s sel g))
    (hruns : avsRuns s.dev = true) (hrail : avsRail s.dev sel = none) :
    Makes i s fun d => avsAnswer (d.set1 IG_DCAUSE_AVS_SEL) 1 none none := by
  rw [Makes, hexec, avsFrame_unmapped g hruns hrail]

/-- A read answers the word of its kind. -/
theorem avsRead_makes {i : Instr} {k : Nat} {v : Dev → Nat → Int × Dev}
    (hexec : exec i s = .next (avsFrame s sel (avsRead v))) (hruns : avsRuns s.dev = true)
    (hrail : avsRail s.dev sel = some k) (hpower : regPowered s.dev FL_REF k = true) :
    Makes i s fun d => avsAnswer (v d k).2 0 (some (v d k).1) (some k) := by
  rw [Makes, hexec, avsFrame_mapped _ hruns hrail hpower]
  rfl

end Frame

/-! ### Writes (R365) -/

section Write
variable {s : State} {R : Reg} {F : Fld} {v : Dev → Nat → Int × Dev} {ok : Dev → Nat → Int → Bool} {k : Nat} {x : Int}

/-- A write that may not be made takes no action. -/
theorem avsWrite_refused (hv : v s.dev k = (x, s.dev))
    (h : railOwner s.dev k ≠ (s.dev.f IG_AVS_CFG_PART, false) ∨ ok s.dev k x = false) :
    avsWrite R F v ok k s = s.onDev fun d => avsAnswer (d.set1 IG_DCAUSE_AVS_REF) 1 none (some k) := by
  have hrefused : (decide (railOwner s.dev k = (s.dev.f IG_AVS_CFG_PART, false)) && ok s.dev k x) = false :=
    Bool.and_eq_false_iff.2 (h.imp_left decide_eq_false)
  simp [avsWrite, hv, hrefused]

/-- Any other is the partition's write of the register. -/
theorem avsWrite_made {row : RegRow} (hv : v s.dev k = (x, s.dev)) (hreg : regAt (R.addr k) = some (row, k))
    (howns : railOwner s.dev k = (s.dev.f IG_AVS_CFG_PART, false)) (hok : ok s.dev k x = true) :
    avsWrite R F v ok k s =
      (regWrite s (.packet (Fin.ofNat 8 (s.dev.f IG_AVS_CFG_PART)) 0) row k (putBits (present s.dev R k) F.lo F.n x)).onDev
        fun d => avsAnswer d 0 none (some k) := by
  simp [avsWrite, hv, howns, hok, hreg]

end Write

theorem regAt_flRef : ∀ k : Rail, regAt (FL_REF.addr k) = some (row_FL_REF, k.val) := by decide +kernel
theorem regAt_flRamp : ∀ k : Rail, regAt (FL_RAMP.addr k) = some (row_FL_RAMP, k.val) := by decide +kernel

/-- The rate that a frame asks for, where its rise and its fall rate are one; else the spec leaves the value open. -/
def avsRateAsked (data : Nat) (d : Dev) (k : Nat) : Int × Dev :=
  if data / 256 = data % 256 then (usat (avsSlew d k (data / 256)) 16, d) else ((d.free.1 % 65536 : Nat), d.free.2)

/-- Whether rail k may be given the target t. -/
def avsWindow (d : Dev) (k : Nat) (t : Int) : Bool :=
  decide ((d.f IG_AVSWIN_MIN k : Int) ≤ t) && decide (t ≤ d.f IG_AVSWIN_MAX k)

section Commands
variable (s : State) (sel : Fin 8) (data : BitVec 16)

theorem exec_avsVoltageRead :
    exec (.avsVoltageRead sel) s = .next (avsFrame s sel (avsRead fun d k => (usat (avsMv d k) 16, d))) := rfl

theorem exec_avsRateRead : exec (.avsRateRead sel) s = .next (avsFrame s sel (avsRead fun d k => (avsRate d k * 257, d))) := rfl

theorem exec_avsCurrentRead :
    exec (.avsCurrentRead sel) s = .next (avsFrame s sel (avsRead fun d k => (sat (d.fi FL_ISUM_ISUM k * 25) 16, d))) := rfl

theorem exec_avsTemperatureRead : exec (.avsTemperatureRead sel) s =
    .next (avsFrame s sel (avsRead fun d k => ((hottest d k).1 * 10 / 16, (hottest d k).2))) := rfl

theorem exec_avsStatusRead : exec (.avsStatusRead sel) s = .next (avsFrame s sel (avsRead avsStatus)) := rfl

theorem exec_avsVoltageWrite : exec (.avsVoltageWrite sel data) s =
    .next (avsFrame s sel (avsWrite FL_REF FL_REF_TGT (fun d k => (avsTarget d k data.toNat, d)) avsWindow)) := rfl

theorem exec_avsRateWrite : exec (.avsRateWrite sel data) s =
    .next (avsFrame s sel (avsWrite FL_RAMP FL_RAMP_SLEW (avsRateAsked data.toNat) fun _ _ x => x != 0)) := rfl

end Commands

section Mapped
variable {s : State} {sel : Fin 8} {k : Nat} {data : BitVec 16}

theorem avsVoltageWrite_refused (hruns : avsRuns s.dev = true) (hrail : avsRail s.dev sel = some k)
    (hpower : regPowered s.dev FL_REF k = true)
    (h : railOwner s.dev k ≠ (s.dev.f IG_AVS_CFG_PART, false) ∨ avsWindow s.dev k (avsTarget s.dev k data.toNat) = false) :
    Makes (.avsVoltageWrite sel data) s fun d => avsAnswer (d.set1 IG_DCAUSE_AVS_REF) 1 none (some k) := by
  rw [Makes, exec_avsVoltageWrite, avsFrame_mapped _ hruns hrail hpower, avsWrite_refused rfl h]

theorem avsRateWrite_refused (hruns : avsRuns s.dev = true) (hrail : avsRail s.dev sel = some k)
    (hpower : regPowered s.dev FL_REF k = true) (hone : data.toNat / 256 = data.toNat % 256)
    (h : railOwner s.dev k ≠ (s.dev.f IG_AVS_CFG_PART, false) ∨ usat (avsSlew s.dev k (data.toNat / 256)) 16 = 0) :
    Makes (.avsRateWrite sel data) s fun d => avsAnswer (d.set1 IG_DCAUSE_AVS_REF) 1 none (some k) := by
  rw [Makes, exec_avsRateWrite, avsFrame_mapped _ hruns hrail hpower, avsWrite_refused (if_pos hone) (h.imp_right (by simp [·]))]

theorem avsVoltageWrite_leads (hruns : avsRuns s.dev = true) (hrail : avsRail s.dev sel = some k)
    (hpower : regPowered s.dev FL_REF k = true) (howns : railOwner s.dev k = (s.dev.f IG_AVS_CFG_PART, false))
    (hwindow : avsWindow s.dev k (avsTarget s.dev k data.toNat) = true) :
    Leads (.avsVoltageWrite sel data) s
      ((regWrite s (.packet (Fin.ofNat 8 (s.dev.f IG_AVS_CFG_PART)) 0) row_FL_REF k
        (putBits (present s.dev FL_REF k) FL_REF_TGT.lo FL_REF_TGT.n (avsTarget s.dev k data.toNat))).onDev
          fun d => avsAnswer d 0 none (some k)) := by
  rw [Leads, exec_avsVoltageWrite, avsFrame_mapped _ hruns hrail hpower,
    avsWrite_made rfl (regAt_flRef ⟨k, avsRail_lt hrail⟩) howns hwindow]

theorem avsRateWrite_leads (hruns : avsRuns s.dev = true) (hrail : avsRail s.dev sel = some k)
    (hpower : regPowered s.dev FL_REF k = true) (howns : railOwner s.dev k = (s.dev.f IG_AVS_CFG_PART, false))
    (hone : data.toNat / 256 = data.toNat % 256) (hrate : usat (avsSlew s.dev k (data.toNat / 256)) 16 ≠ 0) :
    Leads (.avsRateWrite sel data) s
      ((regWrite s (.packet (Fin.ofNat 8 (s.dev.f IG_AVS_CFG_PART)) 0) row_FL_RAMP k
        (putBits (present s.dev FL_RAMP k) FL_RAMP_SLEW.lo FL_RAMP_SLEW.n (usat (avsSlew s.dev k (data.toNat / 256)) 16))).onDev
          fun d => avsAnswer d 0 none (some k)) := by
  rw [Leads, exec_avsRateWrite, avsFrame_mapped _ hruns hrail hpower,
    avsWrite_made (if_pos hone) (regAt_flRamp ⟨k, avsRail_lt hrail⟩) howns (bne_iff_ne.2 hrate)]

end Mapped

/-! ### Frames the device does not support (R364) -/

theorem avsUnsupportedFrame_makes {s : State} (badCrc : Bool) (hruns : avsRuns s.dev = true) :
    Makes (.avsUnsupportedFrame badCrc) s fun d =>
      if badCrc then avsAnswer ((d.set1 IG_DCAUSE_AVS_CRC).incSat IG_AVS_STAT_CRC) 2 none none
      else avsAnswer (d.set1 IG_DCAUSE_AVS_SEL) 1 none none :=
  makes_of_when rfl hruns

/-! ### The statement -/

/-- Settles O12: a mapped select whose rail's registers are on hands the frame to its read or its write, whose value and rights
decide the rest; any other frame is answered where it stands. -/
theorem avsFrames : Obligations.AvsFrames := by
  unfold Obligations.AvsFrames
  intro s sel d hruns noAct
  refine ⟨?mapped, ?unmapped, avsUnsupportedFrame_makes false hruns, avsUnsupportedFrame_makes true hruns⟩
  case mapped =>
    intro k hrail hpower reads part
    refine ⟨?_, ?_, ?_, ?_, ?_, fun data => ?writes⟩
    · exact (avsRead_makes (exec_avsVoltageRead ..) hruns hrail hpower).congr rfl
    · exact (avsRead_makes (exec_avsRateRead ..) hruns hrail hpower).congr rfl
    · exact (avsRead_makes (exec_avsCurrentRead ..) hruns hrail hpower).congr rfl
    · exact (avsRead_makes (exec_avsTemperatureRead ..) hruns hrail hpower).congr rfl
    · exact (avsRead_makes (exec_avsStatusRead ..) hruns hrail hpower).acts (avsAnswer_status d k)
    case writes =>
      intro t rate
      refine ⟨fun hother => ⟨?_, fun hone => ?_⟩, fun hout => ?_, fun hone hzero => ?_, fun howns hmin hmax => ?_,
        fun howns hone hrate => ?_⟩
      · exact avsVoltageWrite_refused hruns hrail hpower (.inl hother)
      · exact avsRateWrite_refused hruns hrail hpower hone (.inl hother)
      · have hwindow : avsWindow d k t = false := by
          simpa only [avsWindow, Bool.and_eq_false_iff, decide_eq_false_iff_not, not_le] using hout
        exact avsVoltageWrite_refused hruns hrail hpower (.inr hwindow)
      · exact avsRateWrite_refused hruns hrail hpower hone (.inr hzero)
      · have hwindow : avsWindow d k t = true := by simp [avsWindow, hmin, hmax]
        exact avsVoltageWrite_leads hruns hrail hpower howns hwindow
      · exact avsRateWrite_leads hruns hrail hpower howns hone hrate
  case unmapped =>
    intro hrail data
    simp only [List.forall_mem_cons, List.not_mem_nil, false_imp_iff, implies_true, and_true]
    exact ⟨avsFrame_makes_unmapped (exec_avsVoltageRead ..) hruns hrail,
      avsFrame_makes_unmapped (exec_avsRateRead ..) hruns hrail,
      avsFrame_makes_unmapped (exec_avsCurrentRead ..) hruns hrail,
      avsFrame_makes_unmapped (exec_avsTemperatureRead ..) hruns hrail,
      avsFrame_makes_unmapped (exec_avsStatusRead ..) hruns hrail,
      avsFrame_makes_unmapped (exec_avsVoltageWrite ..) hruns hrail,
      avsFrame_makes_unmapped (exec_avsRateWrite ..) hruns hrail⟩

end Sys2Proof.Machine
end

section
/-! PROOF. The frames of coupled rails: how a flit crosses to the intent logic and finds the rail of its group, and what each
kind leaves there (R28, R29, R351 to R363). -/

namespace Sys2Proof.Machine

/-! ### The crossing to the intent logic (R28, R29) -/

/-- A flit that enters the crossing moves no register, so its link and the rails coupled over it are as before. -/
@[simp] theorem leadLane_laneIn (d : Dev) (l m : Nat) : leadLane (d.laneIn l) m = leadLane d m := rfl
@[simp] theorem linkUp_laneIn (d : Dev) (l L : Nat) : linkUp (d.laneIn l) L = linkUp d L := rfl
@[simp] theorem cplRails_laneIn (d : Dev) (l L : Nat) : cplRails (d.laneIn l) L = cplRails d L := rfl
@[simp] theorem cplRole_laneIn (d : Dev) (l k : Nat) : cplRole (d.laneIn l) k = cplRole d k := rfl
@[simp] theorem f_laneIn (d : Dev) (l : Nat) (F : Fld) (k : Nat) : (d.laneIn l).f F k = d.f F k := rfl

section Crossing
variable {d : Dev} {l : Nat} (g : Dev → Dev)

theorem cplCross_held (hheld : lrxHeld d l = true) : cplCross d l g = d := heard_of_held _ hheld

theorem cplCross_full {k p : Nat} (hopen : lrxHeld d l = false) (hrails : cplRails d (leadLane d l) = [(k, p)])
    (hfull : 16 ≤ d.laneFill l) : cplCross d l g = d.set1 IG_RCAUSE_DROP k := by
  rw [cplCross, heard_of_open _ hopen, if_pos hfull, hrails]
  rfl

theorem cplCross_fits (hopen : lrxHeld d l = false) (hfits : d.laneFill l < 16) : cplCross d l g = g (d.laneIn l) := by
  rw [cplCross, heard_of_open _ hopen, if_neg (Nat.not_le.2 hfits)]

end Crossing

/-! ### The rail that a coupling frame is for (R352) -/

section Take
variable {d : Dev} {L group k p : Nat} (g : Dev → Nat → Nat → Dev)

theorem takeCpl_other (hup : linkUp d L = true) (hrails : cplRails d L = [(k, p)]) (hgroup : d.f IG_CPL_GROUP k ≠ group) :
    takeCpl d L group g = d.set1 IG_RCAUSE_DROP k := by
  have hnone : [(k, p)].filter (fun x => d.f IG_CPL_GROUP x.1 == group) = [] := by simp [hgroup]
  simp only [takeCpl, hup, hrails, hnone]
  rfl

theorem takeCpl_own (hup : linkUp d L = true) (hrails : cplRails d L = [(k, p)]) (hgroup : d.f IG_CPL_GROUP k = group) :
    takeCpl d L group g = g d k p := by
  have hmine : [(k, p)].filter (fun x => d.f IG_CPL_GROUP x.1 == group) = [(k, p)] := by simp [hgroup]
  simp only [takeCpl, hup, hrails, hmine]
  rfl

end Take

/-- Command i brings in a coupling frame on lane l, which the rail of the payload's group takes. -/
def CplFrame (i : Instr) (l : Lane) (pay : BitVec 104) : Prop :=
  ∃ g : Dev → Dev → Nat → Nat → Dev, ∀ s, exec i s =
    s.svc fun d => cplCross d l fun d => takeCpl d (leadLane d l) (payBits pay.toNat 103 96) (g d)

section Frames
variable (s : State) (l : Lane) (pay : BitVec 104) (stamp : BitVec 64)

theorem exec_cycleReceive : exec (.cycleReceive l pay stamp) s =
    s.svc fun d => cplCross d l fun d => cycleReceive d (leadLane d l) pay.toNat stamp.toNat := rfl

theorem exec_epochReceive : exec (.epochReceive l pay) s =
    s.svc fun d => cplCross d l fun d => epochReceive d (leadLane d l) pay.toNat := rfl

theorem exec_helloReceive : exec (.helloReceive l pay) s =
    s.svc fun d => cplCross d l fun d => helloReceive d (leadLane d l) pay.toNat := rfl

theorem exec_carryReceive : exec (.carryReceive l pay) s =
    s.svc fun d => cplCross d l fun d => carryReceive d (leadLane d l) pay.toNat := rfl

theorem exec_ifwdReceive : exec (.ifwdReceive l pay stamp) s =
    s.svc fun d => cplCross d l fun d => ifwdReceive d (leadLane d l) pay.toNat stamp.toNat := rfl

theorem exec_gfwdReceive : exec (.gfwdReceive l pay) s =
    s.svc fun d => cplCross d l fun d => gfwdReceive d (leadLane d l) pay.toNat := rfl

theorem cplFrame_cycleReceive : CplFrame (.cycleReceive l pay stamp) l pay := ⟨_, fun _ => rfl⟩
theorem cplFrame_epochReceive : CplFrame (.epochReceive l pay) l pay := ⟨_, fun _ => rfl⟩
theorem cplFrame_helloReceive : CplFrame (.helloReceive l pay) l pay := ⟨_, fun _ => rfl⟩
theorem cplFrame_carryReceive : CplFrame (.carryReceive l pay) l pay := ⟨_, fun _ => rfl⟩
theorem cplFrame_ifwdReceive : CplFrame (.ifwdReceive l pay stamp) l pay := ⟨_, fun _ => rfl⟩
theorem cplFrame_gfwdReceive : CplFrame (.gfwdReceive l pay) l pay := ⟨_, fun _ => rfl⟩

end Frames

section Frame
variable {s : State} {i : Instr} {l : Lane} {pay : BitVec 104} {k p : Nat}

/-- Held pads let no such frame in (R522). -/
theorem CplFrame.makes_held (hframe : CplFrame i l pay) (hdom : domOn s.dev 0 = true) (hheld : lrxHeld s.dev l = true) :
    Makes i s fun d => d := by
  obtain ⟨g, hexec⟩ := hframe
  exact (makes_of_svc_unguarded (hexec s) hdom).congr (cplCross_held _ hheld)

/-- A full crossing drops it (R29). -/
theorem CplFrame.makes_full (hframe : CplFrame i l pay) (hdom : domOn s.dev 0 = true) (hopen : lrxHeld s.dev l = false)
    (hrails : cplRails s.dev (leadLane s.dev l) = [(k, p)]) (hfull : 16 ≤ s.dev.laneFill l) :
    Makes i s fun d => d.set1 IG_RCAUSE_DROP k := by
  obtain ⟨g, hexec⟩ := hframe
  exact (makes_of_svc_unguarded (hexec s) hdom).congr (cplCross_full _ hopen hrails hfull)

/-- A frame of another group crosses and is dropped (R352). -/
theorem CplFrame.makes_other (hframe : CplFrame i l pay) (hdom : domOn s.dev 0 = true) (hopen : lrxHeld s.dev l = false)
    (hrails : cplRails s.dev (leadLane s.dev l) = [(k, p)]) (hfits : s.dev.laneFill l < 16)
    (hup : linkUp s.dev (leadLane s.dev l) = true) (hgroup : s.dev.f IG_CPL_GROUP k ≠ payBits pay.toNat 103 96) :
    Makes i s fun d => (d.laneIn l).set1 IG_RCAUSE_DROP k := by
  obtain ⟨g, hexec⟩ := hframe
  exact (makes_of_svc_unguarded (hexec s) hdom).congr
    ((cplCross_fits _ hopen hfits).trans (takeCpl_other _ hup hrails hgroup))

/-- A frame that crosses meets the meaning of its kind. -/
theorem makes_of_cplCross {g : Dev → Nat → Dev} (hexec : exec i s = s.svc fun d => cplCross d l fun d => g d (leadLane d l))
    (hdom : domOn s.dev 0 = true) (hopen : lrxHeld s.dev l = false) (hfits : s.dev.laneFill l < 16) :
    Makes i s fun d => g (d.laneIn l) (leadLane s.dev l) :=
  (makes_of_svc_unguarded hexec hdom).congr ((cplCross_fits _ hopen hfits).trans (by rw [leadLane_laneIn]))

end Frame

/-! ### HELLO_SEND (R352) -/

/-- Rail k sends its HELLO, and at least is JOINING then. -/
def helloSent (k : Nat) (d : Dev) : Dev :=
  let e := (d.setH .cHelloAt k (d.now + 1 : Nat)).setH .cHelloDue k 0
  sendHello (if cplRole d k = cplNone then e.setF IG_CPLSTAT_ROLE k cplJoining else e) k

theorem exec_helloSend (k : Rail) (s : State) :
    exec (.helloSend k) s = s.svc fun d => d.when (d.on IG_CPL_EN k && helloDue d k) (helloSent k) := rfl

theorem helloDue_iff (d : Dev) (k : Nat) : helloDue d k = true ↔ d.hon .cHelloDue k = true
    ∨ (cplRole d k ≠ cplMaster ∧ cplRole d k ≠ cplMember ∧ d.hn .cHelloAt k ≤ d.now + 1 - 2000000) := by
  simp only [helloDue, Bool.or_eq_true, Bool.and_eq_true, bne_iff_ne, decide_eq_true_eq, and_assoc]

/-! ### The peers' records -/

theorem peerOf_setPeer (d : Dev) (x : Peer) : peerOf (setPeer d x) x.rail x.p = some x := by
  have hgone : (d.peers.filter fun y => !(y.rail == x.rail && y.p == x.p)).find?
      (fun y => y.rail == x.rail && y.p == x.p) = none :=
    List.find?_eq_none.2 fun y hy => by simpa only [Bool.not_eq_true', Bool.not_eq_true] using (List.mem_filter.1 hy).2
  rw [peerOf, setPeer, List.find?_append, hgone]
  simp

/-- What is known of the peer behind link p, from its own frames or from the identity of its link alone. -/
def knownPeer (d : Dev) (L k p : Nat) : Peer := (peerOf d k p).getD (blankPeer d L k p)

theorem knownPeer_place (d : Dev) (L k p : Nat) : (knownPeer d L k p).rail = k ∧ (knownPeer d L k p).p = p := by
  unfold knownPeer
  cases hpeer : peerOf d k p with
  | none => exact ⟨rfl, rfl⟩
  | some x =>
    have hplace := List.find?_some hpeer
    simpa using hplace

theorem peers_when_set1 (d : Dev) (c : Bool) (F : Fld) (k : Nat) : (d.when c fun d => d.set1 F k).peers = d.peers := by
  cases c
  · rfl
  · rfl

theorem peers_cplShow (d : Dev) (k : Nat) : (cplShow d k).peers = d.peers := rfl

/-! ### CYCLE (R357, R359, R361) -/

/-- A peer's record once its CYCLE has come. -/
def cycledPeer (o : Peer) (pay : Nat) : Peer :=
  { o with heard := true, master := payBits pay 55 55 = 1, mstate := payBits pay 54 52,
           away := o.away || payBits pay 54 52 == 3, isum := sext (payBits pay 79 64) 16, nsw := payBits pay 62 56,
           cap := payBits pay 15 0, miss := 0 }

/-- 16 bits in two's complement (R2). -/
theorem sext_16_eq_bmod (x : Int) : sext x 16 = x.bmod 65536 := by norm_num [sext, Int.bmod]

theorem isum_cycledPeer (o : Peer) (pay : Nat) : (cycledPeer o pay).isum = (payBits pay 79 64 : Int).bmod 65536 := by
  rw [cycledPeer, sext_16_eq_bmod]

/-- The device once it keeps the record of its peer on link p, and shows that it is refused here (R353). -/
def cycleKept (d : Dev) (L k p pay : Nat) : Dev :=
  let e := setPeer d (cycledPeer (knownPeer d L k p) pay)
  e.when (refusedHere e k) fun d => d.set1 IG_RCAUSE_CPL_VER k

/-- The epochs of rail k that wait for that SEQ of the master are due (R355). -/
def epochsHit (d : Dev) (k seq : Nat) : Dev :=
  { d with epochs := d.epochs.map fun e => if e.rail == k && e.act == seq then { e with hit := true } else e }

theorem peers_epochsHit (d : Dev) (k seq : Nat) : (epochsHit d k seq).peers = d.peers := rfl

/-- It keeps the CI and the valley of a master's CYCLE (R357, R359). -/
def ciHeard (d : Dev) (k pay : Nat) : Dev := d.setH .cCi k (sext (payBits pay 47 32) 16)
def valleyHeard (d : Dev) (L k pay stamp : Nat) : Dev :=
  ((d.setH .cValley k ((stamp : Int) - d.f LN_LAT_RTT L / 2)).setH .cValleyOk k 1).setH .cAofs k (payBits pay 31 16)

/-- It follows the CYCLE of a master. -/
def masterFollowed (d : Dev) (L k pay stamp : Nat) : Dev :=
  epochsHit (valleyHeard (ciHeard d k pay) L k pay stamp) k (payBits pay 87 80)

theorem cycleReceive_own {d : Dev} {L k p pay : Nat} (stamp : Nat) (hup : linkUp d L = true)
    (hrails : cplRails d L = [(k, p)]) (hgroup : d.f IG_CPL_GROUP k = payBits pay 103 96) :
    cycleReceive d L pay stamp = cplShow
      (if payBits pay 55 55 = 1 && cplRole (cycleKept d L k p pay) k != cplMaster
        then masterFollowed (cycleKept d L k p pay) L k pay stamp else cycleKept d L k p pay) k :=
  takeCpl_own _ hup hrails hgroup

theorem peers_cycleKept (d : Dev) (L k p pay : Nat) :
    (cycleKept d L k p pay).peers = (setPeer d (cycledPeer (knownPeer d L k p) pay)).peers := peers_when_set1 ..

theorem peers_masterFollowed (d : Dev) (L k pay stamp : Nat) : (masterFollowed d L k pay stamp).peers = d.peers := by
  rw [masterFollowed, peers_epochsHit, valleyHeard, Dev.setH_peers, Dev.setH_peers, Dev.setH_peers, ciHeard, Dev.setH_peers]

theorem peerOf_cycleReceive {d : Dev} {L k p pay : Nat} (stamp : Nat) (hup : linkUp d L = true)
    (hrails : cplRails d L = [(k, p)]) (hgroup : d.f IG_CPL_GROUP k = payBits pay 103 96) :
    peerOf (cycleReceive d L pay stamp) k p = some (cycledPeer (knownPeer d L k p) pay) := by
  obtain ⟨hrail, hlink⟩ : (cycledPeer (knownPeer d L k p) pay).rail = k ∧ (cycledPeer (knownPeer d L k p) pay).p = p :=
    knownPeer_place d L k p
  have hkept : (cycleReceive d L pay stamp).peers = (setPeer d (cycledPeer (knownPeer d L k p) pay)).peers := by
    rw [cycleReceive_own stamp hup hrails hgroup, peers_cplShow, apply_ite Dev.peers, peers_masterFollowed, ite_self,
      peers_cycleKept]
  have hset := peerOf_setPeer d (cycledPeer (knownPeer d L k p) pay)
  rwa [hrail, hlink, peerOf, ← hkept, ← peerOf] at hset


/-! ### EPOCH (R355) -/

/-- The epoch that an EPOCH frame announces for rail k. -/
def announcedEpoch (k pay : Nat) : Epoch :=
  { rail := k, epoch := payBits pay 95 88, act := payBits pay 87 80, ver := payBits pay 79 72, feat := payBits pay 71 56,
    members := payBits pay 55 52, hit := false }

theorem mem_epochReceive {d : Dev} {L k p pay : Nat} (hup : linkUp d L = true) (hrails : cplRails d L = [(k, p)])
    (hgroup : d.f IG_CPL_GROUP k = payBits pay 103 96) (hrole : cplRole d k ≠ cplMaster) :
    announcedEpoch k pay ∈ (epochReceive d L pay).epochs := by
  have hkept : (epochReceive d L pay).epochs = d.epochs ++ [announcedEpoch k pay] := by
    rw [epochReceive, takeCpl_own _ hup hrails hgroup, if_neg hrole]
    dsimp only
    split
    · rfl
    · rfl
  rw [hkept]
  exact List.mem_append_right _ List.mem_cons_self

/-! ### CARRY (R363) -/

section Carry
variable {d : Dev} {L k p pay : Nat}

theorem carryReceive_accepted (hup : linkUp d L = true) (hrails : cplRails d L = [(k, p)])
    (hgroup : d.f IG_CPL_GROUP k = payBits pay 103 96) (hop : payBits pay 95 88 = 1) :
    carryReceive d L pay = d.setH .cCarry k 1 := by
  simp [carryReceive, takeCpl_own _ hup hrails hgroup, hop]

theorem carryReceive_refused (hup : linkUp d L = true) (hrails : cplRails d L = [(k, p)])
    (hgroup : d.f IG_CPL_GROUP k = payBits pay 103 96) (hop : payBits pay 95 88 = 2) :
    carryReceive d L pay = d.set1 IG_RCAUSE_CPL_VER k := by
  simp [carryReceive, takeCpl_own _ hup hrails hgroup, hop]

end Carry

/-! ### A frame of the rail's own group -/

section Own
variable {s : State} {l : Lane} {pay : BitVec 104} {k p : Nat} (hdom : domOn s.dev 0 = true)
  (hopen : lrxHeld s.dev l = false) (hrails : cplRails s.dev (leadLane s.dev l) = [(k, p)]) (hfits : s.dev.laneFill l < 16)
  (hup : linkUp s.dev (leadLane s.dev l) = true) (hgroup : s.dev.f IG_CPL_GROUP k = payBits pay.toNat 103 96)
include hdom hopen hfits

theorem helloReceive_makes :
    Makes (.helloReceive l pay) s fun d => helloReceive (d.laneIn l) (leadLane s.dev l) pay.toNat :=
  makes_of_cplCross (g := fun d L => helloReceive d L pay.toNat) (exec_helloReceive ..) hdom hopen hfits

include hrails hup hgroup

theorem cycleReceive_acts (stamp : BitVec 64) : Acts (.cycleReceive l pay stamp) s fun e => ∃ x, peerOf e k p = some x
    ∧ x.heard = true ∧ x.isum = (payBits pay.toNat 79 64 : Int).bmod 65536 ∧ x.nsw = payBits pay.toNat 62 56
    ∧ x.cap = payBits pay.toNat 15 0 ∧ x.miss = 0 := by
  have hmakes := makes_of_cplCross (g := fun d L => cycleReceive d L pay.toNat stamp.toNat) (exec_cycleReceive ..) hdom hopen
    hfits
  have hpeer := peerOf_cycleReceive (d := s.dev.laneIn l) stamp.toNat ((linkUp_laneIn ..).trans hup)
    ((cplRails_laneIn ..).trans hrails) ((f_laneIn ..).trans hgroup)
  exact hmakes.acts ⟨_, hpeer, rfl, isum_cycledPeer .., rfl, rfl, rfl⟩

theorem epochReceive_acts (hrole : cplRole s.dev k ≠ cplMaster) :
    Acts (.epochReceive l pay) s fun e => announcedEpoch k pay.toNat ∈ e.epochs := by
  have hmakes := makes_of_cplCross (g := fun d L => epochReceive d L pay.toNat) (exec_epochReceive ..) hdom hopen hfits
  exact hmakes.acts (mem_epochReceive ((linkUp_laneIn ..).trans hup) ((cplRails_laneIn ..).trans hrails)
    ((f_laneIn ..).trans hgroup) ((cplRole_laneIn ..).trans_ne hrole))

theorem carryReceive_makes_accepted (hop : payBits pay.toNat 95 88 = 1) :
    Makes (.carryReceive l pay) s fun d => (d.laneIn l).setH .cCarry k 1 := by
  have hmakes := makes_of_cplCross (g := fun d L => carryReceive d L pay.toNat) (exec_carryReceive ..) hdom hopen hfits
  exact hmakes.congr (carryReceive_accepted ((linkUp_laneIn ..).trans hup) ((cplRails_laneIn ..).trans hrails)
    ((f_laneIn ..).trans hgroup) hop)

theorem carryReceive_makes_refused (hop : payBits pay.toNat 95 88 = 2) :
    Makes (.carryReceive l pay) s fun d => (d.laneIn l).set1 IG_RCAUSE_CPL_VER k := by
  have hmakes := makes_of_cplCross (g := fun d L => carryReceive d L pay.toNat) (exec_carryReceive ..) hdom hopen hfits
  exact hmakes.congr (carryReceive_refused ((linkUp_laneIn ..).trans hup) ((cplRails_laneIn ..).trans hrails)
    ((f_laneIn ..).trans hgroup) hop)

end Own

/-! ### The statement -/

/-- Settles O18: each frame is decided first by the crossing, then by the group, and in the coupled rail of its group it does
what its kind says; a HELLO and a loss need their guard alone. -/
theorem coupledRailFrames : Obligations.CoupledRailFrames := by
  unfold Obligations.CoupledRailFrames
  intro s l k p pay d hdom L bits
  have hbits : bits = payBits pay.toNat := rfl
  clear_value bits
  subst hbits
  refine ⟨fun k hon hdue => ?hello, fun k q x hx hlink hmiss => ?lost, fun hopen hrails stamp => ?frames⟩
  case hello =>
    have hguard : (d.on IG_CPL_EN k && helloDue d k) = true := Bool.and_eq_true_iff.2 ⟨hon, (helloDue_iff d k).2 hdue⟩
    exact makes_of_svc (exec_helloSend k s) hdom hguard
  case lost =>
    have hguard : (peersOn d k).any (fun x => x.p == q.val && decide (d.f IG_CPL_GAIN_MISS k ≤ x.miss)) = true :=
      List.any_eq_true.2 ⟨x, hx, by simp [hlink, hmiss]⟩
    exact makes_of_svc rfl hdom hguard
  case frames =>
    intro all
    have hall : ∀ i ∈ [Instr.cycleReceive l pay stamp, .epochReceive l pay, .helloReceive l pay, .carryReceive l pay],
        CplFrame i l pay := by
      simp only [List.forall_mem_cons, List.not_mem_nil, false_imp_iff, implies_true, and_true]
      exact ⟨cplFrame_cycleReceive .., cplFrame_epochReceive .., cplFrame_helloReceive .., cplFrame_carryReceive ..⟩
    refine ⟨fun hfull i hi => (hall i hi).makes_full hdom hopen hrails hfull,
      fun hfits hup hgroup i hi => (hall i hi).makes_other hdom hopen hrails hfits hup hgroup,
      fun hfits hup hgroup => ⟨?_, fun hrole => ?_, ?_, fun hop => ?_, fun hop => ?_⟩⟩
    · exact cycleReceive_acts hdom hopen hrails hfits hup hgroup stamp
    · obtain ⟨e, hexec, hmem⟩ := epochReceive_acts hdom hopen hrails hfits hup hgroup hrole
      exact ⟨e, hexec, announcedEpoch k pay.toNat, hmem, rfl, rfl, rfl, rfl, rfl, rfl⟩
    · exact helloReceive_makes hdom hopen hfits
    · exact carryReceive_makes_accepted hdom hopen hrails hfits hup hgroup hop
    · exact carryReceive_makes_refused hdom hopen hrails hfits hup hgroup hop

end Sys2Proof.Machine
end

section
/-! PROOF. Intents and grants: which frames a rail takes, what becomes of an intent and of a CANCEL, and the events of pulses,
grants, estimates and STATUS (R324 to R348). -/

namespace Sys2Proof.Machine

/-! ### The crossing of an intent frame (R28, R29) -/

section Crossing
variable {d : Dev} {l pay : Nat} (g : Dev → Dev)

theorem intentCross_held (hheld : lrxHeld d l = true) : intentCross d l pay g = d := heard_of_held _ hheld

theorem intentCross_full (hopen : lrxHeld d l = false) (hfull : 16 ≤ d.laneFill l) :
    intentCross d l pay g = d.set1 IG_RCAUSE_DROP (payBits pay 103 100) := by
  rw [intentCross, heard_of_open _ hopen, if_pos hfull]

theorem intentCross_fits (hopen : lrxHeld d l = false) (hfits : d.laneFill l < 16) :
    intentCross d l pay g = g (d.laneIn l) := by
  rw [intentCross, heard_of_open _ hopen, if_neg (Nat.not_le.2 hfits)]

end Crossing

@[simp] theorem slotOf_laneIn (d : Dev) (l k m L : Nat) : slotOf (d.laneIn l) k m L = slotOf d k m L := rfl
@[simp] theorem partnerCap_laneIn (d : Dev) (l L c : Nat) : partnerCap (d.laneIn l) L c = partnerCap d L c := rfl
@[simp] theorem rlState_laneIn (d : Dev) (l k : Nat) : rlState (d.laneIn l) k = rlState d k := rfl
@[simp] theorem trustOf_laneIn (d : Dev) (l k q : Nat) : trustOf (d.laneIn l) k q = trustOf d k q := rfl
@[simp] theorem liveOn_laneIn (d : Dev) (l k : Nat) : liveOn (d.laneIn l) k = liveOn d k := rfl
@[simp] theorem on_laneIn (d : Dev) (l : Nat) (F : Fld) (k : Nat) : (d.laneIn l).on F k = d.on F k := rfl

/-! ### What a rail takes (R324) -/

/-- Whether rail k may take intent frames from the link led by lane L, of a slot that takes them. -/
def takesIntents (d : Dev) (L k : Nat) : Bool :=
  d.on IG_RCFG_EN k && (d.f LN_RAILS_RAILS L).testBit k && linkUp d L && partnerCap d L 0

theorem takesIntents_iff (d : Dev) (L k : Nat) : takesIntents d L k = true ↔
    d.on IG_RCFG_EN k = true ∧ (d.f LN_RAILS_RAILS L).testBit k = true ∧ linkUp d L = true ∧ partnerCap d L 0 = true := by
  simp only [takesIntents, Bool.and_eq_true, and_assoc]

@[simp] theorem takesIntents_laneIn (d : Dev) (l L k : Nat) : takesIntents (d.laneIn l) L k = takesIntents d L k := by
  rw [takesIntents, on_laneIn, f_laneIn, linkUp_laneIn, partnerCap_laneIn, takesIntents]

/-! ### INTENT (R331, R332, R362) -/

/-- The entry that an INTENT frame asks for, in slot q of its rail. -/
def askedIntent (d : Dev) (q L pay : Nat) (stamp : Int) : Intent :=
  newIntent d (payBits pay 103 100) q L 0 (payBits pay 99 92) (sext (payBits pay 91 76) 16) stamp
    (stamp + 2 * payBits pay 75 60 - d.f LN_LAT_RTT L / 2) (payBits pay 59 44) (payBits pay 43 40) (payBits pay 39 32)
    (trustOf d (payBits pay 103 100) q)

section NewIntent
variable (d : Dev) (k slot lane orig id : Nat) (delta stamp arr : Int) (dur conf rise te : Nat)

theorem newIntent_rail : (newIntent d k slot lane orig id delta stamp arr dur conf rise te).rail = k := rfl
theorem newIntent_delta : (newIntent d k slot lane orig id delta stamp arr dur conf rise te).delta = delta := rfl
theorem newIntent_stamp : (newIntent d k slot lane orig id delta stamp arr dur conf rise te).stamp = stamp := rfl
theorem newIntent_arr : (newIntent d k slot lane orig id delta stamp arr dur conf rise te).arr = arr := rfl
theorem newIntent_dur : (newIntent d k slot lane orig id delta stamp arr dur conf rise te).dur = dur := rfl

end NewIntent

section Asked
variable (d : Dev) (q L pay : Nat) (stamp : Int)

theorem askedIntent_rail : (askedIntent d q L pay stamp).rail = payBits pay 103 100 := by rw [askedIntent, newIntent_rail]

theorem askedIntent_delta : (askedIntent d q L pay stamp).delta = sext (payBits pay 91 76) 16 := by
  rw [askedIntent, newIntent_delta]

theorem askedIntent_lead : (askedIntent d q L pay stamp).arr - (askedIntent d q L pay stamp).stamp =
    stamp + 2 * payBits pay 75 60 - d.f LN_LAT_RTT L / 2 - stamp := by
  rw [askedIntent, newIntent_arr, newIntent_stamp]

end Asked

theorem askedIntent_laneIn (d : Dev) (l q L pay : Nat) (stamp : Int) : askedIntent (d.laneIn l) q L pay stamp =
    newIntent (d.laneIn l) (payBits pay 103 100) q L 0 (payBits pay 99 92) ((payBits pay 91 76 : Int).bmod 65536) stamp
      (stamp + 2 * payBits pay 75 60 - d.f LN_LAT_RTT L / 2) (payBits pay 59 44) (payBits pay 43 40) (payBits pay 39 32)
      (trustOf d (payBits pay 103 100) q) := by
  rw [askedIntent, sext_16_eq_bmod, f_laneIn, trustOf_laneIn]

/-- What the rail of an admitted intent sends. -/
def admittedAnswer (d : Dev) (i : Intent) : Dev :=
  let r := admitIntent d i
  sendGrant (if r.1.on IG_CPL_EN i.rail && r.2.2.1 < 3 then sendIfwd r.1 r.2.1 i.delta else r.1) r.2.1 r.2.2.1 r.2.2.2

/-- What becomes of an intent that its rail may take. -/
def answerIntent (d : Dev) (i : Intent) : Dev :=
  if i.delta = 0 || i.dur = 0 then sendGrant d i 3 3
  else if rlState d i.rail ≠ rlOn then sendGrant d i 3 0
  else if 16000 < i.arr - i.stamp then sendGrant (d.set1 IG_RCAUSE_EARLY i.rail) i 3 1
  else if cplRole d i.rail = cplMember then sendIfwd { d with fwdWait := d.fwdWait ++ [i] } i i.delta
  else admittedAnswer d i

section Frames
variable {d : Dev} {l pay q : Nat} {stamp : Int}

/-- A frame of no slot, or that the rail may not take, is dropped. -/
theorem intentFrame_dropped (h : slotOf d (payBits pay 103 100) l (leadLane d l) = none
    ∨ takesIntents d (leadLane d l) (payBits pay 103 100) = false) :
    intentFrame d l pay stamp = d.set1 IG_RCAUSE_DROP (payBits pay 103 100) := by
  cases hslot : slotOf d (payBits pay 103 100) l (leadLane d l) with
  | none => simp only [intentFrame, hslot]
  | some q =>
    have htakes := h.resolve_left (by simp [hslot])
    rw [takesIntents] at htakes
    simp only [intentFrame, hslot, htakes, Bool.not_false, Bool.true_or, if_true]

theorem intentFrame_taken (hslot : slotOf d (payBits pay 103 100) l (leadLane d l) = some q)
    (htakes : takesIntents d (leadLane d l) (payBits pay 103 100) = true)
    (hrole : cplRole d (payBits pay 103 100) ≠ cplDown) :
    intentFrame d l pay stamp = answerIntent d (askedIntent d q (leadLane d l) pay stamp) := by
  rw [takesIntents] at htakes
  simp only [intentFrame, hslot, htakes, hrole, Bool.not_true, decide_false, Bool.or_self, Bool.false_eq_true, if_false]
  simp only [answerIntent, admittedAnswer, askedIntent_rail, askedIntent_delta, askedIntent_lead]
  rw [askedIntent]

/-! ### CANCEL (R334) -/

theorem cancelFrame_dropped (h : slotOf d (payBits pay 103 100) l (leadLane d l) = none
    ∨ takesIntents d (leadLane d l) (payBits pay 103 100) = false) :
    cancelFrame d l pay = d.set1 IG_RCAUSE_DROP (payBits pay 103 100) := by
  cases hslot : slotOf d (payBits pay 103 100) l (leadLane d l) with
  | none => simp only [cancelFrame, hslot]
  | some q =>
    have htakes := h.resolve_left (by simp [hslot])
    rw [takesIntents] at htakes
    simp only [cancelFrame, hslot, htakes, Bool.not_false, if_true]

theorem cancelFrame_taken {i : Intent} (hslot : slotOf d (payBits pay 103 100) l (leadLane d l) = some q)
    (htakes : takesIntents d (leadLane d l) (payBits pay 103 100) = true)
    (hlive : (liveOn d (payBits pay 103 100)).find? (fun i => i.slot == q && i.orig == 0 && i.id == payBits pay 99 92) = some i) :
    cancelFrame d l pay =
      if (cancelIntent d i).on IG_CPL_EN (payBits pay 103 100) then sendIfwd (cancelIntent d i) i 0 else cancelIntent d i := by
  rw [takesIntents] at htakes
  simp only [cancelFrame, hslot, htakes, hlive, Bool.not_true, Bool.false_eq_true, if_false]

end Frames

section Answers
variable {d : Dev} {i : Intent}

theorem answerIntent_void (h : i.delta = 0 ∨ i.dur = 0) : answerIntent d i = sendGrant d i 3 3 :=
  if_pos (by simpa using h)

theorem answerIntent_railOff (hdelta : i.delta ≠ 0) (hdur : i.dur ≠ 0) (hrail : rlState d i.rail ≠ rlOn) :
    answerIntent d i = sendGrant d i 3 0 := by
  rw [answerIntent, if_neg (by simp [hdelta, hdur]), if_pos hrail]

theorem answerIntent_admitted (hdelta : i.delta ≠ 0) (hdur : i.dur ≠ 0) (hrail : rlState d i.rail = rlOn)
    (hlead : i.arr - i.stamp ≤ 16000) (hrole : cplRole d i.rail ≠ cplMember) : answerIntent d i = admittedAnswer d i := by
  rw [answerIntent, if_neg (by simp [hdelta, hdur]), if_neg (not_not.2 hrail), if_neg (not_lt.2 hlead), if_neg hrole]

end Answers

/-! ### The commands that bring in intent frames -/

section Commands
variable (s : State) (l : Lane) (pay : BitVec 104)

theorem exec_intent (stamp : BitVec 64) : exec (.intent l pay stamp) s =
    s.svc fun d => intentCross d l pay.toNat fun d => intentFrame d l pay.toNat stamp.toNat := rfl

theorem exec_cancel : exec (.cancel l pay) s =
    s.svc fun d => intentCross d l pay.toNat fun d => cancelFrame d l pay.toNat := rfl

theorem exec_ffPulseStart (k : Rail) : exec (.ffPulseStart k) s = s.svc fun d => ffShow (ffPresent d k) k := rfl

theorem exec_ffPulseEnd (k : Rail) : exec (.ffPulseEnd k) s = s.svc fun d => dropPulses (ffShow (ffPresent d k) k) := rfl

theorem exec_loadEstimate (k : Rail) :
    exec (.loadEstimate k) s = s.svc fun d => d.when (d.now % 16 == 0) fun d => loadEstimate d k := rfl

theorem exec_intentResolve (k : Rail) : exec (.intentResolve k) s = s.svc fun d => d.each 8 fun d _ => resolveHead d k := rfl

theorem exec_grantValidityEnd (k : Rail) (slot : Fin 4) (id : Byte) : exec (.grantValidityEnd k slot id) s =
    s.svc fun d => d.eachIn (d.intents.filter fun i => i.rail == k.val && i.slot == slot.val && i.id == id.toNat && i.valid
      && decide (i.arr + i.dur * 2000 ≤ (d.now : Int))) endGrant := rfl

theorem exec_statusSend : exec (.statusSend l) s = s.svc fun d =>
    d.when (d.on IG_DCFG_STPER && !isMember d l && d.hn .igStAt l ≤ d.now + 1 - d.f IG_DCFG_STPER * 2000) fun d =>
      statusSend (d.setH .igStAt l (d.now + 1 : Nat)) l := rfl

end Commands

section Cross
variable {s : State} {i : Instr} {l : Lane} {pay : BitVec 104} {g g' : Dev → Dev}

theorem makes_intentCross_held (hexec : exec i s = s.svc fun d => intentCross d l pay.toNat g) (hdom : domOn s.dev 0 = true)
    (hheld : lrxHeld s.dev l = true) : Makes i s fun d => d :=
  (makes_of_svc_unguarded hexec hdom).congr (intentCross_held g hheld)

theorem makes_intentCross_full (hexec : exec i s = s.svc fun d => intentCross d l pay.toNat g) (hdom : domOn s.dev 0 = true)
    (hopen : lrxHeld s.dev l = false) (hfull : 16 ≤ s.dev.laneFill l) :
    Makes i s fun d => d.set1 IG_RCAUSE_DROP (payBits pay.toNat 103 100) :=
  (makes_of_svc_unguarded hexec hdom).congr (intentCross_full g hopen hfull)

theorem makes_intentCross_fits (hexec : exec i s = s.svc fun d => intentCross d l pay.toNat g) (hdom : domOn s.dev 0 = true)
    (hopen : lrxHeld s.dev l = false) (hfits : s.dev.laneFill l < 16) (hg : g (s.dev.laneIn l) = g' s.dev) : Makes i s g' :=
  (makes_of_svc_unguarded hexec hdom).congr ((intentCross_fits g hopen hfits).trans hg)

end Cross

section Link
variable {s : State} {l : Lane} {pay : BitVec 104} (hdom : domOn s.dev 0 = true) (hopen : lrxHeld s.dev l = false)
  (hfits : s.dev.laneFill l < 16)
include hdom hopen hfits

theorem intent_makes_dropped (stamp : BitVec 64)
    (h : slotOf s.dev (payBits pay.toNat 103 100) l (leadLane s.dev l) = none
      ∨ takesIntents s.dev (leadLane s.dev l) (payBits pay.toNat 103 100) = false) :
    Makes (.intent l pay stamp) s fun _ => (s.dev.laneIn l).set1 IG_RCAUSE_DROP (payBits pay.toNat 103 100) := by
  have hframe := intentFrame_dropped (d := s.dev.laneIn l) (l := l) (pay := pay.toNat) (stamp := stamp.toNat)
  simp only [leadLane_laneIn, slotOf_laneIn, takesIntents_laneIn] at hframe
  exact makes_intentCross_fits (exec_intent ..) hdom hopen hfits (hframe h)

theorem cancel_makes_dropped (h : slotOf s.dev (payBits pay.toNat 103 100) l (leadLane s.dev l) = none
      ∨ takesIntents s.dev (leadLane s.dev l) (payBits pay.toNat 103 100) = false) :
    Makes (.cancel l pay) s fun _ => (s.dev.laneIn l).set1 IG_RCAUSE_DROP (payBits pay.toNat 103 100) := by
  have hframe := cancelFrame_dropped (d := s.dev.laneIn l) (l := l) (pay := pay.toNat)
  simp only [leadLane_laneIn, slotOf_laneIn, takesIntents_laneIn] at hframe
  exact makes_intentCross_fits (exec_cancel ..) hdom hopen hfits (hframe h)

variable {q : Nat} (hslot : slotOf s.dev (payBits pay.toNat 103 100) l (leadLane s.dev l) = some q)
  (htakes : takesIntents s.dev (leadLane s.dev l) (payBits pay.toNat 103 100) = true)
include hslot htakes

theorem intent_makes (stamp : BitVec 64) (hrole : cplRole s.dev (payBits pay.toNat 103 100) ≠ cplDown) :
    Makes (.intent l pay stamp) s fun _ =>
      answerIntent (s.dev.laneIn l) (askedIntent (s.dev.laneIn l) q (leadLane s.dev l) pay.toNat stamp.toNat) := by
  have hframe := intentFrame_taken (d := s.dev.laneIn l) (l := l) (pay := pay.toNat) (q := q) (stamp := stamp.toNat)
  simp only [leadLane_laneIn, slotOf_laneIn, takesIntents_laneIn, cplRole_laneIn] at hframe
  exact makes_intentCross_fits (exec_intent ..) hdom hopen hfits (hframe hslot htakes hrole)

theorem cancel_makes {i : Intent} (hlive : (liveOn s.dev (payBits pay.toNat 103 100)).find?
      (fun i => i.slot == q && i.orig == 0 && i.id == payBits pay.toNat 99 92) = some i) :
    Makes (.cancel l pay) s fun _ =>
      if (cancelIntent (s.dev.laneIn l) i).on IG_CPL_EN (payBits pay.toNat 103 100)
        then sendIfwd (cancelIntent (s.dev.laneIn l) i) i 0 else cancelIntent (s.dev.laneIn l) i := by
  have hframe := cancelFrame_taken (d := s.dev.laneIn l) (l := l) (pay := pay.toNat) (q := q) (i := i)
  simp only [leadLane_laneIn, slotOf_laneIn, takesIntents_laneIn, liveOn_laneIn] at hframe
  exact makes_intentCross_fits (exec_cancel ..) hdom hopen hfits (hframe hslot htakes hlive)

end Link

/-! ### Forwarded intents and grants (R362) -/

section Forwarded
variable {s : State} {l : Lane} {pay : BitVec 104} (hdom : domOn s.dev 0 = true) (hopen : lrxHeld s.dev l = false)
  (hfits : s.dev.laneFill l < 16)
include hdom hopen hfits

theorem ifwdReceive_makes (stamp : BitVec 64) :
    Makes (.ifwdReceive l pay stamp) s fun d => ifwdReceive (d.laneIn l) (leadLane s.dev l) pay.toNat stamp.toNat :=
  makes_of_cplCross (g := fun d L => ifwdReceive d L pay.toNat stamp.toNat) (exec_ifwdReceive ..) hdom hopen hfits

theorem gfwdReceive_makes : Makes (.gfwdReceive l pay) s fun d => gfwdReceive (d.laneIn l) (leadLane s.dev l) pay.toNat :=
  makes_of_cplCross (g := fun d L => gfwdReceive d L pay.toNat) (exec_gfwdReceive ..) hdom hopen hfits

end Forwarded

/-! ### Pulses (R343) -/

theorem act_ffShow (d : Dev) (k : Nat) : (ffShow (ffPresent d k) k).act = d.act := by
  simp only [ffShow, ffPresent, Dev.setF_act, Dev.setH_act]

theorem now_ffShow (d : Dev) (k : Nat) : (ffShow (ffPresent d k) k).now = d.now := by
  simp only [ffShow, ffPresent, Dev.setF_now, Dev.setH_now]

theorem decaySpan_congr {d e : Dev} (h : e.act = d.act) (k : Nat) : decaySpan e k = decaySpan d k := by
  rw [decaySpan, Dev.a, Dev.ar, h, ← Dev.ar, ← Dev.a, ← decaySpan]

/-- A pulse that is left has one of its terms to show still. -/
theorem lt_of_mem_dropPulses {d e : Dev} (hact : e.act = d.act) (hnow : e.now = d.now) {q : Pulse}
    (hq : q ∈ (dropPulses e).pulses) :
    (d.now : Int) < q.e + decaySpan d q.rail ∨ (d.now : Int) < q.vEnd + decaySpan d q.rail := by
  have hleft := of_decide_eq_true (List.mem_filter.1 hq).2
  rwa [hnow, decaySpan_congr hact, lt_max_iff] at hleft

/-! ### The statement -/

/-- Settles O19: an intent frame is decided by the pads, the crossing, its slot and what its rail may take, in this order, and
then by its own fields; the events of pulses, grants, estimates and STATUS need their guard alone. -/
theorem intentsAndGrants : Obligations.IntentsAndGrants := by
  unfold Obligations.IntentsAndGrants
  intro s l pay d hdom L bits
  have hbits : bits = payBits pay.toNat := rfl
  clear_value bits
  subst hbits
  intro f may
  have hmay : takesIntents d L f = true ↔ may := takesIntents_iff d L f
  refine ⟨?held, ?full, ?taken, ?events, ?ends, ?status, ?forwarded⟩
  case held =>
    intro hheld stamp
    simp only [List.forall_mem_cons, List.not_mem_nil, false_imp_iff, implies_true, and_true]
    exact ⟨makes_intentCross_held (exec_intent ..) hdom hheld, makes_intentCross_held (exec_cancel ..) hdom hheld,
      (cplFrame_ifwdReceive ..).makes_held hdom hheld, (cplFrame_gfwdReceive ..).makes_held hdom hheld,
      (cplFrame_cycleReceive ..).makes_held hdom hheld, (cplFrame_epochReceive ..).makes_held hdom hheld,
      (cplFrame_helloReceive ..).makes_held hdom hheld, (cplFrame_carryReceive ..).makes_held hdom hheld⟩
  case full =>
    exact fun hopen hfull stamp => ⟨makes_intentCross_full (exec_intent ..) hdom hopen hfull,
      makes_intentCross_full (exec_cancel ..) hdom hopen hfull⟩
  case taken =>
    intro hopen hfits e
    refine ⟨fun hno stamp => ?_, fun q stamp hslot hmust hrole => ?_, fun q i hslot hmust hlive => ?_⟩
    · have hdropped : slotOf d f l L = none ∨ takesIntents d L f = false :=
        hno.imp_right fun hnot => Bool.eq_false_iff.2 (mt hmay.1 hnot)
      exact ⟨intent_makes_dropped hdom hopen hfits stamp hdropped, cancel_makes_dropped hdom hopen hfits hdropped⟩
    · intro delta arr i
      have hmakes : Makes (.intent l pay stamp) s fun _ => answerIntent e (askedIntent e q L pay.toNat stamp.toNat) :=
        intent_makes hdom hopen hfits hslot (hmay.2 hmust) stamp hrole
      have hasked : askedIntent e q L pay.toNat stamp.toNat = i := askedIntent_laneIn ..
      rw [hasked] at hmakes
      have hi_rail : i.rail = f := newIntent_rail ..
      have hi_delta : i.delta = delta := newIntent_delta ..
      have hi_dur : i.dur = payBits pay.toNat 59 44 := newIntent_dur ..
      have hi_lead : i.arr - i.stamp = arr - stamp.toNat := congrArg₂ _ (newIntent_arr ..) (newIntent_stamp ..)
      have hi_state : rlState e i.rail = rlState d f := (rlState_laneIn ..).trans (congrArg _ hi_rail)
      have hi_role : cplRole e i.rail = cplRole d f := (cplRole_laneIn ..).trans (congrArg _ hi_rail)
      clear_value i e
      refine ⟨fun hvoid => ?_, fun hdelta hdur hrail => ?_, fun hdelta hdur hrail hlead hmember => ?_⟩
      · exact hmakes.congr (answerIntent_void (hvoid.imp hi_delta.trans hi_dur.trans))
      · exact hmakes.congr (answerIntent_railOff (hi_delta.trans_ne hdelta) (hi_dur.trans_ne hdur) (hi_state.trans_ne hrail))
      · have hanswer : answerIntent e i = admittedAnswer e i :=
          answerIntent_admitted (hi_delta.trans_ne hdelta) (hi_dur.trans_ne hdur) (hi_state.trans hrail)
            (hi_lead.trans_le hlead) (hi_role.trans_ne hmember)
        exact hmakes.congr (hanswer.trans (by rw [admittedAnswer, hi_rail, hi_delta]))
    · exact cancel_makes hdom hopen hfits hslot (hmay.2 hmust) hlive
  case events =>
    intro k
    refine ⟨makes_of_svc_unguarded (exec_ffPulseStart ..) hdom, ?_, fun htick => ?_,
      makes_of_svc_unguarded (exec_intentResolve ..) hdom⟩
    · exact (makes_of_svc_unguarded (exec_ffPulseEnd s k) hdom).acts
        fun q hq => lt_of_mem_dropPulses (act_ffShow d k) (now_ffShow d k) hq
    · exact makes_of_svc (exec_loadEstimate s k) hdom (beq_iff_eq.2 htick)
  case ends =>
    intro k slot id i hone
    exact (makes_of_svc_unguarded (exec_grantValidityEnd s k slot id) hdom).congr (by rw [hone]; rfl)
  case status =>
    intro hperiod hsingle hdue
    have hguard : (d.on IG_DCFG_STPER && !isMember d l
        && decide (d.hn .igStAt l ≤ d.now + 1 - d.f IG_DCFG_STPER * 2000)) = true := by
      rw [hperiod, hsingle, decide_eq_true hdue]
      rfl
    exact makes_of_svc (exec_statusSend s l) hdom hguard
  case forwarded =>
    intro k p stamp hopen hrails both
    refine ⟨fun hfull => ?_, fun hfits hup => ⟨fun hgroup => ?_, fun hgroup => ?_⟩⟩
    · exact ⟨(cplFrame_ifwdReceive ..).makes_full hdom hopen hrails hfull,
        (cplFrame_gfwdReceive ..).makes_full hdom hopen hrails hfull⟩
    · exact ⟨(cplFrame_ifwdReceive ..).makes_other hdom hopen hrails hfits hup hgroup,
        (cplFrame_gfwdReceive ..).makes_other hdom hopen hrails hfits hup hgroup⟩
    · exact ⟨ifwdReceive_makes hdom hopen hfits stamp, gfwdReceive_makes hdom hopen hfits⟩

end Sys2Proof.Machine
end

section
/-! PROOF. The converters' sequencers: what a trigger finds, what follows a discarded conversion and a last step, and where
a finished record goes (R367 to R388). -/

namespace Sys2Proof.Machine

/-! ### Triggers (R378, R379, R381) -/

section Trigger
variable {d : Dev} {c : Nat}

variable (hen : d.on TC_CTL_EN c = true) (hdom : domOn d 12 = true)
include hen hdom

theorem tcTrigger_idle (hst : d.f TC_STATUS_STATE c = 0) : tcTrigger d c = seqStart d c (pclkUp d + 20) := by
  simp [tcTrigger, hen, hdom, hst]

theorem tcTrigger_pends (hst : d.f TC_STATUS_STATE c = 1) (hmode : d.on TC_CFG_MODE c = false) :
    tcTrigger d c = d.setF TC_STATUS_STATE c 2 := by
  simp [tcTrigger, hen, hdom, hst, hmode]

theorem tcTrigger_restarts {x : TcSeq} (hst : d.f TC_STATUS_STATE c = 1) (hmode : d.on TC_CFG_MODE c = true)
    (hseq : tcSeqOf d c = some x) :
    tcTrigger d c = setSeq (d.setF TC_STATUS_STATE c 3) c (some { x with stop := 1 }) := by
  simp [tcTrigger, hen, hdom, hst, hmode, hseq]

theorem tcTrigger_drops (hst : 2 ≤ d.f TC_STATUS_STATE c) :
    tcTrigger d c = (d.set1 TC_CAUSE_OVR c).incSat TC_CNT_TDROP c := by
  have hbusy : d.f TC_STATUS_STATE c ≠ 0 := by omega
  have hnotRunning : d.f TC_STATUS_STATE c ≠ 1 := by omega
  simp [tcTrigger, hen, hdom, hbusy, hnotRunning]

end Trigger

/-- A command that triggers converter c, after `g` has changed no register, no sequence and not the time, starts a sequence,
fills the slot, restarts the sequence or drops the trigger, as the sequencer stands. -/
theorem trigger_makes {i : Instr} {s : State} {c : Nat} {g : Dev → Dev} (htrig : Makes i s fun d => tcTrigger (g d) c)
    (hregs : (g s.dev).regs = s.dev.regs) (hseqs : (g s.dev).tcSeqs = s.dev.tcSeqs) (hnow : (g s.dev).now = s.dev.now)
    (hen : s.dev.on TC_CTL_EN c = true) (hdom : domOn s.dev 12 = true) :
    (s.dev.f TC_STATUS_STATE c = 0 → Makes i s fun d => seqStart (g d) c ((d.now + 9) / 10 * 10 + 20))
    ∧ (s.dev.f TC_STATUS_STATE c = 1 → s.dev.on TC_CFG_MODE c = false →
        Makes i s fun d => (g d).setF TC_STATUS_STATE c 2)
    ∧ (∀ x, s.dev.f TC_STATUS_STATE c = 1 → s.dev.on TC_CFG_MODE c = true → tcSeqOf s.dev c = some x →
        Makes i s fun d => setSeq ((g d).setF TC_STATUS_STATE c 3) c (some { x with stop := 1 }))
    ∧ (2 ≤ s.dev.f TC_STATUS_STATE c → Makes i s fun d => ((g d).set1 TC_CAUSE_OVR c).incSat TC_CNT_TDROP c) := by
  have hf (F : Fld) (j : Nat) : (g s.dev).f F j = s.dev.f F j := by simp only [Dev.f, Dev.r, hregs]
  have hon (F : Fld) (j : Nat) : (g s.dev).on F j = s.dev.on F j := by simp only [Dev.on, hf]
  have hgdom : domOn (g s.dev) 12 = true := by rw [← hdom]; simp only [domOn, hf]
  have hgseq : tcSeqOf (g s.dev) c = tcSeqOf s.dev c := by simp only [tcSeqOf, hseqs]
  rw [← hon] at hen
  rw [← hf, ← hon, ← hgseq]
  refine ⟨fun hst => ?_, fun hst hmode => ?_, fun x hst hmode hseq => ?_, fun hst => ?_⟩
  · exact htrig.congr ((tcTrigger_idle hen hgdom hst).trans (by rw [pclkUp, hnow]))
  · exact htrig.congr (tcTrigger_pends hen hgdom hst hmode)
  · exact htrig.congr (tcTrigger_restarts hen hgdom hst hmode hseq)
  · exact htrig.congr (tcTrigger_drops hen hgdom hst)

/-! ### A discarded conversion (R372) -/

/-- A discard that is not delivered leaves the channel it was of, and the conversion that counts samples where it ends. -/
theorem convDone_discarded {d : Dev} {c : Nat} {v : Int} {x : TcSeq} (hseq : tcSeqOf d c = some x)
    (hdue : x.start + 400 ≤ d.now) (hstop : x.stop = 0) (hdisc : x.disc = true) (hraw : d.on TC_CFG_RAW c = false) :
    convDone d c v = setSeq (d.setH .tcPrevCh c (tcCh ((x.steps[x.cur]?).getD 0) + 1 : Nat)) c
      (some { x with disc := false, start := x.start + 400 }) := by
  have hlate : ¬d.now < x.start + 400 := Nat.not_lt.2 hdue
  simp [convDone, hseq, hlate, hdisc, hstop, hraw]

/-! ### The end of a sequence (R378, R383) -/

/-- The last step's conversion ends the sequence. -/
theorem convDone_last {d : Dev} {c : Nat} {x : TcSeq} (v : Int) (hseq : tcSeqOf d c = some x)
    (hdue : x.start + 400 ≤ d.now) (hstop : x.stop = 0) (hdisc : x.disc = false) (hlast : x.steps.length ≤ x.cur + 1) :
    ∃ e, convDone d c v = seqEnd e c (x.start + 400) false false := by
  have hlate : ¬d.now < x.start + 400 := Nat.not_lt.2 hdue
  have hmore : ¬x.cur + 1 < x.steps.length := Nat.not_lt.2 hlast
  simp only [convDone, hseq, if_neg hlate, hdisc, Bool.false_eq_true, if_false, hstop, ne_eq, not_true_eq_false,
    if_neg hmore]
  exact ⟨_, rfl⟩

/-- The start of a sequence writes no register but the status of its converter. -/
theorem on_seqStart_other (d : Dev) (start : Nat) {c j : Nat} {F : Fld} (h : TC_STATUS.addr c ≠ F.reg.addr j) :
    (seqStart d c start).on F j = d.on F j := by
  have hstatus {G : Fld} (e : Dev) (v : Int) (hG : G.reg = TC_STATUS) : (e.setF G c v).on F j = e.on F j :=
    Dev.on_setF_other e v (hG ▸ h)
  rw [seqStart, hstatus _ _ rfl, hstatus _ _ rfl, hstatus _ _ rfl]
  refine Dev.eachIn_keep (P := fun e => e.on F j = d.on F j) _ d rfl fun e x he => ?_
  split
  · exact he
  · exact he

/-- Status and causes of a converter are registers apart, and an event touches neither. -/
theorem tcAddrs_apart : ∀ c : Fin 8, TC_STATUS.addr c ≠ TC_CAUSE.addr c
    ∧ TR_CAUSE.addr 0 ≠ TC_CAUSE.addr c ∧ TR_DROPCNT.addr 0 ≠ TC_CAUSE.addr c := by decide

/-- The close of a completed sequence: DONE and its event, an idle sequencer, and no sequence (R378, R383). -/
def seqClosed (d : Dev) (c : Nat) : Dev :=
  setSeq ((((d.set1 TC_CAUSE_DONE c).raise (0x240 + c)).setF TC_STATUS_STATE c 0).setF TC_STATUS_STEP c 0) c none

/-- A sequence that ends completed is closed, and the next one starts where one is due. -/
theorem seqEnd_completed (d : Dev) (c fin : Nat) (restart : Bool) :
    ∃ e, seqEnd d c fin false restart = seqStart (seqClosed e c) c fin ∨ seqEnd d c fin false restart = seqClosed e c := by
  simp only [seqEnd, Bool.false_eq_true, if_false]
  exact ⟨_, ite_eq_or_eq ..⟩

theorem done_of_seqClosed (d : Dev) (c : Fin 8) : (seqClosed d c).on TC_CAUSE_DONE c = true := by
  obtain ⟨hstatus, hcause, hcount⟩ := tcAddrs_apart c
  calc (seqClosed d c).on TC_CAUSE_DONE c
    _ = ((d.set1 TC_CAUSE_DONE c).raise (0x240 + c)).on TC_CAUSE_DONE c :=
      (Dev.on_setF_other _ _ hstatus).trans (Dev.on_setF_other _ _ hstatus)
    _ = (d.set1 TC_CAUSE_DONE c).on TC_CAUSE_DONE c := by rw [Dev.on, Dev.f_raise_other _ _ hcause hcount, Dev.on]
    _ = true := Dev.on_set1 _ _ _ (by decide) (by decide)

/-- A sequence that ends completed sets DONE, and the sequence that may follow leaves it. -/
theorem done_of_seqEnd (d : Dev) (c : Fin 8) (fin : Nat) (restart : Bool) :
    (seqEnd d c fin false restart).on TC_CAUSE_DONE c = true := by
  obtain ⟨hstatus, -, -⟩ := tcAddrs_apart c
  obtain ⟨e, hnext | hidle⟩ := seqEnd_completed d c fin restart
  · rw [hnext, on_seqStart_other _ _ hstatus, done_of_seqClosed]
  · rw [hidle, done_of_seqClosed]

/-! ### Records handed over (R383, R386 to R388) -/

/-- The device once converter c has handed over record r: the record is gone, the next one waits for the next PCLK edge, and
the latest values and the causes are those of the record. -/
def recordTaken (c : Nat) (r : TcRec) (d : Dev) : Dev :=
  let d := { d with tcRecs := d.tcRecs.erase r }.setH .tcHand c (d.now / 10 * 10 + 10 : Nat)
  let d := if r.w0.testBit 16 then
      (d.setF TC_LAST_W0 (16 * c + r.w0 / 2 ^ 28) r.w0).setF TC_LASTT_STAMP (16 * c + r.w0 / 2 ^ 28) r.stamp
    else d
  let d := if r.w0.testBit 21 then d.set1 TC_CAUSE_RANGE c else d
  if r.w0.testBit 22 then d.set1 TC_CAUSE_PFAIL c else d

/-- The ring of converter c takes record r as one element. -/
def recordPut (t : State) (c : Nat) (r : TcRec) : Bool × State :=
  ringPut t (t.dev.f TC_RING_RING c) (leBytes 4 r.w0 ++ leBytes 4 r.w1 ++ leBytes 8 r.stamp)

/-- A record that its ring does not take is dropped there, and the converter counts it. -/
def recordLost (t : State) (ring c : Nat) : State :=
  (ringDrop t ring).onDev fun d => (d.set1 TC_CAUSE_RING_OVR c).incSat TC_CNT_RDROP c

/-- Record r of converter c goes to the converter's ring where its partition owns the ring, and is lost where the ring is
another's or does not take it. -/
def recordSent (t : State) (c : Nat) (r : TcRec) : State :=
  let ring := t.dev.f TC_RING_RING c
  let p := if ringOwner t.dev ring = (convOwner t.dev c, false) then recordPut t c r else (false, t)
  if p.1 then p.2 else recordLost p.2 ring c

theorem recordSent_taken {t : State} {c : Nat} {r : TcRec}
    (hown : ringOwner t.dev (t.dev.f TC_RING_RING c) = (convOwner t.dev c, false)) (hput : (recordPut t c r).1 = true) :
    recordSent t c r = (recordPut t c r).2 := by
  rw [recordSent, if_pos hown, if_pos hput]

theorem recordSent_lost {t : State} {c : Nat} {r : TcRec}
    (h : ringOwner t.dev (t.dev.f TC_RING_RING c) ≠ (convOwner t.dev c, false) ∨ (recordPut t c r).1 = false) :
    recordSent t c r = recordLost
      (if ringOwner t.dev (t.dev.f TC_RING_RING c) = (convOwner t.dev c, false) then (recordPut t c r).2 else t)
      (t.dev.f TC_RING_RING c) c := by
  by_cases hown : ringOwner t.dev (t.dev.f TC_RING_RING c) = (convOwner t.dev c, false)
  · have hput : ¬(recordPut t c r).1 = true := by simp [h.resolve_left (not_not.2 hown)]
    rw [recordSent, if_pos hown, if_pos hown, if_neg hput]
  · rw [recordSent, if_neg hown, if_neg hown, if_neg Bool.false_ne_true]

/-- With SVC on and the PCLK edge come, the first record of an ended sequence is taken and sent. -/
theorem recordHandover_leads {s : State} {c : Fin 8} {r : TcRec} (hdom : domOn s.dev 0 = true)
    (hdue : s.dev.hn .tcHand c ≤ s.dev.now)
    (hfind : s.dev.tcRecs.find? (fun r => r.conv == c.val && r.handed) = some r) :
    Leads (.recordHandover c) s (recordSent (s.onDev (recordTaken c r)) c r) := by
  have hexec : exec (.recordHandover c) s = execRecordHandover c s := rfl
  simp only [Leads, hexec, execRecordHandover, hdom, hdue, decide_true, Bool.and_true, hfind, ne_eq, ite_not]
  rfl

/-! ### The statement -/

/-- Settles O20: a trigger does what the state of the sequencer asks for, one that finds a sequence being abandoned is
dropped in either mode (notes/assumptions/36.md), and the other two events follow the sequence and the first record due. -/
theorem converterSequencers : Obligations.ConverterSequencers := by
  unfold Obligations.ConverterSequencers
  intro s c d src next
  refine ⟨fun hsrc hdue hen hdom => ?period, fun hsrc hen hdom => ?trail,
    fun v x hseq hdue hstop => ⟨fun hdisc hraw => ?discard, fun hdisc hlast => ?last⟩,
    fun hdom r hfind _ hdue => ?handover⟩
  case period =>
    have hguard : (d.on TC_CTL_EN c && d.f TC_CFG_TSRC c == 1 && decide (d.hn .tcPerAt c ≤ d.now)) = true := by
      rw [hen, beq_iff_eq.2 hsrc, decide_eq_true hdue]
      rfl
    exact trigger_makes (makes_of_when rfl hguard) rfl rfl rfl hen hdom
  case trail => exact trigger_makes (g := fun d => d) (makes_of_when rfl (beq_iff_eq.2 hsrc)) rfl rfl rfl hen hdom
  case discard => exact makes_of_ok rfl (convDone_discarded hseq hdue hstop hdisc hraw)
  case last =>
    obtain ⟨e, hends⟩ := convDone_last v hseq hdue hstop hdisc hlast
    have hmakes : Makes (.conversionDone c v) s fun _ => seqEnd e c (x.start + 400) false false := makes_of_ok rfl hends
    exact hmakes.acts (done_of_seqEnd e c _ false)
  case handover =>
    have hleads := recordHandover_leads hdom hdue hfind
    exact ⟨fun hown hput => hleads.trans (congrArg _ (recordSent_taken hown hput)),
      fun hlost => hleads.trans (congrArg _ (recordSent_lost hlost))⟩

end Sys2Proof.Machine
end

section
/-! PROOF. An instruction word says which instruction it is: a reading of words that takes every instruction's word back to
the instruction with its operands (R570, R572, R574 to R586). -/

namespace Sys2Proof.Machine

/-! ### Reading a word -/

/-- A field of five bits, as a register's number or a count. -/
def fiveAt (w : Word) (lo : Nat) : Fin 32 := Fin.ofNat 32 (bitsOf w lo 5)

/-- A field of n bits, as bits. -/
def fieldAt (w : Word) (lo n : Nat) : BitVec n := BitVec.ofNat n (bitsOf w lo n)

/-- A bit as a flag. -/
def flagAt (w : Word) (lo : Nat) : Bool := bitsOf w lo 1 == 1

-- The compiler numbers no constructor this high, so these definitions are for proofs alone.
noncomputable section

/-- The instruction of major opcode 0x01 (R573, R574). -/
def aluOf (c : Cpu) (rt ra rb : GReg) (sf : Bool) : Nat → Option Instr
  | 0x00 => some (.add c rt ra rb sf)
  | 0x01 => some (.sub c rt ra rb sf)
  | 0x02 => some (.adc c rt ra rb sf)
  | 0x03 => some (.sbc c rt ra rb sf)
  | 0x04 => some (.and c rt ra rb sf)
  | 0x05 => some (.or c rt ra rb sf)
  | 0x06 => some (.xor c rt ra rb sf)
  | 0x07 => some (.andn c rt ra rb sf)
  | 0x08 => some (.shl c rt ra rb sf)
  | 0x09 => some (.shr c rt ra rb sf)
  | 0x0A => some (.sar c rt ra rb sf)
  | 0x0B => some (.ror c rt ra rb sf)
  | 0x0C => some (.shli c rt ra rb sf)
  | 0x0D => some (.shri c rt ra rb sf)
  | 0x0E => some (.sari c rt ra rb sf)
  | 0x0F => some (.rori c rt ra rb sf)
  | 0x10 => some (.min c rt ra rb sf)
  | 0x11 => some (.max c rt ra rb sf)
  | 0x12 => some (.minu c rt ra rb sf)
  | 0x13 => some (.maxu c rt ra rb sf)
  | 0x14 => some (.clz c rt ra sf)
  | 0x15 => some (.cls c rt ra sf)
  | 0x16 => some (.popc c rt ra sf)
  | 0x17 => some (.rev c rt ra sf)
  | 0x18 => some (.permr c rt ra rb sf)
  | 0x19 => some (.abs c rt ra sf)
  | 0x1A => some (.adds c rt ra rb sf)
  | 0x1B => some (.subs c rt ra rb sf)
  | _ => none

/-- The instruction of major opcode 0x02 (R575). -/
def mulOf (c : Cpu) (rt ra rb : GReg) (sf : Bool) : Nat → Option Instr
  | 0x00 => some (.mul c rt ra rb sf)
  | 0x01 => some (.mulhs c rt ra rb sf)
  | 0x02 => some (.mulhu c rt ra rb sf)
  | 0x04 => some (.div c rt ra rb sf)
  | 0x05 => some (.divu c rt ra rb sf)
  | 0x06 => some (.rem c rt ra rb sf)
  | 0x07 => some (.remu c rt ra rb sf)
  | _ => none

/-- The instruction of major opcode 0x03 (R577), by its bits NEG and ACC. -/
def fixedOf (c : Cpu) (rt ra rb : GReg) (sf u rnd : Bool) (sh : Fin 32) : Bool → Bool → Instr
  | false, false => .mulq c rt ra rb sf u rnd sh
  | true, false => .mulqn c rt ra rb sf u rnd sh
  | false, true => .macq c rt ra rb sf u rnd sh
  | true, true => .msuq c rt ra rb sf u rnd sh

/-- The instruction of major opcode 0x04 (R578). -/
def bitFieldOf (c : Cpu) (rt ra : GReg) (pos wm1 : Fin 32) : Nat → Option Instr
  | 0x00 => some (.bfx c rt ra pos wm1)
  | 0x01 => some (.bfxs c rt ra pos wm1)
  | 0x02 => some (.bfi c rt ra pos wm1)
  | _ => none

/-- The instruction of a major opcode of formats I and M (R579 to R581). -/
def immOf (c : Cpu) (rt ra : GReg) (m : BitVec 16) : Nat → Option Instr
  | 0x05 => some (.perm c rt ra m)
  | 0x06 => some (.addi c rt ra m)
  | 0x07 => some (.addis c rt ra m)
  | 0x08 => some (.andi c rt ra m)
  | 0x09 => some (.ori c rt ra m)
  | 0x0A => some (.xori c rt ra m)
  | 0x0B => some (.lui c rt m)
  | 0x0C => some (.cmpi c ra m)
  | 0x10 => some (.ldb c rt ra m)
  | 0x11 => some (.ldbu c rt ra m)
  | 0x12 => some (.ldh c rt ra m)
  | 0x13 => some (.ldhu c rt ra m)
  | 0x14 => some (.ldw c rt ra m)
  | 0x15 => some (.stb c rt ra m)
  | 0x16 => some (.sth c rt ra m)
  | 0x17 => some (.stw c rt ra m)
  | _ => none

/-- The instruction of major opcode 0x30 (R586). -/
def sysOf (c : Cpu) (rt ra : GReg) (code : BitVec 10) : Nat → Option Instr
  | 0x00 => some (.syscall c code)
  | 0x01 => some (.brk c code)
  | 0x02 => some (.eret c)
  | 0x03 => some (.wait c)
  | 0x04 => some (.sync c)
  | 0x05 => some (.mfcr c rt code)
  | 0x06 => some (.mtcr c code rt)
  | 0x07 => some (.imset c rt)
  | 0x08 => some (.imclr c rt)
  | 0x09 => some (.tinvA c ra)
  | 0x0A => some (.tinvT c ra)
  | 0x0B => some (.tinvAll c)
  | 0x10 => some (.done c)
  | 0x11 => some (.drop c)
  | _ => none

/-- The jump to a register that major opcode 0x23 names (R585). -/
def jumpOf (c : Cpu) (rt : GReg) (ra : GRegS) : Nat → Option Instr
  | 0 => some (.jr c ra)
  | 1 => some (.jalr c rt ra)
  | _ => none

/-- The instruction of a CPU that a word says, by its major opcode and the fields of that opcode's format (R570). -/
def wordInstr (c : Cpu) (w : Word) : Option Instr :=
  let rt := fiveAt w 21
  let ra := fiveAt w 16
  let rb := fiveAt w 11
  let sf := flagAt w 10
  let fn := bitsOf w 0 6
  match bitsOf w 26 6 with
  | 0x01 => aluOf c rt ra rb sf fn
  | 0x02 => mulOf c rt ra rb sf fn
  | 0x03 => some (fixedOf c rt ra rb sf (flagAt w 9) (flagAt w 6) (fiveAt w 0) (flagAt w 8) (flagAt w 7))
  | 0x04 => bitFieldOf c rt ra rb (fiveAt w 6) fn
  | 0x18 => some (.cas c rt ra ⟨rb, sf⟩)
  | 0x20 => some (.bcond c (Fin.ofNat 16 (bitsOf w 22 4)) (fieldAt w 0 22))
  | 0x21 => some (.jmp c (fieldAt w 0 26))
  | 0x22 => some (.call c (fieldAt w 0 26))
  | 0x23 => jumpOf c rt ⟨ra, sf⟩ fn
  | 0x30 => sysOf c rt ra (fieldAt w 11 10) fn
  | op => immOf c rt ra (fieldAt w 0 16) op

end

/-! ### The fields of a word in each format -/

/-- The bits of a word that is given as a number. -/
theorem bitsOf_ofNat (x lo n : Nat) (h32 : lo + n ≤ 32) : bitsOf (BitVec.ofNat 32 x) lo n = x / 2 ^ lo % 2 ^ n := by
  have hdvd : 2 ^ (lo + n) ∣ 2 ^ 32 := pow_dvd_pow 2 h32
  rw [bitsOf, BitVec.extractLsb'_toNat, BitVec.toNat_ofNat, Nat.shiftRight_eq_div_pow, ← Nat.mod_mul_right_div_self,
    ← pow_add, Nat.mod_mod_of_dvd _ hdvd, pow_add, Nat.mod_mul_right_div_self]

theorem fiveAt_eq {w : Word} {lo : Nat} {r : Fin 32} (h : bitsOf w lo 5 = r) : fiveAt w lo = r := by
  rw [fiveAt, h]; exact Fin.ofNat_val_eq_self r

theorem fieldAt_eq {w : Word} {lo n : Nat} {x : BitVec n} (h : bitsOf w lo n = x.toNat) : fieldAt w lo n = x := by
  rw [fieldAt, h, BitVec.ofNat_toNat, BitVec.setWidth_eq]

theorem flagAt_eq {w : Word} {lo : Nat} {b : Bool} (h : bitsOf w lo 1 = b.toNat) : flagAt w lo = b := by
  rw [flagAt, h]; cases b <;> rfl

section Formats
variable (op fn : Nat) (rt ra rb sh : Fin 32) (sf u neg acc rnd : Bool)

theorem fields_encR (hop : op < 64) (hfn : fn < 64) :
    let w := encR op rt ra rb sf fn
    bitsOf w 26 6 = op ∧ fiveAt w 21 = rt ∧ fiveAt w 16 = ra ∧ fiveAt w 11 = rb ∧ flagAt w 10 = sf ∧ bitsOf w 0 6 = fn := by
  have hsf := sf.toNat_le
  refine ⟨?_, fiveAt_eq ?_, fiveAt_eq ?_, fiveAt_eq ?_, flagAt_eq ?_, ?_⟩
  all_goals rw [encR, bitsOf_ofNat _ _ _ (by decide)]; omega

theorem fields_encQ :
    let w := encQ rt ra rb sf u neg acc rnd sh
    bitsOf w 26 6 = 3 ∧ fiveAt w 21 = rt ∧ fiveAt w 16 = ra ∧ fiveAt w 11 = rb ∧ flagAt w 10 = sf ∧ flagAt w 9 = u
    ∧ flagAt w 8 = neg ∧ flagAt w 7 = acc ∧ flagAt w 6 = rnd ∧ fiveAt w 0 = sh := by
  have hsf := sf.toNat_le
  have hu := u.toNat_le
  have hneg := neg.toNat_le
  have hacc := acc.toNat_le
  have hrnd := rnd.toNat_le
  refine ⟨?_, fiveAt_eq ?_, fiveAt_eq ?_, fiveAt_eq ?_, flagAt_eq ?_, flagAt_eq ?_, flagAt_eq ?_, flagAt_eq ?_, flagAt_eq ?_,
    fiveAt_eq ?_⟩
  all_goals rw [encQ, bitsOf_ofNat _ _ _ (by decide)]; omega

theorem fields_encF (hfn : fn < 64) :
    let w := encF rt ra rb sh fn
    bitsOf w 26 6 = 4 ∧ fiveAt w 21 = rt ∧ fiveAt w 16 = ra ∧ fiveAt w 11 = rb ∧ fiveAt w 6 = sh ∧ bitsOf w 0 6 = fn := by
  refine ⟨?_, fiveAt_eq ?_, fiveAt_eq ?_, fiveAt_eq ?_, fiveAt_eq ?_, ?_⟩
  all_goals rw [encF, bitsOf_ofNat _ _ _ (by decide)]; omega

theorem fields_encI (imm : BitVec 16) (hop : op < 64) :
    let w := encI op rt ra imm
    bitsOf w 26 6 = op ∧ fiveAt w 21 = rt ∧ fiveAt w 16 = ra ∧ fieldAt w 0 16 = imm := by
  have himm := imm.isLt
  refine ⟨?_, fiveAt_eq ?_, fiveAt_eq ?_, fieldAt_eq ?_⟩
  all_goals rw [encI, bitsOf_ofNat _ _ _ (by decide)]; omega

theorem fields_encY (code : BitVec 10) (hfn : fn < 64) :
    let w := encY rt code fn
    bitsOf w 26 6 = 0x30 ∧ fiveAt w 21 = rt ∧ fieldAt w 11 10 = code ∧ bitsOf w 0 6 = fn := by
  have hcode := code.isLt
  refine ⟨?_, fiveAt_eq ?_, fieldAt_eq ?_, ?_⟩
  all_goals rw [encY, bitsOf_ofNat _ _ _ (by decide)]; omega

theorem fields_encJ (disp : BitVec 26) (hop : op < 64) :
    let w := encJ op disp.toNat
    bitsOf w 26 6 = op ∧ fieldAt w 0 26 = disp := by
  have hdisp := disp.isLt
  refine ⟨?_, fieldAt_eq ?_⟩
  all_goals rw [encJ, bitsOf_ofNat _ _ _ (by decide)]; omega

theorem fields_encB (cond : Fin 16) (disp : BitVec 22) :
    let w := encJ 0x20 (cond * 2 ^ 22 + disp.toNat)
    bitsOf w 26 6 = 0x20 ∧ bitsOf w 22 4 = cond ∧ fieldAt w 0 22 = disp := by
  have hdisp := disp.isLt
  refine ⟨?_, ?_, fieldAt_eq ?_⟩
  all_goals rw [encJ, bitsOf_ofNat _ _ _ (by decide)]; omega

end Formats

/-! ### An instruction is read back from its word -/

section ReadBack
variable (c : Cpu) (op fn : Nat) (rt ra rb sh : Fin 32) (sf : Bool)

theorem wordInstr_alu (hfn : fn < 64) : wordInstr c (encR 0x01 rt ra rb sf fn) = aluOf c rt ra rb sf fn := by
  obtain ⟨hop, hrt, hra, hrb, hsf, hf⟩ := fields_encR 0x01 fn rt ra rb sf (by decide) hfn
  simp only [wordInstr, hop, hrt, hra, hrb, hsf, hf]

theorem wordInstr_mul (hfn : fn < 64) : wordInstr c (encR 0x02 rt ra rb sf fn) = mulOf c rt ra rb sf fn := by
  obtain ⟨hop, hrt, hra, hrb, hsf, hf⟩ := fields_encR 0x02 fn rt ra rb sf (by decide) hfn
  simp only [wordInstr, hop, hrt, hra, hrb, hsf, hf]

theorem wordInstr_fixed (u neg acc rnd : Bool) :
    wordInstr c (encQ rt ra rb sf u neg acc rnd sh) = some (fixedOf c rt ra rb sf u rnd sh neg acc) := by
  obtain ⟨hop, hrt, hra, hrb, hsf, hu, hneg, hacc, hrnd, hsh⟩ := fields_encQ rt ra rb sh sf u neg acc rnd
  simp only [wordInstr, hop, hrt, hra, hrb, hsf, hu, hneg, hacc, hrnd, hsh]

theorem wordInstr_bitField (hfn : fn < 64) : wordInstr c (encF rt ra rb sh fn) = bitFieldOf c rt ra rb sh fn := by
  obtain ⟨hop, hrt, hra, hrb, hsh, hf⟩ := fields_encF fn rt ra rb sh hfn
  simp only [wordInstr, hop, hrt, hra, hrb, hsh, hf]

theorem wordInstr_cas : wordInstr c (encR 0x18 rt ra rb sf 0) = some (.cas c rt ra ⟨rb, sf⟩) := by
  obtain ⟨hop, hrt, hra, hrb, hsf, -⟩ := fields_encR 0x18 0 rt ra rb sf (by decide) (by decide)
  simp only [wordInstr, hop, hrt, hra, hrb, hsf]

theorem wordInstr_jump (hfn : fn < 64) : wordInstr c (encR 0x23 rt ra rb sf fn) = jumpOf c rt ⟨ra, sf⟩ fn := by
  obtain ⟨hop, hrt, hra, -, hsf, hf⟩ := fields_encR 0x23 fn rt ra rb sf (by decide) hfn
  simp only [wordInstr, hop, hrt, hra, hsf, hf]

/-- A word of formats I and M: of its major opcodes none is one of the other formats. -/
theorem wordInstr_imm (imm : BitVec 16) (hop : (5 ≤ op ∧ op < 0x18)) :
    wordInstr c (encI op rt ra imm) = immOf c rt ra imm op := by
  obtain ⟨hopc, hrt, hra, himm⟩ := fields_encI op rt ra imm (by omega)
  unfold wordInstr
  simp only [hopc, hrt, hra, himm]
  split
  case h_11 => rfl
  all_goals omega

theorem wordInstr_branch (cond : Fin 16) (disp : BitVec 22) :
    wordInstr c (encJ 0x20 (cond * 2 ^ 22 + disp.toNat)) = some (.bcond c cond disp) := by
  obtain ⟨hop, hcond, hdisp⟩ := fields_encB cond disp
  simp only [wordInstr, hop, hcond, hdisp, Fin.ofNat_val_eq_self]

theorem wordInstr_jmp (disp : BitVec 26) : wordInstr c (encJ 0x21 disp.toNat) = some (.jmp c disp) := by
  obtain ⟨hop, hdisp⟩ := fields_encJ 0x21 disp (by decide)
  simp only [wordInstr, hop, hdisp]

theorem wordInstr_call (disp : BitVec 26) : wordInstr c (encJ 0x22 disp.toNat) = some (.call c disp) := by
  obtain ⟨hop, hdisp⟩ := fields_encJ 0x22 disp (by decide)
  simp only [wordInstr, hop, hdisp]

/-- A system instruction: what it reads as names a register in ra and a code, whether it has them or not. -/
theorem wordInstr_sys (code : BitVec 10) (hfn : fn < 64) :
    wordInstr c (encY rt code fn) = sysOf c rt (fiveAt (encY rt code fn) 16) code fn := by
  obtain ⟨hop, hrt, hcode, hf⟩ := fields_encY fn rt code hfn
  simp only [wordInstr, hop, hrt, hcode, hf]

theorem wordInstr_sysReg (hfn : fn < 64) :
    wordInstr c (encR 0x30 rt ra rb sf fn) = sysOf c rt ra (fieldAt (encR 0x30 rt ra rb sf fn) 11 10) fn := by
  obtain ⟨hop, hrt, hra, -, -, hf⟩ := fields_encR 0x30 fn rt ra rb sf (by decide) hfn
  simp only [wordInstr, hop, hrt, hra, hf]

end ReadBack

/-- The word of a command that is an instruction of a CPU, and no unlisted word, reads as that command. -/
theorem wordInstr_cpuWord {i : Instr} {c : Cpu} {w : Word} (hcpu : cpuOf i = some c) (hword : cpuWord i = some w)
    (hlisted : ∀ v, i ≠ .illegalInstruction c v) : wordInstr c w = some i := by
  cases i
  case add | sub | adc | sbc | and | or | xor | andn | shl | shr | sar | ror | shli | shri | sari | rori | min | max | minu
      | maxu | permr | adds | subs =>
    cases hcpu; obtain rfl := Option.some.inj hword; exact wordInstr_alu _ _ _ _ _ _ (by decide)
  case clz | cls | popc | rev | abs => cases hcpu; obtain rfl := Option.some.inj hword; exact wordInstr_alu _ _ _ _ 0 _ (by decide)
  case mul | mulhs | mulhu | div | divu | rem | remu => cases hcpu; obtain rfl := Option.some.inj hword; exact wordInstr_mul _ _ _ _ _ _ (by decide)
  case mulq | mulqn | macq | msuq => cases hcpu; obtain rfl := Option.some.inj hword; exact wordInstr_fixed ..
  case bfx | bfxs | bfi => cases hcpu; obtain rfl := Option.some.inj hword; exact wordInstr_bitField _ _ _ _ _ _ (by decide)
  case perm | addi | addis | andi | ori | xori | ldb | ldbu | ldh | ldhu | ldw | stb | sth | stw =>
    cases hcpu; obtain rfl := Option.some.inj hword; exact wordInstr_imm _ _ _ _ _ (by decide)
  case lui => cases hcpu; obtain rfl := Option.some.inj hword; exact wordInstr_imm _ _ _ 0 _ (by decide)
  case cmpi => cases hcpu; obtain rfl := Option.some.inj hword; exact wordInstr_imm _ _ 0 _ _ (by decide)
  case cas => cases hcpu; obtain rfl := Option.some.inj hword; exact wordInstr_cas ..
  case bcond => cases hcpu; obtain rfl := Option.some.inj hword; exact wordInstr_branch ..
  case jmp => cases hcpu; obtain rfl := Option.some.inj hword; exact wordInstr_jmp ..
  case call => cases hcpu; obtain rfl := Option.some.inj hword; exact wordInstr_call ..
  case jr => cases hcpu; obtain rfl := Option.some.inj hword; exact wordInstr_jump _ _ 0 _ 0 _ (by decide)
  case jalr => cases hcpu; obtain rfl := Option.some.inj hword; exact wordInstr_jump _ _ _ _ 0 _ (by decide)
  case mfcr | mtcr => cases hcpu; obtain rfl := Option.some.inj hword; exact wordInstr_sys _ _ _ _ (by decide)
  case imset | imclr => cases hcpu; obtain rfl := Option.some.inj hword; exact wordInstr_sys _ _ _ 0 (by decide)
  case syscall | brk | eret | wait | sync | tinvAll | done | drop =>
    cases hcpu; obtain rfl := Option.some.inj hword; exact wordInstr_sys _ _ 0 _ (by decide)
  case tinvA | tinvT => cases hcpu; obtain rfl := Option.some.inj hword; exact wordInstr_sysReg _ _ 0 _ 0 false (by decide)
  case illegalInstruction => cases hcpu; exact absurd rfl (hlisted _)
  all_goals exact nomatch hcpu

/-- Settles O5: both commands are what their common word reads as. -/
theorem instructionWords : Obligations.InstructionWords := by
  unfold Obligations.InstructionWords
  refine ⟨fun cpu => ⟨rfl, rfl, rfl, rfl, rfl⟩, fun kind => ⟨?cleared, ?erased⟩, fun i j cpu w hi hj hci hcj hni hnj => ?same⟩
  case cleared => cases kind <;> decide
  case erased => cases kind <;> decide
  case same =>
    have hread := wordInstr_cpuWord hci hi hni
    exact Option.some.inj (hread.symm.trans (wordInstr_cpuWord hcj hj hnj))

end Sys2Proof.Machine
end

section
/-! PROOF. The instructions that write a register: the frame they share, then addition, logic, shifts, counts, extremes and
saturation (R573, R574, R579, R580). -/

namespace Sys2Proof.Machine

/-! ### An instruction that is issued -/

/-- An instruction that its CPU issues and fetches comes to what it does in the state its fetch left. -/
theorem runIns_issued {s s' : State} {cpu : Cpu} (h : Issues s cpu s') (f : State → Ins) :
    runIns cpu s f = .next (insFinish cpu (f s')) := by
  obtain ⟨hmay, hfetch⟩ := h
  simp [runIns, hmay, hfetch]

section Outcome
variable {o : Host.Outcome State Fault Refusal} {s s' : State} {cpu : Cpu} {rt : GReg} {sf : Bool} {f : Dev → Word × Flags}
  {w : Word} {x : Flags}

/-- One that writes a register leaves its result there and, with S set, its flags (R570, R573). -/
theorem next_wroteReg (h : Issues s cpu s') (ho : o = regIns cpu rt sf s f) (hf : f s'.dev = (w, x)) :
    o = .next (wroteReg s' cpu rt sf w x) := by
  rw [ho, regIns, runIns_issued h, hf]; rfl

/-- Where S is clear the flags do not count. -/
theorem next_wroteReg_noFlags (h : Issues s cpu s') (ho : o = regIns cpu rt false s f) (hf : (f s'.dev).1 = w) :
    o = .next (wroteReg s' cpu rt false w x) := by
  rw [ho, regIns, runIns_issued h, ← hf]; rfl

/-- An instruction that is illegal raises vector 1. -/
theorem next_illegal (h : Issues s cpu s') (ho : o = runIns cpu s illegal) : o = .next (raiseTrap s' cpu { vec := 1 }) := by
  rw [ho, runIns_issued h]; rfl

end Outcome

/-! ### Results with their flags -/

/-- The flags of an addition of x, y and a carry k whose sum wraps to w (R573). -/
def sumFlags (x y w : Word) (k : Nat) : Flags :=
  { n := w.getLsbD 31, z := w == 0, c := decide (2 ^ 32 ≤ x.toNat + y.toNat + k),
    v := x.getLsbD 31 == y.getLsbD 31 && w.getLsbD 31 != x.getLsbD 31 }

theorem add33_eq {x y w : Word} {cin : Bool} (hw : x + y + BitVec.ofNat 32 (b2n cin) = w) :
    add33 x y cin = (w, sumFlags x y w (b2n cin)) := by
  have hsum : BitVec.ofNat 32 (x.toNat + y.toNat + b2n cin) = w := by
    rw [← hw]; apply BitVec.eq_of_toNat_eq; simp
  simp [add33, sumFlags, hsum, BitVec.msb_eq_getLsbD_last]

theorem nz_eq (f : Flags) (w : Word) : nz f w = (w, { n := w.getLsbD 31, z := w == 0, c := f.c, v := f.v }) := by
  simp [nz, BitVec.msb_eq_getLsbD_last]

theorem nzv_eq (f : Flags) (w : Word) (v : Bool) : nzv f w v = (w, { n := w.getLsbD 31, z := w == 0, c := f.c, v := v }) := by
  simp [nzv, BitVec.msb_eq_getLsbD_last]

/-! ### Sums and differences -/

/-- Settles O46: each clause is add33 of its operands, a difference with the second complemented. -/
theorem sumsAndDifferences : Obligations.SumsAndDifferences := by
  unfold Obligations.SumsAndDifferences Leads exec
  intro s s' cpu rt ra rb sf imm h a b i c sum
  have put {o : Host.Outcome State Fault Refusal} {r : GReg} {k : Bool} {w x y : Word} (cin : Bool) {g : Dev → Word × Flags}
      (ho : o = regIns cpu r k s g) (hg : g s'.dev = add33 x y cin) (hw : x + y + BitVec.ofNat 32 (b2n cin) = w) :
      o = .next (wroteReg s' cpu r k w (sum x y w (b2n cin))) :=
    next_wroteReg h ho (hg.trans (add33_eq hw))
  have hsub (x y : Word) : x + ~~~y + 1 = x - y := by
    rw [BitVec.sub_eq_add_neg, BitVec.neg_eq_not_add, BitVec.add_assoc]; rfl
  have hsbc : a - b - 1 = a + ~~~b := by rw [← hsub a b]; exact BitVec.add_sub_cancel ..
  refine ⟨put false rfl rfl (BitVec.add_zero _), put true rfl rfl (hsub a b), put _ rfl rfl rfl, put _ rfl rfl ?sbc,
    put false rfl rfl (BitVec.add_zero _), put false rfl rfl (BitVec.add_zero _), put true rfl rfl (hsub a i)⟩
  case sbc => rw [hsbc]; rfl

/-! ### Logic and shifts -/

/-- The low five bits of a register, as a shift takes them. -/
theorem toNat_lowFive (b : Word) : b.toNat % 32 = (b.extractLsb' 0 5).toNat := by
  rw [BitVec.extractLsb'_toNat, Nat.shiftRight_zero]

theorem rotateRight_eq (a : Word) {n : Nat} (hn : n < 32) : a.rotateRight n = (a >>> n) ||| (a <<< (32 - n)) := by
  rw [BitVec.rotateRight_def, Nat.mod_eq_of_lt hn]

/-- Settles O47: each result is the instruction's own, and a rotate is two shifts. -/
theorem logicAndShifts : Obligations.LogicAndShifts := by
  unfold Obligations.LogicAndShifts Leads exec
  intro s s' cpu rt ra rb sh sf imm h a b n i f puts
  have put {o : Host.Outcome State Fault Refusal} {k : Bool} {w : Word} {g : Dev → Word}
      (ho : o = regIns cpu rt k s fun d => nz (cpuFlags d cpu) (g d)) (hg : g s'.dev = w) : o = .next (puts k w) :=
    next_wroteReg h ho ((congrArg (nz f) hg).trans (nz_eq ..))
  have hfive : b.toNat % 32 = n := toNat_lowFive b
  have hn : b.toNat % 32 < 32 := Nat.mod_lt _ (by decide)
  refine ⟨put rfl rfl, put rfl rfl, put rfl rfl, put rfl rfl, put rfl ?shl, put rfl ?shr, put rfl ?sar, put rfl ?ror,
    put rfl rfl, put rfl rfl, put rfl rfl, put rfl ?rori, put rfl rfl, put rfl rfl, put rfl rfl, put rfl rfl⟩
  case shl => exact congrArg (a <<< ·) hfive
  case shr => exact congrArg (a >>> ·) hfive
  case sar => exact congrArg a.sshiftRight hfive
  case ror => exact (rotateRight_eq a hn).trans (by rw [hfive])
  case rori => exact rotateRight_eq a sh.isLt

/-! ### Extremes -/

/-- Of two words that agree where neither is the lesser, a strict comparison picks the lesser as a weak one does. -/
theorem if_lt_eq_if_le {α β : Type} [LinearOrder β] (key : α → β) {x y : α} (p : α) (q : α)
    (hxy : key x = key y → p = q) : (if key x < key y then p else q) = if key x ≤ key y then p else q := by
  rcases lt_trichotomy (key x) (key y) with hlt | heq | hgt
  · rw [if_pos hlt, if_pos hlt.le]
  · rw [if_neg heq.not_lt, if_pos heq.le, hxy heq]
  · rw [if_neg hgt.not_gt, if_neg hgt.not_ge]

theorem min_toInt (x y : Word) : (if x.slt y then x else y) = if x.toInt ≤ y.toInt then x else y := by
  simp only [BitVec.slt_iff_toInt_lt]
  exact if_lt_eq_if_le BitVec.toInt x y BitVec.toInt_inj.1

theorem max_toInt (x y : Word) : (if y.slt x then x else y) = if y.toInt ≤ x.toInt then x else y := by
  simp only [BitVec.slt_iff_toInt_lt]
  exact if_lt_eq_if_le BitVec.toInt x y fun h => (BitVec.toInt_inj.1 h).symm

theorem min_toNat (x y : Word) : (if x < y then x else y) = if x.toNat ≤ y.toNat then x else y :=
  if_lt_eq_if_le BitVec.toNat x y BitVec.eq_of_toNat_eq

theorem max_toNat (x y : Word) : (if y < x then x else y) = if y.toNat ≤ x.toNat then x else y :=
  if_lt_eq_if_le BitVec.toNat x y fun h => (BitVec.eq_of_toNat_eq h).symm

/-! ### Bit counts and bytes -/

/-- One more than the highest of the lowest n bits that is set; 0 where none is. -/
def topBit (w : Word) (n : Nat) : Nat := (List.range n).foldl (fun m i => if w.getLsbD i then i + 1 else m) 0

theorem topBit_eq (w : Word) (n : Nat) :
    topBit w n = if w.toNat % 2 ^ n = 0 then 0 else Nat.log2 (w.toNat % 2 ^ n) + 1 := by
  induction n with
  | zero => simp [topBit, Nat.mod_one]
  | succ n ih =>
    have hstep : topBit w (n + 1) = if w.getLsbD n then n + 1 else topBit w n := by
      simp [topBit, List.range_succ, List.foldl_append]
    have hlow : w.toNat % 2 ^ n < 2 ^ n := Nat.mod_lt _ (by positivity)
    have hsplit : w.toNat % 2 ^ (n + 1) = w.toNat % 2 ^ n + 2 ^ n * (w.getLsbD n).toNat := by
      rw [pow_succ, Nat.mod_mul, ← BitVec.testBit_toNat, Nat.testBit_eq_decide_div_mod_eq]
      rcases Nat.mod_two_eq_zero_or_one (w.toNat / 2 ^ n) with h | h <;> simp [h]
    rw [hstep, hsplit]
    cases hbit : w.getLsbD n with
    | false => simpa [hbit] using ih
    | true =>
      have hlog : Nat.log2 (w.toNat % 2 ^ n + 2 ^ n) = n := by
        rw [Nat.log2_eq_iff (by positivity)]
        exact ⟨by omega, by rw [pow_succ]; omega⟩
      have hpos : 0 < 2 ^ n := by positivity
      simp [hlog]

theorem clz32_eq (w : Word) : clz32 w = if w = 0 then 32 else 31 - Nat.log2 w.toNat := by
  have htop := topBit_eq w 32
  rw [Nat.mod_eq_of_lt w.isLt] at htop
  have hzero : w = 0 ↔ w.toNat = 0 := by rw [← BitVec.toNat_inj]; rfl
  rw [clz32, show (List.range 32).foldl (fun m i => if w.getLsbD i then i + 1 else m) 0 = topBit w 32 from rfl, htop]
  by_cases h : w.toNat = 0
  · simp [hzero.2 h]
  · rw [if_neg h, if_neg (mt hzero.1 h)]; omega

/-- A word folded with its sign: itself where it is not negative, else its complement. -/
theorem xor_sshiftRight_sign (w : Word) : w ^^^ w.sshiftRight 31 = if w.getLsbD 31 then ~~~w else w := by
  apply BitVec.eq_of_getLsbD_eq
  intro i hi
  have hsign : (w.sshiftRight 31).getLsbD i = w.getLsbD 31 := by
    rw [BitVec.getLsbD_sshiftRight]
    rcases Nat.eq_zero_or_pos i with rfl | hpos
    · simp
    · simp [hi, BitVec.msb_eq_getLsbD_last, show ¬ 31 + i < 32 by omega]
  rw [BitVec.getLsbD_xor, hsign]
  cases h : w.getLsbD 31 <;> simp [hi]

theorem popcount_eq (w : Word) (n : Nat) : popcount n w.toNat = ((List.range n).filter fun i => w.getLsbD i).length := by
  induction n with
  | zero => rfl
  | succ n ih =>
    have hbit : bit w.toNat n = (w.getLsbD n).toNat := by
      rw [bit, Nat.shiftRight_eq_div_pow, ← BitVec.testBit_toNat, Nat.testBit_eq_decide_div_mod_eq]
      rcases Nat.mod_two_eq_zero_or_one (w.toNat / 2 ^ n) with h | h <;> simp [h]
    rw [popcount, ih, hbit, List.range_succ, List.filter_append, List.length_append, Nat.add_comm]
    cases h : w.getLsbD n <;> simp [h]

theorem toNat_append_eq {m n : Nat} (x : BitVec m) (y : BitVec n) : (x ++ y).toNat = x.toNat * 2 ^ n + y.toNat := by
  rw [BitVec.toNat_append, ← Nat.shiftLeft_add_eq_or_of_lt y.isLt, Nat.shiftLeft_eq]

theorem rev32_eq (w : Word) :
    rev32 w = w.extractLsb' 0 8 ++ w.extractLsb' 8 8 ++ w.extractLsb' 16 8 ++ w.extractLsb' 24 8 := by
  apply BitVec.eq_of_toNat_eq
  simp only [rev32, leBytes, leNat, List.reverse_cons, List.reverse_nil, List.nil_append, List.cons_append,
    BitVec.toNat_ofNat, toNat_append_eq, BitVec.extractLsb'_toNat, Nat.shiftRight_eq_div_pow, Nat.reducePow, Nat.mod_mod,
    Nat.div_div_eq_div_mul, Nat.reduceMul]
  omega

/-! ### Saturation -/

theorem satNzv_eq (f : Flags) (y : Int) :
    satNzv f y =
      (let r := max (-2 ^ 31) (min (2 ^ 31 - 1) y)
       let w := BitVec.ofInt 32 r
       (w, { n := w.getLsbD 31, z := w == 0, c := f.c, v := r != y })) := by
  rw [satNzv, nzv_eq, sat, min_comm]

/-- Settles O48: the result of each instruction is the model's operand of section Operands, told by its bits or its value. -/
theorem countsExtremesAndSaturation : Obligations.CountsExtremesAndSaturation := by
  unfold Obligations.CountsExtremesAndSaturation Leads exec
  intro s s' cpu rt ra rb sf h a b f puts lead sats
  have put {o : Host.Outcome State Fault Refusal} {w : Word} {g : Dev → Word}
      (ho : o = regIns cpu rt sf s fun d => nz (cpuFlags d cpu) (g d)) (hg : g s'.dev = w) : o = .next (puts w) :=
    next_wroteReg h ho ((congrArg (nz f) hg).trans (nz_eq ..))
  have saturate {o : Host.Outcome State Fault Refusal} {y : Int} {g : Dev → Int}
      (ho : o = regIns cpu rt sf s fun d => satNzv (cpuFlags d cpu) (g d)) (hg : g s'.dev = y) : o = .next (sats y) :=
    next_wroteReg h ho ((congrArg (satNzv f) hg).trans (satNzv_eq ..))
  refine ⟨put rfl (min_toInt a b), put rfl (max_toInt a b), put rfl (min_toNat a b), put rfl (max_toNat a b),
    put rfl ?clz, put rfl ?cls, put rfl ?popc, put rfl (rev32_eq a), next_wroteReg_noFlags h rfl rfl,
    saturate rfl ?abs, saturate rfl rfl, saturate rfl rfl⟩
  case clz => exact congrArg (BitVec.ofNat 32) (clz32_eq a)
  case cls => exact congrArg (BitVec.ofNat 32) (by rw [cls32, xor_sshiftRight_sign, clz32_eq])
  case popc => exact congrArg (BitVec.ofNat 32) (popcount_eq a 32)
  case abs =>
    show |a.toInt| = _
    split
    case isTrue hneg => exact abs_of_neg hneg
    case isFalse hpos => exact abs_of_nonneg (not_lt.1 hpos)

end Sys2Proof.Machine
end

section
/-! PROOF. Multiplies, divides, fixed point, bit fields and PERM (R575 to R579). -/

namespace Sys2Proof.Machine

/-! ### Multiplies -/

/-- Bits [63:32] of a number taken into 64 bits. -/
theorem extractHigh_ofInt (z : Int) : (BitVec.ofInt 64 z).extractLsb' 32 32 = BitVec.ofInt 32 (z / 2 ^ 32) := by
  apply BitVec.eq_of_toNat_eq
  rw [BitVec.extractLsb'_toNat, BitVec.toNat_ofInt, BitVec.toNat_ofInt, Nat.shiftRight_eq_div_pow]
  omega

theorem mulhs_eq (a b : Word) :
    BitVec.ofInt 32 (a.toInt * b.toInt / 2 ^ 32) = (a.signExtend 64 * b.signExtend 64).extractLsb' 32 32 := by
  rw [← extractHigh_ofInt, BitVec.ofInt_mul]; rfl

theorem mulhu_eq (a b : Word) :
    BitVec.ofNat 32 (a.toNat * b.toNat / 2 ^ 32) = (a.zeroExtend 64 * b.zeroExtend 64).extractLsb' 32 32 := by
  have hprod : a.zeroExtend 64 * b.zeroExtend 64 = BitVec.ofInt 64 (a.toNat * b.toNat : Nat) := by
    rw [BitVec.ofInt_natCast]; apply BitVec.eq_of_toNat_eq; simp [BitVec.toNat_mul, Nat.mul_mod]
  rw [hprod, extractHigh_ofInt, ← BitVec.ofInt_natCast]
  rfl

/-! ### Divides -/

/-- The divides as R576 states them: the most negative number over −1 overflows to itself, with remainder 0. -/
theorem divide_signed (a b : Word) :
    divide true a b =
      (if b = 0 then 0xFFFFFFFF else BitVec.ofInt 32 (a.toInt.tdiv b.toInt),
       if b = 0 then a else BitVec.ofInt 32 (a.toInt.tmod b.toInt),
       b == 0 || (a == 0x80000000 && b == 0xFFFFFFFF)) := by
  unfold divide
  by_cases hb : b = 0
  · simp [hb]
  · by_cases hmost : a = 0x80000000 ∧ b = 0xFFFFFFFF
    · obtain ⟨rfl, rfl⟩ := hmost
      decide
    · have hfalse : (a == 0x80000000 && b == 0xFFFFFFFF) = false := by simpa using hmost
      have hb' : (b == 0) = false := by simpa using hb
      simp only [hb, hb', hfalse, Bool.true_and, if_false, if_true, Bool.false_or, Bool.false_eq_true]

theorem divide_unsigned (a b : Word) :
    divide false a b =
      (if b = 0 then 0xFFFFFFFF else BitVec.ofNat 32 (a.toNat / b.toNat),
       if b = 0 then a else BitVec.ofNat 32 (a.toNat % b.toNat), b == 0) := by
  unfold divide
  by_cases hb : b = 0
  · simp [hb]
  · have hb' : (b == 0) = false := by simpa using hb
    simp only [hb, hb', Bool.false_and, if_false, Bool.false_eq_true]

theorem cpuKind_engine {cpu : Cpu} : cpuKind cpu = .engine ↔ ∃ g e, cpu = .engine g e := by
  cases cpu <;> simp [cpuKind]

/-- A word of major opcode 0x02 with another fn is no instruction (R571, R575). -/
theorem legalWord_mulReserved (kind : CpuKind) {w : Word} (hop : bitsOf w 26 6 = 0x02)
    (hfn : bitsOf w 0 6 = 3 ∨ 8 ≤ bitsOf w 0 6) : legalWord kind w = false := by
  have hlow : ¬ bitsOf w 0 6 < 3 := by omega
  have hdiv : 4 ≤ bitsOf w 0 6 → 8 ≤ bitsOf w 0 6 := by omega
  simpa [legalWord, hop, hlow] using fun _ _ => hdiv

/-- Settles O49: a divide of an engine is illegal, every other instruction is its formula. -/
theorem multipliesAndDivides : Obligations.MultipliesAndDivides := by
  unfold Obligations.MultipliesAndDivides Leads exec
  intro s s' cpu rt ra rb sf h a b f puts most
  have put {o : Host.Outcome State Fault Refusal} {v : Bool} {w : Word} {g : Dev → Word × Flags}
      (ho : o = regIns cpu rt sf s g) (hg : g s'.dev = nzv f w v) : o = .next (puts v w) :=
    next_wroteReg h ho (hg.trans (nzv_eq ..))
  refine ⟨put rfl rfl, put rfl ?mulhs, put rfl ?mulhu, fun hno => ?divides, fun g e heng => ?engine, fun kind w => legalWord_mulReserved kind⟩
  case mulhs => exact congrArg (nzv f · false) (mulhs_eq a b)
  case mulhu => exact congrArg (nzv f · false) (mulhu_eq a b)
  case divides =>
    have hkind : ¬ cpuKind cpu = .engine := fun hk => by
      obtain ⟨g, e, heng⟩ := cpuKind_engine.1 hk
      exact hno g e heng
    have hs := divide_signed a b
    have hu := divide_unsigned a b
    refine ⟨put (if_neg hkind) ?_, put (if_neg hkind) ?_, put (if_neg hkind) ?_, put (if_neg hkind) ?_⟩
    · exact congrArg (fun x => nzv f x.1 x.2.2) hs
    · exact congrArg (fun x => nzv f x.2.1 x.2.2) hs
    · exact congrArg (fun x => nzv f x.1 x.2.2) hu
    · exact congrArg (fun x => nzv f x.2.1 x.2.2) hu
  case engine =>
    have hkind : cpuKind cpu = .engine := cpuKind_engine.2 ⟨g, e, heng⟩
    exact ⟨next_illegal h (if_pos hkind), next_illegal h (if_pos hkind), next_illegal h (if_pos hkind),
      next_illegal h (if_pos hkind)⟩

/-! ### Fixed point -/

/-- A fixed-point result: its exact value saturated to the signed or the unsigned range (R577). -/
theorem fixedPoint_eq (f : Flags) (u acc neg rnd : Bool) (sh : Nat) (a b t : Word) :
    fixedPoint f u acc neg rnd sh a b t =
      (let y := fixedVal u acc neg rnd sh a b t
       let r := max (if u then 0 else -2 ^ 31) (min (if u then 2 ^ 32 - 1 else 2 ^ 31 - 1) y)
       nzv f (BitVec.ofInt 32 r) (r != y)) := by
  cases u
  · simp only [fixedPoint, sat, min_comm (fixedVal _ _ _ _ _ _ _ _)]; rfl
  · simp only [fixedPoint, usat, min_comm (fixedVal _ _ _ _ _ _ _ _)]; rfl

/-- The product of the fixed-point instructions, rounded and shifted (R577). -/
theorem fixedVal_eq (u acc neg rnd : Bool) (sh : Nat) (a b t : Word) :
    fixedVal u acc neg rnd sh a b t =
      (let q := (numOf u a * numOf u b + (if rnd ∧ 0 < sh then 2 ^ (sh - 1) else 0)) / 2 ^ sh
       if acc then (if neg then numOf u t - q else numOf u t + q) else if neg then -q else q) := by
  have hround : (if (rnd && decide (0 < sh)) = true then numOf u a * numOf u b + 2 ^ (sh - 1) else numOf u a * numOf u b)
      = numOf u a * numOf u b + (if rnd ∧ 0 < sh then 2 ^ (sh - 1) else 0) := by
    by_cases h : rnd ∧ 0 < sh
    · simp [h]
    · simp [h]
  simp only [fixedVal, asr, hround]

/-- Settles O50: the pseudocode's value, saturated. -/
theorem fixedPointResults : Obligations.FixedPointResults := by
  unfold Obligations.FixedPointResults Leads exec
  intro s s' cpu rt ra rb sf u rnd sh h num p q f lo hi puts
  have put {o : Host.Outcome State Fault Refusal} {y : Int} (acc neg : Bool)
      (ho : o = regIns cpu rt sf s fun d =>
        fixedPoint (cpuFlags d cpu) u acc neg rnd sh.val (gOf d cpu ra) (gOf d cpu rb) (gOf d cpu rt))
      (hy : fixedVal u acc neg rnd sh.val (gOf s'.dev cpu ra) (gOf s'.dev cpu rb) (gOf s'.dev cpu rt) = y) :
      o = .next (puts y) := by
    refine next_wroteReg h ho ?_
    rw [fixedPoint_eq, hy, nzv_eq]
  exact ⟨put false false rfl (fixedVal_eq ..), put false true rfl (fixedVal_eq ..), put true false rfl (fixedVal_eq ..),
    put true true rfl (fixedVal_eq ..)⟩

/-! ### Bit fields and byte permute -/

/-- A field of n bits at lo is its word shifted down and masked. -/
theorem ofNat_bitsOf (a : Word) (lo n : Nat) :
    BitVec.ofNat 32 (bitsOf a lo n) = (a >>> lo) &&& BitVec.ofNat 32 (2 ^ n - 1) := by
  apply BitVec.eq_of_getLsbD_eq
  intro i hi
  rw [BitVec.getLsbD_ofNat, testBit_bitsOf, BitVec.getLsbD_and, BitVec.getLsbD_ushiftRight, BitVec.getLsbD_ofNat,
    Nat.testBit_two_pow_sub_one]
  cases decide (i < n) <;> simp [hi]

/-- A field read as a signed number. -/
theorem sext_bitsOf (a : Word) (lo n : Nat) (hn : 0 < n) : sext (bitsOf a lo n) n = (a.extractLsb' lo n).toInt := by
  have hlt := bitsOf_lt a lo n
  have hhalf : (2 : Nat) ^ n = 2 * 2 ^ (n - 1) := by rw [← pow_succ', Nat.sub_add_cancel hn]
  have hmod : (bitsOf a lo n : Int) % 2 ^ n = bitsOf a lo n := Int.emod_eq_of_lt (by omega) (by exact_mod_cast hlt)
  rw [sext, hmod, BitVec.toInt_eq_toNat_cond]
  by_cases h : bitsOf a lo n < 2 ^ (n - 1)
  · rw [if_pos (by exact_mod_cast h), if_pos (by rw [hhalf]; exact Nat.mul_lt_mul_of_pos_left h (by decide))]; rfl
  · rw [if_neg (by exact_mod_cast h), if_neg (by rw [hhalf]; simpa [bitsOf] using h)]; push_cast; rfl

theorem extractLsb'_ushiftRight_zero (a : Word) (lo n : Nat) : (a >>> lo).extractLsb' 0 n = a.extractLsb' lo n := by
  apply BitVec.eq_of_getLsbD_eq
  intro i hi
  simp [hi]

theorem bfxs_eq (a : Word) (pos wm1 : Nat) :
    bfxs a pos wm1 = ((a >>> pos).extractLsb' 0 (wm1 + 1)).signExtend 32 := by
  rw [bfxs, bfx, sext_bitsOf _ _ _ (Nat.succ_pos _), extractLsb'_ushiftRight_zero]; rfl

theorem bfi_eq (t a : Word) (pos : Nat) (wm1 : Nat) :
    bfi t a pos wm1 = (t &&& ~~~(BitVec.ofNat 32 (2 ^ (wm1 + 1) - 1) <<< pos))
      ||| ((a &&& BitVec.ofNat 32 (2 ^ (wm1 + 1) - 1)) <<< pos) := by
  have hfield := ofNat_bitsOf a 0 (wm1 + 1)
  rw [BitVec.ushiftRight_zero] at hfield
  rw [bfi, putBits, BitVec.ofInt_natCast, hfield, ← BitVec.shiftLeft_and_distrib, BitVec.and_assoc, BitVec.and_self]

theorem permBad_iff (sel : Nat) : permBad sel = true ↔ ∃ j < 4, 14 ≤ sel / 16 ^ j % 16 := by
  have hpow (j : Nat) : 2 ^ (4 * j) = 16 ^ j := by rw [pow_mul]; rfl
  simp only [permBad, List.any_eq_true, List.mem_range, decide_eq_true_eq, hpow]

/-- A word of major opcode 0x04 with another fn is no instruction (R571, R578). -/
theorem legalWord_bitFieldReserved (kind : CpuKind) {w : Word} (hop : bitsOf w 26 6 = 0x04) (hfn : 3 ≤ bitsOf w 0 6) :
    legalWord kind w = false := by
  simp [legalWord, hop, Nat.not_lt.2 hfn]

/-- Settles O51: within bit 31 a bit field is its formula, beyond it is illegal; and so is PERM with a reserved code. -/
theorem bitFieldsAndPermute : Obligations.BitFieldsAndPermute := by
  unfold Obligations.BitFieldsAndPermute Leads exec
  intro s s' cpu rt ra pos wm1 imm h a t w m puts bad
  have put {o : Host.Outcome State Fault Refusal} {x : Word} {g : Dev → Word × Flags}
      (ho : o = regIns cpu rt false s g) (hg : (g s'.dev).1 = x) : o = .next (puts x) :=
    next_wroteReg_noFlags h ho hg
  refine ⟨fun hin => ⟨put (if_neg hin.not_gt) ?bfx, put (if_neg hin.not_gt) ?bfxs, put (if_neg hin.not_gt) ?bfi⟩,
    fun hout => ⟨next_illegal h (if_pos hout), next_illegal h (if_pos hout), next_illegal h (if_pos hout)⟩,
    fun hgood => put (if_neg ?good) rfl, fun hres => next_illegal h (if_pos ((permBad_iff _).2 hres)),
    fun kind x => legalWord_bitFieldReserved kind⟩
  case bfx => exact ofNat_bitsOf a pos w
  case bfxs => exact bfxs_eq a pos wm1
  case bfi => exact bfi_eq t a pos wm1
  case good =>
    intro hbad
    obtain ⟨j, hj, hcode⟩ := (permBad_iff _).1 hbad
    exact (hgood j hj).not_ge hcode

end Sys2Proof.Machine
end

section
/-! PROOF. Loads, stores, compare and swap, branches and jumps (R581 to R585, R587). -/

namespace Sys2Proof.Machine

/-! ### Numbers of few bits -/

/-- The low n bits of a number, read as a signed number. -/
theorem sext_ofNat (x : Nat) {n : Nat} (hn : 0 < n) : sext x n = (BitVec.ofNat n x).toInt := by
  have hhalf : (2 : Nat) ^ n = 2 * 2 ^ (n - 1) := by rw [← pow_succ', Nat.sub_add_cancel hn]
  have hmod : (x : Int) % 2 ^ n = (x % 2 ^ n : Nat) := by push_cast; rfl
  rw [sext, hmod, BitVec.toInt_eq_toNat_cond, BitVec.toNat_ofNat]
  by_cases h : x % 2 ^ n < 2 ^ (n - 1)
  · rw [if_pos (by exact_mod_cast h), if_pos (by omega)]
  · rw [if_neg (by exact_mod_cast h), if_neg (by omega)]; push_cast; rfl

/-- A value of n bits taken into a register with its sign. -/
theorem ofInt_sext (x : Nat) {n : Nat} (hn : 0 < n) : BitVec.ofInt 32 (sext x n) = (BitVec.ofNat n x).signExtend 32 := by
  rw [sext_ofNat x hn]; rfl

/-! ### Addressing -/

theorem mAm_eq_zero (m : BitVec 16) : mAm m = 0 ↔ m.toNat < 2 ^ 14 := by
  rw [mAm, Nat.div_eq_zero_iff]; simp

/-- The effective address: the displacement of mode 0 is of 14 bits, with its sign (R581). -/
theorem memEa_eq (m : BitVec 16) (a : Word) :
    memEa m a = if m.toNat < 2 ^ 14 then a + (m.extractLsb' 0 14).signExtend 32 else a := by
  rw [memEa]
  by_cases h : m.toNat < 2 ^ 14
  · have ham := (mAm_eq_zero m).2 h
    have hd : mD m = sext m.toNat 14 := by simp [mD, ham]
    have hfield : BitVec.ofNat 14 m.toNat = m.extractLsb' 0 14 := by
      apply BitVec.eq_of_toNat_eq; simp
    rw [if_pos ham, if_pos h, hd, ofInt_sext _ (by decide), hfield]
  · rw [if_neg (mt (mAm_eq_zero m).1 h), if_neg h]

/-! ### What a load or a store comes to -/

section Access
variable {s s' t : State} {cpu : Cpu} {load : Bool} {rt ra : GReg} {m : BitVec 16} {e v : Nat}
  {access : State → Nat → MemRes} {keep : Dev → Nat → Dev}

/-- One whose access is made: what it keeps of the access, then ra by the addressing mode (R581, R582). -/
theorem memIns_made (h : Issues s cpu s') (hill : memIllegal s'.dev (cpuId cpu) load rt ra m e = false)
    (hal : (memEa m (gOf s'.dev cpu ra)).toNat % 2 ^ e = 0)
    (hacc : access s' (memEa m (gOf s'.dev cpu ra)).toNat = .ok v t) :
    memIns cpu load rt ra m e s access keep = .next (t.onDev fun d =>
      (if m.toNat < 2 ^ 14 then keep d v
       else (keep d v).setG (cpuId cpu) ra.val (memNext (keep d v) (cpuId cpu) m (gOf s'.dev cpu ra) e)).setPc (cpuId cpu)
        (s'.dev.pc (cpuId cpu) + 4)) := by
  rw [memIns, runIns_issued h]
  simp only [hill, hal, hacc, mAm_eq_zero, Bool.false_eq_true, if_false, ne_eq, not_true]
  rfl

/-- One whose operands its addressing mode does not allow (R582). -/
theorem memIns_illegal (h : Issues s cpu s') (hill : memIllegal s'.dev (cpuId cpu) load rt ra m e = true) :
    memIns cpu load rt ra m e s access keep = .next (raiseTrap s' cpu { vec := 1 }) := by
  rw [memIns, runIns_issued h]
  simp only [hill, if_true]
  rfl

/-- One whose address is no multiple of its width (R587). -/
theorem memIns_odd (h : Issues s cpu s') (hill : ¬memIllegal s'.dev (cpuId cpu) load rt ra m e = true)
    (hodd : (memEa m (gOf s'.dev cpu ra)).toNat % 2 ^ e ≠ 0) :
    memIns cpu load rt ra m e s access keep
      = .next (raiseTrap s' cpu { vec := 4, faddr := (memEa m (gOf s'.dev cpu ra)).toNat, write := !load }) := by
  rw [memIns, runIns_issued h]
  simp only [hill, hodd, ne_eq, not_false_iff, if_true]
  rfl

end Access

/-- Settles O52: each clause is one outcome of the frame that loads and stores share. -/
theorem loadsAndStores : Obligations.LoadsAndStores := by
  unfold Obligations.LoadsAndStores Leads exec
  intro s s' t cpu rt ra m v h c a ea fits after loaded
  have hea : (memEa m a).toNat = ea := congrArg BitVec.toNat (memEa_eq m a)
  have load (e : Nat) (signed : Bool) {w : Word} (hacc : dataLoad s' cpu ea (2 ^ e) = .ok v t) (hfit : fits true e)
      (hw : BitVec.ofInt 32 (if signed then sext v (8 * 2 ^ e) else v) = w) :
      loadIns cpu rt ra m e signed s = .next (loaded e w) := by
    obtain ⟨hill, hal⟩ := hfit
    rw [← hea] at hal hacc
    rw [loadIns, memIns_made h hill hal hacc, hw]
  have store (e : Nat) (hacc : dataStore s' cpu ea (2 ^ e) (gOf s'.dev cpu rt).toNat = .ok v t) (hfit : fits false e) :
      storeIns cpu rt ra m e s = .next (t.onDev (after e)) := by
    obtain ⟨hill, hal⟩ := hfit
    rw [← hea] at hal hacc
    rw [storeIns, memIns_made h hill hal hacc]
  have extended (e : Nat) : BitVec.ofInt 32 (if true then sext v (8 * 2 ^ e) else v) = (BitVec.ofNat (8 * 2 ^ e) v).signExtend 32 :=
    ofInt_sext v (by positivity)
  have plain : BitVec.ofInt 32 (v : Int) = BitVec.ofNat 32 v := BitVec.ofInt_natCast ..
  refine ⟨fun hacc hfit => ⟨fun _ => load 0 true hacc hfit (extended 0), load 0 false hacc hfit plain⟩,
    fun hacc hfit => ⟨fun _ => load 1 true hacc hfit (extended 1), load 1 false hacc hfit plain⟩,
    fun hacc hfit => load 2 false hacc hfit plain, fun hacc hfit => store 0 hacc hfit,
    fun hacc hfit => store 1 hacc hfit, fun hacc hfit => store 2 hacc hfit, ?traps⟩
  case traps =>
    intro bad ill odd
    have badLoad (e : Nat) (signed : Bool) (hb : bad true e) : loadIns cpu rt ra m e signed s = .next ill :=
      memIns_illegal h hb
    have badStore (e : Nat) (hb : bad false e) : storeIns cpu rt ra m e s = .next ill := memIns_illegal h hb
    have oddLoad (e : Nat) (signed : Bool) (hb : ¬bad true e) (hodd : ea % 2 ^ e ≠ 0) :
        loadIns cpu rt ra m e signed s = .next (odd false) := by
      rw [← hea] at hodd; rw [loadIns, memIns_odd h hb hodd, hea]; rfl
    have oddStore (e : Nat) (hb : ¬bad false e) (hodd : ea % 2 ^ e ≠ 0) : storeIns cpu rt ra m e s = .next (odd true) := by
      rw [← hea] at hodd; rw [storeIns, memIns_odd h hb hodd, hea]; rfl
    exact ⟨fun hb => ⟨badLoad 0 true hb, badLoad 0 false hb⟩, fun hb => ⟨badLoad 1 true hb, badLoad 1 false hb⟩,
      badLoad 2 false, badStore 0, badStore 1, badStore 2,
      fun hb hodd => ⟨oddLoad 1 true hb hodd, oddLoad 1 false hb hodd⟩, oddLoad 2 false, oddStore 1, oddStore 2⟩

/-! ### Branches and jumps -/

/-- A write of a general register leaves the control registers. -/
@[simp] theorem Dev.setG_cr (d : Dev) (c n : Nat) (w : Word) (c' n' : Nat) : (d.setG c n w).cr c' n' = d.cr c' n' := by
  unfold Dev.setG; split <;> rfl

/-- The conditions of R584 in the order of their numbers; the last is reserved. -/
theorem condHolds_listed (cond : Fin 16) (n z c v : Bool) :
    [z, !z, c, !c, n, !n, v, !v, c && !z, !c || z, n == v, n != v, !z && n == v, z || n != v, true][cond.val]?
      = if cond.val = 15 then none else some (condHolds cond.val { n := n, z := z, c := c, v := v }) := by
  revert cond n z c v; decide

/-- Settles O53: a branch goes by its condition of the flags. -/
theorem conditionalBranch : Obligations.ConditionalBranch := by
  unfold Obligations.ConditionalBranch Leads exec
  intro s s' cpu cond disp h cs n z c v holds pc
  have hlist : holds[cond.val]? = if cond.val = 15 then none else some (condHolds cond.val (cpuFlags s'.dev cpu)) :=
    condHolds_listed cond n z c v
  rw [hlist]
  refine (runIns_issued h _).trans (congrArg Host.Outcome.next ?_)
  by_cases hres : cond.val = 15
  · simp only [hres, if_true]; rfl
  · simp only [hres, if_false]
    cases condHolds cond.val (cpuFlags s'.dev cpu) <;> rfl

section Jump
variable {s s' : State} {cpu : Cpu} {ra : GReg} {f : Dev → Dev}

/-- A jump to the value of a register that is a word address (R585). -/
theorem jumpTo_aligned (h : Issues s cpu s') (hal : (gOf s'.dev cpu ra).toNat % 4 = 0) :
    runIns cpu s (fun s => jumpTo s (gOf s.dev cpu ra) f)
      = .next (s'.onDev fun d => (f d).setPc (cpuId cpu) (gOf s'.dev cpu ra)) := by
  rw [runIns_issued h, jumpTo, if_neg (by simp [hal])]; rfl

/-- A jump to any other value raises vector 3 there. -/
theorem jumpTo_odd (h : Issues s cpu s') (hodd : (gOf s'.dev cpu ra).toNat % 4 ≠ 0) :
    runIns cpu s (fun s => jumpTo s (gOf s.dev cpu ra) f)
      = .next (raiseTrap s' cpu { vec := 3, faddr := (gOf s'.dev cpu ra).toNat }) := by
  rw [runIns_issued h, jumpTo, if_pos hodd]; rfl

end Jump

/-- A word of major opcode 0x23 with another fn, or with a field that its jump does not use, is no instruction (R571, R585). -/
theorem legalWord_jumpReserved (kind : CpuKind) {w : Word} (hop : bitsOf w 26 6 = 0x23)
    (hbad : 2 ≤ bitsOf w 0 6 ∨ bitsOf w 11 5 ≠ 0 ∨ (bitsOf w 0 6 = 0 ∧ bitsOf w 21 5 ≠ 0)) : legalWord kind w = false := by
  have hno : bitsOf w 11 5 = 0 → (bitsOf w 0 6 = 0 → bitsOf w 21 5 ≠ 0) ∧ bitsOf w 0 6 ≠ 1 := by omega
  simpa [legalWord, hop] using fun _ => hno

/-- Settles O54: JMP and CALL go by their displacement, JR and JALR by a register. -/
theorem jumps : Obligations.Jumps := by
  unfold Obligations.Jumps Leads exec
  intro s s' cpu rt ra sf disp h c pc a goes trap
  refine ⟨runIns_issued h _, runIns_issued h _, fun hal => ⟨jumpTo_aligned h hal, jumpTo_aligned h hal, ?flags⟩,
    fun hodd => ⟨jumpTo_odd h hodd, jumpTo_odd h hodd⟩, fun kind w => legalWord_jumpReserved kind⟩
  case flags =>
    refine (jumpTo_aligned h hal).trans ?_
    simp only [nz_eq, Dev.setG_cr, if_true]
    rfl
end Sys2Proof.Machine
end

section
/-! PROOF. The system instructions: SYSCALL and BRK, control registers, the privileged ones, and compare and swap (R568, R583,
R586, R608, R610, R617, R631). -/

namespace Sys2Proof.Machine

/-! ### SYSCALL and BRK -/

/-- An exception of a core that is no data or fetch fault and resumes after its instruction: entry with its FINFO (R608). -/
theorem raiseTrap_after {s : State} {cpu : Cpu} {v : Nat} (hk : cpuKind cpu ≠ .engine) (hv : v = 12 ∨ v = 13) (x : Nat) :
    raiseTrap s cpu { vec := v, finfo := x }
      = enter s (cpuId cpu) v (s.dev.pc (cpuId cpu) + 4).toNat 0 0 x := by
  cases cpu with
  | engine g e => exact absurd rfl hk
  | core c | warden => rcases hv with rfl | rfl <;> simp [raiseTrap, causeBits, b2n, cpuId]

/-- Settles O56: both raise their vector, and a held core halts at BRK. -/
theorem systemCallAndBreakpoint : Obligations.SystemCallAndBreakpoint := by
  unfold Obligations.SystemCallAndBreakpoint Leads
  intro s s' cpu code h c next
  refine ⟨fun hk => ⟨?syscall, fun hfree => ?brk, fun hheld => ?held⟩, fun hk i hi => ?engine⟩
  case syscall =>
    refine (runIns_issued h _).trans (congrArg Host.Outcome.next ?_)
    simp only [hk, if_false]
    exact raiseTrap_after hk (.inl rfl) _
  case brk =>
    refine (runIns_issued h _).trans (congrArg Host.Outcome.next ?_)
    simp only [hk, if_false, show s'.dev.hon .cDbg (cpuId cpu) = false from hfree, Bool.false_eq_true]
    exact raiseTrap_after hk (.inr rfl) _
  case held =>
    refine (runIns_issued h _).trans (congrArg Host.Outcome.next ?_)
    simp only [hk, if_false, show s'.dev.hon .cDbg (cpuId cpu) = true from hheld, if_true]
    rfl
  case engine =>
    rw [List.mem_pair] at hi
    rcases hi with rfl | rfl
    all_goals
      refine (runIns_issued h _).trans (congrArg Host.Outcome.next ?_)
      simp only [hk, if_true]
      rfl

/-! ### Control registers -/

/-- Settles O57: each clause is one branch of MFCR or MTCR. -/
theorem controlRegisters : Obligations.ControlRegisters := by
  unfold Obligations.ControlRegisters Leads
  intro s s' cpu rt code h c n w r fits trap
  have hsize : fits ↔ ¬(decide (0x20 ≤ n) && decide (n < 0x40) && decide (n % 2 = 0) && decide (20 ≤ bitsOf w 7 5)) = true := by
    simp only [fits, Bool.and_eq_true, decide_eq_true_eq]; omega
  have listed {b : Bool} (hb : b = true) : ¬(!b) = true := by simp [hb]
  have written {x y z u : Ins} (hyes : crListed (cpuKind cpu) true n = true) (hfit : fits)
      (hhigh : ¬ s'.dev.level c < crLevel n)
      (hok : n ≠ crCS ∨ cpuKind cpu ≠ .app ∨ s'.dev.level c = 0 ∨ bitsOf w 1 2 < 2) :
      (if !crListed (cpuKind cpu) true n then x
       else if 0x20 ≤ n && n < 0x40 && n % 2 = 0 && 20 ≤ bitsOf w 7 5 then y
       else if s'.dev.level c < crLevel n then z
       else if n = crCS && cpuKind cpu = .app && s'.dev.level c ≠ 0 && 2 ≤ bitsOf w 1 2 then z else u) = u := by
    refine (if_neg (listed hyes)).trans ((if_neg (hsize.1 hfit)).trans ((if_neg hhigh).trans (if_neg ?_)))
    simp only [Bool.and_eq_true, decide_eq_true_eq]
    rintro ⟨⟨⟨hn, hkind⟩, hlevel⟩, hbits⟩
    rcases hok with hok | hok | hok | hok
    · exact hok hn
    · exact hok hkind
    · exact hlevel hok
    · omega
  refine ⟨fun hno => ?readUnlisted, fun hyes hlow => ?readLow, fun hyes hhigh => ?read, fun hno => ?writeUnlisted,
    fun hbad => ?writeSize, fun hyes hfit hlow => ?writeLow, fun hyes hcs hfit hhigh => ?write, fun hcs hlevel => ?writeCs⟩
  all_goals refine (runIns_issued h _).trans (congrArg Host.Outcome.next ?_)
  case readUnlisted | writeUnlisted => exact congrArg (insFinish cpu) (if_pos (by rw [hno]; rfl))
  case readLow => exact congrArg (insFinish cpu) ((if_neg (listed hyes)).trans (if_pos hlow))
  case read => exact congrArg (insFinish cpu) ((if_neg (listed hyes)).trans (if_neg hhigh.not_gt))
  case writeSize =>
    have hbad' := not_not.1 (mt hsize.2 hbad)
    refine congrArg (insFinish cpu) (a₂ := illegal s') ?_
    cases hlisted : crListed (cpuKind cpu) true n with
    | false => exact if_pos (by rw [hlisted]; rfl)
    | true => exact (if_neg (listed hlisted)).trans (if_pos hbad')
  case writeLow =>
    exact congrArg (insFinish cpu) ((if_neg (listed hyes)).trans ((if_neg (hsize.1 hfit)).trans (if_pos hlow)))
  case write =>
    refine (congrArg (insFinish cpu) (written hyes hfit hhigh.not_gt (.inl hcs))).trans ?_
    simp only [show code.toNat ≠ crCS from hcs, if_false]
    rfl
  case writeCs =>
    have hyes : crListed (cpuKind cpu) true n = true := by rw [hcs]; cases cpu <;> rfl
    have hfit : fits := .inl (by rw [hcs]; decide)
    have hhigh : ¬ s'.dev.level c < crLevel n := by rw [hcs]; exact Nat.not_lt_zero _
    refine (congrArg (insFinish cpu) (written hyes hfit hhigh (.inr hlevel))).trans ?_
    simp only [show code.toNat = crCS from hcs, if_true]
    rfl

/-! ### Privileged instructions -/

section Privileged
variable {s s' : State} {cpu : Cpu} {f : State → Ins}

/-- At level 0 a core's privileged instruction raises vector 2 (R586). -/
theorem privileged_low (h : Issues s cpu s') (hk : cpuKind cpu ≠ .engine) (hl : s'.dev.level (cpuId cpu) = 0) :
    runIns cpu s (fun s => privileged s cpu (f s)) = .next (raiseTrap s' cpu { vec := 2 }) := by
  rw [runIns_issued h, privileged, if_neg hk, if_pos hl]; rfl

/-- Above it the instruction comes to what it does. -/
theorem privileged_high (h : Issues s cpu s') (hk : cpuKind cpu ≠ .engine) (hl : 1 ≤ s'.dev.level (cpuId cpu)) :
    runIns cpu s (fun s => privileged s cpu (f s)) = .next (insFinish cpu (f s')) := by
  rw [runIns_issued h, privileged, if_neg hk, if_neg (by omega)]

/-- A TINV keeps the translations that it does not name, or that are another core's or partition's (R631). -/
theorem tinvIns_drops {p : Dev → TlbEntry → Bool} {hit : TlbEntry → Prop} (h : Issues s cpu s') (hk : cpuKind cpu ≠ .engine)
    (hl : 1 ≤ s'.dev.level (cpuId cpu)) (hp : ∀ e, p s'.dev e = true ↔ hit e) :
    ∃ d : Dev, tinvIns cpu s p = .next { s' with dev := d } ∧ ∃ keep : TlbEntry → Bool,
      d.tlb = s'.dev.tlb.filter keep
      ∧ ∀ e, keep e = false ↔ ((cpuId cpu = 4 ∨ e.core = cpuId cpu ∧ e.part = partOf s'.dev (cpuId cpu)) ∧ hit e) := by
  refine ⟨_, (privileged_high h hk hl).trans rfl,
    fun e => !((cpuId cpu == 4 || (e.core == cpuId cpu && e.part == partOf s'.dev (cpuId cpu))) && p s'.dev e), ?tlb, fun e => ?named⟩
  case tlb =>
    simp only [State.onDev_dev]
    split <;> rfl
  case named =>
    simp only [Bool.not_eq_false', Bool.and_eq_true, Bool.or_eq_true, beq_iff_eq, hp]

end Privileged

theorem ofNat_b2n (b : Bool) : BitVec.ofNat 32 (b2n b) = if b then 1 else 0 := by cases b <;> rfl

/-- The bits of a field, as a part of the word's number. -/
theorem bitsOf_toNat (w : Word) (lo n : Nat) : bitsOf w lo n = w.toNat / 2 ^ lo % 2 ^ n := by
  rw [bitsOf, BitVec.extractLsb'_toNat, Nat.shiftRight_eq_div_pow]

/-- Settles O58: each instruction is privileged, and above level 0 does its own. -/
theorem privilegedInstructions : Obligations.PrivilegedInstructions := by
  unfold Obligations.PrivilegedInstructions Leads
  intro s s' cpu rt ra h hk c a done imw drop acts
  refine ⟨fun hl i hi => ?low, fun hl => ⟨?imset, ?imclr, fun hnone => ?wait, fun hsome => ?noWait, ?tinvA, ?tinvT, ?tinvAll,
    fun l t hloads hlevel => ?eret⟩⟩
  case low =>
    simp only [List.mem_cons, List.not_mem_nil, or_false] at hi
    rcases hi with rfl | rfl | rfl | rfl | rfl | rfl | rfl <;> exact privileged_low h hk hl
  case imset | imclr =>
    refine (privileged_high h hk hl).trans (congrArg Host.Outcome.next ?_)
    simp only [ofNat_b2n]
    rfl
  case wait =>
    refine (privileged_high h hk hl).trans (congrArg Host.Outcome.next ?_)
    simp only [State.onDev, show intPending s'.dev (cpuId cpu) = false from hnone]
    rfl
  case noWait =>
    refine (privileged_high h hk hl).trans (congrArg Host.Outcome.next ?_)
    simp only [State.onDev, show intPending s'.dev (cpuId cpu) = true from hsome]
    rfl
  case tinvA =>
    refine tinvIns_drops h hk hl fun e => ?_
    by_cases hc : cpuId cpu = 4 <;> simp [c, a, hc]
  case tinvT =>
    refine tinvIns_drops h hk hl fun e => ?_
    have hc : cpuId cpu = 4 ↔ ¬cpuId cpu ≠ 4 := not_not.symm
    simp [c, a, bitsOf_toNat, or_iff_not_imp_left]
  case tinvAll => exact tinvIns_drops h hk hl fun e => ⟨fun _ => trivial, fun _ => rfl⟩
  case eret =>
    refine (privileged_high h hk hl).trans (congrArg Host.Outcome.next ?_)
    have hallowed : ¬(decide (cpuId cpu < 4) && decide (2 ≤ bitsOf (BitVec.ofNat 32 ((l[1]?).getD 0)) 1 2)) = true := by
      rw [bitsOf_ofNat _ _ _ (by decide), Bool.and_eq_true, decide_eq_true_eq, decide_eq_true_eq]
      omega
    simp only [c] at hloads
    simp only [hloads]
    exact congrArg (insFinish cpu) (if_neg hallowed)

/-! ### Compare and swap -/

/-- CS with Z replaced and the other flags as they are. -/
theorem withFlags_z (cs : Word) (z : Bool) :
    withFlags cs { flagsOf cs with z := z } = putBits cs 30 1 (if z then 1 else 0) := by
  have hnibble : ∀ n z c v : Bool, ∀ j < 4,
      (BitVec.ofInt 32 (b2n v + 2 * b2n c + 4 * b2n z + 8 * b2n n : Nat)).getLsbD j = ([v, c, z, n][j]?).getD false := by
    decide
  have hbit : (BitVec.ofInt 32 (if z then 1 else 0)).getLsbD 0 = z := by cases z <;> rfl
  apply BitVec.eq_of_getLsbD_eq
  intro i hi
  rw [withFlags, getLsbD_putBits _ _ _ _ _ hi, getLsbD_putBits _ _ _ _ _ hi]
  by_cases hflag : 28 ≤ i
  · rw [if_pos ⟨hflag, by omega⟩, hnibble _ _ _ _ _ (by omega)]
    obtain rfl | rfl | rfl | rfl : i = 28 ∨ i = 29 ∨ i = 30 ∨ i = 31 := by omega
    · rfl
    · rfl
    · exact hbit.symm
    · rfl
  · rw [if_neg (by omega), if_neg (by omega)]

/-- The state in which CAS leaves its CPU: the word read in rt, Z, and the pc after it. -/
def casEnd (t : State) (cpu : Cpu) (rt : GReg) (old : Nat) (z : Bool) (pc : Word) : State :=
  t.onDev fun d => ((d.setG (cpuId cpu) rt.val (BitVec.ofNat 32 old)).setCr (cpuId cpu) crCS
    (putBits (d.cr (cpuId cpu) crCS) 30 1 (if z then 1 else 0))).setPc (cpuId cpu) pc

section CasAt
variable {s u : State} {cpu : Cpu} {rt rb : GReg} {va pa old : Nat} (hbank : (sramBank pa).isSome = true)
  (hload : busLoad s (coreInit (cpuId cpu)) pa 4 = (.ok old, u))
include hbank hload

/-- CAS that finds another value in the word than rt's. -/
theorem casAt_differs (hne : old ≠ (gOf u.dev cpu rt).toNat) :
    insFinish cpu (casAt s cpu rt rb va pa) = casEnd u cpu rt old false (s.dev.pc (cpuId cpu) + 4) := by
  have hnone : (sramBank pa).isNone = false := by rw [← Option.not_isSome, hbank]; rfl
  simp only [casAt, hnone, hload, hne, Bool.false_eq_true, if_false, cpuFlags, Dev.setG_cr, withFlags_z]
  rfl

/-- CAS that finds rt's value stores rb. -/
theorem casAt_equal {v : State} {x : Nat} (heq : old = (gOf u.dev cpu rt).toNat)
    (hstore : busStore u (coreInit (cpuId cpu)) pa 4 (gOf u.dev cpu rb).toNat = (.ok x, v)) :
    insFinish cpu (casAt s cpu rt rb va pa) = casEnd v cpu rt old true (s.dev.pc (cpuId cpu) + 4) := by
  have hnone : (sramBank pa).isNone = false := by rw [← Option.not_isSome, hbank]; rfl
  simp only [casAt, hnone, hload, hstore, heq, Bool.false_eq_true, if_false, if_true, cpuFlags, Dev.setG_cr, withFlags_z]
  rfl

end CasAt

/-- CAS of a core on a word address that translates comes to its accesses at the physical address, once the core's stores have
left its buffer (R583, R599). -/
theorem cas_at {s s' t : State} {cpu : Cpu} {rt ra : GReg} {rb : GRegS} {pa : Nat} (h : Issues s cpu s')
    (hk : cpuKind cpu ≠ .engine) (hal : (gOf s'.dev cpu ra).toNat % 4 = 0)
    (htr : cpuTranslate s' (cpuId cpu) (gOf s'.dev cpu ra).toNat (s'.dev.level (cpuId cpu)) .cas = .ok pa t) :
    exec (.cas cpu rt ra rb) s
      = .next (insFinish cpu (casAt (drainAll t (cpuId cpu)) cpu rt rb.reg (gOf s'.dev cpu ra).toNat pa)) := by
  refine (runIns_issued h _).trans ?_
  simp only [hk, hal, htr, if_false, ne_eq, not_true]

/-- Settles O59: CAS reads its word, and stores rb where it found rt's value. -/
theorem compareAndSwap : Obligations.CompareAndSwap := by
  unfold Obligations.CompareAndSwap Leads
  intro s s' cpu rt ra rb sf h c va ends
  refine ⟨fun hk => ?engine, fun hk hodd => ?odd, fun hk hal pa t old u htr hbank hload hpc hrt => ?made⟩
  case engine =>
    refine (runIns_issued h _).trans (congrArg Host.Outcome.next ?_)
    exact congrArg (insFinish cpu) (if_pos hk)
  case odd =>
    refine (runIns_issued h _).trans (congrArg Host.Outcome.next ?_)
    exact congrArg (insFinish cpu) ((if_neg hk).trans (if_pos hodd))
  case made =>
    have hpc' : (drainAll t c).dev.pc c + 4 = s'.dev.pc c + 4 := by rw [hpc]
    have hrt' : gOf u.dev cpu rt = s'.dev.g c rt.val := hrt
    refine ⟨fun hne => (cas_at h hk hal htr).trans (congrArg Host.Outcome.next ?differs),
      fun v x heq hstore => (cas_at h hk hal htr).trans (congrArg Host.Outcome.next ?equal)⟩
    case differs => rw [casAt_differs hbank hload (by rw [hrt']; exact hne), hpc']; rfl
    case equal => rw [casAt_equal hbank hload (by rw [hrt']; exact heq) hstore, hpc']; rfl

end Sys2Proof.Machine
end

section
/-! PROOF. Taking an exception or an interrupt (R608, R609). -/

namespace Sys2Proof.Machine

/-! ### Control registers read after a write -/

@[simp] theorem Dev.cr_setCr_same (d : Dev) (c n : Nat) (w : Word) : (d.setCr c n w).cr c n = w := by
  simp [Dev.cr, Dev.setCr]

theorem Dev.cr_setCr_other (d : Dev) (c : Nat) {n m : Nat} (w : Word) (h : n ≠ m) : (d.setCr c n w).cr c m = d.cr c m := by
  simp only [Dev.cr, Dev.setCr]; exact Store.get_put_other _ _ _ _ (by omega)

/-! ### Entry -/

/-- The block as R608 tables it: eleven words from TSP on, and g1 to g31 from offset 0x40 on. -/
theorem tsbWords_at (d : Dev) (c pc cause faddr finfo tsp : Nat) :
    (tsbWords d c pc cause faddr finfo).map (fun x => (tsp + x.1, x.2)) =
      (let w (r : Nat) : Nat := (d.cr c r).toNat
       let head := [pc, w crCS, cause, faddr, finfo, w crMB0, w crML0, w crMB1, w crML1, d.now % 2 ^ 32, d.now / 2 ^ 32]
       (List.range 11).map (fun i => (tsp + 4 * i, (head[i]?).getD 0))
         ++ (List.range 31).map fun i => (tsp + 0x40 + 4 * i, (d.g c (i + 1)).toNat)) := by
  rw [tsbWords, List.map_append, List.map_map]
  refine congrArg₂ (· ++ ·) rfl (List.map_congr_left fun i _ => ?_)
  rw [Nat.add_assoc]; rfl

/-- The device as a handler finds it: entered at `a`, with IM 1 and its level, and no WAIT (R608). -/
def handlerDev (d : Dev) (c a : Nat) : Dev :=
  ((d.setCr c crCS (handlerCs c (d.cr c crCS))).setPc c (BitVec.ofNat 32 a)).setH .cWait c 0

theorem handlerDev_cs (d : Dev) (c a : Nat) : (handlerDev d c a).cr c crCS = handlerCs c (d.cr c crCS) :=
  (Dev.cr_setCr_other _ _ _ (by decide)).trans (Dev.cr_setCr_same ..)

theorem handlerDev_im (d : Dev) (c a : Nat) : (handlerDev d c a).im c = true := by
  rw [Dev.im, handlerDev_cs, handlerCs, getLsbD_putBits _ _ _ _ _ (by decide), if_pos ⟨Nat.zero_le _, by decide⟩]
  unfold entryLevel
  split <;> rfl

theorem handlerDev_level (d : Dev) {c : Nat} (a : Nat) (hc : c < 5) :
    (handlerDev d c a).level c = if c < 4 then 1 else 2 := by
  have hfield (w : Word) (x : Int) : bitsOf (putBits w 0 3 x) 1 2 = bitsOf (BitVec.ofInt 32 x) 1 2 := by
    refine bitsOf_eq _ _ _ _ fun i hlo hhi => ?_
    rw [getLsbD_putBits _ _ _ _ _ (by omega), if_pos (by omega), Nat.sub_zero]
  rw [Dev.level, if_pos hc, handlerDev_cs, handlerCs, hfield, entryLevel]
  split <;> rfl

/-- Settles O55: entry loads its vector, writes the block, and goes on in the handler or halts. -/
theorem exceptionEntry : Obligations.ExceptionEntry := by
  unfold Obligations.ExceptionEntry
  intro s c vec pc bits faddr finfo hc t v tsp w head block
  have hblock : (tsbWords v.2.dev c pc (vec + bits) faddr finfo).map (fun x => (tsp + x.1, x.2)) = block := tsbWords_at ..
  have hv : wordLoad (drainAll s c) c (((drainAll s c).dev.cr c crVTB).toNat + 4 * vec) = (v.1, v.2) := rfl
  refine ⟨fun a u ha hne hal hstored => ⟨handlerDev u.dev c a, ?entered, Dev.cr_setCr_same .., handlerDev_im .., handlerDev_level _ _ hc, Dev.h_setH_same ..⟩, fun hbad => ?halted⟩
  case entered =>
    have hgood : ¬(a = 0 || a % 4 ≠ 0) = true := by simp [hne, hal]
    rw [← hblock] at hstored
    simp only [enter, hv, ha]
    rw [if_neg hgood, hstored]
    rfl
  case halted =>
    simp only [enter, hv]
    rcases hbad with hnone | ⟨a, ha, hbad⟩
    · rw [hnone]
    · rw [ha]; exact if_pos (by simpa using hbad)
end Sys2Proof.Machine
end

section
/-! PROOF. The check code of SRAM (R637, R638): the syndrome of a stored byte depends on the bits that changed alone. -/

namespace Sys2Proof.Machine

/-! ### The check bits are linear in the bits of the byte -/

theorem bit_xor (x y i : Nat) : bit (x ^^^ y) i = bit x i ^^^ bit y i := by
  simp only [bit, Nat.shiftRight_xor_distrib]
  exact Nat.xor_mod_two_pow (n := 1)

theorem bit_lt_two (x i : Nat) : bit x i < 2 := Nat.mod_lt _ (by decide)

/-- The exclusive-OR of the bits of x at the positions of a list, as `chk4` takes it. -/
def xorBits (x : Nat) (l : List Nat) : Nat := l.foldl (fun a i => a ^^^ bit x i) 0

theorem foldl_xor_bit (x y : Nat) (l : List Nat) (a b : Nat) :
    l.foldl (fun a i => a ^^^ bit (x ^^^ y) i) (a ^^^ b)
      = l.foldl (fun a i => a ^^^ bit x i) a ^^^ l.foldl (fun a i => a ^^^ bit y i) b := by
  induction l generalizing a b with
  | nil => rfl
  | cons i t ih => rw [List.foldl_cons, List.foldl_cons, List.foldl_cons, bit_xor, ← ih]; congr 1; ac_rfl

theorem xorBits_xor (x y : Nat) (l : List Nat) : xorBits (x ^^^ y) l = xorBits x l ^^^ xorBits y l := foldl_xor_bit x y l 0 0

theorem xorBits_lt_two (x : Nat) (l : List Nat) : xorBits x l < 2 := by
  refine List.foldlRecOn l _ (motive := fun a => a < 2) (by decide) fun a ha i _ => ?_
  exact Nat.xor_lt_two_pow (n := 1) ha (bit_lt_two x i)

/-- Two numbers are combined bit by bit: the lowest bits, and what stands above them. -/
theorem xor_low_high {a b : Nat} (ha : a < 2) (hb : b < 2) (m n : Nat) :
    (a + 2 * m) ^^^ (b + 2 * n) = (a ^^^ b) + 2 * (m ^^^ n) := by
  have hmod : ((a + 2 * m) ^^^ (b + 2 * n)) % 2 = (a + 2 * m) % 2 ^^^ (b + 2 * n) % 2 := Nat.xor_mod_two_pow (n := 1)
  have hdiv : ((a + 2 * m) ^^^ (b + 2 * n)) / 2 = (a + 2 * m) / 2 ^^^ (b + 2 * n) / 2 := Nat.xor_div_two_pow (n := 1)
  rw [show (a + 2 * m) % 2 = a by omega, show (b + 2 * n) % 2 = b by omega] at hmod
  rw [show (a + 2 * m) / 2 = m by omega, show (b + 2 * n) / 2 = n by omega] at hdiv
  omega

theorem chk4_eq (x : Nat) : chk4 x = xorBits x [0, 1, 3, 4, 6] + 2 * (xorBits x [0, 2, 3, 5, 6]
    + 2 * (xorBits x [1, 2, 3, 7] + 2 * xorBits x [4, 5, 6, 7])) := by
  have hsum : chk4 x = xorBits x [0, 1, 3, 4, 6] + 2 * xorBits x [0, 2, 3, 5, 6] + 4 * xorBits x [1, 2, 3, 7]
    + 8 * xorBits x [4, 5, 6, 7] := rfl
  omega

theorem chk4_xor (x y : Nat) : chk4 (x ^^^ y) = chk4 x ^^^ chk4 y := by
  have hbit (x : Nat) (l : List Nat) := xorBits_lt_two x l
  simp only [chk4_eq, xorBits_xor, xor_low_high (hbit _ _) (hbit _ _)]

/-! ### Parities -/

theorem xor_bits_parity : ∀ a < 2, ∀ b < 2, (a ^^^ b) % 2 = (a + b) % 2 := by decide

theorem popcount_xor_parity (n x y : Nat) : popcount n (x ^^^ y) % 2 = (popcount n x + popcount n y) % 2 := by
  induction n with
  | zero => rfl
  | succ n ih =>
    have hbit := xor_bits_parity _ (bit_lt_two x n) _ (bit_lt_two y n)
    simp only [popcount, bit_xor]
    omega

theorem parity_xor (n x y : Nat) : parity n (x ^^^ y) = (parity n x + parity n y) % 2 := by
  simp only [parity, popcount_xor_parity, ← Nat.add_mod]

/-- The fifth check bit makes the parity of a byte and its check bits even, and the other four are `chk4`. -/
theorem parity_chk5 : ∀ b < 256, (parity 8 b + parity 5 (chk5 b)) % 2 = 0 ∧ chk5 b % 16 = chk4 b := by decide +kernel

/-! ### Reading -/

/-- What the changed bits alone decide of a read: the bits it turns over, and whether it is clean, corrected or not. -/
theorem eccByte_changed {b : Nat} (hb : b < 256) (e f : Nat) :
    eccByte (b ^^^ e) (chk5 b ^^^ f) = (b ^^^ (eccByte e f).1, (eccByte e f).2) := by
  obtain ⟨heven, hchk⟩ := parity_chk5 b hb
  have hs : chk4 (b ^^^ e) ^^^ (chk5 b ^^^ f) % 16 = chk4 e ^^^ f % 16 := by
    have hmod : (chk5 b ^^^ f) % 16 = chk5 b % 16 ^^^ f % 16 := Nat.xor_mod_two_pow (n := 4)
    rw [hmod, hchk, chk4_xor]
    calc chk4 b ^^^ chk4 e ^^^ (chk4 b ^^^ f % 16) = (chk4 b ^^^ chk4 b) ^^^ (chk4 e ^^^ f % 16) := by ac_rfl
      _ = chk4 e ^^^ f % 16 := by rw [Nat.xor_self, Nat.zero_xor]
  have hp : (parity 8 (b ^^^ e) + parity 5 (chk5 b ^^^ f)) % 2 = (parity 8 e + parity 5 f) % 2 := by
    rw [parity_xor, parity_xor]; omega
  simp only [eccByte, hs, hp]
  split
  · rfl
  · split
    · rfl
    · split
      · rfl
      · rw [Nat.xor_assoc]

/-- What is stored, with bits of it changed, comes apart into the byte and its check bits. -/
theorem stored_parts {b : Nat} (hb : b < 256) (x : Nat) :
    (b + 256 * chk5 b ^^^ x) % 256 = b ^^^ x % 256 ∧ (b + 256 * chk5 b ^^^ x) / 256 = chk5 b ^^^ x / 256 := by
  have hlow : (b + 256 * chk5 b) % 256 = b := by omega
  have hhigh : (b + 256 * chk5 b) / 256 = chk5 b := by omega
  have hmod : (b + 256 * chk5 b ^^^ x) % 256 = (b + 256 * chk5 b) % 256 ^^^ x % 256 := Nat.xor_mod_two_pow (n := 8)
  have hdiv : (b + 256 * chk5 b ^^^ x) / 256 = (b + 256 * chk5 b) / 256 ^^^ x / 256 := Nat.xor_div_two_pow (n := 8)
  rw [hmod, hdiv, hlow, hhigh]
  exact ⟨rfl, rfl⟩

theorem read_stored {b : Nat} (hb : b < 256) (x : Nat) :
    eccByte ((b + 256 * chk5 b ^^^ x) % 256) ((b + 256 * chk5 b ^^^ x) / 256)
      = (b ^^^ (eccByte (x % 256) (x / 256)).1, (eccByte (x % 256) (x / 256)).2) := by
  obtain ⟨hbyte, hcheck⟩ := stored_parts hb x
  rw [hbyte, hcheck, eccByte_changed hb]

/-- One changed bit of the thirteen is turned back. -/
theorem eccByte_one_changed : ∀ i < 13, eccByte (2 ^ i % 256) (2 ^ i / 256) = (0, 1) := by decide +kernel

/-- Two changed bits are told as such. -/
theorem eccByte_two_changed :
    ∀ j < 13, ∀ i < j, (eccByte ((2 ^ i + 2 ^ j) % 256) ((2 ^ i + 2 ^ j) / 256)).2 = 2 := by decide +kernel

/-- Settles O35: what a read turns over, and what it reports, depends on the changed bits alone. -/
theorem checkCode : Obligations.CheckCode := by
  unfold Obligations.CheckCode
  intro b hb
  refine ⟨?_, fun i hi => ?_, fun i j hij hj => ?_⟩
  · exact (read_stored hb 0).trans (by rw [show eccByte (0 % 256) (0 / 256) = (0, 0) by decide, Nat.xor_zero])
  · exact (read_stored hb _).trans (by rw [eccByte_one_changed i hi, Nat.xor_zero])
  · exact (congrArg Prod.snd (read_stored hb _)).trans (eccByte_two_changed j hj i hij)

end Sys2Proof.Machine
end

section
/-! PROOF. How the warden serves a packet (R438, R439, R460), and a step of the block. -/

namespace Sys2Proof.Machine

/-! ### Steps -/

/-- Settles O1: a step takes the queue apart. -/
theorem stepRunsFront : Obligations.StepRunsFront := fun _ _ => ⟨rfl, rfl⟩

/-! ### Serving -/

/-- A packet is taken only while the warden holds none. -/
theorem not_held_of_nextPacket {d : Dev} {k : Packet} (h : nextPacket d = some k) : d.held = none := by
  unfold nextPacket at h
  split at h
  next => cases h
  next hfree =>
    rw [Bool.or_eq_true, not_or] at hfree
    exact Option.not_isSome_iff_eq_none.1 hfree.2

/-- A packet at the front that is no standard command stays at the front. -/
theorem stdFront_of_opcode {s : State} {k : Packet} (hnext : nextPacket s.dev = some k) (hop : k.op < 0x100) :
    ∀ fuel, stdFront fuel s = s
  | 0 => rfl
  | _ + 1 => by
    unfold stdFront
    rw [hnext]
    exact if_neg (by omega)

/-- A packet of the row's opcode is carried out. -/
theorem serve_next {s : State} {k : Packet} {op : Nat} (hserves : Serves s op k) (hop : op < 0x100) (f : OpFn) :
    serve op f s = .next (settleOp k (f k (taken s k))) := by
  obtain ⟨hnext, rfl, hlong⟩ := hserves
  have hfree : (opLong k.op && (taken s k).dev.longs.any fun y => y.pkt.op / 16 == k.op / 16) = false := by
    rw [Bool.and_eq_false_imp]
    intro hl
    exact List.any_eq_false.2 fun y hy => by simpa using hlong hl y hy
  unfold serve
  rw [stdFront_of_opcode hnext hop]
  simp only [hnext, if_true]
  exact congrArg Host.Outcome.next (if_neg (by rw [Bool.not_eq_true]; exact hfree))

/-- A packet of another opcode is left where it is. -/
theorem serve_other {s : State} {k : Packet} {op : Nat} (hnext : nextPacket s.dev = some k) (hop : k.op < 0x100)
    (hne : k.op ≠ op) (f : OpFn) : serve op f s = .next s := by
  unfold serve
  rw [stdFront_of_opcode hnext hop]
  simp only [hnext, if_neg hne]

/-- The row of an opcode that may hold the warden serves like any other while the warden holds no packet. -/
theorem serveHeld_free {s : State} {k : Packet} (hnext : nextPacket s.dev = some k) (op : Nat) (f : OpFn) (g : LongFn) :
    serveHeld op f g s = serve op f s := by
  unfold serveHeld
  rw [not_held_of_nextPacket hnext]

/-- The row of an opcode: `serveHeld` for the three that may hold the warden, `serve` for the others. -/
def serveRow (op : Nat) (f : OpFn) (s : State) : Host.Outcome State Fault Refusal :=
  match op with
  | 0x03 => serveHeld op f longState s
  | 0x49 => serveHeld op f longStage s
  | 0x91 => serveHeld op f longRtc s
  | _ => serve op f s

theorem serveRow_free {s : State} {k : Packet} (hnext : nextPacket s.dev = some k) (op : Nat) (f : OpFn) :
    serveRow op f s = serve op f s := by
  unfold serveRow
  split
  case h_4 => rfl
  all_goals exact serveHeld_free hnext ..

/-- A command is the row of an opcode. -/
structure IsRow (x : Instr × Nat × OpFn) : Prop where
  opcode : x.2.1 < 0x100
  exec_eq : ∀ s, exec x.1 s = serveRow x.2.1 x.2.2 s

theorem IsRow.leads_next {x : Instr × Nat × OpFn} (hrow : IsRow x) {s : State} {k : Packet} (hserves : Serves s x.2.1 k) :
    Leads x.1 s (settleOp k (x.2.2 k (taken s k))) :=
  (hrow.exec_eq s).trans ((serveRow_free hserves.1 ..).trans (serve_next hserves hrow.opcode _))

theorem IsRow.leads_other {x : Instr × Nat × OpFn} (hrow : IsRow x) {s : State} {k : Packet} (hnext : nextPacket s.dev = some k)
    (hop : k.op < 0x100) (hne : k.op ≠ x.2.1) : Leads x.1 s s :=
  (hrow.exec_eq s).trans ((serveRow_free hnext ..).trans (serve_other hnext hop hne _))

/-- Settles O37: each command of the list is the row of its opcode. -/
theorem opcodesServed : Obligations.OpcodesServed := by
  unfold Obligations.OpcodesServed
  refine fun x hx s k => ?_
  suffices hrow : IsRow x from ⟨hrow.leads_next, hrow.leads_other⟩
  revert x
  simp only [List.forall_mem_append, List.forall_mem_cons, List.not_mem_nil, false_imp_iff, implies_true, and_true]
  repeat' apply And.intro
  all_goals exact ⟨by decide, fun _ => rfl⟩

/-! ### Packets that go on -/

/-- The Long packet of a group goes on while the warden runs. -/
theorem longPacketComplete_goes {s : State} {y : LongOp} {g : Fin 16} (hrun : wardenRuns s.dev = true)
    (hfind : s.dev.longs.find? (fun y => y.pkt.op / 16 == g.val) = some y) :
    Leads (.longPacketComplete g) s (runLong y (longOf y.pkt.op) s) := by
  show execLongPacketComplete g s = _
  unfold execLongPacketComplete
  rw [hfind]
  exact congrArg Host.Outcome.next (if_pos hrun)

theorem longPacketComplete_none {s : State} {g : Fin 16}
    (hfind : s.dev.longs.find? (fun y => y.pkt.op / 16 == g.val) = none) : Leads (.longPacketComplete g) s s := by
  show execLongPacketComplete g s = _
  unfold execLongPacketComplete
  rw [hfind]

/-- The packet that holds the warden goes on with its own row. -/
theorem serveHeld_held {s : State} {y : LongOp} (hrun : wardenRuns s.dev = true) (hheld : s.dev.held = some y) (f : OpFn)
    (g : LongFn) : serveHeld y.pkt.op f g s = .next (runHeld y g s) := by
  unfold serveHeld
  rw [hheld]
  exact congrArg Host.Outcome.next (if_pos (by simp [hrun]))

/-- A packet that is no Long one and waits for a bit holds the warden while the bit stands, and is answered after that. -/
theorem held_goes_by {s : State} {y : LongOp} {i : Instr} {f : OpFn} {g : LongFn} {busy : Bool}
    (hrun : wardenRuns s.dev = true) (hheld : s.dev.held = some y) (hlong : opLong y.pkt.op = false)
    (hexec : exec i s = serveHeld y.pkt.op f g s)
    (hwaits : ∀ u : State, u = (s.onDev fun d => { d with held := none }) → g y u = if busy then (.wait 0 [], u) else opOk u) :
    (busy = true → Leads i s ((s.onDev fun d => { d with held := none }).onDev fun d =>
      { d with held := some { y with idx := 0, acc := [] } }))
    ∧ (busy = false → Replies i s y.pkt stOk [] (s.onDev fun d => { d with held := none })) := by
  have hleads := hexec.trans (serveHeld_held hrun hheld f g)
  rw [runHeld, hwaits _ rfl] at hleads
  refine ⟨?_, ?_⟩ <;> rintro rfl
  · exact hleads.trans (by simp [settleOp, hlong])
  · exact hleads

/-- Settles O38: a Long packet goes on as its opcode says, and one that holds the warden as its bit stands. -/
theorem longPackets : Obligations.LongPackets := by
  unfold Obligations.LongPackets
  intro s y hrun
  refine ⟨fun g hfind => ?_, fun g => longPacketComplete_none, fun hheld => ?_⟩
  · have hgoes := longPacketComplete_goes hrun hfind
    unfold runLong at hgoes
    split
    all_goals
      next hlong =>
        rw [hlong] at hgoes
        exact hgoes
  · refine ⟨fun hop => ?_, fun hop => ?_⟩
    · exact held_goes_by hrun hheld (by rw [hop]; rfl) (by rw [hop]; rfl) fun _ hu => by rw [hu]; rfl
    · exact held_goes_by hrun hheld (by rw [hop]; rfl) (by rw [hop]; rfl) fun _ hu => by rw [hu]; rfl

end Sys2Proof.Machine
end

section
/-! PROOF. The checked register writes of opcodes (R441), and how a packet is taken (R429 to R437). -/

namespace Sys2Proof.Machine

/-! ### Checked writes -/

/-- No word of a list meets a lock or a reserved encoding exactly where each of them meets none. -/
theorem wCheck_none_iff (d : Dev) (rows : List (RegRow × Nat × Word)) :
    wCheck d rows = none ↔ ∀ x ∈ rows, lockHit d x.1 x.2.1 x.2.2 = none ∧ reservedWord d x.1 x.2.1 x.2.2 = false := by
  unfold wCheck
  rw [List.findSome?_eq_none_iff]
  refine forall₂_congr fun x _ => ?_
  cases lockHit d x.1 x.2.1 x.2.2 <;> simp

/-- Settles O40: the checks of a write are judged in the order of the clauses. -/
theorem checkedWrites : Obligations.CheckedWrites := by
  unfold Obligations.CheckedWrites
  intro s row j w hreg
  refine ⟨fun hoff => ?_, fun hon => ⟨fun F hlock => ?_, fun hfree => ⟨fun hstray => ?_, fun hstray hres => ?_⟩⟩,
    fun R i v t => ⟨fun u hok => ?_, fun e herr => ?_⟩, fun l st c t => ⟨?_, fun hnone hok => ?_, fun hsome hok => ?_, fun herr => ?_⟩⟩
  · simp [wWrite, hreg, hoff]
  · simp [wWrite, hreg, hon, hlock]
  · simp [wWrite, hreg, hon, hfree, hstray]
  · simp [wWrite, hreg, hon, hfree, hstray, hres]
  · rw [wWrites, hok]
  · rw [wWrites, herr]
  · exact wCheck_none_iff ..
  · rw [opWrites, hnone, hok]; rfl
  · rw [opWrites, hsome, hok]
  · rw [opWrites, herr]
    cases wCheck s.dev _ <;> rfl

/-! ### Taking a packet -/

/-- Settles O44: each clause is one way out of `submit`, in its order. -/
theorem packetsTaken : Obligations.PacketsTaken := by
  unfold Obligations.PacketsTaken
  intro d port unit b at_ here x dist plain len framed addressed
  have hbroken : (b.length < 8 || 248 < len || b.length ≠ 8 + len || crc16 (b.take 6 ++ b.drop 8) ≠ at_ 6 + 256 * at_ 7) = true
      ↔ ¬ framed := by
    simp only [framed, Bool.or_eq_true, decide_eq_true_eq]
    omega
  have hmisdirected : (at_ 2 / 16 ≠ port || 4 ≤ at_ 1 || 8 ≤ at_ 2 % 16) = true ↔ ¬ addressed := by
    simp only [addressed, Bool.or_eq_true, decide_eq_true_eq]
    omega
  have hrepeated : (x.used && dist = 0 && at_ 6 + 256 * at_ 7 = x.crc) = true
      ↔ x.used = true ∧ dist = 0 ∧ at_ 6 + 256 * at_ 7 = x.crc := by
    simp only [Bool.and_eq_true, decide_eq_true_eq, and_assoc]
  have hpast : (x.used && (dist = 0 || 128 ≤ dist)) = true ↔ x.used = true ∧ (dist = 0 ∨ 128 ≤ dist) := by
    simp only [Bool.and_eq_true, Bool.or_eq_true, decide_eq_true_eq]
  have htaken (hframe : framed) (haddr : addressed) {e : Dev} (h : _ = e) : (submit d port unit b).2 = e :=
    (congrArg Prod.snd (if_neg (mt hbroken.1 (not_not_intro hframe)))).trans
      ((congrArg Prod.snd (if_neg (mt hmisdirected.1 (not_not_intro haddr)))).trans h)
  refine ⟨fun hframe => ?_, fun hframe haddr => ?_, fun hframe haddr hused hdist hcrc => ?_, fun hframe haddr hused hold => ?_⟩
  · exact congrArg Prod.snd (if_pos (hbroken.2 hframe))
  · exact (congrArg Prod.snd (if_neg (mt hbroken.1 (not_not_intro hframe)))).trans
      (congrArg Prod.snd (if_pos (hmisdirected.2 haddr)))
  · exact htaken hframe haddr (congrArg Prod.snd (if_pos (hrepeated.2 ⟨hused, hdist, hcrc⟩)))
  · refine htaken hframe haddr ((congrArg Prod.snd (if_neg ?_)).trans (congrArg Prod.snd (if_pos ?_)))
    · rw [hrepeated]
      rintro ⟨-, hdist, hcrc⟩
      omega
    · exact hpast.2 ⟨hused, hold.imp_left And.left⟩

end Sys2Proof.Machine
end

section
/-! PROOF. The commands of the PMBus, SPI and mailbox ports (R443 to R452). -/

namespace Sys2Proof.Machine

/-! ### Standard commands -/

/-- A command of the PMBus port is the standard command of a code. -/
@[reducible] def IsStd (x : (PmbOp → Instr) × Nat) : Prop := ∀ o s, exec (x.1 o) s = std x.2 o s

theorem std_off {s : State} (hoff : pmbOn s.dev = false) (code : Nat) (o : PmbOp) : std code o s = .next s :=
  if_pos (by rw [hoff]; rfl)

theorem std_on {s : State} (hon : pmbOn s.dev = true) (code : Nat) (o : PmbOp) :
    std code o s = match o with
      | .read => .next (stdSubmit code [0] s)
      | .write data pec => .next (if pecBad s.dev pec then pecFail s else stdSubmit code (1 :: data.map BitVec.toNat) s) :=
  if_neg (by rw [hon]; decide)

/-- A command under no guard that holds leaves the state as it is. -/
theorem leads_of_when_not {i : Instr} {s : State} {c : Dev → Bool} {g : Dev → Dev}
    (hexec : exec i s = s.ok fun d => d.when (c d) g) (hc : c s.dev = false) : Leads i s s := by
  rw [Leads, hexec, State.ok, State.onDev, Dev.when, if_neg (by rw [hc]; decide)]

/-! ### Blocks and transactions -/

section
variable {s : State} (bytes : List Byte) (pec : Pec)

theorem mfrSpecific00_long (h : 255 < bytes.length) : Leads (.mfrSpecific00 bytes pec) s s :=
  if_pos (by simp [h])

theorem mfrSpecific00_pecBad (hon : pmbOn s.dev = true) (hlen : bytes.length ≤ 255) (hpec : pecBad s.dev pec = true) :
    Leads (.mfrSpecific00 bytes pec) s (pecFail s) :=
  (if_neg (by simp [hon, hlen])).trans (if_pos hpec)

theorem mfrSpecific00_good (hon : pmbOn s.dev = true) (hlen : bytes.length ≤ 255) (hpec : pecBad s.dev pec = false) :
    Makes (.mfrSpecific00 bytes pec) s fun d => pmbPacket d (bytes.map BitVec.toNat) :=
  (if_neg (by simp [hon, hlen])).trans (if_neg (by rw [hpec]; decide))

end

/-- A mailbox's GO submits its packet (R452). -/
theorem reg_mbxCtl : ∀ p : Fin 8, Mapped row_CP_MBX_CTL p ∧ Direct row_CP_MBX_CTL p := by decide +kernel

theorem cpWrite_mbxCtl (d : Dev) (p : Nat) (w x : Word) :
    cpWrite d CP_MBX_CTL p w x = if valOf w CP_MBX_CTL_GO != 0 then mailboxGo d p else d := by
  have hreq : CP_MBX_CTL ≠ CP_MBX_REQ := by decide
  have hunit : unitOf CP_MBX_CTL p = p := Nat.div_one p
  unfold cpWrite
  simp only [hreq, decide_false, Bool.false_and, Bool.false_eq_true, if_false, if_true, hunit]

theorem mailboxGo_writes (s : State) (who : Initiator) (p : Part) :
    Writes (.mailboxGo who p) s who row_CP_MBX_CTL p (fieldWord s.dev CP_MBX_CTL_GO p 1) fun d => mailboxGo d p := by
  refine writes_of_block (b := fun d x => cpWrite d CP_MBX_CTL p _ x) (reg_mbxCtl p) rfl (fun _ => rfl) fun _ => ?_
  have hgo : valOf (fieldWord s.dev CP_MBX_CTL_GO p 1) CP_MBX_CTL_GO = 1 :=
    valOf_fieldWord_same (row := row_CP_MBX_CTL) s.dev 1 (by decide) (by decide)
  rw [cpWrite_mbxCtl, hgo]
  rfl

/-! ### SPI -/

theorem streamOf_id (d : Dev) (id : Nat) : (streamOf d id).id = id := by
  unfold streamOf
  cases h : d.streams.find? fun x => x.id == id with
  | none => rfl
  | some x => simpa using List.find?_some h

theorem streamOf_setStream (d : Dev) (x : Stream) : streamOf (setStream d x) x.id = x := by
  simp [streamOf, setStream]

/-- A reply that is fetched is the stored one, and its stream has been read (R450). -/
theorem spiRead_acts {s : State} (hon : spiOn s.dev = true) (p : Fin 8) :
    Acts (.spiRead (BitVec.ofNat 8 p)) s fun e => e.portOut = fetchReply s.dev (8 + p) ∧ (streamOf e (8 + p)).unread = false := by
  have hlt := p.isLt
  have htag : (BitVec.ofNat 8 p).toNat % 16 = p := by rw [BitVec.toNat_ofNat]; omega
  refine acts_of_when (c := spiOn) rfl hon ?_
  dsimp only
  rw [htag, if_neg (by omega)]
  split
  next => 
    refine ⟨rfl, ?_⟩
    generalize ({ s.dev with portOut := fetchReply s.dev (8 + p) } : Dev) = d
    have hset := streamOf_setStream d { streamOf d (8 + p) with unread := false }
    rw [streamOf_id] at hset
    rw [hset]
  next hread => exact ⟨rfl, by simpa using hread⟩

/-! ### The statement -/

/-- Settles O43: each command is its guard and, behind it, what the port does. -/
theorem portCommands : Obligations.PortCommands := by
  unfold Obligations.PortCommands
  refine ⟨fun x hx s => ?_, fun s bytes => ⟨fun pec => ⟨?long, ?bad, ?good⟩, ?callLong, fun hon => ⟨?call, ?fetch, ?alert⟩, ?expire,
    ?timeout, fun hon => ⟨?spi, ?lost, spiRead_acts hon, ?ready, ?unknown⟩, mailboxGo_writes s⟩⟩
  · suffices hstd : IsStd x by
      refine ⟨fun hoff o => ?_, fun hon => ⟨?_, fun data pec => ⟨fun hbad => ?_, fun hgood => ?_⟩⟩⟩
      · exact (hstd ..).trans (std_off hoff ..)
      all_goals refine (hstd ..).trans ((std_on hon ..).trans ?_)
      · rfl
      · exact congrArg Host.Outcome.next (if_pos hbad)
      · exact congrArg Host.Outcome.next (if_neg (by rw [hgood]; decide))
    revert x
    simp only [List.forall_mem_cons, List.not_mem_nil, false_imp_iff, implies_true, and_true]
    repeat' apply And.intro
    all_goals exact fun _ _ => rfl
  case long => exact mfrSpecific00_long bytes pec
  case bad => exact mfrSpecific00_pecBad bytes pec
  case good =>
    intro hon hlen hpec
    refine (mfrSpecific00_good bytes pec hon hlen hpec).congr ?_
    simp only [pmbPacket, Bool.and_eq_true, decide_eq_true_eq, apply_ite Nat.cast]
    rfl
  case callLong => exact fun h => leads_of_when_not (c := fun d => pmbOn d && bytes.length ≤ 255) rfl (by simp; omega)
  case call => exact fun h => makes_of_when (c := fun d => pmbOn d && bytes.length ≤ 255) rfl (by simp [hon, h])
  case fetch => exact makes_of_when rfl hon
  case alert =>
    refine Makes.congr (makes_of_when rfl hon) ?_
    simp only [Bool.and_eq_true]
  case expire => exact fun hdom hcall => makes_of_svc rfl hdom hcall
  case timeout => exact makes_of_svc_unguarded rfl
  case spi => exact makes_of_when rfl hon
  case lost => exact makes_of_when rfl hon
  case ready => exact makes_of_when rfl hon
  case unknown =>
    intro i h1 h2 h3
    exact makes_of_when (c := fun d => spiOn d && i != 1 && i != 2 && i != 3) rfl
      (by rw [hon, bne_iff_ne.2 h1, bne_iff_ne.2 h2, bne_iff_ne.2 h3]; rfl)

end Sys2Proof.Machine
end

section
/-! PROOF. Pins, the core supply and the TAP (R678, R682, R686 to R692, R699, R700). -/

namespace Sys2Proof.Machine

/-- A bit set in a field leaves a field of a register at another address alone. -/
theorem f_setBit_other (d : Dev) {F G : Fld} {i j : Nat} (b : Nat) (v : Bool) (h : F.reg.addr i ≠ G.reg.addr j) :
    (d.setBit F i b v).f G j = d.f G j := by
  unfold Dev.setBit
  exact Dev.f_setF_other d _ h

/-! ### Pads -/

/-- A pad with no configuration waiting is handed over to its new function (R688, R690). -/
theorem handoverEnd_makes {s : State} {n : Fin 32} (hhb : s.dev.on PX_GCFG_HB n = true) (hheld : s.dev.on PD_DSTAT_HELD 0 = false)
    (hnext : s.dev.hon .padNext n = false) : Makes (.handoverEnd n) s fun d =>
      let e := d.setF PX_GCFG_HB n 0
      (e.setBit PX_GIN_IN 0 n (e.on PX_GCFG_FUNC n && e.hon .padLvl n)).setH .padOld n 0 := by
  refine (makes_of_when (i := .handoverEnd n) (c := fun d => d.on PX_GCFG_HB n && !d.on PD_DSTAT_HELD 0) rfl
    (by rw [hhb, hheld]; rfl)).congr (if_neg ?_)
  have hkept : ((s.dev.setF PX_GCFG_HB n 0).setBit PX_GIN_IN 0 n ((s.dev.setF PX_GCFG_HB n 0).on PX_GCFG_FUNC n
      && (s.dev.setF PX_GCFG_HB n 0).hon .padLvl n)).hon .padNext n = false := hnext
  rw [Dev.hon, Dev.h_setH_other _ _ (.inl (by decide)), ← Dev.hon, hkept]
  decide

/-- A level that differs from the sampled one is an edge (R686). -/
theorem gpioEdge_makes {s : State} {n : Fin 32} {level : Bool} (hdom : domOn s.dev 0 = true) (hbank : padBank s.dev n = true)
    (hfunc : s.dev.on PX_GCFG_FUNC n = true) (hhb : s.dev.on PX_GCFG_HB n = false) (hheld : s.dev.on PD_DSTAT_HELD 0 = false)
    (hlevel : (s.dev.f PX_GIN_IN).testBit n ≠ level) : Makes (.gpioEdge n level) s fun d =>
      let e := (d.setH .padLvl n (b2i level)).setBit PX_GIN_IN 0 n level
      let e := if (d.f PX_GCFG_EDGE n).testBit (if level then 0 else 1) then e.setBit PX_GCAUSE_EDGE 0 n true else e
      e.raise (0x400 + 2 * n.val + (if level then 0 else 1)) := by
  have hpad : ∀ n : Fin 32, PX_GIN_IN.reg.addr 0 ≠ PX_GCFG_EDGE.reg.addr n := by decide
  have hedge : (domOn s.dev 0 && padBank s.dev n && s.dev.on PX_GCFG_FUNC n && !s.dev.on PX_GCFG_HB n
      && !s.dev.on PD_DSTAT_HELD 0
      && (s.dev.f PX_GIN_IN).testBit n != level) = true := by
    rw [hdom, hbank, hfunc, hhb, hheld, bne_iff_ne.2 hlevel]; rfl
  refine makes_of_ok rfl ((if_pos hedge).trans ?_)
  have hsel (e : Dev) : (e.setBit PX_GIN_IN 0 n level).f PX_GCFG_EDGE n = e.f PX_GCFG_EDGE n := f_setBit_other e _ _ (hpad n)
  simp only [hsel, Dev.setH_f]

/-! ### The core supply (R678) -/

/-- The setpoint moves by 1 mV towards the one asked for. -/
theorem vcoreStep_makes {s : State} (up : Bool) (hup : if up then s.dev.h .vcoreOff < vcoreWant s.dev
    else vcoreWant s.dev < s.dev.h .vcoreOff) : Makes .vcoreStep s fun d =>
      let x := d.h .vcoreOff + (if up then 1 else -1)
      vcoreWrite ((d.setH .vcoreOff 0 x).setF PX_VCORE_NOW 0 ((x + 100) / 5)) := by
  have hstep : (if s.dev.h .vcoreOff < vcoreWant s.dev then s.dev.h .vcoreOff + 1 else s.dev.h .vcoreOff - 1)
      = s.dev.h .vcoreOff + (if up then 1 else -1) := by
    cases up
    · exact if_neg (not_lt_of_gt (by simpa using hup))
    · exact if_pos (by simpa using hup)
  have hmoves : (s.dev.h .vcoreOff != vcoreWant s.dev) = true := by
    cases up
    · exact bne_iff_ne.2 (ne_of_gt (by simpa using hup))
    · exact bne_iff_ne.2 (ne_of_lt (by simpa using hup))
  refine (makes_of_when (c := fun d => d.h .vcoreOff != vcoreWant d) rfl hmoves).congr ?_
  dsimp only
  rw [hstep]

/-! ### The TAP (R699, R700) -/

/-- An instruction is loaded, with the pads under test or not (R701). -/
def tapLoad (d : Dev) (c : Nat) (test : Bool) : Dev := (d.setH .tapIr 0 ((c : Int) - 1)).setH .tapTest 0 (b2i test)

/-- What the load of an instruction register does, by its code. -/
def tapUpdate (c : Nat) (d : Dev) : Dev :=
  if c = 0 || c = 4 || c = 5 then
    if tapMay d then tapLoad d c true else (tapLoad d 0xFF false).set1 PX_CAUSE_JTAG_REF
  else if c = 2 then boundarySample (tapLoad d c false)
  else if c = 1 || c = 0x10 then tapLoad d c false
  else tapLoad d 0xFF false

theorem jtagIrUpdate_makes_tapUpdate (s : State) (ir : BitVec 8) : Makes (.jtagIrUpdate ir) s (tapUpdate ir.toNat) := rfl

theorem jtagIrUpdate_makes (s : State) (ir : BitVec 8) :
    let load (x : Int) (t : Int) (d : Dev) : Dev := (d.setH .tapIr 0 x).setH .tapTest 0 t
    (ir = 1 ∨ ir = 16 → Makes (.jtagIrUpdate ir) s (load (ir.toNat - 1) 0))
    ∧ (ir = 2 → Makes (.jtagIrUpdate ir) s fun d => boundarySample (load 1 0 d))
    ∧ (ir = 0 ∨ ir = 4 ∨ ir = 5 →
        (tapMay s.dev = true → Makes (.jtagIrUpdate ir) s (load (ir.toNat - 1) 1))
        ∧ (tapMay s.dev = false → Makes (.jtagIrUpdate ir) s fun d => (load 254 0 d).set1 PX_CAUSE_JTAG_REF))
    ∧ (ir ≠ 0 → ir ≠ 1 → ir ≠ 2 → ir ≠ 4 → ir ≠ 5 → ir ≠ 16 → Makes (.jtagIrUpdate ir) s (load 254 0)) := by
  intro load
  have hmakes := jtagIrUpdate_makes_tapUpdate s
  refine ⟨?plain, ?sample, fun htest => ⟨fun hmay => (hmakes ir).congr ?test, fun hmay => (hmakes ir).congr ?refused⟩,
    fun h0 h1 h2 h4 h5 h16 => (hmakes ir).congr ?bypass⟩
  case plain => rintro (rfl | rfl) <;> exact (hmakes _).congr rfl
  case sample => rintro rfl; exact (hmakes _).congr rfl
  case test =>
    have hcode : (ir.toNat = 0 || ir.toNat = 4 || ir.toNat = 5) = true := by
      rcases htest with rfl | rfl | rfl <;> rfl
    exact (if_pos hcode).trans (if_pos hmay)
  case refused =>
    have hcode : (ir.toNat = 0 || ir.toNat = 4 || ir.toNat = 5) = true := by
      rcases htest with rfl | rfl | rfl <;> rfl
    exact (if_pos hcode).trans (if_neg (by rw [hmay]; decide))
  case bypass =>
    have hne {c : BitVec 8} (h : ir ≠ c) : ir.toNat ≠ c.toNat := fun hc => h (BitVec.eq_of_toNat_eq hc)
    exact (if_neg (by simpa using ⟨⟨hne h0, hne h4⟩, hne h5⟩)).trans ((if_neg (hne h2)).trans
      (if_neg (by simpa using ⟨hne h1, hne h16⟩)))

/-! ### The statement -/

/-- Settles O33: each command's guard is the state of its clause, and its effect is what stands behind the guard. -/
theorem pinsAndTap : Obligations.PinsAndTap := by
  unfold Obligations.PinsAndTap
  intro s n d
  refine ⟨handoverEnd_makes, fun level => gpioEdge_makes, rfl, ?vio, rfl, fun hok => makes_of_when rfl hok, vcoreStep_makes, rfl,
    fun ir => jtagIrUpdate_makes s ir⟩
  simp only [List.forall_mem_cons, List.not_mem_nil, false_imp_iff, implies_true, and_true]
  exact ⟨fun h => makes_of_when rfl h, fun h => makes_of_when rfl h, fun h => makes_of_when rfl h, fun h => makes_of_when rfl h⟩

end Sys2Proof.Machine
end

section
/-! PROOF. Device resets and the start-up (R693 to R698, R239, R442, R662). -/

namespace Sys2Proof.Machine

/-! ### SVC is released -/

/-- The start-up has released SVC (R697). -/
def Released (d : Dev) : Prop := d.h .start 0 = 4 ∧ d.h .svcOn 0 = 1

/-- What changes no internal variable keeps SVC released. -/
theorem Released.of_hid {d e : Dev} (hd : Released d) (heq : e.hid = d.hid) : Released e := by
  obtain ⟨hstart, hsvc⟩ := hd
  unfold Released Dev.h
  rw [heq]
  exact ⟨hstart, hsvc⟩

theorem Released.setH {d : Dev} (hd : Released d) {v : Hid} (i : Nat) (x : Int) (hstart : v ≠ .start) (hsvc : v ≠ .svcOn) :
    Released (d.setH v i x) := by
  obtain ⟨h1, h2⟩ := hd
  exact ⟨(Dev.h_setH_other d x (.inl hstart)).trans h1, (Dev.h_setH_other d x (.inl hsvc)).trans h2⟩

theorem Released.ite {c : Prop} [Decidable c] {d e : Dev} (hd : Released d) (he : Released e) : Released (if c then d else e) := by
  split
  · exact hd
  · exact he

theorem Released.incSat {d : Dev} (hd : Released d) (F : Fld) (i : Nat) : Released (d.incSat F i) :=
  hd.of_hid (Dev.incSat_hid d F i)

theorem Released.setF {d : Dev} (hd : Released d) (F : Fld) (i : Nat) (v : Int) : Released (d.setF F i v) := hd.of_hid rfl
theorem Released.setR {d : Dev} (hd : Released d) (R : Reg) (i : Nat) (w : Word) : Released (d.setR R i w) := hd.of_hid rfl
theorem Released.set1 {d : Dev} (hd : Released d) (F : Fld) (i : Nat) : Released (d.set1 F i) := hd.of_hid rfl

theorem Released.setBit {d : Dev} (hd : Released d) (F : Fld) (i b : Nat) (v : Bool) : Released (d.setBit F i b v) :=
  hd.of_hid rfl

theorem Released.fbPins {d : Dev} (hd : Released d) : Released (fbPins d) := by
  have hpins (crow : Nat) : Released (d.each 4 fun d j =>
      if crowAsserted d j then
        let d := if crow.testBit j then (d.set1 FB_DCAUSE_CROW).incSat LF_FB1_CROW else d
        d.setBit FB_PINS_CROWBAR_N 0 j false
      else d.setBit FB_PINS_CROWBAR_N 0 j true) :=
    Dev.each_keep _ _ hd fun e j he => .ite (.setBit (.ite (.incSat (he.set1 ..) ..) he) ..) (he.setBit ..)
  exact .setF (.setF (.ite (.incSat ((hpins _).set1 ..) ..) (hpins _)) ..) ..

theorem Released.rollStart {d : Dev} (hd : Released d) (m : Nat) (rst : Bool) : Released (rollStart d m rst) := by
  unfold Machine.rollStart
  refine .ite ?_ hd
  cases rst <;> exact hd.of_hid rfl

theorem Released.maskSlot {d : Dev} (hd : Released d) (b : Bool) (slot : Nat) : Released (maskSlot d b slot) := by
  unfold Machine.maskSlot
  refine .ite ?_ (hd.setBit ..)
  refine Dev.each_keep _ _ (hd.setBit ..) fun e j he => ?_
  have hwait := he.setH (j * 16 + slot) 0 (v := .arbWait) (by decide) (by decide)
  exact .ite (.setF (hwait.setF ..) ..) hwait

theorem Released.maskCore {d : Dev} (hd : Released d) (n : Nat) (b : Bool) : Released (maskCore d n b) :=
  Dev.eachIn_keep _ _ hd fun _ _ he => he.maskSlot ..

theorem Released.setOn {d : Dev} (hd : Released d) (n : Nat) (b : Bool) : Released (setOn d n b) :=
  .ite (hd.setBit ..) (hd.setBit ..)

theorem Released.holdUndo {d : Dev} (hd : Released d) (n : Nat) : Released (holdUndo d n) :=
  .ite (.setH (.setF (hd.setBit ..) ..) _ _ (by decide) (by decide)) hd

theorem Released.domReturn {d : Dev} (hd : Released d) (n : Nat) : Released (domReturn d n) :=
  .setH (hd.setF ..) _ _ (by decide) (by decide)

theorem Released.domWake {d : Dev} (hd : Released d) (n : Nat) : Released (domWake d n) := by
  unfold Machine.domWake
  split
  · refine .ite ?abandoned ((hd.setH (v := .pdLate) n 1 (by decide) (by decide)).set1 ..)
    exact .set1 (.incSat (.maskCore (.setOn (.holdUndo (.setF (hd.setF ..) ..) n) ..) ..) ..) ..
  · exact hd.domReturn n
  · exact hd.domReturn n
  · exact hd

theorem Released.wakeAll {d : Dev} (hd : Released d) : Released (wakeAll d) :=
  Dev.each_keep _ _ hd fun _ _ he => .ite (he.domWake _) he

/-- SVC_RELEASE sets both and keeps them (R697). -/
theorem svcRelease_acts {s : State} (hstart : s.dev.hn .start = 3) (refclk : Bool) (vio : BitVec 6) :
    Acts (.svcRelease refclk vio) s fun e => e.hn .start = 4 ∧ e.hon .svcOn = true := by
  have hreleased (e : Dev) (he : Released e) : e.hn .start = 4 ∧ e.hon .svcOn = true := by
    obtain ⟨h1, h2⟩ := he
    exact ⟨by rw [Dev.hn, h1]; rfl, by rw [Dev.hon, h2]; rfl⟩
  refine acts_of_when (c := fun d => d.hn .start == 3) rfl (beq_iff_eq.2 hstart) (hreleased _ ?_)
  have hfirst : Released ((s.dev.setH .start 0 4).setH .svcOn 0 1) :=
    ⟨(Dev.h_setH_other _ _ (.inl (by decide))).trans (Dev.h_setH_same ..), Dev.h_setH_same ..⟩
  refine .fbPins (.wakeAll (Dev.each_keep _ _ (.setF (.setF (Dev.eachIn_keep _ _ ?kept fun e n he => he.setF ..) ..) ..)
    fun e m he => .ite (he.rollStart ..) he))
  have hclock := ((hfirst.setH (v := .wVote) 0 1 (by decide) (by decide)).setH (v := .wdgAt) 0 (s.dev.now + 1 : Nat) (by decide)
    (by decide)).setH (v := .tbWait) 0 1 (by decide) (by decide)
  exact .ite (.setH (.setR (hclock.setR ..) ..) _ _ (by decide) (by decide)) (hclock.setR ..)

/-! ### The fuse load (R404, R409, R683) -/

/-- What the governing charter gives the registers is no fuse, whatever the charter is. -/
theorem charterTaken_shadow (d : Dev) (img : List Nat) (slot valid retired blank : Nat) (none_ bad : Bool) :
    (let d := d.each 64 fun d w => d.setR CH_CHARTER w (BitVec.ofNat 32 (leNat ((img.drop (4 * w)).take 4)))
     let d := (d.setF CH_STATUS_SLOT 0 slot).setF CH_STATUS_DEFAULT 0 (b2i none_)
     let d := (d.setF CH_STATUS_VALID 0 valid).setF CH_STATUS_RETIRED 0 retired
     let d := (d.setF CH_STATUS_BLANK 0 blank).setF CH_STATUS_NPART 0 ((img[5]?).getD 0 : Nat)
     let d := (d.setF CH_SERIAL_SERIAL 0 (leNat ((img.drop 6).take 2))).setF CH_SERIAL_CVER 0 ((img[4]?).getD 0 : Nat)
     if bad then d.set1 CH_CAUSE_SLOT_BAD else d).shadow = d.shadow := by
  have hcopied : (d.each 64 fun d w =>
      d.setR CH_CHARTER w (BitVec.ofNat 32 (leNat ((img.drop (4 * w)).take 4)))).shadow = d.shadow :=
    Dev.each_keep (P := fun e => e.shadow = d.shadow) _ _ rfl fun _ _ he => (Dev.setR_shadow ..).trans he
  simp only [apply_ite Dev.shadow, Dev.set1_shadow, Dev.setF_shadow, ite_self]
  exact hcopied

theorem charterLoad_shadow (s : State) : (charterLoad s).dev.shadow = s.dev.shadow :=
  charterTaken_shadow ..

theorem charterLoad_mem (s : State) : (charterLoad s).mem = s.mem := by
  unfold charterLoad
  rfl

theorem trimsLoad_shadow (d : Dev) : (trimsLoad d).shadow = d.shadow := by
  have hkeys : (d.each 8 fun d i =>
      (d.setF (CH_KEYSTAT_USE i) 0 (keyUse d i)).setF (CH_KEYSTAT_REVOKED i) 0 (b2i (keyRevoked d i))).shadow = d.shadow :=
    Dev.each_keep (P := fun e => e.shadow = d.shadow) _ _ rfl fun _ _ he =>
      (Dev.setF_shadow ..).trans ((Dev.setF_shadow ..).trans he)
  have hbanks := Dev.each_keep (P := fun e => e.shadow = d.shadow)
    (g := fun d b => d.setF ME_BROWS_USED b (boughBits 8 fun i => (shByte d (0x200 + b * 0x10 + 2 * i + 1)).testBit 7)) 16 _ hkeys
    fun _ _ he => (Dev.setF_shadow ..).trans he
  exact (Dev.setR_shadow ..).trans ((Dev.setR_shadow ..).trans ((Dev.setF_shadow ..).trans ((Dev.setF_shadow ..).trans hbanks)))

/-- The straps are sampled, a reserved boot source marked, and the start-up goes on. -/
def strapsTaken (d : Dev) (straps : BitVec 5) : Dev :=
  let boot := straps.toNat / 8
  let d := (d.setF PX_STRAP_ADDR 0 (straps.toNat % 8)).setF PX_STRAP_BOOT 0 boot
  let d := if 2 ≤ boot then d.set1 PX_CAUSE_STRAP_BAD else d
  d.setH .start 0 3

theorem f_strapsTaken (d : Dev) (straps : BitVec 5) {F : Fld} (hF : F.reg = PX_STRAP) :
    (strapsTaken d straps).f F = ((d.setF PX_STRAP_ADDR 0 (straps.toNat % 8)).setF PX_STRAP_BOOT 0 (straps.toNat / 8 : Nat)).f F := by
  have haddr : PX_CAUSE_STRAP_BAD.reg.addr 0 ≠ F.reg.addr 0 := by rw [hF]; decide
  unfold strapsTaken
  dsimp only
  split
  · rw [Dev.setH_f, Dev.f_set1, Dev.f_setF_other _ _ haddr]
  · rw [Dev.setH_f]

theorem strapsTaken_shows (d : Dev) (straps : BitVec 5) : (strapsTaken d straps).hn .start = 3
    ∧ (strapsTaken d straps).shadow = d.shadow ∧ (strapsTaken d straps).f PX_STRAP_ADDR = straps.toNat % 8
    ∧ (strapsTaken d straps).f PX_STRAP_BOOT = straps.toNat / 8 := by
  have hlt := straps.isLt
  refine ⟨?_, ?_, ?_, ?_⟩
  · rw [Dev.hn, strapsTaken, Dev.h_setH_same]; rfl
  · unfold strapsTaken; dsimp only; split <;> rfl
  · rw [f_strapsTaken d straps rfl, Dev.f_setF_beside (F := PX_STRAP_BOOT) (G := PX_STRAP_ADDR) _ _ rfl (by decide) (by decide),
      Dev.f_setF_same _ _ _ _ (by decide)]
    simp only [PX_STRAP_ADDR]; omega
  · rw [f_strapsTaken d straps rfl, Dev.f_setF_same _ _ _ _ (by decide)]
    simp only [PX_STRAP_BOOT]; omega

theorem fuseLoadDone_does {s : State} (hstart : s.dev.hn .start = 2) (straps : BitVec 5) :
    Does (.fuseLoadDone straps) s fun t => t.dev.hn .start = 3 ∧ t.dev.shadow = shadowLoad s
      ∧ t.dev.f PX_STRAP_ADDR = straps.toNat % 8 ∧ t.dev.f PX_STRAP_BOOT = straps.toNat / 8 ∧ t.mem = s.mem := by
  have hloaded (l : List (Nat × Byte)) : (s.onDev fun d => { d with shadow := l }).dev.shadow = l := rfl
  let u := charterLoad (s.onDev fun d => { d with shadow := shadowLoad s })
  obtain ⟨hnow, hshadow, haddr, hboot⟩ := strapsTaken_shows (trimsLoad u.dev) straps
  have hexec : exec (.fuseLoadDone straps) s = .next (u.onDev fun d => strapsTaken (trimsLoad d) straps) := by
    show execFuseLoadDone straps s = _
    unfold execFuseLoadDone
    rw [if_pos hstart]
    rfl
  exact ⟨_, hexec, hnow,
    hshadow.trans ((trimsLoad_shadow _).trans ((charterLoad_shadow _).trans (hloaded _))), haddr, hboot,
    (State.onDev_mem ..).trans ((charterLoad_mem _).trans (State.onDev_mem ..))⟩

/-! ### Resets -/

theorem devReset_running {s : State} (src : Fld) (hstart : s.dev.hn .start ≠ 0) :
    devReset s src = memUnderReset (s.onDev fun d => devUnderReset (aonDrain (d.set1 src))) := by
  have hset : (s.onDev fun d => d.set1 src).dev.hn .start ≠ 0 := hstart
  unfold devReset
  dsimp only
  rw [if_neg hset, State.onDev_onDev]

theorem devReset_leads {s : State} {i : Instr} {src : Fld} (hexec : exec i s = .next (devReset s src)) (hstart : s.dev.hn .start ≠ 0) :
    Leads i s (memUnderReset (s.onDev fun d => devUnderReset (aonDrain (d.set1 src)))) :=
  hexec.trans (congrArg Host.Outcome.next (devReset_running src hstart))

theorem swapShow_hn (s : State) (v : Hid) : (swapShow s).dev.hn v = s.dev.hn v := by
  unfold swapShow State.onDev
  simp only [Dev.setF_hn]

theorem swapShow_mem (s : State) : (swapShow s).mem = s.mem := by
  unfold swapShow State.onDev
  simp only

/-- The reset is released with no command of the flash under way (R694). -/
theorem resetRelease_does {s : State} (hstart : s.dev.hn .start = 1) (hidle : s.dev.f FC_STATUS_STATE = 0) :
    Does .resetRelease s fun t => t.dev.hn .start = 2 ∧ t.mem = s.mem := by
  have hguard : (s.dev.hn .start = 1 && !((s.dev.f FC_STATUS_STATE = 1 || s.dev.f FC_STATUS_STATE = 5) && s.dev.hn .fcOp != 5))
      = true := by rw [hidle, decide_eq_true hstart]; rfl
  have hnone : ¬2 ≤ s.dev.f FC_STATUS_STATE := by omega
  refine ⟨_, if_pos hguard, (swapShow_hn ..).trans ?_, (swapShow_mem _).trans ?_⟩
  · exact congrArg Int.toNat (Dev.h_setH_same ..)
  · rw [if_neg hnone]
    rfl

/-- The watchdog's expiry takes its actions, then what its ACT names (R239). -/
theorem wardenWdogExpire_leads {s : State} (hen : s.dev.on FB_WDG_EN = true) (hkicked : s.dev.hon .wdgAt = true)
    (hstart : s.dev.hn .start = 4) (hdom : domOn s.dev 0 = true) (hquiet : s.dev.f PD_STATE_STATE ≠ 1) :
    let t := s.onDev fun d => devAction (d.setH .wdgAt 0 0) 2
    (s.dev.f FB_WDG_ACT = 0 → Leads .wardenWdogExpire s t)
    ∧ (s.dev.f FB_WDG_ACT = 1 → Leads .wardenWdogExpire s (t.onDev wardenReset))
    ∧ (s.dev.f FB_WDG_ACT = 2 → Leads .wardenWdogExpire s (devReset t PX_RSTSRC_WDOG)) := by
  intro t
  have hdue : (s.dev.on FB_WDG_EN && s.dev.hon .wdgAt && s.dev.hn .start = 4 && domOn s.dev 0 && s.dev.f PD_STATE_STATE ≠ 1)
      = true := by rw [hen, hkicked, hdom, decide_eq_true hstart, decide_eq_true hquiet]; rfl
  refine ⟨fun hact => ?_, fun hact => ?_, fun hact => ?_⟩
  all_goals
    refine (if_pos hdue).trans ?_
    simp only [hact, t]

/-- The end of a brown-out finds the flash controller at work or not (R662, R680). -/
theorem brownOutEnd_makes {s : State} (hbor : s.dev.on PX_STATUS_BOR = true) (hbusy : s.dev.f FC_STATUS_STATE ≠ 0) :
    Makes .brownOutEnd s fun d =>
      ((((d.setF PX_STATUS_BOR 0 0).set1 PX_CAUSE_BOR_END).setF FC_STATUS_BROWN 0 0).setH .lfCut 0 0) := by
  refine (makes_of_when (c := fun d => d.on PX_STATUS_BOR) rfl hbor).congr (if_neg ?_)
  rw [Dev.setH_f, Dev.f_setF_beside (F := FC_STATUS_BROWN) (G := FC_STATUS_STATE) _ _ rfl (by decide) (by decide), Dev.f_set1,
     Dev.f_setF_other _ _ (by decide),
    Dev.f_setF_other _ _ (by decide)]
  exact hbusy

/-! ### The statement -/

/-- Settles O34: each command's guard is the state of its clause, and its effect is what stands behind the guard. -/
theorem resetAndStartup : Obligations.ResetAndStartup := by
  unfold Obligations.ResetAndStartup
  intro s d
  refine ⟨rfl, ?resets, resetRelease_does, fun hstart => ?buck, fun straps hstart => fuseLoadDone_does hstart straps,
    fun refclk vio hstart => svcRelease_acts hstart refclk vio, fun hstart hdom hoff hboot => ?verify, fun hstart hscan => ?scan,
    wardenWdogExpire_leads, fun hpend hdom => ?warden, fun hbor => ?brown, brownOutEnd_makes⟩
  case resets =>
    simp only [List.forall_mem_cons, List.not_mem_nil, false_imp_iff, implies_true, and_true]
    exact ⟨devReset_leads rfl, devReset_leads rfl, devReset_leads rfl⟩
  case buck => exact makes_of_ok rfl (if_pos hstart)
  case verify => exact if_pos (by simpa [d, hstart, hdom, hoff] using hboot)
  case scan => exact if_pos (by rw [decide_eq_true hstart, hscan]; rfl)
  case warden => exact makes_of_when (c := fun d => d.hon .wrst && domOn d 0) rfl (by rw [hpend, hdom]; rfl)
  case brown => exact if_neg (by rw [hbor]; decide)

end Sys2Proof.Machine
end

section
/-! PROOF. Flash commands end, the life log takes a record, and the scrubber visits a word (R644, R655 to R666). -/

namespace Sys2Proof.Machine

/-! ### Programs and copies -/

/-- The pulse of a PROGRAM ends (R656). -/
theorem programPulseDone_leads {s : State} (hstate : s.dev.f FC_STATUS_STATE = 1) (hop : s.dev.hn .fcOp = 1) (ok : Bool) :
    Leads (.programPulseDone ok) s ((if ok then tear s (s.dev.hn .fcBase) (s.dev.hn .fcLines) 0 else s).onDev fun d =>
      let d := if ok then d.set1 FC_CAUSE_DONE else (d.setF FC_CMD_RES 0 2).set1 FC_CAUSE_VERIFY_FAIL
      fcReturn (setBusy d (s.dev.hn .fcBase) false)) := by
  have hguard : ((s.dev.f FC_STATUS_STATE = 1 || s.dev.f FC_STATUS_STATE = 5) && (s.dev.hn .fcOp = 1 || s.dev.hn .fcOp = 6))
      = true := by rw [hstate, hop]; rfl
  have hop6 : ¬s.dev.hn .fcOp = 6 := by omega
  refine (if_pos hguard).trans ?_
  simp only [if_neg hop6]

/-- A copy of the lines that a twin can read: every word goes to FC_BUF, and the memory stays (R659). -/
theorem foldl_rdtwin (s : State) (l : List Nat)
    (hwhole : ∀ w ∈ l, s.mb (tornKey (s.dev.hn .fcBase + 4 * w)) = 0 ∧ s.mb (tornSect (s.dev.hn .fcBase + 4 * w)) = 0)
    (g : Dev → Dev) :
    l.foldl (fun (t : State) w =>
        let a := s.dev.hn .fcBase + 4 * w
        if t.mb (tornKey a) = 0 && t.mb (tornSect a) = 0 then t.onDev fun d => d.setF FC_BUF_BYTES w (t.mget a 4)
        else t.onDev fun d => let (v, d) := d.free; d.setF FC_BUF_BYTES w v) (s.onDev g)
      = s.onDev fun d => (g d).eachIn l fun e w => e.setF FC_BUF_BYTES w (s.mget (s.dev.hn .fcBase + 4 * w) 4) := by
  induction l generalizing g with
  | nil => rfl
  | cons w t ih =>
    obtain ⟨hline, hsect⟩ := hwhole w List.mem_cons_self
    have hstep : ((s.onDev g).mb (tornKey (s.dev.hn .fcBase + 4 * w)) = 0 && (s.onDev g).mb (tornSect (s.dev.hn .fcBase + 4 * w)) = 0)
        = true := by
      rw [decide_eq_true (show (s.onDev g).mb _ = 0 from hline), decide_eq_true (show (s.onDev g).mb _ = 0 from hsect)]; rfl
    rw [List.foldl_cons]
    dsimp only
    rw [if_pos hstep, State.onDev_onDev, ih fun v hv => hwhole v (List.mem_cons_of_mem w hv)]
    rfl

theorem rdtwinDone_makes {s : State} (hstate : s.dev.f FC_STATUS_STATE = 1) (hop : s.dev.hn .fcOp = 5)
    (hwhole : ∀ w, w < 64 →
      s.mb (tornKey (s.dev.hn .fcBase + 4 * w)) = 0 ∧ s.mb (tornSect (s.dev.hn .fcBase + 4 * w)) = 0) :
    Makes .rdtwinDone s fun e => fcReturn
      ((e.each 64 fun e w => e.setF FC_BUF_BYTES w (s.mget (s.dev.hn .fcBase + 4 * w) 4)).set1 FC_CAUSE_DONE) := by
  have hguard : ((s.dev.f FC_STATUS_STATE = 1 || s.dev.f FC_STATUS_STATE = 5) && s.dev.hn .fcOp = 5) = true := by
    rw [hstate, hop]; rfl
  refine (if_pos hguard).trans (congrArg Host.Outcome.next ?_)
  have hcopy := foldl_rdtwin s (List.range 64) (fun w hw => hwhole w (List.mem_range.1 hw)) id
  rw [show s.onDev id = s from rfl] at hcopy
  refine (congrArg (fun t : State => t.onDev fun d => fcReturn (d.set1 FC_CAUSE_DONE)) hcopy).trans ?_
  rw [State.onDev_onDev]
  rfl

/-! ### Erases (R657) -/

/-- Whether the array is busy says nothing of who erases. -/
theorem on_lf_setBusy (d : Dev) (k : Nat) (b : Bool) : (setBusy d k b).on FC_STATUS_LF = d.on FC_STATUS_LF := by
  unfold setBusy Dev.on
  split
  all_goals exact congrArg (· != 0) (Dev.f_setF_beside _ _ rfl (by decide) (by decide))

theorem eraseVerifyDone_guard {s : State} (hstate : s.dev.f FC_STATUS_STATE = 2) (hverify : s.dev.hon .fcVerify = true) :
    (s.dev.f FC_STATUS_STATE = 2 && s.dev.hon .fcVerify) = true := by rw [hstate, hverify]; rfl

/-- A sector of the warden's that reads blank is erased. -/
theorem eraseVerifyDone_blank {s : State} (hstate : s.dev.f FC_STATUS_STATE = 2) (hverify : s.dev.hon .fcVerify = true)
    (hlf : s.dev.on FC_STATUS_LF = false) :
    Leads (.eraseVerifyDone true) s ((eraseKeys s (s.dev.hn .fcErase) 0x10000).onDev fun e =>
      fcIdle (((((setBusy e (s.dev.hn .fcErase) false).setF FC_STATUS_SEG 0 0).incSat LF_ERASE_VALUE
        (eraseCounter (s.dev.hn .fcErase))).set1 FC_CAUSE_DONE).setH .fcVerify 0 0)) := by
  have hkept (d : Dev) (k i : Nat) : (((setBusy d k false).setF FC_STATUS_SEG 0 0).incSat LF_ERASE_VALUE (eraseCounter i)).on FC_STATUS_LF
      = d.on FC_STATUS_LF := by
    have haddr : LF_ERASE_VALUE.reg.addr (eraseCounter i) ≠ FC_STATUS_LF.reg.addr 0 := by
      simp only [eraseCounter, LF_ERASE_VALUE, LF_ERASE, FC_STATUS_LF, FC_STATUS, Reg.addr]; omega
    have hseg : ((setBusy d k false).setF FC_STATUS_SEG 0 0).f FC_STATUS_LF = (setBusy d k false).f FC_STATUS_LF :=
      Dev.f_setF_beside _ _ rfl (by decide) (by decide)
    rw [← on_lf_setBusy d k false, Dev.on, Dev.f_incSat_other _ haddr, hseg, Dev.on]
  refine (if_pos (eraseVerifyDone_guard hstate hverify)).trans ((if_pos rfl).trans ?_)
  refine congrArg (fun e : Dev => Host.Outcome.next { eraseKeys s (s.dev.hn .fcErase) 0x10000 with dev := e }) ?_
  exact congrArg (fun e : Dev => fcIdle ((e.set1 FC_CAUSE_DONE).setH .fcVerify 0 0)) (if_neg (by
    rw [hkept, Bool.not_eq_true]
    exact hlf))

/-! ### The life log (R553, R660, R664) -/

/-- A record that fits is programmed; no erase is suspended for it. -/
theorem logAppend_leads {s : State} {r : LogRec} {ok : Bool} (hfind : s.dev.logq.find? (lfDue s.dev) = some r)
    (hmay : lfMay s.dev = true) (hstate : s.dev.f FC_STATUS_STATE ≠ 2) (hroom : (r.len + 15) / 16 ≤ logRoom s.dev) :
    Leads (.logAppend ok) s (logWrite s r ok) := by
  show execLogAppend ok s = _
  unfold execLogAppend
  rw [hfind]
  simp only [hmay, hstate, hroom, if_true, if_false]

/-! ### The scrubber (R644, R645) -/

theorem scrub_guard {s : State} (hen : s.dev.on ME_SCRUB_EN = true) (hdom : domOn s.dev 0 = true) :
    ¬(!s.dev.on ME_SCRUB_EN || !domOn s.dev 0) = true := by rw [hen, hdom]; decide

/-- A word of the write-back queue is visited first. -/
theorem scrubVisit_queued {s : State} (hen : s.dev.on ME_SCRUB_EN = true) (hdom : domOn s.dev 0 = true) {a b : Nat} {t : List Nat}
    (hq : s.dev.wbq = a :: t) (hbank : sramBank a = some b) (hscrubbed : scrubbed s.dev b = true) :
    Leads .scrubVisit s (scrubWord (s.onDev fun e => { e with wbq := t }) b a) := by
  have hkept : scrubbed (s.onDev fun e => { e with wbq := t }).dev b = true := hscrubbed
  refine (if_neg (scrub_guard hen hdom)).trans ?_
  rw [hq]
  dsimp only
  rw [hbank]
  exact congrArg Host.Outcome.next (if_pos hkept)

/-- With none queued, the word at the scrubber's position in a bank of main SRAM is, where it is not the bank's last. -/
theorem scrubVisit_next {s : State} (hen : s.dev.on ME_SCRUB_EN = true) (hdom : domOn s.dev 0 = true) {b : Nat}
    (hq : s.dev.wbq = []) (hpos : s.dev.f ME_SCRUBPOS_BANK = b) (hbank : scrubBank s.dev b = b) (hlt : b < 16)
    (hlast : s.dev.f ME_SCRUBPOS_ADDR + 1 < 0x40000) :
    let w := s.dev.f ME_SCRUBPOS_ADDR
    Leads .scrubVisit s ((scrubWord s b (0x10000000 + b * 0x100000 + 4 * w)).onDev fun e =>
      (e.setF ME_SCRUBPOS_BANK 0 b).setF ME_SCRUBPOS_ADDR 0 (w + 1 : Nat)) := by
  intro w
  have hmain : ¬b = 16 := by omega
  have hend : ¬b = 17 := by omega
  have hmore : ¬w + 1 = 0x40000 := by omega
  refine (if_neg (scrub_guard hen hdom)).trans ?_
  rw [hq]
  simp only [hpos, hbank, hmain, hend, if_true, if_false, decide_eq_false hmore, Bool.not_false, w]

/-! ### The statement -/

/-- Settles O32: each command's guard is the state of its clause, and its effect is what stands behind the guard. -/
theorem flashAndScrub : Obligations.FlashAndScrub := by
  unfold Obligations.FlashAndScrub
  intro s d
  refine ⟨fun hstate hop => ⟨programPulseDone_leads hstate hop true, programPulseDone_leads hstate hop false⟩, rdtwinDone_makes,
    fun hstate hverify => ?segment, fun hstate hverify => ⟨fun hseg => ?next, fun hseg => ?failed,
      eraseVerifyDone_blank hstate hverify⟩, fun hbrown => makes_of_when rfl hbrown, fun r ok => logAppend_leads,
    fun hen hdom => ⟨fun a t b => scrubVisit_queued hen hdom, fun b => scrubVisit_next hen hdom⟩⟩
  case segment =>
    exact makes_of_when (c := fun d => d.f FC_STATUS_STATE == 2 && !d.hon .fcVerify) rfl
      (by rw [beq_iff_eq.2 hstate, hverify]; rfl)
  case next => exact (if_pos (eraseVerifyDone_guard hstate hverify)).trans (if_neg hseg)
  case failed => exact (if_pos (eraseVerifyDone_guard hstate hverify)).trans (if_pos hseg)

end Sys2Proof.Machine
end

section
/-! PROOF. Power states and domains (R516 to R531), and blocks of a domain that is off (R40, R512). -/

namespace Sys2Proof.Machine

/-! ### Device states (R523 to R531) -/

/-- A command that changes the device where its guard holds changes it so where the guard is known to. -/
theorem makes_of_when_congr {i : Instr} {s : State} {c : Dev → Bool} {g g' : Dev → Dev}
    (hexec : exec i s = s.ok fun d => d.when (c d) g) (hc : c s.dev = true) (hg : g s.dev = g' s.dev) : Makes i s g' :=
  (makes_of_when hexec hc).congr hg

theorem quietWake_makes {s : State} (hquiet : s.dev.f PD_STATE_STATE = 1) (hwake : coreWakes s.dev = true ∨ s.dev.rings ≠ []) :
    Makes .quietWake s fun d => pdArrive d 0 :=
  makes_of_when_congr (c := fun d => coreWakes d || d.rings != []) rfl (by simpa using hwake) (if_pos hquiet)

theorem gladeReturnDone_makes {s : State} (htrans : s.dev.hn .pdTrans = 2)
    (hgroves : ∀ g, g < 16 → wanted s.dev (16 + g) = false ∨ domOn s.dev (16 + g) = true ∧ s.dev.on GV_STATUS_SELFTEST g = false) :
    Makes .gladeReturnDone s fun d => pdArrive (d.each 16 fun d k =>
      let d := d.setF FL_STEER_GLADE k 0
      if (switching d k).isEmpty then unfreeze d k true else d) 0 := by
  refine makes_of_when (c := fun d => d.hn .pdTrans == 2
    && (List.range 16).all fun g => !wanted d (16 + g) || (domOn d (16 + g) && !d.on GV_STATUS_SELFTEST g)) rfl ?_
  simpa [htrans] using hgroves

/-- A wake that PD_WAKE_EN enables brings SVC back (R530, R531). -/
theorem aonWake_makes {s : State} {src : Fin 5} (hclearing : s.dev.hn .pdTrans = 3 ∨ s.dev.hn .pdAllow = 3)
    (hen : (s.dev.r PD_WAKE_EN).getLsbD src = true) (hcond : wakeCond s.dev src = true) :
    Makes (.aonWake src) s fun d =>
      let d := (d.setBit PD_WAKE_SRC_SRC 0 src true).setH .pdAllow 0 0
      let d := ((d.setH .wVote 0 1).setH .pdTrans 0 4).setF PD_STATE_BUSY 0 1
      let d := if domOn d 0 then d else domWake d 0
      if domOn d 0 then pdArrive (wakeAll d) 0 else d := by
  have hguard : ((s.dev.hn .pdTrans == 3 || s.dev.hn .pdAllow == 3) && (s.dev.r PD_WAKE_EN).getLsbD src) = true := by
    rw [hen]; simpa using hclearing
  exact makes_of_when_congr (c := fun d => wakeCond d src) rfl hcond (if_pos hguard)

/-! ### Domains (R518 to R520) -/

section
variable {s : State} {n : Fin 48}

theorem domainEnter_makes (h14 : n.val ≠ 14) (h15 : n.val ≠ 15) (hon : domOn s.dev n = true) (hwanted : wanted s.dev n = false) :
    Makes (.domainEnter n) s fun d => domEnter d n := by
  have hdomain : isDomain n.val = true := by simp [isDomain, h14, h15]
  exact makes_of_when (c := fun d => isDomain n.val && domOn d n && !wanted d n) rfl (by rw [hdomain, hon, hwanted]; rfl)

/-- What a domain does at the points of its entry (R518, R521, R556). -/
def entryStep (d : Dev) (n : Nat) : Dev :=
  match d.f PD_DSTAT_STEP n with
  | 0 =>
    let d := d.setF PD_DSTAT_STEP n 1
    if 5 ≤ n && n ≤ 8 then d.each 4 fun d i => meterHand d (4 * (n - 5) + i) else d
  | 1 =>
    let d := d.setH .pdHeldNow n (b2i (n < 14 && !d.on PD_DSTAT_HELD n))
    setHeld (d.setF PD_DSTAT_STEP n 2) n true
  | 2 => d.setF PD_DSTAT_STEP n 3
  | _ =>
    let d := afterOff (domOff (d.setH .pdHeldNow n 0) n)
    if d.hon .pdLate n then domReturn d n else d

theorem domainEntryStep_makes {g : Dev → Dev} (hstate : domState s.dev n = 2) (hg : entryStep s.dev n = g s.dev) :
    Makes (.domainEntryStep n) s g :=
  makes_of_when_congr (c := fun d => domState d n == 2) (g := fun d => entryStep d n) rfl (beq_iff_eq.2 hstate) hg

theorem domainWake_makes {g : Dev → Dev} (hwanted : wanted s.dev n = true) (hoff : domOn s.dev n = false)
    (hg : domWake s.dev n = g s.dev) : Makes (.domainWake n) s g :=
  makes_of_when_congr (c := fun d => wanted d n && !domOn d n) (g := fun d => domWake d n) rfl (by rw [hwanted, hoff]; rfl) hg

theorem domainReturnDone_leads (hstate : domState s.dev n = 4) :
    Leads (.domainReturnDone n) s ((if 32 ≤ n.val && !s.dev.hon .pdKept n.val then clearValid s (inBank (n.val - 32)) else s).onDev
      fun d => domReturned d n) :=
  if_pos hstate

end

/-! ### SVC off (R40, R512) -/

theorem makes_same_of_svcOff {i : Instr} {s : State} {g : Dev → Dev} (hoff : domOn s.dev 0 = false) (hexec : exec i s = s.svc g) :
    Makes i s fun d => d := by
  rw [Makes, hexec, State.svc, State.ok, State.onDev, State.onDev, if_neg (by rw [hoff]; decide)]

/-- A delivery waits while SVC is off. -/
theorem find?_ports_off {s : State} (hoff : domOn s.dev 0 = false) (n : Nat) :
    (s.dev.ports.find? fun e => e.cons == n && domOn s.dev 0) = none := by
  simp [hoff]

theorem consumerDelivery_off {s : State} (hoff : domOn s.dev 0 = false) (cons : BitVec 12) :
    Makes (.consumerDelivery cons) s fun d => d := by
  show execConsumerDelivery cons s = .next s
  unfold execConsumerDelivery
  rw [find?_ports_off hoff]

theorem elogWrite_off {s : State} (hoff : domOn s.dev 0 = false) (g : Fin 256) : Makes (.elogWrite g) s fun d => d := by
  show execElogWrite g s = .next s
  unfold execElogWrite
  rw [find?_ports_off hoff]

theorem not_and_of_off {s : State} (hoff : domOn s.dev 0 = false) (b : Bool) : ¬(domOn s.dev 0 && b) = true := by
  rw [hoff]; exact Bool.false_ne_true

theorem dmaBurst_off {s : State} (hoff : domOn s.dev 0 = false) : Makes .dmaBurst s fun d => d := by
  show execDmaBurst s = .next s
  unfold execDmaBurst
  cases dmaTurn s.dev with
  | none => rfl
  | some ch => exact congrArg Host.Outcome.next (if_neg (not_and_of_off hoff _))

theorem descriptorFetch_off {s : State} (hoff : domOn s.dev 0 = false) (ch : Fin 32) :
    Makes (.descriptorFetch ch) s fun d => d :=
  if_neg (by simp [hoff])

theorem svcEvents_off {s : State} (hoff : domOn s.dev 0 = false) (k : Rail) (q : Phase) (l : Lane) (ch : Fin 32) (cons : BitVec 12)
    (g : Fin 256) (tm : Fin 16) (pay : BitVec 104) (stamp : BitVec 64) :
    ∀ i ∈ [Instr.ovTrip k, .uvTrip k, .absTrip k, .hocTrip q, .hssDeclare q, .inputOc, .storeOv, .storeOc, .storeOt,
        .seqTimeout k, .seqOnQualify k, .offSeqQualify k, .armingDone k, .armTimeout k, .startAbort k, .ssTimeout k,
        .hiccupExpire k, .pgRise k, .pgFall k, .shutdownComplete k, .stopTimeout k, .storeCommit, .presenceDebounced,
        .storeRemoval, .qualifyDone, .holdupExit, .droopStep, .intent l pay stamp, .cancel l pay, .ffPulseStart k,
        .ffPulseEnd k, .statusSend l, .intentResolve k, .cycleReceive l pay stamp, .helloSend k, .trailEvent,
        .consumerDelivery cons, .elogWrite g, .dmaTrig none ch, .dmaBurst, .descriptorFetch ch, .tokenClaim (.dma ch),
        .fusePulseDone, .verifyDone, .timerMatch tm, .timerOverflow tm], Makes i s fun d => d := by
  have svc {i : Instr} {g : Dev → Dev} (hexec : exec i s = s.svc g) : Makes i s fun d => d := makes_same_of_svcOff hoff hexec
  simp only [List.forall_mem_cons, List.not_mem_nil, false_imp_iff, implies_true, and_true]
  exact ⟨svc rfl, svc rfl, svc rfl, svc rfl, svc rfl, svc rfl, svc rfl, svc rfl, svc rfl,
    svc rfl, svc rfl, svc rfl, svc rfl, svc rfl, svc rfl, svc rfl,
    svc rfl, svc rfl, svc rfl, svc rfl, svc rfl, svc rfl, svc rfl,
    svc rfl, svc rfl, svc rfl, svc rfl, svc rfl, svc rfl, svc rfl,
    svc rfl, svc rfl, svc rfl, svc rfl, svc rfl, makes_same_of_when rfl hoff,
    consumerDelivery_off hoff cons, elogWrite_off hoff g, svc rfl, dmaBurst_off hoff, descriptorFetch_off hoff ch,
    if_pos (by rw [hoff]; rfl), congrArg Host.Outcome.next (if_neg (by rw [hoff]; decide)), if_neg (not_and_of_off hoff _),
    svc rfl, svc rfl⟩

/-! ### The statement -/

/-- Settles O26: each command's guard is the state of its clause, and its effect is what stands behind the guard. -/
theorem powerDomains : Obligations.PowerDomains := by
  unfold Obligations.PowerDomains
  intro s n d
  refine ⟨quietWake_makes, fun htrans hallow hff hlanes => ?glade, gladeReturnDone_makes, fun htrans hallow hflash => ?clearing,
    fun src => aonWake_makes, domainEnter_makes, fun hstate => ⟨fun hstep hn => ?ap1, fun hstep => ?ap2, fun hstep => ?ap3,
      fun hstep => ?off⟩, fun hwanted hoff => ⟨fun hstate => ?wake, fun hstate hstep => ?late⟩,
    fun hstate => ⟨fun hkept => ?kept, fun hbank hlost => ?lost⟩, svcEvents_off⟩
  case glade =>
    exact makes_of_when (c := fun d => d.hn .pdTrans == 1 && d.hn .pdAllow == 0
      && (List.range 16).all (fun k => !d.on FL_STATUS_FF_ACT k) && (List.range 12).all (fun l => d.f LN_STATUS_STATE l == lnOff))
      rfl (by simpa [d, htrans, hallow] using ⟨hff, hlanes⟩)
  case clearing =>
    exact makes_of_when (c := fun d => d.hn .pdTrans == 3 && d.hn .pdAllow == 0 && !d.on FC_STATUS_STATE) rfl
      (by simp [d, htrans, hallow, hflash])
  case ap1 =>
    refine domainEntryStep_makes hstate ?_
    unfold entryStep
    rw [hstep]
    exact if_neg (by simp; omega)
  case ap2 | ap3 | off =>
    refine domainEntryStep_makes hstate ?_
    unfold entryStep
    rw [hstep]
    rfl
  case wake =>
    refine domainWake_makes hwanted hoff ?_
    unfold domWake
    rcases hstate with hstate | hstate <;> rw [hstate] <;> rfl
  case late =>
    refine domainWake_makes hwanted hoff ?_
    unfold domWake
    rw [hstate]
    exact if_neg (Nat.not_lt.2 hstep)
  case kept =>
    have hreturn := domainReturnDone_leads hstate
    have hkeeps : (32 ≤ n.val && !s.dev.hon .pdKept n) = false := by
      rcases hkept with hsmall | hkept
      · rw [decide_eq_false (Nat.not_le.2 hsmall)]; rfl
      · rw [show s.dev.hon .pdKept n = true from hkept]; exact Bool.and_false _
    rw [if_neg (by rw [hkeeps]; decide)] at hreturn
    exact hreturn
  case lost =>
    have hreturn := domainReturnDone_leads hstate
    rw [if_pos (by simp [hbank, show s.dev.hon .pdKept n = false from hlost])] at hreturn
    exact hreturn

end Sys2Proof.Machine
end

section
/-! PROOF. Timers, the real-time clock, meters and the life counters (R536, R539 to R561), with the core watchdog, the sampled
comparators and the device sources (R228, R240, R244). -/

namespace Sys2Proof.Machine

/-! ### An internal variable over a loop -/

theorem h_each {v : Hid} {j : Nat} {g : Dev → Nat → Dev} (n : Nat) (d : Dev) (hg : ∀ e i, (g e i).h v j = e.h v j) :
    (d.each n g).h v j = d.h v j :=
  Dev.each_keep (P := fun e => e.h v j = d.h v j) n d rfl fun e i he => (hg e i).trans he

theorem h_eachIn {α : Type} {v : Hid} {j : Nat} {g : Dev → α → Dev} (l : List α) (d : Dev) (hg : ∀ e a, (g e a).h v j = e.h v j) :
    (d.eachIn l g).h v j = d.h v j :=
  Dev.eachIn_keep (P := fun e => e.h v j = d.h v j) l d rfl fun e a he => (hg e a).trans he

/-! ### The RTC is set (R544, R545, R559) -/

section
variable (d : Dev)

theorem setW64_h (L H : Reg) (i x : Nat) (v : Hid) (j : Nat) : (d.setW64 L H i x).h v j = d.h v j := rfl

theorem setRtc_h (x : Nat) (v : Hid) (j : Nat) : (setRtc d x).h v j = d.h v j := rfl

theorem setH_setReady {v : Hid} (i : Nat) (x : Int) (hv : v ≠ .setReady) : (d.setH v i x).h .setReady = d.h .setReady :=
  Dev.h_setH_other d x (.inl hv)

theorem meterHand_setReady (k : Nat) : (meterHand d k).h .setReady = d.h .setReady := by
  unfold meterHand
  simp only [setW64_h, setH_setReady _ _ _ (show Hid.emFracD ≠ .setReady by decide),
    setH_setReady _ _ _ (show Hid.emFracR ≠ .setReady by decide), setH_setReady _ _ _ (show Hid.emD ≠ .setReady by decide),
    setH_setReady _ _ _ (show Hid.emR ≠ .setReady by decide)]

theorem ring_setReady (j period : Nat) (cut : Bool) : (ring d j period cut).h .setReady = d.h .setReady := by
  unfold ring
  simp only [setH_setReady _ _ _ (show Hid.dieMax ≠ .setReady by decide),
    setH_setReady _ _ _ (show Hid.deadCnt ≠ .setReady by decide), Dev.logPush_h]

theorem closeIntervals_setReady (flags epoch seq stamp rtc : Nat) :
    (closeIntervals d flags epoch seq stamp rtc).h .setReady = d.h .setReady := by
  unfold closeIntervals
  dsimp only
  rw [setH_setReady _ _ _ (by decide), setH_setReady _ _ _ (by decide), setH_setReady _ _ _ (by decide),
    setH_setReady _ _ _ (by decide), Dev.setF_h, Dev.setF_h, h_each _ _ fun e k => setH_setReady e k _ (by decide)]
  refine h_each _ _ fun e k => ?_
  split
  · rw [setH_setReady _ _ _ (by decide), Dev.set1_h]
  · exact setH_setReady _ _ _ (by decide)

end

/-- The causes and the record of a set of the RTC, of a state in which the intervals are closed (R544, R559). -/
def setRecorded (d : Dev) (body : List (Nat × Nat × Nat)) : Dev :=
  (((d.set1 EM_CAUSE_CUT).logPush 2 64 body).set1 TM_ACAUSE_SET).setF TM_RTC_CTL_VALID 0 1 |>.setF TM_RTC_CTL_SETBUSY 0 0

/-- What the set leaves of that state: a set back, and an alarm that it reaches, are shown too, and the RTC runs (R544, R545). -/
def setShown (d : Dev) (body : List (Nat × Nat × Nat)) (back alarm : Bool) : Dev :=
  let d := setRecorded d body
  let d := if back then d.set1 TM_ACAUSE_SETBACK else d
  let d := if alarm then d.set1 TM_ACAUSE_ALARM else d
  almSettle (d.setH .rtcStop 0 0)

section
variable (d : Dev) (body : List (Nat × Nat × Nat)) (back alarm : Bool)

theorem setRecorded_h (v : Hid) : (setRecorded d body).h v = d.h v := by
  unfold setRecorded
  simp only [Dev.setF_h, Dev.set1_h, Dev.logPush_h]

theorem setShown_setReady : (setShown d body back alarm).h .setReady = d.h .setReady := by
  unfold setShown almSettle
  dsimp only
  rw [setH_setReady _ _ _ (by decide), setH_setReady _ _ _ (by decide), apply_ite (fun e : Dev => e.h .setReady), Dev.set1_h,
    ite_self, apply_ite (fun e : Dev => e.h .setReady), Dev.set1_h, ite_self, setRecorded_h]

theorem setShown_rtcStop : (setShown d body back alarm).h .rtcStop = 0 := by
  unfold setShown almSettle
  rw [Dev.h_setH_other _ _ (.inl (by decide)), Dev.h_setH_same]

/-- A bit is shown as it was recorded, but for the causes of a set back and of the alarm. -/
theorem on_setShown {F : Fld} (hback : ∀ e : Dev, (e.set1 TM_ACAUSE_SETBACK).on F = e.on F)
    (halarm : ∀ e : Dev, (e.set1 TM_ACAUSE_ALARM).on F = e.on F) :
    (setShown d body back alarm).on F = (setRecorded d body).on F := by
  unfold setShown almSettle
  dsimp only
  rw [Dev.setH_on, Dev.setH_on, apply_ite (fun e : Dev => e.on F), halarm, ite_self, apply_ite (fun e : Dev => e.on F), hback,
    ite_self]

theorem setShown_set : (setShown d body back alarm).on TM_ACAUSE_SET = true := by
  rw [on_setShown (F := TM_ACAUSE_SET) _ _ _ _ (fun _ => Dev.on_set1_beside _ rfl (by decide) (by decide))
    fun _ => Dev.on_set1_beside _ rfl (by decide) (by decide), setRecorded, Dev.on_setF_other _ _ (by decide),
    Dev.on_setF_other _ _ (by decide)]
  exact Dev.on_set1 _ _ _ (by decide) (by decide)

theorem setShown_valid : (setShown d body back alarm).on TM_RTC_CTL_VALID = true := by
  rw [on_setShown _ _ _ _ (fun e => on_set1_other e (by decide)) fun e => on_set1_other e (by decide), setRecorded,
    Dev.on_setF_beside (F := TM_RTC_CTL_SETBUSY) (G := TM_RTC_CTL_VALID) _ _ rfl (by decide) (by decide), Dev.on,
    Dev.f_setF_same _ _ _ _ (by decide)]
  rfl

theorem setShown_setBusy : (setShown d body back alarm).on TM_RTC_CTL_SETBUSY = false := by
  rw [on_setShown _ _ _ _ (fun e => on_set1_other e (by decide)) fun e => on_set1_other e (by decide), setRecorded]
  exact Dev.on_setF_zero _ _ _ (by decide)

theorem setShown_cut : (setShown d body back alarm).on EM_CAUSE_CUT = true := by
  rw [on_setShown _ _ _ _ (fun e => on_set1_other e (by decide)) fun e => on_set1_other e (by decide), setRecorded,
    Dev.on_setF_other _ _ (by decide), Dev.on_setF_other _ _ (by decide), on_set1_other _ (by decide), Dev.logPush_on]
  exact Dev.on_set1 _ _ _ (by decide) (by decide)

theorem setShown_setBack : (setShown d body true alarm).on TM_ACAUSE_SETBACK = true := by
  unfold setShown almSettle
  dsimp only
  rw [Dev.setH_on, Dev.setH_on, apply_ite (fun e : Dev => e.on TM_ACAUSE_SETBACK),
    Dev.on_set1_beside (F := TM_ACAUSE_ALARM) (G := TM_ACAUSE_SETBACK) _ rfl (by decide) (by decide), ite_self, if_pos rfl]
  exact Dev.on_set1 _ _ _ (by decide) (by decide)

end

/-- What the RTC's set comes to (R544, R545, R559). -/
theorem rtcSet_shows (d : Dev) : ∃ e body, rtcSet d = setShown e body (decide (setValue d < d.rtc)) (almBySet d) ∧ e.h .setReady = 0 := by
  refine ⟨_, _, rfl, ?_⟩
  have hring {c : Prop} [Decidable c] (e : Dev) (j period : Nat) (cut : Bool) :
      (if c then ring e j period cut else e).h .setReady = e.h .setReady := by
    rw [apply_ite (fun e : Dev => e.h .setReady), ring_setReady, ite_self]
  rw [closeIntervals_setReady, setH_setReady _ _ _ (by decide), setH_setReady _ _ _ (by decide), setRtc_h, hring, hring, meterAll,
    h_each _ _ meterHand_setReady, Dev.h_setH_same]

theorem rtcSet_facts (d : Dev) :
    let e := rtcSet d
    e.hon .setReady = false ∧ e.hon .rtcStop = false ∧ e.on TM_ACAUSE_SET = true ∧ e.on TM_RTC_CTL_VALID = true
    ∧ e.on TM_RTC_CTL_SETBUSY = false ∧ e.on EM_CAUSE_CUT = true ∧ (setValue d < d.rtc → e.on TM_ACAUSE_SETBACK = true) := by
  obtain ⟨closed, body, heq, hready⟩ := rtcSet_shows d
  dsimp only
  rw [heq]
  refine ⟨?_, ?_, setShown_set .., setShown_valid .., setShown_setBusy .., setShown_cut .., fun hback => ?_⟩
  · rw [Dev.hon, setShown_setReady, hready]; rfl
  · rw [Dev.hon, setShown_rtcStop]; rfl
  · rw [decide_eq_true hback]; exact setShown_setBack ..

theorem rtcSetApply_makes {s : State} (hready : s.dev.hon .setReady = true) : Makes .rtcSetApply s fun d =>
    if rtcSec d < almSec d ∧ d.on TM_RTC_CTL_ALM_EN = true ∧ almSec d ≤ setValue d / 65536 then aonWake (rtcSet d) 1
    else rtcSet d := by
  refine (makes_of_when (c := fun d => d.hon .setReady) rfl hready).congr ?_
  simp only [almBySet, Bool.and_eq_true, decide_eq_true_eq, and_assoc]

/-! ### Timers (R539 to R541) -/

theorem timerMatch_makes {s : State} {t : Fin 16} (hdom : domOn s.dev 0 = true) {m : Nat} (hrun : s.dev.on TM_TCTL_RUN t = true)
    (hfind : (tmMatches s.dev t).find? (fun m => tmPos0 s.dev t < m || (m == 0 && tmPos0 s.dev t == 0)) = some m) :
    Makes (.timerMatch t) s fun d => ((tmSeat d t m).set1 TM_TCAUSE_MATCH t).raise (0x280 + 2 * t.val) := by
  refine (makes_of_svc (c := fun d => d.on TM_TCTL_RUN t) rfl hdom hrun).congr ?_
  simp only [hfind]

/-! ### The year (R555) -/

theorem yearBoundary_makes {s : State} (hruns : s.dev.hon .rtcStop = false) : Makes .yearBoundary s fun d =>
    let e := setRtc d (max d.rtc (newYear (2001 + d.hn .rtcYear) * 86400 * 65536))
    (ring e 1 (d.hn .rtcYear) false).setH .rtcYear 0 (yearNow e - 2000 : Nat) := by
  refine (makes_of_when (c := fun d => !d.hon .rtcStop) rfl (by rw [hruns]; rfl)).congr ?_
  dsimp only
  rw [show 2000 + s.dev.hn .rtcYear + 1 = 2001 + s.dev.hn .rtcYear by omega, Nat.add_sub_cancel_left]

/-! ### The end of a flush (R551) -/

/-- A flush ends as its programs went. -/
def flushEnded (d : Dev) : Dev :=
  if d.hon .lfErr then ((d.setF LF_STATUS_BUSY 0 0).set1 LF_CAUSE_FLUSH_ERR).setF LF_STATUS_LAST 0 1
  else ((d.setF LF_STATUS_BUSY 0 0).set1 LF_CAUSE_FLUSH_DONE).setF LF_STATUS_LAST 0 0

theorem flushEnded_shows (d : Dev) : (flushEnded d).on LF_STATUS_BUSY = false
    ∧ (flushEnded d).f LF_STATUS_LAST = (if d.hon .lfErr then 1 else 0)
    ∧ (flushEnded d).on (if d.hon .lfErr then LF_CAUSE_FLUSH_ERR else LF_CAUSE_FLUSH_DONE) = true := by
  have hends {F : Fld} (v : Int) (haddr : F.reg.addr 0 ≠ LF_STATUS.addr 0) (h32 : F.lo + F.n ≤ 32) (hn : 0 < F.n) :
      let e := ((d.setF LF_STATUS_BUSY 0 0).set1 F).setF LF_STATUS_LAST 0 v
      e.on LF_STATUS_BUSY = false ∧ e.f LF_STATUS_LAST = (v % (2 ^ 2 : Int)).toNat ∧ e.on F = true := by
    refine ⟨?_, Dev.f_setF_same _ _ _ _ (by decide), ?_⟩
    · rw [Dev.on_setF_beside (F := LF_STATUS_LAST) (G := LF_STATUS_BUSY) _ _ rfl (by decide) (by decide), on_set1_other _ haddr]
      exact Dev.on_setF_zero _ _ _ (by decide)
    · rw [Dev.on_setF_other _ _ haddr.symm]
      exact Dev.on_set1 _ _ _ h32 hn
  unfold flushEnded
  cases d.hon .lfErr
  · exact hends 0 (F := LF_CAUSE_FLUSH_DONE) (by decide) (by decide) (by decide)
  · exact hends 1 (F := LF_CAUSE_FLUSH_ERR) (by decide) (by decide) (by decide)

theorem lifeMirror_lfErr (d : Dev) (n : Nat) : (lifeMirror d n).h .lfErr = d.h .lfErr := by
  unfold lifeMirror
  rw [h_eachIn _ _ fun e x => Dev.h_setH_other e _ (.inl (by decide)), Dev.h_setH_other _ _ (.inl (by decide))]

theorem flushDone_acts {s : State} (hbusy : s.dev.on LF_STATUS_BUSY = true) (hdone : ∀ r ∈ s.dev.logq, r.kind < 5 ∨ 7 < r.kind) :
    Acts .flushDone s fun e => e.on LF_STATUS_BUSY = false ∧ e.f LF_STATUS_LAST = (if s.dev.hon .lfErr then 1 else 0)
      ∧ e.on (if s.dev.hon .lfErr then LF_CAUSE_FLUSH_ERR else LF_CAUSE_FLUSH_DONE) = true := by
  have hnone : (s.dev.logq.any fun r => r.kind == 5 || r.kind == 6 || r.kind == 7) = false := by
    refine List.any_eq_false.2 fun r hr => ?_
    have hkind := hdone r hr
    simp only [Bool.or_eq_true, beq_iff_eq]
    omega
  let e := s.dev.eachIn (mappedPhases s.dev) fun d n => if (descByte d n 0x36).testBit 2 then lifeMirror d n else d
  have herr : e.hon .lfErr = s.dev.hon .lfErr := by
    refine congrArg (· != 0) (h_eachIn _ _ fun d n => ?_)
    rw [apply_ite (fun e : Dev => e.h .lfErr), lifeMirror_lfErr, ite_self]
  have hshows := flushEnded_shows e
  rw [herr] at hshows
  refine acts_of_when (c := fun d => d.on LF_STATUS_BUSY && !d.logq.any fun r => r.kind == 5 || r.kind == 6 || r.kind == 7) rfl
    (by rw [hbusy, hnone]; rfl) ?_
  exact hshows

/-! ### Sampled comparators (R244, R245) -/

/-- Whether a sample lies past the threshold of its comparator. -/
def scPast (d : Dev) (j : Nat) (v : Int) : Bool :=
  if d.on FB_SC_CFG_DIR j then v < d.f FB_SC_TH_TH j * 1600 else d.f FB_SC_TH_TH j * 1600 < v

/-- What a sample does to its comparator (R244). -/
def scSampled (d : Dev) (j : Nat) (v : Int) : Dev :=
  let e := d.setF FB_SC_STAT_OUT j (b2i (scPast d j v))
  if !scPast d j v then e.setH .scRun j 0
  else if e.hn .scRun j + 1 < e.f FB_SC_CFG_N j then e.setH .scRun j (e.h .scRun j + 1)
  else
    let e := fbPins (((scActs (e.setH .scRun j 0) j).setBit FB_SC_CAUSE_TRIP 0 j true).raise (0x208 + j))
    if e.on FB_SC_CFG_WAKE j then aonWake e 0 else e

theorem scSample_makes {s : State} {j : Fin 8} {v : Int} {g : Dev → Dev} (hen : s.dev.on FB_SC_CFG_EN j = true)
    (hg : scSampled s.dev j v = g s.dev) : Makes (.scSample j v) s g :=
  makes_of_when_congr (c := fun d => d.on FB_SC_CFG_EN j) (g := fun d => scSampled d j v) rfl hen hg

theorem scPast_iff (d : Dev) (j : Nat) (v : Int) : scPast d j v = true ↔
    (let th : Int := d.f FB_SC_TH_TH j * 1600
     if d.on FB_SC_CFG_DIR j then v < th else th < v) := by
  unfold scPast
  split <;> simp

/-- The output and the configuration of a comparator are two registers. -/
theorem scAddrs_apart : ∀ j : Fin 8, FB_SC_STAT_OUT.reg.addr j ≠ FB_SC_CFG_N.reg.addr j := by decide

theorem scSampled_within {d : Dev} {j : Nat} {v : Int} (hpast : scPast d j v = false) :
    scSampled d j v = (d.setF FB_SC_STAT_OUT j 0).setH .scRun j 0 := by
  unfold scSampled
  rw [hpast]
  rfl

theorem scSampled_past {d : Dev} {j : Fin 8} {v : Int} (hpast : scPast d j v = true) :
    scSampled d j v =
      (let e := d.setF FB_SC_STAT_OUT j 1
       if d.hn .scRun j + 1 < d.f FB_SC_CFG_N j then e.setH .scRun j (d.h .scRun j + 1)
       else
         let e := scActs (e.setH .scRun j 0) j
         let e := fbPins ((e.setBit FB_SC_CAUSE_TRIP 0 j true).raise (0x208 + j.val))
         if e.on FB_SC_CFG_WAKE j then aonWake e 0 else e) := by
  have hn : (d.setF FB_SC_STAT_OUT j 1).f FB_SC_CFG_N j = d.f FB_SC_CFG_N j := Dev.f_setF_other d 1 (scAddrs_apart j)
  unfold scSampled
  simp only [hpast, Bool.not_true, Bool.false_eq_true, if_false, show b2i true = 1 from rfl, hn, Dev.setF_hn, Dev.setF_h]

/-! ### The statement -/

/-- Settles O27: each command's guard is the state of its clause, and its effect is what stands behind the guard. -/
theorem timeAndLife : Obligations.TimeAndLife := by
  unfold Obligations.TimeAndLife
  intro s t d
  refine ⟨fun hdom m => timerMatch_makes hdom, fun hdom hrun => makes_of_svc rfl hdom hrun, fun hdom hx hrun => ?start,
    fun hdom stamp => makes_of_svc_unguarded rfl hdom, fun hen hlen hruns => ?interval,
    fun hruns => ⟨?day, yearBoundary_makes hruns, fun hen hbelow => ?alarm⟩, rfl, rtcSetApply_makes, rtcSet_facts d, rfl,
    fun hen => makes_of_when rfl hen, flushDone_acts, fun c hen hstart hdom hquiet => ?watchdog,
    fun j v hen => ⟨fun hpast => ?within, fun hpast hcount => ?counts, fun hpast hcount => ?decides⟩, fun hdom src hout => ?falls⟩
  case start =>
    exact (makes_of_svc_unguarded (g := fun d => tmStart d t) rfl hdom).congr
      (if_pos (by rw [show s.dev.on TM_TCTL_XSTART t = true from hx, show s.dev.on TM_TCTL_RUN t = false from hrun]; rfl))
  case interval =>
    exact makes_of_when (c := fun d => d.on EM_CFG_EN && emLenNow d != 0 && !d.hon .rtcStop) rfl
      (by rw [show s.dev.on EM_CFG_EN = true from hen, bne_iff_ne.2 hlen, show s.dev.hon .rtcStop = false from hruns]; rfl)
  case day => exact makes_of_when (c := fun d => !d.hon .rtcStop) rfl (by rw [show s.dev.hon .rtcStop = false from hruns]; rfl)
  case alarm =>
    exact makes_of_when (c := almDue) rfl (by
      rw [almDue, show s.dev.on TM_RTC_CTL_ALM_EN = true from hen, show s.dev.hon .almBelow = true from hbelow,
        show s.dev.hon .rtcStop = false from hruns]; rfl)
  case watchdog =>
    exact makes_of_when (c := fun d => d.on FB_CWDG_EN c && d.hn .start == 4 && domOn d 0 && d.f PD_STATE_STATE != 1) rfl
      (by rw [show s.dev.on FB_CWDG_EN c = true from hen, beq_iff_eq.2 hstart, show domOn s.dev 0 = true from hdom,
        bne_iff_ne.2 hquiet]; rfl)
  case within =>
    exact scSample_makes hen (scSampled_within (Bool.not_eq_true _ ▸ mt (scPast_iff ..).1 hpast))
  case counts => exact scSample_makes hen ((scSampled_past ((scPast_iff ..).2 hpast)).trans (if_pos hcount))
  case decides => exact scSample_makes hen ((scSampled_past ((scPast_iff ..).2 hpast)).trans (if_neg (Nat.not_lt.2 hcount)))
  case falls => exact makes_of_svc (c := fun d => d.hn .devDone src == 2) rfl hdom (beq_iff_eq.2 hout)

end Sys2Proof.Machine
end

section
/-! PROOF. Register writes whose effect reaches beyond the device, and the fields of the words that commands write: the
charter, the trails, the DMA and the rings (R398, R407, R416, R422, R465, R469, R478, R480, R485 to R487, R511). -/

namespace Sys2Proof.Machine

/-! ### What the fields of a written word give -/

theorem valOf_putBits_same (w : Word) {F : Fld} {v : Nat} (h32 : F.lo + F.n ≤ 32) (hv : v < 2 ^ F.n) :
    valOf (putBits w F.lo F.n v) F = v := by
  have hlt : ((v : Nat) : Int) < (2 ^ F.n : Nat) := by exact_mod_cast hv
  rw [valOf, bitsOf_putBits_same _ _ _ _ h32]
  push_cast at hlt
  rw [Int.emod_eq_of_lt (Int.natCast_nonneg _) hlt, Int.toNat_natCast]

theorem valOf_putBits_other (w : Word) {F G : Fld} (v : Int) (hd : F.lo + F.n ≤ G.lo ∨ G.lo + G.n ≤ F.lo)
    (h32 : G.lo + G.n ≤ 32) : valOf (putBits w F.lo F.n v) G = valOf w G :=
  bitsOf_putBits_other _ _ _ _ _ _ hd h32

/-- The field that a command word sets last. -/
theorem valOf_last (w : Word) {F : Fld} {v : Nat} (h32 : F.lo + F.n ≤ 32) (hv : v < 2 ^ F.n) (l : List (Fld × Int)) :
    valOf (withF w (l ++ [(F, (v : Int))])) F = v := by
  rw [withF, List.foldl_append]
  exact valOf_putBits_same _ h32 hv

theorem valOf_onlyF {F : Fld} {v : Nat} (h32 : F.lo + F.n ≤ 32) (hv : v < 2 ^ F.n) : valOf (onlyF F v) F = v :=
  valOf_putBits_same 0 h32 hv

/-! ### A write whose effect reaches beyond the device -/

/-- A command that stores a word to a register changes the state as the register's block does. -/
theorem stores_of_block {i : Instr} {s : State} {who : Initiator} {row : RegRow} {j : Nat} {w : Word} {g : State → State}
    (hreg : Mapped row j ∧ Direct row j) (hexec : exec i s = storeReg s who row.reg j w)
    (hblock : blockWrite s who row.reg j w (newWord s.dev row j w) = g s) : Stores i s who row j w g := by
  intro hacc
  obtain ⟨⟨hr, h4, ha⟩, htrail, hq, hdb⟩ := hreg
  obtain ⟨h1, h2, h3⟩ := not_trailReg htrail
  rw [hexec, storeReg_accepted hacc hr h4 ha h1 h2 h3 hq hdb, hblock]

/-! ### Registers that lie alone in their range -/

theorem Reg.find?_addr {R : Reg} {j : Nat} (hn : R.n2 = 1) (hs : 0 < R.s1) (hj : j < R.n1) : R.find? (R.addr j) = some j := by
  have haddr : R.addr j = R.base + j * R.s1 := by simp [Reg.addr, hn, Nat.mod_one]
  have hdiff : R.base + j * R.s1 - R.base = j * R.s1 := by omega
  have hlow : ¬ R.base + j * R.s1 < R.base := by omega
  simp [Reg.find?, haddr, hlow, hdiff, hn, hs.ne', Nat.mul_div_cancel _ hs, hj]

/-- A register whose range no other register reaches into is what is found at the addresses of its copies. -/
theorem regAt_of_alone {row : RegRow} {j : Nat}
    (halone : regRows.filter (RegRow.meets row.reg.base (row.reg.last + 1)) = [row]) (hn : row.reg.n2 = 1)
    (hs : 0 < row.reg.s1) (hj : j < row.reg.n1) : regAt (row.reg.addr j) = some (row, j) := by
  have hfind := Reg.find?_addr hn hs hj
  obtain ⟨hlo, hhi⟩ := Reg.find?_bounds hfind
  rw [regAt_eq_findRow, findRow_filter regRows hlo (Nat.lt_succ_of_le hhi), halone]
  simp [findRow, hfind]

/-- The copies of a register, found among the rows that reach into a range. -/
theorem mapped_among {lo hi n : Nat} {rows : List RegRow} {row : RegRow} (hrows : regRows.filter (RegRow.meets lo hi) = rows)
    (hfound : ∀ j : Fin n, (lo ≤ row.reg.addr j ∧ row.reg.addr j < hi) ∧ isRegAddr (row.reg.addr j) = true
      ∧ row.reg.addr j % 4 = 0 ∧ findRow rows (row.reg.addr j) = some (row, j.val) ∧ Direct row j) (j : Fin n) :
    Mapped row j ∧ Direct row j := by
  obtain ⟨⟨hlo, hhi⟩, hreg, halign, hfind, hdirect⟩ := hfound j
  refine ⟨⟨hreg, halign, ?_⟩, hdirect⟩
  rw [regAt_eq_findRow, findRow_filter regRows hlo hhi, hrows, hfind]

/-- The registers of channels, timers and banks. -/
def channelRows : List RegRow :=
  [row_DM_CTL, row_DM_FIRST, row_DM_RING, row_DM_STATUS, row_DM_CUR, row_DM_LEFT, row_DM_ERRADDR, row_DM_CAUSE, row_DM_CAUSE_EN]
def timerRows : List RegRow :=
  [row_TM_TCTL, row_TM_TSTAT, row_TM_CNT_LO, row_TM_CNT_HI, row_TM_TOP_LO, row_TM_TOP_HI, row_TM_MAT_LO, row_TM_MAT_HI,
    row_TM_CAP_LO, row_TM_CAP_HI, row_TM_TCAUSE, row_TM_TCAUSE_EN]
def bankRows : List RegRow :=
  [row_ME_BCFG, row_ME_BCNT, row_ME_BERR, row_ME_BCAUSE, row_ME_BCAUSE_EN, row_ME_BROWS, row_ME_REMAP]

/-- Ranges of the register map, each with the registers that reach into it. -/
def rowBlocks : List (Nat × Nat × List RegRow) :=
  [(0x40090090, 0x400900A0, [row_CH_CORETAG]), (0x400C0000, 0x400C0800, channelRows), (0x400E0120, 0x400E0140, [row_CN_SWSET]),
    (0x400F0040, 0x400F0080, [row_PD_VOTEA, row_PD_VOTEB]), (0x40100100, 0x40100500, timerRows),
    (0x40120000, 0x40120F80, bankRows), (0x40130100, 0x40130180, [row_PX_GCFG])]

theorem filter_meets_rowBlocks : ∀ x ∈ rowBlocks, regRows.filter (RegRow.meets x.1 x.2.1) = x.2.2 := by decide +kernel

/-- Registers of one copy. -/
def soleRows : List RegRow :=
  [row_CH_FPROG, row_CH_VCTL, row_CH_REF_TAIL, row_TR_FIRE, row_QM_DB, row_PD_STATE, row_PD_HOLDREL, row_ME_ARB_CTL, row_FC_CMD,
    row_PX_GSET, row_PX_GCLR]

theorem reg_sole : ∀ row ∈ soleRows, Mapped row 0 ∧ Direct row 0 := by decide +kernel

/-- The three registers of a trail. -/
def trailRow : Fin 3 → RegRow
  | 0 => row_TR_SRC
  | 1 => row_TR_DSTA
  | 2 => row_TR_DSTB

theorem trailRow_alone : ∀ reg : Fin 3,
    regRows.filter (RegRow.meets (trailRow reg).reg.base ((trailRow reg).reg.last + 1)) = [trailRow reg] := by decide +kernel

theorem trailRow_shape : ∀ reg : Fin 3, (trailRow reg).reg.n2 = 1 ∧ (trailRow reg).reg.s1 = 4 ∧ (trailRow reg).reg.n1 = 4096
    ∧ (trailRow reg).reg.base = 0x400B0000 + 0x4000 * reg := by decide

theorem mapped_trail (t : Fin 4096) (reg : Fin 3) : Mapped (trailRow reg) t := by
  obtain ⟨hn2, hs1, hn1, hbase⟩ := trailRow_shape reg
  have haddr : (trailRow reg).reg.addr t = 0x400B0000 + 0x4000 * reg + 4 * t := by
    simp [Reg.addr, hn2, hs1, hbase, Nat.mod_one, Nat.mul_comm]
  refine ⟨?_, by omega, regAt_of_alone (trailRow_alone reg) hn2 (by omega) (by omega)⟩
  simp only [isRegAddr, haddr, Bool.or_eq_true, Bool.and_eq_true, decide_eq_true_eq]
  omega

/-! ### The charter -/

theorem reg_fprog : Mapped row_CH_FPROG 0 ∧ Direct row_CH_FPROG 0 := reg_sole _ (by simp [soleRows])
theorem reg_vctl : Mapped row_CH_VCTL 0 ∧ Direct row_CH_VCTL 0 := reg_sole _ (by simp [soleRows])
theorem reg_refTail : Mapped row_CH_REF_TAIL 0 ∧ Direct row_CH_REF_TAIL 0 := reg_sole _ (by simp [soleRows])
theorem reg_coretag : ∀ c : Fin 4, Mapped row_CH_CORETAG c ∧ Direct row_CH_CORETAG c :=
  mapped_among (filter_meets_rowBlocks (0x40090090, 0x400900A0, [row_CH_CORETAG]) (by simp [rowBlocks])) (by decide)

section
variable (s : State) (i : Nat) (w x : Word)

theorem chWrite_refTail : chWrite s CH_REF_TAIL i w x = s.onDev fun d => refTail d (valOf w CH_REF_TAIL_TAIL) := rfl

theorem chWrite_coretag : chWrite s CH_CORETAG i w x =
    s.onDev fun d => if d.on CH_CORETAG_HALTED i then retag d i (valOf w CH_CORETAG_PART) else d.set1 CH_CAUSE_ACC_ERR := rfl

theorem chWrite_fprog : chWrite s CH_FPROG i w x =
    if valOf w CH_FPROG_GO = 0 then s.onDev fun d => d.setR CH_FPROG i x
    else if s.dev.on CH_FPROG_BUSY then s.onDev fun d => d.set1 CH_CAUSE_ACC_ERR
    else fuseGo (s.onDev fun d => d.setR CH_FPROG i x) := rfl

theorem chWrite_vctl : chWrite s CH_VCTL i w x = s.onDev fun d =>
    if valOf w CH_VCTL_GO != 0 && !d.on CH_VCTL_BUSY then verifyGo (d.setR CH_VCTL i x) else d.setR CH_VCTL i x := rfl

end

/-- A fuse operation starts where none runs, and is refused where one does (R416). -/
theorem fuse_stores {i : Instr} {s : State} {who : Initiator} (l : List (Fld × Int))
    (hexec : exec i s = storeReg s who CH_FPROG 0 (withF 0 (l ++ [(CH_FPROG_GO, 1)]))) :
    Stores i s who row_CH_FPROG 0 (withF 0 (l ++ [(CH_FPROG_GO, 1)])) fun s =>
      if s.dev.on CH_FPROG_BUSY then s.onDev fun d => d.set1 CH_CAUSE_ACC_ERR
      else fuseGo (s.onDev fun d => took d row_CH_FPROG 0 (withF 0 (l ++ [(CH_FPROG_GO, 1)]))) := by
  refine stores_of_block reg_fprog hexec ((chWrite_fprog ..).trans (if_neg ?_))
  have hgo : valOf (withF 0 (l ++ [(CH_FPROG_GO, 1)])) CH_FPROG_GO = 1 :=
    valOf_last 0 (v := 1) (by decide) (by decide) l
  rw [hgo]
  decide

theorem verifyGo_writes {s : State} (who : Initiator) (part : Part) (kind : Fin 16) (hfree : s.dev.on CH_VCTL_BUSY = false) :
    let w := withF 0 [(CH_VCTL_PART, part.val), (CH_VCTL_KIND, kind.val), (CH_VCTL_GO, 1)]
    Writes (.verifyGo who part kind) s who row_CH_VCTL 0 w fun d => (took d row_CH_VCTL 0 w).set1 CH_VCTL_BUSY := by
  intro w
  have hgo : valOf w CH_VCTL_GO = 1 := valOf_putBits_same _ (v := 1) (by decide) (by decide)
  refine writes_of_block (b := fun d x =>
    if valOf w CH_VCTL_GO != 0 && !d.on CH_VCTL_BUSY then verifyGo (d.setR CH_VCTL 0 x) else d.setR CH_VCTL 0 x)
    reg_vctl rfl (fun _ => rfl) fun _ => ?_
  exact if_pos (by rw [hgo, hfree]; rfl)

theorem refTailWrite_writes (s : State) (who : Initiator) (tail : Fin 32) :
    Writes (.refTailWrite who tail) s who row_CH_REF_TAIL 0 (onlyF CH_REF_TAIL_TAIL tail.val) fun d => refTail d tail := by
  refine writes_of_block (b := fun d _ => refTail d (valOf _ CH_REF_TAIL_TAIL)) reg_refTail rfl (fun _ => rfl) fun _ => ?_
  rw [valOf_onlyF (by decide) tail.isLt]

theorem coretagWrite_writes (s : State) (who : Initiator) (c : Fin 4) (part : Part) :
    Writes (.coretagWrite who c part) s who row_CH_CORETAG c (onlyF CH_CORETAG_PART part.val) fun d =>
      if d.on CH_CORETAG_HALTED c then retag d c part else d.set1 CH_CAUSE_ACC_ERR := by
  refine writes_of_block (b := fun d _ =>
    if d.on CH_CORETAG_HALTED c then retag d c (valOf _ CH_CORETAG_PART) else d.set1 CH_CAUSE_ACC_ERR)
    (reg_coretag c) rfl (fun _ => rfl) fun _ => ?_
  rw [valOf_onlyF (by decide) part.isLt]

/-! ### Trails -/

theorem reg_trFire : Mapped row_TR_FIRE 0 ∧ Direct row_TR_FIRE 0 := reg_sole _ (by simp [soleRows])

theorem trFire_writes (s : State) (who : Initiator) (t : Fin 4096) :
    Writes (.trFire who t) s who row_TR_FIRE 0 (onlyF TR_FIRE_TRAIL t.val) fun d => trailPass d t 0xFFF d.now := by
  refine writes_of_block (b := fun d _ => trailPass d (valOf _ TR_FIRE_TRAIL) 0xFFF d.now) reg_trFire rfl (fun _ => rfl)
    fun _ => ?_
  rw [valOf_onlyF (by decide) t.isLt]

/-- A store to one of a trail's registers is a write of the trail (R465). -/
theorem regStoreAt_trail {s : State} (who : Initiator) (t : Fin 4096) (a : Nat) (w : Word) (hdom : domOn s.dev 0 = true) :
    ∀ reg : Fin 3, regStoreAt s who (trailRow reg) t a w = trailRegWrite s who t reg w
  | 0 => if_neg (by rw [show regPowered s.dev (trailRow 0).reg t = domOn s.dev 0 from rfl, hdom]; decide)
  | 1 => if_neg (by rw [show regPowered s.dev (trailRow 1).reg t = domOn s.dev 0 from rfl, hdom]; decide)
  | 2 => if_neg (by rw [show regPowered s.dev (trailRow 2).reg t = domOn s.dev 0 from rfl, hdom]; decide)

theorem trSrcWrite_exec {s : State} {who : Initiator} (t : Fin 4096) (data : Word) (hbus : busOpen s.dev who = true)
    (hdom : domOn s.dev 0 = true) (reg : Fin 3) :
    Leads (.trSrcWrite who t reg data) s (keepRes (trailRegWrite s who t reg data)) := by
  have hexec : exec (.trSrcWrite who t reg data) s = storeReg s who (trailRow reg).reg t data := by
    match reg with
    | 0 => rfl
    | 1 => rfl
    | 2 => rfl
  rw [Leads, hexec, storeReg_mapped data (mapped_trail t reg) hbus, regStoreAt_trail who t _ data hdom]

/-! ### DMA -/

theorem reg_dmCtl : ∀ ch : Fin 32, Mapped row_DM_CTL ch ∧ Direct row_DM_CTL ch :=
  mapped_among (filter_meets_rowBlocks (0x400C0000, 0x400C0800, channelRows) (by simp [rowBlocks])) (by decide)

/-- A command bit of DM_CTL is written alone. -/
theorem valOf_dmCtl (d : Dev) (ch : Fin 32) {F G : Fld} (hF : F ∈ row_DM_CTL.fields) (hG : G ∈ row_DM_CTL.fields) :
    valOf (fieldWord d F ch 1) G = if F = G then 1 else 0 := by
  have hrow : FieldsApart row_DM_CTL := by decide
  have hcommand : ∀ H ∈ row_DM_CTL.fields, H.acc = .wo ∧ H.n = 1 := by decide
  split
  case isTrue hFG =>
    rw [← hFG, valOf_fieldWord_same d 1 hrow hF, (hcommand F hF).2]; rfl
  case isFalse hFG => exact valOf_fieldWord_command d 1 hrow (reg_dmCtl ch).1 hF hG hFG (hcommand G hG).1

/-- What the DMA does with a command bit of DM_CTL (R478, R480). -/
def dmCommand (F : Fld) (s : State) (ch : Nat) : State :=
  if F = DM_CTL_STOP then dmaStop s ch
  else if F = DM_CTL_CLR then if 5 ≤ s.dev.f DM_STATUS_STATE ch then dmaClr s ch else s.onDev fun d => d.setF DM_STATUS_TPEND ch 0
  else if F = DM_CTL_START then if s.dev.f DM_STATUS_STATE ch = 0 then dmaStart s ch else s
  else s.onDev fun d => dmaTrig d ch

/-- What the DMA does with the bits of one write of DM_CTL. -/
def dmBits (s : State) (i : Nat) (start stop clr trig : Bool) : State :=
  let st := s.dev.f DM_STATUS_STATE i
  let s := if stop then dmaStop s i else s
  let s := if !clr then s else if 5 ≤ st then dmaClr s i else s.onDev fun d => d.setF DM_STATUS_TPEND i 0
  let s := if start && st = 0 then dmaStart s i else s
  if trig && !(st = 2 && stop) then s.onDev fun d => dmaTrig d i else s

theorem dmWrite_ctl (s : State) (i : Nat) (w x : Word) : dmWrite s DM_CTL i w x =
    dmBits s i (valOf w DM_CTL_START != 0) (valOf w DM_CTL_STOP != 0) (valOf w DM_CTL_CLR != 0) (valOf w DM_CTL_TRIG != 0) := rfl

/-- A command that writes a bit of DM_CTL alone does what the bit commands. -/
theorem dmCtl_stores {i : Instr} {s : State} {who : Initiator} {ch : Fin 32} {F : Fld} (hF : F ∈ row_DM_CTL.fields)
    (hexec : exec i s = storeReg s who DM_CTL ch (fieldWord s.dev F ch 1)) :
    Stores i s who row_DM_CTL ch (fieldWord s.dev F ch 1) fun s => dmCommand F s ch := by
  refine stores_of_block (reg_dmCtl ch) hexec ((dmWrite_ctl s ch _ (newWord s.dev row_DM_CTL ch (fieldWord s.dev F ch 1))).trans ?_)
  rw [valOf_dmCtl _ _ hF (by decide), valOf_dmCtl _ _ hF (by decide), valOf_dmCtl _ _ hF (by decide),
    valOf_dmCtl _ _ hF (by decide)]
  have hcases : F = DM_CTL_START ∨ F = DM_CTL_STOP ∨ F = DM_CTL_CLR ∨ F = DM_CTL_TRIG := by simpa [row_DM_CTL] using hF
  rcases hcases with rfl | rfl | rfl | rfl
  · show _ = if s.dev.f DM_STATUS_STATE ch = 0 then dmaStart s ch else s
    exact if_congr (by simp) rfl rfl
  · rfl
  · rfl
  · show _ = s.onDev fun d => dmaTrig d ch
    exact if_pos (by simp [show DM_CTL_TRIG ≠ DM_CTL_STOP by decide])

/-- A start of a channel that is not idle does nothing. -/
theorem dmaStart_of_idle_not {s : State} {ch : Nat} (h : s.dev.f DM_STATUS_STATE ch ≠ 0) : dmaStart s ch = s := if_pos h

theorem dmCommand_start (s : State) (ch : Nat) : dmCommand DM_CTL_START s ch = dmaStart s ch :=
  ite_eq_left_iff.2 fun h => (dmaStart_of_idle_not h).symm

theorem dmCommand_clr (s : State) (ch : Nat) :
    dmCommand DM_CTL_CLR s ch =
      (let t := s.onDev fun d => d.setF DM_STATUS_TPEND ch 0
       if 5 ≤ s.dev.f DM_STATUS_STATE ch then (dmaElemDone t ch).onDev fun d => d.setF DM_STATUS_STATE ch 0 else t) := by
  have hstate : (s.onDev fun d => d.setF DM_STATUS_TPEND ch 0).dev.f DM_STATUS_STATE ch = s.dev.f DM_STATUS_STATE ch :=
    Dev.f_setF_beside _ _ rfl (by decide) (by decide)
  have hclr : dmCommand DM_CTL_CLR s ch =
      if 5 ≤ s.dev.f DM_STATUS_STATE ch then dmaClr s ch else s.onDev fun d => d.setF DM_STATUS_TPEND ch 0 := rfl
  rw [hclr, dmaClr, hstate]
  split <;> rfl

/-! ### Rings -/

theorem reg_qmDb : Mapped row_QM_DB 0 ∧ Direct row_QM_DB 0 := reg_sole _ (by simp [soleRows])

/-- The word of a doorbell: ring, operation and count. -/
def doorbellWord (r : BitVec 16) (op : Nat) (n : BitVec 12) : Word :=
  withF 0 [(QM_DB_RING, r.toNat), (QM_DB_OP, op), (QM_DB_COUNT, n.toNat)]

theorem valOf_doorbellWord (r : BitVec 16) {op : Nat} (n : BitVec 12) (hop : op < 4) :
    valOf (doorbellWord r op n) QM_DB_RING = r.toNat ∧ valOf (doorbellWord r op n) QM_DB_OP = op
      ∧ valOf (doorbellWord r op n) QM_DB_COUNT = n.toNat := by
  have hcount (w : Word) {G : Fld} (hd : G.lo + G.n ≤ 20) : valOf (putBits w 20 12 n.toNat) G = valOf w G :=
    valOf_putBits_other (F := QM_DB_COUNT) w _ (.inr hd) (by omega)
  have hop' (w : Word) : valOf (putBits w 16 2 op) QM_DB_RING = valOf w QM_DB_RING :=
    valOf_putBits_other (F := QM_DB_OP) w _ (by decide) (by decide)
  refine ⟨(hcount _ (by decide)).trans ((hop' _).trans ?_), (hcount _ (by decide)).trans ?_, ?_⟩
  · exact valOf_putBits_same (F := QM_DB_RING) _ (by decide) r.isLt
  · exact valOf_putBits_same (F := QM_DB_OP) _ (by decide) hop
  · exact valOf_putBits_same (F := QM_DB_COUNT) _ (by decide) n.isLt

theorem blockWrite_db (s : State) (who : Initiator) (w x : Word) : blockWrite s who QM_DB 0 w x =
    doorbell s (valOf w QM_DB_RING) (valOf w QM_DB_OP) (valOf w QM_DB_COUNT) := by
  have hrow : QM_DB.base / 0x10000 - 0x4000 = 13 := by decide
  rw [blockWrite, if_neg (by decide), hrow]
  exact if_pos rfl

/-- A doorbell does its operation on its ring (R487). -/
theorem doorbell_stores {i : Instr} {s : State} {who : Initiator} (r : BitVec 16) {op : Nat} (n : BitVec 12) (hop : op < 4)
    (hexec : exec i s = storeReg s who QM_DB 0 (doorbellWord r op n)) :
    Stores i s who row_QM_DB 0 (doorbellWord r op n) fun s => doorbell s r.toNat op n.toNat := by
  obtain ⟨hring, hopv, hcount⟩ := valOf_doorbellWord r n hop
  refine stores_of_block reg_qmDb hexec ((blockWrite_db ..).trans ?_)
  rw [hring, hopv, hcount]

section
variable (s : State) (r n : Nat)

theorem doorbell_produce : doorbell s r 0 n =
    if rFill s r + n ≤ rSize s r then ringEvent (setCtx s r 2 (rHead s r + n)) r else ctxCount s r false n := by
  unfold doorbell
  split
  · rfl
  · next h => exact absurd h (by decide)
  · next h _ => exact absurd rfl h

theorem doorbell_consume : doorbell s r 1 n =
    if n ≤ rFill s r then qSettle (setCtx (setCtx s r 3 (rTail s r + n)) r 4 (rNext s r + n)) else ctxCount s r false n := by
  unfold doorbell
  generalize 2 ^ 24 = armed
  rfl

theorem doorbell_arm : doorbell s r 2 n = setCtx s r 1 (ctx s r 1 ||| 2 ^ 24) := by
  unfold doorbell
  generalize 2 ^ 24 = armed
  rfl

end

theorem produce_stores (s : State) (who : Initiator) (r : BitVec 16) (n : BitVec 12) :
    Stores (.produce who r n) s who row_QM_DB 0 (doorbellWord r 0 n) fun s =>
      if rFill s r.toNat + n.toNat ≤ rSize s r.toNat then ringEvent (setCtx s r.toNat 2 (rHead s r.toNat + n.toNat)) r.toNat
      else ctxCount s r.toNat false n.toNat := by
  simpa only [doorbell_produce] using
    doorbell_stores (i := .produce who r n) r n (op := 0) (by decide) rfl

theorem consume_stores (s : State) (who : Initiator) (r : BitVec 16) (n : BitVec 12) :
    Stores (.consume who r n) s who row_QM_DB 0 (doorbellWord r 1 n) fun s =>
      if n.toNat ≤ rFill s r.toNat then
        qSettle (setCtx (setCtx s r.toNat 3 (rTail s r.toNat + n.toNat)) r.toNat 4 (rNext s r.toNat + n.toNat))
      else ctxCount s r.toNat false n.toNat := by
  simpa only [doorbell_consume] using
    doorbell_stores (i := .consume who r n) r n (op := 1) (by decide) rfl

theorem arm_stores (s : State) (who : Initiator) (r : BitVec 16) :
    Stores (.arm who r) s who row_QM_DB 0 (doorbellWord r 2 0) fun s => setCtx s r.toNat 1 (ctx s r.toNat 1 ||| 2 ^ 24) := by
  simpa only [doorbell_arm] using
    doorbell_stores (i := .arm who r) r 0 (op := 2) (by decide) rfl

theorem ctxKey_range (r : BitVec 16) (word : Fin 8) :
    isRingCtx (ctxKey r.toNat word) = true ∧ sramBank (ctxKey r.toNat word) = none
      ∧ (isGvInst (ctxKey r.toNat word) || isGvData (ctxKey r.toNat word)) = false := by
  have hr := r.isLt
  have hkey : ctxKey r.toNat word = 0x30000000 + r.toNat * 0x20 + 4 * word := rfl
  refine ⟨by simp [isRingCtx]; omega, ?_, by simp [isGvInst, isGvData]; omega⟩
  rw [sramBank, if_neg (by simp; omega), if_neg (by simp; omega)]

/-- A store to a ring's context is a write of its word, by an initiator of the ring's owner (R485, R486). -/
theorem busStore_ctx {s : State} {who : Initiator} (r : BitVec 16) (word : Fin 8) (v : Nat) (hbus : busOpen s.dev who = true) :
    busStore s who (ctxKey r.toNat word) 4 v =
      if passes (tagOf s.dev who) (ringOwner s.dev r.toNat) then (.ok 0, ctxWrite s r.toNat word v)
      else denied s who (kindFor who 5) (ringOwner s.dev r.toNat) true (ctxKey r.toNat word) := by
  obtain ⟨hctx, hbank, hgv⟩ := ctxKey_range r word
  have hkey : ctxKey r.toNat word = 0x30000000 + r.toNat * 0x20 + 4 * word := rfl
  have halign : ctxKey r.toNat word % 4 = 0 := by omega
  have hring : (ctxKey r.toNat word - 0x30000000) / 32 = r.toNat := by omega
  have hword : ctxKey r.toNat word % 32 / 4 = word := by omega
  simp [busStore, hbus, halign, hbank, hgv, hctx, hring, hword]

/-! ### Software causes -/

theorem reg_swset : ∀ p : Part, Mapped row_CN_SWSET p ∧ Direct row_CN_SWSET p :=
  mapped_among (filter_meets_rowBlocks (0x400E0120, 0x400E0140, [row_CN_SWSET]) (by simp [rowBlocks])) (by decide)

theorem swCauseSet_writes (s : State) (who : Initiator) (p : Part) (data : Word) :
    Writes (.swCauseSet who p data) s who row_CN_SWSET p data fun d => swSet d p data :=
  writes_of_block (b := fun d _ => swSet d p data) (reg_swset p) rfl (fun _ => rfl) fun _ => rfl

/-- One more bit of a word. -/
theorem bitsOf_succ (w : Word) (n : Nat) : bitsOf w 0 (n + 1) = bitsOf w 0 n ||| (if w.getLsbD n then 2 ^ n else 0) := by
  refine Nat.eq_of_testBit_eq fun i => ?_
  rw [Nat.testBit_or, testBit_bitsOf, testBit_bitsOf]
  rcases Nat.lt_trichotomy i n with h | h | h
  · split <;> simp [h, h.ne', Nat.lt_succ_of_lt h]
  · subst h; split <;> simp [*]
  · have hn : ¬ i < n + 1 := by omega
    split <;> simp [h.ne, hn, h.le]

theorem f_setBit_same (d : Dev) {F : Fld} (i : Nat) {b : Nat} (h32 : F.lo + F.n ≤ 32) (hb : b < F.n) :
    (d.setBit F i b true).f F i = d.f F i ||| 2 ^ b := by
  have hlt : d.f F i ||| 2 ^ b < 2 ^ F.n := Nat.or_lt_two_pow (bitsOf_lt ..) (Nat.pow_lt_pow_right (by decide) hb)
  have hlt' : ((d.f F i ||| 2 ^ b : Nat) : Int) < (2 ^ F.n : Nat) := by exact_mod_cast hlt
  refine (Dev.f_setF_same d F i _ h32).trans ?_
  push_cast at hlt' ⊢
  rw [if_pos rfl, Int.emod_eq_of_lt (Int.natCast_nonneg _) hlt', Int.toNat_natCast]

/-- The software causes take the bits of the word that are set, here of its low n bits. -/
theorem f_swCauses (d : Dev) (p : Nat) (data : Word) (n : Nat) (hn : n ≤ 16) :
    (d.each n fun d b => d.when (data.getLsbD b) fun d => d.setBit CN_SWCAUSE_SW p b true).f CN_SWCAUSE_SW p
      = d.f CN_SWCAUSE_SW p ||| bitsOf data 0 n := by
  induction n with
  | zero => simp [Dev.each, bitsOf, Nat.mod_one]
  | succ n ih =>
    have ih := ih (by omega)
    rw [Dev.each, List.range_succ, List.foldl_append, ← Dev.each, bitsOf_succ, ← Nat.or_assoc, ← ih]
    generalize d.each n _ = e
    rw [List.foldl_cons, List.foldl_nil, Dev.when]
    cases hbit : data.getLsbD n with
    | true => exact f_setBit_same (F := CN_SWCAUSE_SW) e p (by decide) (Nat.lt_of_succ_le hn)
    | false => simp

/-! ### The statement -/

/-- Settles O28: each command is the store of its word, and the register's block does what the clause says with it. -/
theorem charterTrailAndRingWrites : Obligations.CharterTrailAndRingWrites := by
  unfold Obligations.CharterTrailAndRingWrites
  intro s who
  refine ⟨fun slot key => ⟨fuse_stores _ rfl, fuse_stores _ rfl, fuse_stores _ rfl, fuse_stores _ rfl⟩,
    fun part kind hfree => verifyGo_writes who part kind hfree, refTailWrite_writes s who, coretagWrite_writes s who,
    trFire_writes s who, fun t reg data hbus hdom => ?trails, fun ch => ⟨?start, ?stop, ?clr, ?trig⟩,
    fun r n => ⟨produce_stores s who r n, consume_stores s who r n, arm_stores s who r⟩,
    fun r word data hbus => ⟨fun hpass => ?owner, fun hpass => ?other⟩, swCauseSet_writes s who,
    fun d p data => f_swCauses d p data 16 le_rfl⟩
  case trails =>
    have hexec := trSrcWrite_exec t data hbus hdom reg
    refine ⟨fun hcheck => ?_, fun hcheck => ?_, fun hcheck => ?_⟩
    · rw [trailRegWrite, hcheck] at hexec; exact hexec
    · rw [trailRegWrite, hcheck] at hexec; exact hexec
    · rw [trailRegWrite, hcheck] at hexec; exact hexec
  case start => simpa only [dmCommand_start] using dmCtl_stores (F := DM_CTL_START) (by decide) rfl
  case stop => exact dmCtl_stores (F := DM_CTL_STOP) (by decide) rfl
  case clr => simpa only [dmCommand_clr] using dmCtl_stores (F := DM_CTL_CLR) (by decide) rfl
  case trig => exact dmCtl_stores (F := DM_CTL_TRIG) (by decide) rfl
  case owner =>
    have hexec : exec (.ringContextWrite who r word data) s
        = .next (keepRes (busStore s who (ctxKey r.toNat word) 4 data.toNat)) := rfl
    rw [Leads, hexec, busStore_ctx r word _ hbus, if_pos hpass]
  case other =>
    have hexec : exec (.ringContextWrite who r word data) s
        = .next (keepRes (busStore s who (ctxKey r.toNat word) 4 data.toNat)) := rfl
    rw [Leads, hexec, busStore_ctx r word _ hbus, if_neg (by rw [hpass]; decide)]

end Sys2Proof.Machine
end

section
/-! PROOF. Register writes that act on power, time, memory, flash and pins (R503, R516, R521, R524, R539, R647, R648, R656,
R685, R692). -/

namespace Sys2Proof.Machine

/-! ### Power -/

theorem reg_pdState : Mapped row_PD_STATE 0 ∧ Direct row_PD_STATE 0 := reg_sole _ (by simp [soleRows])
theorem reg_holdrel : Mapped row_PD_HOLDREL 0 ∧ Direct row_PD_HOLDREL 0 := reg_sole _ (by simp [soleRows])
theorem filter_meets_votes : regRows.filter (RegRow.meets 0x400F0040 0x400F0080) = [row_PD_VOTEA, row_PD_VOTEB] :=
  filter_meets_rowBlocks (_, _, _) (by simp [rowBlocks])

theorem reg_voteA : ∀ p : Part, Mapped row_PD_VOTEA p ∧ Direct row_PD_VOTEA p := mapped_among filter_meets_votes (by decide)
theorem reg_voteB : ∀ p : Part, Mapped row_PD_VOTEB p ∧ Direct row_PD_VOTEB p := mapped_among filter_meets_votes (by decide)

theorem pdWrite_state (s : State) (i : Nat) (w x : Word) : pdWrite s PD_STATE i w x =
    if valOf w PD_STATE_GO != 0 then
      qSettle ((s.onDev fun d => d.setR PD_STATE i x).onDev fun d => (pdRequest d (valOf w PD_STATE_REQ)).2)
    else s.onDev fun d => d.setR PD_STATE i x := rfl

/-- The word of a request of a power state. -/
def pdWord (q : Nat) : Word := withF 0 [(PD_STATE_REQ, q), (PD_STATE_GO, 1)]

theorem valOf_pdWord {q : Nat} (hq : q < 4) : valOf (pdWord q) PD_STATE_GO = 1 ∧ valOf (pdWord q) PD_STATE_REQ = q :=
  ⟨valOf_putBits_same (F := PD_STATE_GO) _ (v := 1) (by decide) (by decide),
    (valOf_putBits_other (F := PD_STATE_GO) _ _ (by decide) (by decide)).trans
      (valOf_putBits_same (F := PD_STATE_REQ) _ (by decide) hq)⟩

/-- A power state is requested (R524). -/
theorem pdRequest_stores {i : Instr} {s : State} {who : Initiator} {q : Nat} (hq : q < 4)
    (hexec : exec i s = storeReg s who PD_STATE 0 (pdWord q)) :
    Stores i s who row_PD_STATE 0 (pdWord q) fun s =>
      qSettle (s.onDev fun d => (pdRequest (took d row_PD_STATE 0 (pdWord q)) q).2) := by
  obtain ⟨hgo, hreq⟩ := valOf_pdWord hq
  refine stores_of_block reg_pdState hexec
    ((pdWrite_state s 0 _ (newWord s.dev row_PD_STATE 0 (pdWord q))).trans ((if_pos ?_).trans ?_))
  · rw [hgo]; rfl
  · rw [hreq, State.onDev_onDev]; rfl

theorem pdWrite_voteA (s : State) (i : Nat) (w x : Word) :
    pdWrite s PD_VOTEA i w x = s.onDev fun d => d.setR PD_VOTEA i (x &&& 0xFFFF3FFF) := rfl

theorem pdWrite_voteB (s : State) (i : Nat) (w x : Word) :
    pdWrite s PD_VOTEB i w x = s.onDev fun d => d.setR PD_VOTEB i (x &&& 0x7FFF) := rfl

/-! ### Timers -/

theorem filter_meets_timers : regRows.filter (RegRow.meets 0x40100100 0x40100500) = timerRows :=
  filter_meets_rowBlocks (0x40100100, 0x40100500, timerRows) (by simp [rowBlocks])

theorem reg_cntHi : ∀ t : Fin 16, Mapped row_TM_CNT_HI t ∧ Direct row_TM_CNT_HI t := mapped_among filter_meets_timers (by decide)
theorem reg_topHi : ∀ t : Fin 16, Mapped row_TM_TOP_HI t ∧ Direct row_TM_TOP_HI t := mapped_among filter_meets_timers (by decide)
theorem reg_matHi : ∀ t : Fin 16, Mapped row_TM_MAT_HI t ∧ Direct row_TM_MAT_HI t := mapped_among filter_meets_timers (by decide)

theorem tmWrite_cntHi (d : Dev) (i : Nat) (w x : Word) : tmWrite d TM_CNT_HI i w x = tmHiWrite d i 0 w := rfl
theorem tmWrite_topHi (d : Dev) (i : Nat) (w x : Word) : tmWrite d TM_TOP_HI i w x = tmHiWrite d i 1 w := rfl
theorem tmWrite_matHi (d : Dev) (i : Nat) (w x : Word) : tmWrite d TM_MAT_HI i w x = tmHiWrite d i 2 w := rfl

section
variable (d : Dev) (t : Nat) (w : Word)

theorem tmHiWrite_cnt : tmHiWrite d t 0 w =
    (let x := d.hn .tmHold (3 * t + 0) % 2 ^ 32 + 2 ^ 32 * w.toNat
     let e := d.setW64 TM_CNT_LO TM_CNT_HI t x
     ((e.setH .tmAt t e.now).setH .tmDown t 0).setH .tmBase t x) := by
  simp only [tmHiWrite, if_true]

theorem tmHiWrite_top : tmHiWrite d t 1 w =
    (let x := d.hn .tmHold (3 * t + 1) % 2 ^ 32 + 2 ^ 32 * w.toNat
     if x = 0 then d.set1 TM_TCAUSE_ACC_ERR t
     else
       let d := d.setW64 TM_TOP_LO TM_TOP_HI t x
       if d.on TM_TCTL_RUN t then d else tmLoad d t) := by
  simp only [tmHiWrite, Nat.one_ne_zero, if_true, if_false]

theorem tmHiWrite_mat : tmHiWrite d t 2 w =
    (let x := d.hn .tmHold (3 * t + 2) % 2 ^ 32 + 2 ^ 32 * w.toNat
     let d := d.setW64 TM_MAT_LO TM_MAT_HI t x
     if d.on TM_TCTL_RUN t then d else tmLoad d t) := by
  simp only [tmHiWrite, OfNat.ofNat_ne_zero, OfNat.ofNat_ne_one, if_false]

end

/-! ### The remap table and the banks -/

theorem filter_meets_bank : regRows.filter (RegRow.meets 0x40120000 0x40120F80) = bankRows :=
  filter_meets_rowBlocks (0x40120000, 0x40120F80, bankRows) (by simp [rowBlocks])

theorem findRow_remap : ∀ b i : Fin 16,
    findRow bankRows (ME_REMAP.addr (b.val * 16 + i.val)) = some (row_ME_REMAP, b.val * 16 + i.val) := by decide +kernel

theorem reg_remap (b i : Fin 16) :
    Mapped row_ME_REMAP (b.val * 16 + i.val) ∧ Direct row_ME_REMAP (b.val * 16 + i.val) := by
  have haddr : row_ME_REMAP.reg.addr (b.val * 16 + i.val) = 0x40120040 + b.val * 0x100 + i.val * 4 := by
    simp only [Reg.addr, row_ME_REMAP, ME_REMAP]
    omega
  have hmap : regAt (row_ME_REMAP.reg.addr (b.val * 16 + i.val)) = some (row_ME_REMAP, b.val * 16 + i.val) := by
    rw [regAt_eq_findRow, findRow_filter regRows (lo := 0x40120000) (hi := 0x40120F80) (by omega) (by omega), filter_meets_bank]
    exact findRow_remap b i
  refine ⟨⟨?_, by omega, hmap⟩, by decide, ?_, by decide⟩
  · simp only [isRegAddr, Bool.or_eq_true, Bool.and_eq_true, decide_eq_true_eq]
    omega
  · exact if_pos (by simp only [Bool.or_eq_true, decide_eq_true_eq]; omega)

theorem reg_bcfg : ∀ b : Fin 16, Mapped row_ME_BCFG b ∧ Direct row_ME_BCFG b :=
  mapped_among filter_meets_bank (by decide)
theorem reg_arbCtl : Mapped row_ME_ARB_CTL 0 ∧ Direct row_ME_ARB_CTL 0 := reg_sole _ (by simp [soleRows])

section
variable (s : State) (i : Nat) (w x : Word)

theorem fcWrite_remap : fcWrite s ME_REMAP i w x = remapWrite s (i / 16) (i % 16) w := rfl

theorem fcWrite_bcfg : fcWrite s ME_BCFG i w x = s.onDev fun d =>
    let d := d.setF ME_BCFG_SCRUB i (valOf w ME_BCFG_SCRUB)
    if i < 16 then repairWrite d i (valOf w ME_BCFG_REPAIR) else d := rfl

theorem fcWrite_arbCtl : fcWrite s ME_ARB_CTL i w x = s.onDev fun d =>
    if valOf w ME_ARB_CTL_CLRMAX != 0 then d.each 16 fun d r => d.setR ME_ARB_WMAX r 0 else d := rfl

end

/-- A write of a remap entry (R648). -/
theorem remap_stores {instr : Instr} {s : State} {who : Initiator} {b i : Fin 16} {w : Word}
    (hexec : exec instr s = storeReg s who ME_REMAP (b.val * 16 + i.val) w) :
    Stores instr s who row_ME_REMAP (b.val * 16 + i.val) w fun s => remapWrite s b i w := by
  have hbank : (b.val * 16 + i.val) / 16 = b := by omega
  have hentry : (b.val * 16 + i.val) % 16 = i := by omega
  refine stores_of_block (reg_remap b i) hexec ((fcWrite_remap s _ w 0).trans ?_)
  rw [hbank, hentry]

/-- A write of an entry that is not to be valid frees its word again. -/
theorem remapWrite_clear (s : State) (b i : Nat) {w : Word} {wa : Nat} (hwa : bitsOf w 2 18 = wa) (hv : w.getLsbD 31 = false) :
    remapWrite s b i w =
      (let e := b * 16 + i
       let key := 0x10000000 + b * 0x100000 + 4 * s.dev.f ME_REMAP_WADDR e
       (if s.dev.on ME_REMAP_V e then copyWord s (spareKey b i) key else s).onDev fun d =>
         (d.setF ME_REMAP_WADDR e wa).setF ME_REMAP_V e 0) := by
  simp only [remapWrite, hv, hwa, Bool.false_and, Bool.false_eq_true, if_false, b2i]

theorem onlyWaddr (wa : BitVec 18) :
    bitsOf (onlyF ME_REMAP_WADDR wa.toNat) 2 18 = wa.toNat ∧ (onlyF ME_REMAP_WADDR wa.toNat).getLsbD 31 = false := by
  refine ⟨valOf_onlyF (F := ME_REMAP_WADDR) (by decide) wa.isLt, ?_⟩
  rw [onlyF, getLsbD_putBits _ _ _ _ _ (by decide)]
  exact if_neg (by decide)

/-! ### Flash commands -/

theorem reg_fcCmd : Mapped row_FC_CMD 0 ∧ Direct row_FC_CMD 0 := reg_sole _ (by simp [soleRows])

theorem fcWrite_cmd (s : State) (i : Nat) (w x : Word) : fcWrite s FC_CMD i w x =
    if valOf w FC_CMD_GO = 0 then s.onDev fun d => d.setR FC_CMD i x
    else if valOf w FC_CMD_OP = 1 && 16 < s.dev.f FC_ADDR_ADDR / 16 % 16 + valOf w FC_CMD_NLINES + 1 then
      s.onDev fun d => fcRefuse d 1 6
    else if s.dev.on FC_CMD_BUSY && valOf w FC_CMD_OP ≠ 3 then s.onDev fun d => fcRefuse d 1 1
    else fcGo (s.onDev fun d => d.setR FC_CMD i x) := rfl

/-- A flash command is issued, or turned away where a program passes its page or a command runs (R656). -/
theorem flash_stores {i : Instr} {s : State} {who : Initiator} {w : Word} {op : Nat} (n : Nat)
    (hexec : exec i s = storeReg s who FC_CMD 0 w) (hgo : valOf w FC_CMD_GO = 1) (hop : valOf w FC_CMD_OP = op)
    (hlines : op = 1 → valOf w FC_CMD_NLINES = n) :
    Stores i s who row_FC_CMD 0 w fun s =>
      if op = 1 ∧ 16 < s.dev.f FC_ADDR_ADDR / 16 % 16 + n + 1 then s.onDev fun d => fcRefuse d 1 6
      else if s.dev.on FC_CMD_BUSY = true ∧ op ≠ 3 then s.onDev fun d => fcRefuse d 1 1
      else fcGo (s.onDev fun d => took d row_FC_CMD 0 w) := by
  refine stores_of_block reg_fcCmd hexec
    ((fcWrite_cmd s 0 w (newWord s.dev row_FC_CMD 0 w)).trans ((if_neg (by rw [hgo]; decide)).trans ?_))
  have hpast : (valOf w FC_CMD_OP = 1 && 16 < s.dev.f FC_ADDR_ADDR / 16 % 16 + valOf w FC_CMD_NLINES + 1) = true
      ↔ op = 1 ∧ 16 < s.dev.f FC_ADDR_ADDR / 16 % 16 + n + 1 := by
    rw [hop, Bool.and_eq_true, decide_eq_true_eq, decide_eq_true_eq]
    exact and_congr_right fun h1 => by rw [hlines h1]
  exact if_congr hpast rfl (if_congr (by rw [hop]; simp) rfl rfl)

/-! ### Pads -/

theorem reg_gcfg : ∀ i : Fin 32, Mapped row_PX_GCFG i ∧ Direct row_PX_GCFG i :=
  mapped_among (filter_meets_rowBlocks (0x40130100, 0x40130180, [row_PX_GCFG]) (by simp [rowBlocks])) (by decide)
theorem reg_gset : Mapped row_PX_GSET 0 ∧ Direct row_PX_GSET 0 := reg_sole _ (by simp [soleRows])
theorem reg_gclr : Mapped row_PX_GCLR 0 ∧ Direct row_PX_GCLR 0 := reg_sole _ (by simp [soleRows])

section
variable (s : State) (who : Initiator)

theorem timerHiWrite_writes (t : Fin 16) (data : Word) :
    Writes (.timerHiWrite who t 0 data) s who row_TM_CNT_HI t data (fun d => tmHiWrite d t 0 data)
    ∧ Writes (.timerHiWrite who t 1 data) s who row_TM_TOP_HI t data (fun d => tmHiWrite d t 1 data)
    ∧ Writes (.timerHiWrite who t 2 data) s who row_TM_MAT_HI t data (fun d => tmHiWrite d t 2 data) :=
  ⟨writes_of_block (b := fun d x => tmWrite d TM_CNT_HI t data x) (reg_cntHi t) rfl (fun _ => rfl) fun _ => tmWrite_cntHi ..,
    writes_of_block (b := fun d x => tmWrite d TM_TOP_HI t data x) (reg_topHi t) rfl (fun _ => rfl) fun _ => tmWrite_topHi ..,
    writes_of_block (b := fun d x => tmWrite d TM_MAT_HI t data x) (reg_matHi t) rfl (fun _ => rfl) fun _ => tmWrite_matHi ..⟩

theorem voteWrite_writes (p : Part) (data : Word) :
    Writes (.voteWrite who p false data) s who row_PD_VOTEA p data
        (fun d => d.setR PD_VOTEA p (newWord d row_PD_VOTEA p data &&& 0xFFFF3FFF))
    ∧ Writes (.voteWrite who p true data) s who row_PD_VOTEB p data
        (fun d => d.setR PD_VOTEB p (newWord d row_PD_VOTEB p data &&& 0x7FFF)) :=
  ⟨writes_of_block (b := fun d x => d.setR PD_VOTEA p (x &&& 0xFFFF3FFF)) (reg_voteA p) rfl (pdWrite_voteA s p data)
      fun _ => rfl,
    writes_of_block (b := fun d x => d.setR PD_VOTEB p (x &&& 0x7FFF)) (reg_voteB p) rfl (pdWrite_voteB s p data) fun _ => rfl⟩

theorem repairModeWrite_writes (b : Fin 16) (data : Word) :
    Writes (.repairModeWrite who b data) s who row_ME_BCFG b data fun d =>
      repairWrite (d.setF ME_BCFG_SCRUB b (bitsOf data 4 1)) b (bitsOf data 0 1) :=
  writes_of_block (b := fun d _ =>
      let d := d.setF ME_BCFG_SCRUB b (valOf data ME_BCFG_SCRUB)
      if b.val < 16 then repairWrite d b (valOf data ME_BCFG_REPAIR) else d)
    (reg_bcfg b) rfl (fcWrite_bcfg s b data) fun _ => if_pos b.isLt

theorem arbClrmax_writes :
    Writes (.arbClrmax who) s who row_ME_ARB_CTL 0 (fieldWord s.dev ME_ARB_CTL_CLRMAX 0 1)
      fun d => d.each 16 fun d r => d.setR ME_ARB_WMAX r 0 := by
  have hclr : valOf (fieldWord s.dev ME_ARB_CTL_CLRMAX 0 1) ME_ARB_CTL_CLRMAX = 1 :=
    valOf_fieldWord_same (row := row_ME_ARB_CTL) s.dev 1 (by decide) (by decide)
  exact writes_of_block (b := fun d _ =>
      if valOf (fieldWord s.dev ME_ARB_CTL_CLRMAX 0 1) ME_ARB_CTL_CLRMAX != 0 then d.each 16 fun d r => d.setR ME_ARB_WMAX r 0
      else d)
    reg_arbCtl rfl (fcWrite_arbCtl s 0 _) fun _ => if_pos (by rw [hclr]; rfl)

/-- The flash commands that take no count of lines. -/
theorem flashPlain_stores {i : Instr} {op : Nat} (h8 : op < 8) (hone : op ≠ 1)
    (hexec : exec i s = storeReg s who FC_CMD 0 (withF 0 [(FC_CMD_OP, op), (FC_CMD_GO, 1)])) (n : Nat) :
    Stores i s who row_FC_CMD 0 (withF 0 [(FC_CMD_OP, op), (FC_CMD_GO, 1)]) fun s =>
      if op = 1 ∧ 16 < s.dev.f FC_ADDR_ADDR / 16 % 16 + n + 1 then s.onDev fun d => fcRefuse d 1 6
      else if s.dev.on FC_CMD_BUSY = true ∧ op ≠ 3 then s.onDev fun d => fcRefuse d 1 1
      else fcGo (s.onDev fun d => took d row_FC_CMD 0 (withF 0 [(FC_CMD_OP, op), (FC_CMD_GO, 1)])) :=
  flash_stores n hexec (valOf_putBits_same (F := FC_CMD_GO) _ (v := 1) (by decide) (by decide))
    ((valOf_putBits_other (F := FC_CMD_GO) _ _ (by decide) (by decide)).trans
      (valOf_putBits_same (F := FC_CMD_OP) _ (by decide) h8))
    fun h => absurd h hone

theorem flashProgram_stores (n : Fin 16) :
    let w := withF 0 [(FC_CMD_OP, 1), (FC_CMD_NLINES, n.val), (FC_CMD_GO, 1)]
    Stores (.flashProgram who n) s who row_FC_CMD 0 w fun s =>
      if 1 = 1 ∧ 16 < s.dev.f FC_ADDR_ADDR / 16 % 16 + n.val + 1 then s.onDev fun d => fcRefuse d 1 6
      else if s.dev.on FC_CMD_BUSY = true ∧ 1 ≠ 3 then s.onDev fun d => fcRefuse d 1 1
      else fcGo (s.onDev fun d => took d row_FC_CMD 0 w) := by
  intro w
  have hgo (w : Word) {G : Fld} (hd : G.lo + G.n ≤ 8) : valOf (putBits w 8 1 1) G = valOf w G :=
    valOf_putBits_other (F := FC_CMD_GO) w _ (.inr hd) (by omega)
  refine flash_stores n rfl (valOf_putBits_same (F := FC_CMD_GO) _ (v := 1) (by decide) (by decide))
    ((hgo _ (by decide)).trans ((valOf_putBits_other (F := FC_CMD_NLINES) _ _ (by decide) (by decide)).trans
      (valOf_putBits_same (F := FC_CMD_OP) _ (v := 1) (by decide) (by decide))))
    fun _ => (hgo _ (by decide)).trans (valOf_putBits_same (F := FC_CMD_NLINES) _ (by decide) n.isLt)

theorem padFuncWrite_writes (i : Fin 32) (data : Word) :
    Writes (.padFuncWrite who i data) s who row_PX_GCFG i data fun d => padWrite d i (newWord d row_PX_GCFG i data) :=
  writes_of_block (b := fun d x => padWrite d i x) (reg_gcfg i) rfl (fun _ => rfl) fun _ => rfl

theorem gsetWrite_writes (data : Word) :
    Writes (.gsetWrite who data) s who row_PX_GSET 0 data (fun d => d.setR PX_GOUT 0 (d.r PX_GOUT ||| data)) :=
  writes_of_block (b := fun d _ => d.setR PX_GOUT 0 (d.r PX_GOUT ||| data)) reg_gset rfl (fun _ => rfl) fun _ => rfl

theorem gclrWrite_writes (data : Word) :
    Writes (.gclrWrite who data) s who row_PX_GCLR 0 data (fun d => d.setR PX_GOUT 0 (d.r PX_GOUT &&& ~~~data)) :=
  writes_of_block (b := fun d _ => d.setR PX_GOUT 0 (d.r PX_GOUT &&& ~~~data)) reg_gclr rfl (fun _ => rfl) fun _ => rfl

end

/-! ### The statement -/

/-- Settles O29: each command is the store of its word, and the register's block does what the clause says with it. -/
theorem powerTimeMemoryAndPinWrites : Obligations.PowerTimeMemoryAndPinWrites := by
  unfold Obligations.PowerTimeMemoryAndPinWrites
  intro s who
  refine ⟨?requests, fun data => ?release, voteWrite_writes s who, fun t data => ?timers, fun b i wa => ⟨?set, ?clear, ?mode⟩,
    arbClrmax_writes s who, fun n => ⟨flashProgram_stores s who n, ?flash⟩, padFuncWrite_writes s who,
    fun data => ⟨gsetWrite_writes s who data, gclrWrite_writes s who data⟩⟩
  case requests =>
    simp only [List.forall_mem_cons, List.not_mem_nil, false_imp_iff, implies_true, and_true]
    exact ⟨pdRequest_stores (q := 0) (by decide) rfl, pdRequest_stores (q := 1) (by decide) rfl,
      pdRequest_stores (q := 2) (by decide) rfl, pdRequest_stores (q := 3) (by decide) rfl⟩
  case release =>
    exact writes_of_block (b := fun d _ => holdRelease d data) reg_holdrel rfl (fun _ => rfl) fun _ => rfl
  case timers =>
    obtain ⟨hcnt, htop, hmat⟩ := timerHiWrite_writes s who t data
    simp only [tmHiWrite_cnt, tmHiWrite_top, tmHiWrite_mat] at hcnt htop hmat
    exact ⟨hcnt, htop, hmat⟩
  case set => exact remap_stores rfl
  case clear =>
    have hstores := remap_stores (instr := .remapClear who b i wa) (s := s) (who := who) (b := b) (i := i) rfl
    obtain ⟨hwa, hv⟩ := onlyWaddr wa
    simp only [remapWrite_clear _ b i hwa hv] at hstores
    exact hstores
  case mode => exact repairModeWrite_writes s who b
  case flash =>
    exact ⟨flashPlain_stores s who (op := 2) (by decide) (by decide) rfl _,
      flashPlain_stores s who (op := 3) (by decide) (by decide) rfl _,
      flashPlain_stores s who (op := 4) (by decide) (by decide) rfl _,
      flashPlain_stores s who (op := 5) (by decide) (by decide) rfl _,
      flashPlain_stores s who (op := 6) (by decide) (by decide) rfl _⟩

end Sys2Proof.Machine
end

section
/-! PROOF. The state after a power-on reset (R693, R697). -/

namespace Sys2Proof.Machine

/-- Of the registers only PX_STATUS and PX_RSTSRC differ from their reset words after a power-on reset. -/
theorem r_reset_of_apart {R : Reg} {i : Nat} (hstatus : R.addr i ≠ PX_STATUS.addr 0) (hsrc : R.addr i ≠ PX_RSTSRC.addr 0) :
    State.reset.dev.r R i = R.reset i := by
  have hstatusAddr : PX_STATUS.addr 0 = 0x40130004 := by decide
  have hsrcAddr : PX_RSTSRC.addr 0 = 0x40130008 := by decide
  rw [hstatusAddr] at hstatus
  rw [hsrcAddr] at hsrc
  have hregs : State.reset.dev.regs = [(0x40130004, 0x800), (0x40130008, 1)] := rfl
  rw [Dev.r, hregs, Store.get, if_neg hstatus.symm, Store.get, if_neg hsrc.symm, Store.get]

/-- Settles O4: the state is given by its two stored registers, and everything else is empty. -/
theorem resetState : Obligations.ResetState := by
  unfold Obligations.ResetState
  intro d
  exact ⟨rfl, rfl, fun R i hstatus hsrc => r_reset_of_apart hstatus hsrc, by decide, by decide, by decide, rfl, rfl, rfl, rfl⟩

end Sys2Proof.Machine
end

section
/-! PROOF. The verifier, the fuse engine, and how a message of parts goes on (R306, R307, R416, R417, R422, R436). -/

namespace Sys2Proof.Machine

/-! ### The verifier (R422) -/

/-- What the end of a verification leaves in the registers: the result, and the version of an image that passes. -/
def verifyResult (d : Dev) (res version : Nat) : Dev :=
  let e := (d.setF CH_VCTL_BUSY 0 0).setF CH_VCTL_RES 0 res
  if res = 0 then e.setF CH_VINFO_VERSION 0 version else e.set1 CH_CAUSE_VERIFY_FAIL

/-- A verification that runs ends with a result. -/
theorem verifyDone_leads {s : State} (hdom : domOn s.dev 0 = true) (hbusy : s.dev.on CH_VCTL_BUSY = true) :
    ∃ (u : State) (res version : Nat), Leads .verifyDone s (u.onDev fun d => verifyResult d res version) :=
  ⟨_, _, _, if_pos (by rw [hdom, hbusy]; rfl)⟩

theorem on_verifyResult_busy (d : Dev) (res version : Nat) : (verifyResult d res version).on CH_VCTL_BUSY = false := by
  have hend : ((d.setF CH_VCTL_BUSY 0 0).setF CH_VCTL_RES 0 res).on CH_VCTL_BUSY = false :=
    (Dev.on_setF_beside (F := CH_VCTL_RES) (G := CH_VCTL_BUSY) _ _ rfl (by decide) (by decide)).trans
      (Dev.on_setF_zero _ _ _ (by decide))
  unfold verifyResult
  dsimp only
  split
  · exact (Dev.on_setF_other (F := CH_VINFO_VERSION) (G := CH_VCTL_BUSY) _ _ (by decide)).trans hend
  · exact (on_set1_other (F := CH_CAUSE_VERIFY_FAIL) (G := CH_VCTL_BUSY) _ (by decide)).trans hend

/-- The result is 0, or the failure is a cause. -/
theorem verifyResult_says (d : Dev) (res version : Nat) :
    (verifyResult d res version).f CH_VCTL_RES = 0 ∨ (verifyResult d res version).on CH_CAUSE_VERIFY_FAIL = true := by
  unfold verifyResult
  dsimp only
  split
  case isTrue hres =>
    subst hres
    refine .inl ((Dev.f_setF_other (F := CH_VINFO_VERSION) (G := CH_VCTL_RES) _ _ (by decide)).trans ?_)
    exact Dev.f_setF_same _ CH_VCTL_RES 0 _ (by decide)
  case isFalse => exact .inr (Dev.on_set1 _ _ _ (by decide) (by decide))

/-! ### The fuse engine (R416, R417) -/

/-- A fuse pulse sets its fuse and leaves the list of those to come; a brown-out ends the operation unless it was the last. -/
theorem fusePulse_due {s : State} {x : FuseOp} {b i : Nat} {l : List (Nat × Nat)} (hop : s.dev.fuseOp = some x)
    (htodo : x.todo = (b, i) :: l) (hdue : s.dev.hn .fuseAt ≤ s.dev.now) :
    fusePulse s =
      (let t := (s.setMb (fuseKey b) (fuseByte s b ||| 2 ^ i)).onDev fun d =>
         pulseStart { d with fuseOp := some { x with todo := l } }
       if s.dev.on PX_STATUS_BOR = true ∧ l ≠ [] then fuseEnd t x.op 3 else t) := by
  unfold fusePulse
  simp only [hop, htodo, Nat.not_lt.2 hdue, if_false]
  exact if_congr (by rw [Bool.and_eq_true, bne_iff_ne]; rfl) rfl rfl

/-- Operation 4 has no read-back. -/
theorem fuseOpDone_plain {s : State} {x : FuseOp} (hop : s.dev.fuseOp = some x) (htodo : x.todo = []) (h4 : x.op = 4) :
    fuseOpDone s = fuseStop s 0 := by
  simp [fuseOpDone, hop, htodo, h4, fuseEnd]

/-! ### Message flits (R306, R307) -/

theorem payBits_head {n : Nat} (hn : n < 2 ^ 104) : payBits n 103 96 = n / 2 ^ 96 := by
  rw [payBits]
  omega

section
variable {d : Dev} {L pay stamp : Nat}

theorem msgFlit_out (hpay : pay < 2 ^ 104) (h : d.f LN_STATUS_STATE L ≠ lnActive ∨ pay / 2 ^ 96 ≠ d.hn .lRxSeq L) :
    msgFlit d L pay stamp = d := by
  rw [msgFlit, payBits_head hpay]
  refine if_neg ?_
  rw [Bool.and_eq_true, decide_eq_true_eq, decide_eq_true_eq, not_and_or]
  exact h

theorem msgFlit_in (hpay : pay < 2 ^ 104) (hactive : d.f LN_STATUS_STATE L = lnActive) (hseq : pay / 2 ^ 96 = d.hn .lRxSeq L) :
    msgFlit d L pay stamp =
      (let e := reassemble ((d.setH .lRxSeq L ((d.h .lRxSeq L + 1) % 256)).setH .lAckDue L (d.h .lAckDue L + 1)) L pay stamp
       if e.f LN_STATUS_STATE L = lnActive && (e.f LN_RETRY_ACK_N L : Int) ≤ e.h .lAckDue L then sendAck e L false else e) := by
  rw [msgFlit, payBits_head hpay]
  exact if_pos (by rw [hactive, hseq]; simp)

end

/-- The command is the flit's, where the lane is heard. -/
theorem msgFlit_leads {s : State} {l : Lane} {pay : BitVec 104} {stamp : BitVec 64} {e : Dev} (hopen : lrxHeld s.dev l = false)
    (he : msgFlit s.dev (leadLane s.dev l) pay.toNat stamp.toNat = e) :
    Leads (.msgFlit l pay stamp) s ((qSettle { s with dev := e }).onDev takePortMsgs) := by
  have hexec : exec (.msgFlit l pay stamp) s = .next ((qSettle (s.onDev fun d =>
    d.heard l fun d => msgFlit d (leadLane d l) pay.toNat stamp.toNat)).onDev takePortMsgs) := rfl
  have hflit : (s.onDev fun d => d.heard l fun d => msgFlit d (leadLane d l) pay.toNat stamp.toNat) = { s with dev := e } := by
    rw [State.onDev, heard_of_open _ hopen, he]
  rw [Leads, hexec, hflit]

/-! ### The statement -/

/-- Settles O22: each command is its block's step, whose guard the clause's state meets. -/
theorem verifierFusesAndParts : Obligations.VerifierFusesAndParts := by
  unfold Obligations.VerifierFusesAndParts
  intro s d hdom
  refine ⟨fun hbusy => ?verify, fun x b i l hop htodo hdue => ?pulse, fun x hop htodo h4 => ?ends,
    fun l pay stamp hopen => ⟨fun hout => msgFlit_leads hopen (msgFlit_out pay.isLt hout),
      fun hactive hseq => msgFlit_leads hopen (msgFlit_in pay.isLt hactive hseq)⟩,
    fun stream c hc hstream => ?idle⟩
  case verify =>
    obtain ⟨u, res, version, hleads⟩ := verifyDone_leads hdom hbusy
    exact ⟨_, hleads, on_verifyResult_busy .., verifyResult_says ..⟩
  case pulse =>
    have hexec : exec .fusePulseDone s = .next (if domOn s.dev 0 then fusePulse s else s) := rfl
    rw [Leads, hexec, if_pos hdom, fusePulse_due hop htodo hdue]
  case ends =>
    have hexec : exec .fuseOpDone s = .next (if domOn s.dev 0 then fuseOpDone s else s) := rfl
    rw [Leads, hexec, if_pos hdom, fuseOpDone_plain hop htodo h4]
  case idle =>
    have hany : (s.dev.conts.any fun c => c.stream == stream.val) = true :=
      List.any_eq_true.2 ⟨c, hc, beq_iff_eq.2 hstream⟩
    exact (makes_of_svc_unguarded (i := .contTimeout stream) rfl hdom).congr (if_pos hany)

end Sys2Proof.Machine
end

section
/-! PROOF. Trails, rings and the DMA at work (R467, R473, R475 to R482, R489 to R494). -/

namespace Sys2Proof.Machine

/-! ### A refusal sets the cause (R405) -/

/-- The log of refusals does not reach the charter's causes. -/
theorem reflog_apart (j : Nat) : CH_REFLOG.addr j ≠ CH_CAUSE.addr 0 := by
  simp only [Reg.addr, CH_REFLOG, CH_CAUSE]
  omega

theorem Dev.on_setR_other (d : Dev) {R : Reg} {G : Fld} {i j : Nat} (w : Word) (h : R.addr i ≠ G.reg.addr j) :
    (d.setR R i w).on G j = d.on G j := by
  rw [Dev.on, Dev.f_setR_other d w h, Dev.on]

theorem on_refuse (d : Dev) (part : Nat) (warden : Bool) (kind : Nat) (owner : Nat × Bool) (write : Bool) (src target : Nat) :
    (refuse d part warden kind owner write src target).on CH_CAUSE_REFUSED = true := by
  have hset : ((((d.incSat CH_PREF_COUNT part).incSat CH_REFCNT_TOTAL).set1 CH_CAUSE_REFUSED).on CH_CAUSE_REFUSED) = true :=
    Dev.on_set1 _ _ _ (by decide) (by decide)
  unfold refuse
  dsimp only
  generalize ((d.incSat CH_PREF_COUNT part).incSat CH_REFCNT_TOTAL).set1 CH_CAUSE_REFUSED = e at hset ⊢
  split
  · refine (Dev.on_set1_beside (F := CH_CAUSE_REF_OVR) (G := CH_CAUSE_REFUSED) _ rfl (by decide) (by decide)).trans ?_
    rwa [Dev.on, Dev.f_incSat_other (F := CH_REFCNT_LOST) (G := CH_CAUSE_REFUSED) _ (by decide), ← Dev.on]
  · refine (Dev.on_setF_other (F := CH_REF_HEAD_HEAD) (G := CH_CAUSE_REFUSED) (j := 0) _ _ (by decide)).trans ?_
    rwa [Dev.on_setR_other (G := CH_CAUSE_REFUSED) _ _ (reflog_apart _), Dev.on_setR_other (G := CH_CAUSE_REFUSED) _ _ (reflog_apart _),
      Dev.on_setR_other (G := CH_CAUSE_REFUSED) _ _ (reflog_apart _), Dev.on_setR_other (G := CH_CAUSE_REFUSED) _ _ (reflog_apart _)]

/-! ### Trails (R467, R473) -/

/-- A delivery leaves the fabric. -/
def delivered (s : State) (e : PortEv) : State := s.onDev fun d => { d with ports := d.ports.erase e }

/-- The partition of a consumer, 0 where it belongs to none. -/
def consumerPart (d : Dev) (cons : Nat) : Nat :=
  match consOwner d cons with
  | .part p => p
  | _ => 0

section
variable {s : State} (hdom : domOn s.dev 0 = true)
include hdom

theorem trailEvent_makes {e : Ev} {t : List Ev} (hq : s.dev.evq = e :: t) :
    Makes .trailEvent s fun d => ({ d with evq := t } : Dev).eachIn (trailsOf d e.src) fun d j => trailRoute d j e := by
  refine (makes_of_when (c := fun d => domOn d 0) (g := fun d => match d.evq with
    | [] => d
    | e :: t => ({ d with evq := t } : Dev).eachIn (trailsOf d e.src) fun d t => trailRoute d t e) rfl hdom).congr ?_
  simp only [hq]

/-- The delivery that waits for a consumer, while the fabric has power. -/
theorem find?_consumer {c : Nat} {e : PortEv} (hfind : s.dev.ports.find? (fun e => e.cons == c) = some e) :
    (s.dev.ports.find? fun e => e.cons == c && domOn s.dev 0) = some e := by
  rw [hdom]
  simpa only [Bool.and_true] using hfind

theorem consumerDelivery_leads {cons : BitVec 12} {e : PortEv} (hfind : s.dev.ports.find? (fun e => e.cons == cons.toNat) = some e)
    (hok : deliverOk (delivered s e) e = true) :
    Leads (.consumerDelivery cons) s (deliver (delivered s e) e) := by
  change execConsumerDelivery cons s = _
  rw [execConsumerDelivery, find?_consumer hdom hfind]
  exact if_pos hok

theorem consumerDelivery_denied {cons : BitVec 12} {e : PortEv} (hfind : s.dev.ports.find? (fun e => e.cons == cons.toNat) = some e)
    (hok : deliverOk (delivered s e) e = false) :
    let o := trailOwner (delivered s e).dev e.trail
    Leads (.consumerDelivery cons) s ((delivered s e).onDev fun d =>
      refuse d o.1 o.2 3 (consumerPart (delivered s e).dev e.cons, isWardenLine e.cons) true e.trail e.trail) := by
  have hexec : exec (.consumerDelivery cons) s = execConsumerDelivery cons s := rfl
  rw [Leads, hexec, execConsumerDelivery, find?_consumer hdom hfind]
  exact if_neg (fun h => absurd (hok.symm.trans h) (by decide))

theorem consumerDelivery_refused {cons : BitVec 12} {e : PortEv} (hfind : s.dev.ports.find? (fun e => e.cons == cons.toNat) = some e)
    (hok : deliverOk (delivered s e) e = false) :
    Acts (.consumerDelivery cons) s fun x => x.on CH_CAUSE_REFUSED = true := by
  exact ⟨_, consumerDelivery_denied hdom hfind hok, on_refuse ..⟩

theorem elogWrite_leads {n : Fin 256} {e : PortEv} (hfind : s.dev.ports.find? (fun e => e.cons == 0x1000 + n.val) = some e) :
    Leads (.elogWrite n) s (elogPut (delivered s e) n e.trail e.src e.stamp) := by
  change execElogWrite n s = _
  rw [execElogWrite, find?_consumer hdom hfind]
  rfl

end

section
variable {s : State} {n : Nat} (trail src stamp : Nat) (hon : s.dev.on QM_ELOG_EN n = true)
include hon

/-- An element of an enabled slot goes into the slot's ring of 16-byte elements, and is dropped where that is full (R473). -/
theorem elogPut_fits (hsize : ctx s (s.dev.f QM_ELOG_RING n) 1 / 256 % 4 = 0) :
    elogPut s n trail src stamp =
      (let r := s.dev.f QM_ELOG_RING n
       let put := ringPut s r (leBytes 4 (src + 65536 * trail) ++ leBytes 4 0 ++ leBytes 8 stamp)
       if put.1 then put.2 else ringDrop put.2 r) :=
  (if_pos hon).trans (if_neg (not_not.2 hsize))

/-- A ring of larger elements takes none. -/
theorem elogPut_wide (hsize : ctx s (s.dev.f QM_ELOG_RING n) 1 / 256 % 4 ≠ 0) :
    elogPut s n trail src stamp = ringDrop s (s.dev.f QM_ELOG_RING n) :=
  (if_pos hon).trans (if_pos hsize)

end

/-! ### DMA (R475 to R482) -/

/-- The channel whose turn it is: the first from the one after the last that fetches or runs. -/
theorem dmaTurn_of_first {d : Dev} {j : Nat} (hj : j < 32) (hrun : d.f DM_STATUS_STATE ((d.hn .dmaLast + j) % 32) = 3)
    (hfirst : ∀ k, k < j → d.f DM_STATUS_STATE ((d.hn .dmaLast + k) % 32) ≠ 3 ∧ d.f DM_STATUS_STATE ((d.hn .dmaLast + k) % 32) ≠ 1) :
    dmaTurn d = some ((d.hn .dmaLast + j) % 32) := by
  rw [dmaTurn, List.find?_map, Option.map_eq_some_iff]
  refine ⟨j, List.find?_range_eq_some.2 ⟨by simp [hrun], List.mem_range.2 hj, fun k hk => ?_⟩, rfl⟩
  simp [hfirst k hk]

/-- A descriptor in memory that is read is judged, and runs or ends the channel (R477, R479). -/
theorem descriptorFetch_leads {s t : State} {ch : Fin 32} {w : List Nat} (hdom : domOn s.dev 0 = true)
    (hstate : s.dev.f DM_STATUS_STATE ch = 1) (hturn : dmaTurn s.dev = some ch.val)
    (hmem : (sramBank (s.dev.f DM_CUR_ADDR ch)).isSome = true ∨ s.dev.f DM_CUR_ADDR ch < 0x840000)
    (hread : dmaWords (s.onDev fun d => (d.setH .dmaLast 0 (ch.val + 1 : Nat)).setF DM_LEFT_BYTES ch 0) ch
      (s.dev.f DM_CUR_ADDR ch) 4 = (.ok w, t)) :
    let n (i : Nat) : Nat := (w[i]?).getD 0
    Leads (.descriptorFetch ch) s (t.onDev fun d =>
      let d := d.setF DM_LEFT_BYTES ch (n 2 % 2 ^ 24 : Nat)
      if !dmaValid (n 0) (n 1) (n 2) (n 3) then dmaError d ch 3 false
      else
        let d := (((d.setH .dmaSrc ch (n 0)).setH .dmaDst ch (n 1)).setH .dmaCtl ch (n 2)).setH .dmaNext ch (n 3)
        let d := (d.setH .dmaHold ch 0).setH .dmaHeld ch 0
        if !(n 2).testBit 30 then d.setF DM_STATUS_STATE ch 3
        else if d.on DM_STATUS_TPEND ch then (d.setF DM_STATUS_TPEND ch 0).setF DM_STATUS_STATE ch 3
        else if d.on DM_STATUS_STOP_PEND ch then dmaStopped d ch
        else d.setF DM_STATUS_STATE ch 2) := by
  intro n
  have hinside : ((sramBank (s.dev.f DM_CUR_ADDR ch)).isNone && 0x840000 ≤ s.dev.f DM_CUR_ADDR ch) = false := by
    rw [Bool.and_eq_false_iff, decide_eq_false_iff_not, Option.isNone_eq_false_iff, Nat.not_le]
    exact hmem
  have hready : (domOn s.dev 0 && dmaTurn s.dev = some ch.val && s.dev.f DM_STATUS_STATE ch = 1) = true := by
    simp [hdom, hturn, hstate]
  change execDescriptorFetch ch s = _
  rw [execDescriptorFetch, if_pos hready]
  dsimp only
  rw [hinside, hread]
  rfl

/-! ### Claims of elements (R489 to R494) -/

theorem dmaClaim_takes {s t : State} {ch j : Nat} (hstate : s.dev.f DM_STATUS_STATE ch = 4)
    (hmine : ringMine s (s.dev.f DM_RING_RING ch) (chanOwner s.dev ch) 0 = true)
    (hclaim : claim s (s.dev.f DM_RING_RING ch) = (some j, t)) :
    dmaClaim s ch = t.onDev fun d =>
      ((d.setF DM_CUR_ADDR ch (rElem t (s.dev.f DM_RING_RING ch) j)).setH .dmaElem ch (j + 1 : Nat)).setF DM_STATUS_STATE ch 1 := by
  rw [dmaClaim, if_pos hstate]
  dsimp only
  rw [if_pos hmine, hclaim]

/-- A lane sends the element it claims (R492). -/
theorem laneClaim_sends {s t u : State} {l j : Nat} {ws : List Nat} (hen : s.dev.on QM_LTX_EN l = true)
    (hactive : s.dev.f LN_STATUS_STATE l = lnActive) (hup : s.dev.on LN_STATUS_UP l = true) (hroom : txWaiting s.dev l < 32)
    (hmine : ringMine s (s.dev.f QM_LTX_RING l) (laneOwner s.dev l).1 3 = true)
    (hclaim : claim s (s.dev.f QM_LTX_RING l) = (some j, t))
    (hread : qmRead t (rElem t (s.dev.f QM_LTX_RING l) j) 68 = (some ws, u)) :
    let b := ws.flatMap fun w => leBytes 4 w
    let n := leNat (b.take 2)
    1 ≤ n → n ≤ 256 → b[2]? = some 2 →
      laneClaim s l = qSettle (u.onDev fun d => sendMsg d l 2 ((b.drop 16).take n) (j + 1)) := by
  intro b n hlow hhigh hkind
  have hready : (s.dev.on QM_LTX_EN l && s.dev.f LN_STATUS_STATE l = lnActive && s.dev.on LN_STATUS_UP l
      && txWaiting s.dev l < 32) = true := by
    simp [hen, hactive, hup, hroom]
  rw [laneClaim]
  dsimp only
  rw [if_pos hready, if_pos hmine, hclaim]
  dsimp only
  rw [hread]
  have hmsg : (1 ≤ n && n ≤ 256 && (b[2]?).getD 0 = 2) = true := by
    rw [hkind]; simp [hlow, hhigh]
  exact if_pos hmsg

/-! ### The statement -/

/-- Settles O21: each command is its block's step, whose guard the clause's state meets. -/
theorem trailsRingsAndDma : Obligations.TrailsRingsAndDma := by
  unfold Obligations.TrailsRingsAndDma
  intro s d hdom
  refine ⟨fun e t hq => trailEvent_makes hdom hq,
    fun cons e hfind => ⟨consumerDelivery_leads hdom hfind, consumerDelivery_refused hdom hfind⟩,
    fun n e hfind hon => ?elog, fun ch w t hstate hturn hmem hread => ?fetch, fun j hj hrun hfirst => ?burst,
    fun ch j t hstate hmine hclaim => ?dma, fun l j ws t u hen hactive hup hroom => ?lane,
    fun ch => makes_of_svc_unguarded rfl hdom⟩
  case elog =>
    exact ⟨fun hsize => (elogWrite_leads hdom hfind).trans (congrArg _ (elogPut_fits (s := delivered s e) _ _ _ hon hsize)),
      fun hsize => (elogWrite_leads hdom hfind).trans (congrArg _ (elogPut_wide (s := delivered s e) _ _ _ hon hsize))⟩
  case fetch =>
    have hleads := descriptorFetch_leads hdom hstate hturn hmem hread
    refine ⟨fun hinvalid => ?_, fun hvalid htrigger => ?_⟩
    · simp only [hinvalid, Bool.not_false, if_true] at hleads
      exact hleads
    · simp only [hvalid, htrigger, Bool.not_true, Bool.not_false, Bool.false_eq_true, if_true, if_false] at hleads
      exact hleads
  case burst =>
    change execDmaBurst s = _
    rw [execDmaBurst, dmaTurn_of_first hj hrun hfirst]
    dsimp only
    rw [if_pos (by rw [hdom, show s.dev.f DM_STATUS_STATE _ = 3 from hrun]; rfl)]
  case dma =>
    have hexec : exec (.tokenClaim (.dma ch)) s = if !domOn s.dev 0 then .next s else .next (dmaClaim s ch) := rfl
    rw [Leads, hexec, if_neg (by rw [hdom]; decide), dmaClaim_takes hstate hmine hclaim]
  case lane =>
    intro r hmine hclaim hread b n hlow hhigh hkind
    have hexec : exec (.tokenClaim (.lane l)) s = if !domOn s.dev 0 then .next s else .next (laneClaim s l) := rfl
    rw [Leads, hexec, if_neg (by rw [hdom]; decide),
      laneClaim_sends hen hactive hup hroom hmine hclaim hread hlow hhigh hkind]

end Sys2Proof.Machine
end

section
/-! PROOF. Words of SRAM: a read gives what was stored, a store leaves every other word, and a word that is not valid, or of
which it is not known whether it is, reads as its rule says (R639, R640). -/

namespace Sys2Proof.Machine

/-! ### Bytes of a number -/

theorem leBytes_length (n x : Nat) : (leBytes n x).length = n := by
  induction n generalizing x with
  | zero => rfl
  | succ n ih => rw [leBytes, List.length_cons, ih]

theorem leNat_leBytes (n v : Nat) : leNat (leBytes n v) = v % 2 ^ (8 * n) := by
  induction n generalizing v with
  | zero => simp [leBytes, leNat, Nat.mod_one]
  | succ n ih =>
    have hpow : 2 ^ (8 * (n + 1)) = 256 * 2 ^ (8 * n) := by rw [Nat.mul_succ, Nat.pow_add, Nat.mul_comm]
    rw [leBytes, leNat, ih, Nat.mod_mod, hpow, Nat.mod_mul]

theorem leBytes_lt {n x b : Nat} (hb : b ∈ leBytes n x) : b < 256 := by
  induction n generalizing x with
  | zero => simp [leBytes] at hb
  | succ n ih =>
    rcases List.mem_cons.1 hb with h | h
    · omega
    · exact ih h

theorem leNat_zeros (l : List Nat) (h : ∀ b ∈ l, b = 0) : leNat l = 0 := by
  induction l with
  | nil => rfl
  | cons b t ih => rw [leNat, ih fun x hx => h x (List.mem_cons_of_mem _ hx), h b List.mem_cons_self]

/-! ### The arbiter touches its own registers alone (R497) -/

theorem Dev.r_setF_other (d : Dev) {F : Fld} {R : Reg} {i j : Nat} (v : Int) (h : F.reg.addr i ≠ R.addr j) :
    (d.setF F i v).r R j = d.r R j :=
  Dev.r_setR_other d _ h

theorem r_arb (d : Dev) (b slot : Nat) {R : Reg} {j : Nat} (h : ME_ARB_STAT.addr b ≠ R.addr j) :
    (arb d b slot).r R j = d.r R j := by
  unfold arb
  split
  · rfl
  · dsimp only
    rw [Dev.r_setF_other (F := ME_ARB_STAT_LAST) _ _ h, Dev.r_setF_other (F := ME_ARB_STAT_PARKED) _ _ h,
      Dev.r_setF_other (F := ME_ARB_STAT_PARK) _ _ h, Dev.setH_r, Dev.setH_r]
    refine Dev.each_keep (P := fun e => e.r R j = d.r R j) 16 d rfl fun e i he => ?_
    split
    · exact he
    · exact he

/-- The registers of the banks lie below the arbiter's. -/
theorem arbStat_apart {R : Reg} {j : Nat} (b : Nat) (h : R.addr j < 0x40128040) : ME_ARB_STAT.addr b ≠ R.addr j := by
  have hlow : 0x40128040 ≤ ME_ARB_STAT.addr b := by simp only [Reg.addr, ME_ARB_STAT]; omega
  omega

/-! ### Where a word lies (R648) -/

/-- Two devices whose banks and remap entries agree have every word at the same place. -/
theorem wordKey_congr {d e : Dev} (b a : Nat) (hcfg : e.r ME_BCFG b = d.r ME_BCFG b)
    (hmap : b < 16 → ∀ i < 16, e.r ME_REMAP (b * 16 + i) = d.r ME_REMAP (b * 16 + i)) : wordKey e b a = wordKey d b a := by
  have hremap (w : Nat) : remapOf e b w = remapOf d b w := by
    have hrepair : e.on ME_BCFG_REPAIR b = d.on ME_BCFG_REPAIR b := congrArg (fun x => bitsOf x 0 1 != 0) hcfg
    rw [remapOf, remapOf, hrepair]
    split
    case isFalse => rfl
    case isTrue h =>
      rw [Bool.and_eq_true, decide_eq_true_eq] at h
      refine List.find?_congr fun i hi => ?_
      have hentry := hmap h.1 i (List.mem_range.1 hi)
      have hv : e.on ME_REMAP_V (b * 16 + i) = d.on ME_REMAP_V (b * 16 + i) := congrArg (fun x => bitsOf x 31 1 != 0) hentry
      have hw : e.f ME_REMAP_WADDR (b * 16 + i) = d.f ME_REMAP_WADDR (b * 16 + i) := congrArg (fun x => bitsOf x 2 18) hentry
      rw [hv, hw]
  rw [wordKey, wordKey, hremap]

theorem wordKey_arb (d : Dev) {b : Nat} (hb : b ≤ 16) (a slot : Nat) : wordKey (arb d b slot) b a = wordKey d b a := by
  refine wordKey_congr b a (r_arb d b slot (arbStat_apart b ?_)) fun hb16 i hi => r_arb d b slot (arbStat_apart b ?_)
  · simp only [Reg.addr, ME_BCFG]; omega
  · simp only [Reg.addr, ME_REMAP]; omega

theorem sramBank_bounds {a b : Nat} (h : sramBank a = some b) : b ≤ 16 ∧ a < 0x50020000 := by
  unfold sramBank at h
  split at h
  next hmain =>
    simp only [Bool.and_eq_true, decide_eq_true_eq] at hmain
    have := Option.some.inj h
    omega
  next =>
    split at h
    next haon =>
      simp only [Bool.and_eq_true, decide_eq_true_eq] at haon
      have := Option.some.inj h
      omega
    next => exact absurd h nofun

/-- A word lies at a multiple of 4 below the keys of the check bits. -/
theorem wordKey_bounds {d : Dev} {a b : Nat} (h : sramBank a = some b) : wordKey d b a % 4 = 0 ∧ wordKey d b a < 0x120000000 := by
  obtain ⟨hb, ha⟩ := sramBank_bounds h
  unfold wordKey
  split
  next i hi =>
    have hi16 : i < 16 := by
      unfold remapOf at hi
      split at hi
      · exact List.mem_range.1 (List.mem_of_find?_eq_some hi)
      · exact absurd hi nofun
    simp only [spareKey]
    omega
  next => omega

/-! ### What a store leaves in the memory (R639, R640) -/

section
variable (s : State) {k o : Nat} {bs : List Nat}

theorem mb_sramPut_valid : (sramPut s k o bs).mb (validKey k) = 3 := by
  unfold sramPut
  exact State.mb_setMb_same ..

variable (hfits : o + bs.length ≤ 4)
include hfits

theorem mb_sramPut_data {i : Nat} (hi : i < bs.length) : (sramPut s k o bs).mb (k + o + i) = bs[i] % 256 := by
  unfold sramPut
  dsimp only
  rw [State.mb_setMb_other _ _ (by simp only [validKey]; omega), State.mb_setMbs_other _ _ (by simp only [chkKey]; omega),
    State.mb_setMbs_at _ _ _ _ hi]

theorem mb_sramPut_check {i : Nat} (hi : i < bs.length) : (sramPut s k o bs).mb (chkKey (k + o + i)) = 0 := by
  have hkey : chkKey (k + o + i) = chkKey (k + o) + i := by simp only [chkKey]; omega
  have hlen : i < (bs.map fun _ => 0).length := by rwa [List.length_map]
  unfold sramPut
  dsimp only
  rw [State.mb_setMb_other _ _ (by simp only [validKey, chkKey]; omega), hkey, State.mb_setMbs_at _ _ _ _ hlen, List.getElem_map]

theorem mb_sramPut_other {j : Nat} (hj : j < 0x200000000) (hout : j < k ∨ k + 4 ≤ j) : (sramPut s k o bs).mb j = s.mb j := by
  unfold sramPut
  dsimp only
  rw [State.mb_setMb_other _ _ (by simp only [validKey]; omega), State.mb_setMbs_other _ _ (by simp only [chkKey]; omega),
    State.mb_setMbs_other _ _ (by omega)]
  split
  · rw [State.mb_setMbs_other _ _ (by simp only [chkKey]; omega), State.mb_setMbs_other _ _ (by simp only [List.length_cons]; omega)]
  · rfl

end

/-! ### What the lanes of a word read -/

/-- A byte whose check bits are its own reads clean. -/
theorem eccByte_clean {x : Nat} (hx : x < 256) : eccByte x (chk5 x ^^^ 0) = (x, 0) := by
  have hzero : eccByte 0 0 = (0, 0) := by decide
  have h := eccByte_changed hx 0 0
  simp only [Nat.xor_zero, hzero] at h ⊢
  exact h

theorem sramLanes_stored (s : State) {k o : Nat} {bs : List Nat} (hfits : o + bs.length ≤ 4)
    (hbytes : ∀ b ∈ bs, b < 256) : sramLanes (sramPut s k o bs) k o bs.length = bs.map fun b => (b, 0) := by
  refine List.ext_getElem (by simp [sramLanes]) fun i hi hi' => ?_
  have hlt : i < bs.length := by simpa using hi'
  have hb := hbytes bs[i] (List.getElem_mem hlt)
  simp only [sramLanes, List.getElem_map, List.getElem_range, mb_sramPut_valid s, mb_sramPut_data s hfits hlt,
    mb_sramPut_check s hfits hlt, Nat.mod_eq_of_lt hb, OfNat.ofNat_ne_zero, if_false, if_true]
  exact eccByte_clean hb

theorem sramLanes_invalid {s : State} {k : Nat} (o n : Nat) (h : s.mb (validKey k) = 0) :
    ∀ x ∈ sramLanes s k o n, x = (0, 0) := by
  simp [sramLanes, h]

theorem sramLanes_doubtful {s : State} {k : Nat} (o n : Nat) (h : s.mb (validKey k) = 1 ∨ s.mb (validKey k) = 2) :
    ∀ x ∈ sramLanes s k o n, x.2 = 2 := by
  rcases h with h | h
  · simp [sramLanes, h]
  · simp [sramLanes, h]

/-! ### A read (R638 to R642) -/

/-- What a lane that is not there counts as. -/
theorem lane_getD {l : List (Nat × Nat)} {v : Nat} (h : ∀ x ∈ l, x.2 = v) {j : Nat} (hj : j < l.length) :
    ((l[j]?).getD (0, 0)).2 = v := by
  rw [List.getElem?_eq_getElem hj]
  exact h _ (List.getElem_mem hj)

/-- What a read of lanes leaves in the device: the arbiter's round, the errors noted, and a corrected word queued (R642). -/
def lanesNoted (s : State) (b a n slot : Nat) (l : List (Nat × Nat)) : State :=
  let t := (s.onDev fun d => arb d b slot).onDev fun d =>
    (List.range n).foldl (fun d j => eccNote d b (bankOff b a + j) slot ((l[j]?).getD (0, 0)).2) d
  if l.any fun x => x.2 == 1 then t.onDev fun d => wbPush d (a / 4 * 4) else t

section
variable {s : State} {b a n slot : Nat} {l : List (Nat × Nat)}
  (hlanes : sramLanes (s.onDev fun d => arb d b slot) (wordKey (arb s.dev b slot) b a) (a % 4) n = l)
include hlanes

theorem lanes_length : l.length = n := by rw [← hlanes]; simp [sramLanes]

/-- Where every lane reads clean, the read gives the bytes and changes nothing but the arbiter. -/
theorem sramRead_clean (hclean : ∀ x ∈ l, x.2 = 0) :
    sramRead s b a n slot = (.ok (leNat (l.map fun x => x.1)), s.onDev fun d => arb d b slot) := by
  have hlen := lanes_length hlanes
  have hzero (j : Nat) : ((l[j]?).getD (0, 0)).2 = 0 := by
    rcases Nat.lt_or_ge j l.length with h | h
    · exact lane_getD hclean h
    · rw [List.getElem?_eq_none h]; rfl
  have hnote (d : Dev) (m : Nat) :
      (List.range m).foldl (fun d j => eccNote d b (bankOff b a + j) slot ((l[j]?).getD (0, 0)).2) d = d := by
    induction List.range m with
    | nil => rfl
    | cons j t ih => rw [List.foldl_cons, hzero, eccNote, if_pos rfl]; exact ih
  have hnone : (l.any fun x => x.2 == 1) = false := List.any_eq_false.2 fun x hx => by simp [hclean x hx]
  have hfind : ((List.range n).find? fun j => ((l[j]?).getD (0, 0)).2 == 2) = none :=
    List.find?_eq_none.2 fun j _ => by simp [hzero]
  have hexec : sramRead s b a n slot =
      (match (List.range n).find? fun j => ((l[j]?).getD (0, 0)).2 == 2 with
        | some j => (.ue (b % 16) (a % 4 + j), lanesNoted s b a n slot l)
        | none => (.ok (leNat (l.map fun x => x.1)), lanesNoted s b a n slot l)) := by
    subst hlanes; rfl
  rw [hexec, hfind, lanesNoted, hnone, if_neg (by decide)]
  simp only [State.onDev, hnote]

/-- Where no lane can be read, the first one is reported. -/
theorem sramRead_doubtful (hn : 0 < n) (hdoubt : ∀ x ∈ l, x.2 = 2) :
    sramRead s b a n slot = (.ue (b % 16) (a % 4), (s.onDev fun d => arb d b slot).onDev fun d =>
      (List.range n).foldl (fun d j => eccNote d b (bankOff b a + j) slot ((l[j]?).getD (0, 0)).2) d) := by
  have hlen := lanes_length hlanes
  have hnone : (l.any fun x => x.2 == 1) = false := List.any_eq_false.2 fun x hx => by simp [hdoubt x hx]
  have hfind : ((List.range n).find? fun j => ((l[j]?).getD (0, 0)).2 == 2) = some 0 := by
    refine List.find?_range_eq_some.2 ⟨?_, List.mem_range.2 hn, fun j hj => absurd hj (Nat.not_lt_zero j)⟩
    rw [lane_getD hdoubt (hlen ▸ hn)]; rfl
  have hexec : sramRead s b a n slot =
      (match (List.range n).find? fun j => ((l[j]?).getD (0, 0)).2 == 2 with
        | some j => (.ue (b % 16) (a % 4 + j), lanesNoted s b a n slot l)
        | none => (.ok (leNat (l.map fun x => x.1)), lanesNoted s b a n slot l)) := by
    subst hlanes; rfl
  rw [hexec, hfind, lanesNoted, hnone, if_neg (by decide)]
  rfl

end

/-- An uncorrectable byte sets the bank's cause (R642). -/
theorem on_eccNote_ue (d : Dev) (b off slot : Nat) : (eccNote d b off slot 2).on ME_BCAUSE_UE b = true := by
  have hapart : ME_BERR.addr b ≠ ME_BCAUSE.addr b := by simp only [Reg.addr, ME_BERR, ME_BCAUSE]; omega
  unfold eccNote
  dsimp only
  rw [if_neg (by decide), if_neg (by decide), Dev.on_setF_other (F := ME_BERR_SRC) (G := ME_BCAUSE_UE) _ _ hapart,
    Dev.on_setF_other (F := ME_BERR_UE) (G := ME_BCAUSE_UE) _ _ hapart,
    Dev.on_setF_other (F := ME_BERR_LANE) (G := ME_BCAUSE_UE) _ _ hapart,
    Dev.on_setF_other (F := ME_BERR_ADDR) (G := ME_BCAUSE_UE) _ _ hapart]
  exact Dev.on_set1 _ _ _ (by decide) (by decide)

theorem on_eccNotes_ue (d : Dev) (b off slot : Nat) {n : Nat} {l : List (Nat × Nat)} (hlen : l.length = n) (hn : 0 < n)
    (hdoubt : ∀ x ∈ l, x.2 = 2) :
    ((List.range n).foldl (fun d j => eccNote d b (off + j) slot ((l[j]?).getD (0, 0)).2) d).on ME_BCAUSE_UE b = true := by
  obtain ⟨m, rfl⟩ := Nat.exists_eq_succ_of_ne_zero hn.ne'
  rw [List.range_succ, List.foldl_append, List.foldl_cons, List.foldl_nil, lane_getD hdoubt (by omega)]
  exact on_eccNote_ue ..

/-! ### The statement -/

/-- An aligned access stays within its word. -/
theorem access_fits {a n : Nat} (hn : n = 1 ∨ n = 2 ∨ n = 4) (halign : a % n = 0) (v : Nat) :
    a % 4 + (leBytes n v).length ≤ 4 := by
  rw [leBytes_length]
  rcases hn with rfl | rfl | rfl <;> omega

theorem sramPut_dev (s : State) (k o : Nat) (bs : List Nat) : (sramPut s k o bs).dev = s.dev := by
  unfold sramPut
  split <;> simp

/-- Lanes are read from the memory alone. -/
theorem sramLanes_congr {s t : State} (h : t.mem = s.mem) (k o n : Nat) : sramLanes t k o n = sramLanes s k o n := by
  have hmb (j : Nat) : t.mb j = s.mb j := by rw [State.mb, h]; rfl
  simp only [sramLanes, hmb]

section
variable {s : State} {a b : Nat} (n v slot : Nat) (hbank : sramBank a = some b)
include hbank

/-- The store puts the bytes into the word where it lies (R639, R640). -/
theorem sramWrite_mem : (sramWrite s b a n v slot).mem =
    (sramPut (s.onDev fun d => arb d b slot) (wordKey s.dev b a) (a % 4) (leBytes n v)).mem := by
  have hkey := wordKey_arb s.dev (sramBank_bounds hbank).1 a slot
  unfold sramWrite
  dsimp only
  rw [show (s.onDev fun d => arb d b slot).dev = arb s.dev b slot from rfl, hkey]
  split <;> rfl

/-- And every word stays where it is. -/
theorem sramWrite_wordKey : wordKey (sramWrite s b a n v slot).dev b a = wordKey s.dev b a := by
  have hkey := wordKey_arb s.dev (sramBank_bounds hbank).1 a slot
  unfold sramWrite
  dsimp only
  split
  · refine Eq.trans (b := wordKey (sramPut (s.onDev fun d => arb d b slot) _ (a % 4) (leBytes n v)).dev b a) rfl ?_
    rw [sramPut_dev]; exact hkey
  · rw [sramPut_dev]; exact hkey

/-- The lanes that a read in state t judges. -/
theorem lanes_read (t : State) : sramLanes (t.onDev fun d => arb d b slot) (wordKey (arb t.dev b slot) b a) (a % 4) n
    = sramLanes t (wordKey t.dev b a) (a % 4) n := by
  rw [wordKey_arb t.dev (sramBank_bounds hbank).1 a slot]
  exact sramLanes_congr rfl ..

end

/-- A read of what was stored gives it, without an error. -/
theorem sramRead_sramWrite {s : State} {a b n : Nat} (slot : Nat) {v : Nat} (hbank : sramBank a = some b)
    (hn : n = 1 ∨ n = 2 ∨ n = 4) (halign : a % n = 0) (hv : v < 2 ^ (8 * n)) :
    ∃ u, sramRead (sramWrite s b a n v slot) b a n slot = (.ok v, u) ∧ u.mem = (sramWrite s b a n v slot).mem := by
  have hfits := access_fits hn halign v
  have hlanes : sramLanes (sramWrite s b a n v slot) (wordKey s.dev b a) (a % 4) n = (leBytes n v).map fun b => (b, 0) := by
    have hstored := sramLanes_stored (s.onDev fun d => arb d b slot) (k := wordKey s.dev b a) hfits fun _ => leBytes_lt
    rw [leBytes_length] at hstored
    exact (sramLanes_congr (sramWrite_mem n v slot hbank) ..).trans hstored
  have hread := lanes_read n slot hbank (sramWrite s b a n v slot)
  rw [sramWrite_wordKey n v slot hbank, hlanes] at hread
  have hvalue : leNat (((leBytes n v).map fun b => (b, 0)).map fun x : Nat × Nat => x.1) = v := by
    rw [List.map_map, show ((fun x : Nat × Nat => x.1) ∘ fun b => (b, 0)) = id from rfl, List.map_id, leNat_leBytes,
      Nat.mod_eq_of_lt hv]
  exact ⟨_, (sramRead_clean hread (by simp)).trans (by rw [hvalue]), State.onDev_mem ..⟩

/-- Settles O36: a store leaves the bytes with check bits of their own, which the read of the same lanes finds clean. -/
theorem sramWords : Obligations.SramWords := by
  unfold Obligations.SramWords
  intro s b a n slot hbank hn halign key valid
  obtain ⟨hkey4, hkey⟩ := wordKey_bounds (d := s.dev) hbank
  refine ⟨fun v hv => ⟨sramRead_sramWrite slot hbank hn halign hv, fun k hk4 hk hne j hj => ?other⟩, fun hinvalid => ?invalid,
    fun hdoubt => ?doubtful⟩
  case other =>
    have hmem := sramWrite_mem (s := s) n v slot hbank
    have hsame := mb_sramPut_other (s.onDev fun d => arb d b slot) (k := wordKey s.dev b a) (access_fits hn halign v) (j := k + j)
      (by omega) (by have : k ≠ wordKey s.dev b a := hne; omega)
    rw [State.mb, hmem]
    exact hsame
  case invalid =>
    have hlanes := sramLanes_invalid (s := s) (a % 4) n hinvalid
    have hread := sramRead_clean (lanes_read n slot hbank s) fun x hx => by rw [hlanes x hx]
    have hvalue : leNat ((sramLanes s (wordKey s.dev b a) (a % 4) n).map fun x => x.1) = 0 :=
      leNat_zeros _ fun x hx => by
        obtain ⟨y, hy, rfl⟩ := List.mem_map.1 hx
        rw [hlanes y hy]
    rw [hvalue] at hread
    refine ⟨_, hread, State.onDev_mem .., r_arb _ _ _ (arbStat_apart b ?_)⟩
    have := (sramBank_bounds hbank).1
    simp only [Reg.addr, ME_BCNT]; omega
  case doubtful =>
    have hlanes := sramLanes_doubtful (s := s) (a % 4) n hdoubt
    have hpos : 0 < n := by omega
    have hread := lanes_read n slot hbank s
    exact ⟨_, sramRead_doubtful hread hpos hlanes, State.onDev_mem .., on_eccNotes_ue _ _ _ _ (lanes_length hread) hpos hlanes⟩

end Sys2Proof.Machine
end

section
/-! PROOF. Opcodes that read or write registers of one unit (R399, R440, R441, R460). -/

namespace Sys2Proof.Machine

/-! ### What an opcode's function gives, and what its command then answers -/

/-- A command carries out the packet taken next by the function of its opcode. -/
theorem serve_leads {i : Instr} {op : Nat} {f : OpFn} (hexec : ∀ s, exec i s = serve op f s) (hop : op < 0x100) {s : State}
    {k : Packet} (hserves : Serves s op k) : Leads i s (settleOp k (f k (taken s k))) :=
  (hexec s).trans (serve_next hserves hop f)

theorem opWrites_done (s : State) (l : List (Reg × Nat × Word)) : ∃ st t, opWrites s l = (.done st [], t) := by
  unfold opWrites
  split
  · exact ⟨_, _, rfl⟩
  · exact ⟨_, _, rfl⟩
  · exact ⟨_, _, rfl⟩

section
variable {i : Instr} {s : State} {k : Packet}

/-- An opcode that writes registers answers with the status of its writes. -/
theorem repliesWrites_of_leads {l : List (Reg × Nat × Word)} (h : Leads i s (settleOp k (opWrites (taken s k) l))) :
    RepliesWrites i s k l := by
  obtain ⟨st, t, hdone⟩ := opWrites_done (taken s k) l
  rw [hdone] at h
  exact ⟨st, t, hdone, h⟩

/-- An opcode that reads registers answers with their words. -/
theorem repliesReads_of_leads {l : List (Reg × Nat)} (h : Leads i s (settleOp k (opReads (taken s k) l))) :
    RepliesReads i s k l := by
  unfold opReads at h
  unfold RepliesReads
  split
  next heq => rw [heq] at h; exact h
  next heq => rw [heq] at h; exact h

variable {x : OpOut × State}

/-- The count of parameter bytes is the table's, or the packet is BAD_PARAM. -/
theorem needLen_cases {m : Nat} (h : Leads i s (settleOp k (needLen k (taken s k) m x))) :
    (k.params.length ≠ m → Replies i s k stBadParam [] (taken s k)) ∧ (k.params.length = m → Leads i s (settleOp k x)) := by
  unfold needLen at h
  exact ⟨fun hne => by rw [if_neg hne] at h; exact h, fun heq => by rwa [if_pos heq] at h⟩

/-- The packet is of the partition named, or it is DENIED (R399). -/
theorem needPart_cases {p : Nat} (h : Leads i s (settleOp k (needPart k (taken s k) p x))) :
    (k.part ≠ p → Denies i s k (p, false)) ∧ (k.part = p → Leads i s (settleOp k x)) := by
  unfold needPart at h
  exact ⟨fun hne => by rw [if_neg hne] at h; exact h, fun heq => by rwa [if_pos heq] at h⟩

/-- The unit named is one of n, and the packet's own, or the packet is turned away (R399). -/
theorem needOwner_cases {r n : Nat} {owner : Dev → Nat → Nat × Bool}
    (h : Leads i s (settleOp k (needOwner k (taken s k) r n owner false x))) :
    (n ≤ r → Replies i s k stBadParam [] (taken s k))
    ∧ (r < n → ((owner (taken s k).dev r).1 ≠ k.part → Denies i s k (owner (taken s k).dev r))
        ∧ ((owner (taken s k).dev r).1 = k.part → Leads i s (settleOp k x))) := by
  unfold needOwner at h
  refine ⟨fun hout => by rw [if_pos hout] at h; exact h, fun hin => ?_⟩
  rw [if_neg (Nat.not_le.2 hin)] at h
  exact ⟨fun hne => by rw [if_neg (by simp [hne])] at h; exact h, fun heq => by rwa [if_pos (by simp [heq])] at h⟩

end

/-- An opcode of m parameter bytes whose first names a unit of n. -/
def unitOp (m n : Nat) (owner : Dev → Nat → Nat × Bool) (g : Packet → State → Nat → OpOut × State) : OpFn := fun k s =>
  needLen k s m (needOwner k s (par k 0 1) n owner false (g k s (par k 0 1)))

/-- Such an opcode is carried out for a packet of the unit's owner. -/
theorem ownOpcode_of_serve {i : Instr} {op m n : Nat} {owner : Dev → Nat → Nat × Bool} {g : Packet → State → Nat → OpOut × State}
    {P : State → Packet → Nat → Prop} (hexec : ∀ s, exec i s = serve op (unitOp m n owner g) s) (hop : op < 0x100)
    (hP : ∀ s k r, Leads i s (settleOp k (g k (taken s k) r)) → P s k r) : OwnOpcode i op m n owner P := by
  intro s k hserves
  obtain ⟨hlen, hgood⟩ := needLen_cases (serve_leads hexec hop hserves)
  refine ⟨fun hbad => ?_, fun hm hin => ?_⟩
  · by_cases hm : k.params.length = m
    · exact (needOwner_cases (hgood hm)).1 (hbad.resolve_left (not_not.2 hm))
    · exact hlen hm
  · obtain ⟨hother, hown⟩ := (needOwner_cases (hgood hm)).2 hin
    exact ⟨hother, fun ho => hP s k _ (hown ho)⟩

theorem ownWrites {i : Instr} {op n : Nat} {owner : Dev → Nat → Nat × Bool} {l : List Reg} (hop : op < 0x100)
    (hexec : ∀ s, exec i s = serve op (unitOp (1 + 4 * l.length) n owner fun k s r => opWrites s (parRegs k 1 r l)) s) :
    OwnOpcode i op (1 + 4 * l.length) n owner fun s k r => RepliesWrites i s k (parRegs k 1 r l) :=
  ownOpcode_of_serve hexec hop fun _ _ _ => repliesWrites_of_leads

theorem ownReads {i : Instr} {op n : Nat} {owner : Dev → Nat → Nat × Bool} {l : List Reg} (hop : op < 0x100)
    (hexec : ∀ s, exec i s = serve op (unitOp 1 n owner fun _ s r => opReads s (l.map fun R => (R, r))) s) :
    OwnOpcode i op 1 n owner fun s k r => RepliesReads i s k (l.map fun R => (R, r)) :=
  ownOpcode_of_serve hexec hop fun _ _ _ => repliesReads_of_leads

/-- An opcode that writes registers without copies is carried out for the partition that may. -/
theorem devWrites {i : Instr} {op : Nat} {owner : Dev → Nat} {l : List Reg} (hop : op < 0x100)
    (hexec : ∀ s, exec i s = serve op (opDevRegs owner l) s) (s : State) (k : Packet) (hserves : Serves s op k) :
    (k.params.length ≠ 4 * l.length → Replies i s k stBadParam [] (taken s k))
    ∧ (k.params.length = 4 * l.length →
        (k.part ≠ owner (taken s k).dev → Denies i s k (owner (taken s k).dev, false))
        ∧ (k.part = owner (taken s k).dev → RepliesWrites i s k (parRegs k 0 0 l))) := by
  obtain ⟨hbad, hgood⟩ := needLen_cases (serve_leads hexec hop hserves)
  refine ⟨hbad, fun hlen => ?_⟩
  obtain ⟨hother, hown⟩ := needPart_cases (hgood hlen)
  exact ⟨hother, fun hp => repliesWrites_of_leads (hown hp)⟩

/-! ### The two opcodes that name units of others -/

/-- COUPLE_CONFIG names lanes of its own partition, or the first other one's owner is told (R399, R424). -/
theorem coupleConfig_own : OwnOpcode .coupleConfig 0x77 17 16 railOwner fun s k r =>
    let w := parW k 5
    let lane (p : Nat) : Nat × Bool := laneOwner (taken s k).dev (valOf w (IG_CPL_LNK_LANE p))
    let bad (p : Nat) : Prop := valOf w (IG_CPL_LNK_VALID p) ≠ 0 ∧ (lane p).1 ≠ k.part
    ((∀ p, p < 3 → ¬ bad p) →
      RepliesWrites .coupleConfig s k (parRegs k 1 r [IG_CPL, IG_CPL_LNK, IG_CPL_GAIN, IG_CPL_KI]))
    ∧ (∀ p, p < 3 → bad p → (∀ q, q < p → ¬ bad q) → Denies .coupleConfig s k (lane p)) := by
  refine ownOpcode_of_serve (g := fun k s r => match (List.range 3).find? fun p =>
      valOf (parW k 5) (IG_CPL_LNK_VALID p) != 0 && (laneOwner s.dev (valOf (parW k 5) (IG_CPL_LNK_LANE p))).1 != k.part with
    | some p => opDenied k s (laneOwner s.dev (valOf (parW k 5) (IG_CPL_LNK_LANE p)))
    | none => opWrites s (parRegs k 1 r [IG_CPL, IG_CPL_LNK, IG_CPL_GAIN, IG_CPL_KI])) (fun _ => rfl) (by decide)
    fun s k r hleads => ⟨fun hgood => repliesWrites_of_leads ?_, fun p hp hbad hfirst => ?_⟩
  · rwa [List.find?_eq_none.2 fun p hp => by simpa using hgood p (List.mem_range.1 hp)] at hleads
  · have hfind : ((List.range 3).find? fun p => valOf (parW k 5) (IG_CPL_LNK_VALID p) != 0
        && (laneOwner (taken s k).dev (valOf (parW k 5) (IG_CPL_LNK_LANE p))).1 != k.part) = some p :=
      List.find?_range_eq_some.2 ⟨by simpa using hbad, List.mem_range.2 hp, fun q hq => by simpa [or_iff_not_imp_left] using hfirst q hq⟩
    rw [hfind] at hleads
    exact hleads

/-- STORE_CONFIG names a rail of its own partition to sense (R399, R424). -/
theorem storeConfig_answers (s : State) (k : Packet) (hserves : Serves s 0x61 k) :
    let e := (taken s k).dev
    let sns := railOwner e (valOf (parW k 0) ST_CFG_SNS_RAIL)
    (k.params.length ≠ 44 → Replies .storeConfig s k stBadParam [] (taken s k))
    ∧ (k.params.length = 44 →
        (k.part ≠ storePartition e → Denies .storeConfig s k (storePartition e, false))
        ∧ (k.part = storePartition e → sns.1 ≠ k.part → Denies .storeConfig s k sns)
        ∧ (k.part = storePartition e → sns.1 = k.part → RepliesWrites .storeConfig s k (parRegs k 0 0
            [ST_CFG, ST_VLIM, ST_VLIM2, ST_CAPY, ST_ECAP, ST_ILIM, ST_TERM, ST_LOOP, ST_PER, ST_HOLD, ST_REINS]))) := by
  intro e sns
  obtain ⟨hbad, hgood⟩ := needLen_cases (serve_leads (i := .storeConfig) (f := opStoreConfig) (fun _ => rfl) (by decide) hserves)
  refine ⟨hbad, fun hlen => ?_⟩
  obtain ⟨hother, hown⟩ := needPart_cases (hgood hlen)
  refine ⟨hother, fun hp hsense => ?_, fun hp hsense => repliesWrites_of_leads ?_⟩
  · have hleads := hown hp
    dsimp only at hleads
    rw [if_pos hsense] at hleads
    exact hleads
  · have hleads := hown hp
    dsimp only at hleads
    rwa [if_neg (not_not.2 hsense)] at hleads

/-! ### The statement -/

/-- Settles O39: each command serves its opcode, whose function checks count and owner before it reads or writes. -/
theorem registerOpcodes : Obligations.RegisterOpcodes := by
  unfold Obligations.RegisterOpcodes
  intro writes reads device
  refine ⟨⟨?_, ?_, ?_, ?_, ?_, ?_, ?_, ?_, ?_, ?_, ?_, ?_, coupleConfig_own, ?_, ?_⟩, ⟨?_, ?_, ?_, ?_⟩, storeConfig_answers,
    ?_, ?_, ?_, ?_, ?_, ?_⟩
  · exact ownWrites (by decide) fun _ => rfl
  · exact ownWrites (by decide) fun _ => rfl
  · exact ownWrites (by decide) fun _ => rfl
  · exact ownWrites (by decide) fun _ => rfl
  · exact ownWrites (by decide) fun _ => rfl
  · exact ownWrites (by decide) fun _ => rfl
  · exact ownWrites (by decide) fun _ => rfl
  · exact ownWrites (by decide) fun _ => rfl
  · exact ownWrites (by decide) fun _ => rfl
  · exact ownWrites (by decide) fun _ => rfl
  · exact ownWrites (by decide) fun _ => rfl
  · exact ownWrites (by decide) fun _ => rfl
  · exact ownWrites (by decide) fun _ => rfl
  · exact ownWrites (by decide) fun _ => rfl
  · exact ownReads (by decide) fun _ => rfl
  · exact ownReads (by decide) fun _ => rfl
  · exact ownReads (by decide) fun _ => rfl
  · exact ownReads (by decide) fun _ => rfl
  · exact devWrites (by decide) fun _ => rfl
  · exact devWrites (by decide) fun _ => rfl
  · exact devWrites (owner := fun _ => 0) (by decide) fun _ => rfl
  · exact devWrites (owner := fun _ => 0) (by decide) fun _ => rfl
  · exact devWrites (owner := fun _ => 0) (by decide) fun _ => rfl
  · exact devWrites (owner := fun _ => 0) (by decide) fun _ => rfl

end Sys2Proof.Machine
end

section
/-! PROOF. FW_ABORT answers for the session of its parameter byte, whatever stands above the byte (R460). -/

namespace Sys2Proof.Machine

/-- A packet FW_ABORT whose one parameter is above a byte. -/
def wideAbort : Packet :=
  { stream := 0, op := 0xA5, flags := 0, part := 0, port := 0, seq := 0, params := [256], stamp := 0, sess := 0 }

/-- A machine at work in session 256 of partition 0, in whose ring that packet waits. -/
def wideSession : State :=
  { State.reset with
    dev := { ((State.reset.dev.set1 CP_STATUS_WARDEN).setH .svcOn 0 1).setH .fwSess 0 257 with rings := [wideAbort] } }

/-- The session that a command leaves. -/
def sessionLeft (o : Host.Outcome State Fault Refusal) : Option Nat :=
  match o with
  | .next t => some (t.dev.hn .fwSess)
  | _ => none

theorem wideAbort_served : Serves wideSession 0xA5 wideAbort := ⟨by decide +kernel, rfl, fun h => absurd h (by decide)⟩

/-- The packet names session 0 to the model, which therefore keeps the session. -/
theorem wideAbort_keeps : sessionLeft (exec .fwAbort wideSession) = some 257 := by decide +kernel

/-- The reply that ends the session would leave none. -/
theorem sessionEnd_leaves_none :
    sessionLeft (.next (((taken wideSession wideAbort).onDev fun d => d.setH .fwSess 0 0).onDev fun d =>
      opFinish d wideAbort stOk [])) = some 0 := by decide +kernel

/-- Refutes O41: of the parameter of FW_ABORT only the low byte names the session, so that a parameter of 256 in session 256 is
answered BAD_PARAM where the statement, which does not bound the parameter, has it end the session. -/
theorem not_opcodeReplies : ¬ Obligations.OpcodeReplies := by
  unfold Obligations.OpcodeReplies
  intro h
  obtain ⟨-, -, -, -, -, -, -, -, -, -, habort⟩ := h wideSession wideAbort
  obtain ⟨hends, -⟩ := habort 256 wideAbort_served rfl
  have hleads := hends (by decide +kernel) (by decide +kernel)
  have hsame := congrArg sessionLeft hleads
  rw [wideAbort_keeps] at hsame
  exact absurd (hsame.trans sessionEnd_leaves_none) (by decide)

end Sys2Proof.Machine
end

section
/-! PROOF. What reads of PMBus standard commands return (R448): the warden carries the command out at once, in a device that
reads as the one before. -/

namespace Sys2Proof.Machine

/-! ### A device that reads the same -/

/-- The second device gives the readings of the first: all registers but CP_STATUS, the page, and the next free value. -/
structure SameReadings (d e : Dev) : Prop where
  regs : ∀ (R : Reg) (i : Nat), R.addr i ≠ CP_STATUS.addr 0 → e.r R i = d.r R i
  page : e.hn .pmbPage = d.hn .pmbPage
  fresh : e.fresh = d.fresh

theorem SameReadings.refl (d : Dev) : SameReadings d d := ⟨fun _ _ _ => rfl, rfl, rfl⟩

theorem SameReadings.trans {d e x : Dev} (h : SameReadings d e) (h' : SameReadings e x) : SameReadings d x :=
  ⟨fun R i hR => (h'.regs R i hR).trans (h.regs R i hR), h'.page.trans h.page, h'.fresh.trans h.fresh⟩

theorem SameReadings.regs_f {d e : Dev} (h : SameReadings d e) (F : Fld) (i : Nat) (hF : F.reg.addr i ≠ CP_STATUS.addr 0) :
    e.f F i = d.f F i := by
  rw [Dev.f, h.regs F.reg i hF, Dev.f]

theorem SameReadings.regs_on {d e : Dev} (h : SameReadings d e) (F : Fld) (i : Nat) (hF : F.reg.addr i ≠ CP_STATUS.addr 0) :
    e.on F i = d.on F i := by
  rw [Dev.on, h.regs_f F i hF, Dev.on]

theorem sameReadings_setBit (d : Dev) (b : Nat) (v : Bool) : SameReadings d (d.setBit CP_STATUS_RINGS 0 b v) :=
  ⟨fun _ _ hR => Dev.r_setR_other d _ hR.symm, rfl, rfl⟩

theorem sameReadings_rings (d : Dev) (l : List Packet) : SameReadings d { d with rings := l } := ⟨fun _ _ _ => rfl, rfl, rfl⟩

theorem sameReadings_cpServed (d : Dev) (x : Int) : SameReadings d (d.setH .cpServed 0 x) :=
  ⟨fun _ _ _ => rfl, congrArg Int.toNat (Dev.h_setH_other d x (.inl (by decide))), rfl⟩

theorem sameReadings_ringPop (d : Dev) (k : Packet) : SameReadings d (ringPop d k) :=
  ((sameReadings_rings d (d.rings.erase k)).trans (sameReadings_cpServed _ (k.part + 1))).trans (sameReadings_setBit ..)

/-! ### The packet of a standard command is served at once (R438, R448) -/

/-- The packet of a read of a standard command. -/
def stdPacket (d : Dev) (code : Nat) : Packet :=
  { stream := 36, op := 0x100 + code, flags := 1, part := d.f CP_CFG_STDPART, port := 0, seq := 0, params := [0], stamp := d.now,
    sess := 0 }

/-- The device in which it waits alone, and the one in which the warden has taken it. -/
def stdWaits (d : Dev) (code : Nat) : Dev :=
  ({ d with rings := [stdPacket d code] } : Dev).setBit CP_STATUS_RINGS 0 (d.f CP_CFG_STDPART) true
def stdTaken (d : Dev) (code : Nat) : Dev := ringPop (stdWaits d code) (stdPacket d code)

theorem stdWaits_same (d : Dev) (code : Nat) : SameReadings d (stdWaits d code) :=
  (sameReadings_rings d _).trans (sameReadings_setBit ..)

theorem stdTaken_same (d : Dev) (code : Nat) : SameReadings d (stdTaken d code) :=
  (stdWaits_same d code).trans (sameReadings_ringPop ..)

theorem stdTaken_rings (d : Dev) (code : Nat) : (stdTaken d code).rings = [] :=
  List.erase_cons_head ..

/-- The ring of a packet that waits alone is the next one. -/
theorem nextRing_single {d : Dev} {k : Packet} (h : d.rings = [k]) (hp : k.part < 8) : nextRing d = some k.part := by
  unfold nextRing
  rw [h]
  cases hfind : ((List.range 8).map fun j => (d.hn .cpServed 0 + j) % 8).find? fun p => [k].any fun k => k.part == p with
  | some p =>
    have hpart := List.find?_some hfind
    simp only [List.any_cons, List.any_nil, Bool.or_false, beq_iff_eq] at hpart
    rw [hpart]
  | none =>
    rw [List.find?_eq_none] at hfind
    refine absurd ?_ (hfind k.part (List.mem_map.2 ⟨(k.part + 8 - d.hn .cpServed 0 % 8) % 8, List.mem_range.2 (by omega), ?_⟩))
    · simp
    · omega

theorem wardenRuns_stdWaits (d : Dev) (code : Nat) : wardenRuns (stdWaits d code) = wardenRuns d := by
  have hwarden : (stdWaits d code).on CP_STATUS_WARDEN = d.on CP_STATUS_WARDEN :=
    Dev.on_setF_beside (F := CP_STATUS_RINGS) (G := CP_STATUS_WARDEN) _ _ rfl (by decide) (by decide)
  have hstate : (stdWaits d code).f PD_STATE_STATE = d.f PD_STATE_STATE :=
    f_setBit_other (F := CP_STATUS_RINGS) (G := PD_STATE_STATE) _ _ _ (by decide)
  have hdom : domOn (stdWaits d code) 0 = domOn d 0 :=
    congrArg (fun x => Nat.testBit x 0) (f_setBit_other (F := CP_STATUS_RINGS) (G := PD_ONA_DOM) (i := 0) (j := 0) _ _ _ (by decide))
  have hh (v : Hid) : (stdWaits d code).hon v = d.hon v := rfl
  simp only [wardenRuns, portsRun, coreRuns, hwarden, hstate, hdom, hh, Nat.lt_irrefl, if_false]

theorem nextPacket_stdWaits {d : Dev} (code : Nat) (hruns : wardenRuns d = true) (hheld : d.held = none)
    (hpart : d.f CP_CFG_STDPART < 8) : nextPacket (stdWaits d code) = some (stdPacket d code) := by
  have hrings : (stdWaits d code).rings = [stdPacket d code] := rfl
  have hheld' : (stdWaits d code).held = none := hheld
  have hring : nextRing (stdWaits d code) = some (stdPacket d code).part := nextRing_single hrings hpart
  unfold nextPacket
  rw [wardenRuns_stdWaits, hruns, hheld', if_neg (by decide), hring, Option.bind_some, ringHead, hrings]
  simp

/-- The packet, carried out by the warden, leaves what its command reads. -/
theorem stdRun_read {s t : State} {code : Nat} {b : List Nat} (hcode : code < 0x100)
    (hrun : stdOf code (stdPacket s.dev code) none { s with dev := stdTaken s.dev code } = (some b, t)) :
    stdRun (stdPacket s.dev code) { s with dev := stdWaits s.dev code } = t.onDev fun d => { d with portOut := b } := by
  have hop : (stdPacket s.dev code).op % 256 = code := by
    show (0x100 + code) % 256 = code
    omega
  have hpar : par (stdPacket s.dev code) 0 1 = 0 := rfl
  have htaken : (State.onDev { s with dev := stdWaits s.dev code } fun d => ringPop d (stdPacket s.dev code))
      = { s with dev := stdTaken s.dev code } := rfl
  unfold stdRun
  simp only [hpar, if_true, hop]
  rw [htaken, hrun]

/-- The warden serves it and goes no further. -/
theorem serveTo_stdPacket {s t : State} {code : Nat} (hnext : nextPacket s.dev = some (stdPacket t.dev code))
    (hwaits : s.dev.rings = [stdPacket t.dev code]) {u : State} (hrun : stdRun (stdPacket t.dev code) s = u)
    (hu : u.dev.rings = []) : serveTo (stdPacket t.dev code) (s.dev.rings.length + 1) s = u := by
  have hstep : wardenStep s = some u := by
    have hop : 0x100 ≤ (stdPacket t.dev code).op := Nat.le_add_right ..
    unfold wardenStep
    rw [hnext, Option.map_some, if_pos hop, hrun]
  have hfuel : s.dev.rings.length + 1 = 1 + 1 := by rw [hwaits]; rfl
  rw [hfuel, serveTo, hwaits, if_neg (by simp), hstep]
  dsimp only
  rw [serveTo, hu]
  rfl

/-- A read of a standard command that the port takes is carried out on the device from which its packet has been taken. -/
theorem stdSubmit_read {s t : State} {code : Nat} {b : List Nat} (hcode : code < 0x100) (hruns : wardenRuns s.dev = true)
    (hheld : s.dev.held = none) (hrings : s.dev.rings = []) (hpart : s.dev.f CP_CFG_STDPART < 8)
    (hports : (portsOf s.dev (s.dev.f CP_CFG_STDPART)).testBit 0 = true) (hstate : s.dev.f PD_STATE_STATE ≠ 1)
    (hrun : stdOf code (stdPacket s.dev code) none { s with dev := stdTaken s.dev code } = (some b, t)) (ht : t.dev.rings = []) :
    stdSubmit code [0] s = t.onDev fun d => { d with portOut := b } := by
  have hquiet : quietWake (stdWaits s.dev code) = stdWaits s.dev code :=
    if_neg (by rw [(stdWaits_same s.dev code).regs_f PD_STATE_STATE 0 (by decide)]; exact hstate)
  have hsubmitted : (s.onDev fun d => quietWake (({ d with rings := d.rings ++ [stdPacket s.dev code] } : Dev).setBit
      CP_STATUS_RINGS 0 (s.dev.f CP_CFG_STDPART) true)) = { s with dev := stdWaits s.dev code } := by
    rw [State.onDev, hrings, List.nil_append]
    exact congrArg (fun d => { s with dev := d }) hquiet
  have hserved : serveTo (stdPacket s.dev code) ((s.onDev fun d => quietWake (({ d with rings := d.rings ++ [stdPacket s.dev code] } :
      Dev).setBit CP_STATUS_RINGS 0 (s.dev.f CP_CFG_STDPART) true)).dev.rings.length + 1) (s.onDev fun d =>
        quietWake (({ d with rings := d.rings ++ [stdPacket s.dev code] } : Dev).setBit CP_STATUS_RINGS 0 (s.dev.f CP_CFG_STDPART) true))
      = t.onDev fun d => { d with portOut := b } := by
    rw [hsubmitted]
    exact serveTo_stdPacket (s := { s with dev := stdWaits s.dev code }) (t := s)
      (nextPacket_stdWaits code hruns hheld hpart) rfl (stdRun_read hcode hrun) ht
  have hallowed : ¬ (!(portsOf s.dev (s.dev.f CP_CFG_STDPART)).testBit 0) = true := by rw [hports]; decide
  have hroom : ¬ 16 ≤ (s.dev.rings.filter fun q => q.part == s.dev.f CP_CFG_STDPART).length := by
    rw [hrings, List.filter_nil]
    decide
  refine (if_neg hallowed).trans ((if_neg hroom).trans ((if_neg ?_).trans hserved))
  refine fun hleft => absurd ((Bool.and_eq_true_iff.1 hleft).2) ?_
  refine fun hin => absurd ((congrArg (fun u : State => u.dev.rings.contains (stdPacket s.dev code)) hserved).symm.trans hin) ?_
  show ¬ t.dev.rings.contains (stdPacket s.dev code) = true
  rw [ht]
  exact Bool.false_ne_true

/-! ### The registers that the readings use lie apart from CP_STATUS -/

/-- A register whose copies lie whole blocks of 256 bytes apart never has the address of CP_STATUS. -/
@[reducible] def Aside (R : Reg) : Prop := R.n2 = 1 ∧ R.s1 % 0x100 = 0 ∧ R.base % 0x100 ≠ 4

theorem Aside.addr_ne {R : Reg} (h : Aside R) (i : Nat) : R.addr i ≠ CP_STATUS.addr 0 := by
  obtain ⟨hn, hs, hb⟩ := h
  have hat : R.addr i = R.base + i * R.s1 := by
    rw [Reg.addr, hn, Nat.div_one, Nat.mod_one, Nat.zero_mul, Nat.add_zero]
  have hstride : i * R.s1 % 0x100 = 0 := by rw [Nat.mul_mod, hs, Nat.mul_zero, Nat.zero_mod]
  show R.addr i ≠ 0x400A0004
  omega

theorem SameReadings.f {d e : Dev} (h : SameReadings d e) {F : Fld} (hF : Aside F.reg) (i : Nat) : e.f F i = d.f F i :=
  h.regs_f F i (hF.addr_ne i)

theorem SameReadings.on {d e : Dev} (h : SameReadings d e) {F : Fld} (hF : Aside F.reg) (i : Nat) : e.on F i = d.on F i :=
  h.regs_on F i (hF.addr_ne i)

theorem SameReadings.fi {d e : Dev} (h : SameReadings d e) {F : Fld} (hF : Aside F.reg) (i : Nat) : e.fi F i = d.fi F i := by
  rw [Dev.fi, h.f hF, Dev.fi]

theorem SameReadings.r {d e : Dev} (h : SameReadings d e) {R : Reg} (hR : Aside R) (i : Nat) : e.r R i = d.r R i :=
  h.regs R i (hR.addr_ne i)

/-! ### Readings that agree -/

theorem SameReadings.railOwner {d e : Dev} (h : SameReadings d e) (r : Nat) : railOwner e r = railOwner d r := by
  have hword (i : Nat) : e.r CH_CHARTER i = d.r CH_CHARTER i := h.regs _ _ (by
    show 0x40090200 + i / 64 * 0 + i % 64 * 4 ≠ 0x400A0004
    omega)
  simp only [Machine.railOwner, chOwner, chByte, hword]
  rfl

theorem SameReadings.domPhases {d e : Dev} (h : SameReadings d e) (k : Nat) : domPhases e k = domPhases d k := by
  have hdom (n : Nat) : phDom e n = phDom d n := by
    simp (disch := decide) only [phDom, h.f]
  simp only [Machine.domPhases, hdom]

theorem SameReadings.statusVout {d e : Dev} (h : SameReadings d e) (r : Nat) : statusVout e r = statusVout d r := by
  simp (disch := decide) only [Machine.statusVout, h.on]

theorem SameReadings.statusIout {d e : Dev} (h : SameReadings d e) (r : Nat) : statusIout e r = statusIout d r := by
  simp (disch := decide) only [Machine.statusIout, h.on, h.domPhases]

theorem SameReadings.statusInput {d e : Dev} (h : SameReadings d e) : statusInput e = statusInput d := by
  simp (disch := decide) only [Machine.statusInput, h.on, h.f]

theorem SameReadings.descByte {d e : Dev} (h : SameReadings d e) (n : Nat) : descByte e n 0x34 = descByte d n 0x34 := by
  rw [Machine.descByte, h.regs PH_DESC _ (by
    show 0x4001A000 + (n * 32 + 13) / 32 * 0x100 + (n * 32 + 13) % 32 * 4 ≠ 0x400A0004
    omega), Machine.descByte]

theorem SameReadings.statusTemp {d e : Dev} (h : SameReadings d e) (r : Nat) : statusTemp e r = statusTemp d r := by
  simp (disch := decide) only [Machine.statusTemp, h.f, h.on, h.fi, h.domPhases, h.descByte]

theorem SameReadings.statusWord {d e : Dev} (h : SameReadings d e) (r : Nat) : statusWord e r = statusWord d r := by
  simp (disch := decide) only [Machine.statusWord, rlState, h.f, h.on, h.r, h.statusVout, h.statusIout, h.statusTemp, h.statusInput]
  rfl

theorem SameReadings.voutRead {d e : Dev} (h : SameReadings d e) (r : Nat) : voutRead e r = voutRead d r := by
  have hlast : e.r TC_LAST (d.f CP_VOUTMAP_CONV r * 16 + d.f CP_VOUTMAP_STEP r)
      = d.r TC_LAST (d.f CP_VOUTMAP_CONV r * 16 + d.f CP_VOUTMAP_STEP r) := by
    have hconv : d.f CP_VOUTMAP_CONV r < 8 := bitsOf_lt ..
    have hstep : d.f CP_VOUTMAP_STEP r < 16 := bitsOf_lt ..
    refine h.regs _ _ ?_
    show 0x40080100 + (d.f CP_VOUTMAP_CONV r * 16 + d.f CP_VOUTMAP_STEP r) / 16 * 0x400
      + (d.f CP_VOUTMAP_CONV r * 16 + d.f CP_VOUTMAP_STEP r) % 16 * 4 ≠ 0x400A0004
    omega
  simp (disch := decide) only [Machine.voutRead, h.f, h.on, hlast]

theorem SameReadings.voutWord {d e : Dev} (h : SameReadings d e) (r : Nat) : voutWord e r = voutWord d r := by
  simp only [Machine.voutWord, h.voutRead]

theorem SameReadings.hottest {d e : Dev} (h : SameReadings d e) (r : Nat) : (hottest e r).1 = (hottest d r).1 := by
  unfold Machine.hottest
  rw [h.domPhases]
  cases Machine.domPhases d r with
  | nil => simp only [Dev.free, h.fresh]
  | cons n t => simp (disch := decide) only [h.fi]

/-- The hottest stage takes at most a free value. -/
theorem hottest_rings (d : Dev) (r : Nat) : (hottest d r).2.rings = d.rings := by
  unfold hottest
  cases domPhases d r <;> rfl

/-! ### The commands -/

/-- The port and the warden serve, no packet waits, and the partition of the standard commands may use the port. -/
structure StdServes (s : State) : Prop where
  on : pmbOn s.dev = true
  runs : wardenRuns s.dev = true
  held : s.dev.held = none
  rings : s.dev.rings = []
  part : s.dev.f CP_CFG_STDPART < 8
  ports : (portsOf s.dev (s.dev.f CP_CFG_STDPART)).testBit 0 = true
  state : s.dev.f PD_STATE_STATE ≠ 1

/-- What a read leaves at the port, with no packet waiting and the memory as it was. -/
@[reducible] def StdAnswers (s : State) (x : (PmbOp → Instr) × List Nat) : Prop :=
  Does (x.1 .read) s fun t => t.dev.portOut = x.2 ∧ t.dev.rings = [] ∧ t.mem = s.mem

/-- A standard command answers what its code gives on any device that reads the same. -/
theorem stdAnswers_of_stdOf {s : State} (hs : StdServes s) {mk : PmbOp → Instr} {b : List Nat} (code : Nat) (hcode : code < 0x100)
    (hstd : IsStd (mk, code)) (hof : ∀ e, SameReadings s.dev e → ∃ e', e'.rings = e.rings
      ∧ stdOf code (stdPacket s.dev code) none { s with dev := e } = (some b, { s with dev := e' })) : StdAnswers s (mk, b) := by
  obtain ⟨e', hrings, hrun⟩ := hof _ (stdTaken_same s.dev code)
  have hnone : e'.rings = [] := hrings.trans (stdTaken_rings s.dev code)
  refine ⟨_, (hstd .read s).trans (std_on hs.on code .read), ?_⟩
  dsimp only
  rw [stdSubmit_read hcode hs.runs hs.held hs.rings hs.part hs.ports hs.state hrun hnone]
  exact ⟨rfl, hnone, rfl⟩

/-- A command that reads the device. -/
theorem stdAnswers_dev {s : State} (hs : StdServes s) {mk : PmbOp → Instr} (code : Nat) (hcode : code < 0x100)
    (hstd : IsStd (mk, code)) {g : Dev → List Nat} (hof : stdOf code = stdRead fun s => (g s.dev, s))
    (hg : ∀ {e}, SameReadings s.dev e → g e = g s.dev) : StdAnswers s (mk, g s.dev) := by
  refine stdAnswers_of_stdOf hs code hcode hstd fun e he => ⟨e, rfl, ?_⟩
  rw [hof, ← hg he]
  rfl

/-- A command that answers the same bytes always. -/
theorem stdAnswers_const {s : State} (hs : StdServes s) {mk : PmbOp → Instr} (code : Nat) (hcode : code < 0x100)
    (hstd : IsStd (mk, code)) {b : List Nat} (hof : stdOf code = stdRead fun s => (b, s)) : StdAnswers s (mk, b) :=
  stdAnswers_dev hs (g := fun _ => b) code hcode hstd hof fun _ => rfl

/-- The rail of the page is the packet's own. -/
theorem railOwner_page {s : State} (howner : (railOwner s.dev (s.dev.hn .pmbPage)).1 = s.dev.f CP_CFG_STDPART) {e : Dev}
    (he : SameReadings s.dev e) (code : Nat) : (railOwner e (e.hn .pmbPage)).1 = (stdPacket s.dev code).part := by
  rw [he.page, he.railOwner, howner]
  rfl

section
variable {s : State} (hs : StdServes s) (howner : (railOwner s.dev (s.dev.hn .pmbPage)).1 = s.dev.f CP_CFG_STDPART)
include hs howner

/-- A reading of n bytes of the rail of the page. -/
theorem stdAnswers_railRead {mk : PmbOp → Instr} (code : Nat) (hcode : code < 0x100)
    (hstd : IsStd (mk, code)) {n : Nat} {g : Dev → Nat → Nat} (hof : stdOf code = stdRailRead n fun s r => (g s.dev r, s))
    (hg : ∀ {e}, SameReadings s.dev e → g e (s.dev.hn .pmbPage) = g s.dev (s.dev.hn .pmbPage)) :
    StdAnswers s (mk, leBytes n (g s.dev (s.dev.hn .pmbPage))) := by
  refine stdAnswers_of_stdOf hs code hcode hstd fun e he => ⟨e, rfl, ?_⟩
  rw [hof, ← hg he, ← he.page]
  exact if_pos (railOwner_page howner he code)

/-- READ_TEMPERATURE_1 takes a free value where the rail has no phase. -/
theorem readTemperature1_stdAnswers :
    StdAnswers s (.readTemperature1, leBytes 2 (linear11 (hottest s.dev (s.dev.hn .pmbPage)).1 16 (-4) 2)) := by
  refine stdAnswers_of_stdOf hs 0x8D (by decide) (fun _ _ => rfl) fun e he => ⟨_, hottest_rings e (s.dev.hn .pmbPage), ?_⟩
  rw [← he.hottest, ← he.page]
  exact if_pos (railOwner_page howner he 0x8D)

theorem operation_stdAnswers :
    StdAnswers s (.operation, [if s.dev.on RL_CTL_EN (s.dev.hn .pmbPage) then 0x80 else 0]) := by
  refine stdAnswers_of_stdOf hs 0x01 (by decide) (fun _ _ => rfl) fun e he => ⟨e, rfl, ?_⟩
  rw [← he.on (by decide), ← he.page]
  exact if_pos (railOwner_page howner he 0x01)

theorem voutCommand_stdAnswers :
    StdAnswers s (.voutCommand, leBytes 2 (roundDiv (s.dev.f FL_REF_TGT (s.dev.hn .pmbPage)
      * s.dev.f IG_COUT_VDIV (s.dev.hn .pmbPage) : Nat) 40).toNat) := by
  refine stdAnswers_of_stdOf hs 0x21 (by decide) (fun _ _ => rfl) fun e he => ⟨e, rfl, ?_⟩
  rw [← he.f (by decide), ← he.f (F := IG_COUT_VDIV) (by decide), ← he.page]
  exact if_pos (railOwner_page howner he 0x21)

end

/-- Settles O42: the warden carries out the read of a port that serves at once, in a device that reads the same. -/
theorem standardReadings : Obligations.StandardReadings := by
  unfold Obligations.StandardReadings
  intro s d r hon hruns hheld hrings hpart hports howner hstate
  have hs : StdServes s := ⟨hon, hruns, hheld, hrings, hpart, hports, hstate⟩
  suffices h : ∀ x ∈ _, StdAnswers s x from h
  simp only [List.forall_mem_cons, List.not_mem_nil, false_imp_iff, implies_true, and_true]
  refine ⟨?capability, ?voutMode, ?onOffConfig, ?revision, ?mfrId, ?mfrModel, ?page, ?operation, ?voutCommand, ?statusByte,
    ?statusWord, ?statusVout, ?statusIout, ?statusTemp, ?statusInput, ?statusCml, ?vin, ?iin, ?vout, ?iout, ?temp, ?pout⟩
  case capability => exact stdAnswers_const hs 0x19 (by decide) (fun _ _ => rfl) rfl
  case voutMode => exact stdAnswers_const hs 0x20 (by decide) (fun _ _ => rfl) rfl
  case onOffConfig => exact stdAnswers_of_stdOf hs 0x02 (by decide) (fun _ _ => rfl) fun e _ => ⟨e, rfl, rfl⟩
  case revision => exact stdAnswers_const hs 0x98 (by decide) (fun _ _ => rfl) rfl
  case mfrId => exact stdAnswers_const hs 0x99 (by decide) (fun _ _ => rfl) rfl
  case mfrModel => exact stdAnswers_const hs 0x9A (by decide) (fun _ _ => rfl) rfl
  case page =>
    refine stdAnswers_of_stdOf hs 0x00 (by decide) (fun _ _ => rfl) fun e he => ⟨e, rfl, ?_⟩
    exact congrArg (fun p => (some [p], ({ s with dev := e } : State))) he.page
  case operation => exact operation_stdAnswers hs howner
  case voutCommand => exact voutCommand_stdAnswers hs howner
  case statusByte => exact stdAnswers_railRead hs howner 0x78 (by decide) (fun _ _ => rfl) rfl fun he => he.statusWord r
  case statusWord => exact stdAnswers_railRead hs howner 0x79 (by decide) (fun _ _ => rfl) rfl fun he => he.statusWord r
  case statusVout => exact stdAnswers_railRead hs howner 0x7A (by decide) (fun _ _ => rfl) rfl fun he => he.statusVout r
  case statusIout => exact stdAnswers_railRead hs howner 0x7B (by decide) (fun _ _ => rfl) rfl fun he => he.statusIout r
  case statusTemp => exact stdAnswers_railRead hs howner 0x7D (by decide) (fun _ _ => rfl) rfl fun he => he.statusTemp r
  case statusInput =>
    exact stdAnswers_railRead hs howner (g := fun d _ => statusInput d) 0x7C (by decide) (fun _ _ => rfl) rfl fun he => he.statusInput
  case statusCml =>
    refine stdAnswers_dev hs (g := fun d => leBytes 1 (d.r CP_CML).toNat) 0x7E (by decide) (fun _ _ => rfl) rfl fun he => ?_
    rw [he.r (by decide)]
  case vin =>
    refine stdAnswers_dev hs (g := fun d => leBytes 2 (linear11 (d.f ST_VMEAS_VBUS) 1000 (-6) 0)) 0x88 (by decide) (fun _ _ => rfl) rfl
      fun he => ?_
    rw [he.f (by decide)]
  case iin =>
    refine stdAnswers_dev hs (g := fun d => leBytes 2 (linear11 (d.f ST_IIN_IIN) 16 (-4) 0)) 0x89 (by decide) (fun _ _ => rfl) rfl
      fun he => ?_
    rw [he.f (by decide)]
  case vout => exact stdAnswers_railRead hs howner 0x8B (by decide) (fun _ _ => rfl) rfl fun he => he.voutWord r
  case iout =>
    refine stdAnswers_railRead hs howner (g := fun d r => linear11 (d.fi FL_ISUM_ISUM r) 4 (-2) 1) 0x8C (by decide) (fun _ _ => rfl) rfl
      fun he => ?_
    rw [he.fi (by decide)]
  case temp => exact readTemperature1_stdAnswers hs howner
  case pout =>
    refine stdAnswers_railRead hs howner (g := fun d r => linear11 (max 0 (voutRead d r).1 * d.fi FL_ISUM_ISUM r)
      ((voutRead d r).2 * 4000000) (-2) 4) 0x96 (by decide) (fun _ _ => rfl) rfl fun he => ?_
    rw [he.voutRead, he.fi (by decide)]

end Sys2Proof.Machine
end

section
/-! PROOF. A fetch leaves the general registers, and the control registers but TCNT, as they are (R592 to R594, R635). -/

namespace Sys2Proof.Machine

/-! ### Accesses to memory leave the registers of the CPUs -/

/-- The registers of every CPU are the same in both devices. -/
structure SameCpus (d e : Dev) : Prop where
  creg : e.creg = d.creg
  gpr : e.gpr = d.gpr

theorem SameCpus.refl (d : Dev) : SameCpus d d := ⟨rfl, rfl⟩

theorem SameCpus.trans {d e x : Dev} (h : SameCpus d e) (h' : SameCpus e x) : SameCpus d x :=
  ⟨h'.creg.trans h.creg, h'.gpr.trans h.gpr⟩

theorem sameCpus_setH (d : Dev) (v : Hid) (i : Nat) (x : Int) : SameCpus d (d.setH v i x) := ⟨rfl, rfl⟩
theorem sameCpus_set1 (d : Dev) (F : Fld) (i : Nat) : SameCpus d (d.set1 F i) := ⟨rfl, rfl⟩
theorem sameCpus_setF (d : Dev) (F : Fld) (i : Nat) (v : Int) : SameCpus d (d.setF F i v) := ⟨rfl, rfl⟩

theorem sameCpus_setR (d : Dev) (R : Reg) (i : Nat) (w : Word) : SameCpus d (d.setR R i w) := ⟨rfl, rfl⟩

theorem sameCpus_incSat (d : Dev) (F : Fld) (i : Nat) : SameCpus d (d.incSat F i) := by
  unfold Dev.incSat
  split <;> exact ⟨rfl, rfl⟩

theorem sameCpus_refuse (d : Dev) (part : Nat) (warden : Bool) (kind : Nat) (owner : Nat × Bool) (write : Bool) (src target : Nat) :
    SameCpus d (refuse d part warden kind owner write src target) := by
  have hcount : SameCpus d (((d.incSat CH_PREF_COUNT part).incSat CH_REFCNT_TOTAL).set1 CH_CAUSE_REFUSED) :=
    ((sameCpus_incSat d CH_PREF_COUNT part).trans (sameCpus_incSat _ CH_REFCNT_TOTAL 0)).trans (sameCpus_set1 ..)
  unfold refuse
  dsimp only
  split
  · exact (hcount.trans (sameCpus_incSat _ CH_REFCNT_LOST 0)).trans (sameCpus_set1 ..)
  · have hput (e : Dev) (i j k l : Nat) (w x y z : Word) :
        SameCpus e ((((e.setR CH_REFLOG i w).setR CH_REFLOG j x).setR CH_REFLOG k y).setR CH_REFLOG l z) :=
      (((sameCpus_setR ..).trans (sameCpus_setR ..)).trans (sameCpus_setR ..)).trans (sameCpus_setR ..)
    exact (hcount.trans (hput ..)).trans ((sameCpus_setF ..).trans (sameCpus_setH ..))

theorem sameCpus_arb (d : Dev) (b slot : Nat) : SameCpus d (arb d b slot) := by
  unfold arb
  split
  · exact .refl d
  · refine SameCpus.trans (e := d.each 16 _) ?_ ⟨rfl, rfl⟩
    refine Dev.each_keep (P := SameCpus d) 16 d (.refl d) fun e i he => he.trans ?_
    dsimp only
    split <;> exact ⟨rfl, rfl⟩

theorem sameCpus_eccNote (d : Dev) (b off slot kind : Nat) : SameCpus d (eccNote d b off slot kind) := by
  unfold eccNote
  split
  · exact .refl d
  · have hmark (e : Dev) (F G H K : Fld) (v w x y : Int) :
        SameCpus e ((((e.setF F b v).setF G b w).setF H b x).setF K b y) :=
      (((sameCpus_setF ..).trans (sameCpus_setF ..)).trans (sameCpus_setF ..)).trans (sameCpus_setF ..)
    split
    · exact ((sameCpus_incSat d ME_BCNT_CE b).trans (sameCpus_set1 ..)).trans (hmark ..)
    · exact ((sameCpus_incSat d ME_BCNT_UE b).trans (sameCpus_set1 ..)).trans (hmark ..)

theorem sameCpus_wbPush (d : Dev) (w : Nat) : SameCpus d (wbPush d w) := by
  unfold wbPush
  split <;> exact ⟨rfl, rfl⟩

theorem sameCpus_addSat (d : Dev) (F : Fld) (i : Nat) (n : Nat) : SameCpus d (d.addSat F i n) := ⟨rfl, rfl⟩

theorem sameCpus_free (d : Dev) : SameCpus d d.free.2 := ⟨rfl, rfl⟩

theorem sameCpus_testCount (d : Dev) (l : Nat) : SameCpus d (testCount d l) := by
  unfold testCount
  split
  · exact (sameCpus_free d).trans (sameCpus_addSat ..)
  · exact .refl d

theorem sameCpus_dfeRead (d : Dev) (l : Nat) : SameCpus d (dfeRead d l).2 := by
  unfold dfeRead
  dsimp only
  split
  · exact .refl d
  split
  · exact (sameCpus_free d).trans ((sameCpus_setH ..).trans (sameCpus_setH ..))
  split
  · exact (sameCpus_free d).trans ((sameCpus_setH ..).trans (sameCpus_setH ..))
  · exact sameCpus_free d

/-- The side effect of a register's read. -/
theorem sameCpus_regRead (d : Dev) (who : Initiator) (R : Reg) (i : Nat) : SameCpus d (regRead d who R i).2 := by
  unfold regRead
  split
  · exact (sameCpus_setF ..).trans (sameCpus_setF ..)
  split
  · exact sameCpus_setF ..
  split
  · exact sameCpus_setH ..
  split
  · exact sameCpus_testCount ..
  split
  · exact sameCpus_dfeRead ..
  · exact .refl d

/-- The device after a flash read has noted where its error was. -/
def eccMarked (d : Dev) (a arr : Nat) (ue : Int) : Dev :=
  ((d.setF FC_ECCADDR_ADDR 0 (a % 0x400000 / 16 : Nat)).setF FC_ECCADDR_ARR 0 arr).setF FC_ECCADDR_UE 0 ue

theorem sameCpus_eccMarked (d : Dev) (a arr : Nat) (ue : Int) : SameCpus d (eccMarked d a arr ue) :=
  (sameCpus_setF ..).trans ((sameCpus_setF ..).trans (sameCpus_setF ..))

/-! ### What a fetch keeps of its CPU -/

/-- The general registers are the same in both states, and the control registers of CPU c but TCNT. -/
structure CpuKept (c : Nat) (s t : State) : Prop where
  cr : ∀ n, n ≠ crTCNT → t.dev.cr c n = s.dev.cr c n
  gpr : t.dev.gpr = s.dev.gpr

namespace CpuKept
variable {c : Nat} {s t u : State}

theorem refl (s : State) : CpuKept c s s := ⟨fun _ _ => rfl, rfl⟩

theorem trans (h : CpuKept c s t) (h' : CpuKept c t u) : CpuKept c s u :=
  ⟨fun n hn => (h'.cr n hn).trans (h.cr n hn), h'.gpr.trans h.gpr⟩

theorem same (h : SameCpus s.dev t.dev) : CpuKept c s t :=
  ⟨fun n _ => by rw [Dev.cr, h.creg, Dev.cr], h.gpr⟩

theorem either {p : Prop} [Decidable p] (h : CpuKept c s t) (k : CpuKept c s u) : CpuKept c s (if p then t else u) := by
  split
  · exact h
  · exact k

/-- The same of a result that carries its state with it. -/
theorem eitherOf {α : Type} (state : α → State) {p : Prop} [Decidable p] {x y : α} (h : CpuKept c s (state x))
    (k : CpuKept c s (state y)) : CpuKept c s (state (if p then x else y)) := by
  rw [apply_ite state]
  exact h.either k

theorem eitherSnd {α : Type} {p : Prop} [Decidable p] {x y : α × State} (h : CpuKept c s x.2) (k : CpuKept c s y.2) :
    CpuKept c s (if p then x else y).2 := .eitherOf Prod.snd h k

/-- The state that a result names is the state beside the result. -/
theorem snd {α : Type} {x : α × State} {a : α} (e : x = (a, t)) (h : CpuKept c s x.2) : CpuKept c s t := by
  rw [e] at h
  exact h

theorem of_state {α : Type} (state : α → State) {x y : α} (e : x = y) (h : CpuKept c s (state x)) : CpuKept c s (state y) := e ▸ h

/-! ### Loads -/

theorem sramRead (s : State) (b a n slot : Nat) : CpuKept c s (sramRead s b a n slot).2 := by
  have hnote (off : Nat) (l : List (Nat × Nat)) (d : Dev) (hd : SameCpus s.dev d) (m : List Nat) : SameCpus s.dev
      (m.foldl (fun d j => eccNote d b (off + j) slot ((l[j]?).getD (0, 0)).2) d) := by
    induction m generalizing d with
    | nil => exact hd
    | cons j m ih => exact ih _ (hd.trans (sameCpus_eccNote ..))
  refine .same ?_
  unfold Machine.sramRead
  dsimp only
  have hread := hnote (bankOff b a) (sramLanes (s.onDev fun d => arb d b slot) (wordKey (arb s.dev b slot) b a) (a % 4) n)
    (arb s.dev b slot) (sameCpus_arb ..) (List.range n)
  split <;> split
  · exact hread.trans (sameCpus_wbPush ..)
  · exact hread
  · exact hread.trans (sameCpus_wbPush ..)
  · exact hread

theorem denied (s : State) (who : Initiator) (kind : Nat) (owner : Nat × Bool) (write : Bool) (a : Nat) :
    CpuKept c s (denied s who kind owner write a).2 :=
  .same (sameCpus_refuse s.dev (tagOf s.dev who).1 (tagOf s.dev who).2 kind owner write (srcOf who) a)

theorem offErr (s : State) : CpuKept c s (offErr s).2 := .same ⟨rfl, rfl⟩

theorem testLoad (s : State) (b a : Nat) : CpuKept c s (testLoad s b a).2 :=
  .same ((sameCpus_arb s.dev b 4).trans ⟨rfl, rfl⟩)

theorem flashRead (s : State) (a n : Nat) : CpuKept c s (flashRead s a n).2 := by
  unfold Machine.flashRead
  split
  · exact .refl s
  have hfree (arr k : Nat) : SameCpus s.dev (s.dev.setH .fcPair arr (k / 32 + 1 : Nat)).free.2.free.2 :=
    (sameCpus_setH ..).trans ((sameCpus_free _).trans (sameCpus_free _))
  have herror (arr k : Nat) (F G : Fld) (ue : Int) :
      SameCpus s.dev (eccMarked (((s.dev.setH .fcPair arr (k / 32 + 1 : Nat)).free.2.free.2.set1 F).incSat G) a arr ue) :=
    (hfree arr k).trans ((sameCpus_set1 ..).trans ((sameCpus_incSat ..).trans (sameCpus_eccMarked ..)))
  refine .eitherSnd (.same ⟨rfl, rfl⟩) (.eitherSnd (.same (sameCpus_setH ..)) (.eitherSnd (.same (herror ..)) (.same ?_)))
  dsimp only
  split
  · exact herror ..
  · exact hfree ..

theorem flashLoad (s : State) (who : Initiator) (a n : Nat) : CpuKept c s (flashLoad s who a n).2 :=
  .eitherSnd (.offErr s) (.eitherSnd (.flashRead ..) (.denied ..))

theorem sramLoad (s : State) (who : Initiator) (b a n : Nat) : CpuKept c s (sramLoad s who b a n).2 :=
  .eitherSnd (.offErr s) (.eitherSnd (.denied ..) (.eitherSnd (.testLoad ..) (.sramRead ..)))

theorem gvLoad (s : State) (who : Initiator) (a : Nat) : CpuKept c s (gvLoad s who a).2 :=
  .eitherSnd (.offErr s) (.eitherSnd (.refl s) (.denied ..))

theorem regLoad (s : State) (who : Initiator) (a : Nat) : CpuKept c s (regLoad s who a).2 := by
  unfold Machine.regLoad
  split
  · exact .eitherSnd (.refl s) (.offErr s)
  · exact .eitherSnd (.offErr s) (.eitherSnd (.same (sameCpus_regRead ..)) (.denied ..))

theorem tokenLoad (s : State) (a : Nat) : CpuKept c s (tokenLoad s a).2 := .eitherSnd (.refl s) (.same ⟨rfl, rfl⟩)

theorem busLoad (s : State) (who : Initiator) (a n : Nat) : CpuKept c s (busLoad s who a n).2 := by
  unfold Machine.busLoad
  refine .eitherSnd (.refl s) (.eitherSnd (.flashLoad ..) ?_)
  cases sramBank a with
  | some b => exact .sramLoad ..
  | none =>
    refine .eitherSnd (.refl s) (.eitherSnd (.gvLoad ..) (.eitherSnd ?ring (.eitherSnd ?token (.eitherSnd (.regLoad ..) ?shadow))))
    case ring => exact .eitherSnd (.refl s) (.denied ..)
    case token => exact .eitherSnd (.tokenLoad ..) (.denied ..)
    case shadow => exact .eitherSnd (.eitherSnd (.refl s) (.denied ..)) (.refl s)

/-! ### Translation -/

theorem tableRead (s : State) (k a : Nat) : CpuKept c s (tableRead s k a).2 := by
  unfold Machine.tableRead
  refine .eitherSnd (.same ⟨rfl, rfl⟩) ?_
  split
  all_goals next hread => exact .snd hread (.sramRead ..)

theorem walkEnd (s : State) (p a : Nat) (x : Slot) : CpuKept c s (walkEnd s p a x).state :=
  .eitherOf Walk.state (.refl s) (.refl s)

theorem walk2 (s : State) (k p a t2 : Nat) : CpuKept c s (walk2 s k p a t2).state := by
  unfold Machine.walk2
  refine .eitherOf Walk.state (.refl s) ?_
  extract_lets loc
  split
  next hread => exact .snd hread (.tableRead ..)
  next hread =>
    have ht : CpuKept c s _ := .snd hread (.tableRead ..)
    exact .eitherOf Walk.state ht (.eitherOf Walk.state ht (ht.trans (.walkEnd ..)))

theorem walk (s : State) (k p a : Nat) : CpuKept c s (walk s k p a).state := by
  unfold Machine.walk
  extract_lets root t1 loc
  refine .eitherOf Walk.state (.refl s) (.eitherOf Walk.state (.refl s) ?_)
  split
  next hread => exact .snd hread (.tableRead ..)
  next hread =>
    have ht : CpuKept c s _ := .snd hread (.tableRead ..)
    refine .eitherOf Walk.state ht (.eitherOf Walk.state ?second ?block)
    case second => exact .eitherOf Walk.state ht (ht.trans (.walk2 ..))
    case block => exact .eitherOf Walk.state ht (ht.trans (.walkEnd ..))

/-- A walk counts in TCNT, which no fetch is said to keep. -/
theorem tcntInc (s : State) (lo : Nat) : CpuKept c s (s.onDev fun d => tcntInc d c lo) :=
  ⟨fun _ hn => Dev.cr_setCr_other s.dev c _ (Ne.symm hn), rfl⟩

theorem sramWrite (s : State) (b a n v slot : Nat) : CpuKept c s (sramWrite s b a n v slot) := by
  have harb : CpuKept c s (sramPut (s.onDev fun d => arb d b slot) (wordKey (arb s.dev b slot) b a) (a % 4) (leBytes n v)) :=
    .same (by rw [sramPut_dev]; exact sameCpus_arb ..)
  have hdrop (t : State) : CpuKept c t (t.onDev fun d => icacheDrop d a n) := .same ⟨rfl, rfl⟩
  exact .either (harb.trans (hdrop _)) harb

theorem missFill (s : State) (k va : Nat) (acc : AccKind) (perm1 blk ipa lg1 : Nat) (x : Slot) :
    CpuKept c s (missFill s k va acc perm1 blk ipa lg1 x).state := by
  unfold Machine.missFill
  extract_lets may new s1 lg pa cut e s2
  have h2 : CpuKept c s s2 := CpuKept.trans (t := s1) (.either (.refl s) (.sramWrite ..)) (.same ⟨rfl, rfl⟩)
  exact .eitherOf Tr.state h2 h2

theorem trMiss (s : State) (va level : Nat) (acc : AccKind) : CpuKept c s (trMiss s c va level acc).state := by
  unfold Machine.trMiss
  split
  · exact .refl s
  split
  · exact .refl s
  refine .eitherOf Tr.state (.refl s) ?_
  have hcount : CpuKept c s (s.onDev fun d => Machine.tcntInc d c 0) := .tcntInc ..
  split
  next hwalk => exact hcount.trans (.of_state Walk.state hwalk (.walk ..))
  next hwalk => exact hcount.trans (CpuKept.trans (.of_state Walk.state hwalk (.walk ..)) (.missFill ..))

theorem dirtyUpdate (s : State) (e : TlbEntry) (va level : Nat) (acc : AccKind) :
    CpuKept c s (dirtyUpdate s c e va level acc).state := by
  unfold Machine.dirtyUpdate
  split
  next hread => exact .snd hread (.tableRead ..)
  next hread =>
    refine CpuKept.trans (.snd hread (.tableRead ..)) (.eitherOf Tr.state ?changed ?dirty)
    case changed =>
      refine CpuKept.trans ?_ (.trMiss ..)
      exact .same ⟨rfl, rfl⟩
    case dirty =>
      extract_lets u
      refine CpuKept.trans (t := u) (.sramWrite ..) ?_
      exact .same ⟨rfl, rfl⟩

theorem trHit (s : State) (e : TlbEntry) (va level : Nat) (acc : AccKind) : CpuKept c s (trHit s c e va level acc).state := by
  unfold Machine.trHit
  extract_lets ipa
  split
  · exact .refl s
  · exact .eitherOf Tr.state (.refl s) (.eitherOf Tr.state (.refl s) (.eitherOf Tr.state (.dirtyUpdate ..) (.refl s)))

theorem cpuTranslate (s : State) (va level : Nat) (acc : AccKind) : CpuKept c s (cpuTranslate s c va level acc).state := by
  refine .eitherOf Tr.state ?_ (.refl s)
  unfold translate
  split
  · exact .trHit ..
  · exact .trMiss ..

/-! ### Lines and the fetch -/

theorem lineRead (s : State) (k line first : Nat) : CpuKept c s (lineRead s k line first).2 := by
  unfold Machine.lineRead
  generalize hx : (([], s) : List (Nat × Res) × State) = x
  have hs : CpuKept c s x.2 := hx ▸ .refl s
  clear hx
  generalize List.range 8 = l
  induction l generalizing x with
  | nil => exact hs
  | cons j l ih => exact ih _ (hs.trans (.busLoad ..))

theorem lineGet (s : State) (k line first : Nat) : CpuKept c s (lineGet s k line first).2 := by
  unfold Machine.lineGet
  split
  · exact .same ⟨rfl, rfl⟩
  · exact (CpuKept.lineRead ..).trans (.eitherSnd (.same ⟨rfl, rfl⟩) (.refl _))

theorem lineAhead (s : State) (va pa : Nat) : CpuKept c s (lineAhead s c va pa).2 := by
  unfold Machine.lineAhead
  extract_lets next
  split
  next at_ t hat =>
  have ht : CpuKept c s t := by
    refine .snd hat (.eitherSnd (.refl s) ?_)
    split
    all_goals next htr => exact .of_state Tr.state htr (.cpuTranslate ..)
  split
  · exact ht.trans (.eitherSnd (.lineGet ..) (.refl t))
  · exact ht

theorem bufEnter (s : State) (va pa : Nat) (cur : Option ILine) : CpuKept c s (bufEnter s c va pa cur) :=
  (CpuKept.lineAhead ..).trans (.same ⟨rfl, rfl⟩)

theorem coreFetch (s : State) : CpuKept c s (coreFetch s c).2 := by
  unfold Machine.coreFetch
  extract_lets va
  split
  next htr => exact .of_state Tr.state htr (.cpuTranslate ..)
  next htr =>
    refine CpuKept.trans (.of_state Tr.state htr (.cpuTranslate ..)) (.eitherSnd ?cached (.eitherSnd (.busLoad ..) (.refl _)))
    split
    · exact .either (.refl _) (.bufEnter ..)
    · split
      next hline =>
        have ht : CpuKept c _ _ := .snd hline (.lineGet ..)
        split
        · exact ht
        · exact ht.trans (.bufEnter ..)

theorem cpuFetch (s : State) (cpu : Cpu) : CpuKept (cpuId cpu) s (cpuFetch s cpu).2 := by
  unfold Machine.cpuFetch
  split
  · exact .refl s
  · refine CpuKept.trans ?_ (.coreFetch _)
    exact .same (sameCpus_setH ..)

end CpuKept

end Sys2Proof.Machine
end

section
/-! PROOF. The core's events beside its instructions, the two instructions that end a pass, and what holds of the fetch of every
instruction (R593 to R621). -/

namespace Sys2Proof.Machine

/-! ### SYNC and the store buffer -/

/-- Where a SYNC has performed every store and write, it ends at the next word, or in the late error that is pending. -/
theorem sync_issued {s s' : State} {cpu : Cpu} (hissues : Issues s cpu s') (hkind : cpuKind cpu ≠ .engine) :
    let c := cpuId cpu
    let t := (aonSync (syncDrain s' c)).onDev fun d => bufDrop d c
    (t.dev.hon .cLate c = false → Leads (.sync cpu) s (t.onDev fun d => d.setPc c (s'.dev.pc c + 4)))
    ∧ (t.dev.hon .cLate c = true → Leads (.sync cpu) s (enterLate t c (s'.dev.pc c + 4).toNat false)) := by
  have hexec : exec (.sync cpu) s = execSync cpu s := rfl
  unfold Leads
  rw [hexec, execSync, runIns_issued hissues]
  refine ⟨fun hlate => ?_, fun hlate => ?_⟩
  all_goals
    simp only [hkind, if_false, hlate]
    rfl

theorem drainOne_front {s : State} {c : Nat} {e : SbEntry} {l : List SbEntry} (hsb : sbOf s.dev c = e :: l) :
    drainOne s c = (let t := busStore (s.onDev fun d => { d with sbuf := d.sbuf.erase e }) (coreInit c) e.addr e.n e.data
      match t.1 with
      | .ok _ => t.2
      | _ => t.2.onDev fun d => lateError d c e.addr) := by
  unfold drainOne
  rw [hsb]
  dsimp only [List.head?_cons]
  generalize busStore _ _ _ _ _ = t
  obtain ⟨r, u⟩ := t
  cases r <;> rfl

/-! ### The fill of a line -/

/-- The words of a line, each read once. -/
theorem lineRead_reads {k line first : Nat} {w : Nat → Nat} {u : Nat → State}
    (hread : ∀ j, j < 8 → busLoad (u j) (coreInit k) (line * 32 + 4 * ((first + j) % 8)) 4 = (.ok (w j), u (j + 1))) :
    lineRead (u 0) k line first = ((List.range 8).map fun j => ((first + j) % 8, Res.ok (w j)), u 8) := by
  unfold lineRead
  suffices h : ∀ n, n ≤ 8 → (List.range n).foldl (fun (x : List (Nat × Res) × State) j =>
      let w := (first + j) % 8
      let (r, s) := busLoad x.2 (coreInit k) (line * 32 + 4 * w) 4
      (x.1 ++ [(w, r)], s)) ([], u 0) = ((List.range n).map fun j => ((first + j) % 8, Res.ok (w j)), u n) from h 8 le_rfl
  intro n hn
  induction n with
  | zero => rfl
  | succ n ih =>
    rw [List.range_succ, List.foldl_append, ih (by omega), List.map_append]
    simp only [List.foldl_cons, List.foldl_nil, hread n (by omega), List.map_cons, List.map_nil]

/-- Word i of the line is the one read at the turn that reaches it from the first. -/
theorem readBytes_reads (w : Nat → Nat) {first i : Nat} (hfirst : first < 8) (hi : i < 8) :
    readBytes ((List.range 8).map fun j => ((first + j) % 8, Res.ok (w j))) i
      = some ((leBytes 4 (w ((i + 8 - first) % 8))).map (BitVec.ofNat 8)) := by
  have hfind : (List.range 8).find? (fun j => (first + j) % 8 == i) = some ((i + 8 - first) % 8) := by
    rw [List.find?_range_eq_some]
    simp only [beq_iff_eq, List.mem_range, Bool.not_eq_true', beq_eq_false_iff_ne]
    exact ⟨by omega, by omega, fun j hj => by omega⟩
  unfold readBytes
  rw [List.find?_map]
  simp only [Function.comp_def, hfind, Option.map_some]

theorem map_toNat_leBytes (n v : Nat) : ((leBytes n v).map (BitVec.ofNat 8)).map BitVec.toNat = leBytes n v := by
  rw [List.map_map]
  refine (List.map_congr_left fun x hx => ?_).trans (List.map_id _)
  exact Nat.mod_eq_of_lt (leBytes_lt hx)

theorem cacheLineFill_fills {s : State} {k : Fin 5} {addr : Word} {w : Nat → Nat} {u : Nat → State}
    (hruns : coreRuns s.dev k = true) (haddr : addr.toNat < 0x840000) (hmiss : cacheLine s.dev k (addr.toNat / 32) = none)
    (hstart : u 0 = s) (hread : ∀ j, j < 8 →
      busLoad (u j) (coreInit k) (addr.toNat / 32 * 32 + 4 * ((addr.toNat / 4 % 8 + j) % 8)) 4 = (.ok (w j), u (j + 1))) :
    ∃ b, Leads (.cacheLineFill k addr) s ((u 8).onDev fun d => lineInstall d k (addr.toNat / 32) b)
      ∧ b.map BitVec.toNat = (List.range 8).flatMap fun i => leBytes 4 (w ((i + 8 - addr.toNat / 4 % 8) % 8)) := by
  have hlines := lineRead_reads hread
  have hwords : (List.range 8).filterMap (readBytes ((List.range 8).map fun j => ((addr.toNat / 4 % 8 + j) % 8, Res.ok (w j))))
      = (List.range 8).map fun i => (leBytes 4 (w ((i + 8 - addr.toNat / 4 % 8) % 8))).map (BitVec.ofNat 8) := by
    rw [← List.filterMap_eq_map]
    exact List.filterMap_congr fun i hi => readBytes_reads w (Nat.mod_lt _ (by decide)) (List.mem_range.1 hi)
  refine ⟨((List.range 8).map fun i => (leBytes 4 (w ((i + 8 - addr.toNat / 4 % 8) % 8))).map (BitVec.ofNat 8)).flatten, ?_, ?_⟩
  · have hget : (lineGet s k (addr.toNat / 32) (addr.toNat / 4 % 8)).2 = (u 8).onDev fun d => lineInstall d k (addr.toNat / 32)
        ((List.range 8).map fun i => (leBytes 4 (w ((i + 8 - addr.toNat / 4 % 8) % 8))).map (BitVec.ofNat 8)).flatten := by
      unfold lineGet
      rw [hmiss, ← hstart, hlines]
      dsimp only
      rw [hwords]
      exact congrArg Prod.snd (if_pos (by rw [List.length_map, List.length_range]))
    have hcached : lineCached addr.toNat = true := by simp [lineCached, haddr]
    refine congrArg Host.Outcome.next ((if_neg ?_).trans hget)
    rw [hruns, hcached, hmiss]
    decide
  · rw [List.map_flatten, List.map_map, List.flatMap]
    exact congrArg List.flatten (List.map_congr_left fun i _ => map_toNat_leBytes ..)

/-! ### A missing translation -/

theorem tlbWalk_walks {s t : State} {k : Fin 4} {va : Word} {kind : Fin 4} {pa : Nat} (hmay : mayIssue s.dev (.core k) = true)
    (hmiss : tlbHit s.dev k va.toNat = none) (hwalk : trMiss s k va.toNat (s.dev.level k) (accOf kind) = .ok pa t) :
    Leads (.tlbWalk k va kind) s t := by
  have htranslate : translate s k va.toNat (s.dev.level k) (accOf kind) = .ok pa t := by
    unfold translate
    rw [hmiss]
    exact hwalk
  refine congrArg Host.Outcome.next ((if_neg ?_).trans ?_)
  · rw [hmay, hmiss]
    decide
  · rw [htranslate]

/-! ### The end of a pass -/

section
variable {s : State} {g : Grove} {e : Engine} {p : Pass} (hissues : Issues s (.engine g e) s) (hpass : passOn s.dev g e = some p)
  (hplain : 64 ≤ p.e2)
include hissues hpass hplain

/-- DONE or DROP of a task that is not shadowed. -/
theorem endIns_plain (kind : Nat) : endIns (.engine g e) kind s = .next (passOver s p kind) := by
  refine (runIns_issued hissues _).trans (congrArg Host.Outcome.next ?_)
  have hcmp : cmpWith p e (endKey kind) 0 = some p := if_pos hplain
  dsimp only
  rw [hpass]
  dsimp only
  rw [hcmp]
  dsimp only
  rw [if_pos (by simp [hplain])]
  rfl

theorem done_task (hstd : s.dev.hn .gStd (tk p.grove p.task) = 0) :
    Makes (.done (.engine g e)) s fun d => passEnd d p 1 := by
  refine (endIns_plain hissues hpass hplain 1).trans (congrArg Host.Outcome.next (if_neg ?_))
  rw [hstd]
  decide

theorem done_standard (hstd : s.dev.hn .gStd (tk p.grove p.task) ≠ 0) :
    let law := stdLaw s p (s.dev.hn .gStd (tk p.grove p.task) - 1)
    Leads (.done (.engine g e)) s (law.1.onDev fun d => passEnd d p law.2) :=
  (endIns_plain hissues hpass hplain 1).trans (congrArg Host.Outcome.next (if_pos (by simp [hstd])))

theorem drop_task : Makes (.drop (.engine g e)) s fun d => passEnd d p 2 :=
  endIns_plain hissues hpass hplain 2

end

/-! ### Every instruction is fetched -/

theorem runIns_notIssued {s : State} {cpu : Cpu} (hmay : mayIssue s.dev cpu = false) (f : State → Ins) : runIns cpu s f = .next s :=
  congrArg Host.Outcome.next (if_pos (by rw [hmay]; rfl))

theorem runIns_fetchFault {s t : State} {cpu : Cpu} {x : Trap} (hmay : mayIssue s.dev cpu = true)
    (hfetch : cpuFetch s cpu = (some x, t)) (f : State → Ins) : runIns cpu s f = .next (raiseTrap t cpu x) := by
  refine congrArg Host.Outcome.next ((if_neg (by rw [hmay]; decide)).trans ?_)
  rw [hfetch]

/-- One of two instructions at the pc is an instruction at the pc. -/
theorem runIns_ite {p : Prop} [Decidable p] {s : State} {cpu : Cpu} (f g : State → Ins) :
    ∃ h, (if p then runIns cpu s f else runIns cpu s g) = runIns cpu s h := by
  split
  · exact ⟨f, rfl⟩
  · exact ⟨g, rfl⟩

/-- An instruction of a CPU is what it comes to from the state its fetch leaves. -/
theorem exec_runIns {i : Instr} {cpu : Cpu} (hcpu : cpuOf i = some cpu) (s : State) : ∃ f, exec i s = runIns cpu s f := by
  unfold cpuOf at hcpu
  split at hcpu
  case h_32 | h_33 | h_34 | h_35 | h_40 | h_41 | h_42 | h_43 =>
    cases hcpu
    exact runIns_ite ..
  case h_80 => exact absurd hcpu nofun
  all_goals
    cases hcpu
    exact ⟨_, rfl⟩

theorem illegalInstruction_issued {s t : State} {cpu : Cpu} (hissues : Issues s cpu t) (w : Word) :
    (legalWord (cpuKind cpu) w = false → Leads (.illegalInstruction cpu w) s (raiseTrap t cpu { vec := 1 }))
    ∧ (legalWord (cpuKind cpu) w = true → Leads (.illegalInstruction cpu w) s t) := by
  have hexec : exec (.illegalInstruction cpu w) s = execIllegalInstruction cpu w s := rfl
  unfold Leads
  rw [hexec, execIllegalInstruction, runIns_issued hissues]
  refine ⟨fun hlegal => ?_, fun hlegal => ?_⟩
  · rw [hlegal, if_neg Bool.false_ne_true]
    rfl
  · rw [if_pos hlegal]
    rfl

theorem cpuId_lt_five {cpu : Cpu} (hkind : cpuKind cpu ≠ .engine) : cpuId cpu < 5 := by
  cases cpu with
  | core k => exact Nat.lt_succ_of_lt k.isLt
  | warden => decide
  | engine g e => exact absurd rfl hkind

theorem interruptTake_takes {s : State} {cpu : Cpu} (divide : Bool) (hkind : cpuKind cpu ≠ .engine)
    (hruns : coreRuns s.dev (cpuId cpu) = true) (him : s.dev.im (cpuId cpu) = false) (hpending : intPending s.dev (cpuId cpu) = true) :
    Leads (.interruptTake cpu divide) s (takeInt s (cpuId cpu) (divide && !s.dev.hon .cWait (cpuId cpu))) :=
  congrArg Host.Outcome.next (if_pos (by simp [cpuId_lt_five hkind, hruns, him, hpending]))

/-- Settles O60: each event by its own lemma; what holds of the fetch of every instruction follows from the form that all of them
have. -/
theorem coreEvents : Obligations.CoreEvents := by
  unfold Obligations.CoreEvents
  intro s cpu
  refine ⟨fun s' => sync_issued, fun e l hsb => ?drain, fun k hruns => ?halt, fun k addr w u => cacheLineFill_fills,
    fun k va kind pa t => tlbWalk_walks, interruptTake_takes, ?pass, fun w t hissues => illegalInstruction_issued hissues w,
    fun i hcpu => ⟨fun hmay => ?notIssued, fun x t hmay hfetch => ?fault⟩, fun s' hissues => ?kept⟩
  case drain => exact congrArg Host.Outcome.next (drainOne_front hsb)
  case halt => exact congrArg Host.Outcome.next (if_pos hruns)
  case pass =>
    rintro g e p rfl hissues hpass hplain
    exact ⟨done_task hissues hpass hplain, done_standard hissues hpass hplain, drop_task hissues hpass hplain⟩
  case notIssued =>
    obtain ⟨f, hexec⟩ := exec_runIns hcpu s
    exact hexec.trans (runIns_notIssued hmay f)
  case fault =>
    obtain ⟨f, hexec⟩ := exec_runIns hcpu s
    exact hexec.trans (runIns_fetchFault hmay hfetch f)
  case kept =>
    obtain ⟨-, hfetch⟩ := hissues
    have hkept : CpuKept (cpuId cpu) s s' := .snd hfetch (.cpuFetch s cpu)
    refine ⟨hkept.cr crPC (by decide), fun r => ?_, hkept.cr crCS (by decide)⟩
    rw [Dev.g, hkept.gpr, Dev.g]

end Sys2Proof.Machine
end
